-- ==== Sys2Proof/Word.lean ====
section
/-! DEFINITION. The word types of the part: 64-bit registers and addresses (R11, R42, R43), bytes (R7), 128-byte lines
(R20), 256-byte vector registers and tile rows (R85, R169), FP32 accumulator rows of 128 cells (R118). -/

namespace Sys2Proof

/-- A 64-bit register or address. -/
abbrev Word := BitVec 64
/-- One byte of memory. -/
abbrev Byte := BitVec 8
/-- One FP32 or INT32 element, or the first word of an instruction. -/
abbrev W32 := BitVec 32
/-- A 128-byte memory line, byte 0 in bits 7:0 (R7). -/
abbrev Line := BitVec 1024
/-- A vector register or a tile row, 256 bytes. -/
abbrev Row := BitVec 2048
/-- A row of an accumulator, 128 FP32 cells. -/
abbrev AccRow := BitVec 4096

end Sys2Proof
end

