-- ==== Sys2Proof/Syntax.lean ====
section
/-! DEFINITION. The commands of the part and what they carry: the origin of a register access, packets of the on-chip networks,
Tether messages and flits, Hawser frames. -/
namespace Sys2Proof
/-- Who makes a register access (R11, R12): a core, a Headgate (0 west, 1 east), or the companion. -/
inductive Origin where
  | core (c : Nat)
  | hg (h : Nat)
  | comp
  deriving DecidableEq, Repr
/-- A packet of the Weir or Canal (R342): endpoints, class, partition, format, tag and flags, operation, reset generation,
transaction number, length, cause, address, payload; and of the model: the bytes asked for, the byte mask of a write, the words
found uncorrectable, a sub-operation, the router and word at which its header lane is lost (R453), and the transfer words that the
switches on its way corrected (R34): router, lane (11 header, 12 payload), position and syndrome. -/
structure Packet where
  dst : Nat
  src : Nat
  cls : Nat
  part : Nat
  fmt : Nat
  tag : Nat
  nf : Bool
  last : Bool
  braid : Bool
  snap : Bool
  det : Bool
  vn : Bool
  op : Nat
  rgen : Bool
  txid : Nat
  len16 : Nat
  cause : Nat
  addr : Nat
  payload : Line
  size : Nat
  mask : BitVec 128
  bad : BitVec 32
  sub : Nat
  lost : Option (Nat × Nat)
  fixes : List (Nat × Nat × Nat × Nat)
  deriving DecidableEq, Repr
/-- A Tether message (R401, R402): class, operation, transaction number, tags, status, coherence state, line address or
MGMT address or vector, line data and byte mask. -/
structure TMsg where
  cls : Nat
  op : Nat
  txid : Nat
  part : Nat
  tag : Nat
  fmt : Nat
  nf : Bool
  status : Nat
  state : Nat
  addr : Nat
  data : Line
  mask : BitVec 128
  deriving DecidableEq, Repr

/-- A Tether flit as received (R398): whether its CRC is good, FSEQ, ACKSEQ, the freed slots of the five classes, the WIDTH of
a STEER, and the message of a MSG flit with its NSLOT (log 26). -/
structure Flit where
  crc : Bool
  fseq : Nat
  ack : Nat
  cr : List Nat
  width : Nat
  msg : TMsg
  nslot : Nat
  deriving DecidableEq, Repr

/-- A Hawser frame as received or sent (R373): the header's fields, the payload, the codewords its reception corrected and
could not correct, and whether its GCM tag verifies.  `fin` marks the element of a DDATA frame as its descriptor's last, which
the destination must know to return DDONE (R393) and no header field names (DESIGN CHOICE, log 40). -/
structure Frame where
  typ : Nat
  ver : Nat
  smod : Nat
  dmod : Nat
  part : Nat
  ksel : Nat
  len : Nat
  seq : Nat
  tag : Nat
  fmt : Nat
  nf : Bool
  last : Bool
  braid : Bool
  snap : Bool
  xs : Nat
  w3 : Nat
  w4 : Nat
  cred : Nat
  ack : Nat
  payload : List Byte
  corr : Nat
  unc : Nat
  auth : Bool
  fin : Bool
  deriving DecidableEq, Repr

/-- The commands of the part: one constructor for each row of the table of operations and events. -/
inductive Instr where
  /-- ADD (R52). GD := GA + GB modulo 2^64. -/
  | add (c gd ga gb : Nat)
  /-- SUB (R52). GD := GA - GB modulo 2^64. -/
  | sub (c gd ga gb : Nat)
  /-- AND (R52). GD := GA and GB. -/
  | and (c gd ga gb : Nat)
  /-- OR (R52). GD := GA or GB. -/
  | or (c gd ga gb : Nat)
  /-- XOR (R52). GD := GA xor GB. -/
  | xor (c gd ga gb : Nat)
  /-- SLL (R52). GD := GA shifted left by GB[5:0]. -/
  | sll (c gd ga gb : Nat)
  /-- SRL (R52). GD := GA shifted right by GB[5:0] with zero fill. -/
  | srl (c gd ga gb : Nat)
  /-- SRA (R52). GD := GA shifted right by GB[5:0] with sign fill. -/
  | sra (c gd ga gb : Nat)
  /-- SLT (R52). GD := 1 when GA < GB signed, else 0. -/
  | slt (c gd ga gb : Nat)
  /-- SLTU (R52). GD := 1 when GA < GB unsigned, else 0. -/
  | sltu (c gd ga gb : Nat)
  /-- MIN (R52). GD := the signed minimum of GA and GB. -/
  | min (c gd ga gb : Nat)
  /-- MAX (R52). GD := the signed maximum of GA and GB. -/
  | max (c gd ga gb : Nat)
  /-- MINU (R52). GD := the unsigned minimum of GA and GB. -/
  | minu (c gd ga gb : Nat)
  /-- MAXU (R52). GD := the unsigned maximum of GA and GB. -/
  | maxu (c gd ga gb : Nat)
  /-- CLZ (R52). GD := the number of leading zeros of GA. -/
  | clz (c gd ga gb : Nat)
  /-- CTZ (R52). GD := the number of trailing zeros of GA. -/
  | ctz (c gd ga gb : Nat)
  /-- POPC (R52). GD := the number of set bits of GA. -/
  | popc (c gd ga gb : Nat)
  /-- ANDN (R52). GD := GA and not GB. -/
  | andn (c gd ga gb : Nat)
  /-- ADDI (R53). GD := GA + sext(IMM15). -/
  | addi (c gd ga imm : Nat)
  /-- ANDI (R53). GD := GA and sext(IMM15). -/
  | andi (c gd ga imm : Nat)
  /-- ORI (R53). GD := GA or sext(IMM15). -/
  | ori (c gd ga imm : Nat)
  /-- XORI (R53). GD := GA xor sext(IMM15). -/
  | xori (c gd ga imm : Nat)
  /-- SLTI (R53). GD := 1 when GA < sext(IMM15) signed. -/
  | slti (c gd ga imm : Nat)
  /-- SLTIU (R53). GD := 1 when GA < sext(IMM15) unsigned. -/
  | sltiu (c gd ga imm : Nat)
  /-- SHI (R53). Shifts GA by an immediate amount of the kind selected by IMM15[7:6]. -/
  | shi (c gd ga imm : Nat)
  /-- LIH (R54). GD := sext(IMM20 << 12). -/
  | lih (c gd imm : Nat)
  /-- LIW (R54). GD := sext(IMM32), a 64-bit instruction. -/
  | liw (c gd rsv imm : Nat)
  /-- MUL (R55). GD := the low 64 bits of GA x GB. -/
  | mul (c gd ga gb : Nat)
  /-- MULH (R55). GD := the high 64 bits of the signed product. -/
  | mulh (c gd ga gb : Nat)
  /-- MULHU (R55). GD := the high 64 bits of the unsigned product. -/
  | mulhu (c gd ga gb : Nat)
  /-- DIV (R55). GD := the signed quotient rounded toward zero, with no fault. -/
  | div (c gd ga gb : Nat)
  /-- DIVU (R55). GD := the unsigned quotient. -/
  | divu (c gd ga gb : Nat)
  /-- REM (R55). GD := the signed remainder. -/
  | rem (c gd ga gb : Nat)
  /-- REMU (R55). GD := the unsigned remainder. -/
  | remu (c gd ga gb : Nat)
  /-- LB (R56). Loads one byte, sign-extended. -/
  | lb (c gd ga imm : Nat)
  /-- LBU (R56). Loads one byte, zero-extended. -/
  | lbu (c gd ga imm : Nat)
  /-- LH (R56). Loads two bytes, sign-extended. -/
  | lh (c gd ga imm : Nat)
  /-- LHU (R56). Loads two bytes, zero-extended. -/
  | lhu (c gd ga imm : Nat)
  /-- LW (R56). Loads four bytes, sign-extended. -/
  | lw (c gd ga imm : Nat)
  /-- LWU (R56). Loads four bytes, zero-extended. -/
  | lwu (c gd ga imm : Nat)
  /-- LD (R56). Loads eight bytes. -/
  | ld (c gd ga imm : Nat)
  /-- SB (R56). Stores the low byte of GS. -/
  | sb (c gs ga imm : Nat)
  /-- SH (R56). Stores the low two bytes of GS. -/
  | sh (c gs ga imm : Nat)
  /-- SW (R56). Stores the low four bytes of GS. -/
  | sw (c gs ga imm : Nat)
  /-- SD (R56). Stores the eight bytes of GS. -/
  | sd (c gs ga imm : Nat)
  /-- ATOMIC_SWAP (R58). Atomic at the home that writes GB and returns the old value. -/
  | atomicSwap (c : Nat) (wide : Bool) (rsv gd ga gb : Nat)
  /-- ATOMIC_ADD (R58). Atomic add at the home. -/
  | atomicAdd (c : Nat) (wide : Bool) (rsv gd ga gb : Nat)
  /-- ATOMIC_AND (R58). Atomic and at the home. -/
  | atomicAnd (c : Nat) (wide : Bool) (rsv gd ga gb : Nat)
  /-- ATOMIC_OR (R58). Atomic or at the home. -/
  | atomicOr (c : Nat) (wide : Bool) (rsv gd ga gb : Nat)
  /-- ATOMIC_XOR (R58). Atomic xor at the home. -/
  | atomicXor (c : Nat) (wide : Bool) (rsv gd ga gb : Nat)
  /-- ATOMIC_MAX (R58). Atomic signed maximum at the home. -/
  | atomicMax (c : Nat) (wide : Bool) (rsv gd ga gb : Nat)
  /-- ATOMIC_MIN (R58). Atomic signed minimum at the home. -/
  | atomicMin (c : Nat) (wide : Bool) (rsv gd ga gb : Nat)
  /-- ATOMIC_MAXU (R58). Atomic unsigned maximum at the home. -/
  | atomicMaxu (c : Nat) (wide : Bool) (rsv gd ga gb : Nat)
  /-- ATOMIC_MINU (R58). Atomic unsigned minimum at the home. -/
  | atomicMinu (c : Nat) (wide : Bool) (rsv gd ga gb : Nat)
  /-- ATOMIC_CAS (R58). Atomic compare-and-swap at the home. -/
  | atomicCas (c : Nat) (wide : Bool) (rsv gd ga gb : Nat)
  /-- BEQ (R59). Branches when GA equals GB. -/
  | beq (c ga gb off : Nat)
  /-- BNE (R59). Branches when GA differs from GB. -/
  | bne (c ga gb off : Nat)
  /-- BLT (R59). Branches when GA < GB signed. -/
  | blt (c ga gb off : Nat)
  /-- BGE (R59). Branches when GA >= GB signed. -/
  | bge (c ga gb off : Nat)
  /-- BLTU (R59). Branches when GA < GB unsigned. -/
  | bltu (c ga gb off : Nat)
  /-- BGEU (R59). Branches when GA >= GB unsigned. -/
  | bgeu (c ga gb off : Nat)
  /-- JAL (R59). GD := PC + 4 and jumps PC-relative. -/
  | jal (c gd off : Nat)
  /-- JALR (R59). GD := PC + 4 and jumps to GA + sext(IMM15) with the low bits cleared. -/
  | jalr (c gd ga imm : Nat)
  /-- ECALL (R61). Takes the ECALL exception. -/
  | ecall (c gd ga gb : Nat)
  /-- BREAK (R61). Takes the BREAK exception. -/
  | brk (c gd ga gb : Nat)
  /-- MRET (R61). Returns from a handler, restoring PC, privilege and IE and clearing INEXC. -/
  | mret (c gd ga gb : Nat)
  /-- WFI (R61). Waits until IPEND and IENABLE share a set bit. -/
  | wfi (c gd ga gb : Nat)
  /-- FENCE (R61). Waits until every earlier memory access of the task has completed. -/
  | fence (c gd ga gb : Nat)
  /-- FENCE_I (R61). Does a FENCE, then invalidates the core's instruction cache. -/
  | fenceI (c gd ga gb : Nat)
  /-- TSWITCH (R69). Makes context c RUNNING and the caller READY, in 8 core cycles. -/
  | tswitch (c gd ga gb : Nat)
  /-- CTXSAVE (R71). Saves context c's scalar state, and its engine state when it owns it, to the save area. -/
  | ctxsave (c gd ga gb : Nat)
  /-- CTXLOAD (R71). Loads context c from its save area and makes it READY. -/
  | ctxload (c gd ga gb : Nat)
  /-- CSRRW (R62). Returns a core control register and writes GA into it. -/
  | csrrw (c gd ga imm : Nat)
  /-- CSRRS (R62). Returns a core control register and sets the bits set in GA. -/
  | csrrs (c gd ga imm : Nat)
  /-- CSRRC (R62). Returns a core control register and clears the bits set in GA. -/
  | csrrc (c gd ga imm : Nat)
  /-- INTERRUPT_TAKEN (R79). An enabled pending interrupt is taken at an instruction boundary through exception entry. -/
  | interruptTaken (c : Nat)
  /-- MAINT_SWITCH (R67). In maintenance mode, a wait that has lasted SW_THRESH core cycles makes the context WAITING and switches to the next context. -/
  | maintSwitch (c : Nat)
  /-- CONTEXT_SWITCH_DONE (R68). The incoming context issues its first instruction 8 core cycles after the switch decision. -/
  | contextSwitchDone (c : Nat)
  /-- ENG_STATE_MOVE_DONE (R70). A lazy engine-state move finishes its save and load, sets ENG_OWNER and issues the triggering instruction. -/
  | engStateMoveDone (c : Nat)
  /-- CYCLE_CMP_MATCH (R81). Core CYCLE reaches CYCLE_CMP, which sets IPEND.CYC. -/
  | cycleCmpMatch (c : Nat)
  /-- ISOFT_WRITE (R82). Writing 1 to ISOFT bit 0 sets IPEND.SOFT. -/
  | isoftWrite (o : Origin) (c : Nat) (v : Word)
  /-- CORE_RUN_WRITE (R83). Setting CORE_CTL.RUN releases context 0 at BOOT_VEC at privilege M. -/
  | coreRunWrite (o : Origin) (c : Nat) (v : Word)
  /-- CORE_MODE_WRITE (R66). A change of CORE_MODE.MAINT enters or leaves normal service at the next instruction boundary. -/
  | coreModeWrite (o : Origin) (c : Nat) (v : Word)
  /-- CTX_STATE_WRITE (R64). M-level code writes EMPTY or READY into the state of a context that is not RUNNING. -/
  | ctxStateWrite (o : Origin) (c : Nat) (v : Word)
  /-- ENG_ERR_CLEAR (R139). Clearing ENG_ERR.VALID restarts the stopped engine and lets held array instructions proceed. -/
  | engErrClear (o : Origin) (c : Nat) (v : Word)
  /-- TLOAD (R103). Loads rows TSTART.ROW to ROWS-1 of a tile from memory, checking each row in order. -/
  | tload (c tt ga gb rsv : Nat)
  /-- TSTORE (R104). Stores rows TSTART.ROW to ROWS-1 of a tile to memory. -/
  | tstore (c tt ga gb rsv : Nat)
  /-- TZERO (R110). Makes a tile FULL with every byte 0. -/
  | tzero (c tt rsv : Nat)
  /-- TREL (R111). Marks EMPTY the masked tiles once their earlier users complete. -/
  | trel (c mask rsv : Nat)
  /-- TCONF (R93). Writes TCFG of a tile as a tile barrier. -/
  | tconf (c tt ga rsv : Nat)
  /-- TCFG_MMIO_WRITE (R96). A memory-mapped TCFG write reaches ENG_OWNER's state, or is refused while RUN = 1. -/
  | tcfgMmioWrite (o : Origin) (c t : Nat) (v : Word)
  /-- TCFG_BARRIER_APPLY (R94). After every earlier tile user completes, the new TCFG is written, CONF set, NF cleared and the tile made EMPTY. -/
  | tcfgBarrierApply (c : Nat)
  /-- TREL_APPLY (R111). After the masked tiles' earlier users complete, those tiles become EMPTY. -/
  | trelApply (c : Nat)
  /-- TLOAD_ROW_RETURN (R103). A TLOAD row returns from memory and is written to the tile, with its NF ORed into TCFG.NF. -/
  | tloadRowReturn (c row : Nat) (nf : Bool)
  /-- MMA (R124). Checks a matrix multiply-accumulate and queues it into the array. -/
  | mma (c sb sa tb ta btr atr bsrc asrc ovw acc r0 r1 ns ms ks : Nat)
  /-- MDRAIN (R132). Checks and queues a drain of an accumulator into a tile or scratchpad with conversion and an amax merge. -/
  | mdrain (c r0 fmt rm gb ga td r1 dst acc r2 nc coff tag : Nat)
  /-- MCFG (R137). Writes MCFG as an array barrier. -/
  | mcfg (c gd ga gb fn : Nat)
  /-- MCFG_BARRIER_APPLY (R137). After earlier MMAs and MDRAINs complete, the fold is written and used by later ones. -/
  | mcfgBarrierApply (c : Nat)
  /-- FEEDER_SLOT_RELEASE (R119). A whole K-panel slot in a feeder queue is released to the array. -/
  | feederSlotRelease (c : Nat)
  /-- MMA_COMPLETE (R127). The last cell performs the last K step of an MMA, which releases its source tiles. -/
  | mmaComplete (c : Nat)
  /-- MDRAIN_READ_END (R129). A drain's read phase ends and frees the accumulator for MMAs. -/
  | mdrainReadEnd (c : Nat)
  /-- MDRAIN_WRITTEN (R129). A drain's destination is written, and a destination tile becomes FULL. -/
  | mdrainWritten (c : Nat)
  /-- MDRAIN_COMPLETE (R129). A tagged drain's Gauge merge is accepted at the entry's home, which completes the drain for ordering. -/
  | mdrainComplete (c : Nat)
  /-- VARITH_ADD (R175). Vector floating-point add. -/
  | varithAdd (c vd va vb pm z w : Nat)
  /-- VARITH_SUB (R175). Vector floating-point subtract. -/
  | varithSub (c vd va vb pm z w : Nat)
  /-- VARITH_MUL (R175). Vector floating-point multiply. -/
  | varithMul (c vd va vb pm z w : Nat)
  /-- VARITH_DIV (R175). Vector floating-point divide. -/
  | varithDiv (c vd va vb pm z w : Nat)
  /-- VARITH_MIN (R175). Vector floating-point minimum. -/
  | varithMin (c vd va vb pm z w : Nat)
  /-- VARITH_MAX (R175). Vector floating-point maximum. -/
  | varithMax (c vd va vb pm z w : Nat)
  /-- VARITH_ABS (R175). Vector absolute value. -/
  | varithAbs (c vd va vb pm z w : Nat)
  /-- VARITH_NEG (R175). Vector negation. -/
  | varithNeg (c vd va vb pm z w : Nat)
  /-- VARITH_SQRT (R175). Vector square root. -/
  | varithSqrt (c vd va vb pm z w : Nat)
  /-- CVTFI (R175). Converts FP32 to saturating INT32. -/
  | cvtfi (c vd va vb pm z w : Nat)
  /-- CVTIF (R175). Converts INT32 to FP32. -/
  | cvtif (c vd va vb pm z w : Nat)
  /-- SCALEB (R175). Computes va x 2^n with one rounding. -/
  | scaleb (c vd va vb pm z w : Nat)
  /-- VARITH_MOV (R175). vd := va. -/
  | varithMov (c vd va vb pm z w : Nat)
  /-- VARITH_SEL (R175). Selects elementwise between va and vb by predicate. -/
  | varithSel (c vd va vb pm z w : Nat)
  /-- VINT_ADD (R175). Vector INT32 add. -/
  | vintAdd (c vd va vb pm z w : Nat)
  /-- VINT_SUB (R175). Vector INT32 subtract. -/
  | vintSub (c vd va vb pm z w : Nat)
  /-- VINT_MUL (R175). Vector INT32 multiply, low 32 bits. -/
  | vintMul (c vd va vb pm z w : Nat)
  /-- VINT_AND (R175). Vector INT32 and. -/
  | vintAnd (c vd va vb pm z w : Nat)
  /-- VINT_OR (R175). Vector INT32 or. -/
  | vintOr (c vd va vb pm z w : Nat)
  /-- VINT_XOR (R175). Vector INT32 xor. -/
  | vintXor (c vd va vb pm z w : Nat)
  /-- VINT_SLL (R175). Vector INT32 shift left. -/
  | vintSll (c vd va vb pm z w : Nat)
  /-- VINT_SRL (R175). Vector INT32 logical shift right. -/
  | vintSrl (c vd va vb pm z w : Nat)
  /-- VINT_SRA (R175). Vector INT32 arithmetic shift right. -/
  | vintSra (c vd va vb pm z w : Nat)
  /-- VINT_MIN (R175). Vector INT32 minimum. -/
  | vintMin (c vd va vb pm z w : Nat)
  /-- VINT_MAX (R175). Vector INT32 maximum. -/
  | vintMax (c vd va vb pm z w : Nat)
  /-- VFMA (R174). vd := va x vb + vd with one rounding. -/
  | vfma (c vd va vb pm z w : Nat)
  /-- VFMA_SUB (R174). vd := va x vb - vd. -/
  | vfmaSub (c vd va vb pm z w : Nat)
  /-- VFMA_NEG (R174). vd := -(va x vb) + vd. -/
  | vfmaNeg (c vd va vb pm z w : Nat)
  /-- VSCAL_ADD (R174). Vector add of a broadcast scalar from a g register. -/
  | vscalAdd (c vd va vb pm z w : Nat)
  /-- VSCAL_SUB (R174). Vector subtract of a broadcast scalar. -/
  | vscalSub (c vd va vb pm z w : Nat)
  /-- VSCAL_MUL (R174). Vector multiply by a broadcast scalar. -/
  | vscalMul (c vd va vb pm z w : Nat)
  /-- VSCAL_DIV (R174). Vector divide by a broadcast scalar. -/
  | vscalDiv (c vd va vb pm z w : Nat)
  /-- VSCAL_MIN (R174). Vector minimum with a broadcast scalar. -/
  | vscalMin (c vd va vb pm z w : Nat)
  /-- VSCAL_MAX (R174). Vector maximum with a broadcast scalar. -/
  | vscalMax (c vd va vb pm z w : Nat)
  /-- VCMP_EQ (R175). Writes a predicate of va = vb. -/
  | vcmpEq (c vd va vb pm z w : Nat)
  /-- VCMP_NE (R175). Writes a predicate of va != vb. -/
  | vcmpNe (c vd va vb pm z w : Nat)
  /-- VCMP_LT (R175). Writes a predicate of va < vb. -/
  | vcmpLt (c vd va vb pm z w : Nat)
  /-- VCMP_LE (R175). Writes a predicate of va <= vb. -/
  | vcmpLe (c vd va vb pm z w : Nat)
  /-- VCMP_GT (R175). Writes a predicate of va > vb. -/
  | vcmpGt (c vd va vb pm z w : Nat)
  /-- VCMP_GE (R175). Writes a predicate of va >= vb. -/
  | vcmpGe (c vd va vb pm z w : Nat)
  /-- VCMP_UNORD (R175). Writes a predicate that is true where either element is NaN. -/
  | vcmpUnord (c vd va vb pm z w : Nat)
  /-- VPRED_AND (R175). Predicate and. -/
  | vpredAnd (c vd va vb pm z w : Nat)
  /-- VPRED_OR (R175). Predicate or. -/
  | vpredOr (c vd va vb pm z w : Nat)
  /-- VPRED_XOR (R175). Predicate xor. -/
  | vpredXor (c vd va vb pm z w : Nat)
  /-- VPRED_ANDN (R175). Predicate and-not. -/
  | vpredAndn (c vd va vb pm z w : Nat)
  /-- FROMG (R175). Copies a g register into a predicate. -/
  | fromg (c vd va vb pm z w : Nat)
  /-- TOG (R175). Copies a predicate into a g register. -/
  | tog (c vd va vb pm z w : Nat)
  /-- BCAST (R175). Broadcasts element g[VB] of va to every element of vd. -/
  | bcast (c vd va vb pm z w : Nat)
  /-- VEXT (R175). Extracts element g[VB] of va into g[VD]. -/
  | vext (c vd va vb pm z w : Nat)
  /-- VINS (R175). Inserts the low bits of g[VA] into element g[VB] of vd. -/
  | vins (c vd va vb pm z w : Nat)
  /-- ROT (R175). Rotates the elements of va by g[VB]. -/
  | rot (c vd va vb pm z w : Nat)
  /-- VCVT_WIDEN (R179). Widens one part of a narrow-format register exactly, multiplied by 2^-s. -/
  | vcvtWiden (c vd va nfmt part rm rsv w : Nat)
  /-- VCVT_NARROW (R179). Converts va x 2^s to the narrow format into one part of vd and sends one Gauge merge. -/
  | vcvtNarrow (c vd va nfmt part rm rsv w : Nat)
  /-- VLD (R177). Loads 256 bytes into a vector register under predicate. -/
  | vld (c vd ga pm imm : Nat)
  /-- VST (R177). Stores 256 bytes from a vector register as a tagged write. -/
  | vst (c vs ga pm imm : Nat)
  /-- VTR (R178). Copies a tile row, or an element column, into a vector register. -/
  | vtr (c vd ga tt tr rsv : Nat)
  /-- VTW (R178). Writes a vector register into a tile row and marks the tile FULL. -/
  | vtw (c vs ga tt tr rsv : Nat)
  /-- VRED_SUM (R189). Sums a row in a fixed tree order. -/
  | vredSum (c vd va vb pm g ts w : Nat)
  /-- VRED_MAX (R189). Takes the maximum of a row. -/
  | vredMax (c vd va vb pm g ts w : Nat)
  /-- VRED_SUMSQ (R189). Sums the squares of a row. -/
  | vredSumsq (c vd va vb pm g ts w : Nat)
  /-- VRED_DOT (R189). Takes the dot product of two register groups. -/
  | vredDot (c vd va vb pm g ts w : Nat)
  /-- VFUN (R186). Evaluates f or f' of a function slot on every active element. -/
  | vfun (c vd va slot d pm z w rsv : Nat)
  /-- VFLOAD (R187). Loads a function-table image into a slot, which is invalid from issue. -/
  | vfload (c slot r0 ga rsv : Nat)
  /-- VFLOAD_DONE (R187). The whole image has arrived, and the slot becomes valid when the image is legal. -/
  | vfloadDone (c : Nat)
  /-- VMXS (R181). Computes MX block scales and scaled elements for blocks of 32. -/
  | vmxs (c vd va vb byte w : Nat)
  /-- VCFG (R176). Writes VCTL := GA. -/
  | vcfg (c vd ga rest : Nat)
  /-- VFACT (R191). Computes the LDL^T factor of a symmetric tile with pivot replacement. -/
  | vfact (c td ga ta gb rsv : Nat)
  /-- VSOLVE (R193). Solves LDL^T x = b with a factor tile. -/
  | vsolve (c vd va ga tf rsv : Nat)
  /-- GROLL (R162). Sends a Gauge roll command for a range of tags to their home slices. -/
  | groll (c gd ga gb fn : Nat)
  /-- GROLL_SLICE_UPDATE (R163). A home slice rolls each owned entry's history and recomputes its scale exponent. -/
  | grollSliceUpdate (c n : Nat)
  /-- GROLL_COMPLETE (R164). The last slice's report returns and GD is written with the number of entries updated. -/
  | grollComplete (c : Nat)
  /-- GAUGE_WINDOW_READ (R159). The window READ command copies an owned entry's 16 words into GE_DATA. -/
  | gaugeWindowRead (o : Origin) (k : Nat)
  /-- GAUGE_WINDOW_WRITE (R159). The window WRITE command replaces the masked words of an owned entry. -/
  | gaugeWindowWrite (o : Origin) (k mask : Nat)
  /-- SR_SEED (R155). A write of SR_SEED sends a seed over the Canal to every core of the partition. -/
  | srSeed (o : Origin) (k : Nat) (v : Word)
  /-- SEED_APPLY (R155). A core takes the seed at its next instruction boundary and sets its generator state. -/
  | seedApply (c : Nat)
  /-- GRANGE_WRITE (R166). Writes a partition's tag range, refused when it is empty or overlaps another. -/
  | grangeWrite (o : Origin) (k : Nat) (v : Word)
  /-- RD (R20). A read request arrives at its home slice or LPDDR5X controller and is served in arrival order. -/
  | rd (p : Packet)
  /-- WR (R29). A write arrives at its home and is applied with its tag actions. -/
  | wr (p : Packet)
  /-- ATOM (R58). An atomic request arrives at its home and is performed indivisibly. -/
  | atom (p : Packet)
  /-- MERGE (R29). A Gauge tag action of amax and NF arrives at the entry's home slice and is applied. -/
  | merge (p : Packet)
  /-- SPENT (R239). A slice receives SPENT(tag) and treats every line of that tag as SPENT. -/
  | spent (p : Packet)
  /-- RD_DATA (R232). Read data returns to the requester, fills the L1 and writes the destination. -/
  | rdData (p : Packet)
  /-- WR_ACK (R45). A write completion returns to the requester. -/
  | wrAck (p : Packet)
  /-- NACK (R363). A NACK reaches a requester, which fails the access as its own kind. -/
  | nack (p : Packet)
  /-- CREDIT (R260). A slice returns a request-buffer credit to a requester. -/
  | credit (p : Packet)
  /-- MSG (R343). A message packet reaches a core and sets IPEND.MSG. -/
  | msg (p : Packet)
  /-- RESERVED_OP_PACKET (R343). A packet with a reserved OP is discarded and counted in CN_NACK.BADOP. -/
  | reservedOpPacket (p : Packet)
  /-- SLICE_MISS_ADMIT (R260). A buffered miss is admitted into slots once its pseudo-channel and bank have room. -/
  | sliceMissAdmit (n : Nat)
  /-- MEMORY_READ_DONE (R236). A memory read completes, the slice fills the line and serves the waiting request. -/
  | memoryReadDone (ep line sev : Nat) (unc : Bool)
  /-- LC_QUEUE_ADMIT (R262). A request waiting at an LPDDR5X controller's input enters the command queue when its bank has room. -/
  | lcQueueAdmit (n : Nat)
  /-- WRITE_BACK_DONE (R259). A line write or dirty write-back to HBM3E completes at its pseudo-channel and frees its 2 request slots. -/
  | writeBackDone (n line : Nat)
  /-- PF_RD (R265). A prefetch read arrives at its home and fills the cache with no side effects. -/
  | pfRd (p : Packet)
  /-- CMEM_CFG_WRITE (R230). Sets a partition's scratchpad size and base, invalidating its cores' L1s. -/
  | cmemCfgWrite (o : Origin) (k : Nat) (v : Word)
  /-- REQUEST_LIMIT (R455). A request unanswered after 2^26 cycles is treated as lost and fails with a fatal log. -/
  | requestLimit (c txid : Nat)
  /-- LEDGER_READ (R256). Ledger READ copies an entry into LE_DATA. -/
  | lgRead (o : Origin) (w : Nat)
  /-- FIND (R256). Ledger FIND walks for LE_VPN and returns the hit. -/
  | lgFind (o : Origin) (w : Nat)
  /-- MAP (R256). Ledger MAP maps a page to a named or chosen free frame. -/
  | lgMap (o : Origin) (w : Nat)
  /-- UNMAP (R256). Ledger UNMAP clears V, unlinks the entry and shoots it down. -/
  | lgUnmap (o : Origin) (w : Nat)
  /-- SETF (R256). Ledger SETF sets flags, with a shootdown when W or X changes. -/
  | lgSetf (o : Origin) (w : Nat)
  /-- CLRF (R256). Ledger CLRF clears flags, with a shootdown when W changes. -/
  | lgClrf (o : Origin) (w : Nat)
  /-- MIGRATE (R258). Ledger MIGRATE sets MIG and starts moving a mapped frame to a free frame. -/
  | lgMigrate (o : Origin) (w : Nat)
  /-- GIVE (R256). Ledger GIVE passes a free frame to a partition or makes it a chip frame. -/
  | lgGive (o : Origin) (w : Nat)
  /-- SHOOTDOWN (R255). A shootdown packet drops the translation-cache entries and L1 lines of a page. -/
  | shootdown (w ep : Nat)
  /-- SHOOTDOWN_DONE (R255). Every cache has dropped the entry and every access that used it has completed, so the command ends. -/
  | shootdownDone (w : Nat)
  /-- MIGRATE_COPY_START (R258). Once earlier writes to the source complete, the destination controllers start pulling their shares. -/
  | migrateCopyStart (w : Nat)
  /-- MIGRATE_SHARE_DONE (R258). A controller finishes copying its share of a migration. -/
  | migrateShareDone (w ep : Nat)
  /-- SARM (R279). Arms a Flume context, records A and starts fetching from FIRST. -/
  | sarm (c gd ga gb : Nat)
  /-- SWAIT (R280). Waits for the next block of a stream and returns its address. -/
  | swait (c gd ga gb : Nat)
  /-- SFREE (R281). Frees the oldest block held by SWAIT and may release its unit. -/
  | sfree (c gd ga gb : Nat)
  /-- SSTOP (R282). Disarms a context after the MMAs that name it complete. -/
  | sstop (c gd ga gb : Nat)
  /-- SSTAT (R278). Returns FL_STAT of a context in GD. -/
  | sstat (c gd ga gb : Nat)
  /-- FLUME_UNIT_ARRIVAL (R274). A whole unit arrives at its consumer and is stamped with the core CYCLE. -/
  | flumeUnitArrival (c n : Nat) (nf : Bool)
  /-- DEADLINE_CHECK (R285). When core CYCLE reaches C_i, a block without an earlier stamp misses its deadline. -/
  | deadlineCheck (c n : Nat)
  /-- CSTART (R298). Starts or resumes a Culvert channel with release order. -/
  | cstart (c gd ga gb : Nat)
  /-- CSTOP (R301). Asks a channel to stop at the next element boundary. -/
  | cstop (c gd ga gb : Nat)
  /-- CSTAT (R278). Returns CV_STAT of a channel in GD. -/
  | cstat (c gd ga gb : Nat)
  /-- CULVERT_DESC_FETCH (R297). A channel reads its next descriptor and checks it. -/
  | culvertDescFetch (chip : Bool) (c n : Nat)
  /-- CULVERT_ELEMENT (R297). A whole element has been read and checked; the channel converts it and issues its writes. -/
  | culvertElement (chip : Bool) (c n : Nat) (nf : Bool)
  /-- CULVERT_DESC_COMPLETE (R298). All writes of a descriptor complete; the channel writes the completion word, counts it and signals its knot. -/
  | culvertDescComplete (chip : Bool) (c n : Nat)
  /-- CV_COUNT_WRITE (R299). A write of RELOAD sets CUR := 0. -/
  | cvCountWrite (o : Origin) (c n : Nat) (v : Word)
  /-- KSIG (R315). Adds n to a knot, with release order, and releases waiters. -/
  | ksig (c gd ga gb : Nat)
  /-- KWAIT (R316). Queues for n at a knot and subtracts it when at the head, with acquire order. -/
  | kwait (c gd ga gb : Nat)
  /-- KPEEK (R317). Returns a knot's count. -/
  | kpeek (c gd ga gb : Nat)
  /-- KSET (R318). Writes a knot's count and releases waiters. -/
  | kset (c gd ga gb : Nat)
  /-- HARR (R329). Arrives at a hitch with release order. -/
  | harr (c gd ga gb : Nat)
  /-- HWAIT (R330). Waits for a generation of a hitch to complete, with acquire order. -/
  | hwait (c gd ga gb : Nat)
  /-- HPEEK (R330). Returns HT_STAT of a hitch. -/
  | hpeek (c gd ga gb : Nat)
  /-- KNOT (R319). A knot operation arrives at the knot's home and is applied in arrival order. -/
  | knot (p : Packet)
  /-- KNOT_RSP (R320). A knot response or grant reaches the core and completes the instruction or takes its fault. -/
  | knotRsp (p : Packet)
  /-- WITHDRAW (R323). A withdrawal of an abandoned wait arrives at the hub, which removes the waiter or answers that it was satisfied. -/
  | withdraw (p : Packet)
  /-- HITCH (R329). A hitch arrival reaches the hub and is tested in order. -/
  | hitch (p : Packet)
  /-- HITCH_DONE (R331). A completion broadcast reaches a core, which completes its HWAITs. -/
  | hitchDone (p : Packet)
  /-- KNOT_WORD_WRITE (R337). A memory-mapped knot-word write is applied at the home, refused while waiters are queued. -/
  | knotWordWrite (o : Origin) (key : Nat) (v : Word)
  /-- HT_CFG_WRITE (R328). Opens or closes a hitch under its acceptance conditions. -/
  | htCfgWrite (o : Origin) (h : Nat) (v : Word)
  /-- HITCH_MASK_WRITE (R328). Writes a group-mask word, refused while an open hitch names the mask. -/
  | hitchMaskWrite (o : Origin) (mask w : Nat) (v : Word)
  /-- PT_RANGE_WRITE (R359). Writes a partition's column range and sets CORE_ID.PART of its cores. -/
  | ptRangeWrite (o : Origin) (k : Nat) (v : Word)
  /-- PT_RESET (R361). Starts a partition reset: RESETTING, gates closed, cores, knots and hitches reset. -/
  | ptReset (o : Origin) (k : Nat)
  /-- PT_RESET_DRAIN_DONE (R361). Every outstanding request of the partition is answered or at the limit, so the gates reopen and the partition is HELD. -/
  | ptResetDrainDone (k : Nat)
  /-- RT_BUSY_WINDOW (R365). A window of 65,536 Canal cycles ends and RT_BUSY takes its busy counts. -/
  | rtBusyWindow (busy : List (Nat × Word))
  /-- REGISTER_WRITE (R13). A write to a register that has no row of its own takes effect by its access type, or gets the error response of R11. -/
  | registerWrite (o : Origin) (a : Nat) (v : Word)
  /-- REGISTER_READ_CLEAR (R13). A read of an RC field returns its value and clears it, and an event in the same cycle is held for the next read. -/
  | registerReadClear (o : Origin) (a : Nat)
  /-- BG_WINDOW_END (R36). A window of 1,048,576 island cycles ends, so the background budget renews and the peak and defer counters update. -/
  | bgWindowEnd (k : Nat)
  /-- NEXT (R215). The Sluice sequencer loads the next group of touched blocks into v0 onward. -/
  | seqNext (n : Nat)
  /-- PUT (R215). Converts and writes the group's parameter and states, then clears its touched bits. -/
  | seqPut (n : Nat)
  /-- DROP (R215). Clears the group's touched bits and writes nothing. -/
  | seqDrop (n : Nat)
  /-- END (R215). Ends the current tensor entry. -/
  | seqEnd (n : Nat)
  /-- SLUICE_PROGRAM_OP (R213). The sequencer executes one permitted scalar or vector instruction over 256 lanes. -/
  | sluiceProgramOp (n : Nat)
  /-- RULE_ADD (R219). Rule operation DST := A + B. -/
  | ruleAdd (n : Nat)
  /-- RULE_MUL (R219). Rule operation DST := A x B. -/
  | ruleMul (n : Nat)
  /-- RULE_FMA (R219). Rule operation DST := A x B + C. -/
  | ruleFma (n : Nat)
  /-- RULE_DIV (R219). Rule operation DST := A / B. -/
  | ruleDiv (n : Nat)
  /-- RULE_SQRT (R219). Rule operation DST := sqrt(A). -/
  | ruleSqrt (n : Nat)
  /-- RULE_RSQRT (R219). Rule operation DST := 1/sqrt(A) by slot 6. -/
  | ruleRsqrt (n : Nat)
  /-- RULE_MAX (R219). Rule operation DST := the larger of A and B. -/
  | ruleMax (n : Nat)
  /-- RULE_MIN (R219). Rule operation DST := the smaller of A and B. -/
  | ruleMin (n : Nat)
  /-- RULE_SIGN (R219). Rule operation DST := the sign of A. -/
  | ruleSign (n : Nat)
  /-- RULE_CLIP (R219). Rule operation DST := MIN(MAX(A, B), C). -/
  | ruleClip (n : Nat)
  /-- RULE_LERP (R219). Rule operation DST := fma(C, B - A, A). -/
  | ruleLerp (n : Nat)
  /-- RULE_SCALE (R219). Rule operation DST := A x 2^IMM9. -/
  | ruleScale (n : Nat)
  /-- RULE_GROUP (R220). The interpreter loads a group into u registers, applies the rule and writes back by WMASK. -/
  | ruleGroup (n : Nat)
  /-- SLU_DOORBELL (R205). Queues a job at one Sluice unit. -/
  | sluDoorbell (o : Origin) (n : Nat) (v : Word)
  /-- SLU_BCAST (R205). Queues a job at all 16 units, or at none. -/
  | sluBcast (o : Origin) (n : Nat) (v : Word)
  /-- SLU_JOB_LOAD (R207). A unit takes the job at the head of its queue and reads and checks the header and program. -/
  | sluJobLoad (n : Nat)
  /-- SLU_JOB_START (R207). The Logline, knot and collective conditions hold and the unit starts the walk or skips the job. -/
  | sluJobStart (n : Nat)
  /-- SLU_JOB_DONE (R209). All writes and clears of the job complete; the unit writes DONE and signals DONE_KNOT. -/
  | sluJobDone (n : Nat)
  /-- SLU_ABORT (R223). SLU_CTL.ABORT stops the running job at the next group boundary. -/
  | sluAbort (o : Origin) (n : Nat)
  /-- SLU_ERR_CLEAR (R222). Clearing SLU_ERR.VALID takes the unit out of HALT. -/
  | sluErrClear (o : Origin) (n : Nat)
  /-- CAP_DOORBELL (R381). Submits a collective descriptor to its group's queue. -/
  | capDoorbell (o : Origin) (v : Word)
  /-- COLLECTIVE_START (R388). A group starts the next queued collective, reading the tags' scales and sending its first frames. -/
  | collectiveStart (g : Nat)
  /-- CDATA (R382). A collective data frame is added or written and its derived frame is sent on. -/
  | cdata (k : Nat) (f : Frame)
  /-- SWEEP (R386). A CTRL SWEEP frame carries OR of NF and maximum AMAX along a dimension. -/
  | sweep (k : Nat) (f : Frame)
  /-- GFAIL (R389). A GFAIL frame fails the group and is forwarded to every member. -/
  | gfail (k : Nat) (f : Frame)
  /-- XHITCH (R390). An XHITCH frame carries (XG, GEN), and the Capstan reports completion or failure to the hitch. -/
  | xhitch (k : Nat) (f : Frame)
  /-- DDATA (R393). A DDATA frame is forwarded, or its element is written at the destination. -/
  | ddata (k : Nat) (f : Frame)
  /-- DDONE (R393). DDONE returns to the origin and completes or stops the channel's descriptor. -/
  | ddone (k : Nat) (f : Frame)
  /-- HELLO (R372). A training HELLO is checked against the expected neighbour; the port reaches UP or stays TRAINED. -/
  | hello (k : Nat) (f : Frame)
  /-- LINK_ACK (R376). A LINK ACK advances ACKSEQ and frees retry-buffer frames. -/
  | linkAck (k : Nat) (f : Frame)
  /-- LINK_NACK (R377). A LINK NACK makes the sender resend from the first unacknowledged frame. -/
  | linkNack (k : Nat) (f : Frame)
  /-- CAPSTAN_TIMEOUT (R389). A group with no progress for CAP_CTL.TMO Canal cycles fails with TIMEOUT. -/
  | capstanTimeout (g : Nat)
  /-- CAP_DIM_WRITE (R370). Enables or sets a ring dimension under the licence and size checks. -/
  | capDimWrite (o : Origin) (d : Nat) (v : Word)
  /-- CAP_GRP_WRITE (R389). Writes a Capstan group, where EN 0 then 1 leaves FAILED. -/
  | capGrpWrite (o : Origin) (g : Nat) (v : Word)
  /-- HC_HEAD_WRITE (R392). Writing CV_HEAD of a chip-level channel starts or resumes it. -/
  | hcHeadWrite (o : Origin) (k n : Nat) (v : Word)
  /-- RETRANSMIT_TIMEOUT (R377). RTO cycles pass without ACKSEQ progress and the port resends, or enters FAILED after RETRY_MAX. -/
  | retransmitTimeout (k : Nat)
  /-- LANE_SIGNAL_LOSS (R377). A port that loses signal on every lane leaves UP and trains again. -/
  | laneSignalLoss (k : Nat)
  /-- PORT_TRAINED (R372). A Hawser port finishes physical training of its lanes, enters TRAINED and begins sending HELLO frames. -/
  | portTrained (k rx : Nat)
  /-- HW_TRAIN (R394). HW_CTL.TRAIN starts training of a port and takes any pending key. -/
  | hwTrain (o : Origin) (k : Nat)
  /-- HW_DOWN (R394). HW_CTL.DOWN takes a port DOWN. -/
  | hwDown (o : Origin) (k : Nat)
  /-- LANE_EN_WRITE (R368). Changes the active lanes, with the port staying UP. -/
  | laneEnWrite (o : Origin) (k lanes : Nat)
  /-- SPILLWAY_CLOSE (R379). SPW CMD 1 moves a dimension's switch to CLOSED. -/
  | spillwayClose (o : Origin) (d : Nat)
  /-- SPILLWAY_OPEN (R379). SPW CMD 2 moves the switch to OPEN when its conditions hold. -/
  | spillwayOpen (o : Origin) (d : Nat)
  /-- SPILLWAY_MOVE_DONE (R379). A switch move ends and POS reads its new position. -/
  | spillwayMoveDone (d : Nat)
  /-- BYPASS_FORCE_N_LOW (R379). The force pin goes low and every Spillway closes. -/
  | bypassForceNLow (high : Bool)
  /-- TT_TRAIN (R397). TT_CTL.TRAIN clears LOST and starts training both sub-links. -/
  | ttTrain (o : Origin)
  /-- TT_DOWN (R422). TT_CTL.DOWN takes both sub-links down and completes outstanding requests as under TMO. -/
  | ttDown (o : Origin)
  /-- TT_WRESET (R417). TT_CTL.WRESET starts a warm reset. -/
  | ttWreset (o : Origin)
  /-- SUBLINK_LOCKED (R397). All 8 lanes of a sub-link lock and deskew. -/
  | sublinkLocked (k : Nat)
  /-- SUBLINK_TRAIN_TIMEOUT (R397). A sub-link not UP by the Latest count enters FAILED. -/
  | sublinkTrainTimeout (k : Nat)
  /-- IDLE_FLIT (R397). An IDLE flit with good CRC completes training to UP and carries credits and ACKSEQ. -/
  | idleFlit (k : Nat) (x : Flit)
  /-- MSG_FLIT (R399). A MSG flit is CRC- and FSEQ-checked and its whole messages are released. -/
  | msgFlit (k : Nat) (x : Flit)
  /-- NAK (R399). A NAK flit makes the sender replay from the named FSEQ, retraining after RETRY_MAX. -/
  | nak (k : Nat) (x : Flit)
  /-- STEER (R396). A STEER flit sets the link width from the next flit. -/
  | steer (k : Nat) (x : Flit)
  /-- RD_SHARED (R408). Companion read of a device line to hold S. -/
  | rdShared (k : Nat) (m : TMsg)
  /-- RD_OWN (R408). Companion read of a device line to hold E. -/
  | rdOwn (k : Nat) (m : TMsg)
  /-- RD_CUR (R408). Read without caching. -/
  | rdCur (k : Nat) (m : TMsg)
  /-- UPGRADE (R408). Request to go from S to E. -/
  | upgrade (k : Nat) (m : TMsg)
  /-- EVICT (R408). Drop of a clean S or E line. -/
  | evict (k : Nat) (m : TMsg)
  /-- WR_LINE (R408). Whole-line write without caching. -/
  | wrLine (k : Nat) (m : TMsg)
  /-- WR_PART (R408). Masked partial line write. -/
  | wrPart (k : Nat) (m : TMsg)
  /-- WR_BACK (R408). Return of an M line to its home. -/
  | wrBack (k : Nat) (m : TMsg)
  /-- SNP_DATA (R402). Snoop to go to S, returning data if M. -/
  | snpData (k : Nat) (m : TMsg)
  /-- SNP_INV (R402). Snoop to go to I, returning data if M. -/
  | snpInv (k : Nat) (m : TMsg)
  /-- TT_WR_ACK (R402). Completion of a write at the home. -/
  | ttWrAck (k : Nat) (m : TMsg)
  /-- GRANT (R402). Grant of an UPGRADE in state E. -/
  | grant (k : Nat) (m : TMsg)
  /-- SNP_ACK (R412). Snoop done without data, in state I, S or WBP. -/
  | snpAck (k : Nat) (m : TMsg)
  /-- EVICT_ACK (R402). Answer to an EVICT. -/
  | evictAck (k : Nat) (m : TMsg)
  /-- TT_ERR (R419). A request is refused or failed, and the device requester fails as on uncorrectable data. -/
  | ttErr (k : Nat) (m : TMsg)
  /-- TT_RD_DATA (R402). Read data with a granted state. -/
  | ttRdData (k : Nat) (m : TMsg)
  /-- SNP_DATA_RSP (R402). Snoop data with the state left, written into the line. -/
  | snpDataRsp (k : Nat) (m : TMsg)
  /-- REG_RD (R417). Companion register read over the management path. -/
  | regRd (k : Nat) (m : TMsg)
  /-- REG_WR (R417). Companion register write over the management path. -/
  | regWr (k : Nat) (m : TMsg)
  /-- REG_RSP (R417). Answer to a management register access. -/
  | regRsp (k : Nat) (m : TMsg)
  /-- MSI (R416). Interrupt message from the device to the companion. -/
  | msi (k : Nat) (m : TMsg)
  /-- TT_REQ_TIMEOUT (R419). An unanswered device request completes as ERR DATA_ERR after TMO Canal cycles. -/
  | ttReqTimeout (k txid : Nat)
  /-- TT_SNOOP_TIMEOUT (R419). An unanswered snoop after TMO Canal cycles causes link loss. -/
  | ttSnoopTimeout (k txid : Nat)
  /-- TT_MSI_WRITE (R416). A write of TT_MSIp sends one MSI after earlier completed writes. -/
  | ttMsiWrite (o : Origin) (k : Nat) (v : Word)
  /-- TT_CW_WRITE (R414). Writes a companion-window range, refused when it would overlap another. -/
  | ttCwWrite (o : Origin) (size : Bool) (w : Nat) (v : Word)
  /-- MB_IN_DOOR (R418). The companion rings the inbound doorbell, setting IN_FULL and a Headgate mailbox event. -/
  | mbInDoor (h : Nat)
  /-- MB_OUT_DOOR (R418). A Headgate rings the outbound doorbell, setting OUT_FULL and sending an MSI. -/
  | mbOutDoor (h : Nat)
  /-- LOG_COMMIT (R425). Checks the record of step s and sets LOG_LAST, or refuses with a cause. -/
  | logCommit (o : Origin) (k : Nat) (v : Word)
  /-- LOG_MIRROR_COMPANION (R427). A mirrored record's companion write completes and LOG_MIRC advances. -/
  | logMirrorCompanion (k : Nat)
  /-- LOG_MIRROR_FLASH (R427). A mirrored record's flash write completes and LOG_MIRF advances. -/
  | logMirrorFlash (k : Nat) (fail : Bool)
  /-- TAKE (R428). Makes a snapshot point K and starts the Ledger sweep setting S. -/
  | snTake (o : Origin) (k : Nat)
  /-- SN_COMMIT (R434). Frees OLD's copies and makes NEW the OLD snapshot. -/
  | snCommit (o : Origin) (k : Nat)
  /-- SN_DROP (R434). Frees NEW's copies and returns to HELD. -/
  | snDrop (o : Origin) (k : Nat)
  /-- ROLLBACK_OLD (R439). Restores every page of OLD and then drops NEW. -/
  | snRollbackOld (o : Origin) (k : Nat)
  /-- ROLLBACK_NEW (R439). Restores every page of NEW, keeping OLD. -/
  | snRollbackNew (o : Origin) (k : Nat)
  /-- SNAPSHOT_SWEEP_END (R428). The sweep ends and STATE becomes PENDING or HELD. -/
  | snapshotSweepEnd (k : Nat)
  /-- SNAPSHOT_COPY_START (R431). A copy place is free; the engine picks the copy frame and the controllers start copying. -/
  | snapshotCopyStart (k fr : Nat)
  /-- SNAPSHOT_COPY_DONE (R430). A copy ends: the record is written, RSV set, S cleared and held writers released. -/
  | snapshotCopyDone (k fr : Nat)
  /-- SNAPSHOT_MIGRATE (R435). With MIGEN, the engine moves an HBM3E copy frame to LPDDR5X. -/
  | snapshotMigrate (k fr : Nat)
  /-- ROLLBACK_DONE (R439). A rollback finishes restoring its pages and clears BUSY. -/
  | rollbackDone (k : Nat)
  /-- SN_CTL_WRITE (R437). Writes SN_CTL, refused when N is 0 or too large for the ring. -/
  | snCtlWrite (o : Origin) (k : Nat) (v : Word)
  /-- DREDGE_SCRUB (R456). In an idle cycle within budget, Dredge reads the next line or word of its walk. -/
  | dredgeScrub (u cyc sev : Nat) (unc : Bool)
  /-- DREDGE_CORRECTION (R458). A conditional correction write arrives at the home and is applied or dropped. -/
  | dredgeCorrection (u line : Nat)
  /-- RECAL_START (R505). The period expires and the next channel's PHY recalibration starts within budget. -/
  | recalStart (u cyc : Nat)
  /-- RECAL_END (R39). A recalibration releases its channel. -/
  | recalEnd (u : Nat)
  /-- TBT_REGION_START (R461). After its gap, a background test saves a 4 KiB region and runs a March test. -/
  | tbtRegionStart (u : Nat)
  /-- TBT_REGION_END (R461). The tested region is restored and its accesses are released. -/
  | tbtRegionEnd (u : Nat) (faults : List (Nat × Nat))
  /-- BANK_RETIRE (R467). Writing SC_BRETk with EN retires a bank of a pseudo-channel. -/
  | bankRetire (o : Origin) (st k : Nat) (v : Word)
  /-- VERIFY (R480). Cleat checks a firmware image and extends its measurement register. -/
  | ckVerify (o : Origin) (arg : Nat)
  /-- COMMIT_SVN (R480). Raises FU_SVN of a kind to the last verified image's SVN. -/
  | ckCommitSvn (o : Origin) (arg : Nat)
  /-- INSTALL (R476). Checks and stores a licence or key blob. -/
  | ckInstall (o : Origin) (arg : Nat)
  /-- ATTEST (R487). Writes a report signed by AK for a nonce. -/
  | ckAttest (o : Origin) (arg : Nat)
  /-- MEMKEY (R472). Generates a new memory key for an OFF partition. -/
  | ckMemkey (o : Origin) (arg : Nat)
  /-- TRANSITION (R482). Checks a token, wipes the vault, blows life-cycle fuses and starts a cold reset. -/
  | ckTransition (o : Origin) (arg : Nat)
  /-- UNLOCK (R486). Accepts a debug token and sets the debug level. -/
  | ckUnlock (o : Origin) (arg : Nat)
  /-- AKCERT (R487). Writes the current AK certificate to staging. -/
  | ckAkcert (o : Origin) (arg : Nat)
  /-- EXTEND (R481). Extends MEAS7 with 32 bytes. -/
  | ckExtend (o : Origin) (arg : Nat)
  /-- CK_CMD_DONE (R488). A Cleat command finishes, writes RESULT and clears BUSY. -/
  | ckCmdDone
  /-- TAMPER (R485). A tamper sensor fires: cause latched, vault wiped, keys zeroed, Spillways closed and a warm reset started. -/
  | tamper (cause : Nat)
  /-- VAULT_WIPE_DONE (R484). The vault wipe ends 65,536 Headgate cycles after its event. -/
  | vaultWipeDone
  /-- LICENCE_EXPIRY (R478). The effective licence's NOT_AFTER passes, which sets LIC_EXP and raises a Headgate event. -/
  | licenceExpiry
  /-- SEQ_MARK_WRITE (R474). A counter within 2^31 of its mark causes a new reservation mark to be written to flash. -/
  | seqMarkWrite (k dir n : Nat)
  /-- SEQ_MARK_WRITTEN (R474). The flash write of a new SEQ or link-frame reservation mark completes, and a port stopped at its mark resumes sending. -/
  | seqMarkWritten (k dir n : Nat)
  /-- VIN64_GOOD (R511). VIN64 rises above 56 V and a cold reset starts bring-up. -/
  | vin64Good
  /-- VIN64_UNDERVOLTAGE (R511). VIN64 falls below 54 V, a power loss that closes the Spillways and stops the converters. -/
  | vin64Undervoltage
  /-- VIN64_OVERVOLTAGE (R511). VIN64 rises above 72 V and the converters stop as on power loss. -/
  | vin64Overvoltage
  /-- AUX3V3_GOOD (R514). AUX3V3 becomes good and the module enters STANDBY. -/
  | aux3v3Good
  /-- AUX3V3_LOSS (R513). Loss of AUX3V3 while VIN64 is good is a power loss. -/
  | aux3v3Loss
  /-- INPUT_CHARGED (R512). The input capacitance charges to within 2 V of VIN64 and the converters start. -/
  | inputCharged
  /-- THERM_TRIP (R517). A die sensor reaches 110 °C, which asserts THERM_TRIP_N and stops the converters. -/
  | thermTrip
  /-- CAL_TICK (R521). The calendar advances by one 1/32,768 s tick, with trim. -/
  | calTick
  /-- OSC_STOP (R521). Power returns after the oscillator stopped, setting OSC_STOP and clearing VALID. -/
  | oscStop
  /-- VBAT_LOW (R520). VBAT falls below 2.5 V while AUX3V3 is absent, latching CAL_CTL.BATLOW. -/
  | vbatLow
  /-- THROTTLE_SAMPLE (R515). Each Headgate samples its causes every 50,000 cycles and sets the throttle level. -/
  | throttleSample (h : Nat) (tj : Int) (mw ma : Nat)
  /-- TELEM_UPDATE (R522). Rail readings update every 50,000 west Headgate cycles. -/
  | telemUpdate (rails : List (Nat × Nat × Nat)) (tjw tje tmod : Int)
  /-- THR_CTL_WRITE (R523). Writes the power cap and maximum level, refused when out of range. -/
  | thrCtlWrite (o : Origin) (v : Word)
  /-- CAL_LOAD (R521). CAL_CTL.LOAD loads CAL_SET at the next tick and sets VALID. -/
  | calLoad (o : Origin)
  /-- PAGE (R525). PMBus PAGE selects page 0-8. -/
  | pmPage (pec : Bool) (w : Option Nat)
  /-- CLEAR_FAULTS (R525). PMBus CLEAR_FAULTS clears ended status bits and may release ALERT_N. -/
  | pmClearFaults (pec : Bool)
  /-- CAPABILITY (R525). PMBus CAPABILITY returns 0xD0. -/
  | pmCapability (pec : Bool)
  /-- VOUT_MODE (R525). PMBus VOUT_MODE returns 0x14. -/
  | pmVoutMode (pec : Bool)
  /-- STATUS_WORD (R525). PMBus STATUS_WORD returns the status bits. -/
  | pmStatusWord (pec : Bool)
  /-- STATUS_TEMPERATURE (R525). PMBus STATUS_TEMPERATURE returns the temperature status. -/
  | pmStatusTemperature (pec : Bool)
  /-- READ_VIN (R525). PMBus READ_VIN returns the input voltage. -/
  | pmReadVin (pec : Bool)
  /-- READ_IIN (R525). PMBus READ_IIN returns the input current. -/
  | pmReadIin (pec : Bool)
  /-- READ_VOUT (R525). PMBus READ_VOUT returns a rail voltage. -/
  | pmReadVout (pec : Bool)
  /-- READ_IOUT (R525). PMBus READ_IOUT returns a rail current. -/
  | pmReadIout (pec : Bool)
  /-- READ_POUT (R525). PMBus READ_POUT returns a rail power. -/
  | pmReadPout (pec : Bool)
  /-- READ_PIN (R525). PMBus READ_PIN returns the input power. -/
  | pmReadPin (pec : Bool)
  /-- READ_TEMPERATURE_1 (R525). PMBus READ_TEMPERATURE_1 returns TJ_W. -/
  | pmReadTemperature1 (pec : Bool)
  /-- READ_TEMPERATURE_2 (R525). PMBus READ_TEMPERATURE_2 returns TJ_E. -/
  | pmReadTemperature2 (pec : Bool)
  /-- READ_TEMPERATURE_3 (R525). PMBus READ_TEMPERATURE_3 returns TMOD. -/
  | pmReadTemperature3 (pec : Bool)
  /-- PMBUS_REVISION (R525). PMBus PMBUS_REVISION returns 0x33. -/
  | pmRevision (pec : Bool)
  /-- MFR_ID (R525). PMBus MFR_ID returns YUNAMAN. -/
  | pmMfrId (pec : Bool)
  /-- MFR_MODEL (R525). PMBus MFR_MODEL returns SGN-P1. -/
  | pmMfrModel (pec : Bool)
  /-- MFR_POWER_CAP (R525). PMBus MFR_POWER_CAP reads or writes THR_CTL.CAP_W. -/
  | pmMfrPowerCap (pec : Bool) (w : Option Nat)
  /-- ALERT_RESPONSE (R524). A read of the Alert Response Address answers the alert. -/
  | pmAlertResponse
  /-- BYPASS (R526). JTAG BYPASS instruction. -/
  | jtagBypass
  /-- IDCODE (R526). JTAG IDCODE returns 0x0534_1A7F. -/
  | jtagIdcode
  /-- SAMPLE_PRELOAD (R526). JTAG SAMPLE/PRELOAD instruction. -/
  | jtagSamplePreload (w : Nat)
  /-- EXTEST (R527). JTAG EXTEST drives the connector signals and holds the chip in warm reset. -/
  | jtagExtest
  /-- EXTEST_PULSE (R527). JTAG EXTEST_PULSE tests the Tether lanes and holds the chip in warm reset. -/
  | jtagExtestPulse
  /-- DEBUG (R526). JTAG DEBUG reaches the debug access of the current level. -/
  | jtagDebug
  /-- TRST_N (R526). TRST_N asserts and resets the TAP, which leaves any loaded EXTEST or EXTEST_PULSE instruction and so ends the warm reset that instruction holds. -/
  | jtagTrstN
  /-- MOD_RESET_N_LOW (R500). MOD_RESET_N low holds the chip in warm reset. -/
  | modResetNLow
  /-- MOD_RESET_N_HIGH (R500). MOD_RESET_N returns high, releasing the held warm reset so that bring-up steps 2 onward run. -/
  | modResetNHigh
  /-- COLD_RESET (R500). HG_RESET.COLD starts a cold reset running all bring-up steps. -/
  | coldReset (o : Origin) (h : Nat)
  /-- WARM_RESET (R500). HG_RESET.WARM starts a warm reset, keeping counters and memory. -/
  | warmReset (o : Origin) (h : Nat)
  /-- BRINGUP_STEP_DONE (R489). A bring-up step completes and the next starts, ending in READY at step 14. -/
  | bringupStepDone (n : Nat) (ok : Bool) (faults : List (Nat × Nat × Nat))
  /-- BRINGUP_STEP_TIMEOUT (R490). A step passing its Latest count records its cause and leads toward DEGRADED. -/
  | bringupStepTimeout (n : Nat)
  /-- LEASE_RENEWAL (R492). A renewal from the lease holder reaches the follower over the sideband. -/
  | leaseRenewal (h : Nat)
  /-- LEASE_TIMEOUT (R492). TIMEOUT cycles without a renewal make the follower claim with a higher epoch. -/
  | leaseTimeout (h : Nat)
  /-- LEASE_CLAIM (R493). A claim is resolved by epoch, then west wins, and CLAIM is set. -/
  | leaseClaim (h : Nat)
  /-- LEASE_RELEASE (R492). HG_LEASE.RELEASE sends a release and the follower claims at once. -/
  | leaseRelease (o : Origin) (h : Nat)
  /-- SIDEBAND_DOWN (R495). The Splice sideband goes down and both Headgates enter SPLIT. -/
  | sidebandDown
  /-- SIDEBAND_UP (R495). The sideband returns and the Headgates exchange roles and epochs and settle. -/
  | sidebandUp
  /-- STATUS (R507). Mailbox request returning CHIP_INFO, HG_STAT and HG_DEGR. -/
  | mbStatus (h : Nat)
  /-- NAME (R495). Mailbox request naming the lease holder and epoch. -/
  | mbName (h : Nat)
  /-- FW_STAGE (R507). Mailbox request copying an image from the companion window into flash. -/
  | mbFwStage (h : Nat)
  /-- FW_ACTIVATE (R507). Mailbox request activating firmware of a kind for a partition, unit or Headgate. -/
  | mbFwActivate (h : Nat) (ok : Bool)
  /-- FWPLACE (R507). Mailbox request copying a library section into mapped frames. -/
  | mbFwplace (h : Nat)
  /-- CORE_SWAP (R502). Mailbox request replacing a failing core with a spare. -/
  | mbCoreSwap (h : Nat)
  /-- RING (R507). Mailbox request writing the ring record. -/
  | mbRing (h : Nat)
  /-- EVENT (R508). A newly set HG_EVENT bit sends an EVENT message to the companion. -/
  | mbEvent (h : Nat)
  /-- FW_CHUNK (R498). A firmware chunk flit is accepted by an armed core and written to core memory. -/
  | fwChunk (c : Nat) (p : Packet)
  /-- FW_LOAD_REPORT (R498). A core's report of its hash result and missing chunks reaches the master. -/
  | fwLoadReport (c : Nat)
  /-- FW_REPORT_TIMEOUT (R498). A report missing after 4,000,000 Headgate cycles counts as all chunks missing. -/
  | fwReportTimeout (c : Nat)
  /-- CORE_RESET (R83). HG_CORERST OP 1 resets one core. -/
  | coreReset (o : Origin) (h c : Nat)
  /-- CORE_DISABLE (R502). HG_CORERST OP 2 disables a failing core. -/
  | coreDisable (o : Origin) (h c : Nat)
  /-- SPARE_ENABLE (R502). HG_CORERST OP 3 enables a spare in the partition. -/
  | spareEnable (o : Origin) (h c : Nat)
  /-- HG_SWAP_DONE (R503). A Headgate finishes restarting from the other bank and joins as FOLLOWER. -/
  | hgSwapDone (h : Nat) (ok : Bool)
  /-- SLUICE_UPDATE_DONE (R504). A Sluice microcode load ends and the master re-enables the unit. -/
  | sluiceUpdateDone (n : Nat)
  /-- FLASH_REFRESH (R506). A static flash block is rewritten once per year or when its ECC corrects too many bits. -/
  | flashRefresh (b : Nat) (fail : Bool)
  deriving DecidableEq, Repr

end Sys2Proof
end

