-- ==== Sys2Proof/WellFormed.lean ====
section
/-! DEFINITION. Which commands are well formed: every operand fits the field or the range the manual gives it.  Operands that
the manual leaves to measurement (cycles, readings, times) are free. -/

namespace Sys2Proof

/-- A field or an index of `n` values holds `x`. -/
def fieldFits (n x : Nat) : Bool := decide (x < n)

/-- A core ID (R2): 32 columns of 22 rows. -/
def coreFits (c : Nat) : Bool := decide (c < 1024) && decide (c % 32 < 22)

/-- An origin exists: a core, one of two Headgates, the companion. -/
def Origin.fits : Origin → Bool
  | .core c => coreFits c
  | .hg h => fieldFits 2 h
  | .comp => true

/-- The header fields of a packet fit their widths (R342). -/
def Packet.fits (p : Packet) : Bool :=
  fieldFits 4096 p.dst && fieldFits 4096 p.src && fieldFits 6 p.cls && fieldFits 8 p.part && fieldFits 16 p.fmt && fieldFits 65536 p.tag &&
    fieldFits 32 p.op && fieldFits 256 p.txid && fieldFits 9 p.len16 && fieldFits 16 p.cause && fieldFits (2 ^ 48) p.addr

/-- The header fields of a Tether message fit their widths (R401). -/
def TMsg.fits (m : TMsg) : Bool :=
  fieldFits 8 m.cls && fieldFits 32 m.op && fieldFits 4096 m.txid && fieldFits 8 m.part && fieldFits 65536 m.tag && fieldFits 16 m.fmt &&
    fieldFits 256 m.status && fieldFits 16 m.state && fieldFits (2 ^ 45) m.addr

/-- The header fields of a flit fit their widths (R398). -/
def Flit.fits (f : Flit) : Bool :=
  fieldFits 4096 f.fseq && fieldFits 4096 f.ack && fieldFits 4 f.width && decide (f.cr.length = 5) && (f.cr.all fun n => fieldFits 64 n) && f.msg.fits &&
    fieldFits 16 f.nslot

/-- The header fields of a frame fit their widths, and LEN is that of its payload (R373). -/
def Frame.fits (f : Frame) : Bool :=
  fieldFits 16 f.typ && fieldFits 16 f.ver && fieldFits 8192 f.smod && fieldFits 8192 f.dmod && fieldFits 8 f.part && fieldFits 16 f.ksel && fieldFits 32768 f.len &&
    fieldFits (2 ^ 64) f.seq && fieldFits 65536 f.tag && fieldFits 16 f.fmt && fieldFits 256 f.xs && fieldFits (2 ^ 64) f.w3 && fieldFits (2 ^ 64) f.w4 &&
    fieldFits 65536 f.cred && fieldFits (2 ^ 48) f.ack && decide (f.payload.length = f.len)

/-- Is a command well formed. -/
def wellFormed (i : Instr) : Bool :=
  match i with
  | .add c gd ga gb => coreFits c && fieldFits 32 gd && fieldFits 32 ga && fieldFits 32 gb
  | .sub c gd ga gb => coreFits c && fieldFits 32 gd && fieldFits 32 ga && fieldFits 32 gb
  | .and c gd ga gb => coreFits c && fieldFits 32 gd && fieldFits 32 ga && fieldFits 32 gb
  | .or c gd ga gb => coreFits c && fieldFits 32 gd && fieldFits 32 ga && fieldFits 32 gb
  | .xor c gd ga gb => coreFits c && fieldFits 32 gd && fieldFits 32 ga && fieldFits 32 gb
  | .sll c gd ga gb => coreFits c && fieldFits 32 gd && fieldFits 32 ga && fieldFits 32 gb
  | .srl c gd ga gb => coreFits c && fieldFits 32 gd && fieldFits 32 ga && fieldFits 32 gb
  | .sra c gd ga gb => coreFits c && fieldFits 32 gd && fieldFits 32 ga && fieldFits 32 gb
  | .slt c gd ga gb => coreFits c && fieldFits 32 gd && fieldFits 32 ga && fieldFits 32 gb
  | .sltu c gd ga gb => coreFits c && fieldFits 32 gd && fieldFits 32 ga && fieldFits 32 gb
  | .min c gd ga gb => coreFits c && fieldFits 32 gd && fieldFits 32 ga && fieldFits 32 gb
  | .max c gd ga gb => coreFits c && fieldFits 32 gd && fieldFits 32 ga && fieldFits 32 gb
  | .minu c gd ga gb => coreFits c && fieldFits 32 gd && fieldFits 32 ga && fieldFits 32 gb
  | .maxu c gd ga gb => coreFits c && fieldFits 32 gd && fieldFits 32 ga && fieldFits 32 gb
  | .clz c gd ga gb => coreFits c && fieldFits 32 gd && fieldFits 32 ga && fieldFits 32 gb
  | .ctz c gd ga gb => coreFits c && fieldFits 32 gd && fieldFits 32 ga && fieldFits 32 gb
  | .popc c gd ga gb => coreFits c && fieldFits 32 gd && fieldFits 32 ga && fieldFits 32 gb
  | .andn c gd ga gb => coreFits c && fieldFits 32 gd && fieldFits 32 ga && fieldFits 32 gb
  | .addi c gd ga imm => coreFits c && fieldFits 32 gd && fieldFits 32 ga && fieldFits 32768 imm
  | .andi c gd ga imm => coreFits c && fieldFits 32 gd && fieldFits 32 ga && fieldFits 32768 imm
  | .ori c gd ga imm => coreFits c && fieldFits 32 gd && fieldFits 32 ga && fieldFits 32768 imm
  | .xori c gd ga imm => coreFits c && fieldFits 32 gd && fieldFits 32 ga && fieldFits 32768 imm
  | .slti c gd ga imm => coreFits c && fieldFits 32 gd && fieldFits 32 ga && fieldFits 32768 imm
  | .sltiu c gd ga imm => coreFits c && fieldFits 32 gd && fieldFits 32 ga && fieldFits 32768 imm
  | .shi c gd ga imm => coreFits c && fieldFits 32 gd && fieldFits 32 ga && fieldFits 32768 imm
  | .lih c gd imm => coreFits c && fieldFits 32 gd && fieldFits (2 ^ 20) imm
  | .liw c gd rsv imm => coreFits c && fieldFits 32 gd && fieldFits (2 ^ 20) rsv && fieldFits (2 ^ 32) imm
  | .mul c gd ga gb => coreFits c && fieldFits 32 gd && fieldFits 32 ga && fieldFits 32 gb
  | .mulh c gd ga gb => coreFits c && fieldFits 32 gd && fieldFits 32 ga && fieldFits 32 gb
  | .mulhu c gd ga gb => coreFits c && fieldFits 32 gd && fieldFits 32 ga && fieldFits 32 gb
  | .div c gd ga gb => coreFits c && fieldFits 32 gd && fieldFits 32 ga && fieldFits 32 gb
  | .divu c gd ga gb => coreFits c && fieldFits 32 gd && fieldFits 32 ga && fieldFits 32 gb
  | .rem c gd ga gb => coreFits c && fieldFits 32 gd && fieldFits 32 ga && fieldFits 32 gb
  | .remu c gd ga gb => coreFits c && fieldFits 32 gd && fieldFits 32 ga && fieldFits 32 gb
  | .lb c gd ga imm => coreFits c && fieldFits 32 gd && fieldFits 32 ga && fieldFits 32768 imm
  | .lbu c gd ga imm => coreFits c && fieldFits 32 gd && fieldFits 32 ga && fieldFits 32768 imm
  | .lh c gd ga imm => coreFits c && fieldFits 32 gd && fieldFits 32 ga && fieldFits 32768 imm
  | .lhu c gd ga imm => coreFits c && fieldFits 32 gd && fieldFits 32 ga && fieldFits 32768 imm
  | .lw c gd ga imm => coreFits c && fieldFits 32 gd && fieldFits 32 ga && fieldFits 32768 imm
  | .lwu c gd ga imm => coreFits c && fieldFits 32 gd && fieldFits 32 ga && fieldFits 32768 imm
  | .ld c gd ga imm => coreFits c && fieldFits 32 gd && fieldFits 32 ga && fieldFits 32768 imm
  | .sb c gs ga imm => coreFits c && fieldFits 32 gs && fieldFits 32 ga && fieldFits 32768 imm
  | .sh c gs ga imm => coreFits c && fieldFits 32 gs && fieldFits 32 ga && fieldFits 32768 imm
  | .sw c gs ga imm => coreFits c && fieldFits 32 gs && fieldFits 32 ga && fieldFits 32768 imm
  | .sd c gs ga imm => coreFits c && fieldFits 32 gs && fieldFits 32 ga && fieldFits 32768 imm
  | .atomicSwap c _ rsv gd ga gb => coreFits c && fieldFits 32 rsv && fieldFits 32 gd && fieldFits 32 ga && fieldFits 32 gb
  | .atomicAdd c _ rsv gd ga gb => coreFits c && fieldFits 32 rsv && fieldFits 32 gd && fieldFits 32 ga && fieldFits 32 gb
  | .atomicAnd c _ rsv gd ga gb => coreFits c && fieldFits 32 rsv && fieldFits 32 gd && fieldFits 32 ga && fieldFits 32 gb
  | .atomicOr c _ rsv gd ga gb => coreFits c && fieldFits 32 rsv && fieldFits 32 gd && fieldFits 32 ga && fieldFits 32 gb
  | .atomicXor c _ rsv gd ga gb => coreFits c && fieldFits 32 rsv && fieldFits 32 gd && fieldFits 32 ga && fieldFits 32 gb
  | .atomicMax c _ rsv gd ga gb => coreFits c && fieldFits 32 rsv && fieldFits 32 gd && fieldFits 32 ga && fieldFits 32 gb
  | .atomicMin c _ rsv gd ga gb => coreFits c && fieldFits 32 rsv && fieldFits 32 gd && fieldFits 32 ga && fieldFits 32 gb
  | .atomicMaxu c _ rsv gd ga gb => coreFits c && fieldFits 32 rsv && fieldFits 32 gd && fieldFits 32 ga && fieldFits 32 gb
  | .atomicMinu c _ rsv gd ga gb => coreFits c && fieldFits 32 rsv && fieldFits 32 gd && fieldFits 32 ga && fieldFits 32 gb
  | .atomicCas c _ rsv gd ga gb => coreFits c && fieldFits 32 rsv && fieldFits 32 gd && fieldFits 32 ga && fieldFits 32 gb
  | .beq c ga gb off => coreFits c && fieldFits 32 ga && fieldFits 32 gb && fieldFits 4096 off
  | .bne c ga gb off => coreFits c && fieldFits 32 ga && fieldFits 32 gb && fieldFits 4096 off
  | .blt c ga gb off => coreFits c && fieldFits 32 ga && fieldFits 32 gb && fieldFits 4096 off
  | .bge c ga gb off => coreFits c && fieldFits 32 ga && fieldFits 32 gb && fieldFits 4096 off
  | .bltu c ga gb off => coreFits c && fieldFits 32 ga && fieldFits 32 gb && fieldFits 4096 off
  | .bgeu c ga gb off => coreFits c && fieldFits 32 ga && fieldFits 32 gb && fieldFits 4096 off
  | .jal c gd off => coreFits c && fieldFits 32 gd && fieldFits (2 ^ 20) off
  | .jalr c gd ga imm => coreFits c && fieldFits 32 gd && fieldFits 32 ga && fieldFits 32768 imm
  | .ecall c gd ga gb => coreFits c && fieldFits 32 gd && fieldFits 32 ga && fieldFits 32 gb
  | .brk c gd ga gb => coreFits c && fieldFits 32 gd && fieldFits 32 ga && fieldFits 32 gb
  | .mret c gd ga gb => coreFits c && fieldFits 32 gd && fieldFits 32 ga && fieldFits 32 gb
  | .wfi c gd ga gb => coreFits c && fieldFits 32 gd && fieldFits 32 ga && fieldFits 32 gb
  | .fence c gd ga gb => coreFits c && fieldFits 32 gd && fieldFits 32 ga && fieldFits 32 gb
  | .fenceI c gd ga gb => coreFits c && fieldFits 32 gd && fieldFits 32 ga && fieldFits 32 gb
  | .tswitch c gd ga gb => coreFits c && fieldFits 32 gd && fieldFits 32 ga && fieldFits 32 gb
  | .ctxsave c gd ga gb => coreFits c && fieldFits 32 gd && fieldFits 32 ga && fieldFits 32 gb
  | .ctxload c gd ga gb => coreFits c && fieldFits 32 gd && fieldFits 32 ga && fieldFits 32 gb
  | .csrrw c gd ga imm => coreFits c && fieldFits 32 gd && fieldFits 32 ga && fieldFits 32768 imm
  | .csrrs c gd ga imm => coreFits c && fieldFits 32 gd && fieldFits 32 ga && fieldFits 32768 imm
  | .csrrc c gd ga imm => coreFits c && fieldFits 32 gd && fieldFits 32 ga && fieldFits 32768 imm
  | .interruptTaken c => coreFits c
  | .maintSwitch c => coreFits c
  | .contextSwitchDone c => coreFits c
  | .engStateMoveDone c => coreFits c
  | .cycleCmpMatch c => coreFits c
  | .isoftWrite o c _ => o.fits && coreFits c
  | .coreRunWrite o c _ => o.fits && coreFits c
  | .coreModeWrite o c _ => o.fits && coreFits c
  | .ctxStateWrite o c _ => o.fits && coreFits c
  | .engErrClear o c _ => o.fits && coreFits c
  | .tload c tt ga gb rsv => coreFits c && fieldFits 8 tt && fieldFits 32 ga && fieldFits 32 gb && fieldFits 4096 rsv
  | .tstore c tt ga gb rsv => coreFits c && fieldFits 8 tt && fieldFits 32 ga && fieldFits 32 gb && fieldFits 4096 rsv
  | .tzero c tt rsv => coreFits c && fieldFits 8 tt && fieldFits (2 ^ 22) rsv
  | .trel c mask rsv => coreFits c && fieldFits 256 mask && fieldFits (2 ^ 17) rsv
  | .tconf c tt ga rsv => coreFits c && fieldFits 8 tt && fieldFits 32 ga && fieldFits (2 ^ 17) rsv
  | .tcfgMmioWrite o c t _ => o.fits && coreFits c && fieldFits 8 t
  | .tcfgBarrierApply c => coreFits c
  | .trelApply c => coreFits c
  | .tloadRowReturn c row _ => coreFits c && fieldFits 64 row
  | .mma c sb sa tb ta btr atr bsrc asrc ovw acc r0 r1 ns ms ks => coreFits c && fieldFits 64 sb && fieldFits 64 sa && fieldFits 8 tb && fieldFits 8 ta &&
      fieldFits 2 btr && fieldFits 2 atr && fieldFits 2 bsrc && fieldFits 2 asrc && fieldFits 2 ovw && fieldFits 2 acc && fieldFits 2 r0 && fieldFits 2 r1 && fieldFits 256 ns &&
      fieldFits 128 ms && fieldFits 65536 ks
  | .mdrain c r0 fmt rm gb ga td r1 dst acc r2 nc coff tag => coreFits c && fieldFits 8 r0 && fieldFits 16 fmt && fieldFits 4 rm && fieldFits 32 gb &&
      fieldFits 32 ga && fieldFits 8 td && fieldFits 2 r1 && fieldFits 2 dst && fieldFits 2 acc && fieldFits 2 r2 && fieldFits 2048 nc && fieldFits 16 coff && fieldFits 65536 tag
  | .mcfg c gd ga gb fn => coreFits c && fieldFits 32 gd && fieldFits 32 ga && fieldFits 32 gb && fieldFits 1024 fn
  | .mcfgBarrierApply c => coreFits c
  | .feederSlotRelease c => coreFits c
  | .mmaComplete c => coreFits c
  | .mdrainReadEnd c => coreFits c
  | .mdrainWritten c => coreFits c
  | .mdrainComplete c => coreFits c
  | .varithAdd c vd va vb pm z w => coreFits c && fieldFits 32 vd && fieldFits 32 va && fieldFits 32 vb && fieldFits 8 pm && fieldFits 2 z && fieldFits 4 w
  | .varithSub c vd va vb pm z w => coreFits c && fieldFits 32 vd && fieldFits 32 va && fieldFits 32 vb && fieldFits 8 pm && fieldFits 2 z && fieldFits 4 w
  | .varithMul c vd va vb pm z w => coreFits c && fieldFits 32 vd && fieldFits 32 va && fieldFits 32 vb && fieldFits 8 pm && fieldFits 2 z && fieldFits 4 w
  | .varithDiv c vd va vb pm z w => coreFits c && fieldFits 32 vd && fieldFits 32 va && fieldFits 32 vb && fieldFits 8 pm && fieldFits 2 z && fieldFits 4 w
  | .varithMin c vd va vb pm z w => coreFits c && fieldFits 32 vd && fieldFits 32 va && fieldFits 32 vb && fieldFits 8 pm && fieldFits 2 z && fieldFits 4 w
  | .varithMax c vd va vb pm z w => coreFits c && fieldFits 32 vd && fieldFits 32 va && fieldFits 32 vb && fieldFits 8 pm && fieldFits 2 z && fieldFits 4 w
  | .varithAbs c vd va vb pm z w => coreFits c && fieldFits 32 vd && fieldFits 32 va && fieldFits 32 vb && fieldFits 8 pm && fieldFits 2 z && fieldFits 4 w
  | .varithNeg c vd va vb pm z w => coreFits c && fieldFits 32 vd && fieldFits 32 va && fieldFits 32 vb && fieldFits 8 pm && fieldFits 2 z && fieldFits 4 w
  | .varithSqrt c vd va vb pm z w => coreFits c && fieldFits 32 vd && fieldFits 32 va && fieldFits 32 vb && fieldFits 8 pm && fieldFits 2 z && fieldFits 4 w
  | .cvtfi c vd va vb pm z w => coreFits c && fieldFits 32 vd && fieldFits 32 va && fieldFits 32 vb && fieldFits 8 pm && fieldFits 2 z && fieldFits 4 w
  | .cvtif c vd va vb pm z w => coreFits c && fieldFits 32 vd && fieldFits 32 va && fieldFits 32 vb && fieldFits 8 pm && fieldFits 2 z && fieldFits 4 w
  | .scaleb c vd va vb pm z w => coreFits c && fieldFits 32 vd && fieldFits 32 va && fieldFits 32 vb && fieldFits 8 pm && fieldFits 2 z && fieldFits 4 w
  | .varithMov c vd va vb pm z w => coreFits c && fieldFits 32 vd && fieldFits 32 va && fieldFits 32 vb && fieldFits 8 pm && fieldFits 2 z && fieldFits 4 w
  | .varithSel c vd va vb pm z w => coreFits c && fieldFits 32 vd && fieldFits 32 va && fieldFits 32 vb && fieldFits 8 pm && fieldFits 2 z && fieldFits 4 w
  | .vintAdd c vd va vb pm z w => coreFits c && fieldFits 32 vd && fieldFits 32 va && fieldFits 32 vb && fieldFits 8 pm && fieldFits 2 z && fieldFits 4 w
  | .vintSub c vd va vb pm z w => coreFits c && fieldFits 32 vd && fieldFits 32 va && fieldFits 32 vb && fieldFits 8 pm && fieldFits 2 z && fieldFits 4 w
  | .vintMul c vd va vb pm z w => coreFits c && fieldFits 32 vd && fieldFits 32 va && fieldFits 32 vb && fieldFits 8 pm && fieldFits 2 z && fieldFits 4 w
  | .vintAnd c vd va vb pm z w => coreFits c && fieldFits 32 vd && fieldFits 32 va && fieldFits 32 vb && fieldFits 8 pm && fieldFits 2 z && fieldFits 4 w
  | .vintOr c vd va vb pm z w => coreFits c && fieldFits 32 vd && fieldFits 32 va && fieldFits 32 vb && fieldFits 8 pm && fieldFits 2 z && fieldFits 4 w
  | .vintXor c vd va vb pm z w => coreFits c && fieldFits 32 vd && fieldFits 32 va && fieldFits 32 vb && fieldFits 8 pm && fieldFits 2 z && fieldFits 4 w
  | .vintSll c vd va vb pm z w => coreFits c && fieldFits 32 vd && fieldFits 32 va && fieldFits 32 vb && fieldFits 8 pm && fieldFits 2 z && fieldFits 4 w
  | .vintSrl c vd va vb pm z w => coreFits c && fieldFits 32 vd && fieldFits 32 va && fieldFits 32 vb && fieldFits 8 pm && fieldFits 2 z && fieldFits 4 w
  | .vintSra c vd va vb pm z w => coreFits c && fieldFits 32 vd && fieldFits 32 va && fieldFits 32 vb && fieldFits 8 pm && fieldFits 2 z && fieldFits 4 w
  | .vintMin c vd va vb pm z w => coreFits c && fieldFits 32 vd && fieldFits 32 va && fieldFits 32 vb && fieldFits 8 pm && fieldFits 2 z && fieldFits 4 w
  | .vintMax c vd va vb pm z w => coreFits c && fieldFits 32 vd && fieldFits 32 va && fieldFits 32 vb && fieldFits 8 pm && fieldFits 2 z && fieldFits 4 w
  | .vfma c vd va vb pm z w => coreFits c && fieldFits 32 vd && fieldFits 32 va && fieldFits 32 vb && fieldFits 8 pm && fieldFits 2 z && fieldFits 4 w
  | .vfmaSub c vd va vb pm z w => coreFits c && fieldFits 32 vd && fieldFits 32 va && fieldFits 32 vb && fieldFits 8 pm && fieldFits 2 z && fieldFits 4 w
  | .vfmaNeg c vd va vb pm z w => coreFits c && fieldFits 32 vd && fieldFits 32 va && fieldFits 32 vb && fieldFits 8 pm && fieldFits 2 z && fieldFits 4 w
  | .vscalAdd c vd va vb pm z w => coreFits c && fieldFits 32 vd && fieldFits 32 va && fieldFits 32 vb && fieldFits 8 pm && fieldFits 2 z && fieldFits 4 w
  | .vscalSub c vd va vb pm z w => coreFits c && fieldFits 32 vd && fieldFits 32 va && fieldFits 32 vb && fieldFits 8 pm && fieldFits 2 z && fieldFits 4 w
  | .vscalMul c vd va vb pm z w => coreFits c && fieldFits 32 vd && fieldFits 32 va && fieldFits 32 vb && fieldFits 8 pm && fieldFits 2 z && fieldFits 4 w
  | .vscalDiv c vd va vb pm z w => coreFits c && fieldFits 32 vd && fieldFits 32 va && fieldFits 32 vb && fieldFits 8 pm && fieldFits 2 z && fieldFits 4 w
  | .vscalMin c vd va vb pm z w => coreFits c && fieldFits 32 vd && fieldFits 32 va && fieldFits 32 vb && fieldFits 8 pm && fieldFits 2 z && fieldFits 4 w
  | .vscalMax c vd va vb pm z w => coreFits c && fieldFits 32 vd && fieldFits 32 va && fieldFits 32 vb && fieldFits 8 pm && fieldFits 2 z && fieldFits 4 w
  | .vcmpEq c vd va vb pm z w => coreFits c && fieldFits 32 vd && fieldFits 32 va && fieldFits 32 vb && fieldFits 8 pm && fieldFits 2 z && fieldFits 4 w
  | .vcmpNe c vd va vb pm z w => coreFits c && fieldFits 32 vd && fieldFits 32 va && fieldFits 32 vb && fieldFits 8 pm && fieldFits 2 z && fieldFits 4 w
  | .vcmpLt c vd va vb pm z w => coreFits c && fieldFits 32 vd && fieldFits 32 va && fieldFits 32 vb && fieldFits 8 pm && fieldFits 2 z && fieldFits 4 w
  | .vcmpLe c vd va vb pm z w => coreFits c && fieldFits 32 vd && fieldFits 32 va && fieldFits 32 vb && fieldFits 8 pm && fieldFits 2 z && fieldFits 4 w
  | .vcmpGt c vd va vb pm z w => coreFits c && fieldFits 32 vd && fieldFits 32 va && fieldFits 32 vb && fieldFits 8 pm && fieldFits 2 z && fieldFits 4 w
  | .vcmpGe c vd va vb pm z w => coreFits c && fieldFits 32 vd && fieldFits 32 va && fieldFits 32 vb && fieldFits 8 pm && fieldFits 2 z && fieldFits 4 w
  | .vcmpUnord c vd va vb pm z w => coreFits c && fieldFits 32 vd && fieldFits 32 va && fieldFits 32 vb && fieldFits 8 pm && fieldFits 2 z && fieldFits 4 w
  | .vpredAnd c vd va vb pm z w => coreFits c && fieldFits 32 vd && fieldFits 32 va && fieldFits 32 vb && fieldFits 8 pm && fieldFits 2 z && fieldFits 4 w
  | .vpredOr c vd va vb pm z w => coreFits c && fieldFits 32 vd && fieldFits 32 va && fieldFits 32 vb && fieldFits 8 pm && fieldFits 2 z && fieldFits 4 w
  | .vpredXor c vd va vb pm z w => coreFits c && fieldFits 32 vd && fieldFits 32 va && fieldFits 32 vb && fieldFits 8 pm && fieldFits 2 z && fieldFits 4 w
  | .vpredAndn c vd va vb pm z w => coreFits c && fieldFits 32 vd && fieldFits 32 va && fieldFits 32 vb && fieldFits 8 pm && fieldFits 2 z && fieldFits 4 w
  | .fromg c vd va vb pm z w => coreFits c && fieldFits 32 vd && fieldFits 32 va && fieldFits 32 vb && fieldFits 8 pm && fieldFits 2 z && fieldFits 4 w
  | .tog c vd va vb pm z w => coreFits c && fieldFits 32 vd && fieldFits 32 va && fieldFits 32 vb && fieldFits 8 pm && fieldFits 2 z && fieldFits 4 w
  | .bcast c vd va vb pm z w => coreFits c && fieldFits 32 vd && fieldFits 32 va && fieldFits 32 vb && fieldFits 8 pm && fieldFits 2 z && fieldFits 4 w
  | .vext c vd va vb pm z w => coreFits c && fieldFits 32 vd && fieldFits 32 va && fieldFits 32 vb && fieldFits 8 pm && fieldFits 2 z && fieldFits 4 w
  | .vins c vd va vb pm z w => coreFits c && fieldFits 32 vd && fieldFits 32 va && fieldFits 32 vb && fieldFits 8 pm && fieldFits 2 z && fieldFits 4 w
  | .rot c vd va vb pm z w => coreFits c && fieldFits 32 vd && fieldFits 32 va && fieldFits 32 vb && fieldFits 8 pm && fieldFits 2 z && fieldFits 4 w
  | .vcvtWiden c vd va nfmt part rm rsv w => coreFits c && fieldFits 32 vd && fieldFits 32 va && fieldFits 16 nfmt && fieldFits 8 part && fieldFits 2 rm &&
      fieldFits 2 rsv && fieldFits 4 w
  | .vcvtNarrow c vd va nfmt part rm rsv w => coreFits c && fieldFits 32 vd && fieldFits 32 va && fieldFits 16 nfmt && fieldFits 8 part && fieldFits 2 rm &&
      fieldFits 2 rsv && fieldFits 4 w
  | .vld c vd ga pm imm => coreFits c && fieldFits 32 vd && fieldFits 32 ga && fieldFits 8 pm && fieldFits 4096 imm
  | .vst c vs ga pm imm => coreFits c && fieldFits 32 vs && fieldFits 32 ga && fieldFits 8 pm && fieldFits 4096 imm
  | .vtr c vd ga tt tr rsv => coreFits c && fieldFits 32 vd && fieldFits 32 ga && fieldFits 8 tt && fieldFits 2 tr && fieldFits 128 rsv
  | .vtw c vs ga tt tr rsv => coreFits c && fieldFits 32 vs && fieldFits 32 ga && fieldFits 8 tt && fieldFits 2 tr && fieldFits 128 rsv
  | .vredSum c vd va vb pm g ts w => coreFits c && fieldFits 32 vd && fieldFits 32 va && fieldFits 32 vb && fieldFits 8 pm && fieldFits 4 g && fieldFits 2 ts && fieldFits 4 w
  | .vredMax c vd va vb pm g ts w => coreFits c && fieldFits 32 vd && fieldFits 32 va && fieldFits 32 vb && fieldFits 8 pm && fieldFits 4 g && fieldFits 2 ts && fieldFits 4 w
  | .vredSumsq c vd va vb pm g ts w => coreFits c && fieldFits 32 vd && fieldFits 32 va && fieldFits 32 vb && fieldFits 8 pm && fieldFits 4 g && fieldFits 2 ts && fieldFits 4 w
  | .vredDot c vd va vb pm g ts w => coreFits c && fieldFits 32 vd && fieldFits 32 va && fieldFits 32 vb && fieldFits 8 pm && fieldFits 4 g && fieldFits 2 ts && fieldFits 4 w
  | .vfun c vd va slot d pm z w rsv => coreFits c && fieldFits 32 vd && fieldFits 32 va && fieldFits 16 slot && fieldFits 2 d && fieldFits 8 pm && fieldFits 2 z &&
      fieldFits 4 w && fieldFits 16 rsv
  | .vfload c slot r0 ga rsv => coreFits c && fieldFits 16 slot && fieldFits 2 r0 && fieldFits 32 ga && fieldFits 32768 rsv
  | .vfloadDone c => coreFits c
  | .vmxs c vd va vb byte w => coreFits c && fieldFits 32 vd && fieldFits 32 va && fieldFits 32 vb && fieldFits 256 byte && fieldFits 4 w
  | .vcfg c vd ga rest => coreFits c && fieldFits 32 vd && fieldFits 32 ga && fieldFits 32768 rest
  | .vfact c td ga ta gb rsv => coreFits c && fieldFits 8 td && fieldFits 32 ga && fieldFits 8 ta && fieldFits 32 gb && fieldFits 512 rsv
  | .vsolve c vd va ga tf rsv => coreFits c && fieldFits 32 vd && fieldFits 32 va && fieldFits 32 ga && fieldFits 8 tf && fieldFits 128 rsv
  | .groll c gd ga gb fn => coreFits c && fieldFits 32 gd && fieldFits 32 ga && fieldFits 32 gb && fieldFits 1024 fn
  | .grollSliceUpdate c n => coreFits c && fieldFits 256 n
  | .grollComplete c => coreFits c
  | .gaugeWindowRead o k => o.fits && fieldFits 8 k
  | .gaugeWindowWrite o k mask => o.fits && fieldFits 8 k && fieldFits 65536 mask
  | .srSeed o k _ => o.fits && fieldFits 8 k
  | .seedApply c => coreFits c
  | .grangeWrite o k _ => o.fits && fieldFits 8 k
  | .rd p => p.fits
  | .wr p => p.fits
  | .atom p => p.fits
  | .merge p => p.fits
  | .spent p => p.fits
  | .rdData p => p.fits
  | .wrAck p => p.fits
  | .nack p => p.fits
  | .credit p => p.fits
  | .msg p => p.fits
  | .reservedOpPacket p => p.fits
  | .sliceMissAdmit n => fieldFits 256 n
  | .memoryReadDone ep line sev _ => fieldFits 4096 ep && fieldFits (2 ^ 41) line && fieldFits 16 sev
  | .lcQueueAdmit n => fieldFits 32 n
  | .writeBackDone n line => fieldFits 256 n && fieldFits (2 ^ 41) line
  | .pfRd p => p.fits
  | .cmemCfgWrite o k _ => o.fits && fieldFits 8 k
  | .requestLimit c txid => coreFits c && fieldFits 256 txid
  | .lgRead o w => o.fits && fieldFits 9 w
  | .lgFind o w => o.fits && fieldFits 9 w
  | .lgMap o w => o.fits && fieldFits 9 w
  | .lgUnmap o w => o.fits && fieldFits 9 w
  | .lgSetf o w => o.fits && fieldFits 9 w
  | .lgClrf o w => o.fits && fieldFits 9 w
  | .lgMigrate o w => o.fits && fieldFits 9 w
  | .lgGive o w => o.fits && fieldFits 9 w
  | .shootdown w ep => fieldFits 9 w && fieldFits 4096 ep
  | .shootdownDone w => fieldFits 9 w
  | .migrateCopyStart w => fieldFits 9 w
  | .migrateShareDone w ep => fieldFits 9 w && fieldFits 4096 ep
  | .sarm c gd ga gb => coreFits c && fieldFits 32 gd && fieldFits 32 ga && fieldFits 32 gb
  | .swait c gd ga gb => coreFits c && fieldFits 32 gd && fieldFits 32 ga && fieldFits 32 gb
  | .sfree c gd ga gb => coreFits c && fieldFits 32 gd && fieldFits 32 ga && fieldFits 32 gb
  | .sstop c gd ga gb => coreFits c && fieldFits 32 gd && fieldFits 32 ga && fieldFits 32 gb
  | .sstat c gd ga gb => coreFits c && fieldFits 32 gd && fieldFits 32 ga && fieldFits 32 gb
  | .flumeUnitArrival c n _ => coreFits c && fieldFits 64 n
  | .deadlineCheck c n => coreFits c && fieldFits 64 n
  | .cstart c gd ga gb => coreFits c && fieldFits 32 gd && fieldFits 32 ga && fieldFits 32 gb
  | .cstop c gd ga gb => coreFits c && fieldFits 32 gd && fieldFits 32 ga && fieldFits 32 gb
  | .cstat c gd ga gb => coreFits c && fieldFits 32 gd && fieldFits 32 ga && fieldFits 32 gb
  | .culvertDescFetch chip c n => (if chip then fieldFits 8 c && fieldFits 16 n else coreFits c && fieldFits 8 n)
  | .culvertElement chip c n _ => (if chip then fieldFits 8 c && fieldFits 16 n else coreFits c && fieldFits 8 n)
  | .culvertDescComplete chip c n => (if chip then fieldFits 8 c && fieldFits 16 n else coreFits c && fieldFits 8 n)
  | .cvCountWrite o c n _ => o.fits && coreFits c && fieldFits 8 n
  | .ksig c gd ga gb => coreFits c && fieldFits 32 gd && fieldFits 32 ga && fieldFits 32 gb
  | .kwait c gd ga gb => coreFits c && fieldFits 32 gd && fieldFits 32 ga && fieldFits 32 gb
  | .kpeek c gd ga gb => coreFits c && fieldFits 32 gd && fieldFits 32 ga && fieldFits 32 gb
  | .kset c gd ga gb => coreFits c && fieldFits 32 gd && fieldFits 32 ga && fieldFits 32 gb
  | .harr c gd ga gb => coreFits c && fieldFits 32 gd && fieldFits 32 ga && fieldFits 32 gb
  | .hwait c gd ga gb => coreFits c && fieldFits 32 gd && fieldFits 32 ga && fieldFits 32 gb
  | .hpeek c gd ga gb => coreFits c && fieldFits 32 gd && fieldFits 32 ga && fieldFits 32 gb
  | .knot p => p.fits
  | .knotRsp p => p.fits
  | .withdraw p => p.fits
  | .hitch p => p.fits
  | .hitchDone p => p.fits
  | .knotWordWrite o key _ => o.fits && fieldFits 73728 key
  | .htCfgWrite o h _ => o.fits && fieldFits 64 h
  | .hitchMaskWrite o mask w _ => o.fits && fieldFits 32 mask && fieldFits 11 w
  | .ptRangeWrite o k _ => o.fits && fieldFits 8 k
  | .ptReset o k => o.fits && fieldFits 8 k
  | .ptResetDrainDone k => fieldFits 8 k
  | .rtBusyWindow _ => true
  | .registerWrite o a _ => o.fits && fieldFits (2 ^ 32) a
  | .registerReadClear o a => o.fits && fieldFits (2 ^ 32) a
  | .bgWindowEnd k => fieldFits 4 k
  | .seqNext n => fieldFits 16 n
  | .seqPut n => fieldFits 16 n
  | .seqDrop n => fieldFits 16 n
  | .seqEnd n => fieldFits 16 n
  | .sluiceProgramOp n => fieldFits 16 n
  | .ruleAdd n => fieldFits 16 n
  | .ruleMul n => fieldFits 16 n
  | .ruleFma n => fieldFits 16 n
  | .ruleDiv n => fieldFits 16 n
  | .ruleSqrt n => fieldFits 16 n
  | .ruleRsqrt n => fieldFits 16 n
  | .ruleMax n => fieldFits 16 n
  | .ruleMin n => fieldFits 16 n
  | .ruleSign n => fieldFits 16 n
  | .ruleClip n => fieldFits 16 n
  | .ruleLerp n => fieldFits 16 n
  | .ruleScale n => fieldFits 16 n
  | .ruleGroup n => fieldFits 16 n
  | .sluDoorbell o n _ => o.fits && fieldFits 16 n
  | .sluBcast o n _ => o.fits && fieldFits 16 n
  | .sluJobLoad n => fieldFits 16 n
  | .sluJobStart n => fieldFits 16 n
  | .sluJobDone n => fieldFits 16 n
  | .sluAbort o n => o.fits && fieldFits 16 n
  | .sluErrClear o n => o.fits && fieldFits 16 n
  | .capDoorbell o _ => o.fits
  | .collectiveStart g => fieldFits 256 g
  | .cdata k f => fieldFits 8 k && f.fits
  | .sweep k f => fieldFits 8 k && f.fits
  | .gfail k f => fieldFits 8 k && f.fits
  | .xhitch k f => fieldFits 8 k && f.fits
  | .ddata k f => fieldFits 8 k && f.fits
  | .ddone k f => fieldFits 8 k && f.fits
  | .hello k f => fieldFits 8 k && f.fits
  | .linkAck k f => fieldFits 8 k && f.fits
  | .linkNack k f => fieldFits 8 k && f.fits
  | .capstanTimeout g => fieldFits 256 g
  | .capDimWrite o d _ => o.fits && fieldFits 4 d
  | .capGrpWrite o g _ => o.fits && fieldFits 256 g
  | .hcHeadWrite o k n _ => o.fits && fieldFits 8 k && fieldFits 16 n
  | .retransmitTimeout k => fieldFits 8 k
  | .laneSignalLoss k => fieldFits 8 k
  | .portTrained k rx => fieldFits 8 k && fieldFits 16 rx
  | .hwTrain o k => o.fits && fieldFits 8 k
  | .hwDown o k => o.fits && fieldFits 8 k
  | .laneEnWrite o k lanes => o.fits && fieldFits 8 k && fieldFits 16 lanes
  | .spillwayClose o d => o.fits && fieldFits 4 d
  | .spillwayOpen o d => o.fits && fieldFits 4 d
  | .spillwayMoveDone d => fieldFits 4 d
  | .bypassForceNLow _ => true
  | .ttTrain o => o.fits
  | .ttDown o => o.fits
  | .ttWreset o => o.fits
  | .sublinkLocked k => fieldFits 2 k
  | .sublinkTrainTimeout k => fieldFits 2 k
  | .idleFlit k x => fieldFits 2 k && x.fits
  | .msgFlit k x => fieldFits 2 k && x.fits
  | .nak k x => fieldFits 2 k && x.fits
  | .steer k x => fieldFits 2 k && x.fits
  | .rdShared k m => fieldFits 2 k && m.fits
  | .rdOwn k m => fieldFits 2 k && m.fits
  | .rdCur k m => fieldFits 2 k && m.fits
  | .upgrade k m => fieldFits 2 k && m.fits
  | .evict k m => fieldFits 2 k && m.fits
  | .wrLine k m => fieldFits 2 k && m.fits
  | .wrPart k m => fieldFits 2 k && m.fits
  | .wrBack k m => fieldFits 2 k && m.fits
  | .snpData k m => fieldFits 2 k && m.fits
  | .snpInv k m => fieldFits 2 k && m.fits
  | .ttWrAck k m => fieldFits 2 k && m.fits
  | .grant k m => fieldFits 2 k && m.fits
  | .snpAck k m => fieldFits 2 k && m.fits
  | .evictAck k m => fieldFits 2 k && m.fits
  | .ttErr k m => fieldFits 2 k && m.fits
  | .ttRdData k m => fieldFits 2 k && m.fits
  | .snpDataRsp k m => fieldFits 2 k && m.fits
  | .regRd k m => fieldFits 2 k && m.fits
  | .regWr k m => fieldFits 2 k && m.fits
  | .regRsp k m => fieldFits 2 k && m.fits
  | .msi k m => fieldFits 2 k && m.fits
  | .ttReqTimeout k txid => fieldFits 2 k && fieldFits 4096 txid
  | .ttSnoopTimeout k txid => fieldFits 2 k && fieldFits 4096 txid
  | .ttMsiWrite o k _ => o.fits && fieldFits 2 k
  | .ttCwWrite o _ w _ => o.fits && fieldFits 8 w
  | .mbInDoor h => fieldFits 2 h
  | .mbOutDoor h => fieldFits 2 h
  | .logCommit o k _ => o.fits && fieldFits 8 k
  | .logMirrorCompanion k => fieldFits 8 k
  | .logMirrorFlash k _ => fieldFits 8 k
  | .snTake o k => o.fits && fieldFits 8 k
  | .snCommit o k => o.fits && fieldFits 8 k
  | .snDrop o k => o.fits && fieldFits 8 k
  | .snRollbackOld o k => o.fits && fieldFits 8 k
  | .snRollbackNew o k => o.fits && fieldFits 8 k
  | .snapshotSweepEnd k => fieldFits 8 k
  | .snapshotCopyStart k _ => fieldFits 8 k
  | .snapshotCopyDone k _ => fieldFits 8 k
  | .snapshotMigrate k _ => fieldFits 8 k
  | .rollbackDone k => fieldFits 8 k
  | .snCtlWrite o k _ => o.fits && fieldFits 8 k
  | .dredgeScrub _ _ _ _ => true
  | .dredgeCorrection _ _ => true
  | .recalStart _ _ => true
  | .recalEnd _ => true
  | .tbtRegionStart _ => true
  | .tbtRegionEnd _ _ => true
  | .bankRetire o st k _ => o.fits && fieldFits 16 st && fieldFits 4 k
  | .ckVerify o _ => o.fits
  | .ckCommitSvn o _ => o.fits
  | .ckInstall o _ => o.fits
  | .ckAttest o _ => o.fits
  | .ckMemkey o _ => o.fits
  | .ckTransition o _ => o.fits
  | .ckUnlock o _ => o.fits
  | .ckAkcert o _ => o.fits
  | .ckExtend o _ => o.fits
  | .ckCmdDone => true
  | .tamper cause => fieldFits 6 cause
  | .vaultWipeDone => true
  | .licenceExpiry => true
  | .seqMarkWrite k dir n => fieldFits 8 k && fieldFits 2 dir && fieldFits 2 n
  | .seqMarkWritten k dir n => fieldFits 8 k && fieldFits 2 dir && fieldFits 2 n
  | .vin64Good => true
  | .vin64Undervoltage => true
  | .vin64Overvoltage => true
  | .aux3v3Good => true
  | .aux3v3Loss => true
  | .inputCharged => true
  | .thermTrip => true
  | .calTick => true
  | .oscStop => true
  | .vbatLow => true
  | .throttleSample h _ _ _ => fieldFits 2 h
  | .telemUpdate _ _ _ _ => true
  | .thrCtlWrite o _ => o.fits
  | .calLoad o => o.fits
  | .pmPage _ _ => true
  | .pmClearFaults _ => true
  | .pmCapability _ => true
  | .pmVoutMode _ => true
  | .pmStatusWord _ => true
  | .pmStatusTemperature _ => true
  | .pmReadVin _ => true
  | .pmReadIin _ => true
  | .pmReadVout _ => true
  | .pmReadIout _ => true
  | .pmReadPout _ => true
  | .pmReadPin _ => true
  | .pmReadTemperature1 _ => true
  | .pmReadTemperature2 _ => true
  | .pmReadTemperature3 _ => true
  | .pmRevision _ => true
  | .pmMfrId _ => true
  | .pmMfrModel _ => true
  | .pmMfrPowerCap _ _ => true
  | .pmAlertResponse => true
  | .jtagBypass => true
  | .jtagIdcode => true
  | .jtagSamplePreload w => fieldFits 4 w
  | .jtagExtest => true
  | .jtagExtestPulse => true
  | .jtagDebug => true
  | .jtagTrstN => true
  | .modResetNLow => true
  | .modResetNHigh => true
  | .coldReset o h => o.fits && fieldFits 2 h
  | .warmReset o h => o.fits && fieldFits 2 h
  | .bringupStepDone n _ _ => fieldFits 15 n
  | .bringupStepTimeout n => fieldFits 15 n
  | .leaseRenewal h => fieldFits 2 h
  | .leaseTimeout h => fieldFits 2 h
  | .leaseClaim h => fieldFits 2 h
  | .leaseRelease o h => o.fits && fieldFits 2 h
  | .sidebandDown => true
  | .sidebandUp => true
  | .mbStatus h => fieldFits 2 h
  | .mbName h => fieldFits 2 h
  | .mbFwStage h => fieldFits 2 h
  | .mbFwActivate h _ => fieldFits 2 h
  | .mbFwplace h => fieldFits 2 h
  | .mbCoreSwap h => fieldFits 2 h
  | .mbRing h => fieldFits 2 h
  | .mbEvent h => fieldFits 2 h
  | .fwChunk c p => coreFits c && p.fits
  | .fwLoadReport c => coreFits c
  | .fwReportTimeout c => coreFits c
  | .coreReset o h c => o.fits && fieldFits 2 h && coreFits c
  | .coreDisable o h c => o.fits && fieldFits 2 h && coreFits c
  | .spareEnable o h c => o.fits && fieldFits 2 h && coreFits c
  | .hgSwapDone h _ => fieldFits 2 h
  | .sluiceUpdateDone n => fieldFits 16 n
  | .flashRefresh _ _ => true

end Sys2Proof
end

