-- ==== Sys2Proof/Decode.lean ====
section
/-! DEFINITION. The commands that a word of the table spells.  No row of this part's table gives any bits, since its rows are
operations and events, so no word spells one (log 52). -/

namespace Sys2Proof

/-- The command spelled by a word whose bits are `w`: none, since no row has bits. -/
def decodeTableWord (_nbits _w : Nat) : Option Instr := none

end Sys2Proof
end

