-- ==== Sys2Proof/Machine/RegMap.lean ====
section
/-! DEFINITION. The register map (R10-R14, R41): the blocks, and for every register its offset, its repeats,
the masks of its access types, its stated reset value, the address functions and the field positions.
Written from the register tables of the chapters; each group names the table's rule. -/

namespace Sys2Proof.Machine

/-- A field of a register, high bit and low bit (R8, R12). -/
structure Fld where
  hi : Nat
  lo : Nat
  deriving DecidableEq, Repr

/-- The register blocks of R41. -/
inductive Blk where
  | chip
  | part
  | errlog
  | cal
  | telem
  | fuse
  | hg
  | cleat
  | logline
  | core
  | flume
  | culvert
  | knot
  | sc
  | slice
  | lc
  | weir
  | canal
  | splice
  | ledger
  | gauge
  | chipknot
  | hitch
  | hawser
  | capstan
  | spillway
  | tether
  deriving DecidableEq, Repr

/-- A register of a block: offset, repeats (count, stride) outermost first, and the bits of each access type (R13);
bits in no mask are RO or reserved.  `reset` holds the stated reset values; a field whose reset is fw, fuse, latched or a
pin counts as 0 here (log 3, 4, 5). -/
structure RegRow where
  off : Nat
  dims : List (Nat × Nat)
  rw : Nat
  w1c : Nat
  rc : Nat
  rwl : Nat
  wo : Nat
  reset : Nat
  deriving DecidableEq, Repr

/-- Base, size, number of instances and stride of each block, from 0xF000_0000_0000 (R41). -/
def blkGeom : Blk → Nat × Nat × Nat × Nat
  | .chip => (0x0, 0x10000, 1, 0x0)
  | .part => (0x10000, 0x10000, 1, 0x0)
  | .errlog => (0x20000, 0x10000, 1, 0x0)
  | .cal => (0x30000, 0x10000, 1, 0x0)
  | .telem => (0x40000, 0x10000, 1, 0x0)
  | .fuse => (0x50000, 0x10000, 1, 0x0)
  | .hg => (0x100000, 0x100000, 2, 0x100000)
  | .cleat => (0x300000, 0x100000, 1, 0x0)
  | .logline => (0x400000, 0x10000, 1, 0x0)
  | .core => (0x1000000, 0x4000, 1024, 0x10000)
  | .flume => (0x1004000, 0x4000, 1024, 0x10000)
  | .culvert => (0x1008000, 0x4000, 1024, 0x10000)
  | .knot => (0x100C000, 0x4000, 1024, 0x10000)
  | .sc => (0x8000000, 0x100000, 16, 0x100000)
  | .slice => (0x9000000, 0x1000, 256, 0x1000)
  | .lc => (0xA000000, 0x100000, 16, 0x100000)
  | .weir => (0xB000000, 0x100000, 1, 0x0)
  | .canal => (0xB100000, 0x100000, 1, 0x0)
  | .splice => (0xB200000, 0x100000, 1, 0x0)
  | .ledger => (0xB300000, 0x100000, 1, 0x0)
  | .gauge => (0xB400000, 0x100000, 1, 0x0)
  | .chipknot => (0xC000000, 0x10000, 1, 0x0)
  | .hitch => (0xC100000, 0x100000, 1, 0x0)
  | .hawser => (0xD000000, 0x100000, 8, 0x100000)
  | .capstan => (0xD800000, 0x100000, 1, 0x0)
  | .spillway => (0xD900000, 0x10000, 1, 0x0)
  | .tether => (0xE000000, 0x100000, 1, 0x0)

/-- Every block, in the order of R41. -/
def allBlks : List Blk :=
  [.chip, .part, .errlog, .cal, .telem, .fuse, .hg, .cleat, .logline, .core, .flume, .culvert, .knot, .sc, .slice, .lc, .weir, .canal, .splice, .ledger, .gauge, .chipknot, .hitch, .hawser, .capstan, .spillway, .tether]

/-- Registers of the CHIP block (R40): CHIP_INFO, CYC_CANAL_W, CYC_CANAL_E, CYC_WEIR_W, CYC_WEIR_E, CYC_HG_W, CYC_HG_E, BG_MEM_PEAK, BG_CANAL_PEAK, BG_DEFER, TAG_STATUS. -/
def rowsChip : List RegRow :=
  [⟨0x0, [], 0x0, 0x0, 0x0, 0x0, 0x0, 0x0⟩,
   ⟨0x10, [], 0x0, 0x0, 0x0, 0x0, 0x0, 0x0⟩,
   ⟨0x18, [], 0x0, 0x0, 0x0, 0x0, 0x0, 0x0⟩,
   ⟨0x20, [], 0x0, 0x0, 0x0, 0x0, 0x0, 0x0⟩,
   ⟨0x28, [], 0x0, 0x0, 0x0, 0x0, 0x0, 0x0⟩,
   ⟨0x30, [], 0x0, 0x0, 0x0, 0x0, 0x0, 0x0⟩,
   ⟨0x38, [], 0x0, 0x0, 0x0, 0x0, 0x0, 0x0⟩,
   ⟨0x40, [], 0x0, 0x0, 0x0, 0x0, 0x0, 0x0⟩,
   ⟨0x48, [], 0x0, 0x0, 0x0, 0x0, 0x0, 0x0⟩,
   ⟨0x50, [], 0x0, 0x0, 0xFFFFFFFFFFFFFFFF, 0x0, 0x0, 0x0⟩,
   ⟨0x58, [], 0x0, 0x0, 0xFFFFFFFF, 0x0, 0x0, 0x0⟩]

/-- Registers of the PART block (R365): PT_RANGE, PT_CTL, PT_STAT. -/
def rowsPart : List RegRow :=
  [⟨0x0, [(8, 0x8)], 0x7FF, 0x0, 0x0, 0x0, 0x0, 0x0⟩,
   ⟨0x40, [(8, 0x8)], 0x0, 0x0, 0x0, 0x0, 0x1, 0x0⟩,
   ⟨0x80, [(8, 0x8)], 0x0, 0x0, 0xFFFFFFFFFFFFFFF0, 0x0, 0x0, 0x0⟩]

/-- Registers of the ERRLOG block (R468): EL_CTL, EL_STAT, EL_CE, EL_UE, EL_REPAIR, EL_BIST, EL_TBT, CM_LAP, CM_FLIP, EL_ENTRY0, EL_ENTRY1, EL_ENTRY2, EL_ENTRY3. -/
def rowsErrlog : List RegRow :=
  [⟨0x0, [], 0xFFF0FFFF0001, 0x0, 0x0, 0x0, 0x0, 0x40000⟩,
   ⟨0x8, [], 0x0, 0xC000, 0xFFFF000000000000, 0x0, 0x0, 0x0⟩,
   ⟨0x10, [], 0x0, 0x0, 0xFFFFFFFFFFFFFFFF, 0x0, 0x0, 0x0⟩,
   ⟨0x18, [], 0x0, 0x0, 0xFFFFFFFFFFFFFFFF, 0x0, 0x0, 0x0⟩,
   ⟨0x20, [], 0x0, 0x0, 0x0, 0xFFFF000F, 0x0, 0x3⟩,
   ⟨0x28, [], 0x0, 0x0, 0x0, 0x0, 0x0, 0x0⟩,
   ⟨0x30, [], 0x0, 0x0, 0xFFFFFFFFFFFFFFFF, 0x0, 0x0, 0x0⟩,
   ⟨0x3000, [(1024, 0x8)], 0x0, 0x0, 0x0, 0x0, 0x0, 0x0⟩,
   ⟨0x5000, [(1024, 0x8)], 0x80001F7FFFFFFFFF, 0x0, 0x0, 0x0, 0x0, 0x0⟩,
   ⟨0x1000, [(256, 0x20)], 0x0, 0x8000000000000000, 0x0, 0x0, 0x0, 0x0⟩,
   ⟨0x1008, [(256, 0x20)], 0x0, 0x0, 0x0, 0x0, 0x0, 0x0⟩,
   ⟨0x1010, [(256, 0x20)], 0x0, 0x0, 0x0, 0x0, 0x0, 0x0⟩,
   ⟨0x1018, [(256, 0x20)], 0x0, 0x0, 0x0, 0x0, 0x0, 0x0⟩]

/-- Registers of the CAL block (R520): CAL_TIME, CAL_SET, CAL_CTL. -/
def rowsCal : List RegRow :=
  [⟨0x0, [], 0x0, 0x0, 0x0, 0x0, 0x0, 0x0⟩,
   ⟨0x8, [], 0x7FFFFFFFFFFFFF, 0x0, 0x0, 0x0, 0x0, 0x0⟩,
   ⟨0x10, [], 0xFF00, 0x2, 0x0, 0x0, 0x8, 0x0⟩]

/-- Registers of the TELEM block (R523): PWR_STATE, THR_CTL, THR_STAT, THR_CYC, TEMP, PWR_HIST, RAIL_VI, RAIL_P. -/
def rowsTelem : List RegRow :=
  [⟨0x0, [], 0x0, 0x0, 0x0, 0x0, 0x0, 0x2⟩,
   ⟨0x8, [], 0xFFFFF0000000, 0x0, 0x0, 0x0, 0x0, 0x4B080000000⟩,
   ⟨0x10, [], 0x0, 0x0, 0x0, 0x0, 0x0, 0x0⟩,
   ⟨0x18, [], 0x0, 0x0, 0xFFFFFFFFFFFFFFFF, 0x0, 0x0, 0x0⟩,
   ⟨0x20, [], 0x0, 0x0, 0x0, 0x0, 0x0, 0x0⟩,
   ⟨0x28, [], 0x0, 0x0, 0x0, 0x0, 0x0, 0x0⟩,
   ⟨0x100, [(9, 0x10)], 0x0, 0x0, 0x0, 0x0, 0x0, 0x0⟩,
   ⟨0x108, [(9, 0x10)], 0x0, 0x0, 0xFFFFFFFF00000000, 0x0, 0x0, 0x0⟩]

/-- Registers of the FUSE block (R488): FU_LC, FU_ROOT, FU_SVN, FU_ROOTHASH, FU_OWNER, FU_COREMAP, FU_LICENCE. -/
def rowsFuse : List RegRow :=
  [⟨0x0, [], 0x0, 0x0, 0x0, 0x0, 0x0, 0x0⟩,
   ⟨0x8, [], 0x0, 0x0, 0x0, 0x0, 0x0, 0x0⟩,
   ⟨0x10, [], 0x0, 0x0, 0x0, 0x0, 0x0, 0x0⟩,
   ⟨0x20, [(4, 0x20), (4, 0x8)], 0x0, 0x0, 0x0, 0x0, 0x0, 0x0⟩,
   ⟨0xA0, [(4, 0x8)], 0x0, 0x0, 0x0, 0x0, 0x0, 0x0⟩,
   ⟨0x100, [(11, 0x8)], 0x0, 0x0, 0x0, 0x0, 0x0, 0x0⟩,
   ⟨0x200, [], 0x0, 0x0, 0x0, 0x0, 0x0, 0x0⟩]

/-- Registers of the HG block (R509): HG_STAT, HG_LEASE, HG_LEASE_CFG, HG_EVENT, HG_HALT, HG_CORERST, HG_RESET, HG_FW, HG_RECAL, HG_DEGR, HG_FWREP, HG_FLASH, HG_BOOTCYC, HG_FWCORE. -/
def rowsHg : List RegRow :=
  [⟨0x0, [], 0x0, 0x0, 0x0, 0x0, 0x0, 0x0⟩,
   ⟨0x8, [], 0x0, 0x0, 0x0, 0x0, 0x1, 0x0⟩,
   ⟨0x10, [], 0x0, 0x0, 0x0, 0xFFFFFFFFFFFFFFFF, 0x0, 0x0⟩,
   ⟨0x18, [], 0x0, 0xFF, 0x0, 0x0, 0x0, 0x0⟩,
   ⟨0x20, [], 0x0, 0x0, 0xFFFFFFFF00000000, 0x0, 0x0, 0x0⟩,
   ⟨0x28, [], 0x0, 0x0, 0x0, 0x0, 0xFFF, 0x0⟩,
   ⟨0x30, [], 0x0, 0x0, 0x0, 0x0, 0x3, 0x0⟩,
   ⟨0x38, [], 0x100000000000000, 0x0, 0x0, 0x0, 0x0, 0x0⟩,
   ⟨0x40, [], 0xFFFFFFFFFFFFFFFF, 0x0, 0x0, 0x0, 0x0, 0x400000001000000⟩,
   ⟨0x48, [], 0x0, 0x0, 0x0, 0x0, 0x0, 0x0⟩,
   ⟨0x50, [], 0x0, 0x0, 0x0, 0x0, 0x0, 0x0⟩,
   ⟨0x58, [], 0x0, 0x0, 0x0, 0x0, 0x0, 0x0⟩,
   ⟨0x60, [], 0x0, 0x0, 0x0, 0x0, 0x0, 0x0⟩,
   ⟨0x10000, [(512, 0x8)], 0x80FF000000000000, 0x0, 0x0, 0x0, 0x0, 0x0⟩]

/-- Registers of the CLEAT block (R488): CK_CMD, CK_ADDR, CK_STAT, CK_TAMPER, CK_DEBUG, CK_KEYS, CK_LIC, DEV_ID, DBG_CHAL, MEAS, CK_STAGING. -/
def rowsCleat : List RegRow :=
  [⟨0x0, [], 0x0, 0x0, 0x0, 0x0, 0xFFFF, 0x0⟩,
   ⟨0x8, [], 0xFFFFFFFFFFFF, 0x0, 0x0, 0x0, 0x0, 0x0⟩,
   ⟨0x10, [], 0x0, 0x0, 0x0, 0x0, 0x0, 0x0⟩,
   ⟨0x18, [], 0x0, 0x0, 0x0, 0x0, 0x0, 0x0⟩,
   ⟨0x20, [], 0x0, 0x0, 0x0, 0x0, 0x0, 0x0⟩,
   ⟨0x28, [], 0x0, 0x0, 0x0, 0x0, 0x0, 0x0⟩,
   ⟨0x30, [], 0x0, 0x0, 0x0, 0x0, 0x0, 0x0⟩,
   ⟨0x40, [(4, 0x8)], 0x0, 0x0, 0x0, 0x0, 0x0, 0x0⟩,
   ⟨0x60, [(4, 0x8)], 0x0, 0x0, 0x0, 0x0, 0x0, 0x0⟩,
   ⟨0x100, [(8, 0x20), (4, 0x8)], 0x0, 0x0, 0x0, 0x0, 0x0, 0x0⟩,
   ⟨0x10000, [(8192, 0x8)], 0xFFFFFFFFFFFFFFFF, 0x0, 0x0, 0x0, 0x0, 0x0⟩]

/-- Registers of the LOGLINE block (R442): LOG_RING, LOG_MIRROR, LOG_COMMIT, LOG_LAST, LOG_STAT, LOG_MIRF, LOG_MIRC, SN_CTL, SN_SKIPLO, SN_SKIPHI, SN_TBL, SN_CMD, SN_ARG, SN_STAT, SN_OLDSTEP, SN_NEWSTEP, SN_COUNT, SN_STALL, SN_NOFRAME. -/
def rowsLogline : List RegRow :=
  [⟨0x0, [(8, 0x100)], 0xFFFFFFE0001F, 0x0, 0x0, 0x0, 0x0, 0x0⟩,
   ⟨0x8, [(8, 0x100)], 0x3FFFFFE00003, 0x0, 0x0, 0x0, 0x0, 0x0⟩,
   ⟨0x10, [(8, 0x100)], 0x0, 0x0, 0x0, 0x0, 0xFFFFFFFFFFFFFFFF, 0x0⟩,
   ⟨0x18, [(8, 0x100)], 0x0, 0x0, 0x0, 0x0, 0x0, 0x0⟩,
   ⟨0x20, [(8, 0x100)], 0x0, 0x0, 0xFFFFFFFF00000000, 0x0, 0x0, 0x0⟩,
   ⟨0x28, [(8, 0x100)], 0x0, 0x0, 0x0, 0x0, 0x0, 0x0⟩,
   ⟨0x30, [(8, 0x100)], 0x0, 0x0, 0x0, 0x0, 0x0, 0x0⟩,
   ⟨0x38, [(8, 0x100)], 0x7FFFF, 0x0, 0x0, 0x0, 0x0, 0x0⟩,
   ⟨0x40, [(8, 0x100)], 0xFFFFFFE00001, 0x0, 0x0, 0x0, 0x0, 0x0⟩,
   ⟨0x48, [(8, 0x100)], 0xFFFFFFE00000, 0x0, 0x0, 0x0, 0x0, 0x0⟩,
   ⟨0x50, [(8, 0x100), (2, 0x8)], 0xFFFFFFE00000, 0x0, 0x0, 0x0, 0x0, 0x0⟩,
   ⟨0x60, [(8, 0x100)], 0x0, 0x0, 0x0, 0x0, 0xF, 0x0⟩,
   ⟨0x68, [(8, 0x100)], 0xFFFFFFFFFFFFFFFF, 0x0, 0x0, 0x0, 0x0, 0x0⟩,
   ⟨0x70, [(8, 0x100)], 0x0, 0x0, 0x0, 0x0, 0x0, 0x0⟩,
   ⟨0x78, [(8, 0x100)], 0x0, 0x0, 0x0, 0x0, 0x0, 0x0⟩,
   ⟨0x80, [(8, 0x100)], 0x0, 0x0, 0x0, 0x0, 0x0, 0x0⟩,
   ⟨0x88, [(8, 0x100)], 0x0, 0x0, 0x0, 0x0, 0x0, 0x0⟩,
   ⟨0x90, [(8, 0x100)], 0x0, 0x0, 0xFFFFFFFFFFFFFFFF, 0x0, 0x0, 0x0⟩,
   ⟨0x98, [(8, 0x100)], 0x0, 0x0, 0xFFFFFFFFFFFFFFFF, 0x0, 0x0, 0x0⟩]

/-- Registers of the CORE block (R82, R92, R140, R194): CORE_ID, CYCLE, CYCLE_CMP, CORE_MODE, CTX_STATE, ENG_OWNER, MSTATUS, MTVEC, EPC, EVAL, ESCRATCH, ECAUSE, IPEND, IENABLE, ISOFT, CTX_SAVE, ENG_ERR, INSTRET, DUAL, STALL_WINDOW, SWITCHES, CORE_CTL, BOOT_VEC, TCFG, TSTART, TILE_STAT, TILE_ROWS_IN, TILE_ROWS_OUT, TILE_BAR_CYC, MCFG, ACC_STAT, ARR_ACTIVE, FEED_DRY_A, FEED_DRY_B, ACC_WAIT, ARR_FILL, MMA_DONE, DRAIN_DONE, VCTL, VNF, FACT_STATUS, FTAB_STAT, VEC_DONE, VEC_STALL. -/
def rowsCore : List RegRow :=
  [⟨0x0, [], 0x0, 0x0, 0x0, 0x0, 0x0, 0x0⟩,
   ⟨0x8, [], 0x0, 0x0, 0x0, 0x0, 0x0, 0x0⟩,
   ⟨0x10, [], 0xFFFFFFFFFFFFFFFF, 0x0, 0x0, 0x0, 0x0, 0x0⟩,
   ⟨0x18, [], 0xFFFF03C3, 0x0, 0x0, 0x0, 0x0, 0x4000001⟩,
   ⟨0x20, [], 0xFFFF, 0x0, 0x0, 0x0, 0x0, 0x0⟩,
   ⟨0x28, [], 0x0, 0x0, 0x0, 0x0, 0x0, 0x0⟩,
   ⟨0x30, [], 0x1E, 0x0, 0x0, 0x0, 0x0, 0x1⟩,
   ⟨0x38, [], 0xFFFFFFFFFFFC, 0x0, 0x0, 0x0, 0x0, 0x0⟩,
   ⟨0x40, [], 0xFFFFFFFFFFFFFFFF, 0x0, 0x0, 0x0, 0x0, 0x0⟩,
   ⟨0x50, [], 0xFFFFFFFFFFFFFFFF, 0x0, 0x0, 0x0, 0x0, 0x0⟩,
   ⟨0x58, [], 0xFFFFFFFFFFFFFFFF, 0x0, 0x0, 0x0, 0x0, 0x0⟩,
   ⟨0x48, [], 0x80000000000000FF, 0x0, 0x0, 0x0, 0x0, 0x0⟩,
   ⟨0x60, [], 0x0, 0xFF, 0x0, 0x0, 0x0, 0x0⟩,
   ⟨0x68, [], 0xFF, 0x0, 0x0, 0x0, 0x0, 0x0⟩,
   ⟨0x70, [], 0x0, 0x0, 0x0, 0x0, 0x1, 0x0⟩,
   ⟨0x78, [(4, 0x8)], 0xFFFFFFFFF000, 0x0, 0x0, 0x0, 0x0, 0x0⟩,
   ⟨0x98, [], 0x0, 0x100, 0x0, 0x0, 0x0, 0x0⟩,
   ⟨0xA0, [], 0x0, 0x0, 0xFFFFFFFFFFFFFFFF, 0x0, 0x0, 0x0⟩,
   ⟨0xA8, [], 0x0, 0x0, 0xFFFFFFFFFFFFFFFF, 0x0, 0x0, 0x0⟩,
   ⟨0xB0, [], 0x0, 0x0, 0xFFFFFFFFFFFFFFFF, 0x0, 0x0, 0x0⟩,
   ⟨0xB8, [], 0x0, 0x0, 0xFFFFFFFFFFFFFFFF, 0x0, 0x0, 0x0⟩,
   ⟨0xC0, [], 0x1, 0x0, 0x0, 0x0, 0x0, 0x0⟩,
   ⟨0xC8, [], 0xFFFFFFFFFFFC, 0x0, 0x0, 0x0, 0x0, 0x0⟩,
   ⟨0x100, [(8, 0x8)], 0xFFFFF0000F3F, 0x0, 0x0, 0x0, 0x0, 0x0⟩,
   ⟨0x140, [], 0x3F, 0x0, 0x0, 0x0, 0x0, 0x0⟩,
   ⟨0x148, [], 0x0, 0x0, 0x0, 0x0, 0x0, 0xFF⟩,
   ⟨0x150, [], 0x0, 0x0, 0xFFFFFFFFFFFFFFFF, 0x0, 0x0, 0x0⟩,
   ⟨0x158, [], 0x0, 0x0, 0xFFFFFFFFFFFFFFFF, 0x0, 0x0, 0x0⟩,
   ⟨0x160, [], 0x0, 0x0, 0xFFFFFFFFFFFFFFFF, 0x0, 0x0, 0x0⟩,
   ⟨0x200, [], 0x3, 0x0, 0x0, 0x0, 0x0, 0x0⟩,
   ⟨0x208, [], 0x0, 0x0, 0x0, 0x0, 0x0, 0x0⟩,
   ⟨0x210, [], 0x0, 0x0, 0xFFFFFFFFFFFFFFFF, 0x0, 0x0, 0x0⟩,
   ⟨0x218, [], 0x0, 0x0, 0xFFFFFFFFFFFFFFFF, 0x0, 0x0, 0x0⟩,
   ⟨0x220, [], 0x0, 0x0, 0xFFFFFFFFFFFFFFFF, 0x0, 0x0, 0x0⟩,
   ⟨0x228, [], 0x0, 0x0, 0xFFFFFFFFFFFFFFFF, 0x0, 0x0, 0x0⟩,
   ⟨0x230, [], 0x0, 0x0, 0xFFFFFFFFFFFFFFFF, 0x0, 0x0, 0x0⟩,
   ⟨0x238, [], 0x0, 0x0, 0xFFFFFFFFFFFFFFFF, 0x0, 0x0, 0x0⟩,
   ⟨0x240, [], 0x0, 0x0, 0xFFFFFFFFFFFFFFFF, 0x0, 0x0, 0x0⟩,
   ⟨0x300, [], 0xFFFFFF000000, 0x0, 0x0, 0x0, 0x0, 0xF7000000⟩,
   ⟨0x308, [], 0x0, 0x0, 0x0, 0x0, 0x0, 0x0⟩,
   ⟨0x310, [], 0x0, 0x0, 0x0, 0x0, 0x0, 0x0⟩,
   ⟨0x318, [], 0x0, 0x0, 0x0, 0x0, 0x0, 0x7F⟩,
   ⟨0x320, [], 0x0, 0x0, 0xFFFFFFFFFFFFFFFF, 0x0, 0x0, 0x0⟩,
   ⟨0x328, [], 0x0, 0x0, 0xFFFFFFFFFFFFFFFF, 0x0, 0x0, 0x0⟩]

/-- Registers of the FLUME block (R291): FL_LIST, FL_CFG, FL_BUF, FL_DL, FL_REC, FL_STAT, FL_MISS, FL_ARM, FL_CTL, FL_MERGE, FL_REQ. -/
def rowsFlume : List RegRow :=
  [⟨0x0, [(64, 0x40)], 0xFFFFFFFFFFF0, 0x0, 0x0, 0x0, 0x0, 0x0⟩,
   ⟨0x8, [(64, 0x40)], 0xFFFFFFF8FFFFFFFF, 0x0, 0x0, 0x0, 0x0, 0xF00800000000⟩,
   ⟨0x10, [(64, 0x40)], 0xFFFFFFFFFFFFFFFF, 0x0, 0x0, 0x0, 0x0, 0x0⟩,
   ⟨0x18, [(64, 0x40)], 0xFFFFFFFFFFFFFFFF, 0x0, 0x0, 0x0, 0x0, 0x0⟩,
   ⟨0x20, [(64, 0x40)], 0xF000FFFFFFFFFFE1, 0x0, 0x0, 0x0, 0x0, 0x0⟩,
   ⟨0x28, [(64, 0x40)], 0x0, 0x0, 0x0, 0x0, 0x0, 0x0⟩,
   ⟨0x30, [(64, 0x40)], 0x0, 0x0, 0xFFFFFFFF, 0x0, 0x0, 0x0⟩,
   ⟨0x38, [(64, 0x40)], 0x0, 0x0, 0x0, 0x0, 0x0, 0x0⟩,
   ⟨0x1000, [], 0x0, 0x0, 0x0, 0x0, 0x0, 0x0⟩,
   ⟨0x1008, [], 0x0, 0x0, 0xFFFFFFFFFFFFFFFF, 0x0, 0x0, 0x0⟩,
   ⟨0x1010, [], 0x0, 0x0, 0xFFFFFFFFFFFFFFFF, 0x0, 0x0, 0x0⟩]

/-- Registers of the CULVERT block (R308): CV_HEAD, CV_COUNT, CV_STAT, CV_ERRADDR, CV_CTL, CV_DONE, CV_BYTES, CV_IRQ, CV_BSTAT, CV_BDROP. -/
def rowsCulvert : List RegRow :=
  [⟨0x0, [(8, 0x40)], 0xFFFFFFFFFFC0, 0x0, 0x0, 0x0, 0x0, 0x0⟩,
   ⟨0x8, [(8, 0x40)], 0xFFFF, 0x0, 0x0, 0x0, 0x0, 0x0⟩,
   ⟨0x10, [(8, 0x40)], 0x0, 0x0, 0x0, 0x0, 0x0, 0x0⟩,
   ⟨0x18, [(8, 0x40)], 0x0, 0x0, 0x0, 0x0, 0x0, 0x0⟩,
   ⟨0x20, [(8, 0x40)], 0x1, 0x0, 0x0, 0x0, 0x0, 0x0⟩,
   ⟨0x28, [(8, 0x40)], 0x0, 0x0, 0xFFFFFFFFFFFFFFFF, 0x0, 0x0, 0x0⟩,
   ⟨0x30, [(8, 0x40)], 0x0, 0x0, 0xFFFFFFFFFFFFFFFF, 0x0, 0x0, 0x0⟩,
   ⟨0x200, [], 0x0, 0xFFFF, 0x0, 0x0, 0x0, 0x0⟩,
   ⟨0x208, [], 0xFFFFFFFFFFF1, 0x0, 0x0, 0x0, 0x0, 0x0⟩,
   ⟨0x210, [], 0x0, 0x0, 0xFFFFFFFFFFFFFFFF, 0x0, 0x0, 0x0⟩]

/-- Registers of the KNOT block (R336): KN, KH_FAULT, KN_ERR, KN_IRQ. -/
def rowsKnot : List RegRow :=
  [⟨0x0, [(64, 0x8)], 0xFFFFFFFFFFFFFFFF, 0x0, 0x0, 0x0, 0x0, 0x0⟩,
   ⟨0x200, [], 0x0, 0x0, 0x0, 0x0, 0x0, 0x0⟩,
   ⟨0x208, [], 0x0, 0x0, 0xFFFF000000000000, 0x0, 0x0, 0x0⟩,
   ⟨0x210, [], 0x0, 0x0, 0xFFFFFFFF00000000, 0x0, 0x0, 0x0⟩]

/-- Registers of the SC block (R225, R443, R468): SLU_DOORBELL, SLU_BCAST, SLU_STAT, SLU_ERR, SLU_CTL, SLU_BLOCKS, SLU_SKIP_STEPS, SLU_FROZEN, SLU_LOG_WAIT, SLU_REMOTE, SLU_BUSY, SLU_TOUCH_OOR, SC_SNAP_SHARES, SC_SNAP_CYC, SC_DRG_CTL, SC_DRG_POS, SC_DRG_LAP, SC_DRG_CNT, SC_FLIP, SC_BRET. -/
def rowsSc : List RegRow :=
  [⟨0x40000, [], 0x0, 0x0, 0x0, 0x0, 0xFFFFFFFFFF07, 0x0⟩,
   ⟨0x40008, [], 0x0, 0x0, 0x0, 0x0, 0xFFFFFFFFFF07, 0x0⟩,
   ⟨0x40010, [], 0x0, 0x0, 0x0, 0x0, 0x0, 0x0⟩,
   ⟨0x40018, [], 0x0, 0x100, 0x0, 0x0, 0x0, 0x0⟩,
   ⟨0x40020, [], 0x1, 0x0, 0x0, 0x0, 0x2, 0x0⟩,
   ⟨0x40028, [], 0x0, 0x0, 0xFFFFFFFFFFFFFFFF, 0x0, 0x0, 0x0⟩,
   ⟨0x40030, [], 0x0, 0x0, 0xFFFFFFFFFFFFFFFF, 0x0, 0x0, 0x0⟩,
   ⟨0x40038, [], 0x0, 0x0, 0xFFFFFFFFFFFFFFFF, 0x0, 0x0, 0x0⟩,
   ⟨0x40040, [], 0x0, 0x0, 0xFFFFFFFFFFFFFFFF, 0x0, 0x0, 0x0⟩,
   ⟨0x40048, [], 0x0, 0x0, 0xFFFFFFFFFFFFFFFF, 0x0, 0x0, 0x0⟩,
   ⟨0x40050, [], 0x0, 0x0, 0xFFFFFFFFFFFFFFFF, 0x0, 0x0, 0x0⟩,
   ⟨0x40058, [], 0x0, 0x0, 0xFFFFFFFFFFFFFFFF, 0x0, 0x0, 0x0⟩,
   ⟨0x50000, [], 0x0, 0x0, 0xFFFFFFFFFFFFFFFF, 0x0, 0x0, 0x0⟩,
   ⟨0x50008, [], 0x0, 0x0, 0xFFFFFFFFFFFFFFFF, 0x0, 0x0, 0x0⟩,
   ⟨0x60000, [], 0x1, 0x0, 0x0, 0x0, 0x0, 0x0⟩,
   ⟨0x60008, [], 0x0, 0x0, 0x0, 0x0, 0x0, 0x0⟩,
   ⟨0x60010, [], 0x0, 0x0, 0x0, 0x0, 0x0, 0x0⟩,
   ⟨0x60018, [], 0x0, 0x0, 0xFFFFFFFFFFFFFFFF, 0x0, 0x0, 0x0⟩,
   ⟨0x60020, [], 0x80001F7FFFFFFFFF, 0x0, 0x0, 0x0, 0x0, 0x0⟩,
   ⟨0x60040, [(4, 0x8)], 0x80000000000007FF, 0x0, 0x0, 0x0, 0x0, 0x0⟩]

/-- Registers of the SLICE block (R267): SL_CTL, SL_OCC, SL_HIT, SL_MISS, SL_EVICT, SL_CAPWAIT, SL_BUF_PEAK, SL_PF. -/
def rowsSlice : List RegRow :=
  [⟨0x0, [], 0x21F, 0x0, 0x0, 0x0, 0x0, 0xC⟩,
   ⟨0x8, [], 0x0, 0x0, 0x0, 0x0, 0x0, 0x0⟩,
   ⟨0x10, [], 0x0, 0x0, 0xFFFFFFFFFFFFFFFF, 0x0, 0x0, 0x0⟩,
   ⟨0x18, [], 0x0, 0x0, 0xFFFFFFFFFFFFFFFF, 0x0, 0x0, 0x0⟩,
   ⟨0x20, [], 0x0, 0x0, 0xFFFFFFFFFFFFFFFF, 0x0, 0x0, 0x0⟩,
   ⟨0x28, [], 0x0, 0x0, 0xFFFFFFFFFFFFFFFF, 0x0, 0x0, 0x0⟩,
   ⟨0x30, [], 0x0, 0x0, 0xFFFFFFFFFFFFFFFF, 0x0, 0x0, 0x0⟩,
   ⟨0x38, [], 0x0, 0x0, 0xFFFFFFFFFFFFFFFF, 0x0, 0x0, 0x0⟩]

/-- Registers of the LC block (R268, R468): LC_INFO, LC_OCC, LC_RD, LC_WR, LC_CAPWAIT, LC_MIG, LC_DRG_CTL, LC_DRG_POS, LC_DRG_LAP, LC_DRG_CNT, LC_FLIP. -/
def rowsLc : List RegRow :=
  [⟨0x0, [], 0x0, 0x0, 0x0, 0x0, 0x0, 0x0⟩,
   ⟨0x8, [], 0x0, 0x0, 0x0, 0x0, 0x0, 0x0⟩,
   ⟨0x10, [], 0x0, 0x0, 0xFFFFFFFFFFFFFFFF, 0x0, 0x0, 0x0⟩,
   ⟨0x18, [], 0x0, 0x0, 0xFFFFFFFFFFFFFFFF, 0x0, 0x0, 0x0⟩,
   ⟨0x20, [], 0x0, 0x0, 0xFFFFFFFFFFFFFFFF, 0x0, 0x0, 0x0⟩,
   ⟨0x28, [], 0x0, 0x0, 0xFFFFFFFFFFFFFFFF, 0x0, 0x0, 0x0⟩,
   ⟨0x10000, [], 0x1, 0x0, 0x0, 0x0, 0x0, 0x0⟩,
   ⟨0x10008, [], 0x0, 0x0, 0x0, 0x0, 0x0, 0x0⟩,
   ⟨0x10010, [], 0x0, 0x0, 0x0, 0x0, 0x0, 0x0⟩,
   ⟨0x10018, [], 0x0, 0x0, 0xFFFFFFFFFFFFFFFF, 0x0, 0x0, 0x0⟩,
   ⟨0x10020, [], 0x80001F7FFFFFFFFF, 0x0, 0x0, 0x0, 0x0, 0x0⟩]

/-- Registers of the WEIR block (R365): HL_RANGE, WEIR_CTL, WR_XBYTES_WE, WR_XBYTES_EW, WR_XSTALL. -/
def rowsWeir : List RegRow :=
  [⟨0x0, [], 0x0, 0x0, 0x0, 0x8000000FFFFFFFFF, 0x0, 0x0⟩,
   ⟨0x8, [], 0x0, 0x0, 0x0, 0x1, 0x0, 0x0⟩,
   ⟨0x10, [], 0x0, 0x0, 0xFFFFFFFFFFFFFFFF, 0x0, 0x0, 0x0⟩,
   ⟨0x18, [], 0x0, 0x0, 0xFFFFFFFFFFFFFFFF, 0x0, 0x0, 0x0⟩,
   ⟨0x20, [], 0x0, 0x0, 0xFFFFFFFFFFFFFFFF, 0x0, 0x0, 0x0⟩]

/-- Registers of the CANAL block (R365): CN_CTL, CN_NACK, CN_DETOUR, CN_BCAST, RT_CFG, RT_BUSY. -/
def rowsCanal : List RegRow :=
  [⟨0x0, [], 0x0, 0x0, 0x0, 0x1, 0x0, 0x0⟩,
   ⟨0x8, [], 0x0, 0x0, 0xFFFFFFFFFFFFFFFF, 0x0, 0x0, 0x0⟩,
   ⟨0x10, [], 0x0, 0x0, 0xFFFFFFFFFFFFFFFF, 0x0, 0x0, 0x0⟩,
   ⟨0x18, [], 0x0, 0x0, 0xFFFFFFFFFFFFFFFF, 0x0, 0x0, 0x0⟩,
   ⟨0x1000, [(704, 0x8)], 0x0, 0x0, 0x0, 0xFF, 0x0, 0x0⟩,
   ⟨0x3000, [(704, 0x8)], 0x0, 0x0, 0x0, 0x0, 0x0, 0x0⟩]

/-- Registers of the SPLICE block (R365): SP_STAT, SP_CANAL_STALL, SP_ERR. -/
def rowsSplice : List RegRow :=
  [⟨0x0, [], 0x0, 0x0, 0x0, 0x0, 0x0, 0x0⟩,
   ⟨0x8, [], 0x0, 0x0, 0xFFFFFFFFFFFFFFFF, 0x0, 0x0, 0x0⟩,
   ⟨0x10, [], 0x0, 0x0, 0xFFFFFFFFFFFFFFFF, 0x0, 0x0, 0x0⟩]

/-- Registers of the LEDGER block (R266): LG_BASE, LG_CTL, CMEM_CFG, CW_VBASE, CW_PBASE, CW_SIZE, PF_CTL, LG_WALKS, LG_XFAULT, LG_SPILL, PF_DROP, LE_FRAME, LE_VPN, LE_ARG, LE_CMD, LE_STAT, LE_DATA0, LE_DATA1. -/
def rowsLedger : List RegRow :=
  [⟨0x0, [], 0x0, 0x0, 0x0, 0xFFFFFF000000, 0x0, 0x0⟩,
   ⟨0x8, [], 0x0, 0x0, 0x0, 0x1, 0x0, 0x0⟩,
   ⟨0x100, [(8, 0x40)], 0xFFFFFFF00007, 0x0, 0x0, 0x0, 0x0, 0x0⟩,
   ⟨0x108, [(8, 0x40)], 0xFFFFFFE00003, 0x0, 0x0, 0x0, 0x0, 0x0⟩,
   ⟨0x110, [(8, 0x40)], 0x3FFFFFE00000, 0x0, 0x0, 0x0, 0x0, 0x0⟩,
   ⟨0x118, [(8, 0x40)], 0x3FFFFFE00000, 0x0, 0x0, 0x0, 0x0, 0x0⟩,
   ⟨0x120, [(8, 0x40)], 0xF1, 0x0, 0x0, 0x0, 0x0, 0x40⟩,
   ⟨0x300, [(8, 0x20)], 0x0, 0x0, 0xFFFFFFFFFFFFFFFF, 0x0, 0x0, 0x0⟩,
   ⟨0x308, [(8, 0x20)], 0x0, 0x0, 0xFFFFFFFFFFFFFFFF, 0x0, 0x0, 0x0⟩,
   ⟨0x310, [(8, 0x20)], 0x0, 0x0, 0xFFFFFFFFFFFFFFFF, 0x0, 0x0, 0x0⟩,
   ⟨0x318, [(8, 0x20)], 0x0, 0x0, 0xFFFFFFFFFFFFFFFF, 0x0, 0x0, 0x0⟩,
   ⟨0x1000, [(9, 0x100)], 0xFFFFFFFFFF, 0x0, 0x0, 0x0, 0x0, 0x0⟩,
   ⟨0x1008, [(9, 0x100)], 0xFFFFFFE00000, 0x0, 0x0, 0x0, 0x0, 0x0⟩,
   ⟨0x1010, [(9, 0x100)], 0xF073F, 0x0, 0x0, 0x0, 0x0, 0x0⟩,
   ⟨0x1018, [(9, 0x100)], 0x0, 0x0, 0x0, 0x0, 0xF, 0x0⟩,
   ⟨0x1020, [(9, 0x100)], 0x0, 0x2, 0x0, 0x0, 0x0, 0x0⟩,
   ⟨0x1028, [(9, 0x100)], 0x0, 0x0, 0x0, 0x0, 0x0, 0x0⟩,
   ⟨0x1030, [(9, 0x100)], 0x0, 0x0, 0x0, 0x0, 0x0, 0x0⟩]

/-- Registers of the GAUGE block (R165, R166): GAUGE_BASE, GAUGE_CTL, GRANGE, GROLL_STAT, GAUGE_ERR, GE_INDEX, GE_CMD, GE_STAT, SR_SEED, GE_DATA. -/
def rowsGauge : List RegRow :=
  [⟨0x0, [], 0x0, 0x0, 0x0, 0xFFFFFF800000, 0x0, 0x0⟩,
   ⟨0x8, [], 0x0, 0x0, 0x0, 0x1, 0x0, 0x0⟩,
   ⟨0x10, [(8, 0x8)], 0x0, 0x0, 0x0, 0x1FFFFFFFF, 0x0, 0x0⟩,
   ⟨0x50, [], 0x0, 0x0, 0xFFFFFFFFFFFFFFFF, 0x0, 0x0, 0x0⟩,
   ⟨0x58, [], 0x0, 0x0, 0xFFFFFFFF, 0x0, 0x0, 0x0⟩,
   ⟨0x1000, [(8, 0x100)], 0xFFFF, 0x0, 0x0, 0x0, 0x0, 0x0⟩,
   ⟨0x1008, [(8, 0x100)], 0x0, 0x0, 0x0, 0x0, 0xFFFF0003, 0x0⟩,
   ⟨0x1010, [(8, 0x100)], 0x0, 0x2, 0x0, 0x0, 0x0, 0x0⟩,
   ⟨0x1018, [(8, 0x100)], 0x0, 0x0, 0x0, 0x0, 0xFFFFFFFFFFFFFFFF, 0x0⟩,
   ⟨0x1040, [(8, 0x100), (16, 0x8)], 0xFFFFFFFFFFFFFFFF, 0x0, 0x0, 0x0, 0x0, 0x0⟩]

/-- Registers of the CHIPKNOT block (R337): CK. -/
def rowsChipknot : List RegRow :=
  [⟨0x0, [(8192, 0x8)], 0xFFFFFFFFFFFFFFFF, 0x0, 0x0, 0x0, 0x0, 0x0⟩]

/-- Registers of the HITCH block (R338): HT_CFG, HT_STAT, HT_KNOT, HM_WORD, KH_HUB, HT_DONE, KN_OPS. -/
def rowsHitch : List RegRow :=
  [⟨0x0, [(64, 0x20)], 0xFFFFF000000003FF, 0x0, 0x0, 0x0, 0x0, 0x0⟩,
   ⟨0x8, [(64, 0x20)], 0xFFFF00000000, 0x0, 0x0, 0x0, 0x0, 0x0⟩,
   ⟨0x10, [(64, 0x20)], 0x1FFFFFFFFFFF, 0x0, 0x0, 0x0, 0x0, 0x0⟩,
   ⟨0x1000, [(32, 0x80), (11, 0x8)], 0xFFFFFFFFFFFFFFFF, 0x0, 0x0, 0x0, 0x0, 0x0⟩,
   ⟨0x2000, [], 0x0, 0x0, 0xFFFF00000000, 0x0, 0x0, 0x0⟩,
   ⟨0x2008, [], 0x0, 0x0, 0xFFFFFFFFFFFFFFFF, 0x0, 0x0, 0x0⟩,
   ⟨0x2010, [], 0x0, 0x0, 0xFFFFFFFFFFFFFFFF, 0x0, 0x0, 0x0⟩]

/-- Registers of the HAWSER block (R394): HW_STAT, HW_CTL, HW_KEYS, HW_TXSEQ, HW_TX, HW_RX, HW_RETX, HW_FEC, HW_AUTH, HW_DROP, HC_CFG, HC_IRQ, HC_HEAD, HC_COUNT, HC_STAT, HC_ERRADDR, HC_CTL, HC_DONE, HC_BYTES. -/
def rowsHawser : List RegRow :=
  [⟨0x0, [], 0x0, 0x0, 0x0, 0x0, 0x0, 0x0⟩,
   ⟨0x8, [], 0xFFFFF0000000FF00, 0x0, 0x0, 0x0, 0x3, 0x100080000000FF00⟩,
   ⟨0x10, [], 0x0, 0x0, 0x0, 0x0, 0x0, 0x0⟩,
   ⟨0x18, [], 0x0, 0x0, 0x0, 0x0, 0x0, 0x0⟩,
   ⟨0x20, [], 0x0, 0x0, 0xFFFFFFFFFFFFFFFF, 0x0, 0x0, 0x0⟩,
   ⟨0x28, [], 0x0, 0x0, 0xFFFFFFFFFFFFFFFF, 0x0, 0x0, 0x0⟩,
   ⟨0x30, [], 0x0, 0x0, 0xFFFFFFFFFFFFFFFF, 0x0, 0x0, 0x0⟩,
   ⟨0x38, [], 0x0, 0x0, 0xFFFFFFFFFFFFFFFF, 0x0, 0x0, 0x0⟩,
   ⟨0x40, [], 0x0, 0x0, 0xFFFFFFFFFFFFFFFF, 0x0, 0x0, 0x0⟩,
   ⟨0x48, [], 0x0, 0x0, 0xFFFFFFFFFFFFFFFF, 0x0, 0x0, 0x0⟩,
   ⟨0x1038, [(16, 0x40)], 0x3FF71FFF, 0x0, 0x0, 0x0, 0x0, 0x0⟩,
   ⟨0x1400, [], 0x0, 0xFFFFFFFF, 0x0, 0x0, 0x0, 0x0⟩,
   ⟨0x1000, [(16, 0x40)], 0xFFFFFFFFFFC0, 0x0, 0x0, 0x0, 0x0, 0x0⟩,
   ⟨0x1008, [(16, 0x40)], 0xFFFF, 0x0, 0x0, 0x0, 0x0, 0x0⟩,
   ⟨0x1010, [(16, 0x40)], 0x0, 0x0, 0x0, 0x0, 0x0, 0x0⟩,
   ⟨0x1018, [(16, 0x40)], 0x0, 0x0, 0x0, 0x0, 0x0, 0x0⟩,
   ⟨0x1020, [(16, 0x40)], 0x1, 0x0, 0x0, 0x0, 0x0, 0x0⟩,
   ⟨0x1028, [(16, 0x40)], 0x0, 0x0, 0xFFFFFFFFFFFFFFFF, 0x0, 0x0, 0x0⟩,
   ⟨0x1030, [(16, 0x40)], 0x0, 0x0, 0xFFFFFFFFFFFFFFFF, 0x0, 0x0, 0x0⟩]

/-- Registers of the CAPSTAN block (R394): CAP_DIM, CAP_MODID, CAP_CTL, CAP_DOORBELL, CAP_RQ, CAP_DONE, CAP_NFCOLL, CAP_FAILS, CAP_XSMIS, CAP_BYTES, CAP_GRP. -/
def rowsCapstan : List RegRow :=
  [⟨0x0, [(4, 0x8)], 0x80000000000003FF, 0x0, 0x0, 0x0, 0x0, 0x0⟩,
   ⟨0x20, [], 0x0, 0x0, 0x0, 0x0, 0x0, 0x0⟩,
   ⟨0x28, [], 0xFFFFFFFF00000000, 0x0, 0x0, 0x0, 0x0, 0x100000000000000⟩,
   ⟨0x30, [], 0x0, 0x0, 0x0, 0x0, 0xFFFFFFFFFFC7, 0x0⟩,
   ⟨0x38, [], 0x7FFFFFFFF, 0x0, 0x0, 0x0, 0x0, 0x0⟩,
   ⟨0x40, [], 0x0, 0x0, 0xFFFFFFFFFFFFFFFF, 0x0, 0x0, 0x0⟩,
   ⟨0x48, [], 0x0, 0x0, 0xFFFFFFFFFFFFFFFF, 0x0, 0x0, 0x0⟩,
   ⟨0x50, [], 0x0, 0x0, 0xFFFFFFFFFFFFFFFF, 0x0, 0x0, 0x0⟩,
   ⟨0x58, [], 0x0, 0x0, 0xFFFFFFFFFFFFFFFF, 0x0, 0x0, 0x0⟩,
   ⟨0x60, [], 0x0, 0x0, 0xFFFFFFFFFFFFFFFF, 0x0, 0x0, 0x0⟩,
   ⟨0x1000, [(256, 0x8)], 0xFF00000000000000, 0x0, 0x0, 0x0, 0x0, 0x0⟩]

/-- Registers of the SPILLWAY block (R394): SPW. -/
def rowsSpillway : List RegRow :=
  [⟨0x0, [(4, 0x8)], 0x0, 0x0, 0x0, 0x0, 0x3, 0x0⟩]

/-- Registers of the TETHER block (R422): TT_STAT, TT_CTL, TT_PARTACC, TT_LOSTCNT, TT_LOSTADDR, TT_CRC, TT_RETRAIN, TT_SNOOP, TT_SFBI, TT_TMO, TT_ACCERR, TT_PROTO, TT_PFSKIP, TT_MSIS, TT_CWBASE, TT_CWSIZE, TT_MSI, MB_IN, MB_OUT, MB_CTL. -/
def rowsTether : List RegRow :=
  [⟨0x0, [], 0x0, 0x0, 0x0, 0x0, 0x0, 0x0⟩,
   ⟨0x8, [], 0xFFFFFFFFF0000000, 0x0, 0x0, 0x0, 0x7, 0x40000040000000⟩,
   ⟨0x10, [], 0xFFFF, 0x0, 0x0, 0x0, 0x0, 0x0⟩,
   ⟨0x18, [], 0x0, 0x0, 0xFFFFFFFFFFFFFFFF, 0x0, 0x0, 0x0⟩,
   ⟨0x20, [], 0x0, 0x0, 0x0, 0x0, 0x0, 0x0⟩,
   ⟨0x28, [], 0x0, 0x0, 0xFFFFFFFFFFFFFFFF, 0x0, 0x0, 0x0⟩,
   ⟨0x30, [], 0x0, 0x0, 0xFFFFFFFFFFFFFFFF, 0x0, 0x0, 0x0⟩,
   ⟨0x38, [], 0x0, 0x0, 0xFFFFFFFFFFFFFFFF, 0x0, 0x0, 0x0⟩,
   ⟨0x40, [], 0x0, 0x0, 0xFFFFFFFFFFFFFFFF, 0x0, 0x0, 0x0⟩,
   ⟨0x48, [], 0x0, 0x0, 0xFFFFFFFFFFFFFFFF, 0x0, 0x0, 0x0⟩,
   ⟨0x50, [], 0x0, 0x0, 0xFFFF000000000000, 0x0, 0x0, 0x0⟩,
   ⟨0x58, [], 0x0, 0x0, 0xFFFFFFFFFFFFFFFF, 0x0, 0x0, 0x0⟩,
   ⟨0x60, [], 0x0, 0x0, 0xFFFFFFFFFFFFFFFF, 0x0, 0x0, 0x0⟩,
   ⟨0x68, [], 0x0, 0x0, 0xFFFFFFFFFFFFFFFF, 0x0, 0x0, 0x0⟩,
   ⟨0x100, [(8, 0x10)], 0x3FFFFFE00007, 0x0, 0x0, 0x0, 0x0, 0x0⟩,
   ⟨0x108, [(8, 0x10)], 0x3FFFFFE00000, 0x0, 0x0, 0x0, 0x0, 0x0⟩,
   ⟨0x200, [(8, 0x8)], 0x0, 0x0, 0x0, 0x0, 0xFFFFFFFF, 0x0⟩,
   ⟨0x1000, [(2, 0x1000), (32, 0x8)], 0xFFFFFFFFFFFFFFFF, 0x0, 0x0, 0x0, 0x0, 0x0⟩,
   ⟨0x1100, [(2, 0x1000), (32, 0x8)], 0xFFFFFFFFFFFFFFFF, 0x0, 0x0, 0x0, 0x0, 0x0⟩,
   ⟨0x1200, [(2, 0x1000)], 0xFFFFFFFF00000000, 0x3, 0x0, 0x0, 0xC, 0x0⟩]

/-- The registers of a block. -/
def blkRows : Blk → List RegRow
  | .chip => rowsChip
  | .part => rowsPart
  | .errlog => rowsErrlog
  | .cal => rowsCal
  | .telem => rowsTelem
  | .fuse => rowsFuse
  | .hg => rowsHg
  | .cleat => rowsCleat
  | .logline => rowsLogline
  | .core => rowsCore
  | .flume => rowsFlume
  | .culvert => rowsCulvert
  | .knot => rowsKnot
  | .sc => rowsSc
  | .slice => rowsSlice
  | .lc => rowsLc
  | .weir => rowsWeir
  | .canal => rowsCanal
  | .splice => rowsSplice
  | .ledger => rowsLedger
  | .gauge => rowsGauge
  | .chipknot => rowsChipknot
  | .hitch => rowsHitch
  | .hawser => rowsHawser
  | .capstan => rowsCapstan
  | .spillway => rowsSpillway
  | .tether => rowsTether

/-- Does a block-relative offset name the register row: strip each repeat, then nothing may be left. -/
def dimsHit : List (Nat × Nat) → Nat → Bool
  | [], r => r == 0
  | (n, st) :: ds, r => decide (r / st < n) && dimsHit ds (r % st)

/-- The row that a block-relative offset names, if any. -/
def findRow : List RegRow → Nat → Option RegRow
  | [], _ => none
  | r :: rs, o => if r.off ≤ o && dimsHit r.dims (o - r.off) then some r else findRow rs o

/-- Is `a` in instance `i` of the block: returns instance and offset in it. -/
def inBlk (b : Blk) (a : Nat) : Option (Nat × Nat) :=
  let (base, size, n, st) := blkGeom b
  if a < base then none
  else if st = 0 then (if a - base < size then some (0, a - base) else none)
  else if (a - base) / st < n ∧ (a - base) % st < size then some ((a - base) / st, (a - base) % st) else none

/-- The block, instance and offset of a register-space offset (R41). -/
def blkOfIn : List Blk → Nat → Option (Blk × Nat × Nat)
  | [], _ => none
  | b :: bs, a => match inBlk b a with
    | some (i, o) => some (b, i, o)
    | none => blkOfIn bs a

/-- The block, instance and offset of a register-space offset. -/
def blkOf (a : Nat) : Option (Blk × Nat × Nat) := blkOfIn allBlks a

/-- The register row of a register-space offset. -/
def regRow (a : Nat) : Option RegRow :=
  match blkOf a with
  | some (b, _, o) => findRow (blkRows b) o
  | none => none

/-- The value a register holds after reset by the tables of the chapters. -/
def tableReset (a : Nat) : Nat :=
  match regRow a with
  | some r => r.reset
  | none => 0

/-- CHIP_INFO of the CHIP block (R40). -/
abbrev rCHIP_INFO : Nat := 0x0
abbrev CHIP_INFO_STATE : Fld := ⟨39, 32⟩
abbrev CHIP_INFO_EAST_UP : Fld := ⟨31, 31⟩
abbrev CHIP_INFO_WEST_UP : Fld := ⟨30, 30⟩
abbrev CHIP_INFO_SPLICE_SB : Fld := ⟨29, 29⟩
abbrev CHIP_INFO_SPARE_CORES : Fld := ⟨19, 10⟩
abbrev CHIP_INFO_ENABLED_CORES : Fld := ⟨9, 0⟩
/-- CYC_CANAL_W of the CHIP block (R40). -/
abbrev rCYC_CANAL_W : Nat := 0x10
/-- CYC_CANAL_E of the CHIP block (R40). -/
abbrev rCYC_CANAL_E : Nat := 0x18
/-- CYC_WEIR_W of the CHIP block (R40). -/
abbrev rCYC_WEIR_W : Nat := 0x20
/-- CYC_WEIR_E of the CHIP block (R40). -/
abbrev rCYC_WEIR_E : Nat := 0x28
/-- CYC_HG_W of the CHIP block (R40). -/
abbrev rCYC_HG_W : Nat := 0x30
/-- CYC_HG_E of the CHIP block (R40). -/
abbrev rCYC_HG_E : Nat := 0x38
/-- BG_MEM_PEAK of the CHIP block (R40). -/
abbrev rBG_MEM_PEAK : Nat := 0x40
abbrev BG_MEM_PEAK_CYCLES : Fld := ⟨20, 0⟩
/-- BG_CANAL_PEAK of the CHIP block (R40). -/
abbrev rBG_CANAL_PEAK : Nat := 0x48
abbrev BG_CANAL_PEAK_CYCLES : Fld := ⟨20, 0⟩
/-- BG_DEFER of the CHIP block (R40). -/
abbrev rBG_DEFER : Nat := 0x50
abbrev BG_DEFER_MEM_WINDOWS : Fld := ⟨63, 32⟩
abbrev BG_DEFER_CANAL_WINDOWS : Fld := ⟨31, 0⟩
/-- TAG_STATUS of the CHIP block (R40). -/
abbrev rTAG_STATUS : Nat := 0x58
abbrev TAG_STATUS_LAST_TAG : Fld := ⟨47, 32⟩
abbrev TAG_STATUS_MISMATCH : Fld := ⟨31, 0⟩
/-- PT_RANGE of the PART block (R365). -/
abbrev rPT_RANGE (j : Nat) : Nat := 0x10000 + j * 0x8
abbrev PT_RANGE_EN : Fld := ⟨10, 10⟩
abbrev PT_RANGE_LAST : Fld := ⟨9, 5⟩
abbrev PT_RANGE_FIRST : Fld := ⟨4, 0⟩
/-- PT_CTL of the PART block (R365). -/
abbrev rPT_CTL (j : Nat) : Nat := 0x10040 + j * 0x8
abbrev PT_CTL_RESET : Fld := ⟨0, 0⟩
/-- PT_STAT of the PART block (R365). -/
abbrev rPT_STAT (j : Nat) : Nat := 0x10080 + j * 0x8
abbrev PT_STAT_DROP : Fld := ⟨63, 34⟩
abbrev PT_STAT_NACK : Fld := ⟨33, 4⟩
abbrev PT_STAT_STATE : Fld := ⟨1, 0⟩
/-- EL_CTL of the ERRLOG block (R468). -/
abbrev rEL_CTL : Nat := 0x20000
abbrev EL_CTL_ICORE : Fld := ⟨47, 38⟩
abbrev EL_CTL_IEN : Fld := ⟨37, 37⟩
abbrev EL_CTL_OVW : Fld := ⟨36, 36⟩
abbrev EL_CTL_THRESH : Fld := ⟨31, 16⟩
abbrev EL_CTL_CM_DREDGE : Fld := ⟨0, 0⟩
/-- EL_STAT of the ERRLOG block (R468). -/
abbrev rEL_STAT : Nat := 0x20008
abbrev EL_STAT_DROPPED : Fld := ⟨63, 48⟩
abbrev EL_STAT_FATAL : Fld := ⟨15, 15⟩
abbrev EL_STAT_HARD : Fld := ⟨14, 14⟩
abbrev EL_STAT_WPTR : Fld := ⟨7, 0⟩
/-- EL_CE of the ERRLOG block (R468). -/
abbrev rEL_CE : Nat := 0x20010
/-- EL_UE of the ERRLOG block (R468). -/
abbrev rEL_UE : Nat := 0x20018
/-- EL_REPAIR of the ERRLOG block (R468). -/
abbrev rEL_REPAIR : Nat := 0x20020
abbrev EL_REPAIR_GAP : Fld := ⟨31, 16⟩
abbrev EL_REPAIR_LOCK : Fld := ⟨3, 3⟩
abbrev EL_REPAIR_TBT : Fld := ⟨2, 2⟩
abbrev EL_REPAIR_SOFT : Fld := ⟨1, 1⟩
abbrev EL_REPAIR_FUSE : Fld := ⟨0, 0⟩
/-- EL_BIST of the ERRLOG block (R468). -/
abbrev rEL_BIST : Nat := 0x20028
abbrev EL_BIST_FAILED : Fld := ⟨63, 48⟩
abbrev EL_BIST_SOFT : Fld := ⟨47, 32⟩
abbrev EL_BIST_TESTED : Fld := ⟨31, 0⟩
/-- EL_TBT of the ERRLOG block (R468). -/
abbrev rEL_TBT : Nat := 0x20030
abbrev EL_TBT_REPAIRED : Fld := ⟨63, 32⟩
abbrev EL_TBT_REGIONS : Fld := ⟨31, 0⟩
/-- CM_LAP of the ERRLOG block (R468). -/
abbrev rCM_LAP (j : Nat) : Nat := 0x23000 + j * 0x8
/-- CM_FLIP of the ERRLOG block (R468). -/
abbrev rCM_FLIP (j : Nat) : Nat := 0x25000 + j * 0x8
/-- EL_ENTRY0 of the ERRLOG block (R468). -/
abbrev rEL_ENTRY0 (j : Nat) : Nat := 0x21000 + j * 0x20
/-- EL_ENTRY1 of the ERRLOG block (R468). -/
abbrev rEL_ENTRY1 (j : Nat) : Nat := 0x21008 + j * 0x20
/-- EL_ENTRY2 of the ERRLOG block (R468). -/
abbrev rEL_ENTRY2 (j : Nat) : Nat := 0x21010 + j * 0x20
/-- EL_ENTRY3 of the ERRLOG block (R468). -/
abbrev rEL_ENTRY3 (j : Nat) : Nat := 0x21018 + j * 0x20
/-- CAL_TIME of the CAL block (R520). -/
abbrev rCAL_TIME : Nat := 0x30000
abbrev CAL_TIME_SEC : Fld := ⟨54, 15⟩
abbrev CAL_TIME_FRAC : Fld := ⟨14, 0⟩
/-- CAL_SET of the CAL block (R520). -/
abbrev rCAL_SET : Nat := 0x30008
abbrev CAL_SET_TIME : Fld := ⟨54, 0⟩
/-- CAL_CTL of the CAL block (R520). -/
abbrev rCAL_CTL : Nat := 0x30010
abbrev CAL_CTL_TRIM : Fld := ⟨15, 8⟩
abbrev CAL_CTL_LOAD : Fld := ⟨3, 3⟩
abbrev CAL_CTL_BATLOW : Fld := ⟨2, 2⟩
abbrev CAL_CTL_OSC_STOP : Fld := ⟨1, 1⟩
abbrev CAL_CTL_VALID : Fld := ⟨0, 0⟩
/-- PWR_STATE of the TELEM block (R523). -/
abbrev rPWR_STATE : Nat := 0x40000
abbrev PWR_STATE_STATE : Fld := ⟨2, 0⟩
/-- THR_CTL of the TELEM block (R523). -/
abbrev rTHR_CTL : Nat := 0x40008
abbrev THR_CTL_CAP_W : Fld := ⟨47, 32⟩
abbrev THR_CTL_MAXLVL : Fld := ⟨31, 28⟩
/-- THR_STAT of the TELEM block (R523). -/
abbrev rTHR_STAT : Nat := 0x40010
abbrev THR_STAT_LVL_E : Fld := ⟨63, 60⟩
abbrev THR_STAT_LVL_W : Fld := ⟨59, 56⟩
abbrev THR_STAT_CAUSE_E : Fld := ⟨55, 52⟩
abbrev THR_STAT_CAUSE_W : Fld := ⟨51, 48⟩
/-- THR_CYC of the TELEM block (R523). -/
abbrev rTHR_CYC : Nat := 0x40018
/-- TEMP of the TELEM block (R523). -/
abbrev rTEMP : Nat := 0x40020
abbrev TEMP_TMOD : Fld := ⟨63, 48⟩
abbrev TEMP_TJ_E : Fld := ⟨47, 32⟩
abbrev TEMP_TJ_W : Fld := ⟨31, 16⟩
/-- PWR_HIST of the TELEM block (R523). -/
abbrev rPWR_HIST : Nat := 0x40028
abbrev PWR_HIST_CAUSE : Fld := ⟨2, 0⟩
/-- RAIL_VI of the TELEM block (R523). -/
abbrev rRAIL_VI (j : Nat) : Nat := 0x40100 + j * 0x10
abbrev RAIL_VI_MV : Fld := ⟨63, 32⟩
abbrev RAIL_VI_MA : Fld := ⟨31, 0⟩
/-- RAIL_P of the TELEM block (R523). -/
abbrev rRAIL_P (j : Nat) : Nat := 0x40108 + j * 0x10
abbrev RAIL_P_PEAK : Fld := ⟨63, 32⟩
abbrev RAIL_P_MW : Fld := ⟨31, 0⟩
/-- FU_LC of the FUSE block (R488). -/
abbrev rFU_LC : Nat := 0x50000
abbrev FU_LC_STATE : Fld := ⟨10, 8⟩
abbrev FU_LC_BITS : Fld := ⟨5, 0⟩
/-- FU_ROOT of the FUSE block (R488). -/
abbrev rFU_ROOT : Nat := 0x50008
abbrev FU_ROOT_REVOKED : Fld := ⟨7, 4⟩
abbrev FU_ROOT_VALID : Fld := ⟨3, 0⟩
/-- FU_SVN of the FUSE block (R488). -/
abbrev rFU_SVN : Nat := 0x50010
abbrev FU_SVN_CLEAT : Fld := ⟨31, 24⟩
abbrev FU_SVN_SLUICE : Fld := ⟨23, 16⟩
abbrev FU_SVN_CORE : Fld := ⟨15, 8⟩
abbrev FU_SVN_HG : Fld := ⟨7, 0⟩
/-- FU_ROOTHASH of the FUSE block (R488). -/
abbrev rFU_ROOTHASH (j k : Nat) : Nat := 0x50020 + j * 0x20 + k * 0x8
/-- FU_OWNER of the FUSE block (R488). -/
abbrev rFU_OWNER (j : Nat) : Nat := 0x500A0 + j * 0x8
/-- FU_COREMAP of the FUSE block (R488). -/
abbrev rFU_COREMAP (j : Nat) : Nat := 0x50100 + j * 0x8
/-- FU_LICENCE of the FUSE block (R488). -/
abbrev rFU_LICENCE : Nat := 0x50200
abbrev FU_LICENCE_CORES : Fld := ⟨47, 38⟩
abbrev FU_LICENCE_DIMS : Fld := ⟨37, 35⟩
abbrev FU_LICENCE_RT : Fld := ⟨34, 34⟩
abbrev FU_LICENCE_RULE : Fld := ⟨33, 33⟩
abbrev FU_LICENCE_VALID : Fld := ⟨32, 32⟩
/-- HG_STAT of the HG block (R509). -/
abbrev rHG_STAT (i : Nat) : Nat := 0x100000 + i * 0x100000
abbrev HG_STAT_PRIMARY : Fld := ⟨63, 63⟩
abbrev HG_STAT_ROLE : Fld := ⟨59, 58⟩
abbrev HG_STAT_SB : Fld := ⟨57, 57⟩
abbrev HG_STAT_BANK : Fld := ⟨56, 56⟩
abbrev HG_STAT_SVN : Fld := ⟨47, 40⟩
abbrev HG_STAT_STEP : Fld := ⟨39, 36⟩
/-- HG_LEASE of the HG block (R509). -/
abbrev rHG_LEASE (i : Nat) : Nat := 0x100008 + i * 0x100000
abbrev HG_LEASE_EPOCH : Fld := ⟨63, 32⟩
abbrev HG_LEASE_HOLDER : Fld := ⟨31, 30⟩
abbrev HG_LEASE_RELEASE : Fld := ⟨0, 0⟩
/-- HG_LEASE_CFG of the HG block (R509). -/
abbrev rHG_LEASE_CFG (i : Nat) : Nat := 0x100010 + i * 0x100000
abbrev HG_LEASE_CFG_RENEW : Fld := ⟨63, 32⟩
abbrev HG_LEASE_CFG_TIMEOUT : Fld := ⟨31, 0⟩
/-- HG_EVENT of the HG block (R509). -/
abbrev rHG_EVENT (i : Nat) : Nat := 0x100018 + i * 0x100000
abbrev HG_EVENT_CLAIM : Fld := ⟨7, 7⟩
abbrev HG_EVENT_LINK : Fld := ⟨6, 6⟩
abbrev HG_EVENT_SLUICE : Fld := ⟨5, 5⟩
abbrev HG_EVENT_ERRLOG : Fld := ⟨4, 4⟩
abbrev HG_EVENT_TAMPER : Fld := ⟨3, 3⟩
abbrev HG_EVENT_LIC : Fld := ⟨2, 2⟩
abbrev HG_EVENT_MBOX : Fld := ⟨1, 1⟩
abbrev HG_EVENT_HALT : Fld := ⟨0, 0⟩
/-- HG_HALT of the HG block (R509). -/
abbrev rHG_HALT (i : Nat) : Nat := 0x100020 + i * 0x100000
abbrev HG_HALT_COUNT : Fld := ⟨63, 32⟩
abbrev HG_HALT_ID : Fld := ⟨9, 0⟩
/-- HG_CORERST of the HG block (R509). -/
abbrev rHG_CORERST (i : Nat) : Nat := 0x100028 + i * 0x100000
abbrev HG_CORERST_OP : Fld := ⟨11, 10⟩
abbrev HG_CORERST_ID : Fld := ⟨9, 0⟩
/-- HG_RESET of the HG block (R509). -/
abbrev rHG_RESET (i : Nat) : Nat := 0x100030 + i * 0x100000
abbrev HG_RESET_COLD : Fld := ⟨1, 1⟩
abbrev HG_RESET_WARM : Fld := ⟨0, 0⟩
/-- HG_FW of the HG block (R509). -/
abbrev rHG_FW (i : Nat) : Nat := 0x100038 + i * 0x100000
abbrev HG_FW_NEXT : Fld := ⟨56, 56⟩
abbrev HG_FW_GEN : Fld := ⟨55, 48⟩
/-- HG_RECAL of the HG block (R509). -/
abbrev rHG_RECAL (i : Nat) : Nat := 0x100040 + i * 0x100000
abbrev HG_RECAL_HBM_PERIOD : Fld := ⟨63, 32⟩
abbrev HG_RECAL_LP_PERIOD : Fld := ⟨31, 0⟩
/-- HG_DEGR of the HG block (R509). -/
abbrev rHG_DEGR (i : Nat) : Nat := 0x100048 + i * 0x100000
abbrev HG_DEGR_STEP : Fld := ⟨15, 12⟩
abbrev HG_DEGR_FLASH : Fld := ⟨8, 8⟩
abbrev HG_DEGR_SRAM : Fld := ⟨7, 7⟩
abbrev HG_DEGR_TETHER : Fld := ⟨6, 6⟩
abbrev HG_DEGR_MEMORY : Fld := ⟨5, 5⟩
abbrev HG_DEGR_TAMPER : Fld := ⟨4, 4⟩
abbrev HG_DEGR_LICENCE : Fld := ⟨3, 3⟩
abbrev HG_DEGR_CORES : Fld := ⟨2, 2⟩
abbrev HG_DEGR_TOPOLOGY : Fld := ⟨1, 1⟩
abbrev HG_DEGR_TIMEOUT : Fld := ⟨0, 0⟩
/-- HG_FWREP of the HG block (R509). -/
abbrev rHG_FWREP (i : Nat) : Nat := 0x100050 + i * 0x100000
abbrev HG_FWREP_DISABLED : Fld := ⟨63, 48⟩
abbrev HG_FWREP_REPAIRED : Fld := ⟨47, 32⟩
abbrev HG_FWREP_CHUNKS : Fld := ⟨31, 0⟩
/-- HG_FLASH of the HG block (R509). -/
abbrev rHG_FLASH (i : Nat) : Nat := 0x100058 + i * 0x100000
abbrev HG_FLASH_RETIRED : Fld := ⟨63, 48⟩
abbrev HG_FLASH_SPARE : Fld := ⟨47, 32⟩
abbrev HG_FLASH_MAXERASE : Fld := ⟨31, 0⟩
/-- HG_BOOTCYC of the HG block (R509). -/
abbrev rHG_BOOTCYC (i : Nat) : Nat := 0x100060 + i * 0x100000
/-- HG_FWCORE of the HG block (R509). -/
abbrev rHG_FWCORE (i j : Nat) : Nat := 0x110000 + i * 0x100000 + j * 0x8
abbrev HG_FWCORE_ARM : Fld := ⟨63, 63⟩
abbrev HG_FWCORE_DONE : Fld := ⟨62, 62⟩
abbrev HG_FWCORE_FAIL : Fld := ⟨61, 61⟩
abbrev HG_FWCORE_GEN : Fld := ⟨55, 48⟩
abbrev HG_FWCORE_ROUNDS : Fld := ⟨47, 40⟩
abbrev HG_FWCORE_MISSING : Fld := ⟨15, 0⟩
/-- CK_CMD of the CLEAT block (R488). -/
abbrev rCK_CMD : Nat := 0x300000
abbrev CK_CMD_ARG : Fld := ⟨15, 8⟩
abbrev CK_CMD_OP : Fld := ⟨7, 0⟩
/-- CK_ADDR of the CLEAT block (R488). -/
abbrev rCK_ADDR : Nat := 0x300008
abbrev CK_ADDR_ADDR : Fld := ⟨47, 0⟩
/-- CK_STAT of the CLEAT block (R488). -/
abbrev rCK_STAT : Nat := 0x300010
abbrev CK_STAT_TAMPER : Fld := ⟨63, 63⟩
abbrev CK_STAT_CAL_OK : Fld := ⟨62, 62⟩
abbrev CK_STAT_ID_OK : Fld := ⟨61, 61⟩
abbrev CK_STAT_LIC_EXP : Fld := ⟨60, 60⟩
abbrev CK_STAT_RESULT : Fld := ⟨15, 8⟩
abbrev CK_STAT_BUSY : Fld := ⟨0, 0⟩
/-- CK_TAMPER of the CLEAT block (R488). -/
abbrev rCK_TAMPER : Nat := 0x300018
abbrev CK_TAMPER_CAUSE : Fld := ⟨5, 0⟩
/-- CK_DEBUG of the CLEAT block (R488). -/
abbrev rCK_DEBUG : Nat := 0x300020
abbrev CK_DEBUG_LEVEL : Fld := ⟨1, 0⟩
/-- CK_KEYS of the CLEAT block (R488). -/
abbrev rCK_KEYS : Nat := 0x300028
abbrev CK_KEYS_CHIP : Fld := ⟨8, 8⟩
abbrev CK_KEYS_MEM : Fld := ⟨7, 0⟩
/-- CK_LIC of the CLEAT block (R488). -/
abbrev rCK_LIC : Nat := 0x300030
/-- DEV_ID of the CLEAT block (R488). -/
abbrev rDEV_ID (j : Nat) : Nat := 0x300040 + j * 0x8
/-- DBG_CHAL of the CLEAT block (R488). -/
abbrev rDBG_CHAL (j : Nat) : Nat := 0x300060 + j * 0x8
/-- MEAS of the CLEAT block (R488). -/
abbrev rMEAS (j k : Nat) : Nat := 0x300100 + j * 0x20 + k * 0x8
/-- CK_STAGING of the CLEAT block (R488). -/
abbrev rCK_STAGING (j : Nat) : Nat := 0x310000 + j * 0x8
/-- LOG_RING of the LOGLINE block (R442). -/
abbrev rLOG_RING (j : Nat) : Nat := 0x400000 + j * 0x100
abbrev LOG_RING_BASE : Fld := ⟨47, 21⟩
abbrev LOG_RING_LSIZE : Fld := ⟨4, 0⟩
/-- LOG_MIRROR of the LOGLINE block (R442). -/
abbrev rLOG_MIRROR (j : Nat) : Nat := 0x400008 + j * 0x100
abbrev LOG_MIRROR_CBASE : Fld := ⟨45, 21⟩
abbrev LOG_MIRROR_MIRC : Fld := ⟨1, 1⟩
abbrev LOG_MIRROR_MIRF : Fld := ⟨0, 0⟩
/-- LOG_COMMIT of the LOGLINE block (R442). -/
abbrev rLOG_COMMIT (j : Nat) : Nat := 0x400010 + j * 0x100
/-- LOG_LAST of the LOGLINE block (R442). -/
abbrev rLOG_LAST (j : Nat) : Nat := 0x400018 + j * 0x100
/-- LOG_STAT of the LOGLINE block (R442). -/
abbrev rLOG_STAT (j : Nat) : Nat := 0x400020 + j * 0x100
abbrev LOG_STAT_REFUSED : Fld := ⟨63, 32⟩
abbrev LOG_STAT_CAUSE : Fld := ⟨31, 24⟩
abbrev LOG_STAT_VALID : Fld := ⟨0, 0⟩
/-- LOG_MIRF of the LOGLINE block (R442). -/
abbrev rLOG_MIRF (j : Nat) : Nat := 0x400028 + j * 0x100
/-- LOG_MIRC of the LOGLINE block (R442). -/
abbrev rLOG_MIRC (j : Nat) : Nat := 0x400030 + j * 0x100
/-- SN_CTL of the LOGLINE block (R442). -/
abbrev rSN_CTL (j : Nat) : Nat := 0x400038 + j * 0x100
abbrev SN_CTL_EN : Fld := ⟨18, 18⟩
abbrev SN_CTL_MIGEN : Fld := ⟨17, 17⟩
abbrev SN_CTL_SKIPG : Fld := ⟨16, 16⟩
abbrev SN_CTL_N : Fld := ⟨15, 0⟩
/-- SN_SKIPLO of the LOGLINE block (R442). -/
abbrev rSN_SKIPLO (j : Nat) : Nat := 0x400040 + j * 0x100
abbrev SN_SKIPLO_VPN : Fld := ⟨47, 21⟩
abbrev SN_SKIPLO_EN : Fld := ⟨0, 0⟩
/-- SN_SKIPHI of the LOGLINE block (R442). -/
abbrev rSN_SKIPHI (j : Nat) : Nat := 0x400048 + j * 0x100
abbrev SN_SKIPHI_VPN : Fld := ⟨47, 21⟩
/-- SN_TBL of the LOGLINE block (R442). -/
abbrev rSN_TBL (j k : Nat) : Nat := 0x400050 + j * 0x100 + k * 0x8
abbrev SN_TBL_BASE : Fld := ⟨47, 21⟩
/-- SN_CMD of the LOGLINE block (R442). -/
abbrev rSN_CMD (j : Nat) : Nat := 0x400060 + j * 0x100
abbrev SN_CMD_OP : Fld := ⟨3, 0⟩
/-- SN_ARG of the LOGLINE block (R442). -/
abbrev rSN_ARG (j : Nat) : Nat := 0x400068 + j * 0x100
/-- SN_STAT of the LOGLINE block (R442). -/
abbrev rSN_STAT (j : Nat) : Nat := 0x400070 + j * 0x100
abbrev SN_STAT_STATE : Fld := ⟨63, 61⟩
abbrev SN_STAT_BROKEN_NEW : Fld := ⟨60, 60⟩
abbrev SN_STAT_BROKEN_OLD : Fld := ⟨59, 59⟩
abbrev SN_STAT_BUSY : Fld := ⟨58, 58⟩
abbrev SN_STAT_TSEL : Fld := ⟨57, 57⟩
abbrev SN_STAT_SWEEP : Fld := ⟨19, 0⟩
/-- SN_OLDSTEP of the LOGLINE block (R442). -/
abbrev rSN_OLDSTEP (j : Nat) : Nat := 0x400078 + j * 0x100
/-- SN_NEWSTEP of the LOGLINE block (R442). -/
abbrev rSN_NEWSTEP (j : Nat) : Nat := 0x400080 + j * 0x100
/-- SN_COUNT of the LOGLINE block (R442). -/
abbrev rSN_COUNT (j : Nat) : Nat := 0x400088 + j * 0x100
abbrev SN_COUNT_NEW : Fld := ⟨63, 32⟩
abbrev SN_COUNT_OLD : Fld := ⟨31, 0⟩
/-- SN_STALL of the LOGLINE block (R442). -/
abbrev rSN_STALL (j : Nat) : Nat := 0x400090 + j * 0x100
/-- SN_NOFRAME of the LOGLINE block (R442). -/
abbrev rSN_NOFRAME (j : Nat) : Nat := 0x400098 + j * 0x100
abbrev SN_NOFRAME_LP : Fld := ⟨63, 32⟩
abbrev SN_NOFRAME_BAD : Fld := ⟨31, 0⟩
/-- CORE_ID of the CORE block (R82). -/
abbrev rCORE_ID (i : Nat) : Nat := 0x1000000 + i * 0x10000
abbrev CORE_ID_PART : Fld := ⟨18, 16⟩
abbrev CORE_ID_ID : Fld := ⟨9, 0⟩
/-- CYCLE of the CORE block (R82). -/
abbrev rCYCLE (i : Nat) : Nat := 0x1000008 + i * 0x10000
/-- CYCLE_CMP of the CORE block (R82). -/
abbrev rCYCLE_CMP (i : Nat) : Nat := 0x1000010 + i * 0x10000
/-- CORE_MODE of the CORE block (R82). -/
abbrev rCORE_MODE (i : Nat) : Nat := 0x1000018 + i * 0x10000
abbrev CORE_MODE_SW_THRESH : Fld := ⟨31, 16⟩
abbrev CORE_MODE_VIEW : Fld := ⟨9, 8⟩
abbrev CORE_MODE_FG_CTX : Fld := ⟨7, 6⟩
abbrev CORE_MODE_RUN_CTX : Fld := ⟨5, 4⟩
abbrev CORE_MODE_ROT : Fld := ⟨1, 1⟩
abbrev CORE_MODE_MAINT : Fld := ⟨0, 0⟩
/-- CTX_STATE of the CORE block (R82). -/
abbrev rCTX_STATE (i : Nat) : Nat := 0x1000020 + i * 0x10000
abbrev CTX_STATE_CTX3 : Fld := ⟨15, 12⟩
abbrev CTX_STATE_CTX2 : Fld := ⟨11, 8⟩
abbrev CTX_STATE_CTX1 : Fld := ⟨7, 4⟩
abbrev CTX_STATE_CTX0 : Fld := ⟨3, 0⟩
/-- ENG_OWNER of the CORE block (R82). -/
abbrev rENG_OWNER (i : Nat) : Nat := 0x1000028 + i * 0x10000
abbrev ENG_OWNER_BUSY : Fld := ⟨2, 2⟩
abbrev ENG_OWNER_CTX : Fld := ⟨1, 0⟩
/-- MSTATUS of the CORE block (R82). -/
abbrev rMSTATUS (i : Nat) : Nat := 0x1000030 + i * 0x10000
abbrev MSTATUS_INEXC : Fld := ⟨4, 4⟩
abbrev MSTATUS_PIE : Fld := ⟨3, 3⟩
abbrev MSTATUS_IE : Fld := ⟨2, 2⟩
abbrev MSTATUS_PPRIV : Fld := ⟨1, 1⟩
abbrev MSTATUS_PRIV : Fld := ⟨0, 0⟩
/-- MTVEC of the CORE block (R82). -/
abbrev rMTVEC (i : Nat) : Nat := 0x1000038 + i * 0x10000
abbrev MTVEC_BASE : Fld := ⟨47, 2⟩
/-- EPC of the CORE block (R82). -/
abbrev rEPC (i : Nat) : Nat := 0x1000040 + i * 0x10000
/-- EVAL of the CORE block (R82). -/
abbrev rEVAL (i : Nat) : Nat := 0x1000050 + i * 0x10000
/-- ESCRATCH of the CORE block (R82). -/
abbrev rESCRATCH (i : Nat) : Nat := 0x1000058 + i * 0x10000
/-- ECAUSE of the CORE block (R82). -/
abbrev rECAUSE (i : Nat) : Nat := 0x1000048 + i * 0x10000
abbrev ECAUSE_INT : Fld := ⟨63, 63⟩
abbrev ECAUSE_CODE : Fld := ⟨7, 0⟩
/-- IPEND of the CORE block (R82). -/
abbrev rIPEND (i : Nat) : Nat := 0x1000060 + i * 0x10000
abbrev IPEND_PEND : Fld := ⟨7, 0⟩
/-- IENABLE of the CORE block (R82). -/
abbrev rIENABLE (i : Nat) : Nat := 0x1000068 + i * 0x10000
abbrev IENABLE_EN : Fld := ⟨7, 0⟩
/-- ISOFT of the CORE block (R82). -/
abbrev rISOFT (i : Nat) : Nat := 0x1000070 + i * 0x10000
abbrev ISOFT_SET : Fld := ⟨0, 0⟩
/-- CTX_SAVE of the CORE block (R82). -/
abbrev rCTX_SAVE (i j : Nat) : Nat := 0x1000078 + i * 0x10000 + j * 0x8
abbrev CTX_SAVE_BASE : Fld := ⟨47, 12⟩
/-- ENG_ERR of the CORE block (R82). -/
abbrev rENG_ERR (i : Nat) : Nat := 0x1000098 + i * 0x10000
abbrev ENG_ERR_ADDR : Fld := ⟨63, 16⟩
abbrev ENG_ERR_ENGINE : Fld := ⟨15, 12⟩
abbrev ENG_ERR_VALID : Fld := ⟨8, 8⟩
abbrev ENG_ERR_CODE : Fld := ⟨7, 0⟩
/-- INSTRET of the CORE block (R82). -/
abbrev rINSTRET (i : Nat) : Nat := 0x10000A0 + i * 0x10000
/-- DUAL of the CORE block (R82). -/
abbrev rDUAL (i : Nat) : Nat := 0x10000A8 + i * 0x10000
/-- STALL_WINDOW of the CORE block (R82). -/
abbrev rSTALL_WINDOW (i : Nat) : Nat := 0x10000B0 + i * 0x10000
/-- SWITCHES of the CORE block (R82). -/
abbrev rSWITCHES (i : Nat) : Nat := 0x10000B8 + i * 0x10000
/-- CORE_CTL of the CORE block (R82). -/
abbrev rCORE_CTL (i : Nat) : Nat := 0x10000C0 + i * 0x10000
abbrev CORE_CTL_RUN : Fld := ⟨0, 0⟩
/-- BOOT_VEC of the CORE block (R82). -/
abbrev rBOOT_VEC (i : Nat) : Nat := 0x10000C8 + i * 0x10000
abbrev BOOT_VEC_ADDR : Fld := ⟨47, 2⟩
/-- TCFG of the CORE block (R92). -/
abbrev rTCFG (i j : Nat) : Nat := 0x1000100 + i * 0x10000 + j * 0x8
abbrev TCFG_NF : Fld := ⟨63, 63⟩
abbrev TCFG_CONF : Fld := ⟨62, 62⟩
abbrev TCFG_TAG : Fld := ⟨47, 32⟩
abbrev TCFG_FMT : Fld := ⟨31, 28⟩
abbrev TCFG_RBYTES : Fld := ⟨11, 8⟩
abbrev TCFG_ROWS : Fld := ⟨5, 0⟩
/-- TSTART of the CORE block (R92). -/
abbrev rTSTART (i : Nat) : Nat := 0x1000140 + i * 0x10000
abbrev TSTART_ROW : Fld := ⟨5, 0⟩
/-- TILE_STAT of the CORE block (R92). -/
abbrev rTILE_STAT (i : Nat) : Nat := 0x1000148 + i * 0x10000
abbrev TILE_STAT_BARRIER : Fld := ⟨16, 16⟩
abbrev TILE_STAT_BUSY : Fld := ⟨15, 8⟩
abbrev TILE_STAT_EMPTY : Fld := ⟨7, 0⟩
/-- TILE_ROWS_IN of the CORE block (R92). -/
abbrev rTILE_ROWS_IN (i : Nat) : Nat := 0x1000150 + i * 0x10000
/-- TILE_ROWS_OUT of the CORE block (R92). -/
abbrev rTILE_ROWS_OUT (i : Nat) : Nat := 0x1000158 + i * 0x10000
/-- TILE_BAR_CYC of the CORE block (R92). -/
abbrev rTILE_BAR_CYC (i : Nat) : Nat := 0x1000160 + i * 0x10000
/-- MCFG of the CORE block (R140). -/
abbrev rMCFG (i : Nat) : Nat := 0x1000200 + i * 0x10000
abbrev MCFG_FOLD : Fld := ⟨1, 0⟩
/-- ACC_STAT of the CORE block (R140). -/
abbrev rACC_STAT (i : Nat) : Nat := 0x1000208 + i * 0x10000
abbrev ACC_STAT_ERR1 : Fld := ⟨7, 7⟩
abbrev ACC_STAT_NF1 : Fld := ⟨6, 6⟩
abbrev ACC_STAT_DRAIN1 : Fld := ⟨5, 5⟩
abbrev ACC_STAT_BUSY1 : Fld := ⟨4, 4⟩
abbrev ACC_STAT_ERR0 : Fld := ⟨3, 3⟩
abbrev ACC_STAT_NF0 : Fld := ⟨2, 2⟩
abbrev ACC_STAT_DRAIN0 : Fld := ⟨1, 1⟩
abbrev ACC_STAT_BUSY0 : Fld := ⟨0, 0⟩
/-- ARR_ACTIVE of the CORE block (R140). -/
abbrev rARR_ACTIVE (i : Nat) : Nat := 0x1000210 + i * 0x10000
/-- FEED_DRY_A of the CORE block (R140). -/
abbrev rFEED_DRY_A (i : Nat) : Nat := 0x1000218 + i * 0x10000
/-- FEED_DRY_B of the CORE block (R140). -/
abbrev rFEED_DRY_B (i : Nat) : Nat := 0x1000220 + i * 0x10000
/-- ACC_WAIT of the CORE block (R140). -/
abbrev rACC_WAIT (i : Nat) : Nat := 0x1000228 + i * 0x10000
/-- ARR_FILL of the CORE block (R140). -/
abbrev rARR_FILL (i : Nat) : Nat := 0x1000230 + i * 0x10000
/-- MMA_DONE of the CORE block (R140). -/
abbrev rMMA_DONE (i : Nat) : Nat := 0x1000238 + i * 0x10000
/-- DRAIN_DONE of the CORE block (R140). -/
abbrev rDRAIN_DONE (i : Nat) : Nat := 0x1000240 + i * 0x10000
/-- VCTL of the CORE block (R194). -/
abbrev rVCTL (i : Nat) : Nat := 0x1000300 + i * 0x10000
abbrev VCTL_TAG : Fld := ⟨47, 32⟩
abbrev VCTL_FMT : Fld := ⟨31, 28⟩
abbrev VCTL_MXFMT : Fld := ⟨27, 24⟩
/-- VNF of the CORE block (R194). -/
abbrev rVNF (i : Nat) : Nat := 0x1000308 + i * 0x10000
abbrev VNF_NF : Fld := ⟨31, 0⟩
/-- FACT_STATUS of the CORE block (R194). -/
abbrev rFACT_STATUS (i : Nat) : Nat := 0x1000310 + i * 0x10000
abbrev FACT_STATUS_NONFIN : Fld := ⟨15, 15⟩
abbrev FACT_STATUS_REPLACED : Fld := ⟨14, 8⟩
abbrev FACT_STATUS_FIRST : Fld := ⟨5, 0⟩
/-- FTAB_STAT of the CORE block (R194). -/
abbrev rFTAB_STAT (i : Nat) : Nat := 0x1000318 + i * 0x10000
abbrev FTAB_STAT_VALID : Fld := ⟨15, 0⟩
/-- VEC_DONE of the CORE block (R194). -/
abbrev rVEC_DONE (i : Nat) : Nat := 0x1000320 + i * 0x10000
/-- VEC_STALL of the CORE block (R194). -/
abbrev rVEC_STALL (i : Nat) : Nat := 0x1000328 + i * 0x10000
/-- FL_LIST of the FLUME block (R291). -/
abbrev rFL_LIST (i j : Nat) : Nat := 0x1004000 + i * 0x10000 + j * 0x40
abbrev FL_LIST_ADDR : Fld := ⟨47, 4⟩
/-- FL_CFG of the FLUME block (R291). -/
abbrev rFL_CFG (i j : Nat) : Nat := 0x1004008 + i * 0x10000 + j * 0x40
abbrev FL_CFG_TAG : Fld := ⟨63, 48⟩
abbrev FL_CFG_FMT : Fld := ⟨47, 44⟩
abbrev FL_CFG_RA : Fld := ⟨43, 40⟩
abbrev FL_CFG_MODE : Fld := ⟨39, 38⟩
abbrev FL_CFG_RT : Fld := ⟨37, 37⟩
abbrev FL_CFG_IEN : Fld := ⟨36, 36⟩
abbrev FL_CFG_MERGE : Fld := ⟨35, 35⟩
abbrev FL_CFG_FIRST : Fld := ⟨31, 0⟩
/-- FL_BUF of the FLUME block (R291). -/
abbrev rFL_BUF (i j : Nat) : Nat := 0x1004010 + i * 0x10000 + j * 0x40
abbrev FL_BUF_HALF : Fld := ⟨63, 44⟩
abbrev FL_BUF_BASE : Fld := ⟨43, 0⟩
/-- FL_DL of the FLUME block (R291). -/
abbrev rFL_DL (i j : Nat) : Nat := 0x1004018 + i * 0x10000 + j * 0x40
abbrev FL_DL_PERIOD : Fld := ⟨63, 32⟩
abbrev FL_DL_BUDGET : Fld := ⟨31, 0⟩
/-- FL_REC of the FLUME block (R291). -/
abbrev rFL_REC (i j : Nat) : Nat := 0x1004020 + i * 0x10000 + j * 0x40
abbrev FL_REC_RSIZE : Fld := ⟨63, 60⟩
abbrev FL_REC_BASE : Fld := ⟨47, 5⟩
abbrev FL_REC_EN : Fld := ⟨0, 0⟩
/-- FL_STAT of the FLUME block (R291). -/
abbrev rFL_STAT (i j : Nat) : Nat := 0x1004028 + i * 0x10000 + j * 0x40
abbrev FL_STAT_BLOCK : Fld := ⟨63, 32⟩
abbrev FL_STAT_CODE : Fld := ⟨23, 16⟩
abbrev FL_STAT_HELD : Fld := ⟨15, 8⟩
abbrev FL_STAT_STATE : Fld := ⟨2, 0⟩
/-- FL_MISS of the FLUME block (R291). -/
abbrev rFL_MISS (i j : Nat) : Nat := 0x1004030 + i * 0x10000 + j * 0x40
abbrev FL_MISS_RPTR : Fld := ⟨63, 32⟩
abbrev FL_MISS_COUNT : Fld := ⟨31, 0⟩
/-- FL_ARM of the FLUME block (R291). -/
abbrev rFL_ARM (i j : Nat) : Nat := 0x1004038 + i * 0x10000 + j * 0x40
/-- FL_CTL of the FLUME block (R291). -/
abbrev rFL_CTL (i : Nat) : Nat := 0x1005000 + i * 0x10000
abbrev FL_CTL_RT_LIC : Fld := ⟨0, 0⟩
/-- FL_MERGE of the FLUME block (R291). -/
abbrev rFL_MERGE (i : Nat) : Nat := 0x1005008 + i * 0x10000
/-- FL_REQ of the FLUME block (R291). -/
abbrev rFL_REQ (i : Nat) : Nat := 0x1005010 + i * 0x10000
/-- CV_HEAD of the CULVERT block (R308). -/
abbrev rCV_HEAD (i j : Nat) : Nat := 0x1008000 + i * 0x10000 + j * 0x40
abbrev CV_HEAD_ADDR : Fld := ⟨47, 6⟩
/-- CV_COUNT of the CULVERT block (R308). -/
abbrev rCV_COUNT (i j : Nat) : Nat := 0x1008008 + i * 0x10000 + j * 0x40
abbrev CV_COUNT_CUR : Fld := ⟨31, 16⟩
abbrev CV_COUNT_RELOAD : Fld := ⟨15, 0⟩
/-- CV_STAT of the CULVERT block (R308). -/
abbrev rCV_STAT (i j : Nat) : Nat := 0x1008010 + i * 0x10000 + j * 0x40
abbrev CV_STAT_ELEM : Fld := ⟨63, 32⟩
abbrev CV_STAT_CODE : Fld := ⟨11, 8⟩
abbrev CV_STAT_STATE : Fld := ⟨2, 0⟩
/-- CV_ERRADDR of the CULVERT block (R308). -/
abbrev rCV_ERRADDR (i j : Nat) : Nat := 0x1008018 + i * 0x10000 + j * 0x40
abbrev CV_ERRADDR_ADDR : Fld := ⟨47, 0⟩
/-- CV_CTL of the CULVERT block (R308). -/
abbrev rCV_CTL (i j : Nat) : Nat := 0x1008020 + i * 0x10000 + j * 0x40
abbrev CV_CTL_ENGERR : Fld := ⟨0, 0⟩
/-- CV_DONE of the CULVERT block (R308). -/
abbrev rCV_DONE (i j : Nat) : Nat := 0x1008028 + i * 0x10000 + j * 0x40
/-- CV_BYTES of the CULVERT block (R308). -/
abbrev rCV_BYTES (i j : Nat) : Nat := 0x1008030 + i * 0x10000 + j * 0x40
/-- CV_IRQ of the CULVERT block (R308). -/
abbrev rCV_IRQ (i : Nat) : Nat := 0x1008200 + i * 0x10000
abbrev CV_IRQ_ERR : Fld := ⟨15, 8⟩
abbrev CV_IRQ_DONE : Fld := ⟨7, 0⟩
/-- CV_BSTAT of the CULVERT block (R308). -/
abbrev rCV_BSTAT (i : Nat) : Nat := 0x1008208 + i * 0x10000
abbrev CV_BSTAT_BASE : Fld := ⟨47, 4⟩
abbrev CV_BSTAT_EN : Fld := ⟨0, 0⟩
/-- CV_BDROP of the CULVERT block (R308). -/
abbrev rCV_BDROP (i : Nat) : Nat := 0x1008210 + i * 0x10000
/-- KN of the KNOT block (R336). -/
abbrev rKN (i j : Nat) : Nat := 0x100C000 + i * 0x10000 + j * 0x8
/-- KH_FAULT of the KNOT block (R336). -/
abbrev rKH_FAULT (i : Nat) : Nat := 0x100C200 + i * 0x10000
abbrev KH_FAULT_NAME : Fld := ⟨39, 8⟩
abbrev KH_FAULT_CAUSE : Fld := ⟨7, 0⟩
/-- KN_ERR of the KNOT block (R336). -/
abbrev rKN_ERR (i : Nat) : Nat := 0x100C208 + i * 0x10000
abbrev KN_ERR_COUNT : Fld := ⟨63, 48⟩
abbrev KN_ERR_SOURCE : Fld := ⟨47, 44⟩
abbrev KN_ERR_NAME : Fld := ⟨39, 8⟩
abbrev KN_ERR_CAUSE : Fld := ⟨7, 0⟩
/-- KN_IRQ of the KNOT block (R336). -/
abbrev rKN_IRQ (i : Nat) : Nat := 0x100C210 + i * 0x10000
abbrev KN_IRQ_COUNT : Fld := ⟨63, 32⟩
abbrev KN_IRQ_LAST : Fld := ⟨31, 0⟩
/-- SLU_DOORBELL of the SC block (R225). -/
abbrev rSLU_DOORBELL (i : Nat) : Nat := 0x8040000 + i * 0x100000
abbrev SLU_DOORBELL_DESC : Fld := ⟨47, 8⟩
abbrev SLU_DOORBELL_PART : Fld := ⟨2, 0⟩
/-- SLU_BCAST of the SC block (R225). -/
abbrev rSLU_BCAST (i : Nat) : Nat := 0x8040008 + i * 0x100000
abbrev SLU_BCAST_DESC : Fld := ⟨47, 8⟩
abbrev SLU_BCAST_PART : Fld := ⟨2, 0⟩
/-- SLU_STAT of the SC block (R225). -/
abbrev rSLU_STAT (i : Nat) : Nat := 0x8040010 + i * 0x100000
abbrev SLU_STAT_TENSOR : Fld := ⟨27, 16⟩
abbrev SLU_STAT_QUEUE : Fld := ⟨10, 8⟩
abbrev SLU_STAT_W_LOG : Fld := ⟨7, 7⟩
abbrev SLU_STAT_W_KNOT : Fld := ⟨6, 6⟩
abbrev SLU_STAT_W_CSEQ : Fld := ⟨5, 5⟩
abbrev SLU_STAT_STATE : Fld := ⟨2, 0⟩
/-- SLU_ERR of the SC block (R225). -/
abbrev rSLU_ERR (i : Nat) : Nat := 0x8040018 + i * 0x100000
abbrev SLU_ERR_BLOCK : Fld := ⟨63, 32⟩
abbrev SLU_ERR_TENSOR : Fld := ⟨31, 20⟩
abbrev SLU_ERR_VALID : Fld := ⟨8, 8⟩
abbrev SLU_ERR_CODE : Fld := ⟨7, 0⟩
/-- SLU_CTL of the SC block (R225). -/
abbrev rSLU_CTL (i : Nat) : Nat := 0x8040020 + i * 0x100000
abbrev SLU_CTL_RULE_EN : Fld := ⟨2, 2⟩
abbrev SLU_CTL_ABORT : Fld := ⟨1, 1⟩
abbrev SLU_CTL_ENABLE : Fld := ⟨0, 0⟩
/-- SLU_BLOCKS of the SC block (R225). -/
abbrev rSLU_BLOCKS (i : Nat) : Nat := 0x8040028 + i * 0x100000
/-- SLU_SKIP_STEPS of the SC block (R225). -/
abbrev rSLU_SKIP_STEPS (i : Nat) : Nat := 0x8040030 + i * 0x100000
/-- SLU_FROZEN of the SC block (R225). -/
abbrev rSLU_FROZEN (i : Nat) : Nat := 0x8040038 + i * 0x100000
/-- SLU_LOG_WAIT of the SC block (R225). -/
abbrev rSLU_LOG_WAIT (i : Nat) : Nat := 0x8040040 + i * 0x100000
/-- SLU_REMOTE of the SC block (R225). -/
abbrev rSLU_REMOTE (i : Nat) : Nat := 0x8040048 + i * 0x100000
/-- SLU_BUSY of the SC block (R225). -/
abbrev rSLU_BUSY (i : Nat) : Nat := 0x8040050 + i * 0x100000
/-- SLU_TOUCH_OOR of the SC block (R225). -/
abbrev rSLU_TOUCH_OOR (i : Nat) : Nat := 0x8040058 + i * 0x100000
/-- SC_SNAP_SHARES of the SC block (R443). -/
abbrev rSC_SNAP_SHARES (i : Nat) : Nat := 0x8050000 + i * 0x100000
/-- SC_SNAP_CYC of the SC block (R443). -/
abbrev rSC_SNAP_CYC (i : Nat) : Nat := 0x8050008 + i * 0x100000
/-- SC_DRG_CTL of the SC block (R468). -/
abbrev rSC_DRG_CTL (i : Nat) : Nat := 0x8060000 + i * 0x100000
abbrev SC_DRG_CTL_EN : Fld := ⟨0, 0⟩
/-- SC_DRG_POS of the SC block (R468). -/
abbrev rSC_DRG_POS (i : Nat) : Nat := 0x8060008 + i * 0x100000
abbrev SC_DRG_POS_LAPS : Fld := ⟨63, 32⟩
abbrev SC_DRG_POS_LINE : Fld := ⟨28, 0⟩
/-- SC_DRG_LAP of the SC block (R468). -/
abbrev rSC_DRG_LAP (i : Nat) : Nat := 0x8060010 + i * 0x100000
/-- SC_DRG_CNT of the SC block (R468). -/
abbrev rSC_DRG_CNT (i : Nat) : Nat := 0x8060018 + i * 0x100000
abbrev SC_DRG_CNT_CE : Fld := ⟨63, 32⟩
abbrev SC_DRG_CNT_UE : Fld := ⟨31, 0⟩
/-- SC_FLIP of the SC block (R468). -/
abbrev rSC_FLIP (i : Nat) : Nat := 0x8060020 + i * 0x100000
abbrev SC_FLIP_ARM : Fld := ⟨63, 63⟩
abbrev SC_FLIP_WORD : Fld := ⟨44, 40⟩
abbrev SC_FLIP_MASK : Fld := ⟨38, 0⟩
/-- SC_BRET of the SC block (R468). -/
abbrev rSC_BRET (i j : Nat) : Nat := 0x8060040 + i * 0x100000 + j * 0x8
abbrev SC_BRET_EN : Fld := ⟨63, 63⟩
abbrev SC_BRET_PC : Fld := ⟨10, 6⟩
abbrev SC_BRET_BANK : Fld := ⟨5, 0⟩
/-- SL_CTL of the SLICE block (R267). -/
abbrev rSL_CTL (i : Nat) : Nat := 0x9000000 + i * 0x1000
abbrev SL_CTL_NLPF : Fld := ⟨9, 9⟩
abbrev SL_CTL_RETAIN_MAX : Fld := ⟨4, 0⟩
/-- SL_OCC of the SLICE block (R267). -/
abbrev rSL_OCC (i : Nat) : Nat := 0x9000008 + i * 0x1000
abbrev SL_OCC_BUF : Fld := ⟨43, 32⟩
abbrev SL_OCC_PC1 : Fld := ⟨25, 16⟩
abbrev SL_OCC_PC0 : Fld := ⟨9, 0⟩
/-- SL_HIT of the SLICE block (R267). -/
abbrev rSL_HIT (i : Nat) : Nat := 0x9000010 + i * 0x1000
/-- SL_MISS of the SLICE block (R267). -/
abbrev rSL_MISS (i : Nat) : Nat := 0x9000018 + i * 0x1000
/-- SL_EVICT of the SLICE block (R267). -/
abbrev rSL_EVICT (i : Nat) : Nat := 0x9000020 + i * 0x1000
abbrev SL_EVICT_STREAM : Fld := ⟨63, 48⟩
abbrev SL_EVICT_SPENT : Fld := ⟨47, 32⟩
abbrev SL_EVICT_NORMAL : Fld := ⟨31, 16⟩
abbrev SL_EVICT_RETAIN : Fld := ⟨15, 0⟩
/-- SL_CAPWAIT of the SLICE block (R267). -/
abbrev rSL_CAPWAIT (i : Nat) : Nat := 0x9000028 + i * 0x1000
/-- SL_BUF_PEAK of the SLICE block (R267). -/
abbrev rSL_BUF_PEAK (i : Nat) : Nat := 0x9000030 + i * 0x1000
/-- SL_PF of the SLICE block (R267). -/
abbrev rSL_PF (i : Nat) : Nat := 0x9000038 + i * 0x1000
/-- LC_INFO of the LC block (R268). -/
abbrev rLC_INFO (i : Nat) : Nat := 0xA000000 + i * 0x100000
abbrev LC_INFO_MTS : Fld := ⟨31, 16⟩
abbrev LC_INFO_GIB : Fld := ⟨15, 0⟩
/-- LC_OCC of the LC block (R268). -/
abbrev rLC_OCC (i : Nat) : Nat := 0xA000008 + i * 0x100000
abbrev LC_OCC_QUEUE : Fld := ⟨31, 0⟩
/-- LC_RD of the LC block (R268). -/
abbrev rLC_RD (i : Nat) : Nat := 0xA000010 + i * 0x100000
/-- LC_WR of the LC block (R268). -/
abbrev rLC_WR (i : Nat) : Nat := 0xA000018 + i * 0x100000
/-- LC_CAPWAIT of the LC block (R268). -/
abbrev rLC_CAPWAIT (i : Nat) : Nat := 0xA000020 + i * 0x100000
/-- LC_MIG of the LC block (R268). -/
abbrev rLC_MIG (i : Nat) : Nat := 0xA000028 + i * 0x100000
/-- LC_DRG_CTL of the LC block (R468). -/
abbrev rLC_DRG_CTL (i : Nat) : Nat := 0xA010000 + i * 0x100000
/-- LC_DRG_POS of the LC block (R468). -/
abbrev rLC_DRG_POS (i : Nat) : Nat := 0xA010008 + i * 0x100000
/-- LC_DRG_LAP of the LC block (R468). -/
abbrev rLC_DRG_LAP (i : Nat) : Nat := 0xA010010 + i * 0x100000
/-- LC_DRG_CNT of the LC block (R468). -/
abbrev rLC_DRG_CNT (i : Nat) : Nat := 0xA010018 + i * 0x100000
/-- LC_FLIP of the LC block (R468). -/
abbrev rLC_FLIP (i : Nat) : Nat := 0xA010020 + i * 0x100000
/-- HL_RANGE of the WEIR block (R365). -/
abbrev rHL_RANGE : Nat := 0xB000000
abbrev HL_RANGE_EN : Fld := ⟨63, 63⟩
abbrev HL_RANGE_LAST : Fld := ⟨35, 18⟩
abbrev HL_RANGE_FIRST : Fld := ⟨17, 0⟩
/-- WEIR_CTL of the WEIR block (R365). -/
abbrev rWEIR_CTL : Nat := 0xB000008
abbrev WEIR_CTL_LOCK : Fld := ⟨0, 0⟩
/-- WR_XBYTES_WE of the WEIR block (R365). -/
abbrev rWR_XBYTES_WE : Nat := 0xB000010
/-- WR_XBYTES_EW of the WEIR block (R365). -/
abbrev rWR_XBYTES_EW : Nat := 0xB000018
/-- WR_XSTALL of the WEIR block (R365). -/
abbrev rWR_XSTALL : Nat := 0xB000020
/-- CN_CTL of the CANAL block (R365). -/
abbrev rCN_CTL : Nat := 0xB100000
abbrev CN_CTL_LOCK : Fld := ⟨0, 0⟩
/-- CN_NACK of the CANAL block (R365). -/
abbrev rCN_NACK : Nat := 0xB100008
abbrev CN_NACK_BADOP : Fld := ⟨63, 48⟩
abbrev CN_NACK_FOREIGN : Fld := ⟨47, 24⟩
abbrev CN_NACK_NO_DEST : Fld := ⟨23, 0⟩
/-- CN_DETOUR of the CANAL block (R365). -/
abbrev rCN_DETOUR : Nat := 0xB100010
/-- CN_BCAST of the CANAL block (R365). -/
abbrev rCN_BCAST : Nat := 0xB100018
/-- RT_CFG of the CANAL block (R365). -/
abbrev rRT_CFG (j : Nat) : Nat := 0xB101000 + j * 0x8
abbrev RT_CFG_DEAD : Fld := ⟨63, 63⟩
abbrev RT_CFG_DET_N : Fld := ⟨7, 6⟩
abbrev RT_CFG_DET_E : Fld := ⟨5, 4⟩
abbrev RT_CFG_DET_S : Fld := ⟨3, 2⟩
abbrev RT_CFG_DET_W : Fld := ⟨1, 0⟩
/-- RT_BUSY of the CANAL block (R365). -/
abbrev rRT_BUSY (j : Nat) : Nat := 0xB103000 + j * 0x8
abbrev RT_BUSY_N : Fld := ⟨63, 48⟩
abbrev RT_BUSY_E : Fld := ⟨47, 32⟩
abbrev RT_BUSY_S : Fld := ⟨31, 16⟩
abbrev RT_BUSY_W : Fld := ⟨15, 0⟩
/-- SP_STAT of the SPLICE block (R365). -/
abbrev rSP_STAT : Nat := 0xB200000
abbrev SP_STAT_SB_UP : Fld := ⟨2, 2⟩
abbrev SP_STAT_CANAL_UP : Fld := ⟨1, 1⟩
abbrev SP_STAT_WEIR_UP : Fld := ⟨0, 0⟩
/-- SP_CANAL_STALL of the SPLICE block (R365). -/
abbrev rSP_CANAL_STALL : Nat := 0xB200008
/-- SP_ERR of the SPLICE block (R365). -/
abbrev rSP_ERR : Nat := 0xB200010
abbrev SP_ERR_CORR : Fld := ⟨63, 32⟩
abbrev SP_ERR_UNCORR : Fld := ⟨31, 0⟩
/-- LG_BASE of the LEDGER block (R266). -/
abbrev rLG_BASE : Nat := 0xB300000
abbrev LG_BASE_BASE : Fld := ⟨47, 24⟩
/-- LG_CTL of the LEDGER block (R266). -/
abbrev rLG_CTL : Nat := 0xB300008
abbrev LG_CTL_LOCK : Fld := ⟨0, 0⟩
/-- CMEM_CFG of the LEDGER block (R266). -/
abbrev rCMEM_CFG (j : Nat) : Nat := 0xB300100 + j * 0x40
abbrev CMEM_CFG_SPAD_VBASE : Fld := ⟨47, 20⟩
abbrev CMEM_CFG_SPAD_SIZE : Fld := ⟨2, 0⟩
/-- CW_VBASE of the LEDGER block (R266). -/
abbrev rCW_VBASE (j : Nat) : Nat := 0xB300108 + j * 0x40
abbrev CW_VBASE_VBASE : Fld := ⟨47, 21⟩
abbrev CW_VBASE_WR : Fld := ⟨1, 1⟩
abbrev CW_VBASE_EN : Fld := ⟨0, 0⟩
/-- CW_PBASE of the LEDGER block (R266). -/
abbrev rCW_PBASE (j : Nat) : Nat := 0xB300110 + j * 0x40
abbrev CW_PBASE_PBASE : Fld := ⟨45, 21⟩
/-- CW_SIZE of the LEDGER block (R266). -/
abbrev rCW_SIZE (j : Nat) : Nat := 0xB300118 + j * 0x40
abbrev CW_SIZE_SIZE : Fld := ⟨45, 21⟩
/-- PF_CTL of the LEDGER block (R266). -/
abbrev rPF_CTL (j : Nat) : Nat := 0xB300120 + j * 0x40
abbrev PF_CTL_DIST : Fld := ⟨7, 4⟩
abbrev PF_CTL_L1PF : Fld := ⟨0, 0⟩
/-- LG_WALKS of the LEDGER block (R266). -/
abbrev rLG_WALKS (j : Nat) : Nat := 0xB300300 + j * 0x20
/-- LG_XFAULT of the LEDGER block (R266). -/
abbrev rLG_XFAULT (j : Nat) : Nat := 0xB300308 + j * 0x20
abbrev LG_XFAULT_LONGCHAIN : Fld := ⟨63, 32⟩
abbrev LG_XFAULT_FAIL : Fld := ⟨31, 0⟩
/-- LG_SPILL of the LEDGER block (R266). -/
abbrev rLG_SPILL (j : Nat) : Nat := 0xB300310 + j * 0x20
/-- PF_DROP of the LEDGER block (R266). -/
abbrev rPF_DROP (j : Nat) : Nat := 0xB300318 + j * 0x20
abbrev PF_DROP_UNMAPPED : Fld := ⟨63, 48⟩
abbrev PF_DROP_NOT_P : Fld := ⟨47, 32⟩
abbrev PF_DROP_RETIRED : Fld := ⟨31, 16⟩
abbrev PF_DROP_FOREIGN : Fld := ⟨15, 0⟩
/-- LE_FRAME of the LEDGER block (R266). -/
abbrev rLE_FRAME (j : Nat) : Nat := 0xB301000 + j * 0x100
abbrev LE_FRAME_FRAME2 : Fld := ⟨39, 20⟩
abbrev LE_FRAME_FRAME : Fld := ⟨19, 0⟩
/-- LE_VPN of the LEDGER block (R266). -/
abbrev rLE_VPN (j : Nat) : Nat := 0xB301008 + j * 0x100
abbrev LE_VPN_VPN : Fld := ⟨47, 21⟩
/-- LE_ARG of the LEDGER block (R266). -/
abbrev rLE_ARG (j : Nat) : Nat := 0xB301010 + j * 0x100
abbrev LE_ARG_RSV : Fld := ⟨19, 19⟩
abbrev LE_ARG_PART : Fld := ⟨18, 16⟩
abbrev LE_ARG_TIER : Fld := ⟨10, 10⟩
abbrev LE_ARG_LOC : Fld := ⟨9, 8⟩
abbrev LE_ARG_FLAGS : Fld := ⟨5, 0⟩
/-- LE_CMD of the LEDGER block (R266). -/
abbrev rLE_CMD (j : Nat) : Nat := 0xB301018 + j * 0x100
abbrev LE_CMD_OP : Fld := ⟨3, 0⟩
/-- LE_STAT of the LEDGER block (R266). -/
abbrev rLE_STAT (j : Nat) : Nat := 0xB301020 + j * 0x100
abbrev LE_STAT_CODE : Fld := ⟨11, 8⟩
abbrev LE_STAT_FAIL : Fld := ⟨1, 1⟩
abbrev LE_STAT_BUSY : Fld := ⟨0, 0⟩
/-- LE_DATA0 of the LEDGER block (R266). -/
abbrev rLE_DATA0 (j : Nat) : Nat := 0xB301028 + j * 0x100
/-- LE_DATA1 of the LEDGER block (R266). -/
abbrev rLE_DATA1 (j : Nat) : Nat := 0xB301030 + j * 0x100
/-- GAUGE_BASE of the GAUGE block (R165). -/
abbrev rGAUGE_BASE : Nat := 0xB400000
abbrev GAUGE_BASE_BASE : Fld := ⟨47, 23⟩
/-- GAUGE_CTL of the GAUGE block (R165). -/
abbrev rGAUGE_CTL : Nat := 0xB400008
abbrev GAUGE_CTL_LOCK : Fld := ⟨0, 0⟩
/-- GRANGE of the GAUGE block (R165). -/
abbrev rGRANGE (j : Nat) : Nat := 0xB400010 + j * 0x8
abbrev GRANGE_EN : Fld := ⟨32, 32⟩
abbrev GRANGE_HI : Fld := ⟨31, 16⟩
abbrev GRANGE_LO : Fld := ⟨15, 0⟩
/-- GROLL_STAT of the GAUGE block (R166). -/
abbrev rGROLL_STAT : Nat := 0xB400050
abbrev GROLL_STAT_ROLLED : Fld := ⟨63, 32⟩
abbrev GROLL_STAT_SKIPPED : Fld := ⟨31, 0⟩
/-- GAUGE_ERR of the GAUGE block (R166). -/
abbrev rGAUGE_ERR : Nat := 0xB400058
abbrev GAUGE_ERR_LAST_TAG : Fld := ⟨63, 48⟩
abbrev GAUGE_ERR_COUNT : Fld := ⟨31, 0⟩
/-- GE_INDEX of the GAUGE block (R166). -/
abbrev rGE_INDEX (j : Nat) : Nat := 0xB401000 + j * 0x100
abbrev GE_INDEX_TAG : Fld := ⟨15, 0⟩
/-- GE_CMD of the GAUGE block (R166). -/
abbrev rGE_CMD (j : Nat) : Nat := 0xB401008 + j * 0x100
abbrev GE_CMD_WMASK : Fld := ⟨31, 16⟩
abbrev GE_CMD_OP : Fld := ⟨1, 0⟩
/-- GE_STAT of the GAUGE block (R166). -/
abbrev rGE_STAT (j : Nat) : Nat := 0xB401010 + j * 0x100
abbrev GE_STAT_FAIL : Fld := ⟨1, 1⟩
abbrev GE_STAT_BUSY : Fld := ⟨0, 0⟩
/-- SR_SEED of the GAUGE block (R166). -/
abbrev rSR_SEED (j : Nat) : Nat := 0xB401018 + j * 0x100
/-- GE_DATA of the GAUGE block (R166). -/
abbrev rGE_DATA (j k : Nat) : Nat := 0xB401040 + j * 0x100 + k * 0x8
/-- CK of the CHIPKNOT block (R337). -/
abbrev rCK (j : Nat) : Nat := 0xC000000 + j * 0x8
abbrev CK_PART : Fld := ⟨63, 61⟩
abbrev CK_IEN : Fld := ⟨60, 60⟩
abbrev CK_KIND : Fld := ⟨59, 58⟩
abbrev CK_ICORE : Fld := ⟨57, 48⟩
abbrev CK_BOUND : Fld := ⟨47, 32⟩
abbrev CK_COUNT : Fld := ⟨31, 0⟩
/-- HT_CFG of the HITCH block (R338). -/
abbrev rHT_CFG (j : Nat) : Nat := 0xC100000 + j * 0x20
abbrev HT_CFG_EN : Fld := ⟨63, 63⟩
abbrev HT_CFG_XMOD : Fld := ⟨62, 62⟩
abbrev HT_CFG_IEN : Fld := ⟨61, 61⟩
abbrev HT_CFG_KEN : Fld := ⟨60, 60⟩
abbrev HT_CFG_PART : Fld := ⟨59, 57⟩
abbrev HT_CFG_MASK : Fld := ⟨56, 52⟩
abbrev HT_CFG_XG : Fld := ⟨51, 44⟩
abbrev HT_CFG_COUNT : Fld := ⟨9, 0⟩
/-- HT_STAT of the HITCH block (R338). -/
abbrev rHT_STAT (j : Nat) : Nat := 0xC100008 + j * 0x20
abbrev HT_STAT_STATE : Fld := ⟨63, 62⟩
abbrev HT_STAT_GEN : Fld := ⟨47, 32⟩
abbrev HT_STAT_WAITERS : Fld := ⟨27, 16⟩
abbrev HT_STAT_ARRIVED : Fld := ⟨9, 0⟩
/-- HT_KNOT of the HITCH block (R338). -/
abbrev rHT_KNOT (j : Nat) : Nat := 0xC100010 + j * 0x20
abbrev HT_KNOT_KNOT : Fld := ⟨44, 32⟩
abbrev HT_KNOT_N : Fld := ⟨31, 0⟩
/-- HM_WORD of the HITCH block (R338). -/
abbrev rHM_WORD (j k : Nat) : Nat := 0xC101000 + j * 0x80 + k * 0x8
/-- KH_HUB of the HITCH block (R338). -/
abbrev rKH_HUB : Nat := 0xC102000
abbrev KH_HUB_MISUSE : Fld := ⟨47, 32⟩
abbrev KH_HUB_WRAP_USED : Fld := ⟨8, 0⟩
/-- HT_DONE of the HITCH block (R338). -/
abbrev rHT_DONE : Nat := 0xC102008
/-- KN_OPS of the HITCH block (R338). -/
abbrev rKN_OPS : Nat := 0xC102010
/-- HW_STAT of the HAWSER block (R394). -/
abbrev rHW_STAT (i : Nat) : Nat := 0xD000000 + i * 0x100000
abbrev HW_STAT_STATE : Fld := ⟨63, 61⟩
abbrev HW_STAT_NBR_OK : Fld := ⟨60, 60⟩
abbrev HW_STAT_NBR_MOD : Fld := ⟨55, 43⟩
abbrev HW_STAT_NBR_PORT : Fld := ⟨42, 40⟩
abbrev HW_STAT_RX_LANES : Fld := ⟨15, 8⟩
abbrev HW_STAT_TX_LANES : Fld := ⟨7, 0⟩
/-- HW_CTL of the HAWSER block (R394). -/
abbrev rHW_CTL (i : Nat) : Nat := 0xD000008 + i * 0x100000
abbrev HW_CTL_RTO : Fld := ⟨63, 48⟩
abbrev HW_CTL_RETRY_MAX : Fld := ⟨47, 44⟩
abbrev HW_CTL_LANE_EN : Fld := ⟨15, 8⟩
abbrev HW_CTL_DOWN : Fld := ⟨1, 1⟩
abbrev HW_CTL_TRAIN : Fld := ⟨0, 0⟩
/-- HW_KEYS of the HAWSER block (R394). -/
abbrev rHW_KEYS (i : Nat) : Nat := 0xD000010 + i * 0x100000
abbrev HW_KEYS_LOADED : Fld := ⟨8, 0⟩
/-- HW_TXSEQ of the HAWSER block (R394). -/
abbrev rHW_TXSEQ (i : Nat) : Nat := 0xD000018 + i * 0x100000
/-- HW_TX of the HAWSER block (R394). -/
abbrev rHW_TX (i : Nat) : Nat := 0xD000020 + i * 0x100000
/-- HW_RX of the HAWSER block (R394). -/
abbrev rHW_RX (i : Nat) : Nat := 0xD000028 + i * 0x100000
/-- HW_RETX of the HAWSER block (R394). -/
abbrev rHW_RETX (i : Nat) : Nat := 0xD000030 + i * 0x100000
/-- HW_FEC of the HAWSER block (R394). -/
abbrev rHW_FEC (i : Nat) : Nat := 0xD000038 + i * 0x100000
abbrev HW_FEC_CORR : Fld := ⟨63, 32⟩
abbrev HW_FEC_UNCORR : Fld := ⟨31, 0⟩
/-- HW_AUTH of the HAWSER block (R394). -/
abbrev rHW_AUTH (i : Nat) : Nat := 0xD000040 + i * 0x100000
/-- HW_DROP of the HAWSER block (R394). -/
abbrev rHW_DROP (i : Nat) : Nat := 0xD000048 + i * 0x100000
abbrev HW_DROP_SEQ : Fld := ⟨63, 32⟩
abbrev HW_DROP_NBR : Fld := ⟨31, 0⟩
/-- HC_CFG of the HAWSER block (R394). -/
abbrev rHC_CFG (i j : Nat) : Nat := 0xD001038 + i * 0x100000 + j * 0x40
abbrev HC_CFG_ICORE : Fld := ⟨29, 20⟩
abbrev HC_CFG_PART : Fld := ⟨18, 16⟩
abbrev HC_CFG_DMOD : Fld := ⟨12, 0⟩
/-- HC_IRQ of the HAWSER block (R394). -/
abbrev rHC_IRQ (i : Nat) : Nat := 0xD001400 + i * 0x100000
abbrev HC_IRQ_ERR : Fld := ⟨31, 16⟩
abbrev HC_IRQ_DONE : Fld := ⟨15, 0⟩
/-- HC_HEAD of the HAWSER block (R394). -/
abbrev rHC_HEAD (i j : Nat) : Nat := 0xD001000 + i * 0x100000 + j * 0x40
/-- HC_COUNT of the HAWSER block (R394). -/
abbrev rHC_COUNT (i j : Nat) : Nat := 0xD001008 + i * 0x100000 + j * 0x40
/-- HC_STAT of the HAWSER block (R394). -/
abbrev rHC_STAT (i j : Nat) : Nat := 0xD001010 + i * 0x100000 + j * 0x40
/-- HC_ERRADDR of the HAWSER block (R394). -/
abbrev rHC_ERRADDR (i j : Nat) : Nat := 0xD001018 + i * 0x100000 + j * 0x40
/-- HC_CTL of the HAWSER block (R394). -/
abbrev rHC_CTL (i j : Nat) : Nat := 0xD001020 + i * 0x100000 + j * 0x40
/-- HC_DONE of the HAWSER block (R394). -/
abbrev rHC_DONE (i j : Nat) : Nat := 0xD001028 + i * 0x100000 + j * 0x40
/-- HC_BYTES of the HAWSER block (R394). -/
abbrev rHC_BYTES (i j : Nat) : Nat := 0xD001030 + i * 0x100000 + j * 0x40
/-- CAP_DIM of the CAPSTAN block (R394). -/
abbrev rCAP_DIM (j : Nat) : Nat := 0xD800000 + j * 0x8
abbrev CAP_DIM_EN : Fld := ⟨63, 63⟩
abbrev CAP_DIM_POS : Fld := ⟨9, 5⟩
abbrev CAP_DIM_SIZE : Fld := ⟨4, 0⟩
/-- CAP_MODID of the CAPSTAN block (R394). -/
abbrev rCAP_MODID : Nat := 0xD800020
abbrev CAP_MODID_ID : Fld := ⟨12, 0⟩
/-- CAP_CTL of the CAPSTAN block (R394). -/
abbrev rCAP_CTL : Nat := 0xD800028
abbrev CAP_CTL_TMO : Fld := ⟨63, 32⟩
abbrev CAP_CTL_DLIC : Fld := ⟨2, 0⟩
/-- CAP_DOORBELL of the CAPSTAN block (R394). -/
abbrev rCAP_DOORBELL : Nat := 0xD800030
abbrev CAP_DOORBELL_DESC : Fld := ⟨47, 6⟩
abbrev CAP_DOORBELL_PART : Fld := ⟨2, 0⟩
/-- CAP_RQ of the CAPSTAN block (R394). -/
abbrev rCAP_RQ : Nat := 0xD800038
abbrev CAP_RQ_STATE : Fld := ⟨63, 62⟩
abbrev CAP_RQ_NF : Fld := ⟨61, 61⟩
abbrev CAP_RQ_PART : Fld := ⟨34, 32⟩
abbrev CAP_RQ_CSEQ : Fld := ⟨31, 0⟩
/-- CAP_DONE of the CAPSTAN block (R394). -/
abbrev rCAP_DONE : Nat := 0xD800040
/-- CAP_NFCOLL of the CAPSTAN block (R394). -/
abbrev rCAP_NFCOLL : Nat := 0xD800048
/-- CAP_FAILS of the CAPSTAN block (R394). -/
abbrev rCAP_FAILS : Nat := 0xD800050
/-- CAP_XSMIS of the CAPSTAN block (R394). -/
abbrev rCAP_XSMIS : Nat := 0xD800058
/-- CAP_BYTES of the CAPSTAN block (R394). -/
abbrev rCAP_BYTES : Nat := 0xD800060
/-- CAP_GRP of the CAPSTAN block (R394). -/
abbrev rCAP_GRP (j : Nat) : Nat := 0xD801000 + j * 0x8
abbrev CAP_GRP_EN : Fld := ⟨63, 63⟩
abbrev CAP_GRP_PART : Fld := ⟨62, 60⟩
abbrev CAP_GRP_DIMS : Fld := ⟨59, 56⟩
abbrev CAP_GRP_QUEUE : Fld := ⟨51, 48⟩
abbrev CAP_GRP_CODE : Fld := ⟨44, 40⟩
abbrev CAP_GRP_STATE : Fld := ⟨1, 0⟩
/-- SPW of the SPILLWAY block (R394). -/
abbrev rSPW (j : Nat) : Nat := 0xD900000 + j * 0x8
abbrev SPW_POS : Fld := ⟨63, 62⟩
abbrev SPW_FORCE : Fld := ⟨61, 61⟩
abbrev SPW_CAUSE : Fld := ⟨55, 52⟩
abbrev SPW_COUNT : Fld := ⟨31, 8⟩
abbrev SPW_CMD : Fld := ⟨1, 0⟩
/-- TT_STAT of the TETHER block (R422). -/
abbrev rTT_STAT : Nat := 0xE000000
abbrev TT_STAT_SL0 : Fld := ⟨63, 61⟩
abbrev TT_STAT_SL1 : Fld := ⟨60, 58⟩
abbrev TT_STAT_WIDTH : Fld := ⟨57, 56⟩
abbrev TT_STAT_LOST : Fld := ⟨55, 55⟩
/-- TT_CTL of the TETHER block (R422). -/
abbrev rTT_CTL : Nat := 0xE000008
abbrev TT_CTL_TMO : Fld := ⟨63, 32⟩
abbrev TT_CTL_RETRY_MAX : Fld := ⟨31, 28⟩
abbrev TT_CTL_WRESET : Fld := ⟨2, 2⟩
abbrev TT_CTL_DOWN : Fld := ⟨1, 1⟩
abbrev TT_CTL_TRAIN : Fld := ⟨0, 0⟩
/-- TT_PARTACC of the TETHER block (R422). -/
abbrev rTT_PARTACC : Nat := 0xE000010
abbrev TT_PARTACC_CACHE : Fld := ⟨15, 8⟩
abbrev TT_PARTACC_ACC : Fld := ⟨7, 0⟩
/-- TT_LOSTCNT of the TETHER block (R422). -/
abbrev rTT_LOSTCNT : Nat := 0xE000018
/-- TT_LOSTADDR of the TETHER block (R422). -/
abbrev rTT_LOSTADDR : Nat := 0xE000020
abbrev TT_LOSTADDR_ADDR : Fld := ⟨47, 7⟩
/-- TT_CRC of the TETHER block (R422). -/
abbrev rTT_CRC : Nat := 0xE000028
abbrev TT_CRC_SL1 : Fld := ⟨63, 32⟩
abbrev TT_CRC_SL0 : Fld := ⟨31, 0⟩
/-- TT_RETRAIN of the TETHER block (R422). -/
abbrev rTT_RETRAIN : Nat := 0xE000030
abbrev TT_RETRAIN_SL1 : Fld := ⟨63, 32⟩
abbrev TT_RETRAIN_SL0 : Fld := ⟨31, 0⟩
/-- TT_SNOOP of the TETHER block (R422). -/
abbrev rTT_SNOOP : Nat := 0xE000038
/-- TT_SFBI of the TETHER block (R422). -/
abbrev rTT_SFBI : Nat := 0xE000040
/-- TT_TMO of the TETHER block (R422). -/
abbrev rTT_TMO : Nat := 0xE000048
abbrev TT_TMO_LATE : Fld := ⟨63, 32⟩
abbrev TT_TMO_REQ : Fld := ⟨31, 0⟩
/-- TT_ACCERR of the TETHER block (R422). -/
abbrev rTT_ACCERR : Nat := 0xE000050
abbrev TT_ACCERR_COUNT : Fld := ⟨63, 48⟩
abbrev TT_ACCERR_ADDR : Fld := ⟨47, 7⟩
/-- TT_PROTO of the TETHER block (R422). -/
abbrev rTT_PROTO : Nat := 0xE000058
/-- TT_PFSKIP of the TETHER block (R422). -/
abbrev rTT_PFSKIP : Nat := 0xE000060
/-- TT_MSIS of the TETHER block (R422). -/
abbrev rTT_MSIS : Nat := 0xE000068
/-- TT_CWBASE of the TETHER block (R422). -/
abbrev rTT_CWBASE (j : Nat) : Nat := 0xE000100 + j * 0x10
abbrev TT_CWBASE_BASE : Fld := ⟨45, 21⟩
abbrev TT_CWBASE_CACHE : Fld := ⟨2, 2⟩
abbrev TT_CWBASE_WR : Fld := ⟨1, 1⟩
abbrev TT_CWBASE_EN : Fld := ⟨0, 0⟩
/-- TT_CWSIZE of the TETHER block (R422). -/
abbrev rTT_CWSIZE (j : Nat) : Nat := 0xE000108 + j * 0x10
abbrev TT_CWSIZE_SIZE : Fld := ⟨45, 21⟩
/-- TT_MSI of the TETHER block (R422). -/
abbrev rTT_MSI (j : Nat) : Nat := 0xE000200 + j * 0x8
abbrev TT_MSI_VECTOR : Fld := ⟨31, 0⟩
/-- MB_IN of the TETHER block (R422). -/
abbrev rMB_IN (j k : Nat) : Nat := 0xE001000 + j * 0x1000 + k * 0x8
/-- MB_OUT of the TETHER block (R422). -/
abbrev rMB_OUT (j k : Nat) : Nat := 0xE001100 + j * 0x1000 + k * 0x8
/-- MB_CTL of the TETHER block (R422). -/
abbrev rMB_CTL (j : Nat) : Nat := 0xE001200 + j * 0x1000
abbrev MB_CTL_OUT_VEC : Fld := ⟨63, 32⟩
abbrev MB_CTL_IN_DOOR : Fld := ⟨3, 3⟩
abbrev MB_CTL_OUT_DOOR : Fld := ⟨2, 2⟩
abbrev MB_CTL_OUT_FULL : Fld := ⟨1, 1⟩
abbrev MB_CTL_IN_FULL : Fld := ⟨0, 0⟩

end Sys2Proof.Machine
end

