-- ==== Sys2Proof/Machine/Bits.lean ====
section
/-! DEFINITION. Bit-field helpers (R7, R8): reading and writing fields, sign extension, byte access, counting. -/

namespace Sys2Proof.Machine

/-- Bits hi:lo of a natural number. -/
def bits (x hi lo : Nat) : Nat := (x >>> lo) % 2 ^ (hi + 1 - lo)

/-- Bit i of a natural number. -/
def bit (x i : Nat) : Bool := bits x i i == 1

/-- A Bool as 0 or 1. -/
def b2n (b : Bool) : Nat := if b then 1 else 0

/-- The mask of bits hi:lo. -/
def fmask (f : Fld) : Nat := (2 ^ (f.hi + 1 - f.lo) - 1) <<< f.lo

/-- Field `f` of a register value. -/
def fget (v : Word) (f : Fld) : Nat := bits v.toNat f.hi f.lo

/-- Is a one-bit field set. -/
def fbit (v : Word) (f : Fld) : Bool := fget v f != 0

/-- Register value with field `f` replaced by `x` (its low bits). -/
def fset (v : Word) (f : Fld) (x : Nat) : Word :=
  (v &&& ~~~ (BitVec.ofNat 64 (fmask f))) ||| (BitVec.ofNat 64 (x <<< f.lo) &&& BitVec.ofNat 64 (fmask f))

/-- Register value with a one-bit field replaced. -/
def fsetB (v : Word) (f : Fld) (b : Bool) : Word := fset v f (b2n b)

/-- The largest value of a field. -/
def fmax (f : Fld) : Nat := 2 ^ (f.hi + 1 - f.lo) - 1

/-- Register value with `n` added to a field that saturates. -/
def faddSat (v : Word) (f : Fld) (n : Nat) : Word := fset v f (min (fget v f + n) (fmax f))

/-- Register value with `n` added to a field that wraps. -/
def fincr (v : Word) (f : Fld) (n : Nat) : Word := fset v f (fget v f + n)

/-- Two's complement of the low `w` bits of `x`. -/
def sext (w x : Nat) : Int :=
  let y := x % 2 ^ w
  if y < 2 ^ (w - 1) then (y : Int) else (y : Int) - (2 : Int) ^ w

/-- A signed number as a 64-bit word. -/
def w64 (x : Int) : Word := BitVec.ofInt 64 x

/-- Natural number as a 64-bit word. -/
def n64 (x : Nat) : Word := BitVec.ofNat 64 x

/-- Byte i of a natural number read little-endian (R7). -/
def byteOf (x i : Nat) : Byte := BitVec.ofNat 8 (x >>> (8 * i))

/-- The number spelled by bytes, lowest address first (R7). -/
def leNat : List Byte → Nat
  | [] => 0
  | b :: r => b.toNat + 256 * leNat r

/-- The `n` low bytes of `x`, lowest first. -/
def leBytes : Nat → Nat → List Byte
  | 0, _ => []
  | n + 1, x => BitVec.ofNat 8 x :: leBytes n (x / 256)

/-- Number of set bits among the low `w` bits. -/
def popc : Nat → Nat → Nat
  | 0, _ => 0
  | w + 1, x => x % 2 + popc w (x / 2)

/-- Number of zero bits above the highest set bit among the low `w` bits. -/
def clz : Nat → Nat → Nat
  | 0, _ => 0
  | w + 1, x => if x.testBit w then 0 else 1 + clz w x

/-- Number of zero bits below the lowest set bit among the low `w` bits. -/
def ctz : Nat → Nat → Nat
  | 0, _ => 0
  | w + 1, x => if x % 2 = 1 then 0 else 1 + ctz w (x / 2)

/-- Exclusive or of numbers. -/
def nxor (a b : Nat) : Nat := Nat.xor a b

/-- 32-bit element i of a wide value. -/
def el32 {w : Nat} (v : BitVec w) (i : Nat) : W32 := v.extractLsb' (32 * i) 32

/-- Element i of width `ew` of a wide value. -/
def elW {w : Nat} (ew : Nat) (v : BitVec w) (i : Nat) : Nat := bits v.toNat (ew * i + ew - 1) (ew * i)

/-- The value made of `n` elements of width `ew`, element 0 in the low bits. -/
def packEls (w ew : Nat) (f : Nat → Nat) : Nat → BitVec w
  | 0 => 0
  | n + 1 => packEls w ew f n ||| BitVec.ofNat w ((f n % 2 ^ ew) <<< (ew * n))

/-- Ceiling division. -/
def cdiv (a b : Nat) : Nat := (a + b - 1) / b

end Sys2Proof.Machine
end

