-- ==== Sys2Proof/Machine/Sha.lean ====
section
/-! DEFINITION. SHA-256, which R424, R438, R474, R478 and R481 name and do not spell out: taken from FIPS 180-4
(PRESUMED, log 46). -/

namespace Sys2Proof.Machine

/-- A sum of words, kept to 32 bits. -/
def w32 (x : Nat) : Nat := x % 4294967296

/-- Rotate a 32-bit word right; words are numbers below 2^32. -/
def rotr (x n : Nat) : Nat := (x >>> n) ||| w32 (x <<< (32 - n))

/-- The initial hash value. -/
def shaInit : List Nat := [0x6a09e667, 0xbb67ae85, 0x3c6ef372, 0xa54ff53a, 0x510e527f, 0x9b05688c, 0x1f83d9ab, 0x5be0cd19]

/-- The round constants. -/
def shaK : List Nat :=
  [0x428a2f98, 0x71374491, 0xb5c0fbcf, 0xe9b5dba5, 0x3956c25b, 0x59f111f1, 0x923f82a4, 0xab1c5ed5] ++
  [0xd807aa98, 0x12835b01, 0x243185be, 0x550c7dc3, 0x72be5d74, 0x80deb1fe, 0x9bdc06a7, 0xc19bf174] ++
  [0xe49b69c1, 0xefbe4786, 0x0fc19dc6, 0x240ca1cc, 0x2de92c6f, 0x4a7484aa, 0x5cb0a9dc, 0x76f988da] ++
  [0x983e5152, 0xa831c66d, 0xb00327c8, 0xbf597fc7, 0xc6e00bf3, 0xd5a79147, 0x06ca6351, 0x14292967] ++
  [0x27b70a85, 0x2e1b2138, 0x4d2c6dfc, 0x53380d13, 0x650a7354, 0x766a0abb, 0x81c2c92e, 0x92722c85] ++
  [0xa2bfe8a1, 0xa81a664b, 0xc24b8b70, 0xc76c51a3, 0xd192e819, 0xd6990624, 0xf40e3585, 0x106aa070] ++
  [0x19a4c116, 0x1e376c08, 0x2748774c, 0x34b0bcb5, 0x391c0cb3, 0x4ed8aa4a, 0x5b9cca4f, 0x682e6ff3] ++
  [0x748f82ee, 0x78a5636f, 0x84c87814, 0x8cc70208, 0x90befffa, 0xa4506ceb, 0xbef9a3f7, 0xc67178f2]

/-- Big-endian word of four bytes. -/
def beW (a b c d : Byte) : Nat := ((a.toNat * 256 + b.toNat) * 256 + c.toNat) * 256 + d.toNat

/-- The words that bytes spell, most significant byte first. -/
def beWords : List Byte → List Nat
  | a :: b :: c :: d :: r => beW a b c d :: beWords r
  | _ => []

/-- The bytes of words, most significant first. -/
def beBytes : List Nat → List Byte
  | [] => []
  | x :: r =>
    [BitVec.ofNat 8 (x / 16777216), BitVec.ofNat 8 (x / 65536), BitVec.ofNat 8 (x / 256), BitVec.ofNat 8 x] ++ beBytes r

/-- Extend the message schedule, newest word first, by `n` words. -/
def shaSched : Nat → List Nat → List Nat
  | 0, w => w
  | n + 1, w =>
    let w15 := w.getD 14 0
    let w2 := w.getD 1 0
    let s0 := rotr w15 7 ^^^ rotr w15 18 ^^^ (w15 >>> 3)
    let s1 := rotr w2 17 ^^^ rotr w2 19 ^^^ (w2 >>> 10)
    shaSched n (w32 (w.getD 15 0 + s0 + w.getD 6 0 + s1) :: w)

/-- The working variables a-h. -/
structure ShaV where
  a : Nat
  b : Nat
  c : Nat
  d : Nat
  e : Nat
  f : Nat
  g : Nat
  h : Nat
  deriving DecidableEq, Repr

/-- The rounds over constants and schedule words. -/
def shaRounds : List Nat → List Nat → ShaV → ShaV
  | k :: ks, w :: ws, v =>
    let s1 := rotr v.e 6 ^^^ rotr v.e 11 ^^^ rotr v.e 25
    let ch := (v.e &&& v.f) ^^^ ((4294967295 ^^^ v.e) &&& v.g)
    let t1 := v.h + s1 + ch + k + w
    let s0 := rotr v.a 2 ^^^ rotr v.a 13 ^^^ rotr v.a 22
    let mj := (v.a &&& v.b) ^^^ (v.a &&& v.c) ^^^ (v.b &&& v.c)
    shaRounds ks ws { a := w32 (t1 + s0 + mj), b := v.a, c := v.b, d := v.c, e := w32 (v.d + t1), f := v.e, g := v.f, h := v.g }
  | _, _, v => v

/-- The hash value after one block. -/
def shaBlock (hv blk : List Nat) : List Nat :=
  let at' := fun i => hv.getD i 0
  let v := shaRounds shaK (shaSched 48 blk.reverse).reverse
    { a := at' 0, b := at' 1, c := at' 2, d := at' 3, e := at' 4, f := at' 5, g := at' 6, h := at' 7 }
  [w32 (at' 0 + v.a), w32 (at' 1 + v.b), w32 (at' 2 + v.c), w32 (at' 3 + v.d), w32 (at' 4 + v.e), w32 (at' 5 + v.f), w32 (at' 6 + v.g),
    w32 (at' 7 + v.h)]

/-- The hash value after `n` blocks of 16 words. -/
def shaBlocks : Nat → List Nat → List Nat → List Nat
  | 0, _, hv => hv
  | n + 1, ws, hv => shaBlocks n (ws.drop 16) (shaBlock hv (ws.take 16))

/-- SHA-256 of bytes: 32 bytes. -/
def sha256 (m : List Byte) : List Byte :=
  let n := m.length
  let z := (119 - n % 64) % 64
  let padded := m ++ [0x80#8] ++ List.replicate z 0 ++ (leBytes 8 (8 * n)).reverse
  beBytes (shaBlocks (padded.length / 64) (beWords padded) shaInit)

end Sys2Proof.Machine
end

