-- ==== Sys2Proof/Machine/Float.lean ====
section
/-! DEFINITION. Numbers: the element formats of R142-R146, exact values, rounding, conversion (R152-R154), IEEE
arithmetic with one rounding (R115, R172), and the stochastic generator's draw (R155). -/

namespace Sys2Proof.Machine

/-- An exact value of an element: not a number, an infinity, or (-1)^neg * m * 2^e. -/
inductive FVal where
  | nan
  | inf (neg : Bool)
  | fin (neg : Bool) (m : Nat) (e : Int)
  deriving DecidableEq, Repr

/-- Width in bits of a format code (R142); 0 for a reserved code. -/
def fmtWidth : Nat → Nat
  | 0 => 32 | 1 => 16 | 2 => 16 | 3 => 8 | 4 => 8 | 5 => 6 | 6 => 6 | 7 => 4 | 8 => 8 | _ => 0

/-- Exponent bits of a floating-point format (R143). -/
def fmtE : Nat → Nat
  | 0 => 8 | 1 => 8 | 2 => 5 | 3 => 4 | 4 => 5 | 5 => 3 | 6 => 2 | 7 => 2 | _ => 0

/-- Mantissa bits (R143). -/
def fmtM : Nat → Nat
  | 0 => 23 | 1 => 7 | 2 => 10 | 3 => 3 | 4 => 2 | 5 => 2 | 6 => 3 | 7 => 1 | _ => 0

/-- Exponent bias (R143). -/
def fmtBias : Nat → Nat
  | 0 => 127 | 1 => 127 | 2 => 15 | 3 => 7 | 4 => 15 | 5 => 3 | 6 => 1 | 7 => 1 | _ => 0

/-- Does the format keep IEEE infinities and NaNs (R143). -/
def fmtIeee (f : Nat) : Bool := f == 0 || f == 1 || f == 2 || f == 4

/-- Is the code a format of R87 / R142 (0x0-0x8). -/
def fmtOk (f : Nat) : Bool := decide (f ≤ 8)

/-- The scaled class of R142. -/
def fmtScaled (f : Nat) : Bool := decide (2 ≤ f ∧ f ≤ 8)

/-- Is the format MX-capable (R142). -/
def fmtMx (f : Nat) : Bool := f == 5 || f == 6 || f == 7

/-- 2^k for an integer k, as mantissa and exponent. -/
def shl (m : Nat) (k : Int) : Nat := if 0 ≤ k then m <<< k.toNat else m >>> (-k).toNat

/-- The value of an encoded element (R144, R145). -/
def fdec (f x : Nat) : FVal :=
  if f = 8 then
    let v := sext 8 x
    .fin (decide (v < 0)) v.natAbs 0
  else
    let n := fmtM f
    let eb := fmtE f
    let neg := bit x (n + eb)
    let e := bits x (n + eb - 1) n
    let m := x % 2 ^ n
    if fmtIeee f && e == 2 ^ eb - 1 then (if m = 0 then .inf neg else .nan)
    else if f == 3 && e == 15 && m == 7 then .nan
    else if e = 0 then .fin neg m (1 - (fmtBias f : Int) - n)
    else .fin neg (m + 2 ^ n) ((e : Int) - fmtBias f - n)

/-- The canonical NaN of a format; E4M3's is 0x7F (R153). -/
def fnan : Nat → Nat
  | 0 => 0x7FC00000 | 1 => 0x7FC0 | 2 => 0x7E00 | 3 => 0x7F | 4 => 0x7E | _ => 0

/-- The encoding of an infinity in an IEEE format. -/
def finf (f : Nat) (neg : Bool) : Nat := (b2n neg <<< (fmtE f + fmtM f)) ||| ((2 ^ fmtE f - 1) <<< fmtM f)

/-- The largest finite magnitude of a format as mantissa and exponent (R143, R145). -/
def fmaxVal (f : Nat) : Nat × Int :=
  match f with
  | 0 => (2 ^ 24 - 1, 104) | 1 => (255, 120) | 2 => (65504, 0) | 3 => (448, 0) | 4 => (57344, 0)
  | 5 => (28, 0) | 6 => (15, -1) | 7 => (6, 0) | _ => (127, 0)

/-- The encoding of the largest finite magnitude with a sign. -/
def fmaxEnc (f : Nat) (neg : Bool) : Nat :=
  if f = 8 then (if neg then 0x81 else 0x7F)
  else
    let top := match f with
      | 0 => 0x7F7FFFFF | 1 => 0x7F7F | 2 => 0x7BFF | 3 => 0x7E | 4 => 0x7B | 5 => 0x1F | 6 => 0x1F | _ => 0x7
    (b2n neg <<< (fmtE f + fmtM f)) ||| top

/-- Compare two magnitudes m1 * 2^e1 < m2 * 2^e2. -/
def magLt (m1 : Nat) (e1 : Int) (m2 : Nat) (e2 : Int) : Bool :=
  if e1 ≤ e2 then decide (m1 < shl m2 (e2 - e1)) else decide (shl m1 (e1 - e2) < m2)

/-- Position of the highest set bit, by fuel. -/
def nlog : Nat → Nat → Nat
  | 0, _ => 0
  | k + 1, m => if m ≤ 1 then 0 else 1 + nlog k (m / 2)

/-- floor(log2 m) for m > 0. -/
def flog2 (m : Nat) : Nat := Nat.log2 m

/-- The exponent of the unit in the last place of format `f` at magnitude m * 2^e, m > 0 (R154). -/
def ulpExp (f m : Nat) (e : Int) : Int :=
  if f = 8 then 0
  else
    let top : Int := flog2 m + e
    let lo : Int := 1 - (fmtBias f : Int)
    (if top < lo then lo else top) - fmtM f

/-- The whole part and the rest of m * 2^e in units of 2^q: (quotient, remainder, divisor). -/
def splitUlp (m : Nat) (e q : Int) : Nat × Nat × Nat :=
  if q ≤ e then (m <<< (e - q).toNat, 0, 1)
  else
    let d := 2 ^ (q - e).toNat
    (m / d, m % d, d)

/-- Round half to even of quotient, remainder, divisor. -/
def rne (q r d : Nat) : Nat :=
  if 2 * r < d then q else if 2 * r = d then q + q % 2 else q + 1

/-- Encode magnitude k units of 2^q as format `f`; overflow past the largest exponent gives infinity (IEEE formats). -/
def fencUnits (f : Nat) (neg : Bool) (k : Nat) (q : Int) : Nat :=
  if f = 8 then (if neg then (256 - k % 256) % 256 else k % 256)
  else
    let n := fmtM f
    let s := b2n neg <<< (fmtE f + n)
    let (k, q) := if 2 ^ (n + 1) ≤ k then (k / 2, q + 1) else (k, q)
    if k < 2 ^ n then s ||| k
    else
      let ef : Int := q + n + fmtBias f
      if (2 ^ fmtE f : Int) - 1 ≤ ef && fmtIeee f then finf f neg
      else s ||| (ef.toNat <<< n) ||| (k - 2 ^ n)

/-- Round an exact value to an IEEE format by round to nearest even, overflow to infinity (R115, R172).  DESIGN CHOICE (log 66): a NaN
in an accumulator cell is the canonical one of R153, as the vector engine's is; R115 gives none. -/
def fround (f : Nat) : FVal → Nat
  | .nan => fnan f
  | .inf neg => finf f neg
  | .fin neg m e =>
    if m = 0 then b2n neg <<< (fmtE f + fmtM f)
    else
      let q := ulpExp f m e
      let (k, r, d) := splitUlp m e q
      fencUnits f neg (rne k r d) q

/-- Is an exact value finite. -/
def FVal.isFin : FVal → Bool
  | .fin _ _ _ => true
  | _ => false

/-- Is an exact value zero. -/
def FVal.isZero : FVal → Bool
  | .fin _ m _ => m == 0
  | _ => false

/-- Is an encoded element non-finite. -/
def fNonFin (f x : Nat) : Bool := !(fdec f x).isFin

/-- Negation. -/
def fneg : FVal → FVal
  | .nan => .nan
  | .inf n => .inf (!n)
  | .fin n m e => .fin (!n) m e

/-- Absolute value. -/
def fabs : FVal → FVal
  | .nan => .nan
  | .inf _ => .inf false
  | .fin _ m e => .fin false m e

/-- Times 2^k. -/
def fscale (k : Int) : FVal → FVal
  | .fin n m e => .fin n m (e + k)
  | v => v

/-- Exact sum (an exact zero of unlike signs is +0). -/
def fadd : FVal → FVal → FVal
  | .nan, _ => .nan
  | _, .nan => .nan
  | .inf a, .inf b => if a == b then .inf a else .nan
  | .inf a, _ => .inf a
  | _, .inf b => .inf b
  | .fin n1 m1 e1, .fin n2 m2 e2 =>
    let e := if e1 ≤ e2 then e1 else e2
    let a := m1 <<< (e1 - e).toNat
    let b := m2 <<< (e2 - e).toNat
    if n1 == n2 then .fin n1 (a + b) e
    else if b < a then .fin n1 (a - b) e
    else if a < b then .fin n2 (b - a) e
    else .fin (n1 && n2) 0 e

/-- Exact product. -/
def fmul : FVal → FVal → FVal
  | .nan, _ => .nan
  | _, .nan => .nan
  | .inf a, .inf b => .inf (a != b)
  | .inf a, .fin n m _ => if m = 0 then .nan else .inf (a != n)
  | .fin n m _, .inf a => if m = 0 then .nan else .inf (a != n)
  | .fin n1 m1 e1, .fin n2 m2 e2 => .fin (n1 != n2) (m1 * m2) (e1 + e2)

/-- Quotient, exact up to a sticky bit far below any format's precision. -/
def fdiv : FVal → FVal → FVal
  | .nan, _ => .nan
  | _, .nan => .nan
  | .inf _, .inf _ => .nan
  | .inf a, .fin n _ _ => .inf (a != n)
  | .fin n _ _, .inf b => .fin (n != b) 0 0
  | .fin n1 m1 e1, .fin n2 m2 e2 =>
    if m2 = 0 then (if m1 = 0 then .nan else .inf (n1 != n2))
    else
      let a := m1 <<< (64 + flog2 m2)
      let q := a / m2
      .fin (n1 != n2) (2 * q + (if a % m2 = 0 then 0 else 1)) (e1 - e2 - (65 + flog2 m2 : Nat))

/-- Integer square root by bits, from bit `k` down. -/
def isqrt : Nat → Nat → Nat → Nat
  | 0, x, r => if (r + 1) * (r + 1) ≤ x then r + 1 else r
  | k + 1, x, r => let c := r + 2 ^ (k + 1); isqrt k x (if c * c ≤ x then c else r)

/-- Square root, exact up to a sticky bit. -/
def fsqrt : FVal → FVal
  | .nan => .nan
  | .inf n => if n then .nan else .inf false
  | .fin n m e =>
    if m = 0 then .fin n 0 0
    else if n then .nan
    else
      let odd := (e % 2).toNat
      let a := m <<< (128 + odd)
      let r := isqrt (flog2 a / 2 + 1) a 0
      .fin false (2 * r + (if r * r = a then 0 else 1)) ((e - odd - 128) / 2 - 1)

/-- Strictly less, with -0 below +0 only when `tz`; false on NaN. -/
def flt (tz : Bool) : FVal → FVal → Bool
  | .nan, _ => false
  | _, .nan => false
  | .inf a, .inf b => a && !b
  | .inf a, _ => a
  | _, .inf b => !b
  | .fin n1 m1 e1, .fin n2 m2 e2 =>
    if m1 = 0 ∧ m2 = 0 then tz && n1 && !n2
    else if m1 = 0 then !n2
    else if m2 = 0 then n1
    else if n1 && !n2 then true
    else if !n1 && n2 then false
    else if n1 then magLt m2 e2 m1 e1 else magLt m1 e1 m2 e2

/-- Equal values (zeros of either sign are equal); false on NaN. -/
def feq : FVal → FVal → Bool
  | .nan, _ => false
  | _, .nan => false
  | a, b => !flt false a b && !flt false b a

/-- Minimum, NaN when either is (R172). -/
def fmin : FVal → FVal → FVal
  | .nan, _ => .nan
  | _, .nan => .nan
  | a, b => if flt true b a then b else a

/-- Maximum, NaN when either is (R172). -/
def fmaxV : FVal → FVal → FVal
  | .nan, _ => .nan
  | _, .nan => .nan
  | a, b => if flt true a b then b else a

/-- Round to nearest even integer; magnitude. -/
def fRint (m : Nat) (e : Int) : Nat := let (k, r, d) := splitUlp m e 0; rne k r d

/-- FP32 to INT32, round to nearest even, saturating, NaN gives 0 (R175 CVTFI). -/
def fToI32 : FVal → Nat
  | .nan => 0
  | .inf n => if n then 0x80000000 else 0x7FFFFFFF
  | .fin n m e =>
    let k := fRint m e
    if n then (if 2 ^ 31 ≤ k then 0x80000000 else (2 ^ 32 - k) % 2 ^ 32) else min k 0x7FFFFFFF

/-- INT32 as an exact value. -/
def i32Val (x : Nat) : FVal := let v := sext 32 x; .fin (decide (v < 0)) v.natAbs 0

/-- floor of an exact finite value. -/
def ffloor : FVal → Int
  | .fin n m e =>
    let (k, r, _) := splitUlp m e 0
    if n then -(k : Int) - (if r = 0 then 0 else 1) else k
  | _ => 0

/-- Conversion of x, already multiplied by 2^s, to a format (R152-R154): `sat` is SAT, `draw` the value drawn under
RM = 1, or none for round to nearest even. -/
def fconv (f : Nat) (sat : Bool) (draw : Option Word) (x : FVal) : Nat :=
  match x with
  | .nan => if f = 8 then 0 else if fmtMx f then 0 else if f = 3 then 0x7F else fnan f
  | .inf neg => if f = 3 then (b2n neg <<< 7) ||| 0x7F else if fmtIeee f then finf f neg else fmaxEnc f neg
  | .fin neg m e =>
    let (fm, fe) := fmaxVal f
    if magLt fm fe m e then
      (if sat then fmaxEnc f neg
       else if f = 3 then (b2n neg <<< 7) ||| 0x7F
       else if fmtIeee f then finf f neg else fmaxEnc f neg)
    else if m = 0 then (if f = 8 then 0 else b2n neg <<< (fmtE f + fmtM f))
    else
      let q := ulpExp f m e
      let (k, r, d) := splitUlp m e q
      let k' := match draw with
        | none => rne k r d
        | some u => if bits u.toNat 63 48 < r * 65536 / d then k + 1 else k
      fencUnits f neg k' q

/-- One draw of the stochastic-rounding generator: the new state, which is also the value drawn (R155). -/
def srDraw (g : Word) : Word :=
  let g := g ^^^ (g <<< 13)
  let g := g ^^^ (g >>> 7)
  g ^^^ (g <<< 17)

/-- The generator state that a seed gives core `id` (R155). -/
def srSeed (seed : Word) (id : Nat) : Word :=
  let g := seed ^^^ (0xA5C31F4D2B976E01#64 * BitVec.ofNat 64 (id + 1))
  if g = 0 then 1 else g

/-- Sum rounded to FP32 (R115). -/
def add32 (a b : Nat) : Nat := fround 0 (fadd (fdec 0 a) (fdec 0 b))
/-- Difference rounded to FP32. -/
def sub32 (a b : Nat) : Nat := fround 0 (fadd (fdec 0 a) (fneg (fdec 0 b)))
/-- Product rounded to FP32. -/
def mul32 (a b : Nat) : Nat := fround 0 (fmul (fdec 0 a) (fdec 0 b))
/-- Quotient rounded to FP32. -/
def div32 (a b : Nat) : Nat := fround 0 (fdiv (fdec 0 a) (fdec 0 b))
/-- Square root rounded to FP32. -/
def sqrt32 (a : Nat) : Nat := fround 0 (fsqrt (fdec 0 a))
/-- a * b + c rounded once to FP32. -/
def fma32 (a b c : Nat) : Nat := fround 0 (fadd (fmul (fdec 0 a) (fdec 0 b)) (fdec 0 c))
/-- Maximum of FP32 encodings. -/
def max32 (a b : Nat) : Nat := fround 0 (fmaxV (fdec 0 a) (fdec 0 b))
/-- Minimum of FP32 encodings. -/
def min32 (a b : Nat) : Nat := fround 0 (fmin (fdec 0 a) (fdec 0 b))
/-- The larger of two FP32 encodings taken as non-negative amax values (R29). -/
def amax32 (a b : Nat) : Nat := if flt false (fdec 0 a) (fdec 0 b) then b else a

end Sys2Proof.Machine
end

