-- ==== Sys2Proof/Config.lean ====
section
/-! DEFINITION. The free values: what the manual leaves open.  Each is an opaque constant, so no proof can see a value
of it.  The log entry that declares each is named. -/

namespace Sys2Proof.Config

/-- A byte of HBM3E or LPDDR5X that has not been written since the last cold reset, or that decrypts under another key:
by memory epoch and device-physical address (R530, R472; log 7). -/
opaque unwrittenByte : Nat → Nat → Byte
/-- Is a line not written since the last cold reset found uncorrectable instead (R530; log 7): by epoch and line. -/
opaque unwrittenBad : Nat → Nat → Bool
/-- A byte of scratchpad whose contents the manual leaves unspecified (R230; log 7): by core, epoch and offset. -/
opaque spadByte : Nat → Nat → Nat → Byte
/-- A fresh free value of 64 bits: by the free-value counter (log 10). -/
opaque freeWord : Nat → Word
/-- A fresh free FP32 or INT32 element: by the free-value counter and the element (log 10). -/
opaque freeElem : Nat → Nat → W32
/-- The set of a slice in which a line lies; the manual gives 512 sets and no index rule (R236; log 22). -/
opaque sliceSetOf : Nat → Nat
/-- The set of an L1 in which a line lies, among `n` sets (R232; log 22). -/
opaque l1SetOf : Nat → Nat → Nat
/-- Which translation-cache entry a new hit replaces (R254; log 22). -/
opaque tcVictim : Nat → Nat
/-- A coefficient of a built-in function table, of the segment past a table's end, or the result for an input whose
result no rule states: by slot, derivative, segment and coefficient (R184, R186; log 30). -/
opaque tabCoef : Nat → Nat → Nat → Nat → W32

/-- Link cycles that a telemetry update occupies on a half's Canal links, which the manual does not state (R36, R38; log 65). -/
opaque telemCycles : Nat

/-- Which router of a port receives the frame of a SEQ from the ring (R357; log 40): by port and SEQ. -/
opaque rxRouter : Nat → Nat → Nat

/-- A byte of the modulus of IDK, of AK in a life-cycle state, and of the boot ROM's measurement of itself (R470, R481; log
49). -/
opaque idkByte : Nat → Byte
opaque akByte : Nat → Nat → Byte
opaque romByte : Nat → Byte
/-- Does an RSAES-OAEP ciphertext decrypt under TK of a life-cycle state (R476; log 49). -/
opaque oaepOk : Nat → List Byte → Bool
/-- A byte of an RSASSA-PSS signature by a key that only the Cleat holds: key (0 AK, 1 IDK) and life-cycle state, message,
salt, byte (R470, R487; log 49). -/
opaque signByte : Nat → Nat → List Byte → Nat → Nat → Byte

end Sys2Proof.Config
end

