-- ==== Sys2Proof/Machine/Tab.lean ====
section
/-! DEFINITION. Sparse tables: lists of (key, value) pairs with strictly rising keys, read with a default. Registers,
cores, memory cells, table entries and waiting records are held in them. -/

namespace Sys2Proof.Machine

/-- A sparse table. -/
abbrev Tab (α : Type) := List (Nat × α)

/-- The entry under a key, if one is listed. -/
def tget? {α : Type} (k : Nat) : Tab α → Option α
  | [] => none
  | (k', v) :: r => if k' = k then some v else tget? k r

/-- The value under a key, `d` when none is listed. -/
def tget {α : Type} (d : α) (t : Tab α) (k : Nat) : α := (tget? k t).getD d

/-- List `v` under `k`, in key order. -/
def tset {α : Type} (k : Nat) (v : α) : Tab α → Tab α
  | [] => [(k, v)]
  | (k', v') :: r =>
    if k < k' then (k, v) :: (k', v') :: r
    else if k' = k then (k, v) :: r
    else (k', v') :: tset k v r

/-- Take every entry under `k` out. -/
def tdel {α : Type} (k : Nat) : Tab α → Tab α
  | [] => []
  | (k', v') :: r => if k' = k then tdel k r else (k', v') :: tdel k r

/-- Every key of the table is above `b` and the keys rise strictly. -/
def tabove {α : Type} (b : Nat) : Tab α → Bool
  | [] => true
  | (k, _) :: r => decide (b < k) && tabove k r

/-- The canonical form: keys rise strictly. -/
def twf {α : Type} : Tab α → Bool
  | [] => true
  | (k, _) :: r => tabove k r

/-- Does a list of numbers hold `x`. -/
def lhas (x : Nat) : List Nat → Bool
  | [] => false
  | y :: r => (y == x) || lhas x r

/-- Take every `x` out of a list of numbers. -/
def ldrop (x : Nat) : List Nat → List Nat
  | [] => []
  | y :: r => if y = x then ldrop x r else y :: ldrop x r

/-- Add `x` to a list of numbers that is used as a set. -/
def ladd (x : Nat) (l : List Nat) : List Nat := if lhas x l then l else x :: l

/-- Take the first element that passes a test out of a list. -/
def ltake {α : Type} (p : α → Bool) : List α → Option (α × List α)
  | [] => none
  | a :: r =>
    if p a then some (a, r)
    else match ltake p r with
      | some (b, r') => some (b, a :: r')
      | none => none

/-- Apply `f k` for k = 0, 1, …, n - 1 in order. -/
def upto {σ : Type} (f : Nat → σ → σ) : Nat → σ → σ
  | 0, s => s
  | n + 1, s => f n (upto f n s)

/-- Fold over a list in order. -/
def each {α σ : Type} (f : α → σ → σ) : List α → σ → σ
  | [], s => s
  | a :: r, s => each f r (f a s)

/-- Numbers from `lo` to `hi - 1`. -/
def rangeFrom (lo hi : Nat) : List Nat := (List.range (hi - lo)).map fun i => lo + i

end Sys2Proof.Machine
end

