-- ==== Sys2Proof/Machine/State.lean ====
section
/-! DEFINITION. The state of the part: every piece of state that INVENTORY.md lists, and the reasons a step can stop. -/

namespace Sys2Proof.Machine

/-- Context states of R63. -/
inductive CtxSt where
  | empty
  | ready
  | running
  | waiting
  | halted
  deriving DecidableEq, Repr

/-- What a memory instruction does with the bytes it waited for (R56, R58, R177). -/
inductive MemKind where
  /-- A scalar load of `sz` bytes at `va` into g register `gd`, sign-extended when `sx`. -/
  | load (gd sz : Nat) (sx : Bool) (va : Nat)
  /-- A vector load of 256 bytes at `va` into `vd` under the mask `pm`; `nf` is the OR of its packets' NF. -/
  | vld (vd : Nat) (pm : Word) (va : Nat) (nf : Bool)
  /-- An atomic whose old value goes to `gd`. -/
  | atomic (gd va : Nat) (wide : Bool)
  deriving DecidableEq, Repr

/-- What a context that cannot issue its next instruction is waiting for; its PC stays at the waiting instruction. -/
inductive Wait where
  /-- Nothing: the context may issue. -/
  | none
  /-- Read data or an atomic's response: outstanding (transaction number, virtual line), the lines already in hand, and
  the exception code and value of the lowest failing byte found so far. -/
  | mem (outs : List (Nat × Nat)) (got : List (Nat × Line)) (bad : Option (Nat × Nat)) (k : MemKind)
  /-- A knot wait queued at the own port (no transaction number) or sent to its hub: name, amount, GD, the cycle the wait
  began, and why a withdrawal is out: 0 none, 1 a switch, 2 an interrupt (R316, R323). -/
  | kwait (name n gd : Nat) (tx : Option Nat) (since wd : Nat)
  /-- A knot operation or HPEEK sent to its home: FN (4 for HPEEK), first word, name, GD, transaction number (R315-R318). -/
  | kop (fn w name gd tx : Nat)
  /-- A hitch arrival sent to the hub (R329). -/
  | harr (h gd tx : Nat)
  /-- A hitch wait: hitch, generation awaited, GD, transaction number, cycle the wait began (R330). -/
  | hwait (h gen gd tx since : Nat)
  /-- A stream wait on Flume context `n` into `gd` (R280). -/
  | swait (n gd : Nat) (since : Nat)
  /-- WFI (R61). -/
  | wfi (since : Nat)
  /-- A TLOAD of `tile`: rows still to return with their addresses, the frame of each page as its issue translated it (R255), and
  the first row known to fail with its exception code and value (R103, R105, R106). -/
  | tload (tile : Nat) (rows : List (Nat × Nat)) (pages : List (Nat × Nat)) (bad : Option (Nat × Nat × Nat))
  /-- A TSTORE of `tile`: rows still to write with their addresses, whether the first of them is on its way, and the first row
  known to fail with its exception code and value (R104, R106, R107). -/
  | tstore (tile : Nat) (rows : List (Nat × Nat)) (out : Bool) (bad : Option (Nat × Nat × Nat))
  /-- A scalar or, with `vst`, a vector store whose writes are on their way, and the exception code and value of the lowest
  failing byte found so far: it retires when they have completed (R73, R74, R177). -/
  | store (vst : Bool) (va : Nat) (bad : Option (Nat × Nat))
  /-- A VFLOAD of a function-slot image (R187). -/
  | vfload (slot va : Nat)
  deriving DecidableEq, Repr

/-- A KWAIT in a knot's queue (R316): core, context and amount, its transaction number when it came to a hub, and its core's
reset generation. -/
structure KWaiter where
  core : Nat
  ctx : Nat
  n : Nat
  tx : Option Nat
  rgen : Bool
  deriving DecidableEq, Repr

/-- One task context: its banked scalar state (R63, R82). -/
structure Ctx where
  g : Tab Word
  pc : Word
  mstatus : Word
  epc : Word
  ecause : Word
  eval : Word
  escratch : Word
  tstart : Word
  st : CtxSt
  wait : Wait
  deriving DecidableEq, Repr

/-- The engine state of a core: one set, owned by the context in ENG_OWNER (R70, R85, R118, R169). -/
structure Eng where
  v : Tab Row
  p : Tab Word
  tcfg : Tab Word
  full : Tab Bool
  /-- Tile rows, under tile * 64 + row. -/
  rows : Tab Row
  /-- Accumulator rows, under accumulator * 64 + physical row. -/
  acc : Tab AccRow
  accNf : Tab Bool
  accErr : Tab Bool
  mcfg : Word
  vctl : Word
  vnf : Word
  fact : Word
  deriving DecidableEq, Repr

/-- Where an array operand comes from (R122): a tile, or a Flume context bound to the feeders. -/
inductive ArrSrc where
  | tile (t : Nat) (tr : Bool)
  | stream (ctx : Nat)
  deriving DecidableEq, Repr

/-- One entry of the array queue (R126): an MMA or an MDRAIN with what its issue fixed. -/
structure ArrEnt where
  isMma : Bool
  ctx : Nat
  acc : Nat
  /-- MMA: operands, shape, overwrite, fold, scales once read, MX scale bytes copied at queueing, K steps performed. -/
  a : ArrSrc
  b : ArrSrc
  ovw : Bool
  m : Nat
  n : Nat
  k : Nat
  fold : Nat
  fmtA : Nat
  fmtB : Nat
  mxA : Option (List Row)
  mxB : Option (List Row)
  scales : Option (Int × List Int)
  kDone : Nat
  /-- MDRAIN: destination tile or scratchpad, format, rounding, columns, tag; phases of R129. -/
  dstSpad : Bool
  td : Nat
  fmt : Nat
  rm : Nat
  base : Nat
  pitch : Nat
  nc : Nat
  coff : Nat
  tag : Nat
  readDone : Bool
  written : Bool
  amax : Nat
  nf : Bool
  /-- The drained rows: tile row or scratchpad offset, and bytes. -/
  out : List (Nat × List Byte)
  /-- Transaction number of the Gauge merge. -/
  txid : Option Nat
  /-- Places of the queue that entries behind this one still hold: they have completed and leave after it (R126). -/
  behind : Nat
  /-- Widths of the row groups of B (R134); bytes of the current slot come from Flume contexts. -/
  ns : List Nat
  tagA : Nat
  tagsB : List Nat
  deriving DecidableEq, Repr

/-- A unit of a stream that has arrived and is not released (R274): first block, the place and length of each block,
its NF, its arrival stamp. -/
structure FlUnit where
  first : Nat
  blocks : List (Nat × Nat)
  nf : Bool
  stamp : Nat
  deriving DecidableEq, Repr

/-- A Flume context's engine side (R269-R289); its registers are in register space. -/
structure Flume where
  /-- Task context that armed it, at privilege M. -/
  task : Nat
  priv : Bool
  /-- Next list entry; none once an END entry has been taken. -/
  entry : Option Nat
  /-- Index of the first block of the next unit. -/
  nb : Nat
  half : Nat
  units : List FlUnit
  /-- A fault: failing block, code, device-physical address of the failing word. -/
  fail : Option (Nat × Nat × Nat)
  endAt : Option Nat
  /-- Next block to deliver, and blocks held through SWAIT, oldest first. -/
  take : Nat
  held : List Nat
  /-- Bytes of the oldest unit that have entered the feeders' queues. -/
  pos : Nat
  /-- The K-panel slots in the feeders' queues, at most four, oldest first, each with the NF of the units its bytes came from
  (R118, R119). -/
  slots : List (List Byte × Bool)
  /-- First block that run-ahead has not reached (R277). -/
  ra : Nat
  /-- Arrival stamps of blocks whose deadline has not been checked, the next deadline, and pending miss records: block,
  closing count, flags (R285-R288). -/
  stamps : Tab Nat
  chk : Nat
  miss : List (Nat × Nat × Nat)
  deriving DecidableEq, Repr

/-- A line of an L1 (R232, R234). -/
structure L1Line where
  line : Nat
  data : Line
  cls : Nat
  tag : Nat
  spent : Bool
  stamp : Nat
  deriving DecidableEq, Repr

/-- How a CSR write that waits for a barrier completes: kind 0 CSRRW, 1 CSRRS, 2 CSRRC; destination, operand, context. -/
structure CsrBack where
  kind : Nat
  gd : Nat
  ga : Word
  ctx : Nat
  deriving DecidableEq, Repr

/-- A GROLL whose slices have not all reported (R164): context and GD, partition, first tag and count, the home slices
still to update, and the entries updated so far. -/
structure Groll where
  ctx : Nat
  gd : Nat
  part : Nat
  first : Nat
  count : Nat
  left : List Nat
  upd : Nat
  deriving DecidableEq, Repr

/-- A core tile: its contexts, engines and core memory. -/
structure Core where
  /-- Enabled for task code (R3); a good core that is not enabled is a spare. -/
  enabled : Bool
  /-- Marked bad by the fuse map or disabled by a failed load: hidden for good (R3, R352). -/
  dead : Bool
  ctxs : Tab Ctx
  run : Nat
  /-- A switch of the scalar state in progress: the incoming context (R68). -/
  sw : Option Nat
  /-- A CORE_MODE write that takes effect at the next instruction boundary (R66). -/
  modePend : Option Word
  owner : Nat
  /-- An engine-state move in progress: the new owner and the held instruction (R70). -/
  move : Option (Nat × Instr)
  eng : Eng
  /-- g registers whose value an engine still has to write: (context, register) (R94, R164). -/
  gpend : List (Nat × Nat)
  /-- Stochastic-rounding generator, and a seed on its way with the core and context that wrote it (R155). -/
  sr : Word
  seed : Option (Word × Nat × Nat)
  /-- Function-table images of slots 7-15 (R184, R185). -/
  slots : Tab (BitVec 67584)
  l1 : List L1Line
  clk : Nat
  spad : Tab Byte
  spadEpoch : Nat
  /-- Flip masks left in core memory, by 32-bit word of the scratchpad (R463). -/
  flips : Tab Nat
  /-- Writes not yet complete: transaction number, context, and whose they are: 0 a miss record of a stream (`stMiss`), 1 to 8
  a TSTORE of tile 0 to 7, 9 a store or VST (`stStore`) (R45, R61, R74, R90). -/
  stores : List (Nat × Nat × Nat)
  /-- Transaction numbers kept out of use after the limit of R455. -/
  deadTx : List Nat
  rgen : Bool
  /-- In a core reset or partition reset: from step 3 until the generation changes; requests still to be answered (R324, R362). -/
  rst : Bool
  rstTx : List Nat
  arr : List ArrEnt
  /-- A pending TCFG barrier: tile, value, and the CSR instruction that waits for it (R94). -/
  tbar : Option (Nat × Word × Option CsrBack)
  /-- Memory-mapped writes of TCFG and of MCFG that wait behind a barrier, oldest first (R94, R137). -/
  tbarq : List (Nat × Word)
  mbarq : List Word
  /-- Pending TRELs: their masks (R111). -/
  trel : List Nat
  /-- A pending MCFG barrier (R137). -/
  mbar : Option (Word × Option CsrBack)
  /-- Gauge merges of MDRAIN and VCVT not yet accepted at their entries' homes: (transaction number, context). -/
  merges : List (Nat × Nat)
  /-- GROLLs in progress, oldest first (R164). -/
  rolls : List Groll
  flumes : Tab Flume
  /-- Core CYCLE minus the shared core tick (R81). -/
  cycOff : Nat
  /-- Translation cache: virtual pages (R254). -/
  tc : List Nat
  /-- Instruction-cache lines: memory lines fetched since the last FENCE.I (R61, log 14). -/
  icache : List Nat
  /-- Credits in use at each slice, and requests that wait for one (R260, R261). -/
  cred : Tab Nat
  outq : List Packet
  /-- An engine error whose ENGINE exception has not been taken: the task's context and the named destination, kind and
  number: 0 tile, 1 accumulator, 2 vector register, 3 predicate, 4 g register, 5 none (R75). -/
  errPend : Option (Nat × Nat × Nat)
  /-- L1 prefetcher history per context: last line, stride, misses at that stride (R263). -/
  pf : Tab (Nat × Int × Nat)
  /-- Lines whose prefetched data may still fill the L1: no store of the core, acquire or shootdown has met them since the
  prefetch was sent (R44, R233, R265). -/
  pfOut : List Nat
  /-- BOOT_VEC as firmware last wrote it, which a reset of the core reloads (R83, R498). -/
  fwBoot : Word
  deriving DecidableEq, Repr

/-- A Ledger entry (R251). -/
structure LEnt where
  v : Bool
  owner : Nat
  tier : Nat
  rsv : Bool
  w : Bool
  s : Bool
  t : Bool
  p : Bool
  x : Bool
  sec : Bool
  g : Bool
  mig : Bool
  vpn : Nat
  next : Option Nat
  /-- A chip frame rather than a snapshot copy frame; both hold RSV (R250, R430). -/
  chip : Bool
  deriving DecidableEq, Repr

/-- A line resident in a Reservoir slice: place, class, tag and state; its bytes are the home's (R236, R237, R451, log 23). -/
structure SLine where
  line : Nat
  set : Nat
  way : Nat
  cls : Nat
  tag : Nat
  part : Nat
  spent : Bool
  dirty : Bool
  bad : Bool
  stamp : Nat
  /-- For a dirty line: the line's bytes as the storage still holds them (R451). -/
  old : List Host.Cell
  deriving DecidableEq, Repr

/-- A request in a slice's buffer or, once admitted, in its slots (R259, R260). -/
structure SReq where
  pkt : Packet
  admitted : Bool
  waited : Bool
  deriving DecidableEq, Repr

/-- A Reservoir slice. -/
structure Slice where
  /-- Companion lines held, by line: state 1 S, 2 E, 3 M, and the bytes (R411). -/
  comp : Tab (Nat × Line)
  /-- Snoop filter: line, EM rather than S, and the age used for replacement (R407, R408). -/
  filter : Tab (Bool × Nat)
  lines : List SLine
  clk : Nat
  reqs : List SReq
  /-- Line writes and write-backs whose 2 slots are held until they complete (R259). -/
  wbs : List Nat
  /-- Tag-attribute cache: (part-independent tag, class, spent) (R240). -/
  attr : List (Nat × Nat × Bool)
  /-- Tags that a SPENT command has named and no window WRITE has renewed (R239). -/
  spentTags : List Nat
  deriving DecidableEq, Repr

/-- One sub-link of the Tether (R395-R400, R404). -/
structure TtSub where
  /-- Next FSEQ to send, next FSEQ expected, retries of the oldest unacknowledged flit. -/
  ftx : Nat
  frx : Nat
  tries : Nat
  /-- MSG flits sent and not acknowledged: FSEQ and the message it carries (log 26). -/
  replay : List (Nat × TMsg)
  /-- Messages that wait for credit or for room in the replay buffer. -/
  out : List TMsg
  /-- Credits in slots held for each class, and slots freed since the last flit sent (R404). -/
  credits : Tab Nat
  freed : Tab Nat
  /-- All 8 lanes are locked and deskewed (R397 step 2). -/
  locked : Bool
  /-- A STEER has been received (R396). -/
  steered : Bool
  deriving DecidableEq, Repr

/-- A snoop sent by a device home (R409, R410). -/
structure Snoop where
  sub : Nat
  txid : Nat
  line : Nat
  slice : Nat
  inv : Bool
  back : Bool
  /-- Answered WBP: the home waits for the WR_BACK (R412). -/
  wbp : Bool
  deriving DecidableEq, Repr

/-- A request of the device to the companion (R411, R403): the sub-link, number, line, home slice and operation, the
writer that waits for its WR_ACK, the engine that issued it, and whether it has timed out (R420). -/
structure CwReq where
  sub : Nat
  txid : Nat
  line : Nat
  slice : Nat
  op : Nat
  pkt : Option Packet
  eng : Nat
  dead : Bool
  deriving DecidableEq, Repr

/-- A snapshot copy (R430-R432): the live frame, the copy frame when one exists, whether the copy has started, and the
table its record goes to, none once its snapshot is no longer held. -/
structure SnCopy where
  frame : Nat
  copy : Option Nat
  started : Bool
  tbl : Option Nat
  deriving DecidableEq, Repr

/-- The state of a partition's Logline and snapshots beside its registers (R423-R441). -/
structure Snap where
  /-- Frames swept out of order while STATE is SWEEPING (R429). -/
  swept : List Nat
  /-- First writes that wait for a copy place, in order, and copies in progress. -/
  copies : List SnCopy
  /-- Commands written while BUSY, with SN_ARG as it was (R434). -/
  cmds : List (Nat × Word)
  /-- A rollback in progress: false to OLD, true to NEW. -/
  rollback : Option Bool
  /-- The sweep makes the first snapshot (R428, R434). -/
  first : Bool
  /-- Committed steps that the mirrors have still to write, and whether the companion write of the first is on its way
  (R427). -/
  mirC : List Nat
  mirF : List Nat
  mirOut : Bool
  deriving DecidableEq, Repr

/-- An LPDDR5X controller's queues (R262). -/
structure Lc where
  input : List Packet
  queue : List Packet
  deriving DecidableEq, Repr

/-- The response of the last register-space access (R11): none, data or an error response (log 11). -/
inductive Rsp where
  | none
  | ok (v : Word)
  | err
  deriving DecidableEq, Repr

/-- A Ledger command in progress at a window (R255, R256, R258). -/
inductive LgOp where
  /-- A shootdown that ends the command: partition, page, frame, and the endpoints whose caches have not dropped it yet. -/
  | shoot (part vpn frame : Nat) (eps : List Nat)
  /-- A migration: source, destination, shares still to copy; `started` after step 2. -/
  | migrate (src dst : Nat) (started : Bool) (shares : List Nat)
  /-- An UNMAP held by a snapshot copy (R430). -/
  | held (frame : Nat)
  deriving DecidableEq, Repr

/-- The bank a context holds after reset: EMPTY, privilege M (R82, R83); general registers and PC 0 (log 6). -/
def Ctx.reset : Ctx :=
  { g := [], pc := 0, mstatus := 1, epc := 0, ecause := 0, eval := 0, escratch := 0, tstart := 0, st := .empty, wait := .none }

/-- A Culvert channel or chip-level channel beside its registers (R293-R307, R392, R393): the descriptor being run and the
next one when it has been read, the task context that started it at privilege M or T, stored 16-byte units of a BRAID
descriptor so far, bytes written to DST, a stop that waits for an element boundary, and, for a remote destination, the
elements sent and the DDONE that has arrived with its code and address. -/
structure Chn where
  cur : Option Nat
  next : Option Nat
  /-- Serial number that DDATA and DDONE frames of the current run of a descriptor carry (R373). -/
  serial : Nat
  task : Nat
  priv : Bool
  off : Nat
  out : Nat
  sent : Nat
  ddone : Option (Nat × Nat)
  /-- The completion word has been posted and its completion is awaited (R298). -/
  word : Bool
  deriving DecidableEq, Repr

/-- An IDLE channel. -/
def Chn.reset : Chn := { cur := none, next := none, serial := 0, task := 0, priv := false, off := 0, out := 0, sent := 0, ddone := none, word := false }

/-- A Sluice register of 256 FP32 lanes (R197). -/
abbrev Lanes := BitVec 8192

/-- A Sluice unit beside its registers of register space (R197-R222): sequencer and vector state, the program store, the job
queue (descriptor, partition), the running job with what it has read of its descriptor, the walk, the group loaded, the
draws' generator. -/
structure Slu where
  g : Tab Word
  v : Tab Lanes
  p : Tab (BitVec 256)
  pc : Nat
  prog : List Nat
  /-- Rule registers u0-u15 and the next rule operation (R219, R220). -/
  u : Tab Lanes
  opi : Nat
  queue : List (Nat × Nat)
  job : Option (Nat × Nat)
  hdr : Nat
  /-- The header of the job has been read (R209). -/
  hdrRead : Bool
  ents : Nat
  t : Nat
  /-- Scale exponent of the entry's tag, its bitmap, its region's base, and the touched blocks still to take (R210). -/
  sexp : Int
  tptr : Nat
  gbase : Nat
  mine : List Nat
  grp : Option (List Nat)
  gen : Word
  blocks : Nat
  /-- 1: SLU_CTL.ABORT waits for a group boundary (R223). -/
  abort : Bool
  /-- The walk has ended with this RESULT, and DONE or SKIPPED is still to be written (R209). -/
  ended : Option Nat
  /-- FOREIGN of START_KNOT has been recorded (R321). -/
  foreign : Bool
  /-- Partition of the job that halted the unit (R225). -/
  errPart : Nat
  deriving DecidableEq, Repr

/-- An idle unit. -/
def Slu.reset : Slu :=
  { g := [], v := [], p := [], pc := 0, prog := [], u := [], opi := 0, queue := [], job := none, hdr := 0, hdrRead := false, ents := 0, t := 0,
    sexp := 0, tptr := 0, gbase := 0, mine := [], grp := none, gen := 1, blocks := 0, abort := false, ended := none,
    foreign := false, errPart := 0 }

/-- A record of a collective (R387): CSEQ, state (0 NONE, 1 RUNNING, 2 DONE, 3 FAILED) and NF. -/
structure CapRec where
  c : Nat
  st : Nat
  nf : Bool
  deriving DecidableEq, Repr

/-- A Hawser port beside its registers (R373-R377). -/
structure Port where
  /-- Frames that wait for a place in the retry buffer. -/
  out : List Frame
  /-- The retry buffer: unacknowledged frames, oldest first, with the times each has been sent. -/
  retry : List (Frame × Nat)
  /-- The SEQ after the last frame sent since training, and the first SEQ sent after training. -/
  snd : Nat
  base : Nat
  /-- Receive-buffer frames the partner has freed since training. -/
  cred : Nat
  /-- Next SEQ expected, frames held in the receive buffer, frames freed since training. -/
  rx : Nat
  rxbuf : List Frame
  freed : Nat
  /-- Next value of the link-frame counter, and the LINK frame sent last. -/
  linkc : Nat
  link : Option Frame
  /-- Key slots whose new key is pending (R473), one bit each. -/
  keyPend : Nat
  /-- The router to which the Capstan sends its next frame for the port (R357). -/
  alt : Bool
  deriving DecidableEq, Repr

/-- A port after a cold reset whose counters' marks are 0. -/
def Port.reset : Port :=
  { out := [], retry := [], snd := 0, base := 0, cred := 0, rx := 0, rxbuf := [], freed := 0, linkc := 0, link := none,
    keyPend := 0, alt := false }

/-- Elements of a tensor held by the Capstan: byte offset in the tensor, FP32 partial sums (reduce-scatter) or the owner's
bytes with their XS (all-gather), and NF. -/
structure Piece where
  off : Nat
  vals : List Nat
  bytes : List Byte
  xs : Nat
  nf : Bool
  deriving DecidableEq, Repr

/-- One part of a collective (R382, R383): phase 0 reduce-scatter, 1 all-gather, 2 complete; the dimension's index in the
part's order; tensor bytes received of the two streams; and what is held. -/
structure CPart where
  ph : Nat
  k : Nat
  gp : Nat
  gm : Nat
  ps : List Piece
  deriving DecidableEq, Repr

/-- A running collective (R381-R386): its descriptor and where it lies, partition, the scales and flags read at its start,
NF and AMAX so far, the parts, the sweep's dimension index with the frames received in each direction, and frames that wait
for their turn with the ports they came from. -/
structure Coll where
  d : Nat
  va : Nat
  part : Nat
  sS : Int
  sD : Int
  sat : Bool
  snf : Bool
  nf : Bool
  amax : Nat
  parts : List CPart
  sw : Option Nat
  cp : Nat
  cm : Nat
  wait : List (Nat × Frame)
  deriving DecidableEq, Repr

/-- A Capstan group (R380, R388, R390): queued descriptors with their addresses, the running collective, and the hitch
sweep in progress: hitch, generation, dimension index, frames received in each direction. -/
structure Grp where
  queue : List (Nat × Nat)
  run : Option Coll
  xh : Option (Nat × Nat × Nat × Nat × Nat)
  deriving DecidableEq, Repr

/-- An idle group. -/
def Grp.reset : Grp := { queue := [], run := none, xh := none }

/-- A licence held in the vault (R477): its serial number, window, fields, and the signed object. -/
structure Lic where
  serial : Nat
  notBefore : Nat
  notAfter : Nat
  cores : Nat
  dims : Nat
  feat : Nat
  obj : List Byte
  deriving DecidableEq, Repr

/-- What the Cleat holds beside its registers (R477, R480, R484, R487): the running command and its argument, accepted
licences, the SVN of the last image of each kind that passed, reports since cold reset, and whether the vault wipe still
runs. -/
structure Cleat where
  cmd : Option (Nat × Nat)
  lics : List Lic
  svn : Tab Nat
  reports : Nat
  wiping : Bool
  deriving DecidableEq, Repr

/-- The on-module flash (R506): images by kind * 2 + bank, the bank each kind was last staged in; the Cleat records: licence
objects, key blobs by slot, reservation marks by port * 4 + direction * 2 + counter with those being written, the
calendar mark; the configuration: ring record, HG_LEASE_CFG and HG_RECAL values; Logline mirror records by partition *
262,144 + step mod 262,144; erase counts by block, retired and spare blocks. -/
structure Flash where
  img : Tab (List Byte)
  bank : Tab Nat
  lics : List (List Byte)
  blobs : Tab (List Byte)
  marks : Tab Nat
  markOut : List Nat
  cal : Nat
  ring : Tab Word
  lease : Word
  recal : Tab Word
  log : Tab (List Byte)
  erases : Tab Nat
  retired : Nat
  spare : Nat
  deriving DecidableEq, Repr

/-- The firmware side of a Headgate (R491-R495, R503, R508): whether it stays in ROM, whether it restarts for a swap, the role
before a split, the cycle of the last renewal received, claims on their way to it (EPOCH), and newly set HG_EVENT bits whose
EVENT message has not been sent. -/
structure Hg where
  rom : Bool
  swap : Bool
  old : Nat
  renew : Nat
  claims : List Nat
  events : List Nat
  /-- A measurement held until the sideband returns. -/
  meas : Option (List Byte)
  deriving DecidableEq, Repr

/-- A core's firmware receiver (R498): pieces received, as chunk * 32 + flit, and the digest packet. -/
structure FwRx where
  got : List Nat
  digest : Option (List Byte × Nat)
  deriving DecidableEq, Repr

/-- Throttle causes (R515): levels and counts of quiet samples of thermal, power and input current, and the thermal limit.  The
power and input-current causes of both halves lie in the west half's record. -/
structure Thr where
  th : Nat
  thN : Nat
  lim : Bool
  pw : Nat
  pwN : Nat
  ic : Nat
  icN : Nat
  deriving DecidableEq, Repr

/-- Supplies, pins, calendar, PMBus and JTAG (R511-R527). -/
structure Board where
  /-- VIN64 good, AUX3V3 good, input capacitance charged, THERM_TRIP_N asserted, VIN64 fallen since the trip. -/
  vin : Bool
  aux : Bool
  charged : Bool
  trip : Bool
  tripLow : Bool
  /-- MOD_RESET_N is low. -/
  modReset : Bool
  /-- CAL_CTL.LOAD waits for the next tick; ticks toward the next trim. -/
  calLoad : Bool
  calN : Nat
  /-- The CYCLE counter of the always-on island (R9, R23), which no register shows. -/
  aonCycle : Word
  /-- PMBus page, STATUS_WORD and STATUS_TEMPERATURE, ALERT_N asserted, alert response read, CLEAR_FAULTS done since. -/
  page : Nat
  stat : Nat
  statT : Nat
  alert : Bool
  alertRead : Bool
  cleared : Bool
  /-- The SMBus target's last answer: the bytes it returned, none for a NACK. -/
  smb : Option (List Byte)
  /-- JTAG instruction register, boundary-scan register, and the data register last captured. -/
  ir : Nat
  bsr : Nat
  dr : Nat
  deriving DecidableEq, Repr

/-- No firmware running. -/
def Hg.reset : Hg := { rom := false, swap := false, old := 0, renew := 0, claims := [], events := [], meas := none }

/-- An empty vault. -/
def Cleat.reset : Cleat := { cmd := none, lics := [], svn := [], reports := 0, wiping := false }

/-- The flash of a module that has stored nothing yet (log 48). -/
def Flash.reset : Flash :=
  { img := [], bank := [], lics := [], blobs := [], marks := [], markOut := [], cal := 0, ring := [],
    lease := 0x0007A120004C4B40#64, recal := [], log := [], erases := [], retired := 0, spare := 3712 }

/-- No firmware received. -/
def FwRx.reset : FwRx := { got := [], digest := none }

/-- No throttling. -/
def Thr.reset : Thr := { th := 0, thN := 0, lim := false, pw := 0, pwN := 0, ic := 0, icN := 0 }

/-- Every supply good, no pin asserted (log 20); the JTAG instruction after TRST_N is IDCODE (log 21). -/
def Board.reset : Board :=
  { vin := true, aux := true, charged := true, trip := false, tripLow := false, modReset := false, calLoad := false, calN := 0, aonCycle := 0,
    page := 0, stat := 0, statT := 0, alert := false, alertRead := false, cleared := false, smb := none, ir := 1, bsr := 0, dr := 0 }

/-- Cleared engine state (R70, R83): every part 0, tiles empty, configuration registers at their reset values (R92, R140, R194). -/
def Eng.clear : Eng :=
  { v := [], p := [], tcfg := [], full := [], rows := [], acc := [], accNf := [], accErr := [], mcfg := 0,
    vctl := 0xF7000000#64, vnf := 0, fact := 0 }

/-- A core after a cold reset (R83, R184, R230; log 6, 15, 16). -/
def Core.reset : Core :=
  { enabled := false, dead := false, ctxs := [], run := 0, sw := none, modePend := none, owner := 0, move := none,
    eng := Eng.clear, gpend := [], sr := 1, seed := none, slots := [], l1 := [], clk := 0, spad := [], spadEpoch := 0,
    flips := [], stores := [], deadTx := [], rgen := false, rst := false, rstTx := [], arr := [], tbar := none, tbarq := [], mbarq := [], trel := [], mbar := none,
    merges := [], rolls := [], flumes := [], cycOff := 0, tc := [], icache := [], cred := [], outq := [], errPend := none, pf := [],
    pfOut := [], fwBoot := 0 }

/-- An IDLE Flume context. -/
def Flume.reset : Flume :=
  { task := 0, priv := false, entry := none, nb := 0, half := 0, units := [], fail := none, endAt := none, take := 0,
    held := [], pos := 0, slots := [], ra := 0, stamps := [], chk := 0, miss := [] }

/-- A free, unmapped Ledger entry of partition 0 (R250). -/
def LEnt.free : LEnt :=
  { v := false, owner := 0, tier := 0, rsv := false, w := false, s := false, t := false, p := false, x := false,
    sec := false, g := false, mig := false, vpn := 0, next := none, chip := false }

/-- An empty slice. -/
def Slice.reset : Slice := { comp := [], filter := [], lines := [], clk := 0, reqs := [], wbs := [], attr := [], spentTags := [] }

/-- A sub-link that is DOWN (R397, R404): the credits are those of empty receive buffers. -/
def TtSub.reset : TtSub :=
  { ftx := 0, frx := 0, tries := 0, replay := [], out := [], credits := [(1, 2048), (2, 256), (3, 512), (4, 2304), (5, 64)],
    freed := [], locked := false, steered := false }

/-- No snapshot held. -/
def Snap.reset : Snap :=
  { swept := [], copies := [], cmds := [], rollback := none, first := false, mirC := [], mirF := [], mirOut := false }

/-- An idle LPDDR5X controller. -/
def Lc.reset : Lc := { input := [], queue := [] }

/-- Why the step function can stop with a fault: nothing in the part does (every command answers a next state), so no
constructor is raised by a meaning; `impossible` exists so that the type is inhabited for statements and is safe. -/
inductive Fault where
  /-- Raised by no command: the manual gives every command an effect.  Safe. -/
  | impossible
  deriving DecidableEq, Repr

/-- Why a command can be refused. -/
inductive Refusal where
  /-- The command named has no meaning in the model yet; raised only by exec's arms.  Safe. -/
  | notModelled (mnemonic : String)
  deriving DecidableEq, Repr

/-- The state of the part. -/
structure State where
  /-- Commands waiting, first in first out. -/
  pending : List Instr
  /-- Registers of register space that are held as such, by offset from 0xF000_0000_0000. -/
  regs : Tab Word
  rsp : Rsp
  /-- The model's own counter that makes each free value a fresh one (log 10). -/
  free : Nat
  /-- Packets in flight on the Weir, the Canal and their ports, in the order sent. -/
  net : List Packet
  cores : Tab Core
  /-- Core-island ticks since power-up, shared by the cores (R81, log 2). -/
  coreTick : Nat
  /-- HBM3E and LPDDR5X bytes written since the last cold reset, by device-physical address (R228, R530). -/
  mem : List Host.Cell
  memEpoch : Nat
  /-- 32-bit words (address / 4) found uncorrectable in storage (R449). -/
  badw : List Nat
  /-- Flip masks left in slice lines, by word address / 4 (R463). -/
  flips : Tab Nat
  ledger : Tab LEnt
  anchors : Tab Nat
  /-- Frames that the firmware's clearing set to zero: a byte of them that `mem` does not list reads 0 (R156). -/
  zeroed : List Nat
  slices : Tab Slice
  lcs : Tab Lc
  /-- Writers held at their homes, in order of arrival (R258, R409, R430). -/
  held : List Packet
  lgops : Tab LgOp
  /-- Ledger commands that wait for the engine: window, operation, LE_FRAME, LE_VPN and LE_ARG (R256). -/
  lgWait : List (Nat × Nat × Word × Word × Word)
  /-- Translation caches of the Sluice units, Hawser ports, Capstan and Tether by endpoint: (partition, page) (R254). -/
  ecache : Tab (List (Nat × Nat))
  /-- Channels held by a PHY recalibration: controller endpoint and channel (R39, R505). -/
  recal : List (Nat × Nat)
  /-- 4 KiB regions under background test (R461): unit endpoint and region; the next region of a unit, and the spare columns
  used, under endpoint * 65536 + macro (R462). -/
  tbt : List (Nat × Nat)
  tbtNext : Tab Nat
  spares : Tab Nat
  /-- Disabled ways of slices, as slice * 16 + way (R459). -/
  waysOff : List Nat
  /-- Next channel of a controller's recalibration rotation (R505). -/
  recalNext : Tab Nat
  /-- Dredge walks by unit endpoint: place in the walk, island cycle at which the lap began (R456). -/
  dredge : Tab (Nat × Nat)
  /-- Correction writes on their way (R458): unit, line, whether it corrects the slice's array, whether a foreground write to
  the line has been accepted since. -/
  corr : List (Nat × Nat × Bool × Bool)
  /-- Background cycles of a controller or Canal link in the current and in the last window (R36), and the units that have
  deferred work in the current one (R38). -/
  bg : Tab Nat
  bgLast : Tab Nat
  bgDefer : List Nat
  /-- Sub-links of the Tether. -/
  tt : Tab TtSub
  /-- Messages the Tether has released to its attachments: sub-link and message (R400). -/
  ttIn : List (Nat × TMsg)
  snoops : List Snoop
  cwReqs : List CwReq
  /-- Lines answered by the companion that their waiting reader has not taken: data, or none for a failure. -/
  cwBuf : Tab (Option Line)
  snaps : Tab Snap
  /-- Waiters of the knots, oldest first: chip knot j under j, core knot k of core c under 8192 + 64 c + k (R316). -/
  kwaits : Tab (List KWaiter)
  /-- Arrival bitmaps of the hitches, as lists of cores (R326). -/
  harrs : Tab (List Nat)
  /-- Arrivals held while a hitch is in XWAIT (R329). -/
  hheld : Tab (List Packet)
  /-- HWAITs waiting at the hubs (R330). -/
  hwaits : Tab (List Packet)
  /-- Hitch groups for which this module has sent (XG, GEN): by group, the hitch and its generation (R333). -/
  xsent : Tab (Nat × Nat)
  /-- Culvert channel n of core c under 8 c + n, chip-level channel n of port p under 8192 + 16 p + n (R293, R392). -/
  chans : Tab Chn
  /-- Sluice units (R197). -/
  slus : Tab Slu
  /-- Records of collectives, under partition * 512 + index, and the sequences whose record has been replaced (R387). -/
  capRec : Tab CapRec
  capGone : List (Nat × Nat)
  /-- Hawser ports, Capstan groups, and where a moving Spillway switch goes: 0 CLOSED, 1 OPEN. -/
  ports : Tab Port
  grps : Tab Grp
  spwTo : Tab Nat
  /-- DDONE frames that wait for writes to the companion window: the writer's identity and the frame (R393). -/
  ddPend : List (Nat × Frame)
  /-- Cells of a frame that lie encrypted under a key other than the frame's present one: frame, key (partition, 8 for the
  chip's), cells (R471, R500, R530). -/
  ciph : List (Nat × Nat × List Host.Cell)
  cleat : Cleat
  flash : Flash
  hgs : Tab Hg
  fwrx : Tab FwRx
  /-- Cores that HG_CORERST OP 2 disabled and no spare has replaced (R502), and Sluice units whose microcode is being loaded
  (R504). -/
  swapOut : List Nat
  slUpd : List Nat
  thrs : Tab Thr
  board : Board
  /-- The next bring-up step to complete, 15 when bring-up has ended; whether it follows a warm reset; the cycle of step 1
  (R489, R500). -/
  boot : Nat
  bootWarm : Bool
  bootStart : Nat
  deriving DecidableEq, Repr

/-- The part right after a cold reset. -/
def State.reset : State :=
  { pending := [], regs := [], rsp := .none, free := 0, net := [], cores := [], coreTick := 0, mem := [], memEpoch := 0,
    badw := [], flips := [], ledger := [], anchors := [], zeroed := [], slices := [], lcs := [], held := [], lgops := [], lgWait := [], ecache := [], recal := [], tbt := [], tbtNext := [], spares := [], waysOff := [], recalNext := [], dredge := [], corr := [], bg := [], bgLast := [], bgDefer := [], tt := [],
    ttIn := [], snoops := [], cwReqs := [], cwBuf := [], snaps := [], kwaits := [], harrs := [], hheld := [], hwaits := [], xsent := [], chans := [], slus := [], capRec := [], capGone := [],
    ports := [], grps := [], spwTo := [], ddPend := [], ciph := [], cleat := Cleat.reset, flash := Flash.reset, hgs := [],
    fwrx := [], swapOut := [], slUpd := [], thrs := [], board := Board.reset, boot := 1, bootWarm := false, bootStart := 0 }

end Sys2Proof.Machine
end

