-- ==== Sys2Proof/Machine/Ops.lean ====
section
/-! DEFINITION. The named operations every meaning is built from: registers, cores and contexts, free values, packets,
the error log, interrupts, and taking an exception (R77) and returning from one (R61). -/

namespace Sys2Proof.Machine

/-- Values the fuse map of the modelled module loads (log 4): life cycle TEST with its pattern, every core good, HG-W
primary, core IDs. -/
def fuseReset (a : Nat) : Nat :=
  if a = rFU_LC then 0x101
  else if rFU_COREMAP 0 ≤ a ∧ a ≤ rFU_COREMAP 10 then 0xFFFFFFFFFFFFFFFF
  else if a = rHG_STAT 0 then 0x8000000000000000
  else if rCORE_ID 0 ≤ a ∧ a ≤ rCORE_ID 1023 ∧ (a - rCORE_ID 0) % 0x10000 = 0 then (a - rCORE_ID 0) / 0x10000
  else 0

/-- What a register holds after a cold reset (the tables' values and the fuse map's). -/
def resetOf (a : Nat) : Word := n64 (tableReset a ||| fuseReset a)

/-- The stored value of the register at offset `a`. -/
def State.reg (s : State) (a : Nat) : Word := (tget? a s.regs).getD (resetOf a)

/-- Store a register's value. -/
def State.setReg (s : State) (a : Nat) (v : Word) : State := { s with regs := tset a v s.regs }

/-- Return a register to its reset value. -/
def State.resetReg (s : State) (a : Nat) : State := { s with regs := tdel a s.regs }

/-- Field of a stored register. -/
def State.fld (s : State) (a : Nat) (f : Fld) : Nat := fget (s.reg a) f

/-- One-bit field of a stored register. -/
def State.flag (s : State) (a : Nat) (f : Fld) : Bool := fbit (s.reg a) f

/-- Write one field of a stored register. -/
def State.setFld (s : State) (a : Nat) (f : Fld) (x : Nat) : State := s.setReg a (fset (s.reg a) f x)

/-- Write a one-bit field. -/
def State.setFlag (s : State) (a : Nat) (f : Fld) (b : Bool) : State := s.setReg a (fsetB (s.reg a) f b)

/-- Add to a 64-bit counter register, which wraps. -/
def State.count (s : State) (a n : Nat) : State := s.setReg a (s.reg a + n64 n)

/-- Add to a field that saturates. -/
def State.countSat (s : State) (a : Nat) (f : Fld) (n : Nat) : State := s.setReg a (faddSat (s.reg a) f n)

/-- The core with an ID. -/
def State.core (s : State) (c : Nat) : Core := tget Core.reset s.cores c

/-- Replace a core. -/
def State.setCore (s : State) (c : Nat) (k : Core) : State := { s with cores := tset c k s.cores }

/-- Change a core. -/
def State.modCore (s : State) (c : Nat) (f : Core → Core) : State := s.setCore c (f (s.core c))

/-- A context's bank. -/
def Core.ctx (k : Core) (i : Nat) : Ctx := tget Ctx.reset k.ctxs i

/-- Replace a context's bank. -/
def Core.setCtx (k : Core) (i : Nat) (x : Ctx) : Core := { k with ctxs := tset i x k.ctxs }

/-- Change a context's bank. -/
def State.modCtx (s : State) (c i : Nat) (f : Ctx → Ctx) : State := s.modCore c fun k => k.setCtx i (f (k.ctx i))

/-- A g register; g0 reads 0 (R42). -/
def Ctx.gr (x : Ctx) (r : Nat) : Word := if r = 0 then 0 else tget 0 x.g r

/-- Write a g register; a write of g0 is discarded (R42). -/
def Ctx.setG (x : Ctx) (r : Nat) (v : Word) : Ctx := if r = 0 then x else { x with g := tset r v x.g }

/-- Is the context at privilege M (R60). -/
def Ctx.isM (x : Ctx) : Bool := fbit x.mstatus MSTATUS_PRIV

/-- The running context of a core. -/
def State.cur (s : State) (c : Nat) : Ctx := (s.core c).ctx (s.core c).run

/-- Change the running context of a core. -/
def State.modCur (s : State) (c : Nat) (f : Ctx → Ctx) : State := s.modCtx c (s.core c).run f

/-- A g register of the running context. -/
def State.g (s : State) (c r : Nat) : Word := (s.cur c).gr r

/-- Core CYCLE (R81). -/
def State.cycle (s : State) (c : Nat) : Nat := (s.coreTick + (s.core c).cycOff) % 2 ^ 64

/-- The running context's instruction of `len` bytes has executed: the PC moves past it and INSTRET counts it (R82). -/
def State.retire (s : State) (c len : Nat) : State :=
  (s.modCur c fun x => { x with pc := x.pc + n64 len, wait := .none }).count (rINSTRET c) 1

/-- The running context writes `v` to g register `r` and its instruction of `len` bytes retires. -/
def State.retireG (s : State) (c r : Nat) (v : Word) (len : Nat) : State :=
  (s.modCur c fun x => x.setG r v).retire c len

/-- A transfer of control to `target`, low 2 bits cleared (R48). -/
def State.jump (s : State) (c : Nat) (target : Word) : State :=
  (s.modCur c fun x => { x with pc := target &&& ~~~ 3#64, wait := .none }).count (rINSTRET c) 1

/-- Take a fresh free value (log 10). -/
def State.fresh (s : State) : Word × State := (Config.freeWord s.free, { s with free := s.free + 1 })

/-- Half of a core (R15): 0 west, 1 east. -/
def coreHalf (c : Nat) : Nat := bits c 9 9
/-- Column of a core in its half. -/
def coreCol (c : Nat) : Nat := bits c 8 5
/-- Row of a core. -/
def coreRow (c : Nat) : Nat := bits c 4 0
/-- Global column of a core (R358). -/
def coreX (c : Nat) : Nat := coreHalf c * 16 + coreCol c
/-- Does the ID name a physical core (R15). -/
def coreIdOk (c : Nat) : Bool := decide (c < 1024) && decide (coreRow c < 22)
/-- The core ID at a global column and a row. -/
def coreAt (x y : Nat) : Nat := (x / 16) * 512 + (x % 16) * 32 + y
/-- Every physical core ID. -/
def allCores : List Nat := (List.range 1024).filter coreIdOk
/-- Bit of a core in a group mask and in the core map (R327). -/
def coreMaskBit (c : Nat) : Nat := coreHalf c * 352 + coreCol c * 22 + coreRow c

/-- The partition of a core (CORE_ID.PART). -/
def State.part (s : State) (c : Nat) : Nat := s.fld (rCORE_ID c) CORE_ID_PART

/-- Does core `c` lie in a column of partition `p`, which is enabled (R358). -/
def State.inCols (s : State) (p c : Nat) : Bool :=
  s.flag (rPT_RANGE p) PT_RANGE_EN &&
    decide (s.fld (rPT_RANGE p) PT_RANGE_FIRST ≤ coreX c) && decide (coreX c ≤ s.fld (rPT_RANGE p) PT_RANGE_LAST)

/-- Is core `c` an enabled core of partition `p` (R3, R358). -/
def State.owns (s : State) (p c : Nat) : Bool := coreIdOk c && (s.core c).enabled && s.inCols p c

/-- The enabled cores of a partition. -/
def State.partCores (s : State) (p : Nat) : List Nat := allCores.filter fun c => s.owns p c

/-- Set a pending interrupt source of a core (R78). -/
def State.ipend (s : State) (c b : Nat) : State :=
  s.setReg (rIPEND c) (s.reg (rIPEND c) ||| n64 (2 ^ b))

/-- A Headgate's firmware side. -/
def State.hgx (s : State) (h : Nat) : Hg := tget Hg.reset s.hgs h

/-- Change it. -/
def State.modHgx (s : State) (h : Nat) (f : Hg → Hg) : State := { s with hgs := tset h (f (s.hgx h)) s.hgs }

/-- Raise a Headgate event bit (R508, R509) at Headgate `h`: a bit that becomes set owes the companion an EVENT message. -/
def State.hgEvent (s : State) (h : Nat) (f : Fld) : State :=
  if s.flag (rHG_EVENT h) f then s
  else (s.setFlag (rHG_EVENT h) f true).modHgx h fun x => { x with events := x.events ++ [f.lo] }

/-- Raise a Headgate event at both Headgates; the manual names none for these events (log 24). -/
def State.hgEvents (s : State) (f : Fld) : State := (s.hgEvent 0 f).hgEvent 1 f

/-- The next READY or WAITING context after `i` in cyclic order (R67). -/
def Core.nextCtx (k : Core) (i : Nat) : Option Nat :=
  let ok := fun j => (k.ctx j).st == .ready || (k.ctx j).st == .waiting
  if ok ((i + 1) % 4) then some ((i + 1) % 4)
  else if ok ((i + 2) % 4) then some ((i + 2) % 4)
  else if ok ((i + 3) % 4) then some ((i + 3) % 4)
  else none

/-- Is the core in maintenance mode (R65). -/
def State.maint (s : State) (c : Nat) : Bool := s.flag (rCORE_MODE c) CORE_MODE_MAINT

/-- The core-halt event (R77, R508): HG_EVENT.HALT of the core's half, HG_HALT. -/
def coreHalt (c : Nat) (s : State) : State :=
  let h := coreHalf c
  let s := s.hgEvent h HG_EVENT_HALT
  (s.countSat (rHG_HALT h) HG_HALT_COUNT 1).setFld (rHG_HALT h) HG_HALT_ID c

/-- Context `i` becomes the running one; it issues when the switch has ended (R68, R69). -/
def switchIn (c i : Nat) (s : State) : State :=
  s.modCore c fun k => { k.setCtx i { k.ctx i with st := .running } with run := i, sw := some i }

/-- Halt context `i` as a double fault does (R77, R452); the other contexts continue: in maintenance mode the hardware
switches to the next one (log 25). -/
def haltCtx (c i : Nat) (s : State) : State :=
  let s := coreHalt c (s.modCtx c i fun x => { x with st := .halted, wait := .none })
  if s.maint c && (s.core c).run == i then
    match (s.core c).nextCtx i with
    | some j => switchIn c j s
    | none => s
  else s

/-- TAKING AN EXCEPTION OR AN INTERRUPT in context `i` of core `c` (R77, R79): saved PC, cause and value, privilege M,
interrupts off, INEXC, PC at MTVEC.  With INEXC already 1 an exception is a double fault; DESIGN CHOICE (log 66): an interrupt
enters the handler anew. -/
def enterExc (c i : Nat) (int : Bool) (code : Nat) (ev : Word) (s : State) : State :=
  let x := (s.core c).ctx i
  if fbit x.mstatus MSTATUS_INEXC && !int then haltCtx c i s
  else
    let st := x.mstatus
    let st := fset st MSTATUS_PPRIV (fget st MSTATUS_PRIV)
    let st := fset st MSTATUS_PRIV 1
    let st := fset st MSTATUS_PIE (fget st MSTATUS_IE)
    let st := fset st MSTATUS_IE 0
    let st := fset st MSTATUS_INEXC 1
    s.modCtx c i fun x =>
      { x with
        epc := x.pc
        ecause := n64 (b2n int <<< 63 ||| code)
        eval := ev
        mstatus := st
        wait := .none
        pc := s.reg (rMTVEC c) }

/-- The exceptions of R76. -/
inductive Exc where
  | illegal | priv | ifetch | misalign | loadPage | storePage | access | dataErr | tileEmpty | tileShape
  | ecall | brk | knot | hitch | stream | engine
  deriving DecidableEq, Repr

/-- Codes of R76. -/
def Exc.code : Exc → Nat
  | .illegal => 1 | .priv => 2 | .ifetch => 3 | .misalign => 4 | .loadPage => 5 | .storePage => 6 | .access => 7
  | .dataErr => 8 | .tileEmpty => 9 | .tileShape => 10 | .ecall => 11 | .brk => 12 | .knot => 13 | .hitch => 14
  | .stream => 15 | .engine => 16

/-- The running context of a core takes an exception. -/
def trap (c : Nat) (e : Exc) (ev : Word) (s : State) : State := enterExc c (s.core c).run false e.code ev s

/-- RETURN FROM A HANDLER (R61 MRET). -/
def leaveExc (c : Nat) (s : State) : State :=
  let st := (s.cur c).mstatus
  let st := fset st MSTATUS_PRIV (fget st MSTATUS_PPRIV)
  let st := fset st MSTATUS_IE (fget st MSTATUS_PIE)
  let st := fset st MSTATUS_INEXC 0
  (s.modCur c fun x => { x with mstatus := st, pc := x.epc &&& ~~~ 3#64, wait := .none }).count (rINSTRET c) 1

/-- Kinds of the error log (R464). -/
inductive ErrKind where
  | ce | ue | ueScrub | refetch | tbtRepair | tbtHard | restored | sliceLost | flitDrop | writeLost | bistRepair | bistFail
  deriving DecidableEq, Repr

/-- KIND codes (R464). -/
def ErrKind.code : ErrKind → Nat
  | .ce => 1 | .ue => 2 | .ueScrub => 3 | .refetch => 4 | .tbtRepair => 5 | .tbtHard => 6 | .restored => 7
  | .sliceLost => 8 | .flitDrop => 9 | .writeLost => 10 | .bistRepair => 11 | .bistFail => 12

/-- Does the kind belong to the uncorrectable class (R464). -/
def ErrKind.unc : ErrKind → Bool
  | .ce | .refetch | .tbtRepair | .restored | .bistRepair => false
  | _ => true

/-- Is the kind fatal (R454). -/
def ErrKind.fatal : ErrKind → Bool
  | .sliceLost | .flitDrop | .writeLost => true
  | _ => false

/-- Word 0 of an entry without its COUNT (R464). -/
def errHead (kind : ErrKind) (source struct : Nat) : Nat :=
  2 ^ 63 ||| (kind.code <<< 56) ||| (source <<< 44) ||| (struct <<< 40)

/-- The line that an event's ADDR lies in (R465). -/
def errLine (struct addr : Nat) : Nat := if struct = 9 ∨ struct = 10 then addr / 128 else addr / 32

/-- Does entry `e` match the event (R465 step 1). -/
def errMatch (s : State) (head struct addr e : Nat) : Bool :=
  ((s.reg (rEL_ENTRY0 e)).toNat / 2 ^ 16 * 2 ^ 16 == head) &&
    (errLine struct (bits (s.reg (rEL_ENTRY1 e)).toNat 47 0) == errLine struct addr)

/-- The first matching entry below `n`. -/
def errFind (s : State) (head struct addr : Nat) : Nat → Option Nat
  | 0 => none
  | n + 1 => match errFind s head struct addr n with
    | some e => some e
    | none => if errMatch s head struct addr n then some n else none

/-- IPEND.MSG of core ICORE with IEN, and a Headgate event (R465). -/
def errRaise (s : State) : State :=
  let s := if s.flag rEL_CTL EL_CTL_IEN then s.ipend (s.fld rEL_CTL EL_CTL_ICORE) 5 else s
  s.hgEvents HG_EVENT_ERRLOG

/-- Record an error event (R454, R464, R465). `fatal` marks the events that set FATAL beside the fatal kinds (R455). -/
def logErr (kind : ErrKind) (source struct addr bank pc synd : Nat) (fatal : Bool) (s : State) : State :=
  let head := errHead kind source struct
  let cal := s.reg rCAL_TIME
  let s := if kind.unc then s.count rEL_UE 1 else s.count rEL_CE 1
  let fat := fatal || kind.fatal
  let s := if fat then s.setFlag rEL_STAT EL_STAT_FATAL true else s
  let th := s.fld rEL_CTL EL_CTL_THRESH
  let (s, n) := match errFind s head struct addr 256 with
    | some e =>
      let w := (s.reg (rEL_ENTRY0 e)).toNat
      let n := min (w % 65536 + 1) 65535
      ((s.setReg (rEL_ENTRY0 e) (n64 (head ||| n))).setReg (rEL_ENTRY3 e) cal, n)
    | none =>
      let e := s.fld rEL_STAT EL_STAT_WPTR
      if bit (s.reg (rEL_ENTRY0 e)).toNat 63 && !s.flag rEL_CTL EL_CTL_OVW then
        (s.countSat rEL_STAT EL_STAT_DROPPED 1, 0)
      else
        let s := s.setReg (rEL_ENTRY0 e) (n64 (head ||| 1))
        let s := s.setReg (rEL_ENTRY1 e) (n64 addr)
        let s := s.setReg (rEL_ENTRY2 e) (n64 ((bank <<< 32) ||| (pc <<< 24) ||| synd))
        let s := s.setReg (rEL_ENTRY3 e) cal
        (s.setFld rEL_STAT EL_STAT_WPTR ((e + 1) % 256), 1)
  let hard := decide (n ≠ 0) && n == th
  let s := if hard then s.setFlag rEL_STAT EL_STAT_HARD true else s
  if kind.unc || fat || hard then errRaise s else s

/-- Is a core's ejection gate open: the partition whose columns hold it is not in a reset (R352, R361). -/
def coreOpen (s : State) (i : Nat) : Bool := !(s.inCols (s.part i) i && s.fld (rPT_STAT (s.part i)) PT_STAT_STATE == 2)

/-- Packet classes of R342. -/
abbrev clsREQ : Nat := 0
abbrev clsRSP : Nat := 1
abbrev clsSYNC : Nat := 2
abbrev clsBCAST : Nat := 3
abbrev clsMGMT : Nat := 4
abbrev clsSLC : Nat := 5

/-- Operations of R343. -/
abbrev opRD : Nat := 0x00
abbrev opWR : Nat := 0x01
abbrev opATOM : Nat := 0x02
abbrev opRD_DATA : Nat := 0x03
abbrev opWR_ACK : Nat := 0x04
abbrev opNACK : Nat := 0x05
abbrev opKNOT : Nat := 0x06
abbrev opKNOT_RSP : Nat := 0x07
abbrev opHITCH : Nat := 0x08
abbrev opHITCH_DONE : Nat := 0x09
abbrev opMERGE : Nat := 0x0A
abbrev opSPENT : Nat := 0x0B
abbrev opMSG : Nat := 0x0C
abbrev opFW_CHUNK : Nat := 0x0D
abbrev opSHOOTDOWN : Nat := 0x0E
abbrev opPF_RD : Nat := 0x0F
abbrev opWITHDRAW : Nat := 0x10
abbrev opCREDIT : Nat := 0x11

/-- A packet with every tag field clear. -/
def mkPkt (dst src cls op part addr : Nat) : Packet :=
  { dst := dst, src := src, cls := cls, part := part, fmt := 0xF, tag := 0, nf := false, last := true, braid := false,
    snap := false, det := false, vn := false, op := op, rgen := false, txid := 0, len16 := 0, cause := 0, addr := addr,
    payload := 0, size := 0, mask := 0, bad := 0, sub := 0, lost := none, fixes := [] }

/-- The response to a request: back to its source with its transaction number, generation and tags (R342). -/
def reply (q : Packet) (op : Nat) : Packet :=
  { q with dst := q.src, src := q.dst, cls := clsRSP, op := op, len16 := 0, cause := 0, payload := 0, bad := 0, size := q.size }

/-! Ways through the fabrics (R345-R353): what a packet's way counts. -/

/-- Half of an endpoint that has a Weir port (R339, R341). -/
def weirHalf (e : Nat) : Option Nat :=
  if coreIdOk e then some (coreHalf e)
  else if 0x400 ≤ e ∧ e < 0x500 then some ((e - 0x400) / 128)
  else if 0x540 ≤ e ∧ e < 0x550 then some ((e - 0x540) / 8)
  else if e = 0x550 then some 0 else none

/-- Row of the side attachment `e` and its half (R347). -/
def sidePos (e : Nat) : Option (Nat × Nat) :=
  let at' := fun (l : List Nat) i => (l[i]?).getD 0
  if 0x510 ≤ e ∧ e < 0x520 then some ((e - 0x510) / 8, at' [0, 2, 4, 7, 14, 17, 19, 21] ((e - 0x510) % 8))
  else if 0x520 ≤ e ∧ e < 0x530 then some ((e - 0x520) / 8, at' [1, 3, 6, 8, 13, 15, 18, 20] ((e - 0x520) % 8))
  else if 0x530 ≤ e ∧ e < 0x534 then some ((e - 0x530) / 2, at' [5, 16] (e % 2))
  else if e = 0x534 ∨ e = 0x535 then some (e - 0x534, 9)
  else if e = 0x536 ∨ e = 0x537 then some (e - 0x536, 10)
  else if e = 0x538 ∨ e = 0x539 then some (e - 0x538, 11) else none

/-- Canal coordinates X, Y of an endpoint; a slice uses its stack's port (R15, R347, R348). -/
def canalPos (e : Nat) : Option (Nat × Nat) :=
  let n := if 0x400 ≤ e ∧ e < 0x500 then (e - 0x400) / 16 else e - 0x500
  if coreIdOk e then some (coreHalf e * 16 + coreCol e, e % 32)
  else if (0x400 ≤ e ∧ e < 0x500) ∨ (0x500 ≤ e ∧ e < 0x510) then
    some (n / 8 * 17 + 4 * (n % 4) + 1, if n / 4 % 2 = 0 then 0 else 21)
  else (sidePos e).map fun x => (31 * x.1, x.2)

/-- Is `m` strictly after `a` on the way to `b`, the end included. -/
def onWay (a b m : Nat) : Bool := (decide (a < m) && decide (m ≤ b)) || (decide (b ≤ m) && decide (m < a))

/-- Routers that the fuse map marks DEAD, as X, Y (R349). -/
def deadRouters (s : State) : List (Nat × Nat) :=
  s.regs.filterMap fun x =>
    if rRT_CFG 0 ≤ x.1 ∧ x.1 < rRT_CFG 704 ∧ fbit x.2 RT_CFG_DEAD = true then
      some ((x.1 - rRT_CFG 0) / 8 % 32, (x.1 - rRT_CFG 0) / 8 / 32) else none

/-- Does a router lie on the way from `a` to `b` in its dimension order: `yx` first along Y (R350). -/
def wayMeets (yx : Bool) (a b r : Nat × Nat) : Bool :=
  if yx then (r.1 == a.1 && onWay a.2 b.2 r.2) || (r.2 == b.2 && onWay a.1 b.1 r.1)
  else (r.2 == a.2 && onWay a.1 b.1 r.1) || (r.1 == b.1 && onWay a.2 b.2 r.2)

/-- What the fabrics count of a packet: the Weir meter's bytes across the Splice (R346), or a detour of the Canal (R351). -/
def countWay (p : Packet) (s : State) : State :=
  if p.cls = clsBCAST then s
  else match weirHalf p.src, weirHalf p.dst with
  | some a, some b =>
    if decide (p.src < 0x400) && decide (p.dst < 0x400) then countCanal p s
    else if a = b then s else s.count (if a = 0 then rWR_XBYTES_WE else rWR_XBYTES_EW) 128
  | _, _ => countCanal p s
where
  countCanal (p : Packet) (s : State) : State :=
    match canalPos p.src, canalPos p.dst with
    | some a, some b =>
      if (deadRouters s).any (wayMeets (sidePos p.dst).isSome a b) then s.count rCN_DETOUR 1 else s
    | _, _ => s

/-- What the fabrics count of `n` lines that an attachment reads from or writes to an endpoint: a request and a response each
(R350, R351, R357). -/
def countLines (ep home n : Nat) (s : State) : State :=
  each (fun _ s => countWay (mkPkt ep home clsRSP opWR_ACK 0 0) (countWay (mkPkt home ep clsREQ opWR 0 0) s)) (List.range n) s

/-- What the Canal counts of a frame of `n` payload bytes on its way between two attachments, in packets of 128 bytes and at least
one (R351, R357, log 40). -/
def countFrame (src dst n : Nat) (s : State) : State :=
  each (fun _ s => countWay (mkPkt dst src clsREQ opWR 0 0) s) (List.range (max 1 ((n + 127) / 128))) s

/-- Send a packet. -/
def State.send (s : State) (p : Packet) : State := let t := countWay p s; { t with net := t.net ++ [p] }

/-- A broadcast: a copy that meets a DEAD router detours (R351, R353). -/
def countBcast (s : State) : State := (s.count rCN_BCAST 1).count rCN_DETOUR (deadRouters s).length

/-- Take a packet out of the fabric if it is there (a request may also come from an agent outside the model, log 9). -/
def State.unsend (s : State) (p : Packet) : State := { s with net := s.net.erase p }

/-- Is a SOURCE of the error log one of the Splice's two parts (R464). -/
def atSplice (r : Nat) : Bool := r == 0xF00 || r == 0xF01

/-- A switch corrects a transfer word and passes it on (R34): the Splice counts it (R365), and the switch logs a CE, as every read
that corrects a word does (R446, R464; DEDUCED, log 65). -/
def wordFixed (x : Nat × Nat × Nat × Nat) (s : State) : State :=
  logErr .ce x.1 x.2.1 x.2.2.1 0 0 x.2.2.2 false (if atSplice x.1 then s.countSat rSP_ERR SP_ERR_CORR 1 else s)

/-- Is an endpoint ID reserved (R341): a core ID with a row above 21 names no core (R15). -/
def reservedEp (e : Nat) : Bool :=
  !(coreIdOk e || (decide (0x400 ≤ e) && decide (e < 0x53A)) || (decide (0x540 ≤ e) && decide (e < 0x551)) || e == 0xFFF)

/-- A packet to a reserved endpoint is answered with a NACK of cause NO_DEST and counted (R341, R365); a response to one is
dropped, as a router drops the responses that it does not eject (R352; DEDUCED, log 67). -/
def noDest (q : Packet) (s : State) : State :=
  let s := (s.unsend q).countSat rCN_NACK CN_NACK_NO_DEST 1
  if q.cls = clsRSP then s else s.send { reply q opNACK with cause := 2 }

/-- A packet's way: the transfer words that its switches correct, and a router that finds its header lane uncorrectable, which
drops the flit and logs FLIT_DROP with itself as SOURCE and the word's position (R453); any other packet is delivered, if its
destination exists (R341). -/
def delivered (p : Packet) (f : Packet → State → State) (s : State) : State :=
  let q := { p with lost := none, fixes := [] }
  let s := each wordFixed p.fixes s
  match p.lost with
  | some (r, w) =>
    logErr .flitDrop r 11 w 0 0 0 false ((if atSplice r then s.countSat rSP_ERR SP_ERR_UNCORR 1 else s).unsend q)
  | none => if reservedEp q.dst then noDest q s else f q s

/-- Is the packet in flight. -/
def State.inNet (s : State) (p : Packet) : Bool := s.net.contains p

end Sys2Proof.Machine
end

