-- ==== Sys2Proof/Machine/AddrMap.lean ====
section
/-! DEFINITION. Where an address lives: the device-physical map (R228), interleave (R246-R249), endpoints (R341), and
the Ledger walk (R250-R253). -/

namespace Sys2Proof.Machine

/-- HBM3E region (R228). -/
def isHbm (pa : Nat) : Bool := decide (pa < 0x00C000000000)
/-- LPDDR5X region (R228). -/
def isLp (pa : Nat) : Bool := decide (0x010000000000 ≤ pa) && decide (pa < 0x018000000000)
/-- Companion window (R228). -/
def isCw (pa : Nat) : Bool := decide (0x400000000000 ≤ pa) && decide (pa < 0x800000000000)
/-- Register space (R43, R228). -/
def isRegSpace (a : Nat) : Bool := decide (0xF00000000000 ≤ a) && decide (a < 0x1000000000000)

/-- First LPDDR5X frame index (R250). -/
abbrev lpBase : Nat := 393216
/-- Number of frames (R250). -/
abbrev nFrames : Nat := 655360

/-- Frame index of a memory address (R250, R413). -/
def frameOf (pa : Nat) : Nat := if isHbm pa then pa / 2 ^ 21 else lpBase + (pa - 0x010000000000) / 2 ^ 21

/-- First device-physical address of a frame. -/
def framePa (f : Nat) : Nat := if f < lpBase then f * 2 ^ 21 else 0x010000000000 + (f - lpBase) * 2 ^ 21

/-- Is frame pair `j` one of the Gauge or Ledger region, which lie in uniform pairs whatever HL_RANGE holds (R156, R246). -/
def chipPair (s : State) (j : Nat) : Bool :=
  j / 2 == s.fld rGAUGE_BASE GAUGE_BASE_BASE || j / 4 == s.fld rLG_BASE LG_BASE_BASE

/-- Is frame pair `j` half-local (R246). -/
def halfLocal (s : State) (j : Nat) : Bool :=
  s.flag rHL_RANGE HL_RANGE_EN && !chipPair s j && decide (s.fld rHL_RANGE HL_RANGE_FIRST ≤ j) && decide (j ≤ s.fld rHL_RANGE HL_RANGE_LAST)

/-- Interleave class of a frame (R257): 0 uniform, 1 west half-local, 2 east half-local. -/
def frameClass (s : State) (f : Nat) : Nat := if halfLocal s (f / 2) then 1 + f % 2 else 0

/-- Stack and stack-local address of an HBM3E address (R247). -/
def hbmMap (s : State) (pa : Nat) : Nat × Nat :=
  let f := pa / 2 ^ 21
  let b := bits pa 20 8
  let y := bits pa 7 0
  if halfLocal s (f / 2) then
    let h := f % 2
    (8 * h + nxor (nxor (bits b 2 0) (bits b 5 3)) (bits b 8 6),
     ((f - h) + bits b 12 12) * 131072 + bits b 11 3 * 256 + y)
  else
    (nxor (nxor (bits b 3 0) (bits b 7 4)) (bits b 11 8), f * 131072 + bits b 12 4 * 256 + y)

/-- Pseudo-channel of a stack-local address (R248). -/
def saPc (sa : Nat) : Nat := nxor (bits sa 12 8) (bits sa 17 13)
/-- Bank of a stack-local address (R248). -/
def saBank (sa : Nat) : Nat := nxor (bits sa 23 18) (bits sa 29 24)

/-- LPDDR5X controller, channel and bank of an address (R249). -/
def lpMap (pa : Nat) : Nat × Nat × Nat :=
  let g := (pa - 0x010000000000) / 2 ^ 21
  let b := bits pa 20 8
  let lc := nxor (nxor (bits b 3 0) (bits b 7 4)) (bits b 11 8)
  let la := g * 131072 + bits b 12 4 * 256 + bits pa 7 0
  (lc, nxor (bits la 9 8) (bits la 11 10), nxor (bits la 15 12) (bits la 19 16))

/-- Home slice of an HBM3E or companion line (R241, R248). -/
def homeSlice (s : State) (pa : Nat) : Nat :=
  if isCw pa then nxor (bits pa 15 8) (bits pa 23 16)
  else
    let (st, sa) := hbmMap s pa
    16 * st + saPc sa / 2

/-- The stack or LPDDR5X controller number that holds an address (R201). -/
def unitOf (s : State) (pa : Nat) : Nat := if isLp pa then (lpMap pa).1 else (hbmMap s pa).1

/-- Endpoint IDs (R341). -/
abbrev epSlice (n : Nat) : Nat := 0x400 + n
abbrev epSC (n : Nat) : Nat := 0x500 + n
abbrev epLC (n : Nat) : Nat := 0x510 + n
abbrev epHawser (n k : Nat) : Nat := 0x520 + 2 * n + k
abbrev epTether (h k : Nat) : Nat := 0x530 + 2 * h + k
abbrev epHG (h : Nat) : Nat := 0x534 + h
abbrev epHub (h : Nat) : Nat := 0x536 + h
abbrev epCapstan (h : Nat) : Nat := 0x538 + h
abbrev epSluice (n : Nat) : Nat := 0x540 + n
abbrev epLedger : Nat := 0x550
abbrev epBcast : Nat := 0xFFF

/-- Is the endpoint ID one of the table of R341. -/
def epOk (e : Nat) : Bool :=
  decide (e ≤ 0x54F) || e == 0x550 || e == 0xFFF

/-- Endpoint of an address's home (R20). -/
def homeEp (s : State) (pa : Nat) : Nat := if isLp pa then epLC (lpMap pa).1 else epSlice (homeSlice s pa)

/-- The Ledger entry of a frame; TIER follows the index (R250, R251). -/
def State.le (s : State) (f : Nat) : LEnt :=
  (tget? f s.ledger).getD { LEnt.free with tier := if lpBase ≤ f then 1 else 0 }

/-- Replace a Ledger entry. -/
def State.setLe (s : State) (f : Nat) (e : LEnt) : State := { s with ledger := tset f e s.ledger }

/-- The 128 bits of an entry (R251). -/
def leBits (e : LEnt) : Nat :=
  (b2n e.v <<< 127) ||| (e.owner <<< 124) ||| (e.tier <<< 122) ||| (b2n e.rsv <<< 121) ||| (b2n e.w <<< 120) |||
  (b2n e.s <<< 119) ||| (b2n e.t <<< 118) ||| (b2n e.p <<< 117) ||| (b2n e.x <<< 116) ||| (b2n e.sec <<< 115) |||
  (b2n e.g <<< 114) ||| (b2n e.mig <<< 113) ||| (e.vpn <<< 85) |||
  (match e.next with | some n => (n <<< 65) ||| (1 <<< 64) | none => 0)

/-- Anchor index of a page of a partition (R252). -/
def anchorIx (p vpn : Nat) : Nat := nxor (nxor (bits vpn 19 0) (bits vpn 26 20 <<< 13)) (p <<< 17)

/-- First frame of an anchor's chain: bit 31 V, bits 19:0 frame (R250). -/
def State.anchor (s : State) (h : Nat) : Option Nat :=
  let a := tget 0 s.anchors h
  if bit a 31 then some (bits a 19 0) else none

/-- Set an anchor. -/
def State.setAnchor (s : State) (h : Nat) (f : Option Nat) : State :=
  { s with anchors := tset h (match f with | some n => 2 ^ 31 ||| n | none => 0) s.anchors }

/-- Outcome of a walk (R252): the frame, a miss, or a chain of 64 entries. -/
inductive Walk where
  | hit (f : Nat)
  | miss
  | long
  deriving DecidableEq, Repr

/-- Walk a chain for (p, vpn) with at most `n` entries: a walk that has read its last one without a hit is long (R252). -/
def walkFrom (s : State) (p vpn : Nat) : Nat → Option Nat → Walk
  | 0, _ => .long
  | _ + 1, none => .miss
  | n + 1, some f =>
    let e := s.le f
    if e.v && e.owner == p && e.vpn == vpn then .hit f else walkFrom s p vpn n e.next

/-- The walk of R252. -/
def walk (s : State) (p vpn : Nat) : Walk := walkFrom s p vpn 64 (s.anchor (anchorIx p vpn))

/-- Count a walk of partition `p` (R254) and its long chain (R252). -/
def countWalk (p : Nat) (w : Walk) (s : State) : State :=
  let s := s.count (rLG_WALKS p) 1
  match w with
  | .long => s.countSat (rLG_XFAULT p) LG_XFAULT_LONGCHAIN 1
  | _ => s

/-- Scratchpad size in bytes of a partition's cores (R230). -/
def spadSize (s : State) (p : Nat) : Nat := s.fld (rCMEM_CFG p) CMEM_CFG_SPAD_SIZE * 131072
/-- Scratchpad virtual base of a partition (R230). -/
def spadBase (s : State) (p : Nat) : Nat := s.fld (rCMEM_CFG p) CMEM_CFG_SPAD_VBASE <<< 20

/-- Does an address lie in the 1 MiB scratchpad range (R231). -/
def inSpad (s : State) (p va : Nat) : Bool := decide (spadBase s p ≤ va) && decide (va < spadBase s p + 2 ^ 20)

/-- Does an address lie in the partition's companion window (R253). -/
def inCw (s : State) (p va : Nat) : Bool :=
  let b := s.fld (rCW_VBASE p) CW_VBASE_VBASE * 2 ^ 21
  s.flag (rCW_VBASE p) CW_VBASE_EN && decide (b ≤ va) && decide (va < b + s.fld (rCW_SIZE p) CW_SIZE_SIZE * 2 ^ 21)

/-- Device-physical address of a companion-window virtual address (R253). -/
def cwPa (s : State) (p va : Nat) : Nat :=
  0x400000000000 + s.fld (rCW_PBASE p) CW_PBASE_PBASE * 2 ^ 21 + (va - s.fld (rCW_VBASE p) CW_VBASE_VBASE * 2 ^ 21)

/-- Has the Tether opened the window byte for this access (R229, R414). -/
def cwOpenIn (s : State) (pa : Nat) (write : Bool) : Nat → Bool
  | 0 => false
  | n + 1 =>
    let b := 0x400000000000 + s.fld (rTT_CWBASE n) TT_CWBASE_BASE * 2 ^ 21
    (s.flag (rTT_CWBASE n) TT_CWBASE_EN && (!write || s.flag (rTT_CWBASE n) TT_CWBASE_WR) &&
      decide (b ≤ pa) && decide (pa < b + s.fld (rTT_CWSIZE n) TT_CWSIZE_SIZE * 2 ^ 21)) || cwOpenIn s pa write n

/-- Has the Tether opened the window byte for this access (R414), while the link carries line traffic (R396, R421, log 27). -/
def cwOpen (s : State) (pa : Nat) (write : Bool) : Bool :=
  s.fld rTT_STAT TT_STAT_WIDTH != 0 && cwOpenIn s pa write 8

/-- May slices cache the companion line (R411). -/
def cwCacheIn (s : State) (pa : Nat) : Nat → Bool
  | 0 => false
  | n + 1 =>
    let b := 0x400000000000 + s.fld (rTT_CWBASE n) TT_CWBASE_BASE * 2 ^ 21
    (s.flag (rTT_CWBASE n) TT_CWBASE_EN && s.flag (rTT_CWBASE n) TT_CWBASE_CACHE &&
      decide (b ≤ pa) && decide (pa < b + s.fld (rTT_CWSIZE n) TT_CWSIZE_SIZE * 2 ^ 21)) || cwCacheIn s pa n

/-- May slices cache the companion line (R411). -/
def cwCache (s : State) (pa : Nat) : Bool := cwCacheIn s pa 8

/-- Kinds of access that translate differently (R252). -/
inductive AccK where
  | load
  | store
  | fetch
  deriving DecidableEq, Repr

/-- The page exception of an access kind (R252). -/
def AccK.page : AccK → Exc
  | .load => .loadPage
  | .store => .storePage
  | .fetch => .ifetch

/-- The access exception of an access kind (R229, R252). -/
def AccK.acc : AccK → Exc
  | .fetch => .ifetch
  | _ => .access

/-- Where one virtual byte lies: scratchpad offset or device-physical address, or the exception it takes. -/
inductive Place where
  | spad (off : Nat)
  | mem (pa : Nat)
  | fail (e : Exc)
  deriving DecidableEq, Repr

/-- Translate a virtual byte address of partition `p` at privilege `m` (R43, R231, R252, R253, R229).  Register space
is a `fail` here; the scalar unit handles it before. -/
def place (s : State) (p : Nat) (m : Bool) (k : AccK) (va : Nat) : Place :=
  if 2 ^ 48 ≤ va then .fail k.page
  else if isRegSpace va then .fail k.acc
  else if inSpad s p va then
    (if va - spadBase s p < spadSize s p then .spad (va - spadBase s p) else .fail k.acc)
  else if inCw s p va then
    let pa := cwPa s p va
    if k = .store && !s.flag (rCW_VBASE p) CW_VBASE_WR then .fail .storePage
    else if cwOpen s pa (k == .store) then .mem pa else .fail k.acc
  else
    match walk s p (va / 2 ^ 21) with
    | .hit f =>
      let e := s.le f
      if e.x then .fail k.page
      else if e.sec && !m then .fail k.acc
      else if k = .store && !e.w then .fail .storePage
      else .mem (framePa f + va % 2 ^ 21)
    | _ => .fail k.page

/-- Does translating the address look the Ledger up (R231, R253). -/
def looksUp (s : State) (p va : Nat) : Bool :=
  decide (va < 2 ^ 48) && !isRegSpace va && !inSpad s p va && !inCw s p va

/-- The virtual address of a device-physical byte in partition p: through its Ledger entry, or the companion window. -/
def vaOf (s : State) (p pa : Nat) : Nat :=
  if isCw pa then
    pa - 0x400000000000 - s.fld (rCW_PBASE p) CW_PBASE_PBASE * 2 ^ 21 + s.fld (rCW_VBASE p) CW_VBASE_VBASE * 2 ^ 21
  else (s.le (frameOf pa)).vpn * 2 ^ 21 + pa % 2 ^ 21

/-- The lowest byte that a request names. -/
def pktByte (p : Packet) : Nat := if p.op = 1 then p.addr + ctz 128 p.mask.toNat else p.addr

end Sys2Proof.Machine
end

