-- ==== Sys2Proof/Machine/Link.lean ====
section
/-! DEFINITION. The send side of the Tether (R395-R405): steering, credits, the replay buffer and the messages of the
device as a home and as a requester. -/

namespace Sys2Proof.Machine

/-- A sub-link. -/
def State.sub (s : State) (k : Nat) : TtSub := tget TtSub.reset s.tt k

/-- Replace a sub-link. -/
def State.setSub (s : State) (k : Nat) (t : TtSub) : State := { s with tt := tset k t s.tt }

/-- State field of a sub-link in TT_STAT (R422): 0 DOWN, 1 TRAINING, 2 UP, 3 RETRAIN, 4 FAILED. -/
def subFld (k : Nat) : Fld := if k = 0 then TT_STAT_SL0 else TT_STAT_SL1

/-- State of a sub-link. -/
def subState (s : State) (k : Nat) : Nat := s.fld rTT_STAT (subFld k)

/-- Does sub-link `k` carry line traffic (R396). -/
def subLine (s : State) (k : Nat) : Bool := bit (s.fld rTT_STAT TT_STAT_WIDTH) k

/-- The sub-link of a line (R405). -/
def lineSub (s : State) (line : Nat) : Nat :=
  let w := s.fld rTT_STAT TT_STAT_WIDTH
  if w = 3 then nxor (bits line 1 1) (bits line 9 9) else if w = 2 then 1 else 0

/-- A message with every field 0. -/
def tmsg0 : TMsg :=
  { cls := 0, op := 0, txid := 0, part := 0, tag := 0, fmt := 0xF, nf := false, status := 0, state := 0, addr := 0,
    data := 0, mask := 0 }

/-- Slots of a message, header included (R401, R402); none where the class and operation are not listed. -/
def msgSlots (m : TMsg) : Option Nat :=
  match m.cls, m.op with
  | 1, 0 | 1, 1 | 1, 2 | 1, 3 | 1, 4 => some 1
  | 1, 5 => some 9
  | 1, 6 => some 10
  | 1, 7 => some 9
  | 2, 0 | 2, 1 => some 1
  | 3, 0 | 3, 1 | 3, 2 | 3, 3 | 3, 4 => some 1
  | 4, 0 | 4, 1 => some 9
  | 5, 0 => some 1
  | 5, 1 => some 2
  | 5, 2 => some (if m.status = 0 then 2 else 1)
  | 5, 3 => some 1
  | _, _ => none

/-- Send waiting messages while credit and replay-buffer room last (R399, R404). -/
def pumpMsgs : List TMsg → TtSub → TtSub
  | [], t => { t with out := [] }
  | m :: r, t =>
    let n := (msgSlots m).getD 1
    if decide (t.replay.length < 256) && decide (n ≤ tget 0 t.credits m.cls) then
      pumpMsgs r
        { t with
          ftx := (t.ftx + 1) % 4096
          replay := t.replay ++ [(t.ftx, m)]
          credits := tset m.cls (tget 0 t.credits m.cls - n) t.credits
          freed := [] }
    else { t with out := m :: r }

/-- Let a sub-link that is UP send what waits. -/
def pump (k : Nat) (s : State) : State :=
  if subState s k = 2 then s.setSub k (pumpMsgs (s.sub k).out (s.sub k)) else s

/-- Give a sub-link a message to send. -/
def ttSend (k : Nat) (m : TMsg) (s : State) : State :=
  let t := s.sub k
  pump k (s.setSub k { t with out := t.out ++ [m] })

/-- The lowest number of a list's complement, up to a bound. -/
def freeNum (used : List Nat) (n : Nat) : Option Nat := (List.range n).find? fun i => !lhas i used

/-- Slots of a class that messages released and not yet taken hold in a sub-link's receive buffer (R404). -/
def slotsHeld (s : State) (k cls : Nat) : Nat :=
  (s.ttIn.filter fun x => x.1 == k && x.2.cls == cls).foldl (fun n x => n + (msgSlots x.2).getD 1) 0

/-- Is there room to reserve for a reply, with line data or without, beside what is reserved for the requests and snoops that are
outstanding (R404): every one may bring a RSP, and a read or a snoop a DATA message. -/
def replyRoom (s : State) (k : Nat) (data : Bool) : Bool :=
  let q := s.cwReqs.filter fun q => q.sub == k
  let n := (s.snoops.filter fun q => q.sub == k).length
  decide (q.length + n + slotsHeld s k 3 + 1 ≤ 512) &&
    (!data || decide (9 * ((q.filter fun q => decide (q.op ≤ 3)).length + n) + slotsHeld s k 4 + 9 ≤ 2304))

/-- A free REQ transaction number of a sub-link, with room for the reply (R403, R404, R420). -/
def freeReq (s : State) (k op : Nat) : Option Nat :=
  if replyRoom s k (decide (op ≤ 3)) then freeNum ((s.cwReqs.filter fun q => q.sub == k).map fun q => q.txid) 4096 else none

/-- A free SNP transaction number of a sub-link, with room for the reply (R403, R404). -/
def freeSnp (s : State) (k : Nat) : Option Nat :=
  if replyRoom s k true then freeNum ((s.snoops.filter fun q => q.sub == k).map fun q => q.txid) 4096 else none

/-- Is a request of the device for the line outstanding (R403, R420). -/
def reqOut (s : State) (line : Nat) : Bool := s.cwReqs.any fun q => q.line == line

/-- Can a write of the line be sent to the companion now (R403, R404). -/
def cwFree (s : State) (line : Nat) : Bool := !reqOut s line && (freeReq s (lineSub s line) 5).isSome

/-- Is a snoop of the line outstanding (R409). -/
def snoopOut (s : State) (line : Nat) : Bool := s.snoops.any fun q => q.line == line

/-- Send a request to the companion, when the line has none outstanding and a number is free (R403). -/
def cwSend (op line : Nat) (eng : Nat) (pkt : Option Packet) (m : TMsg) (s : State) : State :=
  let k := lineSub s line
  if reqOut s line then s
  else match freeReq s k op with
    | none => s
    | some x =>
      ttSend k { m with cls := 1, op := op, txid := x, addr := line }
        { s with cwReqs := s.cwReqs ++ [{ sub := k, txid := x, line := line, slice := homeSlice s (line * 128), op := op,
                                          pkt := pkt, eng := eng, dead := false }] }

/-- A home sends a snoop of a line (R409, R410). -/
def snoop (line slice part : Nat) (inv back : Bool) (s : State) : State :=
  let k := lineSub s line
  if snoopOut s line then s
  else match freeSnp s k with
    | none => s
    | some x =>
      let s := ttSend k { tmsg0 with cls := 2, op := b2n inv, txid := x, part := part, addr := line }
        { s with snoops := s.snoops ++ [{ sub := k, txid := x, line := line, slice := slice, inv := inv, back := back, wbp := false }] }
      (s.count rTT_SNOOP 1).count rTT_SFBI (b2n back)

/-- Send an MSI on sub-link `k` (R416). -/
def ttMsi (k part vec : Nat) (s : State) : State :=
  (ttSend k { tmsg0 with cls := 5, op := 3, part := part, addr := vec } s).count rTT_MSIS 1

end Sys2Proof.Machine
end

