-- ==== Sys2Proof/Machine/Ecc.lean ====
section
/-! DEFINITION. The on-chip code SECDED (39,32) (R444, R445) as it acts on flip masks, and the words of memory that a
read finds uncorrectable (R449, R467, R472, R530). -/

namespace Sys2Proof.Machine

/-- Position of data bit `i` (R445): the i-th position, ascending, that is not a power of two. -/
def dataPos (i : Nat) : Nat :=
  if i = 0 then 3 else if i < 4 then i + 4 else if i < 11 then i + 5 else if i < 26 then i + 6 else i + 7

/-- XOR of the positions of the data bits set in an error mask. -/
def synData (m : Nat) : Nat → Nat
  | 0 => 0
  | n + 1 => nxor (synData m n) (if bit m n then dataPos n else 0)

/-- XOR of the positions of the check bits set in an error mask. -/
def synCheck (m : Nat) : Nat → Nat
  | 0 => 0
  | n + 1 => nxor (synCheck m n) (if bit m (32 + n) then 2 ^ n else 0)

/-- The syndrome SYND of an error mask of 39 bits (R445): the code is linear, so a codeword with its mask has the mask's
syndrome. -/
def eccSynd (m : Nat) : Nat := nxor (synData m 32) (synCheck m 6) + 64 * (popc 39 m % 2)

/-- Does the checker find the word uncorrectable (R445): one without an error it does not. -/
def eccUnc (m : Nat) : Bool :=
  if m = 0 then false
  else
    let lo := eccSynd m % 64
    decide (lo ≠ 0) && (decide (eccSynd m / 64 = 0) || decide (38 < lo))

/-- The data bits that are wrong in the delivered word: the mask's data bits, with the inverted position (R445). -/
def eccLeft (m : Nat) : Nat :=
  let lo := eccSynd m % 64
  let d := m % 2 ^ 32
  if m = 0 then 0
  else if lo = 0 then d
  else match (List.range 32).find? fun i => dataPos i == lo with
    | some i => nxor d (2 ^ i)
    | none => d

/-- A byte of memory (R7, R530). -/
def State.byte (s : State) (a : Nat) : Byte :=
  match tget? a s.mem with
  | some b => b
  | none => if lhas (frameOf a) s.zeroed then 0 else Config.unwrittenByte s.memEpoch a

/-- Write a byte of memory. -/
def State.setByte (s : State) (a : Nat) (b : Byte) : State :=
  { s with mem := if b = 0 && lhas (frameOf a) s.zeroed then tdel a s.mem else tset a b s.mem }

/-- The memory's canonical form: addresses rise strictly, and no byte is listed that reads the same unlisted. -/
def memWf (s : State) : Bool := twf s.mem && s.mem.all fun c => !(c.2 == 0 && lhas (frameOf c.1) s.zeroed)

/-- The line of a slice's array that holds memory line `line`, if the slice holds it. -/
def resident (s : State) (line : Nat) : Option SLine :=
  (tget Slice.reset s.slices (homeSlice s (line * 128))).lines.find? fun l => l.line == line

/-- Is the bank of an HBM3E address retired (R467). -/
def bankRetired (s : State) (pa : Nat) : Bool :=
  if isHbm pa then
    let (st, sa) := hbmMap s pa
    (List.range 4).any fun k =>
      s.flag (rSC_BRET st k) SC_BRET_EN && s.fld (rSC_BRET st k) SC_BRET_PC == saPc sa &&
        s.fld (rSC_BRET st k) SC_BRET_BANK == saBank sa
  else false

/-- Is the key of an access held in the vault (R471, R472): the chip's for chip frames, else the partition's. -/
def keyOk (s : State) (part pa : Nat) : Bool :=
  if (s.le (frameOf pa)).chip then s.flag rCK_KEYS CK_KEYS_CHIP else bit (s.fld rCK_KEYS CK_KEYS_MEM) part

/-- Was a byte of a line written under another key than the one that protects its frame now: its read gives unrelated values with
no error (R472, R530). -/
def hidden (s : State) (line : Nat) : Bool :=
  s.ciph.any fun x => x.1 == frameOf (line * 128) && x.2.2.any fun c => c.1 / 128 == line

/-- Is a byte of the word never written, under any key (R530). -/
def unwritten (s : State) (w : Nat) : Bool :=
  !lhas (frameOf (4 * w)) s.zeroed && !hidden s (w / 32) &&
    ((tget? (4 * w) s.mem).isNone || (tget? (4 * w + 1) s.mem).isNone || (tget? (4 * w + 2) s.mem).isNone ||
      (tget? (4 * w + 3) s.mem).isNone)

/-- Is the 32-bit word at 4w uncorrectable for a read of partition `part` (R449). -/
def wordBad (s : State) (part w : Nat) : Bool :=
  let held := (resident s (w / 32)).isSome
  lhas w s.badw || (unwritten s w && Config.unwrittenBad s.memEpoch (w / 32)) ||
    (held && eccUnc (tget 0 s.flips w)) || (!held && (bankRetired s (4 * w) || !keyOk s part (4 * w)))

/-- First uncorrectable word among the `n` words from `w`. -/
def firstBad (s : State) (part w : Nat) : Nat → Option Nat
  | 0 => none
  | n + 1 => match firstBad s part w n with
    | some x => some x
    | none => if wordBad s part (w + n) then some (w + n) else none

/-- First uncorrectable word that a read of `n` bytes at `pa` meets. -/
def badIn (s : State) (part pa n : Nat) : Option Nat :=
  if n = 0 then none else firstBad s part (pa / 4) ((pa + n - 1) / 4 - pa / 4 + 1)

/-- Byte as a reader receives it: with what a flip mask left uncorrected in a slice's word (R445, R463). -/
def State.rdByte (s : State) (a : Nat) : Byte :=
  s.byte a ^^^ BitVec.ofNat 8 (eccLeft (tget 0 s.flips (a / 4)) >>> (8 * (a % 4)))

/-- The `n` bytes from an address, as a reader receives them. -/
def State.rdBytes (s : State) (a : Nat) : Nat → List Byte
  | 0 => []
  | n + 1 => s.rdByte a :: State.rdBytes s (a + 1) n

/-- The little-endian number in `n` bytes (R7). -/
def State.rdNat (s : State) (a n : Nat) : Nat := leNat (s.rdBytes a n)

/-- A line's 128 bytes. -/
def State.rdLine (s : State) (line : Nat) : Line := BitVec.ofNat 1024 (s.rdNat (line * 128) 128)

end Sys2Proof.Machine
end

