-- ==== Sys2Proof/Machine/Home.lean ====
section
/-! DEFINITION. What the home of a line does (R20, R29-R32, R234-R242, R409, R411, R430, R449-R453, R463): the Gauge
entries' tag actions, the slice's lines and victims, reads and writes of lines, and when an access is held. -/

namespace Sys2Proof.Machine

/-! Gauge entries (R156-R160). -/

/-- Device-physical address of an entry (R156, R158). -/
def gaugePa (s : State) (tag : Nat) : Nat := s.fld rGAUGE_BASE GAUGE_BASE_BASE * 2 ^ 23 + tag * 128

/-- Word `w` of a tag's Gauge entry, as it stands in memory (R158, R165). -/
def State.gw (s : State) (tag w : Nat) : Word := n64 (s.rdNat (gaugePa s tag + 8 * w) 8)

/-- Home slice of an entry. -/
def gaugeHome (s : State) (tag : Nat) : Nat := homeSlice s (gaugePa s tag)

/-- First uncorrectable word of an entry (R160). -/
def gaugeBadAt (s : State) (tag : Nat) : Option Nat := badIn s (s.le (frameOf (gaugePa s tag))).owner (gaugePa s tag) 128

/-- Does an entry hold uncorrectable data (R160). -/
def gaugeBad (s : State) (tag : Nat) : Bool := (gaugeBadAt s tag).isSome

/-- Fields of word 0 (R158). -/
abbrev gS : Fld := ⟨63, 56⟩
abbrev gFMT : Fld := ⟨55, 52⟩
abbrev gLM1 : Fld := ⟨51, 48⟩
abbrev gMARGIN : Fld := ⟨47, 46⟩
abbrev gHP : Fld := ⟨45, 42⟩
abbrev gMX : Fld := ⟨41, 41⟩
abbrev gSAT : Fld := ⟨40, 40⟩
abbrev gFROZEN : Fld := ⟨39, 39⟩
abbrev gSTRICT : Fld := ⟨38, 38⟩
abbrev gCLASS : Fld := ⟨37, 36⟩
abbrev gNF : Fld := ⟨35, 35⟩
abbrev gUSES : Fld := ⟨31, 0⟩
/-- Field of word 1. -/
abbrev gCLIP : Fld := ⟨63, 32⟩
abbrev gAMAX : Fld := ⟨31, 0⟩

/-- Scale exponent of a tag's entry. -/
def gaugeS (s : State) (tag : Nat) : Int := sext 8 (fget (s.gw tag 0) gS)

/-- Does partition `p` own the tag (R157). -/
def ownsTag (s : State) (p tag : Nat) : Bool :=
  decide (tag ≠ 0) && s.flag (rGRANGE p) GRANGE_EN && decide (s.fld (rGRANGE p) GRANGE_LO ≤ tag) &&
    decide (tag ≤ s.fld (rGRANGE p) GRANGE_HI)

/-- The tag a home acts on (R30, R32): 0 for an untagged packet and for one whose tag its PART does not own. -/
def effTag (s : State) (p tag : Nat) : Nat := if ownsTag s p tag then tag else 0

/-- Count a tag that its PART does not own (R32). -/
def tagCheck (p tag : Nat) (s : State) : State :=
  if tag = 0 ∨ ownsTag s p tag = true then s
  else (s.countSat rTAG_STATUS TAG_STATUS_MISMATCH 1).setFld rTAG_STATUS TAG_STATUS_LAST_TAG tag

/-! Slices (R236-R240). -/

/-- A slice. -/
def State.slice (s : State) (n : Nat) : Slice := tget Slice.reset s.slices n

/-- Replace a slice. -/
def State.setSlice (s : State) (n : Nat) (x : Slice) : State := { s with slices := tset n x s.slices }

/-- Replacement classes (R158). -/
abbrev clNormal : Nat := 0
abbrev clRetain : Nat := 1
abbrev clStream : Nat := 2

/-- The class a line takes (R29, R30, R237). -/
def lineClass (s : State) (tag : Nat) (snap : Bool) : Nat :=
  if snap then clStream else if tag = 0 ∨ gaugeBad s tag = true then clNormal else fget (s.gw tag 0) gCLASS

/-- CLASS and SPENT of a tag at slice `n`, through its attribute cache (R239, R240). -/
def tagAttr (s : State) (n tag : Nat) : Nat × Bool :=
  if tag = 0 then (clNormal, false)
  else match (s.slice n).attr.find? fun a => a.1 == tag with
    | some (_, c, sp) => (c, sp)
    | none => (lineClass s tag false, lhas tag (s.slice n).spentTags)

/-- The slice's attribute cache keeps what it looked up, at most 256 tags (R240, log 22). -/
def keepAttr (n tag : Nat) (s : State) : State :=
  if tag = 0 then s
  else
    let x := s.slice n
    let (c, sp) := tagAttr s n tag
    s.setSlice n { x with attr := ((tag, c, sp) :: x.attr.filter fun a => a.1 != tag).take 256 }

/-- The class with which a line of class `c` may stand in its set beside `ls`: RETAIN beyond RETAIN_MAX is NORMAL (R238). -/
def setClass (s : State) (n : Nat) (ls : List SLine) (c : Nat) : Nat :=
  if c = clRetain && decide (s.fld (rSL_CTL n) SL_CTL_RETAIN_MAX ≤ (ls.filter fun l => l.cls == clRetain).length) then clNormal else c

/-- What a response says of its line's class and SPENT state (R234, R239): bits 1:0 and bit 2 of `sub`.  An LPDDR5X line has no
home slice, and its response says of its tag what the Gauge entry holds (R242). -/
def rspAttr (s : State) (line tag : Nat) (snap : Bool) : Nat :=
  if snap then clStream
  else if isLp (line * 128) then lineClass s tag false
  else let (c, sp) := tagAttr s (homeSlice s (line * 128)) tag; c + 4 * b2n sp

/-- The order of victims: STREAM, SPENT, NORMAL, RETAIN (R237). -/
def victimRank (x : Slice) (l : SLine) : Nat :=
  if l.cls = clStream then 0
  else if l.spent || (decide (l.tag ≠ 0) && lhas l.tag x.spentTags) then 1
  else if l.cls = clRetain then 3 else 2

/-- Lines of a set. -/
def Slice.inSet (x : Slice) (set : Nat) : List SLine := x.lines.filter fun l => l.set == set

/-- A line that may be a victim: not BAD (R451), and not waiting for a message about itself (R403). -/
def mayEvict (s : State) (l : SLine) : Bool :=
  !l.bad && !snoopOut s l.line && (if isCw (l.line * 128) then cwFree s l.line else !reqOut s l.line)

/-- The victim among lines: lowest rank, then least recently used. -/
def pickVictim (s : State) (x : Slice) : List SLine → Option SLine
  | [] => none
  | l :: r =>
    match pickVictim s x r with
    | none => if mayEvict s l then some l else none
    | some v =>
      if mayEvict s l &&
          (decide (victimRank x l < victimRank x v) || (decide (victimRank x l = victimRank x v) && decide (l.stamp < v.stamp)))
      then some l else some v

/-- The SL_EVICT field of a rank (R267). -/
def evictFld (rank : Nat) : Fld :=
  if rank = 0 then SL_EVICT_STREAM else if rank = 1 then SL_EVICT_SPENT else if rank = 2 then SL_EVICT_NORMAL
  else SL_EVICT_RETAIN

/-- Take the flip masks of a line away. -/
def dropFlips (line : Nat) (s : State) : State := { s with flips := s.flips.filter fun x => x.1 / 32 != line }

/-- Count a write that its home drops: no key, or a retired bank (R467, R472). -/
def dropWrite (pa : Nat) (s : State) : State :=
  if isLp pa then s.countSat (rLC_DRG_CNT (lpMap pa).1) SC_DRG_CNT_UE 1
  else s.countSat (rSC_DRG_CNT (homeSlice s pa / 16)) SC_DRG_CNT_UE 1

/-- A line leaves its slice: a dirty line is written back and holds 2 slots (R236, R259); a companion line is returned or
dropped with a message (R411). -/
def evict (n : Nat) (l : SLine) (s : State) : State :=
  let x := s.slice n
  let s := s.countSat (rSL_EVICT n) (evictFld (victimRank x l)) 1
  let rest := x.lines.filter fun k => k.line != l.line
  if isCw (l.line * 128) then
    let st := (tget (0, 0) x.comp l.line)
    let s := s.setSlice n { x with lines := rest, comp := tdel l.line x.comp }
    let s := dropFlips l.line s
    if st.1 = 3 then cwSend 7 l.line 0 none { tmsg0 with part := l.part, tag := l.tag, data := st.2 } s
    else cwSend 4 l.line 0 none { tmsg0 with part := l.part } s
  else
    let pa := l.line * 128
    let s := s.setSlice n { x with lines := rest, wbs := if l.dirty then x.wbs ++ [l.line] else x.wbs }
    let s := dropFlips l.line s
    if l.dirty && (bankRetired s pa || !keyOk s l.part pa) then dropWrite pa s else s

/-- The lowest way of slice `n`, among those not disabled (R459), that no line of a set occupies. -/
def freeWay (s : State) (n : Nat) (ls : List SLine) : Option Nat :=
  freeNum ((ls.map fun l => l.way) ++ ((s.waysOff.filter fun w => w / 16 == n).map fun w => w % 16)) 16

/-- A slice's set for a line (log 22). -/
def setOf (line : Nat) : Nat := Config.sliceSetOf line % 512

/-- Room in the line's set: evict a victim when all 16 ways hold lines (R237). -/
def makeRoom (n line : Nat) (s : State) : State :=
  let x := s.slice n
  let ls := x.inSet (setOf line)
  match freeWay s n ls with
  | some _ => s
  | none => match pickVictim s x ls with
    | some v => evict n v s
    | none => s

/-- The line's bytes as the storage holds them. -/
def cellsOf (s : State) (line : Nat) : List Host.Cell :=
  s.mem.filter fun c => c.1 / 128 == line

/-- Place a line in its home slice (R236-R238): a RETAIN line beyond RETAIN_MAX enters as NORMAL. -/
def fill (n line tag part : Nat) (snap : Bool) (s : State) : State :=
  let s := makeRoom n line s
  let x := s.slice n
  let set := setOf line
  let ls := x.inSet set
  match freeWay s n ls with
  | none => s
  | some w =>
    let (c, spent) := tagAttr s n tag
    let c := setClass s n ls (if snap then clStream else c)
    keepAttr n tag (s.setSlice n
      { x with
        clk := x.clk + 1
        lines := x.lines ++ [{ line := line, set := set, way := w, cls := c, tag := tag, part := part, spent := spent,
                               dirty := false, bad := false, stamp := x.clk, old := [] }] })

/-- Change the entry of a resident line. -/
def modLine (n line : Nat) (f : SLine → SLine) (s : State) : State :=
  let x := s.slice n
  s.setSlice n { x with lines := x.lines.map fun l => if l.line = line then f l else l }

/-- A hit: the line becomes the most recently used; a consuming read refreshes its class (R237), within RETAIN_MAX (R238). -/
def touchLine (n line tag : Nat) (cons : Bool) (s : State) : State :=
  let x := s.slice n
  let s' := s.setSlice n { x with clk := x.clk + 1 }
  if cons && decide (tag ≠ 0) then
    let (c, spent) := tagAttr s n tag
    let c := setClass s n ((x.inSet (setOf line)).filter fun l => l.line != line) c
    keepAttr n tag (modLine n line (fun l => { l with stamp := x.clk, cls := c, tag := tag, spent := spent }) s')
  else modLine n line (fun l => { l with stamp := x.clk }) s'

/-- Source and structure of the storage that holds a word (R464). -/
def errSite (s : State) (w : Nat) : Nat × Nat × Nat × Nat × Nat :=
  let pa := 4 * w
  match resident s (w / 32) with
  | some l => (epSlice (homeSlice s pa), 7, (l.set * 16 + l.way) * 32 + w % 32, 0, 0)
  | none =>
    if isLp pa then let (lc, ch, b) := lpMap pa; (epLC lc, 10, pa, b, ch)
    else let (st, sa) := hbmMap s pa; (epSC st, 9, pa, saBank sa, saPc sa)

/-- Log an error event of kind `k` at word `w` (R464). -/
def logWord (k : ErrKind) (w synd : Nat) (s : State) : State :=
  let (src, st, a, b, p) := errSite s w
  logErr k src st a b p synd false s

/-- Log the words of a slice line that a read corrects (R446). -/
def logFixed (line : Nat) : Nat → State → State
  | 0, s => s
  | n + 1, s =>
    let s := logFixed line n s
    let m := tget 0 s.flips (line * 32 + n)
    if m ≠ 0 ∧ eccUnc m = false ∧ eccSynd m ≠ 0 then logWord .ce (line * 32 + n) (eccSynd m) s else s

/-- A clean copy found uncorrectable is dropped, to be read again from memory (R450). -/
def dropClean (n : Nat) (l : SLine) (s : State) : State :=
  let x := s.slice n
  logErr .refetch (epSlice n) 7 ((l.set * 16 + l.way) * 32) 0 0 0 false
    (dropFlips l.line (s.setSlice n { x with lines := x.lines.filter fun k => k.line != l.line }))

/-- Does the copy of a line in its slice hold an uncorrectable word. -/
def lineFails (s : State) (line : Nat) : Bool := (List.range 32).any fun i => eccUnc (tget 0 s.flips (line * 32 + i))

/-- A dirty line found uncorrectable becomes BAD; a ninth of its set is dropped and memory keeps its older bytes (R451);
a clean copy is dropped and read again from memory (R450). -/
def foundBad (n line : Nat) (s : State) : State :=
  match resident s line with
  | none => s
  | some l =>
    if !lineFails s line || l.bad then s
    else if !l.dirty then dropClean n l s
    else
      let x := s.slice n
      let rest := x.lines.filter fun k => k.line != line
      if ((x.inSet l.set).filter fun k => k.bad).length < 8 then modLine n line (fun l => { l with bad := true }) s
      else
        let s := logErr .sliceLost (epSlice n) 7 ((l.set * 16 + l.way) * 32) 0 0 0 false s
        let s := dropFlips line (s.setSlice n { x with lines := rest })
        each (fun c s => s.setByte c.1 c.2) l.old { s with mem := s.mem.filter fun c => c.1 / 128 != line }

/-- The next foreground write of a stack's slices carries the armed flip mask (R463). -/
def armFlip (n line : Nat) (s : State) : State :=
  let r := rSC_FLIP (n / 16)
  if s.flag r SC_FLIP_ARM then
    let w := line * 32 + s.fld r SC_FLIP_WORD
    { s.setFlag r SC_FLIP_ARM false with flips := tset w (nxor (tget 0 s.flips w) (s.fld r SC_FLIP_MASK)) s.flips }
  else s

/-- Bytes of a line to write: (offset in the line, byte). -/
abbrev Cells := List (Nat × Byte)

/-- The cells of consecutive bytes from an offset. -/
def cellsFrom (off : Nat) : List Byte → Cells
  | [] => []
  | b :: r => (off, b) :: cellsFrom (off + 1) r

/-- The cells that a byte mask selects from line data, among the first `n` bytes. -/
def cellsMask (d : Line) (m : BitVec 128) : Nat → Cells
  | 0 => []
  | n + 1 => cellsMask d m n ++ (if m.getLsbD n then [(n, d.extractLsb' (8 * n) 8)] else [])

/-- Line data with the cells written. -/
def putCells (d : Line) : Cells → Line
  | [] => d
  | (o, b) :: r =>
    putCells ((d &&& ~~~ (BitVec.ofNat 1024 (0xFF <<< (8 * o)))) ||| BitVec.ofNat 1024 (b.toNat <<< (8 * o))) r

/-- The byte mask of cells. -/
def maskCells : Cells → BitVec 128
  | [] => 0
  | (o, _) :: r => BitVec.ofNat 128 (2 ^ o) ||| maskCells r

/-- Write cells of a line into memory: a word written whole has fresh check bits (R449, R463). -/
def storeCells (line : Nat) (cs : Cells) (s : State) : State :=
  let full := fun w => [0, 1, 2, 3].all fun j => cs.any fun c => line * 128 + c.1 == 4 * w + j
  let s := each (fun c s => s.setByte (line * 128 + c.1) c.2) cs s
  { s with badw := s.badw.filter fun w => !full w, flips := s.flips.filter fun x => !full x.1 }

/-- An access that found an entry uncorrectable is counted and logged (R160, R464). -/
def gaugeErr (tag : Nat) (s : State) : State :=
  let s := match gaugeBadAt s tag with | some w => logWord .ue w (eccSynd (tget 0 s.flips w)) s | none => s
  (s.countSat rGAUGE_ERR GAUGE_ERR_COUNT 1).setFld rGAUGE_ERR GAUGE_ERR_LAST_TAG tag

/-- A line of a chip frame is in its home slice, a hit, or comes there, a miss, unless it is uncorrectable. -/
def lineIn (n line : Nat) (s : State) : State :=
  let s := logFixed line 32 s
  match resident s line with
  | some _ => (touchLine n line 0 false s).count (rSL_HIT n) 1
  | none =>
    let s := s.count (rSL_MISS n) 1
    if (badIn s (s.le (frameOf (line * 128))).owner (line * 128) 128).isSome then s else fill n line 0 0 false s

/-- A line of a chip frame comes into its home slice. -/
def chipLine (line : Nat) (s : State) : State :=
  let n := homeSlice s (line * 128)
  lineIn n line (foundBad n line s)

/-- A line of the Ledger comes into its home slice; the model holds the Ledger's entries apart, so a slice's copy is clean. -/
def ledgerLine (line : Nat) (s : State) : State :=
  let n := homeSlice s (line * 128)
  lineIn n line (match resident s line with | some l => if lineFails s line then dropClean n l s else s | none => s)

/-- An entry's line comes into its home slice (R20, R156). -/
def gaugeLine (tag : Nat) (s : State) : State := chipLine (gaugePa s tag / 128) s

/-- Replace a word of a Gauge entry: the slice's line is dirty, and the word's check bits are fresh (R29, R449). -/
def State.setGw (s : State) (tag w : Nat) (v : Word) : State :=
  let n := gaugeHome s tag
  let line := gaugePa s tag / 128
  let cells := cellsOf s line
  storeCells line (cellsFrom (8 * w) (leBytes 8 v.toNat))
    (modLine n line (fun l => { l with dirty := true, old := if l.dirty then l.old else cells }) s)

/-- A change of an entry is a foreground write of its line (R463). -/
def gaugeArm (tag : Nat) (s : State) : State := armFlip (gaugeHome s tag) (gaugePa s tag / 128) s

/-- The tag action of a Gauge entry: maximum of non-negative FP32 numbers, and OR (R29, R31, R160). -/
def mergeEntry (tag amax : Nat) (nf : Bool) (s : State) : State :=
  let s := gaugeLine tag s
  if gaugeBad s tag then gaugeErr tag s
  else
    let up := decide (fget (s.gw tag 1) gAMAX < amax)
    let on := nf && !fbit (s.gw tag 0) gNF
    let s := if up then s.setGw tag 1 (fset (s.gw tag 1) gAMAX amax) else s
    let s := if on then s.setGw tag 0 (fsetB (s.gw tag 0) gNF true) else s
    if up || on then gaugeArm tag s else s

/-- A home sends a tag action to the entry's home slice, or performs it when it is that slice (R29, R242). -/
def mergeFrom (ep part tag amax : Nat) (nf : Bool) (s : State) : State :=
  let h := epSlice (gaugeHome s tag)
  if ep = h then mergeEntry tag amax nf s
  else s.send { mkPkt h ep clsSLC opMERGE part 0 with tag := tag, nf := nf, payload := BitVec.ofNat 1024 amax }

/-- SPENT(tag) from the entry's home slice to every slice (R239). -/
def sendSpent (part tag : Nat) (s : State) : State :=
  let h := epSlice (gaugeHome s tag)
  upto (fun n s => s.send { mkPkt (epSlice n) h clsSLC opSPENT part 0 with tag := tag }) 256 s

/-- A consuming read of a tag (R29, R239): USES falls by 1, not below 0, and SPENT goes out when it reaches 0. -/
def consume (part tag : Nat) (s : State) : State :=
  if tag = 0 then s
  else
   let s := gaugeLine tag s
   if gaugeBad s tag then gaugeErr tag s
   else
    let u := fget (s.gw tag 0) gUSES
    if u = 0 then s
    else
      let s := gaugeArm tag (s.setGw tag 0 (fset (s.gw tag 0) gUSES (u - 1)))
      if u = 1 then sendSpent part tag s else s

/-- Bytes of a companion line that its home slice can serve: held by the slice, or just answered (R411). -/
def cwLine (s : State) (line : Nat) : Option (Option Line) :=
  match tget? line (s.slice (homeSlice s (line * 128))).comp with
  | some (st, d) => if st = 0 then tget? line s.cwBuf else some (some d)
  | none => tget? line s.cwBuf

/-- Words of a line that are uncorrectable for partition `part`, as a mask (R449). -/
def badMask (s : State) (part line : Nat) : Nat → Nat
  | 0 => 0
  | n + 1 => badMask s part line n ||| (if wordBad s part (line * 32 + n) then 2 ^ n else 0)

/-- Why a next-line prefetch is dropped (R264), by frame and partition; none when it may go. -/
def nlDrop (s : State) (p pa : Nat) : Option Fld :=
  let e := s.le (frameOf pa)
  if isCw pa || !e.v then some PF_DROP_UNMAPPED
  else if e.owner ≠ p then some PF_DROP_FOREIGN
  else if !e.p then some PF_DROP_NOT_P
  else if e.x then some PF_DROP_RETIRED
  else none

/-- The slice's next-line prefetch after a demand miss of partition `part` to `line` (R263, R264). -/
def nextLine (n line part : Nat) (s : State) : State :=
  if !s.flag (rSL_CTL n) SL_CTL_NLPF then s
  else
    let other := nxor line 1
    match nlDrop s part (other * 128) with
    | some f => s.countSat (rPF_DROP part) f 1
    | none => (s.count (rSL_PF n) 1).send { mkPkt (epSlice n) (epSlice n) clsREQ opPF_RD part (other * 128) with size := 128 }

/-- THE READ OF A LINE AT ITS HOME (R20, R234, R236, R242, R446, R449): its data, the mask of its uncorrectable words,
and the home's new state.  `cons` marks a tagged demand read; `fg` a foreground transfer (R463). -/
def homeRead (line part tag : Nat) (cons snap fg : Bool) (s : State) : Line × Nat × State :=
  let pa := line * 128
  let s := tagCheck part tag s
  let tag := effTag s part tag
  let s := if cons then consume part tag s else s
  if isLp pa then
    let lc := (lpMap pa).1
    let s := s.count (rLC_RD lc) 128
    let b := badMask s part line 32
    let s := if b ≠ 0 then logWord .ue ((badIn s part pa 128).getD 0) 0 s else s
    let d := s.rdLine line
    if fg && s.flag (rLC_FLIP lc) SC_FLIP_ARM then
      let m := s.fld (rLC_FLIP lc) SC_FLIP_MASK
      let w := s.fld (rLC_FLIP lc) SC_FLIP_WORD
      let s := s.setFlag (rLC_FLIP lc) SC_FLIP_ARM false
      if eccUnc m then (d, b ||| 2 ^ w, logErr .ue (epLC lc) 12 w 0 0 (eccSynd m) false s)
      else
        let s := if eccSynd m ≠ 0 then logErr .ce (epLC lc) 12 w 0 0 (eccSynd m) false s else s
        (d ^^^ BitVec.ofNat 1024 (eccLeft m <<< (32 * w)), b, s)
    else (d, b, s)
  else if isCw pa then
    match cwLine s line with
    | some (some d) =>
      let n := homeSlice s pa
      (d, 0, touchLine n line tag cons { s with cwBuf := tdel line s.cwBuf })
    | _ => (0, 2 ^ 32 - 1, { s with cwBuf := tdel line s.cwBuf })
  else
    let n := homeSlice s pa
    let s := foundBad n line s
    let b := badMask s part line 32
    let s := logFixed line 32 s
    let s := if b ≠ 0 then logWord .ue ((badIn s part pa 128).getD 0) 0 s else s
    let d := s.rdLine line
    match resident s line with
    | some _ => (d, b, (touchLine n line tag cons s).count (rSL_HIT n) 1)
    | none =>
      let s := s.count (rSL_MISS n) 1
      let s := if fg then nextLine n line part s else s
      (d, b, if b = 0 then fill n line tag part snap s else s)

/-- An indivisible action on a byte of a touched bitmap at its line's home slice (R31, R200, R217). -/
def bitAct (a : Nat) (f : Byte → Byte) (s : State) : State :=
  let line := a / 128
  let s := chipLine line s
  let cells := cellsOf s line
  storeCells line [(a % 128, f (s.byte a))]
    (modLine (homeSlice s (line * 128)) line (fun l => { l with dirty := true, old := if l.dirty then l.old else cells }) s)

/-- The touched bit of a tagged write of partition `part` to a gradient page (R29, R160, R199, R200). -/
def touchBit (part tag pa : Nat) (s : State) : State :=
  let e := s.le (frameOf pa)
  if tag = 0 ∨ e.g = false then s
  else if gaugeBad s tag then gaugeErr tag s
  else
    let sc := unitOf s pa
    let w7 := (s.gw tag 7).toNat
    let tp := bits w7 47 3 * 8
    let oor := s.count (rSLU_TOUCH_OOR sc) 1
    if tp = 0 ∨ tp % 64 ≠ 0 ∨ isHbm tp = false then oor
    else
      let s := chipLine (tp / 128) s
      match badIn s part tp 16 with
      | some w => logWord .ue w 0 s
      | none =>
        let oor := s.count (rSLU_TOUCH_OOR sc) 1
        let nblk := s.rdNat (tp + 8) 4
        let gbase := bits (s.rdNat tp 8) 47 8 * 256
        let va := e.vpn * 2 ^ 21 + pa % 2 ^ 21
        if isHbm (tp + 0x40 + cdiv nblk 64 * 8 - 1) = false then oor
        else if va < gbase ∨ nblk ≤ (va - gbase) / 256 then oor
        else
          let k := (va - gbase) / 256
          let a := tp + 0x40 + 8 * (k / 64)
          let s := chipLine (a / 128) s
          match badIn s part a 8 with
          | some w => logWord .ue w 0 s
          | none => bitAct (a + k % 64 / 8) (fun b => b ||| BitVec.ofNat 8 (2 ^ (k % 8))) s

/-- Set T in the entry of a written frame (R251). -/
def setT (pa : Nat) (s : State) : State := s.setLe (frameOf pa) { s.le (frameOf pa) with t := true }

/-- THE WRITE OF BYTES OF ONE LINE AT ITS HOME (R29, R236, R242, R251, R467, R472): bytes, T, touched bit, NF, the line
in the slice.  A companion line's bytes go into the slice's copy, or to the companion (R411). -/
def homeWrite (line : Nat) (cs : Cells) (part tag fmt : Nat) (nf snap fg : Bool) (eng : Nat) (pkt : Option Packet)
    (s : State) : State :=
  let pa := line * 128
  let whole := decide (cs.length = 128)
  let s := tagCheck part tag s
  let tag := effTag s part tag
  if isCw pa then
    let n := homeSlice s pa
    let x := s.slice n
    let s := if nf && decide (tag ≠ 0) && !snap then mergeFrom (epSlice n) part tag 0 true s else s
    match tget? line x.comp with
    | some (_, d) => touchLine n line tag false (s.setSlice n { s.slice n with comp := tset line (3, putCells d cs) x.comp })
    | none =>
      cwSend (if whole then 5 else 6) line eng pkt
        { tmsg0 with part := part, tag := tag, fmt := fmt, nf := nf, data := putCells 0 cs, mask := maskCells cs } s
  else if keyOk s part pa = false ∨ (bankRetired s pa = true ∧ (resident s line).isNone = true) then dropWrite pa s
  else
    let s := if snap then s else touchBit part tag pa (setT pa s)
    let s := if fg then { s with corr := s.corr.map fun c => if c.2.1 = line then (c.1, line, c.2.2.1, true) else c } else s
    let s := if nf && decide (tag ≠ 0) && !snap then mergeFrom (homeEp s pa) part tag 0 true s else s
    if isLp pa then (storeCells line cs s).count (rLC_WR (lpMap pa).1) cs.length
    else
      let n := homeSlice s pa
      let s := if (resident s line).isSome then (touchLine n line tag false s).count (rSL_HIT n) 1
               else fill n line tag part snap (if whole then s
                 else let s := s.count (rSL_MISS n) 1; if fg then nextLine n line part s else s)
      let cells := cellsOf s line
      let s := modLine n line (fun l =>
        { l with dirty := true, bad := l.bad && !whole, old := if l.dirty then l.old else cells }) s
      let s := storeCells line cs s
      if fg then armFlip n line s else s

/-! When a home holds an access. -/

/-- Does a PHY recalibration hold the channel of a line (R39). -/
def chanHeld (s : State) (line : Nat) : Bool :=
  let pa := line * 128
  if isHbm pa then let (st, sa) := hbmMap s pa; s.recal.contains (epSC st, saPc sa)
  else if isLp pa then let (n, ch, _) := lpMap pa; s.recal.contains (epLC n, ch)
  else false

/-- Does a frame hold part of the Logline ring or of a copy table of its partition (R428). -/
def inRings (s : State) (p vpn : Nat) : Bool :=
  let ring := s.fld (rLOG_RING p) LOG_RING_BASE
  let pages := cdiv (2 ^ s.fld (rLOG_RING p) LOG_RING_LSIZE * 1024) (2 ^ 21)
  let t0 := s.fld (rSN_TBL p 0) SN_TBL_BASE
  let t1 := s.fld (rSN_TBL p 1) SN_TBL_BASE
  (decide (ring ≤ vpn) && decide (vpn < ring + pages)) || (decide (t0 ≤ vpn) && decide (vpn < t0 + 5)) ||
    (decide (t1 ≤ vpn) && decide (vpn < t1 + 5))

/-- Does the sweep of a snapshot set S in an entry (R428). -/
def sweeps (s : State) (p : Nat) (e : LEnt) : Bool :=
  e.v && e.owner == p && e.w &&
    !(s.flag (rSN_SKIPLO p) SN_SKIPLO_EN && decide (s.fld (rSN_SKIPLO p) SN_SKIPLO_VPN ≤ e.vpn) &&
        decide (e.vpn ≤ s.fld (rSN_SKIPHI p) SN_SKIPHI_VPN)) &&
    !(e.g && s.flag (rSN_CTL p) SN_CTL_SKIPG) && !inRings s p e.vpn

/-- The snapshot engine's state of a partition. -/
def State.snap (s : State) (p : Nat) : Snap := tget Snap.reset s.snaps p

/-- Replace it. -/
def State.setSnap (s : State) (p : Nat) (x : Snap) : State := { s with snaps := tset p x s.snaps }

/-- Is the frame still to be swept (R429). -/
def unswept (s : State) (f : Nat) : Bool :=
  let e := s.le f
  decide (s.fld (rSN_STAT e.owner) SN_STAT_STATE = 1) && decide (s.fld (rSN_STAT e.owner) SN_STAT_SWEEP ≤ f) &&
    !lhas f (s.snap e.owner).swept

/-- Sweep an entry out of order (R429). -/
def sweepNow (f : Nat) (s : State) : State :=
  if unswept s f then
    let e := s.le f
    let x := s.snap e.owner
    let s := if sweeps s e.owner e then s.setLe f { e with s := true } else s
    s.setSnap e.owner { x with swept := f :: x.swept }
  else s

/-- Is a write to the frame a first write that a snapshot copy must precede (R430). -/
def mustCopy (s : State) (f : Nat) : Bool := let e := s.le f; e.s || (unswept s f && sweeps s e.owner e)

/-- The table of the partition's newest snapshot (R433, R434). -/
def snTable (s : State) (p : Nat) : Nat :=
  let st := s.fld (rSN_STAT p) SN_STAT_STATE
  let o := s.fld (rSN_STAT p) SN_STAT_TSEL
  if st = 2 ∨ (st = 1 ∧ (s.snap p).first = false) then 1 - o else o

/-- Start, or queue, the copy of a page (R430, R432). -/
def wantCopy (f : Nat) (s : State) : State :=
  let s := sweepNow f s
  let p := (s.le f).owner
  let x := s.snap p
  if x.copies.any fun c => c.frame == f then s
  else s.setSnap p { x with copies := x.copies ++ [{ frame := f, copy := none, started := false, tbl := some (snTable s p) }] }

/-- Is the 4 KiB region of a slice that holds the line under background test (R461). -/
def inTest (s : State) (line : Nat) : Bool :=
  match resident s line with
  | some l => s.tbt.contains (epSlice (homeSlice s (line * 128)), (l.set * 16 + l.way) / 32)
  | none => false

/-- May an access to a line be served now (R39, R245, R258, R409, R411, R430, R461). -/
def gateOpen (line : Nat) (write : Bool) (s : State) : Bool :=
  let pa := line * 128
  if isCw pa then
    let st := (tget (0, 0) (s.slice (homeSlice s pa)).comp line).1
    if tget? line s.cwBuf == some none then true
    else if cwCache s pa then
      (if write then decide (2 ≤ st) else decide (1 ≤ st)) && !reqOut s line
    else if write then cwFree s line
    else (tget? line s.cwBuf).isSome
  else
    let f := frameOf pa
    let flt := tget? line (s.slice (homeSlice s pa)).filter
    let flt := if isLp pa then none else flt
    !snoopOut s line && !inTest s line && !(chanHeld s line && (resident s line).isNone) &&
      (match flt with
       | none => true
       | some (em, _) => !em && !write) &&
      !(write && ((s.le f).mig || mustCopy s f))

/-- Start what an access must wait for: a snoop, a snapshot copy, or a request to the companion, which carries the access's TAG
and FMT (R401). -/
def gatePrep (line part tag fmt : Nat) (write : Bool) (s : State) : State :=
  let pa := line * 128
  let n := homeSlice s pa
  let m := { tmsg0 with part := part, tag := effTag s part tag, fmt := fmt }
  if isCw pa then
    if cwOpen s pa write && !reqOut s line then
      if cwCache s pa then
        let st := (tget (0, 0) (s.slice n).comp line).1
        cwSend (if write then (if st = 1 then 3 else 1) else 0) line 0 none m s
      else if write then s
      else cwSend 2 line 0 none m s
    else s
  else
    let f := frameOf pa
    let s := if write && !(s.le f).mig && mustCopy s f then wantCopy f s else s
    match (if isLp pa then none else tget? line (s.slice n).filter) with
    | some (em, _) =>
      if write then snoop line n part true false s
      else if em then snoop line n part false false s else s
    | none => s

/-- May an engine's access to `n` lines from `line` be served now. -/
def gateAll (line : Nat) (write : Bool) (s : State) : Nat → Bool
  | 0 => true
  | n + 1 => gateAll line write s n && gateOpen (line + n) write s

/-- Start all that an engine's access to `n` lines must wait for. -/
def prepAll (line part : Nat) (write : Bool) : Nat → State → State
  | 0, s => s
  | n + 1, s =>
    let s := prepAll line part write n s
    if gateOpen (line + n) write s then s else gatePrep (line + n) part 0 0xF write s

/-- Number of lines that `n` bytes at `pa` touch. -/
def lineSpan (pa n : Nat) : Nat := if n = 0 then 0 else (pa + n - 1) / 128 - pa / 128 + 1

/-- An engine's read of lines at their homes, in ascending order, for its side effects. -/
def readLines (line part tag : Nat) (cons snap fg : Bool) : Nat → State → State
  | 0, s => s
  | n + 1, s => (homeRead (line + n) part tag cons snap fg (readLines line part tag cons snap fg n s)).2.2

/-- An engine's read of `n` bytes at `pa`: the bytes, the first uncorrectable word, and the homes' new state. -/
def engRead (pa n part tag : Nat) (cons snap fg : Bool) (s : State) : List Byte × Option Nat × State :=
  if isCw pa then
    let l := pa / 128
    match (List.range (lineSpan pa n)).mapM (fun i => (cwLine s (l + i)).join) with
    | none => ([], some (pa / 4), readLines l part tag cons snap fg (lineSpan pa n) s)
    | some ds =>
      let v := ds.reverse.foldl (fun a d => a * 2 ^ 1024 + d.toNat) 0
      (leBytes n (v >>> (8 * (pa % 128))), none, readLines l part tag cons snap fg (lineSpan pa n) s)
  else (s.rdBytes pa n, badIn s part pa n, readLines (pa / 128) part tag cons snap fg (lineSpan pa n) s)

/-- Split bytes at line boundaries and write each part at its home; `k` bounds the number of lines. -/
def engWriteN (part tag fmt : Nat) (nf snap fg : Bool) (eng : Nat) : Nat → Nat → List Byte → State → State
  | 0, _, _, s => s
  | k + 1, pa, bs, s =>
    if bs.isEmpty then s
    else
      let h := 128 - pa % 128
      engWriteN part tag fmt nf snap fg eng k (pa + h) (bs.drop h)
        (homeWrite (pa / 128) (cellsFrom (pa % 128) (bs.take h)) part tag fmt nf snap fg eng none s)

/-- An engine's write of bytes at `pa`. -/
def engWrite (pa : Nat) (bs : List Byte) (part tag fmt : Nat) (nf snap fg : Bool) (eng : Nat) (s : State) : State :=
  engWriteN part tag fmt nf snap fg eng (lineSpan pa bs.length) pa bs s

end Sys2Proof.Machine
end

