-- ==== Sys2Proof/Machine/Encoding.lean ====
section
/-! DEFINITION. The first words of the core instructions (R48-R51): exceptions report them in EVAL (R76), so every
meaning builds its own word from its operands. -/

namespace Sys2Proof.Machine

/-- Format S (R49). -/
def encS (opc gd ga gb fn : Nat) : Nat := (gd <<< 27) ||| (ga <<< 22) ||| (gb <<< 17) ||| (fn <<< 7) ||| opc

/-- Formats I and M (R49). -/
def encI (opc gd ga imm : Nat) : Nat := (gd <<< 27) ||| (ga <<< 22) ||| (imm <<< 7) ||| opc

/-- Formats U and J (R49). -/
def encU (opc gd imm : Nat) : Nat := (gd <<< 27) ||| (imm <<< 7) ||| opc

/-- Format B (R49). -/
def encB (opc cond ga gb off : Nat) : Nat := (cond <<< 29) ||| (ga <<< 24) ||| (gb <<< 19) ||| (off <<< 7) ||| opc

end Sys2Proof.Machine
end

