-- ==== Sys2Proof/Machine/CoreMem.lean ====
section
/-! DEFINITION. How a core reaches memory (R43, R229-R235, R252, R260-R265): the checks of an access, the scratchpad,
the L1, requests to homes, and accesses that its engines make row by row. -/

namespace Sys2Proof.Machine

/-- Frames of a chain that a walk reads, in order (R252). -/
def walkReads (s : State) (p vpn : Nat) : Nat → Option Nat → List Nat
  | 0, _ => []
  | _ + 1, none => []
  | n + 1, some f =>
    let e := s.le f
    f :: (if e.v && e.owner == p && e.vpn == vpn then [] else walkReads s p vpn n e.next)

/-- The slice accesses of a walk: one for the anchor and one for each entry read (R250, R254). -/
def walkLines (p vpn : Nat) (s : State) : State :=
  let b := s.fld rLG_BASE LG_BASE_BASE * 2 ^ 24
  let h := anchorIx p vpn
  each (fun pa s => ledgerLine (pa / 128) s) ((b + 0xA00000 + 4 * h) :: (walkReads s p vpn 64 (s.anchor h)).map fun f => b + 16 * f) s

/-- Count a translation of core `c` in its cache and walk counters (R252, R254): a page in the cache costs nothing, a
new page walks and is kept, at most 128. -/
def touchTc (c p va : Nat) (s : State) : State :=
  if !looksUp s p va then s
  else
    let vpn := va / 2 ^ 21
    if lhas vpn (s.core c).tc then s
    else
      let w := walk s p vpn
      let s := walkLines p vpn (countWalk p w s)
      let k := s.core c
      match w with
      | .hit _ =>
        let tc := if k.tc.length < 128 then k.tc else k.tc.eraseIdx (Config.tcVictim (k.tc.length + vpn) % 128)
        s.setCore c { k with tc := vpn :: tc }
      | _ => s.countSat (rLG_XFAULT p) LG_XFAULT_FAIL 1

/-- Count the translations of the pages of `n` bytes at `va`. -/
def touchTcN (c p va n : Nat) (s : State) : State :=
  each (fun b s => touchTc c p (max va (b * 2 ^ 21)) s) (rangeFrom (va / 2 ^ 21) ((va + n - 1) / 2 ^ 21 + 1)) s

/-- First failing point of an access among the boundaries of 128 KiB it meets, from the lowest (R231, R252, R105). -/
def pointFault (s : State) (p : Nat) (m : Bool) (k : AccK) (stop : Nat) : Nat → Nat → Option (Exc × Nat)
  | 0, _ => none
  | n + 1, va =>
    if stop ≤ va then none
    else match place s p m k va with
      | .fail e => some (e, va)
      | _ => pointFault s p m k stop n ((va / 131072 + 1) * 131072)

/-- The exception of an access of `n` bytes at `va` by partition `p`, and the lowest failing address (R43, R231, R252,
R253, R229). -/
def accFault (s : State) (p : Nat) (m : Bool) (k : AccK) (va n : Nat) : Option (Exc × Nat) :=
  let lo := spadBase s p
  let hi := lo + 2 ^ 20
  let inside := decide (va < hi) && decide (lo < va + n)
  let outside := decide (va < lo) || decide (hi < va + n)
  if decide (va < 2 ^ 48) && inside && outside then some (k.acc, va)
  else pointFault s p m k (va + n) (n / 131072 + 2) va

/-- A byte of a core's scratchpad (R230). -/
def spadByte (s : State) (c off : Nat) : Byte :=
  match tget? off (s.core c).spad with
  | some b => b
  | none => Config.spadByte c (s.core c).spadEpoch off

/-- Key of a word of an L1 line in the core's flip masks. -/
def l1Key (line w : Nat) : Nat := 2 ^ 40 + line * 32 + w

/-- Byte of the scratchpad as a reader receives it (R445, R463). -/
def spadRd (s : State) (c off : Nat) : Byte :=
  spadByte s c off ^^^ BitVec.ofNat 8 (eccLeft (tget 0 (s.core c).flips (off / 4)) >>> (8 * (off % 4)))

/-- Bytes of the scratchpad. -/
def spadBytes (s : State) (c off : Nat) : Nat → List Byte
  | 0 => []
  | n + 1 => spadRd s c off :: spadBytes s c (off + 1) n

/-- First uncorrectable word of a scratchpad range, as an offset. -/
def spadBad (s : State) (c off n : Nat) : Option Nat :=
  ((List.range ((off + n + 3) / 4 - off / 4)).find? fun i => eccUnc (tget 0 (s.core c).flips (off / 4 + i))).map
    fun i => max off ((off / 4 + i) * 4)

/-- Does a scratchpad range touch a region under background test (R461). -/
def spadTested (s : State) (c off n : Nat) : Bool :=
  s.tbt.any fun x => x.1 == c && decide (off / 4096 ≤ x.2) && decide (x.2 * 4096 < off + n)

/-- What a read of a scratchpad range logs: a CE for each word it corrects, a UE for the first it finds uncorrectable (R446, R464). -/
def spadSeen (c off n : Nat) (s : State) : State :=
  let ws := rangeFrom (off / 4) ((off + n + 3) / 4)
  let m := fun w => tget 0 (s.core c).flips w
  let s' := each (fun w s => if eccSynd (m w) ≠ 0 ∧ eccUnc (m w) = false then logErr .ce c 0 w 0 0 (eccSynd (m w)) false s else s) ws s
  match ws.find? fun w => eccUnc (m w) with
  | some w => logErr .ue c 0 w 0 0 (eccSynd (m w)) false s'
  | none => s'

/-- The core-memory flip mask applies to a write that covers the words `ws` whole; `key` maps a word to its place in the
flip masks and `w % 32` is its place in its line (R463). -/
def cmArm (c : Nat) (key : Nat → Nat) (ws : List Nat) (s : State) : State :=
  let s := s.modCore c fun k => { k with flips := k.flips.filter fun x => !(ws.any fun w => x.1 == key w) }
  let r := rCM_FLIP c
  if s.flag r SC_FLIP_ARM then
    match ws.find? fun w => w % 32 == s.fld r SC_FLIP_WORD with
    | some w => (s.setFlag r SC_FLIP_ARM false).modCore c fun k =>
        { k with flips := tset (key w) (s.fld r SC_FLIP_MASK) k.flips }
    | none => s
  else s

/-- Write bytes into the scratchpad. -/
def spadPut (c off : Nat) : List Byte → State → State
  | [], s => s
  | b :: r, s => spadPut c (off + 1) r (s.modCore c fun k => { k with spad := tset off b k.spad })

/-- A write to the scratchpad (R230, R463). -/
def spadWrite (c off : Nat) (bs : List Byte) (s : State) : State :=
  cmArm c (fun w => w) (rangeFrom ((off + 3) / 4) ((off + bs.length) / 4)) (spadPut c off bs s)

/-! The L1 (R232-R234). -/

/-- Sets of a core's L1. -/
def l1Sets (s : State) (c : Nat) : Nat := 1024 - 128 * s.fld (rCMEM_CFG (s.part c)) CMEM_CFG_SPAD_SIZE

/-- Set of a line (log 22). -/
def l1Set (s : State) (c line : Nat) : Nat := Config.l1SetOf (l1Sets s c) line % l1Sets s c

/-- The line of the L1, if it is held. -/
def l1Find (s : State) (c line : Nat) : Option L1Line := (s.core c).l1.find? fun l => l.line == line

/-- Victim order of an L1 line (R234, R237). -/
def l1Rank (l : L1Line) : Nat :=
  if l.cls = clStream then 0 else if l.spent then 1 else if l.cls = clRetain then 3 else 2

/-- Victim among lines. -/
def l1Victim : List L1Line → Option L1Line
  | [] => none
  | l :: r => match l1Victim r with
    | none => some l
    | some v =>
      if l1Rank l < l1Rank v ∨ (l1Rank l = l1Rank v ∧ l.stamp < v.stamp) then some l else some v

/-- Fill a line into the L1 with the class and SPENT state that the response carries (`rspAttr`; R232, R234, R239). -/
def l1Fill (c line : Nat) (d : Line) (tag attr : Nat) (s : State) : State :=
  let k := s.core c
  let set := l1Set s c line
  let ls := k.l1.filter fun l => l1Set s c l.line == set && l.line != line
  let kept := k.l1.filter fun l => l.line != line
  let kept := if ls.length < 8 then kept
    else match l1Victim ls with
      | some v => kept.filter fun l => l.line != v.line
      | none => kept
  cmArm c (l1Key line) (List.range 32)
    (s.setCore c { k with l1 := { line := line, data := d, cls := attr % 4, tag := tag, spent := bit attr 2,
                                  stamp := k.clk } :: kept, clk := k.clk + 1 })

/-- Drop a line of the L1, and data of it that a prefetch still brings (R232, R265). -/
def l1Drop (c line : Nat) (s : State) : State :=
  s.modCore c fun k =>
    { k with pfOut := ldrop line k.pfOut, l1 := k.l1.filter fun l => l.line != line, flips := k.flips.filter fun x => !(decide (2 ^ 40 ≤ x.1) && (x.1 - 2 ^ 40) / 32 == line) }

/-- The data of an L1 hit: a held line with no uncorrectable word (R450). -/
def l1Get (s : State) (c line : Nat) : Option Line :=
  match l1Find s c line with
  | none => none
  | some l =>
    let fl := fun i => tget 0 (s.core c).flips (l1Key line i)
    if (List.range 32).any fun i => eccUnc (fl i) then none
    else some ((List.range 32).foldl (fun d i => d ^^^ BitVec.ofNat 1024 (eccLeft (fl i) <<< (32 * i))) l.data)

/-- An access of the L1: a hit is refreshed; an uncorrectable copy is dropped and logged (R450). -/
def l1Touch (c line : Nat) (s : State) : State :=
  match l1Find s c line with
  | none => s
  | some _ =>
    match l1Get s c line with
    | some _ =>
      let m := fun w => tget 0 (s.core c).flips (l1Key line w)
      let s := each (fun w s => if eccSynd (m w) ≠ 0 then logErr .ce c 0 ((line * 32 + w) % 262144) 0 0 (eccSynd (m w)) false s else s)
        (List.range 32) s
      s.modCore c fun k =>
        { k with l1 := k.l1.map (fun l => if l.line = line then { l with stamp := k.clk } else l), clk := k.clk + 1 }
    | none => logErr .refetch c 0 (line * 32 % 262144) 0 0 0 false (l1Drop c line s)

/-- A store that hits the L1 updates the line; data that a prefetch still brings is older than the store (R44, R232). -/
def l1Store (c line : Nat) (cs : Cells) (s : State) : State :=
  let s := s.modCore c fun k => { k with pfOut := ldrop line k.pfOut }
  match l1Find s c line with
  | none => s
  | some _ =>
    let s := s.modCore c fun k => { k with l1 := k.l1.map fun l => if l.line = line then { l with data := putCells l.data cs } else l }
    cmArm c (l1Key line) ((List.range 32).filter fun w => [0, 1, 2, 3].all fun b => cs.any fun x => x.1 == 4 * w + b) s

/-- Does a line lie in a read-only page of HBM3E or LPDDR5X (R233). -/
def roLine (s : State) (line : Nat) : Bool := !isCw (line * 128) && !(s.le (frameOf (line * 128))).w

/-- An acquire drops every line but those of read-only pages of HBM3E and LPDDR5X (R233). -/
def acquire (c : Nat) (s : State) : State :=
  s.modCore c fun k => { k with l1 := k.l1.filter fun l => roLine s l.line, pfOut := k.pfOut.filter fun l => roLine s l }

/-- An access that starts at `va` takes exception `e` at `ev`: the failing translation is counted too (R252, R254). -/
def trapAcc (c : Nat) (e : Exc) (va ev : Nat) (s : State) : State :=
  trap c e (n64 ev) (touchTcN c (s.part c) va (ev + 1 - va) s)

/-! Requests (R260, R261, R403, R455). -/

/-- Whose write it is, in a core's `stores`: a stream's miss record. -/
abbrev stMiss : Nat := 0
/-- A store or VST. -/
abbrev stStore : Nat := 9

/-- Transaction numbers of a core that are in use (R455). -/
def Core.txUsed (k : Core) : List Nat :=
  (k.stores.map fun x => x.1) ++ (k.merges.map fun x => x.1) ++ k.deadTx ++
    (k.ctxs.flatMap fun x => match x.2.wait with
      | .mem outs _ _ _ => outs.map fun o => o.1
      | .kwait _ _ _ tx _ _ => tx.toList
      | .kop _ _ _ _ tx | .harr _ _ tx | .hwait _ _ _ tx _ => [tx]
      | _ => [])

/-- The lowest free transaction number. -/
def Core.freeTx (k : Core) : Option Nat := freeNum k.txUsed 256

/-- Send a request of a core to a home; a request to a slice needs one of the core's two credits there (R260). -/
def sendReq (c : Nat) (p : Packet) (s : State) : State :=
  let k := s.core c
  if 0x400 ≤ p.dst ∧ p.dst < 0x500 then
    let u := tget 0 k.cred p.dst
    if u < 2 then (s.setCore c { k with cred := tset p.dst (u + 1) k.cred }).send p
    else s.setCore c { k with outq := k.outq ++ [p] }
  else s.send p

/-- A request packet of a core (R342, R344). -/
def coreReq (s : State) (c op line txid : Nat) : Packet :=
  { mkPkt (homeEp s (line * 128)) c clsREQ op (s.part c) (line * 128) with rgen := (s.core c).rgen, txid := txid }

/-- A posted write of cells of a line: the L1 is updated, but not by the Flume's own records, and a WR goes to the home (R45,
R232).  With no free transaction number the write waits: none. -/
def postWrite (c line : Nat) (cs : Cells) (tag fmt : Nat) (nf : Bool) (ctx tile : Nat) (s : State) : Option State :=
  match (s.core c).freeTx with
  | none => none
  | some x =>
    let s := if tile = stMiss then s else l1Store c line cs s
    let s := s.modCore c fun k => { k with stores := k.stores ++ [(x, ctx, tile)] }
    some (sendReq c { coreReq s c opWR line x with
      tag := tag, fmt := fmt, nf := nf, payload := putCells 0 cs, mask := maskCells cs, size := cs.length,
      len16 := cdiv cs.length 16 } s)

/-- Does the L1 prefetcher act on a miss: three misses of one context at one stride of at most 4 KiB (R263). -/
def pfStep (c i line : Nat) (s : State) : List Nat × State :=
  let k := s.core c
  let (last, stride, run) := tget (0, 0, 0) k.pf i
  let d : Int := (line : Int) - last
  let run' := if run ≠ 0 ∧ d = stride ∧ d ≠ 0 then run + 1 else if run = 0 then 1 else 2
  let s := s.setCore c { k with pf := tset i (line, d, run') k.pf }
  let dist := max 1 (s.fld (rPF_CTL (s.part c)) PF_CTL_DIST)
  if s.flag (rPF_CTL (s.part c)) PF_CTL_L1PF && decide (3 ≤ run') && decide (d.natAbs ≤ 32) then
    ((List.range dist).map (fun (j : Nat) => ((line : Int) + d * ((j : Int) + 1)).toNat), s)
  else ([], s)

/-- A prefetch leaves behind the core's demand requests to the same home (R265). -/
def sendPf (c : Nat) (p : Packet) (s : State) : State :=
  if (s.core c).outq.any fun q => q.dst == p.dst then s.modCore c fun k => { k with outq := k.outq ++ [p] } else s.send p

/-- Prefetches with no demand request to their home before them leave (R265). -/
def flushPf (c dst : Nat) (s : State) : State :=
  let k := s.core c
  if k.outq.any fun q => q.dst == dst && q.op != opPF_RD then s
  else each (fun q s => s.send q) (k.outq.filter fun q => q.dst == dst)
    (s.setCore c { k with outq := k.outq.filter fun q => q.dst != dst })

/-- Issue one prefetch of a virtual line, or drop and count it (R264, R265); `warm`: it only warms the home (R277). -/
def prefetch (warm : Bool) (c i vline : Nat) (s : State) : State :=
  let p := s.part c
  let va := vline * 128
  let drop := fun f => s.countSat (rPF_DROP p) f 1
  if looksUp s p va = false then drop PF_DROP_UNMAPPED
  else
    let s0 := touchTc c p va s
    match walk s p (va / 2 ^ 21) with
    | .hit f =>
      let e := s.le f
      if !e.p then s0.countSat (rPF_DROP p) PF_DROP_NOT_P 1
      else if e.x then s0.countSat (rPF_DROP p) PF_DROP_RETIRED 1
      else
        let line := (framePa f + va % 2 ^ 21) / 128
        let q := { coreReq s c opPF_RD line 0 with sub := i }
        if warm then sendPf c q s0
        else if (l1Find s c line).isSome then s0
        else sendPf c q (s0.modCore c fun k => { k with pfOut := ladd line k.pfOut })
    | _ => s0.countSat (rPF_DROP p) PF_DROP_UNMAPPED 1

/-- Send the reads of a load: for each (virtual line, memory line) a hit gives data and a miss sends an RD.  Answers
(outstanding, in hand), or none when a transaction number is missing. -/
def sendReads (c i tag fmt : Nat) : List (Nat × Nat) → List (Nat × Nat) → List (Nat × Line) → State →
    Option (List (Nat × Nat) × List (Nat × Line) × State)
  | [], outs, got, s => some (outs, got, s)
  | (vl, line) :: r, outs, got, s =>
    let s := l1Touch c line s
    match l1Get s c line with
    | some d => sendReads c i tag fmt r outs (got ++ [(vl, d)]) s
    | none =>
      match freeNum ((s.core c).txUsed ++ outs.map fun o => o.1) 256 with
      | none => none
      | some x =>
        let s := sendReq c { coreReq s c opRD line x with tag := tag, fmt := fmt, size := 128 } s
        let (pf, s) := pfStep c i vl s
        sendReads c i tag fmt r (outs ++ [(x, vl)]) got (each (fun l s => prefetch false c i l s) pf s)

/-- Bytes of an access from lines in hand (virtual line, data). -/
def gotBytes (got : List (Nat × Line)) (va : Nat) : Nat → List Byte
  | 0 => []
  | n + 1 =>
    (match got.find? fun g => g.1 == va / 128 with
     | some (_, d) => d.extractLsb' (8 * (va % 128)) 8
     | none => 0) :: gotBytes got (va + 1) n

/-! Accesses of a core's engines, row by row. -/

/-- One virtual byte's place for a core, by memory address (after `accFault` has passed). -/
def corePlace (s : State) (c : Nat) (k : AccK) (va : Nat) : Place := place s (s.part c) true k va

/-- Virtual lines of an access. -/
def vlines (va n : Nat) : List Nat := (List.range (lineSpan va n)).map fun i => va / 128 + i

/-- May an access to memory, whose bytes lie where `pl` says, be served now at every home it names, and at the core's own
memory, where a region under test makes it wait (R461); `l1`: a held L1 line serves a read. -/
def coreGateAt (pl : Nat → Place) (s : State) (c : Nat) (l1 write : Bool) (va n : Nat) : Bool :=
  (vlines va n).all fun vl =>
    match pl (max va (vl * 128)) with
    | .mem pa => (l1 && !write && (l1Get s c (pa / 128)).isSome) || gateOpen (pa / 128) write s
    | .spad off => !(s.tbt.contains (c, off / 4096))
    | _ => true

/-- May an access be served now, by the translation as it stands. -/
def coreGate (s : State) (c : Nat) (l1 write : Bool) (va n : Nat) : Bool :=
  coreGateAt (corePlace s c (if write then .store else .load)) s c l1 write va n

/-- Start all that the access waits for, where its bytes lie as `pl` says. -/
def corePrepAt (pl : Nat → Place) (c tag fmt : Nat) (write : Bool) (va n : Nat) (s : State) : State :=
  each (fun vl s =>
    match pl (max va (vl * 128)) with
    | .mem pa => if gateOpen (pa / 128) write s then s else gatePrep (pa / 128) (s.part c) tag fmt write s
    | _ => s) (vlines va n) s

/-- Start all that the access waits for. -/
def corePrep (c tag fmt : Nat) (write : Bool) (va n : Nat) (s : State) : State :=
  corePrepAt (corePlace s c (if write then .store else .load)) c tag fmt write va n s

/-- Read `n` bytes at `va` for an engine of a core, through scratchpad, L1 and homes: bytes, virtual address of the
lowest byte of the first uncorrectable word.  `pl` is where the bytes lie; `l1`: through the L1, which a miss fills (R232). -/
def coreReadL (pl : Nat → Place) (c tag : Nat) (l1 : Bool) (va n : Nat) : List Nat → State → List Byte × Option Nat × State
  | [], s => ([], none, s)
  | vl :: r, s =>
    let a := max va (vl * 128)
    let e := min (va + n) ((vl + 1) * 128)
    match pl a with
    | .spad off =>
      let bs := spadBytes s c off (e - a)
      let bad := (spadBad s c off (e - a)).map fun o => a + (o - off)
      let (bs', bad', s) := coreReadL pl c tag l1 va n r (spadSeen c off (e - a) s)
      (bs ++ bs', match bad with | some x => some x | none => bad', s)
    | .mem pa =>
      let line := pa / 128
      let s := if l1 then l1Touch c line s else s
      match (if l1 then l1Get s c line else none) with
      | some d =>
        let bs := leBytes (e - a) (d.toNat >>> (8 * (a % 128)))
        let (bs', bad', s) := coreReadL pl c tag l1 va n r s
        (bs ++ bs', bad', s)
      | none =>
        let (d, bm, s) := homeRead line (s.part c) tag true false true s
        let s := if l1 && bm == 0 then l1Fill c line d (effTag s (s.part c) tag) (rspAttr s line (effTag s (s.part c) tag) false) s else s
        let s := if l1 then let (pf, s) := pfStep c (s.core c).run vl s; each (fun l s => prefetch false c (s.core c).run l s) pf s else s
        let bs := leBytes (e - a) (d.toNat >>> (8 * (a % 128)))
        let bad := ((List.range 32).find? fun w =>
          bit bm w && decide (w * 4 < a % 128 + (e - a)) && decide (a % 128 < w * 4 + 4)).map fun w =>
            max a (vl * 128 + w * 4)
        let (bs', bad', s) := coreReadL pl c tag l1 va n r s
        (bs ++ bs', match bad with | some x => some x | none => bad', s)
    | .fail _ => ([], some a, s)

/-- Read for an engine of a core. -/
def coreRead (c tag : Nat) (l1 : Bool) (va n : Nat) (s : State) : List Byte × Option Nat × State :=
  coreReadL (corePlace s c .load) c tag l1 va n (vlines va n) (touchTcN c (s.part c) va n s)

/-- Write bytes at `va` for a core, at once at scratchpad and homes.  `l1`: the scalar unit's own write, which updates a held L1
line; an engine's does not (R232). -/
def coreWriteL (c tag fmt : Nat) (l1 nf : Bool) (eng va : Nat) (bs : List Byte) : List Nat → State → State
  | [], s => s
  | vl :: r, s =>
    let a := max va (vl * 128)
    let e := min (va + bs.length) ((vl + 1) * 128)
    let part := (bs.drop (a - va)).take (e - a)
    let s := match corePlace s c .store a with
      | .spad off => spadWrite c off part s
      | .mem pa =>
        let cs := cellsFrom (pa % 128) part
        homeWrite (pa / 128) cs (s.part c) tag fmt nf false true eng none (if l1 then l1Store c (pa / 128) cs s else s)
      | .fail _ => s
    coreWriteL c tag fmt l1 nf eng va bs r s

/-- Write for a core. -/
def coreWrite (c tag fmt : Nat) (l1 nf : Bool) (eng va : Nat) (bs : List Byte) (s : State) : State :=
  coreWriteL c tag fmt l1 nf eng va bs (vlines va bs.length) (touchTcN c (s.part c) va bs.length s)

/-- Record an engine error (R75): the first is kept while VALID is set. -/
def engError (c engine code addr : Nat) (ctx kind num : Nat) (s : State) : State :=
  if s.flag (rENG_ERR c) ENG_ERR_VALID then s
  else
    let v := ((addr % 2 ^ 48) <<< 16) ||| (engine <<< 12) ||| (1 <<< 8) ||| code % 256
    (s.setReg (rENG_ERR c) (n64 v)).modCore c fun k => { k with errPend := some (ctx, kind, num) }

end Sys2Proof.Machine
end

