-- ==== Sys2Proof/Machine/Issue.lean ====
section
/-! DEFINITION. How a core instruction issues (R42, R48, R50, R60, R64-R70, R73-R76, R94, R164): the running context, the
fetch, legality, privilege, the engine state's owner, and errors found by engines. -/

namespace Sys2Proof.Machine

/-- Is the context one that FG_CTX may name (R66). -/
def runnable (x : Ctx) : Bool := x.st == .running || x.st == .ready || x.st == .waiting

/-- The value CORE_MODE takes from a write: FG_CTX is kept while MAINT is 0 and stays 0 (R66). -/
def modeValue (s : State) (c : Nat) (v : Word) : Word :=
  let old := s.reg (rCORE_MODE c)
  let m := fmask CORE_MODE_SW_THRESH ||| fmask CORE_MODE_VIEW ||| fmask CORE_MODE_FG_CTX ||| fmask CORE_MODE_ROT |||
    fmask CORE_MODE_MAINT
  let new := (old &&& ~~~ (n64 m)) ||| (v &&& n64 m)
  if !fbit old CORE_MODE_MAINT && !fbit new CORE_MODE_MAINT then fset new CORE_MODE_FG_CTX (fget old CORE_MODE_FG_CTX)
  else new

/-- Is a write of CORE_MODE refused: it would leave an EMPTY or HALTED foreground (R66). -/
def modeRefused (s : State) (c : Nat) (v : Word) : Bool :=
  let new := modeValue s c v
  s.maint c && !fbit new CORE_MODE_MAINT && !runnable ((s.core c).ctx (fget new CORE_MODE_FG_CTX))

/-- A WAITING context becomes READY with its PC still at its waiting instruction (R66). -/
def wakeWaiting (c i : Nat) (s : State) : State :=
  s.modCtx c i fun x => if x.st = .waiting then { x with st := .ready, wait := .none } else x

/-- The effect of a CORE_MODE write at an instruction boundary (R66). -/
def modeApply (c : Nat) (v : Word) (s : State) : State :=
  let new := modeValue s c v
  let enter := s.maint c && !fbit new CORE_MODE_MAINT
  if modeRefused s c v then s
  else
    let s := s.setReg (rCORE_MODE c) new
    if enter then
      let s := wakeWaiting c 3 (wakeWaiting c 2 (wakeWaiting c 1 (wakeWaiting c 0 s)))
      let f := fget new CORE_MODE_FG_CTX
      let r := (s.core c).run
      if s.flag (rCORE_CTL c) CORE_CTL_RUN && decide (f ≠ r) then
        switchIn c f (s.modCtx c r fun x => if x.st = .running then { x with st := .ready } else x)
      else s
    else s

/-- At an instruction boundary a CORE_MODE write that waited takes effect (R66). -/
def boundary (c : Nat) (s : State) : State :=
  match (s.core c).modePend with
  | some v =>
    if (s.cur c).wait = .none ∧ (s.core c).move = none then modeApply c v (s.modCore c fun k => { k with modePend := none })
    else s
  | none => s

/-- A write of CORE_MODE: a change of MAINT waits for the boundary of a context stalled in an instruction, one that an
engine-state move holds among them (R66, R70). -/
def modeWrite (c : Nat) (v : Word) (s : State) : State :=
  if s.flag (rCORE_CTL c) CORE_CTL_RUN && ((s.cur c).wait != .none || (s.core c).move.isSome) &&
      fbit (modeValue s c v) CORE_MODE_MAINT != s.maint c then
    s.modCore c fun k => { k with modePend := some v }
  else modeApply c v s

/-- May the running context of the core issue; `again` accepts the wait of an instruction that issues again. -/
def mayIssue (s : State) (c : Nat) (again : Wait → Bool) : Bool :=
  let k := s.core c
  k.enabled && s.flag (rCORE_CTL c) CORE_CTL_RUN && k.sw.isNone && k.move.isNone && (k.ctx k.run).st == .running &&
    ((k.ctx k.run).wait == .none || again (k.ctx k.run).wait)

/-- The exception of the fetch at the PC (R43, R76, R229, R252); a line of the instruction cache is not read again (R61). -/
def fetchFault (s : State) (c : Nat) : Option Exc :=
  let x := s.cur c
  match place s (s.part c) x.isM .fetch x.pc.toNat with
  | .fail e => some e
  | .spad off => if (spadBad s c off 4).isSome then some .dataErr else none
  | .mem pa =>
    if lhas (pa / 128) (s.core c).icache || isCw pa || (badIn s (s.part c) pa 4).isNone then none else some .dataErr

/-- The exception of the fetch of a 64-bit instruction's second word, which lies in the first one's line (R48, R76). -/
def fetchSecond (s : State) (c : Nat) : Option Exc :=
  let x := s.cur c
  match place s (s.part c) x.isM .fetch x.pc.toNat with
  | .fail _ => none
  | .spad off => if (spadBad s c (off + 4) 4).isSome then some .dataErr else none
  | .mem pa =>
    if lhas (pa / 128) (s.core c).icache || isCw pa || (badIn s (s.part c) (pa + 4) 4).isNone then none else some .dataErr

/-- A line enters the instruction cache of 64 KiB, from which the line fetched longest ago leaves (R5, R61, log 14). -/
def icFill (line : Nat) (l : List Nat) : List Nat := (line :: l.filter fun x => x != line).take 512

/-- What a fetch from the scratchpad logs (R446, R464). -/
def fetchSeen (c : Nat) (s : State) : State :=
  match place s (s.part c) (s.cur c).isM .fetch (s.cur c).pc.toNat with
  | .spad off => spadSeen c off 4 s
  | _ => s

/-- A fetch fills the instruction cache, with a line that has no uncorrectable word, and the translation cache (R61, R254, R449). -/
def fetched (c : Nat) (s : State) : State :=
  let x := s.cur c
  match place s (s.part c) x.isM .fetch x.pc.toNat with
  | .mem pa =>
    let good := isCw pa || badMask s (s.part c) (pa / 128) 32 == 0
    (touchTc c (s.part c) x.pc.toNat s).modCore c fun k => if good then { k with icache := icFill (pa / 128) k.icache } else k
  | .spad off => spadSeen c off 4 s
  | _ => s

/-- Is a register among those named still to be written by an engine (R94, R164). -/
def regBusy (s : State) (c : Nat) (rs : List Nat) : Bool :=
  rs.any fun r => decide (r ≠ 0) && (s.core c).gpend.contains ((s.core c).run, r)

/-- ISSUE of an instruction of `len` bytes with first word `w`: `rs` names the g registers it reads or writes, `legal` and
`priv` are its encoding and privilege checks, `body` its effect.  A core that cannot issue it leaves all unchanged (log 8). -/
def issue (c len w : Nat) (rs : List Nat) (legal priv : Bool) (again : Wait → Bool) (body : State → State) (s : State) : State :=
  let s := boundary c s
  if !mayIssue s c again || regBusy s c rs then s
  else
    let x := s.cur c
    match fetchFault s c with
    | some e => trap c e x.pc (fetchSeen c (touchTc c (s.part c) x.pc.toNat s))
    | none =>
      let second := decide (len = 8) && decide (x.pc.toNat % 8 = 0) && (fetchSecond s c).isSome
      let s := fetched c s
      if second then trap c .dataErr (x.pc + 4) s
      else if !legal || (decide (len = 8) && decide (x.pc.toNat % 8 ≠ 0)) then trap c .illegal (n64 w) s
      else if priv && !x.isM then trap c .priv (n64 w) s
      else body s

/-- No waiting instruction issues again as this one. -/
def fresh0 (_ : Wait) : Bool := false

/-- An ordinary 32-bit instruction. -/
def issue4 (c w : Nat) (rs : List Nat) (legal priv : Bool) (body : State → State) (s : State) : State :=
  issue c 4 w rs legal priv fresh0 body s

/-- An instruction that only writes `v` to `gd` (R52-R55). -/
def simple (c w gd : Nat) (rs : List Nat) (v : State → Word) (s : State) : State :=
  issue4 c w (gd :: rs) true false (fun s => s.retireG c gd (v s) 4) s

/-- Does a context that is not the owner use the engine state: the move starts, with the instruction held (R70). -/
def owned (c : Nat) (i : Instr) (body : State → State) (s : State) : State :=
  let k := s.core c
  if k.run ≠ k.owner then s.setCore c { k with move := some (k.run, i) } else body s

/-- Does the ENGINE exception of R75 wait for the running context. -/
def engPend (s : State) (c : Nat) (reads : Nat × Nat → Bool) : Bool :=
  match (s.core c).errPend with
  | some (ctx, kind, num) => ctx == (s.core c).run && reads (kind, num)
  | none => false

/-- ENGINE is taken precisely, once for the error (R75). -/
def engTrap (c : Nat) (s : State) : State :=
  trap c .engine (n64 (s.fld (rENG_ERR c) ENG_ERR_CODE)) (s.modCore c fun k => { k with errPend := none })

/-- An instruction that takes ENGINE when it reads the destination named (R75). -/
def engGuard (c : Nat) (reads : Nat × Nat → Bool) (body : State → State) (s : State) : State :=
  if engPend s c reads then engTrap c s else body s

/-- FENCE, CTXSAVE and release-ordered instructions take ENGINE whatever was named (R75). -/
def anyDest (_ : Nat × Nat) : Bool := true

/-- Has the running context writes, drains, tagged merges or a seed that have not completed (R45, R61, R129, R155, R180). -/
def storesOut (s : State) (c : Nat) : Bool :=
  let k := s.core c
  (k.stores.any fun x => x.2.1 == k.run) || (k.arr.any fun e => !e.isMma && e.ctx == k.run) ||
    (k.merges.any fun x => x.2 == k.run) ||
    (s.cores.any fun x => match x.2.seed with | some (_, d, i) => d == c && i == k.run | none => false)

end Sys2Proof.Machine
end

