-- ==== Sys2Proof/Machine/CoreRegs.lean ====
section
/-! DEFINITION. The core control registers (R82) and the tile, array and vector registers of the CORE block (R92, R140,
R194) as CSRs and memory-mapped accesses read and write them (R62, R64, R66, R84, R93-R96, R137, R176). -/

namespace Sys2Proof.Machine

/-- Offset in the CORE block of an address of core `c` (R41). -/
def coreOff (c a : Nat) : Nat := a - rCORE_ID c

/-- State codes of CTX_STATE (R63). -/
def ctxCode : CtxSt → Nat
  | .empty => 0
  | .ready => 1
  | .running => 2
  | .waiting => 3
  | .halted => 4

/-- Does an entry of the array queue use tile `t` (R90, R95). -/
def ArrEnt.uses (e : ArrEnt) (t : Nat) : Bool :=
  if e.isMma then
    (match e.a with | .tile i _ => i == t | .stream _ => false) ||
      (match e.b with | .tile i _ => decide (i ≤ t) && decide (t < i + e.fold) | .stream _ => false)
  else !e.dstSpad && e.td == t && !e.written

/-- Has an issued instruction that reads or writes tile `t` not completed (R92). -/
def tileBusy (k : Core) (t : Nat) : Bool :=
  (k.arr.any fun e => e.uses t) || (k.stores.any fun x => x.2.2 == t + 1) ||
    (k.ctxs.any fun x => match x.2.wait with
      | .tload i _ _ _ => i == t
      | .tstore i _ _ _ => i == t
      | _ => false)

/-- TILE_STAT (R92). -/
def tileStat (k : Core) : Nat :=
  let e := (List.range 8).foldl (fun a t => a ||| (if tget false k.eng.full t then 0 else 2 ^ t)) 0
  let b := (List.range 8).foldl (fun a t => a ||| (if tileBusy k t then 2 ^ t else 0)) 0
  (b2n k.tbar.isSome <<< 16) ||| (b <<< 8) ||| e

/-- Does an MDRAIN of the queue read accumulator `a`: no earlier MMA into it is left, and its read has not ended (R127, R140). -/
def drains (a : Nat) : List ArrEnt → Bool
  | [] => false
  | e :: r => if !e.isMma && !e.readDone then e.acc == a else !(e.isMma && e.acc == a) && drains a r

/-- ACC_STAT (R140). -/
def accStat (k : Core) : Nat :=
  (List.range 2).foldl (fun v a =>
    v ||| ((b2n (tget false k.eng.accErr a) <<< 3 ||| b2n (tget false k.eng.accNf a) <<< 2 |||
      b2n (drains a k.arr) <<< 1 |||
      b2n (k.arr.any fun e => e.isMma && e.acc == a)) <<< (4 * a))) 0

/-- The value of a register of core `c`, bank `i`, without the effects of the read; none for an offset with no register. -/
def coreRegVal (s : State) (c i off : Nat) : Option Word :=
  let k := s.core c
  let x := k.ctx i
  let a := rCORE_ID c + off
  if off % 8 ≠ 0 then none
  else if off = 0x008 then some (n64 (s.cycle c))
  else if off = 0x018 then some (fset (s.reg a) CORE_MODE_RUN_CTX k.run)
  else if off = 0x020 then
    some (n64 (ctxCode (k.ctx 0).st ||| ctxCode (k.ctx 1).st <<< 4 ||| ctxCode (k.ctx 2).st <<< 8 ||| ctxCode (k.ctx 3).st <<< 12))
  else if off = 0x028 then some (n64 (k.owner ||| b2n k.move.isSome <<< 2))
  else if off = 0x030 then some x.mstatus
  else if off = 0x040 then some x.epc
  else if off = 0x048 then some x.ecause
  else if off = 0x050 then some x.eval
  else if off = 0x058 then some x.escratch
  else if off = 0x070 then some 0
  else if 0x100 ≤ off ∧ off < 0x140 then some (tget 0 k.eng.tcfg ((off - 0x100) / 8))
  else if off = 0x140 then some x.tstart
  else if off = 0x148 then some (n64 (tileStat k))
  else if off = 0x200 then some k.eng.mcfg
  else if off = 0x208 then some (n64 (accStat k))
  else if off = 0x300 then some k.eng.vctl
  else if off = 0x308 then some k.eng.vnf
  else if off = 0x310 then some k.eng.fact
  else if off < 0x400 ∧ (regRow a).isSome then some (s.reg a)
  else none

/-- Is the register an RC counter of the CORE block (R13, R82, R92, R140, R194). -/
def coreRc (off : Nat) : Bool :=
  [0x0A0, 0x0A8, 0x0B0, 0x0B8, 0x150, 0x158, 0x160, 0x210, 0x218, 0x220, 0x228, 0x230, 0x238, 0x240, 0x320, 0x328].contains off

/-- Read a register of a core with the effect of the read (R13). -/
def coreRegRead (c i off : Nat) (s : State) : Option (Word × State) :=
  match coreRegVal s c i off with
  | none => none
  | some v => some (v, if coreRc off then s.setReg (rCORE_ID c + off) 0 else s)

/-- Legal format and row bytes of a TCFG (R87, R93); the reserved bits are 0. -/
def tcfgLegal (v : Word) : Bool :=
  let f := fget v TCFG_FMT
  let r := (fget v TCFG_RBYTES + 1) * 16
  let res := bits v.toNat 61 48 == 0 && bits v.toNat 27 12 == 0 && bits v.toNat 7 6 == 0
  res && (if f = 0 then decide (r % 32 = 0)
    else if f = 5 ∨ f = 6 then decide (r % 48 = 0)
    else decide (f ≤ 8))

/-- Step 2 of a TCFG barrier (R94): the value, CONF, NF cleared, the tile EMPTY. -/
def tcfgSet (c t : Nat) (v : Word) (s : State) : State :=
  s.modCore c fun k =>
    { k with eng := { k.eng with
        tcfg := tset t (fsetB (fsetB v TCFG_NF false) TCFG_CONF true) k.eng.tcfg
        full := tset t false k.eng.full } }

/-- Has every earlier tile-touching instruction completed (R94 step 1). -/
def tilesDone (k : Core) : Bool := !((List.range 8).any (tileBusy k)) && k.arr.isEmpty && k.trel.isEmpty

/-- A memory-mapped TCFG write is a tile barrier too: at once, or behind what is in flight (R94). -/
def tcfgMapped (c t : Nat) (v : Word) (s : State) : State :=
  let k := s.core c
  if k.tbar.isSome then s.setCore c { k with tbarq := k.tbarq ++ [(t, v)] }
  else if tilesDone k then tcfgSet c t v s
  else s.setCore c { k with tbar := some (t, v, none) }

/-- A memory-mapped MCFG write is an array barrier too (R137). -/
def mcfgMapped (c : Nat) (v : Word) (s : State) : State :=
  let k := s.core c
  if k.mbar.isSome then s.setCore c { k with mbarq := k.mbarq ++ [v] }
  else if k.arr.isEmpty then s.setCore c { k with eng := { k.eng with mcfg := v } }
  else s.setCore c { k with mbar := some (v, none) }

/-- IPEND.CYC is set while CYCLE is at or past a non-zero CYCLE_CMP (R81). -/
def cycSet (c : Nat) (s : State) : State :=
  let m := (s.reg (rCYCLE_CMP c)).toNat
  if m ≠ 0 ∧ m ≤ s.cycle c then s.ipend c 6 else s

/-- Writable fields of VCTL (R176, R194) and the formats it may name. -/
def vctlLegal (v : Word) : Bool :=
  let f := fget v VCTL_FMT
  let m := fget v VCTL_MXFMT
  bits v.toNat 63 48 == 0 && bits v.toNat 23 0 == 0 && (decide (f ≤ 8) || decide (f = 15)) &&
    (decide (m = 5) || decide (m = 6) || decide (m = 7))

/-- Write one context's state field: EMPTY or READY, for a context that is not RUNNING (R64).  DESIGN CHOICE (log 66): READY is
taken for a HALTED context too, as R64 has it, where R63 names only CTXLOAD. -/
def ctxStateSet (c i v : Nat) (s : State) : State :=
  s.modCtx c i fun x =>
    if x.st = .running then x
    else if v = 0 then { x with st := .empty, wait := .none }
    else if v = 1 then { x with st := .ready, wait := .none }
    else x

/-- A write of CTX_STATE (R64). -/
def ctxStateWrite (c : Nat) (v : Word) (s : State) : State :=
  ctxStateSet c 3 (fget v CTX_STATE_CTX3) (ctxStateSet c 2 (fget v CTX_STATE_CTX2)
    (ctxStateSet c 1 (fget v CTX_STATE_CTX1) (ctxStateSet c 0 (fget v CTX_STATE_CTX0) s)))

/-- Release of a held core: context 0 RUNNING at M at BOOT_VEC (R83). -/
def coreRelease (c : Nat) (s : State) : State :=
  (s.modCtx c 0 fun x => { x with st := .running, mstatus := fset x.mstatus MSTATUS_PRIV 1, pc := s.reg (rBOOT_VEC c), wait := .none }).modCore c
    fun k => { k with run := 0, sw := none }

/-- Does the core lie in a column of its enabled partition (R358). -/
def inPart (s : State) (c : Nat) : Bool := s.owns (s.part c) c

/-- A write of CORE_CTL.RUN (R83): 1 releases context 0 of a held core and makes a HELD partition ACTIVE (R365), 0 holds
the core.  DESIGN CHOICE (log 66): the context that was running becomes READY and what it waited for is dropped. -/
def coreRunWrite (c : Nat) (v : Word) (s : State) : State :=
  let was := s.flag (rCORE_CTL c) CORE_CTL_RUN
  let now := fbit v CORE_CTL_RUN
  let s := s.setFlag (rCORE_CTL c) CORE_CTL_RUN now
  let st := rPT_STAT (s.part c)
  let s := if now && s.fld st PT_STAT_STATE == 3 then s.setFld st PT_STAT_STATE 1 else s
  if now && !was then coreRelease c s
  else if !now && was then s.modCur c fun x => if x.st = .running then { x with st := .ready, wait := .none } else x
  else s

/-- Clearing ENG_ERR.VALID restarts the stopped engine (R139).  DESIGN CHOICE (log 66): an ENGINE exception not yet taken is
dropped with it. -/
def engErrClear (c : Nat) (s : State) : State :=
  (s.setFlag (rENG_ERR c) ENG_ERR_VALID false).modCore c fun k => { k with errPend := none }

/-- A write of ISOFT (R78, R82). -/
def isoftWrite (c : Nat) (v : Word) (s : State) : State := if bit v.toNat 0 then s.ipend c 7 else s

/-- A write by access type of a register of R82 that has no rule of its own; `i` names the bank.  none: the write is
refused (R11).  TCFG, MCFG and VCTL are written here as a memory-mapped write does it on a held core (R96, R137, R176). -/
def coreRegWrite (c i off : Nat) (v : Word) (s : State) : Option State :=
  let a := rCORE_ID c + off
  let mask := fun (m : Nat) => (s.reg a &&& ~~~ (n64 m)) ||| (v &&& n64 m)
  let run := s.flag (rCORE_CTL c) CORE_CTL_RUN
  match coreRegVal s c i off with
  | none => none
  | some _ =>
    if off = 0x018 then (if modeRefused s c v then none else some (modeWrite c v s))
    else if off = 0x020 then some (ctxStateWrite c v s)
    else if off = 0x030 then some (s.modCtx c i fun x => { x with mstatus := (x.mstatus &&& 1) ||| (v &&& 0x1E) })
    else if off = 0x040 then some (s.modCtx c i fun x => { x with epc := v })
    else if off = 0x048 then some (s.modCtx c i fun x => { x with ecause := v &&& 0x80000000000000FF })
    else if off = 0x050 then some (s.modCtx c i fun x => { x with eval := v })
    else if off = 0x058 then some (s.modCtx c i fun x => { x with escratch := v })
    else if off = 0x060 then some (cycSet c (s.setReg a (s.reg a &&& ~~~ (v &&& 0xFF))))
    else if off = 0x070 then some (isoftWrite c v s)
    else if off = 0x098 then some (if fbit v ENG_ERR_VALID then engErrClear c s else s)
    else if off = 0x0C0 then (if fbit v CORE_CTL_RUN && !inPart s c then none else some (coreRunWrite c v s))
    else if 0x100 ≤ off ∧ off < 0x140 then
      (if run || !tcfgLegal v then none else some (tcfgMapped c ((off - 0x100) / 8) v s))
    else if off = 0x140 then some (s.modCtx c i fun x => { x with tstart := v &&& 0x3F })
    else if off = 0x200 then
      (if run || decide (3 < v.toNat) then none else some (mcfgMapped c v s))
    else if off = 0x300 then
      (if run || !vctlLegal v then none
       else some (s.modCore c fun k => { k with eng := { k.eng with vctl := v } }))
    else match regRow a with
      | some r => some (s.setReg a (mask r.rw))
      | none => none

/-- Is the register engine state (R70). -/
def csrEngine (off : Nat) : Bool :=
  (decide (0x100 ≤ off) && decide (off < 0x140)) || off == 0x200 || off == 0x208 || off == 0x300 || off == 0x308 || off == 0x310

/-- May the register be read at T (R82, R92, R140, R194). -/
def csrT (off : Nat) : Bool :=
  [0x000, 0x008, 0x018, 0x030, 0x0A0, 0x0A8, 0x0B0, 0x0B8].contains off || (decide (0x100 ≤ off) && decide (off < 0x400))

/-- The value a CSR instruction writes (R62): kind 0 CSRRW, 1 CSRRS, 2 CSRRC.  DESIGN CHOICE (log 66): of a W1C field the value
is written with its W1C meaning, so CSRRS clears every pending bit it reads. -/
def csrNew (kind : Nat) (old ga : Word) : Word := if kind = 0 then ga else if kind = 1 then old ||| ga else old &&& ~~~ ga

end Sys2Proof.Machine
end

