-- ==== Sys2Proof/Machine/System.lean ====
section
/-! DEFINITION. The system and CSR instructions (R60-R62, R69-R72), the save areas, and the core events of R64-R70, R79-R83
and R139. -/

namespace Sys2Proof.Machine

/-- Answer of a register-space access: the error response leaves everything else unchanged (R11). -/
def State.answer (s : State) (r : Option State) : State :=
  match r with
  | some t => { t with rsp := .ok 0 }
  | none => { s with rsp := .err }

/-! The save area (R72, R113, R141, R195). -/

/-- Start of the save area of context `i`. -/
def saveBase (s : State) (c i : Nat) : Nat := (s.reg (rCTX_SAVE c i)).toNat

/-- Bytes of 64-bit words. -/
def wordsBytes (ws : List Nat) : List Byte := ws.flatMap fun w => leBytes 8 w

/-- A tile's slot: rows below ROWS with their row bytes, all else 0 (R113). -/
def tileSlot (e : Eng) (t : Nat) : List Byte :=
  let cf := tget 0 e.tcfg t
  let rows := fget cf TCFG_ROWS + 1
  let rb := (fget cf TCFG_RBYTES + 1) * 16
  (List.range 64).flatMap fun r =>
    if r < rows then leBytes 256 ((tget 0 e.rows (t * 64 + r)).toNat % 2 ^ (8 * rb)) else leBytes 256 0

/-- Engine parts of a save without tiles: (offset, bytes). -/
def engParts (k : Core) : List (Nat × List Byte) :=
  let e := k.eng
  [(0x40, wordsBytes ((List.range 8).map fun t => (tget 0 e.tcfg t).toNat)),
   (0x80, wordsBytes ((List.range 8).map fun t => (tget 0 e.p t).toNat)),
   (0xC0, wordsBytes [e.mcfg.toNat, accStat k, e.vctl.toNat, e.vnf.toNat, e.fact.toNat, 0, 0, 0]),
   (0x400, (List.range 32).flatMap fun i => leBytes 256 (tget 0 e.v i).toNat),
   (0x2400, (List.range 128).flatMap fun i => leBytes 512 (tget 0 e.acc i).toNat)]

/-- Tile parts of a save: the slots of FULL tiles (R72). -/
def tileParts (k : Core) : List (Nat × List Byte) :=
  ((List.range 8).filter fun t => tget false k.eng.full t).map fun t => (0x12400 + t * 0x4000, tileSlot k.eng t)

/-- Mask of FULL tiles. -/
def fullMask (k : Core) : Nat := (List.range 8).foldl (fun a t => a ||| (if tget false k.eng.full t then 2 ^ t else 0)) 0

/-- Scalar parts of a save of bank `x` (R72); the g0 slot is 0. -/
def scalarParts (x : Ctx) : List (Nat × List Byte) :=
  [(0x100, wordsBytes ((List.range 32).map fun r => (x.gr r).toNat)),
   (0x200, wordsBytes [x.pc.toNat, x.mstatus.toNat, x.epc.toNat, x.ecause.toNat, x.eval.toNat, x.escratch.toNat, x.tstart.toNat, 0])]

/-- Outcome of an access that software's instruction makes to memory: not yet possible, an exception, or done. -/
inductive Tried where
  | wait (s : State)
  | fault (e : Exc) (va : Nat)
  | done (s : State)
  deriving DecidableEq, Repr

/-- First exception among parts of a save area. -/
def partsFault (s : State) (c base : Nat) (k : AccK) : List (Nat × List Byte) → Option (Exc × Nat)
  | [] => none
  | (o, bs) :: r => match accFault s (s.part c) true k (base + o) bs.length with
    | some f => some f
    | none => partsFault s c base k r

/-- Write parts of a save area, or wait for the homes, or fault. -/
def writeParts (c base : Nat) (ps : List (Nat × List Byte)) (s : State) : Tried :=
  match partsFault s c base .store ps with
  | some (e, va) => .fault e va
  | none =>
    if ps.all fun p => coreGate s c true true (base + p.1) p.2.length then
      .done (each (fun p s => coreWrite c 0 0xF true false 0 (base + p.1) p.2 s) ps s)
    else .wait (each (fun p s => corePrep c 0 0xF true (base + p.1) p.2.length s) ps s)

/-- The header word of a save area after an update (R72): SEQ counts saves. -/
def headerWord (old : Nat) (eng valid : Bool) (mask : Nat) : Nat :=
  ((bits old 63 32) <<< 32) ||| (((bits old 31 16 + 1) % 65536) <<< 16) ||| (b2n eng <<< 9) ||| (b2n valid <<< 8) ||| mask % 256

/-- Read the header word at `base`, or fault, or wait. -/
def readHeader (c base : Nat) (s : State) : Except Tried (Nat × State) :=
  match accFault s (s.part c) true .load base 8 with
  | some (e, va) => .error (.fault e va)
  | none =>
    if coreGate s c true false base 8 then
      match coreRead c 0 true base 8 s with
      | (bs, none, s) => .ok (leNat bs, s)
      | (_, some va, _) => .error (.fault .dataErr va)
    else .error (.wait (corePrep c 0 0xF false base 8 s))

/-- Save the engine state of its owner into the owner's area (R70 step 2). -/
def saveEngine (c : Nat) (s : State) : Tried :=
  let k := s.core c
  let base := saveBase s c k.owner
  match readHeader c base s with
  | .error t => t
  | .ok (h, s) =>
    writeParts c base ((0, leBytes 8 (headerWord h true (bit h 8) (fullMask k))) :: engParts k ++ tileParts k) s

/-- A value of `n` bytes at an offset of bytes that were read. -/
def atOff (bs : List Byte) (o n : Nat) : Nat := leNat ((bs.drop o).take n)

/-- The engine state held by the bytes of a save area (R72, R113, R141, R195); reserved bits of the registers stay 0 (R12). -/
def engFrom (bs : List Byte) (mask : Nat) : Eng :=
  let tc := (List.range 8).map fun t => (t, n64 (atOff bs (0x40 + 8 * t) 8) &&& 0xC000FFFFF0000F3F)
  let full := fun t => bit mask t && fbit (tget 0 tc t) TCFG_CONF
  let stat := atOff bs 0xC8 8
  { v := (List.range 32).map fun i => (i, BitVec.ofNat 2048 (atOff bs (0x400 + 256 * i) 256))
    p := (List.range 8).map fun i => (i, n64 (atOff bs (0x80 + 8 * i) 8))
    tcfg := tc
    full := (List.range 8).map fun t => (t, full t)
    rows := ((List.range 8).filter full).flatMap fun t =>
      (List.range 64).map fun r => (t * 64 + r, BitVec.ofNat 2048 (atOff bs (0x12400 + t * 0x4000 + r * 256) 256))
    acc := (List.range 128).map fun i => (i, BitVec.ofNat 4096 (atOff bs (0x2400 + 512 * i) 512))
    accNf := [(0, bit stat 2), (1, bit stat 6)]
    accErr := [(0, bit stat 3), (1, bit stat 7)]
    mcfg := n64 (atOff bs 0xC0 8) &&& 3
    vctl := n64 (atOff bs 0xD0 8) &&& 0x0000FFFFFF000000
    vnf := n64 (atOff bs 0xD8 8) &&& 0xFFFFFFFF
    fact := n64 (atOff bs 0xE0 8) &&& 0xFF3F }

/-- Read a stretch of a save area for a load. -/
def readArea (c base n : Nat) (s : State) : Except Tried (List Byte × State) :=
  match accFault s (s.part c) true .load base n with
  | some (e, va) => .error (.fault e va)
  | none =>
    if coreGate s c true false base n then
      match coreRead c 0 true base n s with
      | (bs, none, s) => .ok (bs, s)
      | (_, some va, _) => .error (.fault .dataErr va)
    else .error (.wait (corePrep c 0 0xF false base n s))

/-- Load the engine state of context `i`: from its area when the header holds engine state, else cleared (R70 step 3).  DESIGN
CHOICE (log 66): R70's valid header is one whose ENG bit is set. -/
def loadEngine (c i : Nat) (s : State) : Tried :=
  let base := saveBase s c i
  match readHeader c base s with
  | .error t => t
  | .ok (h, s) =>
    if bit h 9 then
      match readArea c base 0x32400 s with
      | .error t => t
      | .ok (bs, s) => .done (s.modCore c fun k => { k with eng := engFrom bs h, owner := i })
    else .done (s.modCore c fun k => { k with eng := Eng.clear, owner := i })

/-- Has every issued engine instruction completed (R70 step 1, R141). -/
def engIdle (k : Core) : Bool :=
  k.arr.isEmpty && k.tbar.isNone && k.tbarq.isEmpty && k.trel.isEmpty && k.mbar.isNone && k.mbarq.isEmpty && k.merges.isEmpty &&
    !(k.stores.any fun x => decide (x.2.2 ≠ 0)) &&
    !(k.ctxs.any fun x => match x.2.wait with | .tload _ _ _ _ => true | .tstore _ _ _ _ => true | _ => false)

/-- The engine-state move (R70 steps 1-4) to context `i`. -/
def moveEngine (c i : Nat) (s : State) : Tried :=
  if !engIdle (s.core c) then .wait s
  else if (s.core c).owner = i then .done s
  else match saveEngine c s with
    | .done s => loadEngine c i s
    | .wait s => .wait s
    | .fault e a => .fault e a

/-- Finish an instruction's memory work: wait leaves the instruction unissued. -/
def tried (c : Nat) (s0 : State) (t : Tried) (k : State → State) : State :=
  match t with
  | .wait s => s
  | .fault e va => trapAcc c e va va s0
  | .done s => k s

/-! System instructions (R61). -/

/-- Encoding of a system instruction that reads no register: GD, GA and GB are 0 (R61). -/
def sysLegal (gd ga gb : Nat) : Bool := decide (gd = 0) && decide (ga = 0) && decide (gb = 0)

/-- ECALL (R61). -/
def opEcall (c gd ga gb : Nat) (s : State) : State :=
  issue4 c (encS 0x1A gd ga gb 0) [] (sysLegal gd ga gb) false (trap c .ecall 0) s

/-- BREAK (R61). -/
def opBreak (c gd ga gb : Nat) (s : State) : State :=
  issue4 c (encS 0x1A gd ga gb 1) [] (sysLegal gd ga gb) false (trap c .brk 0) s

/-- MRET (R61). -/
def opMret (c gd ga gb : Nat) (s : State) : State :=
  issue4 c (encS 0x1A gd ga gb 2) [] (sysLegal gd ga gb) true (leaveExc c) s

/-- Do IPEND and IENABLE share a set bit (R61, R79). -/
def intReady (s : State) (c : Nat) : Bool := (s.reg (rIPEND c) &&& s.reg (rIENABLE c)) &&& 0xFF != 0

/-- WFI waits, and completes when it issues with a shared bit (R61, R67). -/
def opWfi (c gd ga gb : Nat) (s : State) : State :=
  issue c 4 (encS 0x1A gd ga gb 3) [] (sysLegal gd ga gb) false (fun w => match w with | .wfi _ => true | _ => false)
    (fun s =>
      if intReady s c then s.retire c 4
      else s.modCur c fun x => match x.wait with
        | .wfi _ => x
        | _ => { x with wait := .wfi (s.cycle c) }) s

/-- May the running context take an interrupt (R79). -/
def intOpen (s : State) (c : Nat) : Bool :=
  intReady s c && (!(s.cur c).isM || fbit (s.cur c).mstatus MSTATUS_IE)

/-- FENCE: nothing retires past it until earlier accesses have completed; it takes ENGINE (R61, R75). -/
def fenceBody (c : Nat) (k : State → State) (s : State) : State :=
  engGuard c anyDest (fun s => if storesOut s c then s else k s) s

/-- FENCE (R61). -/
def opFence (c gd ga gb : Nat) (s : State) : State :=
  issue4 c (encS 0x1A gd ga gb 4) [] (sysLegal gd ga gb) false (fenceBody c fun s => s.retire c 4) s

/-- FENCE.I (R61). -/
def opFenceI (c gd ga gb : Nat) (s : State) : State :=
  issue4 c (encS 0x1A gd ga gb 5) [] (sysLegal gd ga gb) false
    (fenceBody c fun s => (s.modCore c fun k => { k with icache := [] }).retire c 4) s

/-- Context number named by GA (R61). -/
def ctxArg (s : State) (c ga : Nat) : Nat := (s.g c ga).toNat % 4

/-- TSWITCH (R69). -/
def opTswitch (c gd ga gb : Nat) (s : State) : State :=
  issue4 c (encS 0x1A gd ga gb 6) [ga] true true
    (fun s =>
      let i := ctxArg s c ga
      let k := s.core c
      let st := (k.ctx i).st
      if i = k.run then s.retire c 4
      else if st = .empty ∨ st = .halted then trap c .illegal (n64 i) s
      else
        let s := s.retire c 4
        let s := s.modCtx c k.run fun x => { x with st := .ready }
        let s := if s.maint c then s else s.setFld (rCORE_MODE c) CORE_MODE_FG_CTX i
        switchIn c i s) s

/-- CTXSAVE: the caller is saved with its PC after the instruction (R71, log 28). -/
def opCtxsave (c gd ga gb : Nat) (s : State) : State :=
  issue4 c (encS 0x1A gd ga gb 7) [ga] true true
    (engGuard c anyDest fun s =>
      let i := ctxArg s c ga
      let k := s.core c
      let x := k.ctx i
      let x := if i = k.run then { x with pc := x.pc + 4 } else x
      let base := saveBase s c i
      if k.owner == i && !engIdle k then s
      else tried c s
        (match readHeader c base s with
          | .error t => t
          | .ok (h, s) =>
            let eng := decide (k.owner = i)
            let hd := headerWord h (eng || bit h 9) true (if eng then fullMask k else bits h 7 0)
            writeParts c base ((0, leBytes 8 hd) :: scalarParts x ++ (if eng then engParts k ++ tileParts k else [])) s)
        fun s => s.retire c 4) s

/-- Scalar bank held by a save area (R72). -/
def bankFrom (bs : List Byte) : Ctx :=
  { g := (List.range 31).map fun r => (r + 1, n64 (atOff bs (0x108 + 8 * r) 8))
    pc := n64 (atOff bs 0x200 8)
    mstatus := n64 (atOff bs 0x208 8) &&& 0x1F
    epc := n64 (atOff bs 0x210 8)
    ecause := n64 (atOff bs 0x218 8) &&& 0x80000000000000FF
    eval := n64 (atOff bs 0x220 8)
    escratch := n64 (atOff bs 0x228 8)
    tstart := n64 (atOff bs 0x230 8) &&& 0x3F
    st := .ready
    wait := .none }

/-- CTXLOAD (R71).  DESIGN CHOICE (log 66): with the ENG bit set the owner's state is saved under R70 even when the owner is the
context loaded. -/
def opCtxload (c gd ga gb : Nat) (s : State) : State :=
  issue4 c (encS 0x1A gd ga gb 8) [ga] true true
    (fun s =>
      let i := ctxArg s c ga
      let base := saveBase s c i
      if i = (s.core c).run then trap c .illegal (n64 i) s
      else tried c s
        (match readArea c base 0x240 s with
          | .error t => t
          | .ok (bs, s) =>
            let bank := bankFrom bs
            let t := if bit (atOff bs 0 8) 9 then
                (if !engIdle (s.core c) then .wait s
                 else match saveEngine c s with
                   | .done s => loadEngine c i s
                   | .wait s => .wait s
                   | .fault e a => .fault e a)
              else .done s
            match t with
            | .done s => .done (s.modCtx c i fun _ => bank)
            | .wait s => .wait s
            | .fault e a => .fault e a)
        fun s => s.retire c 4) s

/-! CSR instructions (R62). -/

/-- A TCFG write by CSR or TCONF waits as a tile barrier; GD of a CSR write is written at step 2 (R94). -/
def tcfgBarrier (c t : Nat) (v : Word) (back : Option CsrBack) (s : State) : State :=
  s.modCore c fun k =>
    { k with
      tbar := some (t, v, back)
      gpend := match back with | some b => if b.gd = 0 then k.gpend else (b.ctx, b.gd) :: k.gpend | none => k.gpend }

/-- An MCFG write waits as an array barrier (R137). -/
def mcfgBarrier (c : Nat) (v : Word) (back : Option CsrBack) (s : State) : State :=
  s.modCore c fun k =>
    { k with
      mbar := some (v, back)
      gpend := match back with | some b => if b.gd = 0 then k.gpend else (b.ctx, b.gd) :: k.gpend | none => k.gpend }

/-- The effect of a CSR instruction that passed its checks. -/
def csrDo (kind c gd ga off w : Nat) (write : Bool) (s : State) : State :=
  let k := s.core c
  let i := k.run
  match coreRegVal s c i off with
  | none => trap c .illegal (n64 w) s
  | some old =>
    let new := csrNew kind old (s.g c ga)
    let back := some { kind := kind, gd := gd, ga := s.g c ga, ctx := i : CsrBack }
    if write && decide (0x100 ≤ off) && decide (off < 0x140) then
      (if k.tbar.isSome then s
       else if !tcfgLegal new then trap c .illegal (n64 w) s
       else (tcfgBarrier c ((off - 0x100) / 8) new back s).retire c 4)
    else if write && off == 0x200 then
      (if k.mbar.isSome then s
       else if decide (3 < new.toNat) then trap c .illegal (n64 w) s
       else (mcfgBarrier c new back s).retire c 4)
    else if write && off == 0x300 then
      (if !vctlLegal new then trap c .illegal (n64 w) s
       else (s.modCore c fun k => { k with eng := { k.eng with vctl := new } }).retireG c gd old 4)
    else
      match coreRegRead c i off s with
      | none => trap c .illegal (n64 w) s
      | some (_, s') =>
        if !write then s'.retireG c gd old 4
        else if off = 0x018 ∧ modeRefused s c new then trap c .illegal (n64 w) s
        else
          -- the write takes effect at the boundary after this instruction (R66)
          match coreRegWrite c i off new (s'.retireG c gd old 4) with
          | some t => t
          | none => trap c .illegal (n64 w) s

/-- A CSR instruction (R60, R62). -/
def csrOp (kind opc c gd ga imm : Nat) (i : Instr) (s : State) : State :=
  let off := bits imm 10 0 * 8
  let write := decide (kind = 0) || decide (ga ≠ 0)
  let w := encI opc gd ga imm
  issue4 c w [gd, ga] (decide (bits imm 14 11 = 0) && (coreRegVal s c 0 off).isSome) (write || !csrT off)
    (fun s => if csrEngine off then owned c i (csrDo kind c gd ga off w write) s else csrDo kind c gd ga off w write s) s

/-! Core events. -/

/-- CONTEXT_SWITCH_DONE (R68). -/
def contextSwitchDone (c : Nat) (s : State) : State := s.modCore c fun k => { k with sw := none }

/-- CYCLE_CMP_MATCH (R81). -/
def cycleCmpMatch (c : Nat) (s : State) : State := cycSet c s

end Sys2Proof.Machine
end

