-- ==== Sys2Proof/Machine/Tiles.lean ====
section
/-! DEFINITION. The tile instructions and the tile events (R85-R111). -/

namespace Sys2Proof.Machine

/-- A row of unspecified content: the free value numbered `n` (log 10). -/
def freeRow (n : Nat) : Row := packEls 2048 32 (fun i => (Config.freeElem n i).toNat) 64

/-- TCFG of a tile. -/
def Core.tcf (k : Core) (t : Nat) : Word := tget 0 k.eng.tcfg t
/-- Is the tile configured. -/
def Core.conf (k : Core) (t : Nat) : Bool := fbit (k.tcf t) TCFG_CONF
/-- Is the tile FULL. -/
def Core.full (k : Core) (t : Nat) : Bool := tget false k.eng.full t
/-- Rows of a tile. -/
def Core.rowsOf (k : Core) (t : Nat) : Nat := fget (k.tcf t) TCFG_ROWS + 1
/-- Row bytes of a tile. -/
def Core.rbOf (k : Core) (t : Nat) : Nat := (fget (k.tcf t) TCFG_RBYTES + 1) * 16
/-- A row of a tile. -/
def Core.row (k : Core) (t r : Nat) : Row := tget 0 k.eng.rows (t * 64 + r)

/-- Change the engine state. -/
def State.modEng (s : State) (c : Nat) (f : Eng → Eng) : State := s.modCore c fun k => { k with eng := f k.eng }

/-- Write a row of a tile, which becomes FULL; a tile that was EMPTY has unspecified rows elsewhere (R91). -/
def tileRow (c t r : Nat) (v : Row) (s : State) : State :=
  let e := (s.core c).eng
  let rows := if tget false e.full t then e.rows
    else (List.range 64).foldl (fun m i => tset (t * 64 + i) (freeRow (s.free + i)) m) e.rows
  { s.modEng c fun e => { e with rows := tset (t * 64 + r) v rows, full := tset t true e.full } with free := s.free + 64 }

/-- OR into TCFG.NF (R108). -/
def tileNf (c t : Nat) (nf : Bool) (s : State) : State :=
  s.modEng c fun e => { e with tcfg := tset t (fsetB (tget 0 e.tcfg t) TCFG_NF (fbit (tget 0 e.tcfg t) TCFG_NF || nf)) e.tcfg }

/-- EVAL of a TILE_SHAPE fault: tile numbers in nibbles, F in unused ones (R100). -/
def shapeVal : List Nat → Nat → Nat
  | _, 0 => 0
  | [], n + 1 => 0xF + 16 * shapeVal [] n
  | t :: r, n + 1 => t % 16 + 16 * shapeVal r n

/-- TILE_SHAPE naming tiles or streams (R100, R124). -/
def shapeTrap (c : Nat) (ts : List Nat) (s : State) : State := trap c .tileShape (n64 (shapeVal ts 16)) s

/-- Is a writer of the tile still to complete (R90). -/
def writerBusy (k : Core) (t : Nat) : Bool :=
  (k.arr.any fun e => !e.isMma && e.uses t) ||
    k.ctxs.any fun x => match x.2.wait with | .tload i _ _ _ => i == t | _ => false

/-- Does a barrier or a pending TREL hold instructions that touch the tiles (R90, R94, R111). -/
def tileHeld (k : Core) (ts : List Nat) : Bool := k.tbar.isSome || ts.any fun t => k.trel.any fun m => bit m t

/-- Encodings of R97. -/
def encTM (opc tt ga gb rsv : Nat) : Nat := (tt <<< 29) ||| (ga <<< 24) ||| (gb <<< 19) ||| (rsv <<< 7) ||| opc
/-- Format TC. -/
def encTC (opc tt ga rsv : Nat) : Nat := (tt <<< 29) ||| (ga <<< 24) ||| (rsv <<< 7) ||| opc
/-- Format TZ. -/
def encTZ (opc tt rsv : Nat) : Nat := (tt <<< 29) ||| (rsv <<< 7) ||| opc
/-- Format TR. -/
def encTR (opc rsv mask : Nat) : Nat := (rsv <<< 15) ||| (mask <<< 7) ||| opc

/-- The exception of a row access of `n` bytes, with EVAL (R105). -/
def rowFault (s : State) (c : Nat) (k : AccK) (va n : Nat) : Option (Exc × Nat) :=
  if 2 ^ 48 ≤ va then some (k.page, va)
  else if va % 16 ≠ 0 then some (.misalign, va)
  else accFault s (s.part c) (s.cur c).isM k va n

/-- Address of row `r` (R103). -/
def rowVa (ga gb : Word) (r : Nat) : Nat := (ga + n64 r * gb).toNat

/-- Rows from `r` on, up to the first that fails its translation checks (R106). -/
def rowsUntil (s : State) (c : Nat) (k : AccK) (ga gb : Word) (rb : Nat) : Nat → Nat → List (Nat × Nat) × Option (Nat × Nat × Nat)
  | 0, _ => ([], none)
  | n + 1, r =>
    let va := rowVa ga gb r
    match rowFault s c k va rb with
    | some (e, ev) => ([], some (r, e.code, ev))
    | none => let (l, b) := rowsUntil s c k ga gb rb n (r + 1); ((r, va) :: l, b)

/-- Count the translations of the rows and of the row that failed its translation (R252, R254). -/
def touchRows (c : Nat) (ga gb : Word) (rb : Nat) (rows : List (Nat × Nat)) (bad : Option (Nat × Nat × Nat)) (s : State) : State :=
  let s := each (fun r s => touchTcN c (s.part c) r.2 rb s) rows s
  match bad with
  | some (r, code, ev) =>
    if code = Exc.misalign.code then s else touchTcN c (s.part c) (rowVa ga gb r) (ev + 1 - rowVa ga gb r) s
  | none => s

/-- A TLOAD ends: without a failure TSTART is 0 and the tile FULL; else the exception is taken with TSTART at the failing
row, whose rows and those above are unspecified (R106). -/
def tloadEnd (c t : Nat) (bad : Option (Nat × Nat × Nat)) (s : State) : State :=
  match bad with
  | none =>
    let s := if (s.core c).full t then s else tileRow c t 63 (freeRow s.free) s
    (s.modCur c fun x => { x with tstart := 0 }).retire c 4
  | some (k, code, ev) =>
    let e := (s.core c).eng
    let rows := (List.range (64 - k)).foldl (fun m i => tset (t * 64 + k + i) (freeRow (s.free + i)) m) e.rows
    let s := { s.modEng c fun e => { e with rows := if tget false e.full t then rows else e.rows } with free := s.free + 64 }
    let s := s.modCur c fun x => { x with tstart := n64 k }
    enterExc c (s.core c).run false code (n64 ev) s

/-- The pages of a TLOAD's rows with the frames that hold them: its rows use the translation of its issue (R255). -/
def rowPages (s : State) (c : Nat) (rows : List (Nat × Nat)) (rb : Nat) : List (Nat × Nat) :=
  (rows.flatMap fun r => [r.2 / 2 ^ 21, (r.2 + rb - 1) / 2 ^ 21]).eraseDups.filterMap fun vpn =>
    match walk s (s.part c) vpn with
    | .hit f => some (vpn, f)
    | _ => none

/-- Where a byte of a TLOAD's row lies: in the frame its issue found, or where no Ledger entry is needed. -/
def tloadPlace (s : State) (c : Nat) (pages : List (Nat × Nat)) (va : Nat) : Place :=
  if looksUp s (s.part c) va then
    match pages.find? fun x => x.1 == va / 2 ^ 21 with
    | some (_, f) => .mem (framePa f + va % 2 ^ 21)
    | none => .fail .loadPage
  else corePlace s c .load va

/-- TLOAD (R103, R105, R106). -/
def opTload (c tt ga gb rsv : Nat) (i : Instr) (s : State) : State :=
  issue4 c (encTM 0x20 tt ga gb rsv) [ga, gb] (decide (rsv = 0)) false
    (owned c i fun s =>
      let k := s.core c
      if tileHeld k [tt] || tileBusy k tt then s
      else if !k.conf tt then shapeTrap c [tt] s
      else
        let st := (s.cur c).tstart.toNat
        let n := k.rowsOf tt - st
        let (rows, bad) := rowsUntil s c .load (s.g c ga) (s.g c gb) (k.rbOf tt) n st
        let s := touchRows c (s.g c ga) (s.g c gb) (k.rbOf tt) rows bad s
        if rows.isEmpty then tloadEnd c tt bad s
        else s.modCur c fun x => { x with wait := .tload tt rows (rowPages s c rows (k.rbOf tt)) bad }) s

/-- A row of a TLOAD returns and is written (R103, R108).  DESIGN CHOICE (log 66): `nf`, the command's operand, is the NF flag that
the row carries, wherever it comes from; R108 names no source of a read's NF. -/
def tloadRow (c row : Nat) (nf : Bool) (s : State) : State :=
  match (s.cur c).wait with
  | .tload t rows pages bad =>
    match rows.find? fun r => r.1 == row with
    | none => s
    | some (_, va) =>
      let k := s.core c
      let rb := k.rbOf t
      let pl := tloadPlace s c pages
      if !coreGateAt pl s c true false va rb then corePrepAt pl c (fget (k.tcf t) TCFG_TAG) (fget (k.tcf t) TCFG_FMT) false va rb s
      else
        let (bs, err, s) := coreReadL pl c (fget (k.tcf t) TCFG_TAG) true va rb (vlines va rb) s
        let rest := rows.filter fun r => r.1 != row
        let (rest, bad, s) := match err with
          | some a => (rest.filter (fun (r : Nat × Nat) => decide (r.1 < row)), some (row, Exc.dataErr.code, a), s)
          | none => (rest, bad, (tileNf c t nf (tileRow c t row (BitVec.ofNat 2048 (leNat bs)) s)).count (rTILE_ROWS_IN c) 1)
        if rest.isEmpty then tloadEnd c t bad s else s.modCur c fun x => { x with wait := .tload t rest pages bad }
  | _ => s

/-- Cells of a row's part in one line, with that line. -/
def rowCells (bs : List Byte) (va vl : Nat) : Nat × List Byte :=
  let a := max va (vl * 128)
  let e := min (va + bs.length) ((vl + 1) * 128)
  (a, (bs.drop (a - va)).take (e - a))

/-- Post the writes of bytes at `va`; none when a transaction number is missing (R45). -/
def postBytes (c va tag fmt : Nat) (nf : Bool) (ctx tile : Nat) (bs : List Byte) : List Nat → State → Option State
  | [], s => some s
  | vl :: r, s =>
    let (a, part) := rowCells bs va vl
    match corePlace s c .store a with
    | .spad off => postBytes c va tag fmt nf ctx tile bs r (spadWrite c off part s)
    | .mem pa =>
      match postWrite c (pa / 128) (cellsFrom (pa % 128) part) tag fmt nf ctx tile s with
      | some s => postBytes c va tag fmt nf ctx tile bs r s
      | none => none
    | .fail _ => postBytes c va tag fmt nf ctx tile bs r s

/-- Post the writes of one row of a TSTORE (R104, R108). -/
def postRow (c t i r va : Nat) (s : State) : Option State :=
  let k := s.core c
  let bs := leBytes (k.rbOf t) (k.row t r).toNat
  postBytes c va (fget (k.tcf t) TCFG_TAG) (fget (k.tcf t) TCFG_FMT) (fbit (k.tcf t) TCFG_NF) i (t + 1) bs (vlines va bs.length) s

/-- A TSTORE ends: without a failure TSTART is 0; else the exception is taken with TSTART at the failing row (R106). -/
def tstoreEnd (c i : Nat) (bad : Option (Nat × Nat × Nat)) (s : State) : State :=
  match bad with
  | none => (s.modCtx c i fun x => { x with tstart := 0, pc := x.pc + 4, wait := .none }).count (rINSTRET c) 1
  | some (r, code, ev) => enterExc c i false code (n64 ev) (s.modCtx c i fun x => { x with tstart := n64 r })

/-- The rows of a TSTORE that are still to write, in ascending order: each issues when the one below is complete, so that no byte
above a failing row is written, and an interrupt that has become takeable is taken between them (R104, R106, R107). -/
def tstoreRows (c t i : Nat) (bad : Option (Nat × Nat × Nat)) : List (Nat × Nat) → State → State
  | [], s => tstoreEnd c i bad s
  | (r, va) :: rest, s =>
    let hold := fun (out : Bool) (s : State) => s.modCtx c i fun x => { x with wait := .tstore t ((r, va) :: rest) out bad }
    if intOpen s c && (s.core c).run == i then hold false s
    else match postRow c t i r va s with
      | none => hold false s
      | some s =>
        if (s.core c).stores.any fun x => x.2.2 == t + 1 then hold true s
        else tstoreRows c t i bad rest (s.count (rTILE_ROWS_OUT c) 1)

/-- A write of context `i` has completed: a TSTORE whose row is complete goes on (R106). -/
def tstoreNext (c i : Nat) (s : State) : State :=
  match ((s.core c).ctx i).wait with
  | .tstore t (_ :: rest) true bad =>
    if (s.core c).stores.any fun x => x.2.2 == t + 1 then s else tstoreRows c t i bad rest (s.count (rTILE_ROWS_OUT c) 1)
  | _ => s

/-- TSTORE (R104-R108): it issues, or goes on at a row boundary where it stopped. -/
def opTstore (c tt ga gb rsv : Nat) (i : Instr) (s : State) : State :=
  issue c 4 (encTM 0x21 tt ga gb rsv) [ga, gb] (decide (rsv = 0)) false
    (fun w => match w with | .tstore t _ false _ => t == tt | _ => false)
    (owned c i fun s =>
      let k := s.core c
      match (s.cur c).wait with
      | .tstore _ rows _ bad => tstoreRows c tt k.run bad rows s
      | _ =>
        if tileHeld k [tt] || writerBusy k tt then s
        else if !k.conf tt then shapeTrap c [tt] s
        else if !k.full tt then trap c .tileEmpty (n64 tt) s
        else engGuard c (fun d => d == (0, tt)) (fun s =>
          let st := (s.cur c).tstart.toNat
          let (rows, bad) := rowsUntil s c .store (s.g c ga) (s.g c gb) (k.rbOf tt) (k.rowsOf tt - st) st
          tstoreRows c tt k.run bad rows (touchRows c (s.g c ga) (s.g c gb) (k.rbOf tt) rows bad s)) s) s

/-- TZERO (R110). -/
def opTzero (c tt rsv : Nat) (i : Instr) (s : State) : State :=
  issue4 c (encTZ 0x22 tt rsv) [] (decide (rsv = 0)) false
    (owned c i fun s =>
      let k := s.core c
      if tileHeld k [tt] || tileBusy k tt then s
      else if !k.conf tt then shapeTrap c [tt] s
      else
        (s.modEng c fun e =>
          { e with
            rows := (List.range 64).foldl (fun m r => tset (tt * 64 + r) 0 m) e.rows
            full := tset tt true e.full
            tcfg := tset tt (fsetB (tget 0 e.tcfg tt) TCFG_NF false) e.tcfg }).retire c 4) s

/-- TREL waits for the users of the masked tiles (R111). -/
def opTrel (c mask rsv : Nat) (i : Instr) (s : State) : State :=
  issue4 c (encTR 0x23 rsv mask) [] (decide (rsv = 0)) false
    (owned c i fun s =>
      if (s.core c).tbar.isSome then s
      else if mask = 0 then s.retire c 4
      else (s.modCore c fun k => { k with trel := k.trel ++ [mask] }).retire c 4) s

/-- TREL_APPLY: the oldest TREL whose tiles' users have completed (R111). -/
def trelApply (c : Nat) (s : State) : State :=
  let k := s.core c
  match k.trel with
  | [] => s
  | m :: r =>
    if (List.range 8).any fun t => bit m t && tileBusy k t then s
    else s.setCore c { k with
      trel := r
      eng := { k.eng with full := (List.range 8).foldl (fun f t => if bit m t then tset t false f else f) k.eng.full } }

/-- TCONF (R93, R94). -/
def opTconf (c tt ga rsv : Nat) (i : Instr) (s : State) : State :=
  let w := encTC 0x24 tt ga rsv
  issue4 c w [ga] (decide (rsv = 0)) false
    (owned c i fun s =>
      if (s.core c).tbar.isSome then s
      else if !tcfgLegal (s.g c ga) then trap c .illegal (n64 w) s
      else (tcfgBarrier c tt (s.g c ga) none s).retire c 4) s

/-- Give a CSR instruction that waited for a barrier its result (R94, R137). -/
def csrBackWrite (c : Nat) (b : CsrBack) (old : Word) (s : State) : State :=
  (s.modCtx c b.ctx fun x => x.setG b.gd old).modCore c fun k => { k with gpend := k.gpend.filter fun g => g != (b.ctx, b.gd) }

/-- TCFG_BARRIER_APPLY (R94); the next memory-mapped write that waited becomes the barrier. -/
def tcfgBarrierApply (c : Nat) (s : State) : State :=
  let k := s.core c
  match k.tbar with
  | none => s
  | some (t, v, back) =>
    if !tilesDone k then s
    else
      let old := k.tcf t
      let s := s.setCore c { k with tbar := k.tbarq.head?.map fun x => (x.1, x.2, none), tbarq := k.tbarq.tail }
      match back with
      | none => tcfgSet c t v s
      | some b => csrBackWrite c b old (tcfgSet c t (csrNew b.kind old b.ga) s)

end Sys2Proof.Machine
end

