-- ==== Sys2Proof/Machine/Flume.lean ====
section
/-! DEFINITION. The Flume (R269-R292): block lists, units, stream waits, deadlines and faults. -/

namespace Sys2Proof.Machine

/-- Flume context `n` of a core. -/
def Core.fl (k : Core) (n : Nat) : Flume := tget Flume.reset k.flumes n

/-- Replace it. -/
def State.setFl (s : State) (c n : Nat) (x : Flume) : State := s.modCore c fun k => { k with flumes := tset n x k.flumes }

/-- States of FL_STAT (R291). -/
abbrev flIDLE : Nat := 0
abbrev flARMED : Nat := 1
abbrev flENDED : Nat := 2
abbrev flFAULT : Nat := 3

/-- State of a context. -/
def flState (s : State) (c n : Nat) : Nat := s.fld (rFL_STAT c n) FL_STAT_STATE
/-- Mode of a context (R272). -/
def flMode (s : State) (c n : Nat) : Nat := s.fld (rFL_CFG c n) FL_CFG_MODE

/-- Index of a block's unit's blocks: does the unit hold block `i`. -/
def FlUnit.has (u : FlUnit) (i : Nat) : Bool := decide (u.first ≤ i) && decide (i < u.first + u.blocks.length)

/-- Place and length of an arrived block. -/
def Flume.block (x : Flume) (i : Nat) : Option (Nat × Nat) :=
  (x.units.find? fun u => u.has i).bind fun u => u.blocks[i - u.first]?

/-- Blocks arrived and not freed or consumed (R291). -/
def Flume.heldCount (x : Flume) : Nat :=
  x.nb - (match x.held with | h :: _ => h | [] => x.take)

/-- Keep FL_STAT.BLOCK and HELD up to date; in FAULT, BLOCK names the failing block (R290, R291). -/
def flSync (c n : Nat) (s : State) : State :=
  let x := (s.core c).fl n
  let b := match x.fail with | some (i, _, _) => if flState s c n = flFAULT then i else x.take | none => x.take
  (s.setFld (rFL_STAT c n) FL_STAT_BLOCK b).setFld (rFL_STAT c n) FL_STAT_HELD (min 255 x.heldCount)

/-- A Flume fault: the state FAULT at the failing block (R290). -/
def flFault (c n blk code pa : Nat) (s : State) : State :=
  let s := (s.setFld (rFL_STAT c n) FL_STAT_CODE code).setFld (rFL_STAT c n) FL_STAT_STATE flFAULT
  s.setFl c n { (s.core c).fl n with fail := some (blk, code, pa) }

/-- A miss record of 32 bytes goes to its ring (R288, R289); a failing write is the engine error REC. -/
def missRecord (c n i close arrive flags : Nat) (s : State) : State :=
  let r := rFL_REC c n
  if !s.flag r FL_REC_EN then s
  else
    let x := (s.core c).fl n
    let slot := s.fld (rFL_MISS c n) FL_MISS_RPTR
    let va := s.fld r FL_REC_BASE * 32 + slot * 32
    let bs := leBytes 8 close ++ leBytes 8 arrive ++ leBytes 4 i ++ leBytes 2 (n * 1024 + c) ++ leBytes 2 flags ++
      leBytes 8 (s.reg (rFL_ARM c n)).toNat
    match accFault s (s.part c) x.priv .store va 32 with
    | some (_, a) => engError c 3 9 0 x.task 5 0 ((touchTcN c (s.part c) va (a + 1 - va) s).setFld (rFL_STAT c n) FL_STAT_CODE 9)
    | none =>
      let s := s.setFld (rFL_MISS c n) FL_MISS_RPTR ((slot + 1) % (16 * 2 ^ s.fld r FL_REC_RSIZE))
      match postBytes c va 0 0xF false x.task 0 bs (vlines va 32) s with
      | some s => s
      | none => coreWrite c 0 0xF false false 0 va bs s

/-- Closing count of a block (R283). -/
def closeAt (s : State) (c n i : Nat) : Nat :=
  ((s.reg (rFL_ARM c n)).toNat + i * s.fld (rFL_DL c n) FL_DL_PERIOD + s.fld (rFL_DL c n) FL_DL_BUDGET) % 2 ^ 64

/-- Write the pending miss records of blocks that pass a test, with what they now show. -/
def flushMiss (c n : Nat) (p : Nat → Bool) (arrive : Nat) (flag : Nat) (s : State) : State :=
  let x := (s.core c).fl n
  let s := each (fun m s => if p m.1 then missRecord c n m.1 m.2.1 arrive (m.2.2 ||| flag) s else s) x.miss s
  s.setFl c n { (s.core c).fl n with miss := x.miss.filter fun m => !p m.1 }

/-- All ones. -/
abbrev never : Nat := 0xFFFFFFFFFFFFFFFF

/-- Does an MMA of the array queue name the context (R282). -/
def arrNames (k : Core) (n : Nat) : Bool :=
  k.arr.any fun e => e.isMma && (e.a == .stream n || e.b == .stream n)

/-- Every SWAIT that waits on the context ends with a STREAM fault of code IDLE (R279, R282, R290). -/
def swaitsEnd (c n : Nat) (s : State) : State :=
  upto (fun i s =>
    match ((s.core c).ctx i).wait with
    | .swait m _ _ => if m = n then enterExc c i false Exc.stream.code (n64 n) (s.setFld (rFL_STAT c n) FL_STAT_CODE 8) else s
    | _ => s) 4 s

/-- The effects of SSTOP (R282). -/
def flStop (c n : Nat) (s : State) : State :=
  let s := flushMiss c n (fun _ => true) never 4 s
  let s := s.setFld (rFL_STAT c n) FL_STAT_STATE flIDLE
  swaitsEnd c n (flSync c n (s.setFl c n Flume.reset))

/-- Do the halves of the double buffer lie in the core's usable scratchpad (R273, R279). -/
def halvesOk (s : State) (c n : Nat) : Bool :=
  let hb := s.fld (rFL_BUF c n) FL_BUF_HALF * 16
  let b := s.fld (rFL_BUF c n) FL_BUF_BASE * 16
  let p := s.part c
  decide (spadBase s p ≤ b) && decide (b + 2 * hb ≤ spadBase s p + spadSize s p)

/-- Encoding and operand checks of the Flume and Culvert instructions (R278). -/
def ctxOk (v : Word) (w : Nat) : Bool := decide (v.toNat < 2 ^ w)

/-- A Flume instruction: GB is 0 and the operand names a context (R278). -/
def flIns (fn c gd ga gb : Nat) (again : Wait → Bool) (body : Nat → State → State) (s : State) : State :=
  let w := encS 0x48 gd ga gb fn
  issue c 4 w [gd, ga] (decide (gb = 0)) false again
    (fun s => if ctxOk (s.g c ga) 6 then body (s.g c ga).toNat s else trap c .illegal (n64 w) s) s

/-- SARM (R279). -/
def opSarm (c gd ga gb : Nat) (s : State) : State :=
  flIns 0 c gd ga gb fresh0 (fun n s =>
    let cfg := s.reg (rFL_CFG c n)
    let st := flState s c n
    let per := s.fld (rFL_DL c n) FL_DL_PERIOD
    let bud := s.fld (rFL_DL c n) FL_DL_BUDGET
    if st = flARMED then s.retireG c gd 0 4
    else if fget cfg FL_CFG_MODE = 3 ∨ (fbit cfg FL_CFG_RT = true ∧ (per = 0 ∨ bud = 0 ∨ per < bud)) ∨
        (s.fld (rFL_BUF c n) FL_BUF_HALF ≠ 0 ∧ halvesOk s c n = false) then s.retireG c gd 2 4
    else if st ≠ flIDLE ∧ arrNames (s.core c) n = true then s
    else
      let s := if st = flIDLE then s else flStop c n s
      let s := (s.setReg (rFL_STAT c n) 0).setFld (rFL_MISS c n) FL_MISS_RPTR 0
      let s := s.setReg (rFL_ARM c n) (n64 (s.cycle c))
      let s := s.setFld (rFL_STAT c n) FL_STAT_STATE flARMED
      let s := s.setFl c n { Flume.reset with
        task := (s.core c).run, priv := (s.cur c).isM, entry := some (fget cfg FL_CFG_FIRST) }
      s.retireG c gd 1 4) s

/-- A STREAM fault of an instruction: CODE is recorded, EVAL is the context (R290). -/
def streamTrap (c n code : Nat) (s : State) : State :=
  trap c .stream (n64 n) (s.setFld (rFL_STAT c n) FL_STAT_CODE code)

/-- SWAIT (R280, R290): the stream wait, acquire-ordered (R45, R233). -/
def opSwait (c gd ga gb : Nat) (s : State) : State :=
  flIns 1 c gd ga gb (fun w => match w with | .swait _ _ _ => true | _ => false) (fun n s =>
    let x := (s.core c).fl n
    if flState s c n = flIDLE then streamTrap c n 8 s
    else if flMode s c n ≠ 0 then streamTrap c n 7 s
    else match x.block x.take with
      | some (va, _) =>
        let s := s.setFl c n { x with take := x.take + 1, held := x.held ++ [x.take] }
        acquire c ((flSync c n s).retireG c gd (n64 va) 4)
      | none =>
        if (match x.endAt with | some e => decide (e < x.take) | none => false) then acquire c (s.retireG c gd 0 4)
        else match x.fail with
          | some (_, code, _) => streamTrap c n code s
          | none =>
            if x.units.length = 2 then streamTrap c n 6 s
            else s.modCur c fun y => match y.wait with
              | .swait _ _ _ => y
              | _ => { y with wait := .swait n gd (s.cycle c) }) s

/-- Release units whose blocks have all been freed (R274). -/
def dropFreed (x : Flume) : Flume :=
  let low := match x.held with | h :: _ => h | [] => x.take
  { x with units := x.units.filter fun u => decide (low < u.first + u.blocks.length) }

/-- SFREE (R281). -/
def opSfree (c gd ga gb : Nat) (s : State) : State :=
  flIns 2 c gd ga gb fresh0 (fun n s =>
    let x := (s.core c).fl n
    if flState s c n = flIDLE then streamTrap c n 8 s
    else if flMode s c n ≠ 0 then streamTrap c n 7 s
    else match x.held with
      | [] => streamTrap c n 7 s
      | _ :: r => (flSync c n (s.setFl c n (dropFreed { x with held := r }))).retireG c gd 0 4) s

/-- SSTOP (R282). -/
def opSstop (c gd ga gb : Nat) (s : State) : State :=
  flIns 3 c gd ga gb fresh0 (fun n s =>
    if arrNames (s.core c) n then s
    else (if flState s c n = flIDLE then s else flStop c n s).retireG c gd 0 4) s

/-- SSTAT (R278). -/
def opSstat (c gd ga gb : Nat) (s : State) : State :=
  flIns 4 c gd ga gb fresh0 (fun n s => s.retireG c gd (s.reg (rFL_STAT c n)) 4) s

/-- A block-list entry (R270): address, length, END, WRAP; or a failure (R290 LIST). -/
structure ListEnt where
  addr : Nat
  len : Nat
  last : Bool
  wrap : Bool
  deriving DecidableEq, Repr

/-- Address of a list entry (R271). -/
def entVa (s : State) (c n j : Nat) : Nat := (s.fld (rFL_LIST c n) FL_LIST_ADDR * 16 + 16 * j) % 2 ^ 64

/-- Read a list entry, untagged (R271). -/
def readEnt (c n j : Nat) (priv : Bool) (s : State) : Option ListEnt × State :=
  let va := entVa s c n j
  match accFault s (s.part c) priv .load va 16 with
  | some (_, a) => (none, touchTcN c (s.part c) va (a + 1 - va) s)
  | none =>
    match coreRead c 0 false va 16 s with
    | (_, some _, s) => (none, s)
    | (bs, none, s) =>
      let w0 := atOff bs 0 8
      let w1 := atOff bs 8 8
      if bits w0 63 48 ≠ 0 ∨ bits w1 63 26 ≠ 0 ∨ (bit w1 24 = true ∧ bit w1 25 = true) then (none, s)
      else (some { addr := bits w0 47 0, len := bits w1 23 0, last := bit w1 24, wrap := bit w1 25 }, s)

/-- How a block is used (R273): in place, staged, or a fault code of R290. -/
inductive BlkKind where
  | inPlace
  | staged
  | bad (code : Nat)
  deriving DecidableEq, Repr

/-- The kind of a block (R270, R273). -/
def blkKind (s : State) (c n : Nat) (e : ListEnt) : BlkKind :=
  let p := s.part c
  let lo := spadBase s p
  if e.addr % 16 ≠ 0 ∨ e.len % 16 ≠ 0 ∨ e.len = 0 then .bad 3
  else if lo ≤ e.addr ∧ e.addr + e.len ≤ lo + 2 ^ 20 then
    (if e.addr + e.len ≤ lo + spadSize s p then .inPlace else .bad 1)
  else if e.addr < lo + 2 ^ 20 ∧ lo < e.addr + e.len then .bad 1
  else if s.fld (rFL_BUF c n) FL_BUF_HALF * 16 < e.len then .bad 4
  else .staged

/-- Gather the entries of a merged group after its first (R275): at most `k` more.  The answer is the group, the entry after it,
and whether that entry is one whose home is not open yet. -/
def gather (c n : Nat) (priv : Bool) : Nat → Nat → ListEnt → List ListEnt → State → List ListEnt × Nat × Bool × State
  | 0, j, _, acc, s => (acc, j, false, s)
  | k + 1, j, last, acc, s =>
    if last.last || last.wrap then (acc, j, false, s)
    else if (accFault s (s.part c) priv .load (entVa s c n j) 16).isNone && !coreGate s c false false (entVa s c n j) 16 then
      (acc, j, true, s)
    else
      match readEnt c n j priv s with
      | (none, _) => (acc, j, false, s)
      | (some e, s') =>
        let tot : Nat := acc.foldl (fun t x => t + x.len) 0 + e.len
        let first : Nat := match acc with | x :: _ => x.addr | [] => 0
        if blkKind s' c n e = .staged ∧ e.len < 512 ∧ e.addr = last.addr + last.len ∧ tot ≤ 4096 ∧
            tot ≤ s.fld (rFL_BUF c n) FL_BUF_HALF * 16 ∧ (e.addr + e.len - 1) / 2 ^ 21 = first / 2 ^ 21
        then gather c n priv k (if e.wrap then 0 else j + 1) e (acc ++ [e]) s'
        else (acc, j, false, s)

/-- The blocks of the unit that begins at a list entry, and the entry after it; none where the entry cannot be read (R274, R275). -/
def nextUnit (s : State) (c n : Nat) (priv : Bool) (j : Nat) : Option (List ListEnt × Nat) :=
  match readEnt c n j priv s with
  | (none, _) => none
  | (some e, s) =>
    let next := if e.wrap then 0 else j + 1
    if blkKind s c n e = .staged ∧ s.flag (rFL_CFG c n) FL_CFG_MERGE = true ∧ e.len < 512 then
      let (es, next, _, _) := gather c n priv 255 next e [e] s
      some (es, next)
    else some ([e], next)

/-- The first `k` units from a list entry: how many blocks they hold, and the entry after them; none past an END entry (R274). -/
def unitsFrom (s : State) (c n : Nat) (priv : Bool) : Nat → Nat → Nat × Option Nat
  | 0, j => (0, some j)
  | k + 1, j =>
    match nextUnit s c n priv j with
    | none => (1, none)
    | some (es, next) =>
      if es.any fun e => e.last then (es.length, none)
      else let (m, o) := unitsFrom s c n priv k next; (es.length + m, o)

/-- Blocks of the units in flight: fetched and not arrived, so that with the arrived ones at most two are outstanding (R274); and the
list entry after them. -/
def inFlight (s : State) (c n : Nat) : Nat × Option Nat :=
  let x := (s.core c).fl n
  match x.entry with
  | some j => if flState s c n = flARMED ∧ x.fail.isNone = true then unitsFrom s c n x.priv (2 - x.units.length) j else (0, some j)
  | none => (0, none)

/-- Places of blocks laid one after another from `va`. -/
def placeAll (va : Nat) : List ListEnt → List (Nat × Nat)
  | [] => []
  | e :: r => (va, e.len) :: placeAll (va + e.len) r

/-- The run-ahead prefetches of staged units (R277): from list entry `j`, whose block has index `b`, for at most `u` staged units
among the `k` next units; blocks before index `lo` have been prefetched already.  An entry that cannot be read is skipped, and the
list's END ends it.  The answer is the first block not reached. -/
def runAhead (c n : Nat) (priv : Bool) (lo : Nat) : Nat → Nat → Nat → Nat → State → Nat × State
  | 0, _, _, b, s => (b, s)
  | _ + 1, 0, _, b, s => (b, s)
  | k + 1, u + 1, j, b, s =>
    match nextUnit s c n priv j with
    | none => runAhead c n priv lo k (u + 1) (j + 1) (b + 1) s
    | some (es, next) =>
      let staged := es.all fun e => blkKind s c n e = .staged
      let s := if staged && decide (lo ≤ b) then
          each (fun (e : ListEnt) s => each (fun vl s => prefetch true c (s.core c).run vl s) (vlines e.addr e.len) s) es s else s
      if es.any fun e => e.last then (b + es.length, s)
      else runAhead c n priv lo k (if staged then u else u + 1) next (b + es.length) s

/-- Run ahead of the two outstanding units, as far as FL_CFG.RA staged units go; `k` bounds the units it looks at (R277, log 68). -/
def runAheadNow (c n : Nat) (s : State) : State :=
  let x := (s.core c).fl n
  match inFlight s c n with
  | (m, some j) =>
    if flState s c n ≠ flARMED then s
    else
      let (b, s) := runAhead c n x.priv x.ra 256 (s.fld (rFL_CFG c n) FL_CFG_RA) j (x.nb + m) s
      s.setFl c n { (s.core c).fl n with ra := max x.ra b }
  | _ => s

/-- A unit arrives: stamps, END, pending miss records (R274, R284, R286). -/
def unitArrives (c n : Nat) (es : List ListEnt) (next : Nat) (places : List (Nat × Nat)) (nf : Bool) (s : State) : State :=
  let x := (s.core c).fl n
  let now := s.cycle c
  let m := es.length
  let ended := es.any fun e => e.last
  let x' := { x with
    entry := if ended then none else some next
    nb := x.nb + m
    units := x.units ++ [{ first := x.nb, blocks := places, nf := nf, stamp := now }]
    endAt := if ended then some (x.nb + m - 1) else x.endAt
    stamps := (List.range m).foldl (fun t i => tset (x.nb + i) now t) x.stamps }
  let s := s.setFl c n x'
  let s := if ended then s.setFld (rFL_STAT c n) FL_STAT_STATE flENDED else s
  flSync c n (flushMiss c n (fun i => decide (i < x.nb + m)) now 0 s)

/-- A unit cannot be delivered: FAULT at its first block; its pending misses are recorded (R286, R290). -/
def unitFails (c n code pa : Nat) (s : State) : State :=
  let x := (s.core c).fl n
  flSync c n (flushMiss c n (fun _ => true) never 2 (flFault c n x.nb code pa s))

/-! The feeders' queues (R119, R274). -/

/-- Bytes of one K step of a stream operand of `n` elements (R125). -/
def stepBytes (fmt n : Nat) : Nat := cdiv (n * fmtWidth fmt) 128 * 16

/-- Bytes of each K-panel slot of the `k` steps from step `i` on (R119). -/
def slotsOf (p k : Nat) : Nat → Nat → List Nat
  | 0, _ => []
  | m + 1, i => if k ≤ i then [] else (min 8 (k - i) * p) :: slotsOf p k m (i + 8)

/-- Bytes of each slot that the queued MMAs still take from a context, in order (R125, R126). -/
def slotPlan (k : Core) (n : Nat) : List Nat :=
  k.arr.flatMap fun e =>
    if !e.isMma then []
    else if e.a == .stream n then slotsOf (stepBytes e.fmtA e.m) e.k (e.k / 8 + 1) e.kDone
    else if e.b == .stream n then slotsOf (stepBytes e.fmtB e.n) e.k (e.k / 8 + 1) e.kDone
    else []

/-- Bytes of the arrived units that have not entered the queues. -/
def Flume.avail (x : Flume) : Nat := (x.units.map fun u => (u.blocks.map fun b => b.2).sum).sum - x.pos

/-- `m` bytes of a unit from byte `pos` on: their scratchpad ranges. -/
def cutBlocks : List (Nat × Nat) → Nat → Nat → List (Nat × Nat)
  | [], _, _ => []
  | (va, len) :: r, pos, m =>
    if len ≤ pos then cutBlocks r (pos - len) m
    else
      let k := min (len - pos) m
      if k = 0 then [] else (va + pos, k) :: cutBlocks r 0 (m - k)

/-- The next `m` bytes of the arrived units, unit by unit: ranges and NF. -/
def cutUnits : List FlUnit → Nat → Nat → List (FlUnit × List (Nat × Nat))
  | [], _, _ => []
  | u :: r, pos, m =>
    if m = 0 then []
    else
      let cut := cutBlocks u.blocks pos m
      (u, cut) :: cutUnits r 0 (m - (cut.map fun b => b.2).sum)

/-- Units whose last byte has entered the queues are released; `p` bytes of the oldest have entered (R274). -/
def releaseUnits : List FlUnit → Nat → List FlUnit × Nat × Option Nat
  | [], p => ([], p, none)
  | u :: r, p =>
    let len := (u.blocks.map fun b => b.2).sum
    if len ≤ p then
      let (us, p', t) := releaseUnits r (p - len)
      (us, p', some (t.getD (u.first + u.blocks.length)))
    else (u :: r, p, none)

/-- One slot enters the queues when it is whole: its bytes are read from the scratchpad, and the units they end are released; an
uncorrectable word is a fault at its unit, whose pending misses are recorded (R119, R274, R286, R290). -/
def feedSlot (c n : Nat) (s : State) : State :=
  let k := s.core c
  let x := k.fl n
  match (slotPlan k n)[x.slots.length]? with
  | none => s
  | some m =>
    let off := fun (b : Nat × Nat) => b.1 - spadBase s (s.part c)
    let cut := cutUnits x.units x.pos m
    if 4 ≤ x.slots.length ∨ x.avail < m then s
    else if cut.any fun u => u.2.any fun b => spadTested s c (off b) b.2 then s
    else
      let bad := cut.find? fun u => u.2.any fun b => (spadBad s c (off b) b.2).isSome
      let seen := each (fun u s => each (fun b s => spadSeen c (off b) b.2 s) u.2 s) cut s
      match bad with
      | some (u, _) => flSync c n (flushMiss c n (fun _ => true) never 2 (flFault c n u.first 2 0 (seen.setFl c n { x with units := [] })))
      | none =>
        let bs := cut.flatMap fun u => u.2.flatMap fun b => spadBytes s c (off b) b.2
        let (us, p, t) := releaseUnits x.units (x.pos + m)
        flSync c n (seen.setFl c n { x with
          units := us, pos := p, take := t.getD x.take, slots := x.slots ++ [(bs, cut.any fun u => u.1.nf)] })

/-- The feeders take what slots they can hold (R119). -/
def feedFill (c n : Nat) (s : State) : State :=
  if flMode s c n = 1 ∨ flMode s c n = 2 then feedSlot c n (feedSlot c n (feedSlot c n (feedSlot c n s))) else s

/-- FLUME_UNIT_ARRIVAL: the next unit is fetched and arrives; `nf` is the OR of its packets' NF (R273-R277, R284). -/
def flumeUnitArrival (c n : Nat) (nf : Bool) (s : State) : State :=
  let x := (s.core c).fl n
  match x.entry with
  | none => s
  | some j =>
    if flState s c n ≠ flARMED ∨ 2 ≤ x.units.length ∨ x.fail.isSome = true then s
    else if (accFault s (s.part c) x.priv .load (entVa s c n j) 16).isNone && !coreGate s c false false (entVa s c n j) 16 then
      corePrep c 0 0xF false (entVa s c n j) 16 s
    else
      match readEnt c n j x.priv s with
      | (none, s) => unitFails c n 5 0 s
      | (some e, s1) =>
        let next := if e.wrap then 0 else j + 1
        match blkKind s1 c n e with
        | .bad code => unitFails c n code 0 s1
        | .inPlace => feedFill c n (runAheadNow c n (unitArrives c n [e] next [(e.addr, e.len)] false s1))
        | .staged =>
          let (es, next, wait, s1) := if s1.flag (rFL_CFG c n) FL_CFG_MERGE && decide (e.len < 512) then
              gather c n x.priv 255 next e [e] s1 else ([e], next, false, s1)
          let tot : Nat := es.foldl (fun t x => t + x.len) 0
          let tag := s.fld (rFL_CFG c n) FL_CFG_TAG
          if wait then corePrep c 0 0xF false (entVa s c n next) 16 s
          else match accFault s1 (s1.part c) x.priv .load e.addr tot with
          | some (_, a) => unitFails c n 1 0 (touchTcN c (s1.part c) e.addr (a + 1 - e.addr) s1)
          | none =>
            if !halvesOk s1 c n then unitFails c n 1 0 s1
            else if !coreGate s1 c false false e.addr tot then
              corePrep c tag (s.fld (rFL_CFG c n) FL_CFG_FMT) false e.addr tot s
            else
              let (bs, bad, s) := coreRead c tag false e.addr tot s1
              let s := (s.count (rFL_REQ c) 1).count (rFL_MERGE c) (b2n (decide (1 < es.length)))
              match bad with
              | some va =>
                let pa := match corePlace s c .load va with | .mem pa => pa | _ => 0
                unitFails c n 2 pa s
              | none =>
                let b := s.fld (rFL_BUF c n) FL_BUF_BASE * 16 + x.half * (s.fld (rFL_BUF c n) FL_BUF_HALF * 16)
                let s := spadWrite c (b - spadBase s (s.part c)) bs s
                let s := s.setFl c n { (s.core c).fl n with half := 1 - x.half }
                feedFill c n (runAheadNow c n (unitArrives c n es next (placeAll b es) nf s))

/-- Has CYCLE reached a closing count (R283, R285). -/
def reached (s : State) (c close : Nat) : Bool := decide ((s.cycle c + 2 ^ 64 - close) % 2 ^ 64 < 2 ^ 63)

/-- Does the list hold an END entry among the `k` entries from entry `j` on (R271). -/
def listEnds (s : State) (c n : Nat) (priv : Bool) : Nat → Nat → Bool
  | 0, _ => false
  | k + 1, j => match (readEnt c n j priv s).1 with
    | some e => e.last || listEnds s c n priv k (if e.wrap then 0 else j + 1)
    | none => false

/-- Does block `i` have a deadline: it comes after no END block, read by the Flume already or not (R285). -/
def hasDeadline (s : State) (c n i : Nat) : Bool :=
  let x := (s.core c).fl n
  s.flag (rFL_CFG c n) FL_CFG_RT && decide (flState s c n ≠ flIDLE) &&
    (match x.endAt, x.entry with
     | some e, _ => decide (i ≤ e)
     | none, some j => !listEnds s c n x.priv (i - x.nb) j
     | none, none => true)

/-- Is block `i` late: closed without a stamp below its closing count (R283, R285). -/
def blockLate (s : State) (c n i : Nat) : Bool :=
  let cl := closeAt s c n i
  hasDeadline s c n i && reached s c cl &&
    (match tget? i ((s.core c).fl n).stamps with
     | some t => decide ((t + 2 ^ 64 - cl) % 2 ^ 64 < 2 ^ 63)
     | none => true)

/-- DEADLINE_CHECK of the next block to close (R285-R287). -/
def deadlineCheck (c n : Nat) (s : State) : State :=
  let x := (s.core c).fl n
  let i := x.chk
  let cl := closeAt s c n i
  if !hasDeadline s c n i || !reached s c cl then s
  else
    let late := blockLate s c n i
    let stamp := tget? i x.stamps
    let s := s.setFl c n { x with chk := i + 1, stamps := tdel i x.stamps }
    if !late then s
    else
      let s := s.countSat (rFL_MISS c n) FL_MISS_COUNT 1
      if s.maint c then s
      else
        let s := if s.flag (rFL_CFG c n) FL_CFG_IEN then s.ipend c 1 else s
        let held := b2n (decide (flState s c n = flARMED) && decide (x.nb + (inFlight s c n).1 ≤ i))
        match stamp with
        | some t => missRecord c n i cl t held s
        | none =>
          if flState s c n = flFAULT then missRecord c n i cl never (held ||| 2) s
          else s.setFl c n { (s.core c).fl n with miss := x.miss ++ [(i, cl, held)] }

/-- The array takes the oldest slot of a context from the feeders' queues; none while it is not whole there (R119, R121). -/
def takeSlot (c n : Nat) (s : State) : Option (List Byte × Bool) × State :=
  let x := (s.core c).fl n
  match x.slots with
  | [] => (none, s)
  | a :: r => (some a, s.setFl c n { x with slots := r })

/-- Why a stream can give no more bytes: the array error code for operand A (R139), and the failing address. -/
def streamEnd (s : State) (c n : Nat) : Option (Nat × Nat) :=
  let x := (s.core c).fl n
  let need := (slotPlan (s.core c) n).headD 0
  if !x.slots.isEmpty || decide (need ≤ x.avail) then none
  else match x.fail with
    | some (_, code, pa) => if code = 2 then some (1, pa) else some (3, 0)
    | none => if x.entry.isNone then some (3, 0) else none

end Sys2Proof.Machine
end

