-- ==== Sys2Proof/Machine/Matrix.lean ====
section
/-! DEFINITION. The matrix array (R114-R141, R147-R151): MMA, MDRAIN and MCFG at issue, and the events of the array queue. -/

namespace Sys2Proof.Machine

/-- The fold factor of MCFG (R133). -/
def foldOf (e : Eng) : Nat := 2 ^ (e.mcfg.toNat % 4)

/-- Operand formats of the array (R114). -/
def arrFmt (f : Nat) : Bool := decide (1 ≤ f) && decide (f ≤ 8)

/-- Class of a format in the pairing table (R147): 0 8-bit, 1 6- or 4-bit, 2 16-bit, 3 INT8, 4 none. -/
def pairClass (f : Nat) : Nat :=
  if f = 3 ∨ f = 4 then 0 else if f = 5 ∨ f = 6 ∨ f = 7 then 1 else if f = 1 ∨ f = 2 then 2 else if f = 8 then 3 else 4

/-- Is a pair of operand formats legal (R147). -/
def pairOk (a b : Nat) : Bool :=
  let x := pairClass a
  let y := pairClass b
  decide (x ≠ 4) && decide (y ≠ 4) && (x == 3) == (y == 3)

/-- Is the operand an MX operand (R148). -/
def isMx (s : State) (p fmt tag : Nat) : Bool := fmtMx fmt && decide (effTag s p tag ≠ 0) && fbit (s.gw tag 0) gMX

/-- Elements per row of a tile. -/
def Core.elemsOf (k : Core) (t : Nat) : Nat := k.rbOf t * 8 / fmtWidth (fget (k.tcf t) TCFG_FMT)

/-- Oriented rows and columns of a tile (R88). -/
def oriented (k : Core) (t : Nat) (tr : Bool) : Nat × Nat :=
  if tr then (k.elemsOf t, k.rowsOf t) else (k.rowsOf t, k.elemsOf t)

/-- Is a context armed and bound with a mode (R124, R272). -/
def streamBound (s : State) (c n mode : Nat) : Bool := decide (flState s c n ≠ flIDLE) && flMode s c n == mode

/-- First word of MMA (R122). -/
def encMma (sb sa tb ta btr atr bsrc asrc ovw acc r0 : Nat) : Nat :=
  (r0 <<< 31) ||| (sb <<< 25) ||| (sa <<< 19) ||| (tb <<< 16) ||| (ta <<< 13) ||| (btr <<< 12) ||| (atr <<< 11) |||
  (bsrc <<< 10) ||| (asrc <<< 9) ||| (ovw <<< 8) ||| (acc <<< 7) ||| 0x61

/-- Encoding checks of MMA (R123). -/
def mmaLegal (sb sa tb ta btr atr bsrc asrc r0 r1 ns ms ks : Nat) : Bool :=
  decide (r0 = 0) && decide (r1 = 0) &&
  (if asrc = 0 then decide (sa = 0) && decide (ms = 0)
   else decide (ta = 0) && decide (atr = 0) && decide (1 ≤ ms) && decide (ms ≤ 64)) &&
  (if bsrc = 0 then decide (sb = 0) && decide (ns = 0)
   else decide (tb = 0) && decide (btr = 0) && decide (1 ≤ ns) && decide (ns ≤ 128)) &&
  (if asrc = 0 ∨ bsrc = 0 then decide (ks = 0) else decide (ks ≠ 0) && decide (sa ≠ sb))

/-- Format and tag of an operand. -/
def opFmtTag (s : State) (c : Nat) : ArrSrc → Nat × Nat
  | .tile t _ => (fget ((s.core c).tcf t) TCFG_FMT, fget ((s.core c).tcf t) TCFG_TAG)
  | .stream n => (s.fld (rFL_CFG c n) FL_CFG_FMT, s.fld (rFL_CFG c n) FL_CFG_TAG)

/-- Tiles of operand B.  DESIGN CHOICE (log 66): of a group that would reach past tile 7, only tiles that exist are named (R124). -/
def bTiles (tb f : Nat) : List Nat := ((List.range f).map fun g => tb + g).filter fun t => decide (t < 8)

/-- Names of operand A in a TILE_SHAPE fault that its own conditions fail (R124). -/
def aFails (s : State) (c : Nat) (a : ArrSrc) (ms f : Nat) : Bool :=
  let k := s.core c
  match a with
  | .tile t tr => !k.conf t || decide (64 / f < (oriented k t tr).1)
  | .stream n => decide (64 / f < ms) || !streamBound s c n 1

/-- Names of operand B that its own conditions fail. -/
def bFails (s : State) (c : Nat) (b : ArrSrc) (f : Nat) : List Nat :=
  let k := s.core c
  match b with
  | .stream n => if f ≠ 1 ∨ streamBound s c n 2 = false then [9] else []
  | .tile tb tr =>
    if tb % f ≠ 0 then bTiles tb f
    else (bTiles tb f).filter fun t =>
      !k.conf t || decide (128 < (oriented k t tr).2) ||
        (k.conf tb && (decide (fget (k.tcf t) TCFG_FMT ≠ fget (k.tcf tb) TCFG_FMT) ||
          decide ((oriented k t tr).1 ≠ (oriented k tb tr).1)))

/-- K of an operand, when it comes from a tile. -/
def aK (k : Core) : ArrSrc → Option Nat
  | .tile t tr => some (oriented k t tr).2
  | .stream _ => none
/-- K of operand B. -/
def bK (k : Core) : ArrSrc → Option Nat
  | .tile t tr => some (oriented k t tr).1
  | .stream _ => none

/-- Operand names in the order of R100, each once: A first, then B. -/
def nameOnce : List Nat → List Nat
  | [] => []
  | x :: r => x :: (nameOnce r).filter fun y => y != x

/-- Is the operand configured, so that its shape, format and tag are known. -/
def opConf (k : Core) : ArrSrc → Bool
  | .tile t _ => k.conf t
  | .stream _ => true

/-- Is one of operand B's tiles, or its stream, an MX operand: in fold mode each tile carries its own tag (R134, R148). -/
def bMx (s : State) (c : Nat) (b : ArrSrc) (f : Nat) : Bool :=
  match b with
  | .tile t tr => (bTiles t f).any fun t => opConf (s.core c) (.tile t tr) && (let (fm, tg) := opFmtTag s c (.tile t tr); isMx s (s.part c) fm tg)
  | .stream n => let (fm, tg) := opFmtTag s c (.stream n); isMx s (s.part c) fm tg

/-- The operands that fail a condition of R124, in operand order, and the K of the MMA: a condition on one operand names it
whatever the other is; conditions between operands apply once both are configured. -/
def mmaShape (s : State) (c : Nat) (a b : ArrSrc) (ms ks f : Nat) : List Nat × Nat :=
  let k := s.core c
  let an := match a with | .tile t _ => [t] | .stream _ => [8]
  let bn := match b with | .tile t _ => bTiles t f | .stream _ => [9]
  let ca := opConf k a
  let cb := opConf k b
  let kbad := ca && cb && (match aK k a, bK k b with | some x, some y => decide (x ≠ y) | _, _ => false)
  let ka := if ca then aK k a else none
  let kb := if cb then bK k b else none
  let kk := (ka.or kb).getD ks
  let kKnown := ka.isSome || kb.isSome || ((aK k a).isNone && (bK k b).isNone)
  let (fa, ta) := opFmtTag s c a
  let (fb, _) := opFmtTag s c b
  let fbadA := ca && !arrFmt fa
  let fbadB := cb && !arrFmt fb
  let pair := ca && cb && arrFmt fa && arrFmt fb && !pairOk fa fb
  let mxa := ca && isMx s (s.part c) fa ta
  let mxb := cb && bMx s c b f
  let mxBad := decide (f ≠ 1) || (kKnown && !(decide (kk % 32 = 0) && decide (kk ≤ 512)))
  let fails := (if aFails s c a ms f || kbad || fbadA || pair || (mxa && mxBad) then an else []) ++
    (if kbad || fbadB || pair || (mxb && mxBad) then bn else bFails s c b f)
  (nameOnce fails, kk)

/-- Source tiles of an MMA in operand order. -/
def srcTiles (a b : ArrSrc) (f : Nat) : List Nat :=
  (match a with | .tile t _ => [t] | .stream _ => []) ++ (match b with | .tile t _ => bTiles t f | .stream _ => [])

/-- Vector registers read at queueing for an MX operand (R149). -/
def mxRegs (k : Core) (base : Nat) : List Row := (List.range 4).map fun i => tget 0 k.eng.v (base + i)

/-- Does an entry hold a place of its own in the array queue: an MMA until it completes, an MDRAIN until its destination is written
(DESIGN CHOICE, log 66). -/
def ArrEnt.placed (e : ArrEnt) : Bool := e.isMma || !e.written

/-- Places of the array queue in use: entries leave in program order, so one that completes before an earlier one keeps its place
until that one leaves (R126). -/
def arrPlaces (k : Core) : Nat := (k.arr.map fun e => if e.placed then 1 + e.behind else 0).sum

/-- Entry `j` has completed: it leaves the queue, or waits behind the last entry before it that has not (R126). -/
def leaveQueue (j : Nat) (l : List ArrEnt) : List ArrEnt :=
  let n := match l[j]? with | some e => if e.placed then 1 + e.behind else 0 | none => 0
  let l := l.modify j fun e => { e with behind := 0 }
  match ((List.range j).filter fun i => match l[i]? with | some e => e.placed | none => false).getLast? with
  | some i => l.modify i fun e => { e with behind := e.behind + n }
  | none => l

/-- An entry with every field 0. -/
def ent0 : ArrEnt :=
  { isMma := false, ctx := 0, acc := 0, a := .tile 0 false, b := .tile 0 false, ovw := false, m := 0, n := 0, k := 0, fold := 1,
    fmtA := 0, fmtB := 0, mxA := none, mxB := none, scales := none, kDone := 0, dstSpad := false, td := 0, fmt := 0, rm := 0,
    base := 0, pitch := 0, nc := 0, coff := 0, tag := 0, readDone := false, written := false, amax := 0, nf := false, out := [],
    txid := none, behind := 0, ns := [], tagA := 0, tagsB := [] }

/-- A stream operand's feeder queue takes what has arrived. -/
def feedSrc (c : Nat) (x : ArrSrc) (s : State) : State := match x with | .stream n => feedFill c n s | .tile _ _ => s

/-- MMA at issue (R122-R126). -/
def opMma (c sb sa tb ta btr atr bsrc asrc ovw acc r0 r1 ns ms ks : Nat) (i : Instr) (s : State) : State :=
  issue c 8 (encMma sb sa tb ta btr atr bsrc asrc ovw acc r0) []
    (mmaLegal sb sa tb ta btr atr bsrc asrc r0 r1 ns ms ks) false fresh0
    (owned c i fun s =>
      let k := s.core c
      let f := foldOf k.eng
      let a : ArrSrc := if asrc = 0 then .tile ta (decide (atr = 1)) else .stream sa
      let b : ArrSrc := if bsrc = 0 then .tile tb (decide (btr = 1)) else .stream sb
      let src := srcTiles a b f
      if k.mbar.isSome || tileHeld k src then s
      else
        let (fails, kk) := mmaShape s c a b ms ks f
        if !fails.isEmpty then shapeTrap c fails s
        else if src.any fun t => writerBusy k t then s
        else match src.find? fun t => !k.full t with
          | some t => trap c .tileEmpty (n64 t) s
          | none =>
            engGuard c (fun d => d == (1, acc) || src.any fun t => d == (0, t)) (fun s =>
              if 4 ≤ arrPlaces k then s
              else
                let (fa, tga) := opFmtTag s c a
                let (fb, _) := opFmtTag s c b
                let p := s.part c
                let m := match a with | .tile t tr => (oriented k t tr).1 | .stream _ => ms
                let widths := match b with
                  | .tile t tr => (bTiles t f).map fun t => (oriented k t tr).2
                  | .stream _ => [ns]
                let tags := match b with
                  | .tile t _ => (bTiles t f).map fun t => fget (k.tcf t) TCFG_TAG
                  | .stream n => [s.fld (rFL_CFG c n) FL_CFG_TAG]
                let e := { ent0 with
                  isMma := true, ctx := k.run, acc := acc, a := a, b := b, ovw := decide (ovw = 1), m := m,
                  n := widths.foldl max 0, k := kk, fold := f, fmtA := fa, fmtB := fb,
                  mxA := if isMx s p fa tga then some (mxRegs k 24) else none,
                  mxB := if isMx s p fb (tags.headD 0) then some (mxRegs k 28) else none,
                  ns := widths, tagA := tga, tagsB := tags }
                feedSrc c b (feedSrc c a ((s.setCore c { k with arr := k.arr ++ [e] }).retire c 8))) s) s

/-- Does the array stand still after an engine error (R139). -/
def arrStopped (s : State) (c : Nat) : Bool :=
  s.flag (rENG_ERR c) ENG_ERR_VALID && s.fld (rENG_ERR c) ENG_ERR_ENGINE == 1

/-- Entries before position `j` of the queue. -/
def before (k : Core) (j : Nat) : List ArrEnt := k.arr.take j

/-- Replace an entry of the queue. -/
def setEnt (c j : Nat) (e : ArrEnt) (s : State) : State := s.modCore c fun k => { k with arr := k.arr.set j e }

/-- An entry has completed: it is taken out, and its place goes in program order. -/
def dropEnt (c j : Nat) (s : State) : State := s.modCore c fun k => { k with arr := (leaveQueue j k.arr).eraseIdx j }

/-- Position of the first entry that passes a test. -/
def findEnt (k : Core) (p : ArrEnt → Bool) : Option (Nat × ArrEnt) :=
  match k.arr.findIdx? p with
  | some j => (k.arr[j]?).map fun e => (j, e)
  | none => none

/-- An accumulator row of unspecified content (R139, log 10). -/
def freeAcc (n : Nat) : AccRow := packEls 4096 32 (fun i => (Config.freeElem n i).toNat) 128

/-- Of a stream operand the next `n` slots leave its queue. -/
def cutSlots (c n : Nat) (x : ArrSrc) (s : State) : State :=
  match x with
  | .stream m => s.setFl c m { (s.core c).fl m with slots := ((s.core c).fl m).slots.drop n }
  | .tile _ _ => s

/-- The slots in the feeders' queues that the failing MMA would have taken go with it (R139, log 29). -/
def dropSlots (c : Nat) (e : ArrEnt) (s : State) : State :=
  if !e.isMma then s
  else
    let n := cdiv (e.k - e.kDone) 8
    cutSlots c n e.b (cutSlots c n e.a s)

/-- The failing instruction stops and sets ERR; its accumulator's contents are unspecified (R139). -/
def arrError (c j code addr kind num : Nat) (s : State) : State :=
  match (s.core c).arr[j]? with
  | none => s
  | some e =>
    let s := dropSlots c e (dropEnt c j s)
    let n := s.free
    let s := { s.modEng c fun g => { g with
      accErr := tset e.acc true g.accErr
      acc := (List.range 64).foldl (fun m p => tset (e.acc * 64 + p) (freeAcc (n + p)) m) g.acc } with free := n + 64 }
    engError c 1 code addr e.ctx kind num s

/-- Scale exponents of an MMA's operands, read once (R117): A's, and each row group's; or the failing operand's error
code and entry address (R160). -/
def mmaScales (s : State) (c : Nat) (e : ArrEnt) : Except (Nat × Nat × Nat) (Int × List Int) :=
  let p := s.part c
  let sc := fun tag => if effTag s p tag = 0 then (0 : Int) else gaugeS s tag
  let bad := fun tag => decide (effTag s p tag ≠ 0) && gaugeBad s tag
  let tileA := match e.a with | .tile _ _ => true | .stream _ => false
  let tileB := match e.b with | .tile _ _ => true | .stream _ => false
  if bad e.tagA then .error (if tileA then 5 else 1, gaugePa s e.tagA, e.tagA)
  else match e.tagsB.find? bad with
    | some t => .error (if tileB then 5 else 2, gaugePa s t, t)
    | none => .ok (sc e.tagA, e.tagsB.map sc)

/-- MX factor of a row or column for K step `kk` (R149, R151). -/
def mxVal (regs : Option (List Row)) (idx kk k : Nat) (x : FVal) : FVal :=
  match regs with
  | none => x
  | some rs =>
    let i := idx * (k / 32) + kk / 32
    let b := elW 8 (rs[i / 256]?.getD 0) (i % 256)
    if b = 255 then .nan else fscale ((b : Int) - 127) x

/-- Element (r, c) of a tile, oriented (R86, R88). -/
def tileEl (k : Core) (t : Nat) (tr : Bool) (r cl : Nat) : Nat :=
  let w := fmtWidth (fget (k.tcf t) TCFG_FMT)
  if tr then elW w (k.row t cl) r else elW w (k.row t r) cl

/-- Element of a stream slot: step `q` of the slot, element `i`. -/
def streamEl (fmt n : Nat) (bs : List Byte) (q i : Nat) : Nat :=
  let p := stepBytes fmt n
  bits (leNat ((bs.drop (q * p)).take p)) (i * fmtWidth fmt + fmtWidth fmt - 1) (i * fmtWidth fmt)

/-- A K step's rounded product for a cell (R115). -/
def cellProd (sA sB : Int) (a b : FVal) : Nat := fround 0 (fscale (-(sA + sB)) (fmul a b))

/-- Add one product to a cell, with what was non-finite (R115). -/
def cellOne (p v : Nat) (nf : Bool) : Nat × Bool :=
  let v' := add32 v p
  (v', nf || fNonFin 0 p || fNonFin 0 v')

/-- Add the rounded sum of a pair of products to a cell (R115). -/
def cellTwo (p q v : Nat) (nf : Bool) : Nat × Bool :=
  let t := add32 p q
  let v' := add32 v t
  (v', nf || fNonFin 0 p || fNonFin 0 q || fNonFin 0 t || fNonFin 0 v')

/-- Add products to a cell in order; `hold` is the first product of a pair when products go in pairs (R114, R115). -/
def cellAdd (pair : Bool) : List Nat → Option Nat → Nat × Bool → Nat × Bool
  | [], none, a => a
  | [], some p, a => cellOne p a.1 a.2
  | p :: r, none, a => if pair then cellAdd pair r (some p) a else cellAdd pair r none (cellOne p a.1 a.2)
  | q :: r, some p, a => cellAdd pair r none (cellTwo p q a.1 a.2)

/-- Perform `n` K steps of an MMA for all its cells (R115, R124, R134). -/
def mmaSteps (c : Nat) (e : ArrEnt) (sA : Int) (sB : List Int) (n : Nat) (ba bb : List Byte) (s : State) : State :=
  let k := s.core c
  let rows := 64 / e.fold
  let pair := pairClass e.fmtA == 1 && pairClass e.fmtB == 1
  let elA := fun i q => match e.a with
    | .tile t tr => tileEl k t tr i (e.kDone + q)
    | .stream _ => streamEl e.fmtA e.m ba q i
  let elB := fun g q j => match e.b with
    | .tile t tr => tileEl k (t + g) tr (e.kDone + q) j
    | .stream _ => streamEl e.fmtB e.n bb q j
  let cell := fun g i j old =>
    let ps := (List.range n).map fun q =>
      cellProd sA (sB[g]?.getD 0) (mxVal e.mxA i (e.kDone + q) e.k (fdec e.fmtA (elA i q)))
        (mxVal e.mxB j (e.kDone + q) e.k (fdec e.fmtB (elB g q j)))
    cellAdd pair ps none (old, false)
  let old := fun p j => if e.ovw && e.kDone == 0 then 0 else (el32 (tget 0 k.eng.acc (e.acc * 64 + p)) j).toNat
  let width := fun p => e.ns[p / rows]?.getD 0
  let live := fun p => decide (p % rows < e.m) && decide (p / rows < e.fold)
  let newRow := fun p => packEls 4096 32 (fun j =>
    if live p && decide (j < width p) then (cell (p / rows) (p % rows) j (old p j)).1
    else (el32 (tget 0 k.eng.acc (e.acc * 64 + p)) j).toNat) 128
  let nf := (List.range 64).any fun p => live p && (List.range (width p)).any fun j =>
    (cell (p / rows) (p % rows) j (old p j)).2
  s.modEng c fun g => { g with
    acc := (List.range 64).foldl (fun m p => tset (e.acc * 64 + p) (newRow p) m) g.acc
    accNf := tset e.acc (tget false g.accNf e.acc || nf) g.accNf }

/-- NF that an MMA's tile operands bring (R118). -/
def tilesNf (k : Core) (e : ArrEnt) : Bool :=
  (srcTiles e.a e.b e.fold).any fun t => fbit (k.tcf t) TCFG_NF

/-- Bytes of the next slot of a stream operand, or the array error (R121, R139). -/
def slotBytes (c : Nat) (src : ArrSrc) (s : State) : Except (Option (Nat × Nat)) (List Byte × Bool) × State :=
  match src with
  | .tile _ _ => (.ok ([], false), s)
  | .stream x =>
    match takeSlot c x s with
    | (some r, s) => (.ok r, s)
    | (none, s) => (.error (streamEnd s c x), s)

/-- The feeders of an operand take what slots they can. -/
def slotFill (c : Nat) (src : ArrSrc) (s : State) : State :=
  match src with
  | .tile _ _ => s
  | .stream x => feedFill c x s

/-- Is a slot of a stream there, or can it come no more. -/
def slotCan (s : State) (c : Nat) (src : ArrSrc) : Bool :=
  match src with
  | .tile _ _ => true
  | .stream x => !((s.core c).fl x).slots.isEmpty || (streamEnd s c x).isSome

/-- FEEDER_SLOT_RELEASE: the next slot of the oldest unfinished MMA is performed (R115, R119, R121, R127). -/
def feederSlotRelease (c : Nat) (s : State) : State :=
  let k := s.core c
  match findEnt k fun e => e.isMma && decide (e.kDone < e.k) with
  | none => s
  | some (j, e) =>
    let held := (before k j).any fun d => !d.isMma && ((d.acc == e.acc && !d.readDone) ||
      (srcTiles e.a e.b e.fold).any fun t => d.uses t)
    if arrStopped s c || held then s
    else
      let n := min 8 (e.k - e.kDone)
      match (match e.scales with | some x => Except.ok x | none => mmaScales s c e) with
      | .error (code, addr, tag) => arrError c j code addr 1 e.acc (gaugeErr tag s)
      | .ok (sA, sB) =>
        let s := slotFill c e.b (slotFill c e.a s)
        if !(slotCan s c e.a && slotCan s c e.b) then s
        else
          match slotBytes c e.a s with
          | (.error x, s) => match x with
            | some (code, addr) => arrError c j code addr 1 e.acc s
            | none => s
          | (.ok (ba, na), sa) =>
            match slotBytes c e.b sa with
            | (.error x, _) => match x with
              | some (code, addr) => arrError c j (code + 1) addr 1 e.acc s
              | none => s
            | (.ok (bb, nb), s) =>
              let first := decide (e.kDone = 0)
              let s := if first then
                  s.modEng c fun g => { g with
                    accNf := tset e.acc ((tget false g.accNf e.acc && !e.ovw) || tilesNf k e) g.accNf
                    accErr := if e.ovw then tset e.acc false g.accErr else g.accErr }
                else s
              let s := s.modEng c fun g => { g with accNf := tset e.acc (tget false g.accNf e.acc || na || nb) g.accNf }
              let s := mmaSteps c e sA sB n ba bb s
              slotFill c e.b (slotFill c e.a (setEnt c j { e with scales := some (sA, sB), kDone := e.kDone + n } s))

/-- MMA_COMPLETE: the oldest MMA has performed its last K step and releases its tiles (R127). -/
def mmaComplete (c : Nat) (s : State) : State :=
  match findEnt (s.core c) fun e => e.isMma with
  | some (j, e) => if e.kDone = e.k then (dropEnt c j s).count (rMMA_DONE c) 1 else s
  | none => s

/-! MDRAIN. -/

/-- First word of MDRAIN (R130). -/
def encMdrain (r0 fmt rm gb ga td r1 dst acc : Nat) : Nat :=
  (r0 <<< 29) ||| (fmt <<< 25) ||| (rm <<< 23) ||| (gb <<< 18) ||| (ga <<< 13) ||| (td <<< 10) ||| (r1 <<< 9) |||
  (dst <<< 8) ||| (acc <<< 7) ||| 0x62

/-- Encoding checks of MDRAIN (R131). -/
def mdrainLegal (r0 fmt rm gb ga td r1 dst r2 nc : Nat) : Bool :=
  decide (r0 = 0) && decide (r1 = 0) && decide (r2 = 0) && decide (rm < 2) && fmtOk fmt &&
  (if dst = 0 then decide (ga = 0) && decide (gb = 0) && decide (nc = 0) else decide (td = 0))

/-- Lowest failing byte of a scratchpad row of `n` bytes (R131). -/
def spadRowBad (lo hi va n : Nat) : Option Nat :=
  if va < lo then some va else if hi < va + n then some (max va hi) else none

/-- The smallest of two failing addresses. -/
def optMin : Option Nat → Option Nat → Option Nat
  | some a, some b => some (min a b)
  | some a, none => some a
  | none, b => b

/-- Lowest failing byte of rows 0 to n - 1 (R131). -/
def rowsBad (lo hi : Nat) (ga gb : Word) (len : Nat) : Nat → Option Nat
  | 0 => none
  | n + 1 => optMin (rowsBad lo hi ga gb len n) (spadRowBad lo hi (rowVa ga gb n) len)

/-- MDRAIN at issue (R130, R131). -/
def opMdrain (c r0 fmt rm gb ga td r1 dst acc r2 nc coff tag : Nat) (i : Instr) (s : State) : State :=
  issue c 8 (encMdrain r0 fmt rm gb ga td r1 dst acc) (if dst = 0 then [] else [ga, gb])
    (mdrainLegal r0 fmt rm gb ga td r1 dst r2 nc) false fresh0
    (owned c i fun s =>
      let k := s.core c
      let f := foldOf k.eng
      let rows := 64 / f
      let cols := 128 * f
      let e := { ent0 with ctx := k.run, acc := acc, fold := f, fmt := fmt, rm := rm, coff := coff, tag := tag }
      let go := fun (e : ArrEnt) (s : State) =>
        engGuard c (fun d => d == (1, acc)) (fun s =>
          if 4 ≤ arrPlaces k then s else (s.setCore c { k with arr := k.arr ++ [e] }).retire c 8) s
      if k.mbar.isSome || tileHeld k (if dst = 0 then [td] else []) then s
      else if dst = 0 then
        let cf := k.tcf td
        if !k.conf td || decide (rows < k.rowsOf td) || decide (cols < coff * 64 + k.elemsOf td) ||
            decide (fget cf TCFG_FMT ≠ fmt) || decide (fget cf TCFG_TAG ≠ tag) then shapeTrap c [td] s
        else go { e with td := td, m := k.rowsOf td, n := k.elemsOf td } s
      else
        let a := s.g c ga
        let b := s.g c gb
        let p := s.part c
        if nc % 8 ≠ 0 ∨ nc < 8 ∨ 1024 < nc ∨ cols < coff * 64 + nc then shapeTrap c [] s
        else if a.toNat % 16 ≠ 0 then trap c .misalign a s
        else if b.toNat % 16 ≠ 0 then trap c .misalign (a + b) s
        else match rowsBad (spadBase s p) (spadBase s p + spadSize s p) a b (nc * fmtWidth fmt / 8) rows with
          | some va => trap c .access (n64 va) s
          | none => go { e with dstSpad := true, base := a.toNat, pitch := b.toNat, m := rows, n := nc } s) s

/-- Logical element (i, j) of an accumulator (R133). -/
def accEl (g : Eng) (e : ArrEnt) (i j : Nat) : Nat :=
  (el32 (tget 0 g.acc (e.acc * 64 + (j / 128) * (64 / e.fold) + i)) (j % 128)).toNat

/-- What a drain carries from element to element: generator, amax, NF. -/
structure DrainSt where
  gen : Word
  amax : Nat
  nf : Bool
  deriving DecidableEq, Repr

/-- Convert one drained element (R132, R152-R155). -/
def drainEl (fmt rm : Nat) (sc : Int) (sat : Bool) (v : Nat) (d : DrainSt) : Nat × DrainSt :=
  let x := fdec 0 v
  let g := if rm = 1 then srDraw d.gen else d.gen
  let o := fconv fmt sat (if rm = 1 then some g else none) (fscale sc x)
  (o, { gen := g, amax := if x.isFin then max d.amax (v % 2 ^ 31) else d.amax,
        nf := d.nf || !x.isFin || fNonFin fmt o })

/-- Convert the elements of a row in ascending order: the row's encoding as a number. -/
def drainRow (g : Eng) (e : ArrEnt) (sc : Int) (sat : Bool) (i : Nat) : Nat → DrainSt → Nat × DrainSt
  | 0, d => (0, d)
  | j + 1, d =>
    let (acc, d) := drainRow g e sc sat i j d
    let (o, d) := drainEl e.fmt e.rm sc sat (accEl g e i (e.coff * 64 + j)) d
    (acc ||| (o <<< (fmtWidth e.fmt * j)), d)

/-- Convert the rows in order (R132). -/
def drainRows (g : Eng) (e : ArrEnt) (sc : Int) (sat : Bool) (spadLo : Nat) : Nat → DrainSt → List (Nat × List Byte) × DrainSt
  | 0, d => ([], d)
  | i + 1, d =>
    let (l, d) := drainRows g e sc sat spadLo i d
    let (v, d) := drainRow g e sc sat i e.n d
    let key := if e.dstSpad then rowVa (n64 e.base) (n64 e.pitch) i - spadLo else i
    (l ++ [(key, leBytes (e.n * fmtWidth e.fmt / 8) v)], d)

/-- Destination named by a drain (R75, R139). -/
def drainDest (e : ArrEnt) : Nat × Nat := if e.dstSpad then (5, 0) else (0, e.td)

/-- What a failed drain names as its destination has unspecified content: a tile is FULL with free rows, scratchpad rows
hold free bytes (R75, R139, log 29). -/
def drainLost (c : Nat) (e : ArrEnt) (s : State) : State :=
  if e.dstSpad then
    upto (fun i s =>
      let bs := (leBytes 256 (freeRow s.free).toNat).take (e.n * fmtWidth e.fmt / 8)
      spadWrite c (rowVa (n64 e.base) (n64 e.pitch) i - spadBase s (s.part c)) bs { s with free := s.free + 1 }) e.m s
  else tileRow c e.td 0 (freeRow s.free) { s.modEng c fun g => { g with full := tset e.td false g.full } with free := s.free + 1 }

/-- MDRAIN_READ_END: the next drain in order has read and converted its accumulator (R129, R132). -/
def mdrainReadEnd (c : Nat) (s : State) : State :=
  let k := s.core c
  match findEnt k fun e => !e.isMma && !e.readDone with
  | none => s
  | some (j, e) =>
    if arrStopped s c || (before k j).any (fun d => d.isMma && d.acc == e.acc) then s
    else
      let p := s.part c
      let s := tagCheck p e.tag s
      let tag := effTag s p e.tag
      if tag ≠ 0 ∧ gaugeBad s tag = true then
        let (kd, num) := drainDest e
        drainLost c e (arrError c j 6 (gaugePa s tag) kd num (gaugeErr tag s))
      else
        let sc := if tag = 0 then 0 else gaugeS s tag
        let sat := decide (tag ≠ 0) && fbit (s.gw tag 0) gSAT
        let d0 : DrainSt := { gen := k.sr, amax := 0, nf := tget false k.eng.accNf e.acc || tget false k.eng.accErr e.acc }
        let (out, d) := drainRows k.eng e sc sat (spadBase s p) e.m d0
        setEnt c j { e with readDone := true, out := out, amax := d.amax, nf := d.nf, tag := tag }
          (s.modCore c fun k => { k with sr := d.gen })

/-- MDRAIN_WRITTEN: the destination is written; a tagged drain sends its merge, an untagged one completes (R129, R132). -/
def mdrainWritten (c : Nat) (s : State) : State :=
  let k := s.core c
  match findEnt k fun e => !e.isMma && !e.written with
  | none => s
  | some (j, e) =>
    let busy := !e.dstSpad && ((before k j).any (fun d => d.uses e.td) || k.stores.any fun x => x.2.2 == e.td + 1)
    let tx := k.freeTx
    if !e.readDone || busy || (decide (e.tag ≠ 0) && tx.isNone) then s
    else
      let s := each (fun (o : Nat × List Byte) s =>
        if e.dstSpad then spadWrite c o.1 o.2 s else tileRow c e.td o.1 (BitVec.ofNat 2048 (leNat o.2)) s) e.out s
      let s := if e.dstSpad then s else tileNf c e.td e.nf s
      if e.tag = 0 then (dropEnt c j s).count (rDRAIN_DONE c) 1
      else
        let x := tx.getD 0
        let s := setEnt c j { e with written := true, txid := some x, behind := 0 } (s.modCore c fun k => { k with arr := leaveQueue j k.arr })
        let s := s.modCore c fun k => { k with merges := k.merges ++ [(x, e.ctx)] }
        sendReq c { mkPkt (epSlice (gaugeHome s e.tag)) c clsREQ opMERGE (s.part c) 0 with
          tag := e.tag, nf := e.nf, txid := x, rgen := k.rgen, payload := BitVec.ofNat 1024 e.amax } s

/-- MDRAIN_COMPLETE: the merge of a tagged drain has been accepted at its entry's home (R129). -/
def mdrainComplete (c : Nat) (s : State) : State :=
  let k := s.core c
  match findEnt k fun e => !e.isMma && e.written with
  | none => s
  | some (j, e) =>
    if k.merges.any fun m => some m.1 == e.txid then s else (dropEnt c j s).count (rDRAIN_DONE c) 1

/-- MCFG (R137). -/
def opMcfg (c gd ga gb fn : Nat) (i : Instr) (s : State) : State :=
  let w := encS 0x58 gd ga gb fn
  issue4 c w [ga] (decide (gd = 0) && decide (gb = 0) && decide (fn = 0)) false
    (owned c i fun s =>
      if (s.core c).mbar.isSome then s
      else if 3 < (s.g c ga).toNat then trap c .illegal (n64 w) s
      else (mcfgBarrier c (s.g c ga) none s).retire c 4) s

/-- MCFG_BARRIER_APPLY (R137): earlier MMAs and MDRAINs have completed their reads and writes; the next memory-mapped write that
waited becomes the barrier. -/
def mcfgBarrierApply (c : Nat) (s : State) : State :=
  let k := s.core c
  match k.mbar with
  | none => s
  | some (v, back) =>
    if k.arr.any fun e => e.isMma || !e.written then s
    else
      let old := k.eng.mcfg
      let s := s.setCore c { k with mbar := k.mbarq.head?.map fun v => (v, none), mbarq := k.mbarq.tail }
      match back with
      | none => s.modEng c fun e => { e with mcfg := v }
      | some b => csrBackWrite c b old (s.modEng c fun e => { e with mcfg := csrNew b.kind old b.ga })

end Sys2Proof.Machine
end

