-- ==== Sys2Proof/Machine/Access.lean ====
section
/-! DEFINITION. What a core does with the responses to its requests (R45, R58, R74, R105, R177, R232, R363, R455): read
data and atomics complete the instruction that waits; write completions free their numbers. -/

namespace Sys2Proof.Machine

/-- Context `i` finishes its instruction of `len` bytes. -/
def retireCtx (c i len : Nat) (s : State) : State :=
  (s.modCtx c i fun x => { x with pc := x.pc + n64 len, wait := .none }).count (rINSTRET c) 1

/-- Virtual address and length of an access that waits for memory. -/
def MemKind.span : MemKind → Nat × Nat
  | .load _ sz _ va => (va, sz)
  | .vld _ _ va _ => (va, 256)
  | .atomic _ va wide => (va, if wide then 8 else 4)

/-- Is byte `j` of the access one that it moves (R177). -/
def MemKind.active (k : MemKind) (j : Nat) : Bool :=
  match k with
  | .vld _ pm _ _ => bit pm.toNat (j / 4)
  | _ => true

/-- Lowest byte of the access that lies in virtual line `vl` and in a bad word of it, among its first `n` bytes. -/
def MemKind.firstBad (k : MemKind) (vl bad : Nat) : Nat → Option Nat
  | 0 => none
  | n + 1 =>
    match k.firstBad vl bad n with
    | some a => some a
    | none =>
      let a := k.span.1 + n
      if k.active n && a / 128 == vl && bit bad (a % 128 / 4) then some a else none

/-- Keep the exception with the lower address. -/
def badMin : Option (Nat × Nat) → Option (Nat × Nat) → Option (Nat × Nat)
  | none, b => b
  | a, none => a
  | some a, some b => if b.2 < a.2 then some b else some a

/-- The value a scalar load writes (R56). -/
def loadVal (sz : Nat) (sx : Bool) (v : Nat) : Word := if sx then w64 (sext (8 * sz) v) else n64 (v % 2 ^ (8 * sz))

/-- Register `vd` with the active bytes of a vector load (R177). -/
def vldRow (old : Row) (pm : Word) (bs : List Byte) : Row :=
  packEls 2048 32 (fun i => if bit pm.toNat i then leNat ((bs.drop (4 * i)).take 4) else (el32 old i).toNat) 64

/-- A vector load writes its register and VNF (R171, R177). -/
def vldWrite (c vd : Nat) (pm : Word) (nf : Bool) (bs : List Byte) (s : State) : State :=
  s.modEng c fun e =>
    let keep := decide (pm ≠ w64 (-1)) && bit e.vnf.toNat vd
    { e with
      v := tset vd (vldRow (tget 0 e.v vd) pm bs) e.v
      vnf := fsetB e.vnf ⟨vd, vd⟩ (nf || keep) }

/-- When nothing more is outstanding the access completes or takes its exception (R56, R58, R74, R177). -/
def memFinish (c i : Nat) (s : State) : State :=
  match ((s.core c).ctx i).wait with
  | .mem [] got bad k =>
    match bad with
    | some (code, ev) => enterExc c i false code (n64 ev) s
    | none =>
      match k with
      | .load gd sz sx va =>
        retireCtx c i 4 (s.modCtx c i fun x => x.setG gd (loadVal sz sx (leNat (gotBytes got va sz))))
      | .vld vd pm va nf =>
        retireCtx c i 4 ((vldWrite c vd pm nf (gotBytes got va 256) s).count (rVEC_DONE c) 1)
      | .atomic gd va wide =>
        let sz := if wide then 8 else 4
        retireCtx c i 4 (s.modCtx c i fun x => x.setG gd (loadVal sz true (leNat (gotBytes got va sz))))
  | _ => s

/-- The context that waits for transaction number `x`, with its virtual line. -/
def waitsFor (k : Core) (x : Nat) : Option (Nat × Nat) :=
  (List.range 4).findSome? fun i =>
    match (k.ctx i).wait with
    | .mem outs _ _ _ => (outs.find? fun o => o.1 == x).map fun o => (i, o.2)
    | _ => none

/-- Take an answer into a waiting access: the data, or an exception. -/
def memGot (c i x vl : Nat) (d : Option Line) (bad : Option (Nat × Nat)) (nf : Bool) (s : State) : State :=
  memFinish c i (s.modCtx c i fun y =>
    match y.wait with
    | .mem outs got b k =>
      let k := match k with | .vld vd pm va n => MemKind.vld vd pm va (n || nf) | k => k
      { y with wait := .mem (outs.filter fun o => o.1 != x) (match d with | some d => got ++ [(vl, d)] | none => got)
                 (badMin b bad) k }
    | _ => y)

/-- A response with another reset generation is discarded and counted in PT_STAT.DROP (R455). -/
def staleRsp (c : Nat) (s : State) : State := s.countSat (rPT_STAT (s.part c)) PT_STAT_DROP 1

/-- Transaction numbers held out of use return when their late response arrives (R455). -/
def lateRsp (c x : Nat) (s : State) : State := s.modCore c fun k => { k with deadTx := ldrop x k.deadTx }

/-- The mark of a prefetch's data packet in `sub`, above the class and SPENT state of its line. -/
abbrev pfMark : Nat := 256

/-- Read data, or an atomic's old value, reaches core `c` (R58, R105, R232, R449); prefetched data only fills the L1 (R265). -/
def coreRdData (c : Nat) (p : Packet) (s : State) : State :=
  if p.rgen ≠ (s.core c).rgen then staleRsp c s
  else if pfMark ≤ p.sub then
    let line := p.addr / 128
    if p.bad = 0 ∧ lhas line (s.core c).pfOut = true then
      l1Fill c line p.payload p.tag p.sub (s.modCore c fun k => { k with pfOut := ldrop line k.pfOut })
    else s
  else match waitsFor (s.core c) p.txid with
    | none => lateRsp c p.txid s
    | some (i, vl) =>
      match ((s.core c).ctx i).wait with
      | .mem _ _ _ k =>
        let atomic := match k with | .atomic _ _ _ => true | _ => false
        let s := if !atomic && p.bad == 0 then l1Fill c (p.addr / 128) p.payload p.tag p.sub s else s
        let bad := (k.firstBad vl p.bad.toNat k.span.2).map fun a => (Exc.dataErr.code, a)
        memGot c i p.txid vl (some p.payload) bad p.nf s
      | _ => s

/-- A write of context `i` is over: the store, VST or TSTORE row whose last write it was completes, or takes the exception
that a write of it met (R73, R74, R106, R177). -/
def storeNext (c i : Nat) (s : State) : State :=
  match ((s.core c).ctx i).wait with
  | .store vst _ bad =>
    if (s.core c).stores.any fun x => x.2.1 == i && x.2.2 == stStore then s
    else match bad with
      | some (code, ev) => enterExc c i false code (n64 ev) s
      | none => retireCtx c i 4 (if vst then s.count (rVEC_DONE c) 1 else s)
  | _ => tstoreNext c i s

/-- Note the exception of a failed write of byte `ev` in the instruction that waits for it: a TSTORE writes no later row. -/
def Wait.failAt (code ev : Nat) : Wait → Wait
  | .store vst va bad => .store vst va (badMin bad (some (code, ev)))
  | .tstore t ((r, va) :: rest) out bad =>
    let old : Option (Nat × Nat) := bad.bind fun b => if b.1 = r then some b.2 else Option.none
    .tstore t ((r, va) :: rest) out ((badMin old (some (code, ev))).map fun x => (r, x.1, x.2))
  | w => w

/-- A request fails as an access of its own kind, with exception `e` (R73, R363, R455): the waiting load takes it at its lowest
byte there, the waiting store, VST or TSTORE at `addr`, whose line leaves the L1.  A miss record's write has no instruction that
waits; its task takes the exception where it is. -/
def coreFail (c x : Nat) (e : Exc) (addr : Nat) (s : State) : State :=
  match waitsFor (s.core c) x with
  | some (i, vl) =>
    match ((s.core c).ctx i).wait with
    | .mem _ _ _ k =>
      memGot c i x vl none (some (e.code, (k.firstBad vl (2 ^ 32 - 1) k.span.2).getD k.span.1)) false s
    | _ => s
  | none =>
    match (s.core c).stores.find? fun y => y.1 == x with
    | some (_, i, whose) =>
      let s := s.modCore c fun k => { k with stores := k.stores.filter fun y => y.1 != x }
      if whose = stMiss then enterExc c i false e.code (n64 addr) s
      else
        let s := match corePlace s c .store addr with | .mem pa => l1Drop c (pa / 128) s | _ => s
        storeNext c i (s.modCtx c i fun y => { y with wait := y.wait.failAt e.code addr })
    | none => s.modCore c fun k => { k with merges := k.merges.filter fun y => y.1 != x }

/-- A write completion (one with a bad mark failed at the companion and is DATA_ERR, R419), or the acceptance of a Gauge
merge, reaches core `c` (R45, R90, R129). -/
def coreWrAck (c : Nat) (p : Packet) (s : State) : State :=
  if p.rgen ≠ (s.core c).rgen then staleRsp c s
  else if p.bad ≠ 0 then coreFail c p.txid .dataErr (vaOf s p.part (pktByte { p with op := opWR })) (lateRsp c p.txid s)
  else
    let s := lateRsp c p.txid s
    let s := s.modCore c fun k =>
      { k with stores := k.stores.filter fun x => x.1 != p.txid, merges := k.merges.filter fun x => x.1 != p.txid }
    storeNext c 3 (storeNext c 2 (storeNext c 1 (storeNext c 0 s)))

end Sys2Proof.Machine
end

