-- ==== Sys2Proof/Machine/Vector.lean ====
section
/-! DEFINITION. The vector engine (R169-R195): arithmetic, predicates, permutes, conversions, loads and stores, tile rows,
reductions, function tables, MX scales and the small factorisation. -/

namespace Sys2Proof.Machine

/-! Encodings (R173). -/

/-- Format V. -/
def encV (opc vd va vb pm z w fn : Nat) : Nat :=
  (vd <<< 27) ||| (va <<< 22) ||| (vb <<< 17) ||| (pm <<< 14) ||| (z <<< 13) ||| (w <<< 11) ||| (fn <<< 7) ||| opc
/-- Format VM. -/
def encVM (opc vd ga pm imm : Nat) : Nat := (vd <<< 27) ||| (ga <<< 22) ||| (pm <<< 19) ||| (imm <<< 7) ||| opc
/-- Format VC. -/
def encVC (vd va nfmt part rm rsv w fn : Nat) : Nat :=
  (vd <<< 27) ||| (va <<< 22) ||| (nfmt <<< 18) ||| (part <<< 15) ||| (rm <<< 14) ||| (rsv <<< 13) ||| (w <<< 11) |||
  (fn <<< 7) ||| 0x37
/-- Format VT. -/
def encVT (vd ga tt tr rsv fn : Nat) : Nat :=
  (vd <<< 27) ||| (ga <<< 22) ||| (tt <<< 19) ||| (tr <<< 18) ||| (rsv <<< 11) ||| (fn <<< 7) ||| 0x3A
/-- Format VR. -/
def encVR (vd va vb pm g ts op w : Nat) : Nat :=
  (vd <<< 27) ||| (va <<< 22) ||| (vb <<< 17) ||| (pm <<< 14) ||| (g <<< 12) ||| (ts <<< 11) ||| (op <<< 9) ||| (w <<< 7) ||| 0x3B
/-- Format VF. -/
def encVF (vd va slot d pm z w rsv : Nat) : Nat :=
  (vd <<< 27) ||| (va <<< 22) ||| (slot <<< 18) ||| (d <<< 17) ||| (pm <<< 14) ||| (z <<< 13) ||| (w <<< 11) ||| (rsv <<< 7) ||| 0x3C
/-- Format VX. -/
def encVX (vd va vb byte w : Nat) : Nat := (vd <<< 27) ||| (va <<< 22) ||| (vb <<< 17) ||| (byte <<< 9) ||| (w <<< 7) ||| 0x3E

/-! Registers and elements (R169-R171). -/

/-- Element width in bits at W. -/
def vBits (w : Nat) : Nat := if w = 1 ∨ w = 2 then 16 else 32
/-- Elements of a register at W. -/
def vEls (w : Nat) : Nat := 2048 / vBits w
/-- A vector register. -/
def Eng.vr (e : Eng) (i : Nat) : Row := tget 0 e.v i
/-- A predicate; p0 reads all ones. -/
def Eng.pr (e : Eng) (i : Nat) : Word := if i = 0 then w64 (-1) else tget 0 e.p i
/-- Write a predicate; a write of p0 is discarded. -/
def Eng.setP (e : Eng) (i : Nat) (v : Word) : Eng := if i = 0 then e else { e with p := tset i v e.p }
/-- VNF of a register. -/
def Eng.nfOf (e : Eng) (i : Nat) : Bool := bit e.vnf.toNat i
/-- Write a register and its VNF bit. -/
def Eng.setV (e : Eng) (i : Nat) (v : Row) (nf : Bool) : Eng := { e with v := tset i v e.v, vnf := fsetB e.vnf ⟨i, i⟩ nf }
/-- Element `i` of a register at W. -/
def vEl (w : Nat) (v : Row) (i : Nat) : Nat := elW (vBits w) v i
/-- Is element `i` active under predicate value `p` at W (R170). -/
def active (w : Nat) (p : Word) (i : Nat) : Bool := bit p.toNat (if vBits w = 32 then i else i / 2)
/-- A register built of elements at W. -/
def vPack (w : Nat) (f : Nat → Nat) : Row := packEls 2048 (vBits w) f (vEls w)

/-- Merge new elements into vd under p[PM] (R170): the register and whether an active one passes a test. -/
def vMerge (w pm z : Nat) (e : Eng) (vd : Nat) (f : Nat → Nat) : Row :=
  vPack w fun i => if active w (e.pr pm) i then f i else if z = 1 then 0 else vEl w (e.vr vd) i

/-- Is an active new element non-finite at W. -/
def anyNonFin (w pm : Nat) (e : Eng) (f : Nat → Nat) : Bool :=
  (List.range (vEls w)).any fun i => active w (e.pr pm) i && fNonFin w (f i)

/-- Does a merging instruction keep a set VNF (R171). -/
def keepsNf (pm z : Nat) (e : Eng) (vd : Nat) : Bool := decide (z = 0) && decide (pm ≠ 0) && e.nfOf vd

/-- OR of the sources' VNF bits. -/
def srcNf (e : Eng) (srcs : List Nat) : Bool := srcs.any e.nfOf

/-- The effect of a vector instruction that passed its checks: ENGINE for a reader of a failed destination (R75); what the
engine holds while it is stopped takes its effect at issue (log 29). -/
def vecGo (c : Nat) (reads : List (Nat × Nat)) (body : State → State) (s : State) : State :=
  engGuard c (fun d => reads.contains d) body s

/-- The instruction has completed (R194). -/
def vecEnd (c : Nat) (s : State) : State := (s.count (rVEC_DONE c) 1).retire c 4

/-- Vector registers and a predicate as destinations named by errors. -/
def vDests (vs : List Nat) (ps : List Nat) : List (Nat × Nat) := vs.map (fun v => (2, v)) ++ ps.map fun p => (3, p)

/-- An elementwise instruction of `vd` (R170-R172): operands `srcs`, new elements `f`; `int` marks W = 3. -/
def vecOp (c w4 : Nat) (gs : List Nat) (legal : Bool) (w pm z vd : Nat) (srcs : List Nat) (f : State → Eng → Nat → Nat)
    (fp : Bool) (i : Instr) (s : State) : State :=
  issue4 c w4 gs legal false (owned c i (vecGo c (vDests srcs [pm]) fun s =>
    vecEnd c (s.modEng c fun e =>
      let g := f s e
      e.setV vd (vMerge w pm z e vd g)
        (if w = 3 then srcNf e srcs else srcNf e srcs || keepsNf pm z e vd || (fp && anyNonFin w pm e g))))) s

/-! Arithmetic (R172, R174, R175). -/

/-- An element as an exact value at W. -/
def vVal (w x : Nat) : FVal := fdec w x

/-- VARITH of two sources. -/
def varith2 (fn c vd va vb pm z w : Nat) (op : FVal → FVal → FVal) (i : Instr) (s : State) : State :=
  vecOp c (encV 0x30 vd va vb pm z w fn) [] (decide (w < 3)) w pm z vd [va, vb]
    (fun _ e j => fround w (op (vVal w (vEl w (e.vr va) j)) (vVal w (vEl w (e.vr vb) j)))) true i s

/-- VARITH of one source. -/
def varith1 (fn c vd va vb pm z w : Nat) (op : FVal → FVal) (i : Instr) (s : State) : State :=
  vecOp c (encV 0x30 vd va vb pm z w fn) [] (decide (w < 3)) w pm z vd [va]
    (fun _ e j => fround w (op (vVal w (vEl w (e.vr va) j)))) true i s

/-- VARITH ADD (R175). -/
def opVarithAdd (c vd va vb pm z w : Nat) (i : Instr) (s : State) : State := varith2 0 c vd va vb pm z w fadd i s
/-- VARITH SUB (R175). -/
def opVarithSub (c vd va vb pm z w : Nat) (i : Instr) (s : State) : State :=
  varith2 1 c vd va vb pm z w (fun a b => fadd a (fneg b)) i s
/-- VARITH MUL (R175). -/
def opVarithMul (c vd va vb pm z w : Nat) (i : Instr) (s : State) : State := varith2 2 c vd va vb pm z w fmul i s
/-- VARITH DIV (R175). -/
def opVarithDiv (c vd va vb pm z w : Nat) (i : Instr) (s : State) : State := varith2 3 c vd va vb pm z w fdiv i s
/-- VARITH MIN (R172, R175). -/
def opVarithMin (c vd va vb pm z w : Nat) (i : Instr) (s : State) : State := varith2 4 c vd va vb pm z w fmin i s
/-- VARITH MAX (R172, R175). -/
def opVarithMax (c vd va vb pm z w : Nat) (i : Instr) (s : State) : State := varith2 5 c vd va vb pm z w fmaxV i s
/-- VARITH ABS (R175). -/
def opVarithAbs (c vd va vb pm z w : Nat) (i : Instr) (s : State) : State := varith1 6 c vd va vb pm z w fabs i s
/-- VARITH NEG (R175). -/
def opVarithNeg (c vd va vb pm z w : Nat) (i : Instr) (s : State) : State := varith1 7 c vd va vb pm z w fneg i s
/-- VARITH SQRT (R175). -/
def opVarithSqrt (c vd va vb pm z w : Nat) (i : Instr) (s : State) : State := varith1 8 c vd va vb pm z w fsqrt i s

/-- CVTFI (R175): the INT32 elements are never non-finite. -/
def opCvtfi (c vd va vb pm z w : Nat) (i : Instr) (s : State) : State :=
  vecOp c (encV 0x30 vd va vb pm z w 9) [] (decide (w = 0)) w pm z vd [va]
    (fun _ e j => fToI32 (vVal 0 (vEl 0 (e.vr va) j))) false i s

/-- CVTIF (R175). -/
def opCvtif (c vd va vb pm z w : Nat) (i : Instr) (s : State) : State :=
  vecOp c (encV 0x30 vd va vb pm z w 10) [] (decide (w = 0)) w pm z vd [va]
    (fun _ e j => fround 0 (i32Val (vEl 0 (e.vr va) j))) true i s

/-- The scaling of SCALEB; beyond 512 binades the result is the same. -/
def scalebVal (n : Int) : Int := if n < -512 then -512 else if 512 < n then 512 else n

/-- SCALEB (R175). -/
def opScaleb (c vd va vb pm z w : Nat) (i : Instr) (s : State) : State :=
  vecOp c (encV 0x30 vd va vb pm z w 11) [] (decide (w = 0)) w pm z vd [va, vb]
    (fun _ e j => fround 0 (fscale (scalebVal (sext 32 (vEl 0 (e.vr vb) j))) (vVal 0 (vEl 0 (e.vr va) j)))) true i s

/-- MOV (R175): a copy of the bits. -/
def opVarithMov (c vd va vb pm z w : Nat) (i : Instr) (s : State) : State :=
  vecOp c (encV 0x30 vd va vb pm z w 12) [] (decide (w < 3)) w pm z vd [va] (fun _ e j => vEl w (e.vr va) j) true i s

/-- SEL (R175): every element is written, Z ignored. -/
def opVarithSel (c vd va vb pm z w : Nat) (i : Instr) (s : State) : State :=
  issue4 c (encV 0x30 vd va vb pm z w 13) [] (decide (w < 3)) false (owned c i (vecGo c (vDests [va, vb] [pm]) fun s =>
    vecEnd c (s.modEng c fun e =>
      let f := fun j => if active w (e.pr pm) j then vEl w (e.vr va) j else vEl w (e.vr vb) j
      e.setV vd (vPack w f) (srcNf e [va, vb] || (List.range (vEls w)).any fun j => fNonFin w (f j))))) s

/-- VINT (R175); W must be 3. -/
def vint (fn c vd va vb pm z w : Nat) (op : W32 → W32 → W32) (i : Instr) (s : State) : State :=
  vecOp c (encV 0x31 vd va vb pm z w fn) [] (decide (w = 3)) w pm z vd [va, vb]
    (fun _ e j => (op (el32 (e.vr va) j) (el32 (e.vr vb) j)).toNat) false i s

/-- VINT ADD. -/
def opVintAdd (c vd va vb pm z w : Nat) (i : Instr) (s : State) : State := vint 0 c vd va vb pm z w (fun a b => a + b) i s
/-- VINT SUB. -/
def opVintSub (c vd va vb pm z w : Nat) (i : Instr) (s : State) : State := vint 1 c vd va vb pm z w (fun a b => a - b) i s
/-- VINT MUL. -/
def opVintMul (c vd va vb pm z w : Nat) (i : Instr) (s : State) : State := vint 2 c vd va vb pm z w (fun a b => a * b) i s
/-- VINT AND. -/
def opVintAnd (c vd va vb pm z w : Nat) (i : Instr) (s : State) : State := vint 3 c vd va vb pm z w (fun a b => a &&& b) i s
/-- VINT OR. -/
def opVintOr (c vd va vb pm z w : Nat) (i : Instr) (s : State) : State := vint 4 c vd va vb pm z w (fun a b => a ||| b) i s
/-- VINT XOR. -/
def opVintXor (c vd va vb pm z w : Nat) (i : Instr) (s : State) : State := vint 5 c vd va vb pm z w (fun a b => a ^^^ b) i s
/-- Shift amount: bits 4:0. -/
def sh5 (b : W32) : Nat := b.toNat % 32
/-- VINT SLL. -/
def opVintSll (c vd va vb pm z w : Nat) (i : Instr) (s : State) : State := vint 6 c vd va vb pm z w (fun a b => a <<< sh5 b) i s
/-- VINT SRL. -/
def opVintSrl (c vd va vb pm z w : Nat) (i : Instr) (s : State) : State := vint 7 c vd va vb pm z w (fun a b => a >>> sh5 b) i s
/-- VINT SRA. -/
def opVintSra (c vd va vb pm z w : Nat) (i : Instr) (s : State) : State :=
  vint 8 c vd va vb pm z w (fun a b => a.sshiftRight (sh5 b)) i s
/-- VINT MIN. -/
def opVintMin (c vd va vb pm z w : Nat) (i : Instr) (s : State) : State :=
  vint 9 c vd va vb pm z w (fun a b => if b.slt a then b else a) i s
/-- VINT MAX. -/
def opVintMax (c vd va vb pm z w : Nat) (i : Instr) (s : State) : State :=
  vint 10 c vd va vb pm z w (fun a b => if a.slt b then b else a) i s

/-- VFMA (R174): one rounding; `n1` negates the product, `n2` the addend. -/
def vfma (fn c vd va vb pm z w : Nat) (n1 n2 : Bool) (i : Instr) (s : State) : State :=
  vecOp c (encV 0x32 vd va vb pm z w fn) [] (decide (w < 3)) w pm z vd [va, vb, vd]
    (fun _ e j =>
      let p := fmul (vVal w (vEl w (e.vr va) j)) (vVal w (vEl w (e.vr vb) j))
      let d := vVal w (vEl w (e.vr vd) j)
      fround w (fadd (if n1 then fneg p else p) (if n2 then fneg d else d))) true i s

/-- VFMA FN 0. -/
def opVfma (c vd va vb pm z w : Nat) (i : Instr) (s : State) : State := vfma 0 c vd va vb pm z w false false i s
/-- VFMA FN 1. -/
def opVfmaSub (c vd va vb pm z w : Nat) (i : Instr) (s : State) : State := vfma 1 c vd va vb pm z w false true i s
/-- VFMA FN 2. -/
def opVfmaNeg (c vd va vb pm z w : Nat) (i : Instr) (s : State) : State := vfma 2 c vd va vb pm z w true false i s

/-- VSCAL (R174): VB names a g register. -/
def vscal (fn c vd va vb pm z w : Nat) (op : FVal → FVal → FVal) (i : Instr) (s : State) : State :=
  vecOp c (encV 0x33 vd va vb pm z w fn) [vb] (decide (w < 3)) w pm z vd [va]
    (fun s e j => fround w (op (vVal w (vEl w (e.vr va) j)) (vVal w ((s.g c vb).toNat % 2 ^ vBits w)))) true i s

/-- VSCAL ADD. -/
def opVscalAdd (c vd va vb pm z w : Nat) (i : Instr) (s : State) : State := vscal 0 c vd va vb pm z w fadd i s
/-- VSCAL SUB. -/
def opVscalSub (c vd va vb pm z w : Nat) (i : Instr) (s : State) : State :=
  vscal 1 c vd va vb pm z w (fun a b => fadd a (fneg b)) i s
/-- VSCAL MUL. -/
def opVscalMul (c vd va vb pm z w : Nat) (i : Instr) (s : State) : State := vscal 2 c vd va vb pm z w fmul i s
/-- VSCAL DIV. -/
def opVscalDiv (c vd va vb pm z w : Nat) (i : Instr) (s : State) : State := vscal 3 c vd va vb pm z w fdiv i s
/-- VSCAL MIN. -/
def opVscalMin (c vd va vb pm z w : Nat) (i : Instr) (s : State) : State := vscal 4 c vd va vb pm z w fmin i s
/-- VSCAL MAX. -/
def opVscalMax (c vd va vb pm z w : Nat) (i : Instr) (s : State) : State := vscal 5 c vd va vb pm z w fmaxV i s

/-! Predicates (R175). -/

/-- The predicate made of 64 tests. -/
def predOf (f : Nat → Bool) : Word := n64 ((List.range 64).foldl (fun a i => a ||| (if f i then 2 ^ i else 0)) 0)

/-- A comparison of two elements at W = 0 or 3. -/
def vcmpEl (w : Nat) (op : Bool → Bool → Bool → Bool) (a b : Nat) : Bool :=
  if w = 3 then op (decide (sext 32 a < sext 32 b)) (decide (a = b)) false
  else
    let x := fdec 0 a
    let y := fdec 0 b
    op (flt false x y) (feq x y) (x == .nan || y == .nan)

/-- VCMP: `op` takes less, equal and unordered (R175). -/
def vcmp (fn c vd va vb pm z w : Nat) (op : Bool → Bool → Bool → Bool) (i : Instr) (s : State) : State :=
  issue4 c (encV 0x34 vd va vb pm z w fn) [] ((decide (w = 0) || decide (w = 3)) && decide (vd < 8)) false
    (owned c i (vecGo c (vDests [va, vb] [pm]) fun s =>
      vecEnd c (s.modEng c fun e => e.setP vd
        (predOf fun j => active 0 (e.pr pm) j && vcmpEl w op (vEl 0 (e.vr va) j) (vEl 0 (e.vr vb) j))))) s

/-- VCMP EQ. -/
def opVcmpEq (c vd va vb pm z w : Nat) (i : Instr) (s : State) : State := vcmp 0 c vd va vb pm z w (fun _ e _ => e) i s
/-- VCMP NE. -/
def opVcmpNe (c vd va vb pm z w : Nat) (i : Instr) (s : State) : State := vcmp 1 c vd va vb pm z w (fun _ e _ => !e) i s
/-- VCMP LT. -/
def opVcmpLt (c vd va vb pm z w : Nat) (i : Instr) (s : State) : State := vcmp 2 c vd va vb pm z w (fun l _ _ => l) i s
/-- VCMP LE. -/
def opVcmpLe (c vd va vb pm z w : Nat) (i : Instr) (s : State) : State := vcmp 3 c vd va vb pm z w (fun l e _ => l || e) i s
/-- VCMP GT. -/
def opVcmpGt (c vd va vb pm z w : Nat) (i : Instr) (s : State) : State :=
  vcmp 4 c vd va vb pm z w (fun l e u => !l && !e && !u) i s
/-- VCMP GE. -/
def opVcmpGe (c vd va vb pm z w : Nat) (i : Instr) (s : State) : State := vcmp 5 c vd va vb pm z w (fun l _ u => !l && !u) i s
/-- VCMP UNORD. -/
def opVcmpUnord (c vd va vb pm z w : Nat) (i : Instr) (s : State) : State := vcmp 6 c vd va vb pm z w (fun _ _ u => u) i s

/-- VPRED logic (R175). -/
def vpred (fn c vd va vb pm z w : Nat) (op : Word → Word → Word) (i : Instr) (s : State) : State :=
  issue4 c (encV 0x35 vd va vb pm z w fn) [] (decide (vd < 8) && decide (va < 8) && decide (vb < 8)) false
    (owned c i (vecGo c (vDests [] [va, vb]) fun s =>
      vecEnd c (s.modEng c fun e => e.setP vd (op (e.pr va) (e.pr vb))))) s

/-- VPRED AND. -/
def opVpredAnd (c vd va vb pm z w : Nat) (i : Instr) (s : State) : State := vpred 0 c vd va vb pm z w (fun a b => a &&& b) i s
/-- VPRED OR. -/
def opVpredOr (c vd va vb pm z w : Nat) (i : Instr) (s : State) : State := vpred 1 c vd va vb pm z w (fun a b => a ||| b) i s
/-- VPRED XOR. -/
def opVpredXor (c vd va vb pm z w : Nat) (i : Instr) (s : State) : State := vpred 2 c vd va vb pm z w (fun a b => a ^^^ b) i s
/-- VPRED ANDN. -/
def opVpredAndn (c vd va vb pm z w : Nat) (i : Instr) (s : State) : State :=
  vpred 3 c vd va vb pm z w (fun a b => a &&& ~~~ b) i s

/-- FROMG: p[VD] := g[VA] (R175). -/
def opFromg (c vd va vb pm z w : Nat) (i : Instr) (s : State) : State :=
  issue4 c (encV 0x35 vd va vb pm z w 4) [va] (decide (vd < 8)) false
    (owned c i (vecGo c [] fun s => let v := s.g c va; vecEnd c (s.modEng c fun e => e.setP vd v))) s

/-- TOG: g[VD] := p[VA] (R175). -/
def opTog (c vd va vb pm z w : Nat) (i : Instr) (s : State) : State :=
  issue4 c (encV 0x35 vd va vb pm z w 5) [vd] (decide (va < 8)) false
    (owned c i (vecGo c (vDests [] [va]) fun s =>
      let v := (s.core c).eng.pr va
      vecEnd c (s.modCur c fun x => x.setG vd v))) s

/-! Permutes (R175). -/

/-- BCAST. -/
def opBcast (c vd va vb pm z w : Nat) (i : Instr) (s : State) : State :=
  let w4 := encV 0x36 vd va vb pm z w 0
  issue4 c w4 [vb] true false (owned c i fun s =>
    let n := (s.g c vb).toNat
    if vEls w ≤ n then trap c .illegal (n64 w4) s
    else vecGo c (vDests [va] [pm]) (fun s =>
      vecEnd c (s.modEng c fun e =>
        let f := fun _ => vEl w (e.vr va) n
        e.setV vd (vMerge w pm z e vd f)
          (if w = 3 then e.nfOf va else e.nfOf va || keepsNf pm z e vd || anyNonFin w pm e f))) s) s

/-- VEXT: g[VD] := element g[VB] of va, zero-extended. -/
def opVext (c vd va vb pm z w : Nat) (i : Instr) (s : State) : State :=
  let w4 := encV 0x36 vd va vb pm z w 1
  issue4 c w4 [vd, vb] true false (owned c i fun s =>
    let n := (s.g c vb).toNat
    if vEls w ≤ n then trap c .illegal (n64 w4) s
    else vecGo c (vDests [va] []) (fun s =>
      let v := n64 (vEl w ((s.core c).eng.vr va) n)
      vecEnd c (s.modCur c fun x => x.setG vd v)) s) s

/-- VINS: element g[VB] of vd := low bits of g[VA]. -/
def opVins (c vd va vb pm z w : Nat) (i : Instr) (s : State) : State :=
  let w4 := encV 0x36 vd va vb pm z w 2
  issue4 c w4 [va, vb] true false (owned c i fun s =>
    let n := (s.g c vb).toNat
    let x := (s.g c va).toNat % 2 ^ vBits w
    if vEls w ≤ n then trap c .illegal (n64 w4) s
    else vecGo c (vDests [vd] [pm]) (fun s =>
      vecEnd c (s.modEng c fun e =>
        let f := fun j => if j = n then x else vEl w (e.vr vd) j
        e.setV vd (vMerge w pm z e vd f)
          (e.nfOf vd || (decide (w ≠ 3) && active w (e.pr pm) n && fNonFin w x)))) s) s

/-- ROT: element i := element (i + g[VB]) mod E. -/
def opRot (c vd va vb pm z w : Nat) (i : Instr) (s : State) : State :=
  issue4 c (encV 0x36 vd va vb pm z w 3) [vb] true false (owned c i (vecGo c (vDests [va] [pm]) fun s =>
    let n := (s.g c vb).toNat
    vecEnd c (s.modEng c fun e =>
      let f := fun j => vEl w (e.vr va) ((j + n) % vEls w)
      e.setV vd (vMerge w pm z e vd f)
        (if w = 3 then e.nfOf va else e.nfOf va || keepsNf pm z e vd || anyNonFin w pm e f)))) s

/-! Conversion (R179). -/

/-- An uncorrectable Gauge entry stops the vector engine: its destination has unspecified content (R75, R160, R452). -/
def vecStop (c vd tag : Nat) (s : State) : State :=
  let run := (s.core c).run
  let s := gaugeErr tag s
  let r := freeRow s.free
  let s := { s.modEng c fun e => e.setV vd r (e.nfOf vd) with free := s.free + 1 }
  (engError c 2 4 (gaugePa s tag) run 2 vd s).retire c 4

/-- Encoding checks of VCVT. -/
def vcvtLegal (nfmt part rsv w : Nat) : Bool :=
  decide (w < 3) && decide (rsv = 0) && fmtOk nfmt && decide (nfmt ≠ 0) && decide (part < 2048 / (vEls w * fmtWidth nfmt))

/-- VCVT FN 0 (R179). -/
def opVcvtWiden (c vd va nfmt part rm rsv w : Nat) (i : Instr) (s : State) : State :=
  issue4 c (encVC vd va nfmt part rm rsv w 0) [] (vcvtLegal nfmt part rsv w) false
    (owned c i (vecGo c (vDests [va] []) fun s =>
      let raw := fget (s.core c).eng.vctl VCTL_TAG
      let s := tagCheck (s.part c) raw s
      let tag := effTag s (s.part c) raw
      if tag ≠ 0 ∧ gaugeBad s tag = true then vecStop c vd tag s
      else
        let sc := if tag = 0 then 0 else gaugeS s tag
        vecEnd c (s.modEng c fun e =>
          let b := fmtWidth nfmt
          let src := (e.vr va).toNat >>> (part * vEls w * b)
          let f := fun j => fround w (fscale (-sc) (fdec nfmt (bits src (j * b + b - 1) (j * b))))
          e.setV vd (vPack w f) (e.nfOf va || (List.range (vEls w)).any fun j => fNonFin w (f j))))) s

/-- What a narrowing conversion carries from element to element: generator, amax, and whether a value read or written was
non-finite, which is the NF of the merge and of the output (R153, R179; DEDUCED, log 69). -/
structure NarrowSt where
  gen : Word
  amax : Nat
  nf : Bool
  deriving DecidableEq, Repr

/-- Narrow the first `n` elements in ascending order: their encoding as a number (R152-R155, R179). -/
def narrowEls (w nfmt rm : Nat) (sc : Int) (sat : Bool) (v : Row) : Nat → NarrowSt → Nat × NarrowSt
  | 0, d => (0, d)
  | j + 1, d =>
    let (acc, d) := narrowEls w nfmt rm sc sat v j d
    let x := vVal w (vEl w v j)
    let g := if rm = 1 then srDraw d.gen else d.gen
    let o := fconv nfmt sat (if rm = 1 then some g else none) (fscale sc x)
    (acc ||| ((o % 2 ^ fmtWidth nfmt) <<< (fmtWidth nfmt * j)),
     { gen := g, amax := if x.isFin then max d.amax (fround 0 (fabs x)) else d.amax,
       nf := d.nf || !x.isFin || fNonFin nfmt o })

/-- VCVT FN 1 (R179, R180): with a tag, one merge goes to the Gauge entry when the result is written. -/
def opVcvtNarrow (c vd va nfmt part rm rsv w : Nat) (i : Instr) (s : State) : State :=
  issue4 c (encVC vd va nfmt part rm rsv w 1) [] (vcvtLegal nfmt part rsv w) false
    (owned c i (vecGo c (vDests [va, vd] []) fun s =>
      let raw := fget (s.core c).eng.vctl VCTL_TAG
      let s0 := s
      let s := tagCheck (s.part c) raw s
      let tag := effTag s (s.part c) raw
      if tag ≠ 0 ∧ gaugeBad s tag = true then vecStop c vd tag s
      else match (s.core c).freeTx with
        | none => s0
        | some x =>
          let k := s.core c
          let sc := if tag = 0 then 0 else gaugeS s tag
          let sat := decide (tag ≠ 0) && fbit (s.gw tag 0) gSAT
          let (o, d) := narrowEls w nfmt rm sc sat (k.eng.vr va) (vEls w) { gen := k.sr, amax := 0, nf := false }
          let nb := vEls w * fmtWidth nfmt
          let old := (k.eng.vr vd).toNat
          let new := BitVec.ofNat 2048 (nxor old (((nxor (bits old (part * nb + nb - 1) (part * nb)) o)) <<< (part * nb)))
          let s := s.modCore c fun k =>
            { k with sr := d.gen
                     eng := k.eng.setV vd new (d.nf || k.eng.nfOf va || (decide (nb < 2048) && k.eng.nfOf vd)) }
          let s := if tag = 0 then s
            else
              let s := s.modCore c fun k => { k with merges := k.merges ++ [(x, k.run)] }
              sendReq c { mkPkt (epSlice (gaugeHome s tag)) c clsREQ opMERGE (s.part c) 0 with
                tag := tag, nf := d.nf, txid := x, rgen := k.rgen, payload := BitVec.ofNat 1024 d.amax } s
          vecEnd c s)) s

/-! VCFG, VLD and VST (R176, R177). -/

/-- VCFG; every field but GA is 0. -/
def opVcfg (c vd ga rest : Nat) (i : Instr) (s : State) : State :=
  let w4 := (vd <<< 27) ||| (ga <<< 22) ||| (rest <<< 7) ||| 0x3F
  issue4 c w4 [ga] (decide (vd = 0) && decide (rest = 0)) false (owned c i fun s =>
    let v := s.g c ga
    if !vctlLegal v then trap c .illegal (n64 w4) s
    else vecGo c [] (fun s => vecEnd c (s.modEng c fun e => { e with vctl := v })) s) s

/-- Address of a VLD or VST. -/
def vAddr (s : State) (c ga imm : Nat) : Nat := (s.g c ga + w64 (sext 12 imm * 16)).toNat

/-- Active words of a predicate. -/
def activeWords (p : Word) : List Nat := (List.range 64).filter fun i => bit p.toNat i

/-- Address of word `i` of a vector access. -/
def vWord (va i : Nat) : Nat := (va + 4 * i) % 2 ^ 64

/-- The exception of a vector access of the active words (R177, R231). -/
def vFault (s : State) (c : Nat) (k : AccK) (va : Nat) (p : Word) : Option (Exc × Nat) :=
  let ws := activeWords p
  let spad := fun i => inSpad s (s.part c) (vWord va i)
  if ws.any spad && ws.any fun i => !spad i then some (k.acc, vWord va (ws.headD 0))
  else ws.findSome? fun i => accFault s (s.part c) (s.cur c).isM k (vWord va i) 4

/-- Address of the first active word. -/
def vFirst (va : Nat) (p : Word) : Nat := vWord va ((activeWords p).headD 0)

/-- Virtual lines that the active words touch. -/
def vLines (va : Nat) (p : Word) : List Nat :=
  ((activeWords p).map fun i => vWord va i / 128).eraseDups

/-- Do the active words lie in the scratchpad range (R231). -/
def vInSpad (s : State) (c va : Nat) (p : Word) : Bool := (activeWords p).any fun i => inSpad s (s.part c) (vWord va i)

/-- VLD (R177). -/
def opVld (c vd ga pm imm : Nat) (i : Instr) (s : State) : State :=
  issue4 c (encVM 0x38 vd ga pm imm) [ga] true false (owned c i fun s =>
    let va := vAddr s c ga imm
    let e := (s.core c).eng
    let p := e.pr pm
    if va % 16 ≠ 0 then trap c .misalign (n64 va) s
    else match vFault s c .load va p with
      | some (x, ev) => trapAcc c x (vFirst va p) ev s
      | none =>
        vecGo c (vDests [] [pm]) (fun s =>
          if vInSpad s c va p then
            let off := fun j => vWord va j - spadBase s (s.part c)
            if (activeWords p).any fun j => spadTested s c (off j) 4 then s
            else match (activeWords p).find? fun j => (spadBad s c (off j) 4).isSome with
            | some j => trap c .dataErr (n64 (vWord va j)) (spadSeen c (off j) 4 s)
            | none =>
              let bs := (List.range 64).flatMap fun j => if bit p.toNat j then spadBytes s c (off j) 4 else leBytes 4 0
              vecEnd c (vldWrite c vd p false bs (each (fun j s => spadSeen c (off j) 4 s) (activeWords p) s))
          else
            let lines := (vLines va p).filterMap fun vl =>
              match corePlace s c .load (max va (vl * 128)) with
              | .mem pa => some (vl, pa / 128)
              | _ => none
            let s0 := s
            let s := each (fun l s => touchTc c (s.part c) (l.1 * 128) s) lines s
            match sendReads c (s.core c).run (fget e.vctl VCTL_TAG) (fget e.vctl VCTL_FMT) lines [] [] s with
            | none => s0
            | some (outs, got, s) =>
              memFinish c (s.core c).run (s.modCur c fun x =>
                { x with wait := .mem outs got none (.vld vd p va false) })) s) s

/-- Cells of the active words of one virtual line. -/
def vCells (va vl : Nat) (p : Word) (bs : List Byte) : Cells :=
  ((activeWords p).filter fun i => vWord va i / 128 == vl).flatMap fun i =>
    cellsFrom (vWord va i % 128) ((bs.drop (4 * i)).take 4)

/-- Post the writes of a VST, line by line. -/
def vstPost (c va : Nat) (p : Word) (bs : List Byte) (tag fmt : Nat) (nf : Bool) : List Nat → State → Option State
  | [], s => some s
  | vl :: r, s =>
    match corePlace s c .store (max va (vl * 128)) with
    | .mem pa =>
      match postWrite c (pa / 128) (vCells va vl p bs) tag fmt nf (s.core c).run stStore s with
      | some s => vstPost c va p bs tag fmt nf r s
      | none => none
    | _ => vstPost c va p bs tag fmt nf r s

/-- VST (R177): a tagged write, which retires when its writes have completed (R74). -/
def opVst (c vs ga pm imm : Nat) (i : Instr) (s : State) : State :=
  issue4 c (encVM 0x39 vs ga pm imm) [ga] true false (owned c i fun s =>
    let va := vAddr s c ga imm
    let e := (s.core c).eng
    let p := e.pr pm
    if va % 16 ≠ 0 then trap c .misalign (n64 va) s
    else match vFault s c .store va p with
      | some (x, ev) => trapAcc c x (vFirst va p) ev s
      | none =>
        vecGo c (vDests [vs] [pm]) (fun s =>
          let bs := leBytes 256 (e.vr vs).toNat
          if vInSpad s c va p then
            if (activeWords p).any fun j => spadTested s c (vWord va j - spadBase s (s.part c)) 4 then s
            else vecEnd c (each (fun j s => spadWrite c (vWord va j - spadBase s (s.part c)) ((bs.drop (4 * j)).take 4) s) (activeWords p) s)
          else
            match vstPost c va p bs (fget e.vctl VCTL_TAG) (fget e.vctl VCTL_FMT) (e.nfOf vs) (vLines va p)
                (each (fun l s => touchTc c (s.part c) (l * 128) s) (vLines va p) s) with
            | some s => if (vLines va p).isEmpty then vecEnd c s else s.modCur c fun x => { x with wait := .store true va none }
            | none => s) s) s

/-! Tile rows (R178). -/

/-- Elements of a row of a tile. -/
def Core.elsOf (k : Core) (t : Nat) : Nat := k.rbOf t * 8 / fmtWidth (fget (k.tcf t) TCFG_FMT)

/-- VTR: a row, or an element column, of a tile (R178). -/
def opVtr (c vd ga tt tr rsv : Nat) (i : Instr) (s : State) : State :=
  issue4 c (encVT vd ga tt tr rsv 0) [ga] (decide (rsv = 0)) false (owned c i fun s =>
    let k := s.core c
    let n := (s.g c ga).toNat
    if tileHeld k [tt] || writerBusy k tt then s
    else if !k.conf tt || decide ((if tr = 1 then k.elsOf tt else k.rowsOf tt) ≤ n) then shapeTrap c [tt] s
    else if !k.full tt then trap c .tileEmpty (n64 tt) s
    else vecGo c [(0, tt)] (fun s =>
      let b := fmtWidth (fget (k.tcf tt) TCFG_FMT)
      let v : Row := if tr = 1 then packEls 2048 b (fun r => elW b (k.row tt r) n) (k.rowsOf tt)
        else BitVec.ofNat 2048 ((k.row tt n).toNat % 2 ^ (8 * k.rbOf tt))
      vecEnd c (s.modEng c fun e => e.setV vd v (fbit (k.tcf tt) TCFG_NF))) s) s

/-- VTW (R178). -/
def opVtw (c vd ga tt tr rsv : Nat) (i : Instr) (s : State) : State :=
  issue4 c (encVT vd ga tt tr rsv 1) [ga] (decide (rsv = 0) && decide (tr = 0)) false (owned c i fun s =>
    let k := s.core c
    let n := (s.g c ga).toNat
    if tileHeld k [tt] || tileBusy k tt then s
    else if !k.conf tt || decide (k.rowsOf tt ≤ n) then shapeTrap c [tt] s
    else vecGo c (vDests [vd] []) (fun s =>
      let e := (s.core c).eng
      vecEnd c (tileNf c tt (e.nfOf vd) (tileRow c tt n (BitVec.ofNat 2048 ((e.vr vd).toNat % 2 ^ (8 * k.rbOf tt))) s))) s) s

/-! Reductions (R189, R190). -/

/-- Combine neighbours. -/
def pairUp (op : FVal → FVal → FVal) : List FVal → List FVal
  | [] => []
  | [a] => [a]
  | a :: b :: r => op a b :: pairUp op r

/-- `n` levels of the tree. -/
def levels (op : FVal → FVal → FVal) : Nat → List FVal → List FVal
  | 0, l => l
  | n + 1, l => levels op n (pairUp op l)

/-- The reduction of values: padded to a power of two, combined level by level in FP32 (R190). -/
def reduce (mx : Bool) (l : List FVal) : FVal :=
  let n := flog2 (2 * l.length - 1)
  let op := fun a b => fdec 0 (fround 0 (if mx then fmaxV a b else fadd a b))
  (levels op n (l ++ List.replicate (2 ^ n - l.length) (if mx then .inf true else .fin false 0 0))).headD (.fin false 0 0)

/-- Elements of `n` registers from `v` at W. -/
def groupEls (e : Eng) (w v n : Nat) : List FVal :=
  (List.range n).flatMap fun r => (List.range (vEls w)).map fun j => vVal w (vEl w (e.vr (v + r)) j)

/-- Encoding checks of VRED (R189). -/
def vredLegal (va vb g ts op w : Nat) : Bool :=
  decide (w < 3) &&
  (if ts = 0 then decide (va % 2 ^ g = 0) && (decide (op ≠ 3) || decide (vb % 2 ^ g = 0))
   else decide (op ≠ 3) && decide (va < 8))

/-- The value reduced: OP 0 SUM, 1 MAX, 2 SUMSQ, 3 DOT; products are exact (R189). -/
def vredVal (op : Nat) (xs ys : List FVal) : FVal :=
  match op with
  | 0 => reduce false xs
  | 1 => reduce true xs
  | 2 => reduce false (xs.map fun x => fmul x x)
  | _ => reduce false (xs.zipWith fmul ys)

/-- Write a reduction's value to every active element of vd. -/
def vredPut (c vd pm w : Nat) (srcs : List Nat) (v : FVal) (s : State) : State :=
  vecEnd c (s.modEng c fun e =>
    let f := fun _ => fround w v
    e.setV vd (vMerge w pm 0 e vd f) (srcNf e srcs || keepsNf pm 0 e vd || anyNonFin w pm e f))

/-- VRED (R189). -/
def vred (op c vd va vb pm g ts w : Nat) (i : Instr) (s : State) : State :=
  issue4 c (encVR vd va vb pm g ts op w) (if ts = 1 then [vb] else []) (vredLegal va vb g ts op w) false (owned c i fun s =>
    let k := s.core c
    if ts = 0 then
      let n := 2 ^ g
      let srcs := rangeFrom va (va + n) ++ (if op = 3 then rangeFrom vb (vb + n) else [])
      vecGo c (vDests srcs [pm]) (fun s =>
        let e := (s.core c).eng
        vredPut c vd pm w srcs (vredVal op (groupEls e w va n) (groupEls e w vb n)) s) s
    else
      let n := (s.g c vb).toNat
      if tileHeld k [va] || writerBusy k va then s
      else if !k.conf va || decide (k.rowsOf va ≤ n) then shapeTrap c [va] s
      else if !k.full va then trap c .tileEmpty (n64 va) s
      else vecGo c ((0, va) :: vDests [] [pm]) (fun s =>
        let raw := fget (k.tcf va) TCFG_TAG
        let s := tagCheck (s.part c) raw s
        let tag := effTag s (s.part c) raw
        if tag ≠ 0 ∧ gaugeBad s tag = true then vecStop c vd tag s
        else
          let sc := if tag = 0 then 0 else gaugeS s tag
          let f := fget (k.tcf va) TCFG_FMT
          let xs := (List.range (k.elsOf va)).map fun j => fscale (-sc) (fdec f (elW (fmtWidth f) (k.row va n) j))
          vredPut c vd pm w [] (vredVal op xs xs) s) s) s

/-- VRED SUM. -/
def opVredSum (c vd va vb pm g ts w : Nat) (i : Instr) (s : State) : State := vred 0 c vd va vb pm g ts w i s
/-- VRED MAX. -/
def opVredMax (c vd va vb pm g ts w : Nat) (i : Instr) (s : State) : State := vred 1 c vd va vb pm g ts w i s
/-- VRED SUMSQ. -/
def opVredSumsq (c vd va vb pm g ts w : Nat) (i : Instr) (s : State) : State := vred 2 c vd va vb pm g ts w i s
/-- VRED DOT. -/
def opVredDot (c vd va vb pm g ts w : Nat) (i : Instr) (s : State) : State := vred 3 c vd va vb pm g ts w i s

/-! Function tables (R184-R187). -/

/-- A table's header (R185): `mode` 0 LIN, 1 POW2, 2 LOGM, 3 MULM; rules 0 CLAMP, 1 EXTEND, 2 CONST, 3 IDENT. -/
structure FnHdr where
  lo : Nat
  c : Nat
  clo : Nat
  chi : Nat
  sw : Int
  mode : Nat
  p : Nat
  q : Nat
  below : Nat
  above : Nat
  deriving DecidableEq, Repr

/-- Header of a built-in table: slot and derivative (R184). -/
def builtinHdr (slot d : Nat) : FnHdr :=
  let h : FnHdr := { lo := 0, c := 0, clo := 0, chi := 0, sw := 0, mode := 0, p := 1, q := 1, below := 2, above := 2 }
  match slot with
  | 0 => { h with lo := 0xC1000000, sw := -4, above := if d = 0 then 3 else 2, chi := 0x3F800000 }
  | 1 => { h with lo := 0xC1800000, sw := -3, above := if d = 0 then 3 else 2, chi := 0x3F800000 }
  | 2 => { h with lo := 0xC1000000, sw := -4, clo := if d = 0 then 0xBF800000 else 0, chi := if d = 0 then 0x3F800000 else 0 }
  | 3 => { h with lo := 0xC1800000, sw := -3, chi := if d = 0 then 0x3F800000 else 0 }
  | 4 => { h with mode := 1, c := 0x3FB8AA3B, clo := 0, chi := 0x7F800000 }
  | 5 => if d = 0 then { h with mode := 2, c := 0x3F317218, clo := 0xFF800000, chi := 0x7F800000 }
         else { h with mode := 3, clo := 0x7F800000, chi := 0 }
  | _ => if d = 0 then { h with mode := 3, q := 2, clo := 0x7F800000, chi := 0 }
         else { h with mode := 3, p := 3, q := 2, clo := 0xFF800000, chi := 0x80000000 }

/-- Field of `n` bytes at byte `o` of an image. -/
def imgAt (img : BitVec 67584) (o n : Nat) : Nat := bits img.toNat (8 * o + 8 * n - 1) (8 * o)

/-- Header of a loaded image (R185). -/
def imgHdr (img : BitVec 67584) (d : Nat) : FnHdr :=
  let o := 32 * d
  let m := imgAt img (o + 0x11) 1
  let r := imgAt img (o + 0x12) 1
  { lo := imgAt img o 4, c := imgAt img (o + 4) 4, clo := imgAt img (o + 8) 4, chi := imgAt img (o + 12) 4,
    sw := sext 8 (imgAt img (o + 0x10) 1), mode := m % 4, p := bits m 3 2, q := bits m 4 4 + 1,
    below := r % 4, above := bits r 3 2 }

/-- Is one header of an image legal (R185-R187, log 30). -/
def hdrLegal (img : BitVec 67584) (d : Nat) : Bool :=
  let o := 32 * d
  let h := imgHdr img d
  decide (bits (imgAt img (o + 0x11) 1) 7 5 = 0) && decide (bits (imgAt img (o + 0x12) 1) 7 4 = 0) &&
    decide (imgAt img (o + 0x13) 13 = 0) && decide (h.p ≠ 0) &&
    (decide (h.mode = 0) || (decide (h.below = 2) && decide (h.above = 2)))

/-- Is an image legal: reserved bits 0, MODE, P, Q and RULES legal (R187). -/
def imgLegal (img : BitVec 67584) : Bool :=
  hdrLegal img 0 && hdrLegal img 1 && decide (imgAt img 0x40 192 = 0) &&
    (List.range 512).all fun i => imgAt img (0x100 + 16 * i + 12) 4 == 0

/-- Coefficient `j` of segment `n`: built in, past the end, or from the image (R184, R185, log 30). -/
def fnCoef (k : Core) (slot d n j : Nat) : Nat :=
  if slot < 7 ∨ 256 ≤ n then (Config.tabCoef slot d n j).toNat
  else imgAt (tget 0 k.slots slot) (0x100 + 0x1000 * d + 16 * n + 4 * j) 4

/-- The polynomial of a segment at `t`, each step in FP32 (R186). -/
def fnPoly (k : Core) (slot d n : Nat) (t : FVal) : Nat :=
  let c := fun j => fdec 0 (fnCoef k slot d n j)
  fround 0 (fadd (fmul (fdec 0 (fround 0 (fadd (fmul (c 2) t) (c 1)))) t) (c 0))

/-- A signed integer times 2^e as an exact value. -/
def iVal (n : Int) (e : Int) : FVal := .fin (decide (n < 0)) n.natAbs e

/-- Mantissa and exponent of a positive finite value: x = 2^e × (1 + f / 2^23), for an FP32 value (R186). -/
def normal : FVal → Nat × Int
  | .fin _ m e => let l := flog2 m; ((m <<< (23 - l)) - 2 ^ 23, e + l)
  | _ => (0, 0)

/-- f or f′ of a slot at an FP32 element (R186). -/
def fnEval (k : Core) (slot d x : Nat) : Nat :=
  let h := if slot < 7 then builtinHdr slot d else imgHdr (tget 0 k.slots slot) d
  let v := fdec 0 x
  let seg := fun n t => fnPoly k slot d n t
  let out := fun (rule cst n : Nat) (tc te : FVal) =>
    match rule with
    | 2 => cst
    | 3 => x
    | 1 => if v.isFin then seg n te else seg n tc
    | _ => seg n tc
  match v with
  | .nan => fnan 0
  | _ =>
    match h.mode with
    | 0 =>
      let lo := fdec 0 h.lo
      let dd := fdec 0 (fround 0 (fadd v (fneg lo)))
      if flt false v lo then out h.below h.clo 0 (.fin false 0 0) dd
      else if !flt false v (fadd lo (iVal 256 h.sw)) && lo != .nan then
        out h.above h.chi 255 (iVal 1 h.sw) (fadd dd (fneg (iVal 255 h.sw)))
      else
        let n := (ffloor (fscale (-h.sw) dd)).toNat
        seg n (fadd dd (fneg (iVal n h.sw)))
    | 1 =>
      match fdec 0 (fround 0 (fmul v (fdec 0 h.c))) with
      | .nan => fnan 0
      | .inf neg => if neg then h.clo else h.chi
      | u =>
        let n := ffloor u
        if n < -150 then h.clo
        else if 127 < n then h.chi
        else
          let w := fadd u (fneg (iVal n 0))
          let j := (ffloor (fscale 8 w)).toNat
          fround 0 (fscale n (fdec 0 (seg j (fadd w (fneg (iVal j (-8)))))))
    | m =>
      match v with
      | .inf neg => if neg then (Config.tabCoef slot d 257 0).toNat else h.chi
      | _ =>
        if v.isZero then h.clo
        else if flt false v (.fin false 0 0) then fnan 0
        else
          let (f, e) := normal v
          if m = 2 then
            let j := bits f 22 15
            add32 (seg j (iVal (f - j * 2 ^ 15) (-23))) (fround 0 (fmul (iVal e 0) (fdec 0 h.c)))
          else if h.q = 1 then
            let j := bits f 22 15
            fround 0 (fscale (-(h.p * e)) (fdec 0 (seg j (iVal (f - j * 2 ^ 15) (-23)))))
          else
            let b := (e % 2).toNat
            let j := bits f 22 16
            fround 0 (fscale (-((h.p * e) / 2)) (fdec 0 (seg (128 * b + j) (iVal (f - j * 2 ^ 16) (-23)))))

/-- Is a slot valid (FTAB_STAT, R184, R194). -/
def slotValid (s : State) (c slot : Nat) : Bool := bit (s.fld (rFTAB_STAT c) FTAB_STAT_VALID) slot

/-- VFUN (R186). -/
def opVfun (c vd va slot d pm z w rsv : Nat) (i : Instr) (s : State) : State :=
  let w4 := encVF vd va slot d pm z w rsv
  issue4 c w4 [] (decide (rsv = 0) && decide (w < 3)) false (owned c i fun s =>
    if !slotValid s c slot then trap c .illegal (n64 w4) s
    else vecGo c (vDests [va] [pm]) (fun s =>
      let k := s.core c
      let f := fun j => fround w (fdec 0 (fnEval k slot d (fround 0 (vVal w (vEl w (k.eng.vr va) j)))))
      vecEnd c (s.modEng c fun e =>
        e.setV vd (vMerge w pm z e vd f) (e.nfOf va || keepsNf pm z e vd || anyNonFin w pm e f))) s) s

/-- Set the validity of a slot. -/
def setSlotValid (c slot : Nat) (v : Bool) (s : State) : State :=
  let r := rFTAB_STAT c
  s.setReg r (fsetB (s.reg r) ⟨slot, slot⟩ v)

/-- Size of a function-table image (R185). -/
abbrev imgBytes : Nat := 8448

/-- VFLOAD at issue (R174, R184, R187): the slot is invalid from here on. -/
def opVfload (c slot r0 ga rsv : Nat) (s : State) : State :=
  issue4 c ((slot <<< 28) ||| (r0 <<< 27) ||| (ga <<< 22) ||| (rsv <<< 7) ||| 0x3D) [ga]
    (decide (r0 = 0) && decide (rsv = 0) && decide (7 ≤ slot)) true (fun s =>
      let va := (s.g c ga).toNat
        let s := setSlotValid c slot false s
        if va % 16 ≠ 0 then trap c .misalign (n64 va) s
        else match accFault s (s.part c) true .load va imgBytes with
          | some (e, ev) => trapAcc c e va ev s
          | none => s.modCur c fun x => { x with wait := .vfload slot va }) s

/-- VFLOAD_DONE: the whole image has arrived (R187). -/
def vfloadDone (c : Nat) (s : State) : State :=
  match (s.cur c).wait with
  | .vfload slot va =>
    if !coreGate s c true false va imgBytes then corePrep c 0 0xF false va imgBytes s
    else
      match coreRead c 0 true va imgBytes s with
      | (_, some a, s) => trap c .dataErr (n64 a) s
      | (bs, none, s) =>
        let img : BitVec 67584 := BitVec.ofNat 67584 (leNat bs)
        let s := s.modCore c fun k => { k with slots := tset slot img k.slots }
        vecEnd c (setSlotValid c slot (imgLegal img) s)
  | _ => s

/-! MX scales (R181). -/

/-- The largest magnitude of values, as mantissa and exponent; none when one is not finite. -/
def blockMax : List FVal → Option (Nat × Int)
  | [] => some (0, 0)
  | .fin _ m e :: r =>
    match blockMax r with
    | none => none
    | some (m', e') => some (if magLt m' e' m e then (m, e) else (m', e'))
  | _ :: _ => none

/-- The scale byte of a block (R181). -/
def mxScale (emax : Int) (l : List FVal) : Nat :=
  match blockMax l with
  | none => 255
  | some (m, e) =>
    if m = 0 then 0
    else
      let x : Int := flog2 m + e - emax + 127
      if x < 0 then 0 else if 254 < x then 254 else x.toNat

/-- VMXS (R181). -/
def opVmxs (c vd va vb byte w : Nat) (i : Instr) (s : State) : State :=
  let blocks := vEls w / 32
  issue4 c (encVX vd va vb byte w) []
    (decide (w < 3) && decide (vb ≠ va) && decide (vb ≠ vd) && decide (byte + blocks - 1 ≤ 255)) false
    (owned c i (vecGo c (vDests [va, vb] []) fun s =>
      vecEnd c (s.modEng c fun e =>
        let emax : Int := if fget e.vctl VCTL_MXFMT = 5 then 4 else 2
        let x := fun b => mxScale emax ((List.range 32).map fun j => vVal w (vEl w (e.vr va) (32 * b + j)))
        let f := fun j =>
          let el := vEl w (e.vr va) j
          if x (j / 32) = 255 then el else fround w (fscale (127 - (x (j / 32) : Int)) (vVal w el))
        let old := e.vr vb
        let new : Row := packEls 2048 8 (fun n => if byte ≤ n ∧ n < byte + blocks then x (n - byte) else elW 8 old n) 256
        let e' := e.setV vb new (e.nfOf vb)
        e'.setV vd (vPack w f) (e.nfOf va || (List.range (vEls w)).any fun j => fNonFin w (f j))))) s

/-! The small factorisation (R191-R193). -/

/-- FP32 element (r, j) of a tile. -/
def Core.el (k : Core) (t r j : Nat) : Nat := (el32 (k.row t r) j).toNat

/-- Does a tile fail the shape checks of R192 for size n. -/
def factShape (k : Core) (n t : Nat) : Bool :=
  !k.conf t || decide (fget (k.tcf t) TCFG_FMT ≠ 0) || decide (k.rowsOf t < n) || decide (k.elsOf t < n)

/-- State of the factorisation: l by row * 64 + column, d, pivots replaced, first replaced. -/
structure FactSt where
  l : Tab Nat
  d : Tab Nat
  rep : Nat
  first : Nat
  deriving DecidableEq, Repr

/-- s := a[i][j] less the products of earlier columns (R191). -/
def factSum (a : Nat → Nat → Nat) (i j : Nat) (st : FactSt) : Nat :=
  (List.range j).foldl (fun s k =>
    sub32 s (mul32 (tget 0 st.l (i * 64 + k)) (mul32 (tget 0 st.l (j * 64 + k)) (tget 0 st.d k)))) (a i j)

/-- Column j of the factorisation (R191). -/
def factCol (a : Nat → Nat → Nat) (n fl : Nat) (j : Nat) (st : FactSt) : FactSt :=
  let p := factSum a j j st
  let low := flt false (fdec 0 p) (fdec 0 fl) || fdec 0 p == .nan || fdec 0 fl == .nan
  let st := { st with
    d := tset j (if low then fl else p) st.d
    rep := st.rep + b2n low
    first := if low && st.rep == 0 then j else st.first }
  let rows := rangeFrom (j + 1) n
  let dj := tget 0 st.d j
  { st with l := rows.foldl (fun t i => tset (i * 64 + j) (div32 (factSum a i j st) dj) t) st.l }

/-- Is a Bool list's test met by an element of the lower triangle. -/
def lowerAny (n : Nat) (p : Nat → Nat → Bool) : Bool :=
  (List.range n).any fun i => (List.range (i + 1)).any fun j => p i j

/-- Replace the n × n corner of a tile. -/
def cornerPut (c t n : Nat) (f : Nat → Nat → Nat) (s : State) : State :=
  each (fun r s =>
    let old := (s.core c).row t r
    tileRow c t r (packEls 2048 32 (fun j => if j < n then f r j else (el32 old j).toNat) 64) s) (List.range n) s

/-- VFACT (R191, R192). -/
def opVfact (c td ga ta gb rsv : Nat) (i : Instr) (s : State) : State :=
  let w4 := (td <<< 29) ||| (ga <<< 24) ||| (ta <<< 21) ||| (gb <<< 16) ||| (rsv <<< 7) ||| 0x40
  issue4 c w4 [ga, gb] (decide (rsv = 0)) false (owned c i fun s =>
    let k := s.core c
    let n := (s.g c ga).toNat
    let tau := bits (s.g c gb).toNat 31 0
    let tabs := bits (s.g c gb).toNat 63 32
    let zero : FVal := .fin false 0 0
    let bad := ([td, ta].eraseDups).filter (factShape k n)
    if n = 0 ∨ 64 < n ∨ flt false (fdec 0 tau) zero = true ∨ (fdec 0 tau).isFin = false ∨ flt false zero (fdec 0 tabs) = false ∨
        (fdec 0 tabs).isFin = false then trap c .illegal (n64 w4) s
    else if tileHeld k [ta, td] || writerBusy k ta || tileBusy k td then s
    else if !bad.isEmpty then shapeTrap c bad s
    else if !k.full ta then trap c .tileEmpty (n64 ta) s
    else vecGo c [(0, ta)] (fun s =>
      let a := fun i j => k.el ta i j
      if lowerAny n fun i j => fNonFin 0 (a i j) then
        let s := cornerPut c td n (fun _ _ => fnan 0) s
        vecEnd c ((tileNf c td true s).modEng c fun e => { e with fact := fsetB 0 FACT_STATUS_NONFIN true })
      else
        let dmax := (List.range n).foldl (fun m i => max32 m (a i i % 2 ^ 31)) 0
        let fl := mul32 tau dmax
        let fl := if (fdec 0 fl).isZero then tabs else fl
        let st := (List.range n).foldl (fun st j => factCol a n fl j st) { l := [], d := [], rep := 0, first := 0 : FactSt }
        let out := fun i j => if j < i then tget 0 st.l (i * 64 + j) else if i = j then tget 0 st.d i else 0
        let nf := lowerAny n fun i j => fNonFin 0 (out i j)
        let s := tileNf c td nf (cornerPut c td n out s)
        vecEnd c (s.modEng c fun e =>
          { e with fact := fset (fset (fsetB 0 FACT_STATUS_NONFIN nf) FACT_STATUS_REPLACED st.rep) FACT_STATUS_FIRST st.first })) s) s

/-- z of R193: the forward solve, in ascending order. -/
def solveZ (l : Nat → Nat → Nat) (b : Nat → Nat) (n : Nat) : Tab Nat :=
  (List.range n).foldl (fun z i =>
    tset i (sub32 (b i) ((List.range i).foldl (fun t k => add32 t (mul32 (l i k) (tget 0 z k))) 0)) z) []

/-- x of R193: the backward solve. -/
def solveX (l : Nat → Nat → Nat) (w : Nat → Nat) (n : Nat) : Tab Nat :=
  (List.range n).reverse.foldl (fun x i =>
    tset i (sub32 (w i) ((rangeFrom (i + 1) n).foldl (fun t k => add32 t (mul32 (l k i) (tget 0 x k))) 0)) x) []

/-- VSOLVE (R193). -/
def opVsolve (c vd va ga tf rsv : Nat) (i : Instr) (s : State) : State :=
  let w4 := (vd <<< 27) ||| (va <<< 22) ||| (ga <<< 17) ||| (tf <<< 14) ||| (rsv <<< 7) ||| 0x41
  issue4 c w4 [ga] (decide (rsv = 0)) false (owned c i fun s =>
    let k := s.core c
    let n := (s.g c ga).toNat
    if n = 0 ∨ 64 < n then trap c .illegal (n64 w4) s
    else if tileHeld k [tf] || writerBusy k tf then s
    else if factShape k n tf then shapeTrap c [tf] s
    else if !k.full tf then trap c .tileEmpty (n64 tf) s
    else vecGo c ((0, tf) :: vDests [va] []) (fun s =>
      let l := fun i j => k.el tf i j
      let b := fun i => vEl 0 (k.eng.vr va) i
      let z := solveZ l b n
      let x := solveX l (fun i => div32 (tget 0 z i) (l i i)) n
      let f := fun j => if j < n then tget 0 x j else 0
      vecEnd c (s.modEng c fun e =>
        e.setV vd (vPack 0 f) (e.nfOf va || (List.range n).any fun j => fNonFin 0 (f j)))) s) s

end Sys2Proof.Machine
end

