-- ==== Sys2Proof/Machine/Rights.lean ====
section
/-! DEFINITION. Who may reach a register (R84, R165, R225, R266-R268, R337, R338, R359, R365, R394, R422, R442, R443, R468,
R488, R494, R509, R520, R523), locks (R13, R14), and the write of a register by its access types (R13). -/

namespace Sys2Proof.Machine

/-- ROLE of a Headgate (R492): 0 NONE, 1 FOLLOWER, 2 MASTER, 3 SPLIT. -/
def hgRole (s : State) (h : Nat) : Nat := s.fld (rHG_STAT h) HG_STAT_ROLE

/-- May a Headgate or the companion do what only the master or the companion may (R494). -/
def masterOr (s : State) : Origin → Bool
  | .core _ => false
  | .hg h => hgRole s h == 2
  | .comp => true

/-- Is the origin a Headgate or the companion management path. -/
def isMgmt : Origin → Bool
  | .core _ => false
  | _ => true

/-- Partition of an origin: a core's own. -/
def Origin.part (s : State) : Origin → Option Nat
  | .core c => some (s.part c)
  | _ => none

/-- Rights in the LEDGER block (R266). -/
def ledgerRight (p : Nat) (w : Bool) (off : Nat) : Bool :=
  if off < 0x10 then !w
  else if 0x100 ≤ off ∧ off < 0x300 then
    decide ((off - 0x100) / 0x40 = p) && (!w || decide ((off - 0x100) % 0x40 = 0) || decide ((off - 0x100) % 0x40 = 0x20))
  else if 0x300 ≤ off ∧ off < 0x400 then decide ((off - 0x300) / 0x20 = p) && !w
  else decide (0x1000 ≤ off) && decide ((off - 0x1000) / 0x100 = p)

/-- Rights in the GAUGE block (R165). -/
def gaugeRight (p : Nat) (w : Bool) (off : Nat) : Bool :=
  if off < 0x1000 then !w else decide ((off - 0x1000) / 0x100 = p)

/-- Rights of M-level code of core `c` to a register of a block (instance `i`, offset `off`). -/
def coreMay (s : State) (c : Nat) (w : Bool) (b : Blk) (i off : Nat) : Bool :=
  let p := s.part c
  match b with
  | .chip => true
  | .part | .weir | .canal | .splice | .slice | .lc | .spillway | .cal | .telem | .fuse => !w
  | .errlog => !w || (decide (0x5000 ≤ off) && decide (off < 0x7000) && s.owns p ((off - 0x5000) / 8))
  | .hg => !w && (off == 0 || off == 0x8 || off == 0x48 || off == 0x60)
  | .cleat => !w && ([0x10, 0x18, 0x20, 0x28, 0x30].contains off || (decide (0x40 ≤ off) && decide (off < 0x60)) ||
      (decide (0x100 ≤ off) && decide (off < 0x200)))
  | .logline => decide (off / 0x100 = p)
  | .core | .flume | .culvert | .knot => s.owns p i
  | .sc => if off < 0x50000 then (if off = 0x40000 ∨ off = 0x40008 then w else !w || off == 0x40018) else !w
  | .ledger => ledgerRight p w off
  | .gauge => gaugeRight p w off
  | .chipknot => true
  | .hitch => !w || decide (off < 0x1000)
  | .hawser =>
    !w || (decide (0x1000 ≤ off) &&
      (off == 0x1400 || (s.fld (rHC_CFG i ((off - 0x1000) / 0x40)) HC_CFG_PART == p &&
        [0x00, 0x08, 0x20, 0x38].contains ((off - 0x1000) % 0x40))))
  | .capstan => !w || off == 0x30 || off == 0x38
  | .tether =>
    if w then decide (off = 0x200 + 8 * p)
    else off == 0 || (decide (0x18 ≤ off) && decide (off < 0x70))

/-- Offsets of the STACK block that a write may reach: SLU_DOORBELL, SLU_BCAST, SLU_ERR and SLU_CTL of the Sluice registers
(R225), and all outside them. -/
def sluMay (w : Bool) (off : Nat) : Bool :=
  !w || off < 0x40000 || 0x40060 ≤ off || [0x40000, 0x40008, 0x40018, 0x40020].contains off

/-- Rights of a Headgate. -/
def hgMay (s : State) (h : Nat) (w : Bool) (b : Blk) (i off : Nat) : Bool :=
  let m := !w || hgRole s h == 2
  match b with
  | .part => off ≥ 0x80 || m
  | .fuse => !w
  | .cal => m
  | .cleat => off != 0 || m
  | .gauge => !(decide (0x10 ≤ off) && decide (off < 0x50)) || m
  | .hg => off != 0x30 || m
  | .core | .flume | .culvert | .knot => coreOpen s i
  | .sc => sluMay w off
  | .tether =>
    if w && decide (0x1000 ≤ off) && decide (off < 0x3000) then
      let o := off % 0x1000
      o == 0x200 || (decide (0x100 ≤ o) && decide (o < 0x200) && (off - 0x1000) / 0x1000 == h)
    else true
  | _ => true

/-- Rights of the companion management path. -/
def compMay (s : State) (w : Bool) (b : Blk) (i off : Nat) : Bool :=
  match b with
  | .fuse => !w
  | .core | .flume | .culvert | .knot => coreOpen s i
  | .sc => sluMay w off
  | .tether =>
    !w || !(off == 0x10 || (decide (0x1000 ≤ off) && decide (off < 0x3000) && decide (0x100 ≤ off % 0x1000) &&
      decide (off % 0x1000 < 0x200)))
  | _ => true

/-- May the origin read (or write, `w`) the register at offset `a` of register space.  The blocks of a core ID that addresses no
core, a hidden core's among them, are unassigned (R15, R41). -/
def mayReg (s : State) (o : Origin) (w : Bool) (a : Nat) : Bool :=
  match blkOf a with
  | none => false
  | some (b, i, off) =>
    let there := match b with
      | .core | .flume | .culvert | .knot => coreIdOk i && (s.core i).enabled
      | _ => true
    there && a % 8 == 0 && (findRow (blkRows b) off).isSome &&
      (match o with
       | .core c => coreMay s c w b i off
       | .hg h => hgMay s h w b i off
       | .comp => compMay s w b i off)

/-- Is the block's lock bit set (R14). -/
def locked (s : State) (a : Nat) : Bool :=
  match blkOf a with
  | some (.gauge, _, _) => s.flag rGAUGE_CTL GAUGE_CTL_LOCK
  | some (.ledger, _, _) => s.flag rLG_CTL LG_CTL_LOCK
  | some (.weir, _, _) => s.flag rWEIR_CTL WEIR_CTL_LOCK
  | some (.canal, _, _) => s.flag rCN_CTL CN_CTL_LOCK
  | some (.errlog, _, _) => s.flag rEL_REPAIR EL_REPAIR_LOCK
  | _ => false

/-- The value a register takes from a write by its access types (R13): RW and unlocked RWL fields take the written bits,
W1C bits written as 1 are cleared, all others keep. -/
def typedWrite (s : State) (a : Nat) (v : Word) : State :=
  match regRow a with
  | none => s
  | some r =>
    let m := n64 (r.rw ||| (if locked s a then 0 else r.rwl))
    s.setReg a (((s.reg a &&& ~~~ m) ||| (v &&& m)) &&& ~~~ (v &&& n64 r.w1c))

/-- The bits of a register that a read returns: write-only bits read 0 (R13). -/
def readMask (a : Nat) : Word :=
  match regRow a with
  | some r => ~~~ (n64 r.wo)
  | none => 0

/-- The value of a register after a read: RC bits are cleared (R13). -/
def readClear (s : State) (a : Nat) : State :=
  match regRow a with
  | some r => if r.rc = 0 then s else s.setReg a (s.reg a &&& ~~~ (n64 r.rc))
  | none => s

/-- A Headgate's or the companion's access to a core in a partition reset is answered with a NACK, which is counted (R362,
R364). -/
def gateNack (o : Origin) (a : Nat) (s : State) : State :=
  match blkOf a with
  | some (b, i, _) =>
    if isMgmt o && (b == .core || b == .flume || b == .culvert || b == .knot) && coreIdOk i && (s.core i).enabled && !coreOpen s i then
      s.countSat (rPT_STAT (s.part i)) PT_STAT_NACK 1
    else s
  | none => s

/-- A register-space write that answers: refused without the right or by `ok`, else done (R11). -/
def regWrite (o : Origin) (a : Nat) (ok : State → Bool) (f : State → State) (s : State) : State :=
  if mayReg s o true a && ok s then { f s with rsp := .ok 0 } else { gateNack o a s with rsp := .err }

end Sys2Proof.Machine
end

