-- ==== Sys2Proof/Machine/Gauge.lean ====
section
/-! DEFINITION. The Gauge commands (R155, R157-R167): GROLL and its slices' updates, the window, the stochastic seeds and
the tag ranges. -/

namespace Sys2Proof.Machine

/-- The least BF16 value not below m * 2^e, or the largest finite one (R163). -/
def upBf16 (m : Nat) (e : Int) : Nat :=
  if m = 0 then 0
  else
    let q := ulpExp 1 m e
    let (k, r, _) := splitUlp m e q
    min (fencUnits 1 false (if r = 0 then k else k + 1) q) 0x7F7F

/-- round_up_bf16 of an exact value: toward +∞, a negative one too, and none for a NaN (R163). -/
def roundUpBf16 : FVal → Option Nat
  | .fin false m e => some (upBf16 m e)
  | .fin true m e =>
    let q := ulpExp 1 m e
    some (if m = 0 then 0x8000 else fencUnits 1 true (splitUlp m e q).1 q)
  | .inf neg => some (if neg then 0xFF80 else 0x7F7F)
  | .nan => none

/-- val of a history slot (R163): NaN and negative count as 0, +∞ as the largest finite value. -/
def slotVal (x : Nat) : Nat := if 0x8000 ≤ x then 0 else if x = 0x7F80 then 0x7F7F else if 0x7F80 < x then 0 else x

/-- History slot `k` of an entry (R158). -/
def histSlot (s : State) (tag k : Nat) : Nat := bits (s.gw tag (3 + k / 4)).toNat (k % 4 * 16 + 15) (k % 4 * 16)

/-- Write a history slot. -/
def setHist (tag k v : Nat) (s : State) : State :=
  s.setGw tag (3 + k / 4) (fset (s.gw tag (3 + k / 4)) ⟨k % 4 * 16 + 15, k % 4 * 16⟩ v)

/-- The largest n with h * 2^n ≤ Fmax, for a positive BF16 value h (R161). -/
def scaleN (fmt h : Nat) : Int :=
  match fdec 1 h with
  | .fin _ m e =>
    let (fm, fe) := fmaxVal fmt
    let n : Int := flog2 fm + fe - (flog2 m + e)
    if magLt fm fe m (e + n) then n - 1 else n
  | _ => 0

/-- An integer between two bounds. -/
def clampI (x lo hi : Int) : Int := if x < lo then lo else if hi < x then hi else x

/-- GROLL on one entry (R163). -/
def rollEntry (tag : Nat) (s : State) : State :=
  let w0 := s.gw tag 0
  let fmt := fget w0 gFMT
  let sc := sext 8 (fget w0 gS)
  let am := fget (s.gw tag 1) gAMAX
  let nf := fbit w0 gNF
  let (fm, fe) := fmaxVal fmt
  let back := upBf16 (2 * fm) (fe - sc)
  -- a NaN amax gives no stated slot: a free one (log 31)
  let (slot, s) := match roundUpBf16 (fdec 0 am) with
    | some x => (if nf then (if 0x8000 ≤ x then back else max x back) else x, s)
    | none => ((Config.freeWord s.free).toNat % 65536, { s with free := s.free + 1 })
  let s := if nf then s.setGw tag 2 (faddSat (s.gw tag 2) ⟨63, 32⟩ 1) else s
  let tooBig := match fdec 0 am with
    | .fin false m e => magLt fm fe m (e + sc)
    | .inf false => true
    | _ => false
  let s := if tooBig then s.setGw tag 1 (faddSat (s.gw tag 1) gCLIP 1) else s
  let hp := fget w0 gHP
  let s := setHist tag hp slot s
  let hp := (hp + 1) % 16
  let h := (List.range (fget w0 gLM1 + 1)).foldl (fun a j => max a (slotVal (histSlot s tag ((hp + 31 - j) % 16)))) 0
  let mg : Int := fget w0 gMARGIN
  let ns := if fmtScaled fmt && decide (0 < h) then clampI (scaleN fmt h) (-128 + mg) (127 + mg) - mg else sc
  let s := s.setGw tag 1 (fset (s.gw tag 1) gAMAX 0)
  gaugeArm tag (s.setGw tag 0 (fset (fset (fsetB (s.gw tag 0) gNF false) gHP hp) gS (ns + 256).toNat))

/-- Operand checks of GROLL (R162). -/
def grollLegal (a b : Word) : Bool :=
  decide (a.toNat < 65536) && decide (1 ≤ b.toNat) && decide (b.toNat ≤ 65536) && decide (a.toNat + b.toNat ≤ 65536)

/-- Home slices of the tags of a range. -/
def rollSlices (s : State) (first count : Nat) : List Nat :=
  (List.range 256).filter fun n => (List.range count).any fun j => gaugeHome s (first + j) == n

/-- GROLL (R162, R164): it retires once checked, and GD is written when every slice has reported. -/
def opGroll (c gd ga gb fn : Nat) (s : State) : State :=
  let w := encS 0x47 gd ga gb fn
  issue4 c w [gd, ga, gb] (decide (fn = 0)) false (fun s =>
    let a := s.g c ga
    let b := s.g c gb
    if !grollLegal a b then trap c .illegal (n64 w) s
    else
      let k := s.core c
      let r : Groll := { ctx := k.run, gd := gd, part := s.part c, first := a.toNat, count := b.toNat,
                         left := rollSlices s a.toNat b.toNat, upd := 0 }
      (s.setCore c { k with rolls := k.rolls ++ [r], gpend := if gd = 0 then k.gpend else (k.run, gd) :: k.gpend }).retire c 4) s

/-- Roll or skip one tag of a range at its home slice (R160, R163): whether it was updated, and the new state.  DESIGN CHOICE (log 66):
ROLLED and SKIPPED saturate, which R165 does not say. -/
def rollTag (p tag : Nat) (s : State) : Bool × State :=
  if !ownsTag s p tag then (false, s.countSat rGROLL_STAT GROLL_STAT_SKIPPED 1)
  else
   let s := gaugeLine tag s
   if gaugeBad s tag then (false, (gaugeErr tag s).countSat rGROLL_STAT GROLL_STAT_SKIPPED 1)
   else (true, (rollEntry tag s).countSat rGROLL_STAT GROLL_STAT_ROLLED 1)

/-- Roll the tags of a list. -/
def rollTags (p : Nat) : List Nat → State → Nat × State
  | [], s => (0, s)
  | t :: r, s =>
    let (u, s) := rollTag p t s
    let (n, s) := rollTags p r s
    (b2n u + n, s)

/-- GROLL_SLICE_UPDATE: slice `n` performs its part of the oldest GROLL of core `c` that waits for it (R163, R164). -/
def grollSlice (c n : Nat) (s : State) : State :=
  match (s.core c).rolls.findIdx? fun r => lhas n r.left with
  | none => s
  | some j =>
    match (s.core c).rolls[j]? with
    | none => s
    | some r =>
      let tags := (rangeFrom r.first (r.first + r.count)).filter fun t => gaugeHome s t == n
      let (u, s) := rollTags r.part tags s
      s.modCore c fun k => { k with rolls := k.rolls.set j { r with left := ldrop n r.left, upd := r.upd + u } }

/-- GROLL_COMPLETE: the last slice's report has returned and GD is written (R164). -/
def grollComplete (c : Nat) (s : State) : State :=
  match (s.core c).rolls with
  | [] => s
  | r :: rest =>
    if !r.left.isEmpty then s
    else
      let s := s.modCore c fun k => { k with rolls := rest, gpend := k.gpend.erase (r.ctx, r.gd) }
      s.modCtx c r.ctx fun x => x.setG r.gd (n64 r.upd)

/-- A window READ (R159, R167). -/
def windowRead (p : Nat) (s : State) : State :=
  let tag := s.fld (rGE_INDEX p) GE_INDEX_TAG
  if !ownsTag s p tag then s.setFlag (rGE_STAT p) GE_STAT_FAIL true
  else
   let s := gaugeLine tag s
   if gaugeBad s tag then (gaugeErr tag s).setFlag (rGE_STAT p) GE_STAT_FAIL true
   else upto (fun w s => s.setReg (rGE_DATA p w) (s.gw tag w)) 16 s

/-- May a window WRITE put these words into an entry (R159). -/
def entryLegal (s : State) (p mask : Nat) : Bool :=
  let d := fun w => (s.reg (rGE_DATA p w)).toNat
  (!bit mask 0 || (decide (bits (d 0) 34 32 = 0) && decide (bits (d 0) 37 36 ≠ 3) && decide (bits (d 0) 55 52 ≤ 8))) &&
    (!bit mask 2 || decide (bits (d 2) 31 0 = 0)) &&
    (!bit mask 7 || (decide (bits (d 7) 63 48 = 0) && decide (bits (d 7) 2 0 = 0)))

/-- The entry's line in its home is whole again (R160). -/
def gaugeHeal (tag : Nat) (s : State) : State :=
  let w0 := gaugePa s tag / 4
  { s with badw := s.badw.filter fun w => !(decide (w0 ≤ w) && decide (w < w0 + 32))
           flips := s.flips.filter fun x => !(decide (w0 ≤ x.1) && decide (x.1 < w0 + 32)) }

/-- A slice after a WRITE of a tag's word 0: the tag leaves the attribute cache, and with USES ≠ 0 its lines are no longer
SPENT (R239, R240). -/
def renewTag (tag : Nat) (live : Bool) (x : Slice) : Slice :=
  { x with
    attr := x.attr.filter fun a => a.1 != tag
    spentTags := if live then ldrop tag x.spentTags else x.spentTags
    lines := x.lines.map fun l => if live && l.tag == tag then { l with spent := false } else l }

/-- A window WRITE of the words in `mask` (R159, R160, R167); a WRITE of every word renews the tag (R239). -/
def windowWrite (p mask : Nat) (s : State) : State :=
  let tag := s.fld (rGE_INDEX p) GE_INDEX_TAG
  let fail := fun (s : State) => s.setFlag (rGE_STAT p) GE_STAT_FAIL true
  if !ownsTag s p tag || !entryLegal s p mask then fail s
  else
   let s := gaugeLine tag (if mask = 0xFFFF then gaugeHeal tag s else s)
   if gaugeBad s tag && decide (mask ≠ 0xFFFF) then fail (gaugeErr tag s)
   else
    let s := upto (fun w s => if bit mask w then s.setGw tag w (s.reg (rGE_DATA p w)) else s) 16 s
    let s := if (resident s (gaugePa s tag / 128)).isSome then s else fill (gaugeHome s tag) (gaugePa s tag / 128) 0 0 false s
    let s := if mask = 0 then s else gaugeArm tag s
    if bit mask 0 then { s with slices := s.slices.map fun x => (x.1, renewTag tag (fget (s.gw tag 0) gUSES != 0) x.2) } else s

/-- A write of GE_CMD (R165, R167): OP 1 READ, 2 WRITE, others no action. -/
def geCmd (p : Nat) (v : Word) (s : State) : State :=
  match fget v GE_CMD_OP with
  | 1 => windowRead p s
  | 2 => windowWrite p (fget v GE_CMD_WMASK) s
  | _ => s

/-- A write of SR_SEED: the seed goes to every core of the partition (R155). -/
def srSeedWrite (o : Origin) (p : Nat) (v : Word) (s : State) : State :=
  let (d, i) := match o with | .core c => (c, (s.core c).run) | _ => (1024, 0)
  each (fun c s => s.modCore c fun k => { k with seed := some (v, d, i) }) (s.partCores p) s

/-- SEED_APPLY: a core takes the seed at its next instruction boundary (R155). -/
def seedApply (c : Nat) (s : State) : State :=
  s.modCore c fun k => match k.seed with
    | some (v, _, _) => { k with sr := srSeed v c, seed := none }
    | none => k

/-- Does a value of GRANGE overlap an enabled range of another partition (R166). -/
def grangeClash (s : State) (p : Nat) (v : Word) : Bool :=
  fbit v GRANGE_EN && (List.range 8).any fun q => decide (q ≠ p) && s.flag (rGRANGE q) GRANGE_EN &&
    decide (fget v GRANGE_LO ≤ s.fld (rGRANGE q) GRANGE_HI) && decide (s.fld (rGRANGE q) GRANGE_LO ≤ fget v GRANGE_HI)

/-- Is a GRANGE write accepted (R166). -/
def grangeOk (p : Nat) (v : Word) (s : State) : Bool :=
  decide (fget v GRANGE_LO ≠ 0) && decide (fget v GRANGE_LO ≤ fget v GRANGE_HI) && !grangeClash s p v

/-- GAUGE_WINDOW_READ: a write of GE_CMD with OP = 1. -/
def opWindowRead (o : Origin) (p : Nat) (s : State) : State :=
  regWrite o (rGE_CMD p) (fun _ => true) (windowRead p) s

/-- GAUGE_WINDOW_WRITE: a write of GE_CMD with OP = 2 and a word mask. -/
def opWindowWrite (o : Origin) (p mask : Nat) (s : State) : State :=
  regWrite o (rGE_CMD p) (fun _ => true) (windowWrite p (mask % 65536)) s

/-- SR_SEED. -/
def opSrSeed (o : Origin) (p : Nat) (v : Word) (s : State) : State :=
  regWrite o (rSR_SEED p) (fun _ => true) (srSeedWrite o p v) s

/-- GRANGE_WRITE. -/
def opGrange (o : Origin) (p : Nat) (v : Word) (s : State) : State :=
  regWrite o (rGRANGE p) (grangeOk p v) (fun s => typedWrite s (rGRANGE p) v) s

end Sys2Proof.Machine
end

