-- ==== Sys2Proof/Machine/Memory.lean ====
section
/-! DEFINITION. Requests at their homes and the answers to them (R20, R29, R45, R58, R230, R232, R239, R242, R258-R265,
R447-R449, R455): reads, writes, atomics, merges, buffers, slots, credits and prefetches. -/

namespace Sys2Proof.Machine

/-! Serving one request at its home. -/

/-- The new word of an atomic (R58): operation, width in bits, old word, GB, incoming GD. -/
def atomNew (op w old gb gd : Nat) : Nat :=
  let b := gb % 2 ^ w
  let r : Nat := match op with
    | 0 => b
    | 1 => (old + b) % 2 ^ w
    | 2 => old &&& b
    | 3 => old ||| b
    | 4 => nxor old b
    | 5 => if sext w old < sext w b then b else old
    | 6 => if sext w b < sext w old then b else old
    | 7 => max old b
    | 8 => min old b
    | _ => if old = gd % 2 ^ w then b else old
  r % 2 ^ w

/-- Is an endpoint a core. -/
def isCoreEp (e : Nat) : Bool := decide (e < 0x400)
/-- Is an endpoint a slice. -/
def isSliceEp (e : Nat) : Bool := decide (0x400 ≤ e) && decide (e < 0x500)

/-- A request leaves a slice's buffer: the credit returns to the core that sent it (R260). -/
def giveCredit (p : Packet) (s : State) : State :=
  if isSliceEp p.dst && isCoreEp p.src then s.send (mkPkt p.src p.dst clsRSP opCREDIT p.part 0) else s

/-- Serve a read (R20, R232, R234, R239): the response says its line's class and SPENT state. -/
def serveRd (p : Packet) (s : State) : State :=
  let line := p.addr / 128
  let (d, bad, s) := homeRead line p.part p.tag (decide (p.tag ≠ 0)) p.snap true s
  let tag := effTag s p.part p.tag
  s.send { reply p opRD_DATA with
    payload := d, bad := BitVec.ofNat 32 bad, tag := tag, size := 128, len16 := 8, sub := rspAttr s line tag p.snap }

/-- Serve a write (R29, R45): an uncached write to the companion window is answered when the companion has answered; the ack
of a write that the companion failed carries a bad mark (R419).  A
write with an uncorrectable word in its payload is lost (R453). -/
def serveWr (p : Packet) (s : State) : State :=
  let line := p.addr / 128
  if p.bad ≠ 0 then
    logErr .writeLost p.dst 12 (ctz 32 p.bad.toNat) 0 0 0 false (s.send (reply p opWR_ACK))
  else
  let outside := isCw p.addr && ((s.slice (homeSlice s p.addr)).comp.find? fun x => x.1 == line).isNone
  if isCw p.addr && tget? line s.cwBuf == some none then
    { s with cwBuf := tdel line s.cwBuf }.send { reply p opWR_ACK with bad := 1 }
  else
  let s := homeWrite line (cellsMask p.payload p.mask 128) p.part p.tag p.fmt p.nf p.snap true 0 (some p) s
  if outside then s else s.send (reply p opWR_ACK)

/-- Serve an atomic (R58): the operation is `sub` over 2, the width `sub` mod 2; operands in the payload. -/
def serveAtom (p : Packet) (s : State) : State :=
  let sz := if p.sub % 2 = 1 then 8 else 4
  let line := p.addr / 128
  let bad := badIn s p.part p.addr sz
  let old := s.rdNat p.addr sz
  let (d, bm, s) := homeRead line p.part 0 false false true s
  let new := atomNew (p.sub / 2) (8 * sz) old (bits p.payload.toNat 63 0) (bits p.payload.toNat 127 64)
  let s := if bad.isSome then s
    else homeWrite line (cellsFrom (p.addr % 128) (leBytes sz new)) p.part 0 0xF false false true 0 none s
  s.send { reply p opRD_DATA with payload := d, bad := BitVec.ofNat 32 bm, size := sz, len16 := 1 }

/-- Does a request write. -/
def pktWrites (p : Packet) : Bool := p.op == opWR || p.op == opATOM

/-- Serve a request whose gate is open. -/
def serveReq (p : Packet) (s : State) : State :=
  let s := giveCredit p s
  if p.op = opWR then serveWr p s else if p.op = opATOM then serveAtom p s else serveRd p s

/-- The mark, in `cause`, of a write that its home accepted before a migration of its page began (R258). -/
abbrev mgOld : Nat := 8

/-- May a request be served now: a write accepted before the migration of its page began is not held by it (R258). -/
def gateFor (p : Packet) (s : State) : Bool :=
  let f := frameOf p.addr
  gateOpen (p.addr / 128) (pktWrites p) (if p.cause = mgOld then s.setLe f { s.le f with mig := false } else s)

/-- Serve a request, or hold it until its home may serve it (R258, R409, R430, R461). -/
def serveOrHold (p : Packet) (s : State) : State :=
  let line := p.addr / 128
  if !(s.held.any fun q => q.addr / 128 == line) && gateFor p s then serveReq p s
  else
    let s := gatePrep line p.part p.tag p.fmt (pktWrites p) s
    { s with held := s.held ++ [p] }

/-! Buffers and slots (R259-R262). -/

/-- Lines that hold slots of a slice: admitted reads, line writes and write-backs. -/
def slotLines (x : Slice) : List Nat :=
  ((x.reqs.filter fun (r : SReq) => r.admitted).map fun (r : SReq) => r.pkt.addr / 128).eraseDups ++ x.wbs

/-- Slots of a pseudo-channel of a slice in use: 2 per admitted line and per line write (R259). -/
def pcSlots (s : State) (n pc : Nat) : Nat :=
  let x := s.slice n
  2 * ((slotLines x).filter fun l =>
    saPc (hbmMap s (l * 128)).2 == pc).length

/-- Slots that the requests of one bank hold. -/
def bankSlots (s : State) (n pc bank : Nat) : Nat :=
  let x := s.slice n
  2 * ((slotLines x).filter fun l =>
    saPc (hbmMap s (l * 128)).2 == pc && saBank (hbmMap s (l * 128)).2 == bank).length

/-- May a miss be admitted into slots (R260). -/
def roomFor (s : State) (n pa : Nat) : Bool :=
  let sa := (hbmMap s pa).2
  decide (pcSlots s n (saPc sa) ≤ 510) && decide (bankSlots s n (saPc sa) (saBank sa) ≤ 62)

/-- Request-buffer entries of a slice in use. -/
def bufUsed (s : State) (n : Nat) : Nat :=
  (s.slice n).reqs.length + (s.held.filter fun p => p.dst == epSlice n).length

/-- A request has entered the buffer of the slice it went to: the highest use of it (R267). -/
def bufPeak (s : State) (p : Packet) : State :=
  if isSliceEp p.dst then
    let n := p.dst - 0x400
    s.setReg (rSL_BUF_PEAK n) (n64 (max (s.reg (rSL_BUF_PEAK n)).toNat (bufUsed s n)))
  else s

/-- Put a request into a slice's buffer. -/
def bufferReq (n : Nat) (p : Packet) (s : State) : State :=
  let x := s.slice n
  let wait := !roomFor s n p.addr
  let s := s.setSlice n { x with reqs := x.reqs ++ [{ pkt := p, admitted := false, waited := wait }] }
  bufPeak (if wait then s.count (rSL_CAPWAIT n) 1 else s) p

/-- Buffered misses that find no room now and have not waited before: each is counted once (R267). -/
def capWaits (n : Nat) (s : State) : State :=
  let x := s.slice n
  let late := fun (r : SReq) => !r.admitted && !r.waited && !roomFor s n r.pkt.addr
  (s.setSlice n { x with reqs := x.reqs.map fun r => if late r then { r with waited := true } else r }).count (rSL_CAPWAIT n)
    (x.reqs.filter late).length

/-- SLICE_MISS_ADMIT: the first buffered miss whose pseudo-channel and bank have room (R260). -/
def sliceMissAdmit (n : Nat) (s : State) : State :=
  let x := s.slice n
  match x.reqs.findIdx? fun r => !r.admitted && roomFor s n r.pkt.addr &&
      !(x.reqs.any fun q => q.admitted && q.pkt.addr / 128 == r.pkt.addr / 128) with
  | none => s
  | some j => capWaits n (s.setSlice n { x with reqs := x.reqs.modify j fun r => { r with admitted := true } })

/-- An LPDDR5X controller. -/
def State.lc (s : State) (n : Nat) : Lc := tget Lc.reset s.lcs n
/-- Replace it. -/
def State.setLc (s : State) (n : Nat) (x : Lc) : State := { s with lcs := tset n x s.lcs }

/-- Does the request's bank hold its 32 requests (R262). -/
def lcBankFull (s : State) (n pa : Nat) : Bool :=
  decide (32 ≤ ((s.lc n).queue.filter fun p => (lpMap p.addr).2 == (lpMap pa).2).length)

/-- Has the request's bank and channel room in the command queues (R262). -/
def lcRoom (s : State) (n pa : Nat) : Bool :=
  let q := (s.lc n).queue
  let (_, ch, _) := lpMap pa
  decide ((q.filter fun p => (lpMap p.addr).2.1 == ch).length < 128) && !lcBankFull s n pa

/-- Put a request into an LPDDR5X controller's queue, or its input; one held at the bank limit is counted (R262, R268). -/
def lcQueue (n : Nat) (p : Packet) (s : State) : State :=
  let x := s.lc n
  if lcRoom s n p.addr && !(x.input.any fun q => q.addr / 128 == p.addr / 128) then s.setLc n { x with queue := x.queue ++ [p] }
  else (s.setLc n { x with input := x.input ++ [p] }).count (rLC_CAPWAIT n) (b2n (lcBankFull s n p.addr))

/-- Does the Canal hold a request back because its LPDDR5X controller's input is full (R262). -/
def lcFull (s : State) (p : Packet) : Bool := isLp p.addr && decide (64 ≤ (s.lc (lpMap p.addr).1).input.length)

/-- LC_QUEUE_ADMIT: the first waiting request whose bank has room enters the queue (R262). -/
def lcQueueAdmit (n : Nat) (s : State) : State :=
  let x := s.lc n
  match ltake (fun p => lcRoom s n p.addr) x.input with
  | none => s
  | some (p, rest) => s.setLc n { input := rest, queue := x.queue ++ [p] }

/-- Do requests to the line wait in its home's buffer already. -/
def lineQueued (s : State) (line : Nat) : Bool :=
  let pa := line * 128
  if isLp pa then
    let x := s.lc (lpMap pa).1
    (x.queue ++ x.input).any fun p => p.addr / 128 == line
  else (s.slice (homeSlice s pa)).reqs.any fun r => r.pkt.addr / 128 == line

/-- A REQUEST ARRIVES AT ITS HOME (R20): behind the held and buffered requests of its line; else held, buffered for a
memory read, or served. -/
def homeAccept (p : Packet) (s : State) : State :=
  let line := p.addr / 128
  let pa := p.addr
  if s.held.any fun q => q.addr / 128 == line then bufPeak { s with held := s.held ++ [p] } p
  else if !gateFor p s then bufPeak (gatePrep line p.part p.tag p.fmt (pktWrites p) { s with held := s.held ++ [p] }) p
  else if isLp pa then
    (if p.op = opWR ∧ lineQueued s line = false ∧ lcRoom s (lpMap pa).1 pa = true then serveReq p s else lcQueue (lpMap pa).1 p s)
  else if isCw pa then serveReq p s
  else
    let n := homeSlice s pa
    if lineQueued s line then bufferReq n p s
    else if p.op ≠ opWR ∧ (resident s line).isNone = true then bufferReq n p s
    else serveReq p s

/-- Requests held at their homes try again in order of arrival. -/
def releaseHeld (s : State) : State := each homeAccept s.held { s with held := [] }

/-- Is a request to the same line that its source sent before still on its way (R44). -/
def behind (p : Packet) (s : State) : Bool :=
  s.inNet p && (s.net.takeWhile fun q => q != p).any fun q =>
    q.cls == clsREQ && q.src == p.src && q.addr / 128 == p.addr / 128 && (q.op == opRD || q.op == opWR || q.op == opATOM)

/-- A request row: the packet leaves the fabric, or comes from an agent outside, and is accepted (log 9); requests of one
source to one line arrive in order. -/
def request (op : Nat) (p : Packet) (s : State) : State :=
  if p.op ≠ op || behind p s || lcFull s p then s else homeAccept p (s.unsend p)

/-- What the storage reports with a read (R447, R448): no error, a lower severity, or uncorrectable. -/
def readReport (ep line sev : Nat) (unc : Bool) (s : State) : State :=
  if unc then { s with badw := (List.range 32).foldl (fun l i => ladd (line * 32 + i) l) s.badw }
  else if sev ≠ 0 ∧ ep < 0x510 then logWord .ce (line * 32) sev s
  else s

/-- MEMORY_READ_DONE: the read of a line completes and the requests to it are served in order (R236, R260, R447). -/
def memoryReadDone (ep line sev : Nat) (unc : Bool) (s : State) : State :=
  if chanHeld s line then s
  else if isSliceEp ep then
    let n := ep - 0x400
    let x := s.slice n
    if x.reqs.any fun r => r.admitted && r.pkt.addr / 128 == line then
      let mine := x.reqs.filter fun r => r.pkt.addr / 128 == line
      let s := s.setSlice n { x with reqs := x.reqs.filter fun r => r.pkt.addr / 128 != line }
      each (fun (r : SReq) s => serveOrHold r.pkt s) mine (readReport ep line sev unc s)
    else s
  else
    let n := ep - 0x510
    let x := s.lc n
    if x.queue.any fun p => p.addr / 128 == line then
      let mine := x.queue.filter fun p => p.addr / 128 == line
      let s := s.setLc n { x with queue := x.queue.filter fun p => p.addr / 128 != line }
      each serveOrHold mine (readReport ep line sev unc s)
    else s

/-- WRITE_BACK_DONE: a line write completes and frees its 2 slots (R259), unless a recalibration holds its channel (R39). -/
def writeBackDone (n line : Nat) (s : State) : State :=
  let x := s.slice n
  if chanHeld s line then s
  else s.setSlice n { x with wbs := x.wbs.erase line }

/-- Do demand requests wait at the home of an address (R265). -/
def demandWaits (s : State) (pa : Nat) : Bool :=
  (s.held.any fun q => q.dst == homeEp s pa) ||
    (if isLp pa then let x := s.lc (lpMap pa).1; !(x.input ++ x.queue).isEmpty else !(s.slice (homeSlice s pa)).reqs.isEmpty)

/-- PF_RD at a home (R265, R409): behind the demand requests that wait there, with no side effects; a line that the companion
holds, that is under test, or whose channel is held, drops it. -/
def pfRead (p : Packet) (s0 : State) : State :=
  let s := s0.unsend p
  let line := p.addr / 128
  if p.op ≠ opPF_RD ∨ isCw p.addr = true then s
  else if demandWaits s p.addr then s0
  else if !gateOpen line false s then
    (if snoopOut s line || inTest s line || (chanHeld s line && (resident s line).isNone) then s else s.count rTT_PFSKIP 1)
  else if badMask s p.part line 32 ≠ 0 then s
  else
    let s := if isLp p.addr then s.count (rLC_RD (lpMap p.addr).1) 128
      else if (resident s line).isSome then s else fill (homeSlice s p.addr) line 0 p.part p.snap s
    if isCoreEp p.src then
      s.send { reply p opRD_DATA with
        payload := s.rdLine line, size := 128, len16 := 8, sub := pfMark + rspAttr s line 0 p.snap }
    else s

/-- MERGE at the entry's home slice (R29, R129, R180): a tag that its PART does not own is counted and treated as untagged
(R32); a core's merge is answered. -/
def mergeArrive (p : Packet) (s : State) : State :=
  if p.op ≠ opMERGE then s
  else
    let s := tagCheck p.part p.tag (s.unsend p)
    let tag := effTag s p.part p.tag
    let s := if tag = 0 then s else mergeEntry tag (bits p.payload.toNat 31 0) p.nf s
    if p.cls = clsREQ then (giveCredit p s).send (reply p opWR_ACK) else s

/-- SPENT at a slice (R239). -/
def spentArrive (p : Packet) (s : State) : State :=
  if p.op ≠ opSPENT ∨ isSliceEp p.dst = false then s
  else
    let n := p.dst - 0x400
    let s := s.unsend p
    let x := s.slice n
    s.setSlice n { x with
      spentTags := ladd p.tag x.spentTags
      attr := x.attr.map fun a => if a.1 = p.tag then (a.1, a.2.1, true) else a }

/-- Is a core's ejection gate closed by a reset of its partition (R352, R361). -/
def gateShut (s : State) (c : Nat) : Bool := !coreOpen s c || (s.core c).rst

/-- Does a core belong to the packet's partition (R352): its column lies in the partition's range (R358). -/
def ofPart (s : State) (p : Packet) : Bool := s.inCols p.part p.dst

/-- A core in a reset drops what arrives and counts it; an answer ends its record of the request (R362). -/
def dropShut (c tx : Nat) (s : State) : State :=
  (s.countSat (rPT_STAT (s.part c)) PT_STAT_DROP 1).modCore c fun k => { k with rstTx := ldrop tx k.rstTx }

/-- A response is one that is in flight to its requester; any other response row changes nothing (log 9).  At a closed
gate, and for a hidden core, it is dropped and counted (R352, R362). -/
def response (op : Nat) (p : Packet) (f : State → State) (s : State) : State :=
  if p.op = op ∧ s.inNet p = true ∧ isCoreEp p.dst = true then
    let s := s.unsend p
    if gateShut s p.dst then dropShut p.dst p.txid s
    else if !(s.core p.dst).enabled then s.countSat rCN_NACK CN_NACK_NO_DEST 1
    else if !ofPart s p then s.countSat rCN_NACK CN_NACK_FOREIGN 1
    else f s
  else s

/-- NACK causes (R342). -/
abbrev nkRESET : Nat := 1
abbrev nkNODEST : Nat := 2
abbrev nkFOREIGN : Nat := 3

/-- Answer a request with a NACK (R342, R352, R362). -/
def nack (p : Packet) (cause : Nat) (s : State) : State := s.send { reply p opNACK with cause := cause }

/-- A request to core `p.dst` passes its router, or is answered with a NACK (R352, R362). -/
def ejectReq (p : Packet) (f : State → State) (s : State) : State :=
  let c := p.dst
  let mg := p.cls == clsMGMT && decide (0x530 ≤ p.src) && decide (p.src ≤ 0x535)
  if gateShut s c then nack p nkRESET (s.countSat (rPT_STAT (s.part c)) PT_STAT_NACK 1)
  else if !(s.core c).enabled then nack p nkNODEST (s.countSat rCN_NACK CN_NACK_NO_DEST 1)
  else if !ofPart s p && !mg then nack p nkFOREIGN (s.countSat rCN_NACK CN_NACK_FOREIGN 1)
  else f s

/-- CREDIT: the core's next request to the slice leaves (R260, R261). -/
def creditArrive (c slice : Nat) (s : State) : State :=
  let k := s.core c
  let u := tget 0 k.cred slice
  match ltake (fun (q : Packet) => q.dst == slice && q.op != opPF_RD) k.outq with
  | some (q, rest) => flushPf c slice ((s.setCore c { k with outq := rest }).send q)
  | none => s.setCore c { k with cred := tset slice (u - 1) k.cred }

/-- CREDIT at a core; at a closed gate it is dropped and counted (R260, R362). -/
def creditRow (p : Packet) (s : State) : State :=
  if p.op = opCREDIT ∧ s.inNet p = true ∧ isCoreEp p.dst = true then
    let s := s.unsend p
    if gateShut s p.dst then s.countSat (rPT_STAT (s.part p.dst)) PT_STAT_DROP 1 else creditArrive p.dst p.src s
  else s

/-- RESERVED_OP_PACKET (R343). -/
def reservedOp (p : Packet) (s : State) : State :=
  if p.op ≤ 0x11 then s else (s.unsend p).countSat rCN_NACK CN_NACK_BADOP 1

/-- Operation and class of a message packet's arrival (R343). -/
def msgArrive (p : Packet) (s : State) : State :=
  if p.op ≠ opMSG ∨ isCoreEp p.dst = false then s else ejectReq p (fun s => s.ipend p.dst 5) (s.unsend p)

/-- Is the write of CMEM_CFG accepted (R230). -/
def cmemOk (p : Nat) (s : State) : Bool :=
  !((s.partCores p).any fun c => s.flag (rCORE_CTL c) CORE_CTL_RUN)

/-- CMEM_CFG_WRITE: the L1s are invalid and the scratchpads unspecified (R230). -/
def cmemWrite (p : Nat) (v : Word) (s : State) : State :=
  let s := typedWrite s (rCMEM_CFG p) v
  each (fun c s => s.modCore c fun k =>
    { k with l1 := [], spad := [], spadEpoch := k.spadEpoch + 1, flips := [] }) (s.partCores p) s

/-- CMEM_CFG_WRITE by an origin. -/
def opCmem (o : Origin) (p : Nat) (v : Word) (s : State) : State :=
  regWrite o (rCMEM_CFG p) (cmemOk p) (cmemWrite p v) s

/-- Is transaction number `x` of a core one whose response is awaited. -/
def txOut (k : Core) (x : Nat) : Bool :=
  (waitsFor k x).isSome || (k.stores.any fun y => y.1 == x) || k.merges.any fun y => y.1 == x

/-- REQUEST_LIMIT of a core's memory request (R455): lost; its number stays out of use, its credit is free, its task takes
DATA_ERR, and a fatal UE is logged. -/
def memLimit (c x : Nat) (s : State) : State :=
  if !txOut (s.core c) x then s
  else
    let pk := (s.net ++ s.held ++ s.lcs.flatMap fun y => y.2.input ++ y.2.queue).find? fun p =>
      p.src == c && p.txid == x && p.cls == clsREQ
    let pa := match pk with | some p => pktByte p | none => 0
    let addr := vaOf s (s.part c) pa
    let s := match pk with | some p => if isSliceEp p.dst then creditArrive c p.dst s else s | none => s
    let s := s.modCore c fun k => { k with deadTx := ladd x k.deadTx }
    logErr .ue c 11 pa 0 0 0 true (coreFail c x .dataErr addr s)

end Sys2Proof.Machine
end

