-- ==== Sys2Proof/Machine/Ledger.lean ====
section
/-! DEFINITION. The Ledger engine (R250-R258, R430, R449, R532): the commands of its windows, one at a time, shootdowns
and migrations. -/

namespace Sys2Proof.Machine

/-! Failure codes of LE_STAT.CODE (R266). -/
abbrev lgNOT_FOUND : Nat := 1
abbrev lgNOT_OWNED : Nat := 2
abbrev lgNOT_FREE : Nat := 3
abbrev lgRETIRED : Nat := 4
abbrev lgRESERVED : Nat := 5
abbrev lgDUP : Nat := 6
abbrev lgOVERLAP : Nat := 7
abbrev lgCHAIN : Nat := 8
abbrev lgNO_FRAME : Nat := 9
abbrev lgPRIV : Nat := 10
abbrev lgBUSY : Nat := 11
abbrev lgDATA_ERR : Nat := 12

/-- A window's arguments as they were when the command was written: window, operation, LE_FRAME, LE_VPN, LE_ARG. -/
structure LgArg where
  w : Nat
  op : Nat
  fr : Word
  vp : Word
  ar : Word
  deriving DecidableEq, Repr

/-- Field of LE_FRAME. -/
def LgArg.frame (a : LgArg) : Nat := fget a.fr ⟨19, 0⟩
/-- Field of LE_FRAME. -/
def LgArg.frame2 (a : LgArg) : Nat := fget a.fr ⟨39, 20⟩
/-- Field of LE_VPN. -/
def LgArg.vpn (a : LgArg) : Nat := fget a.vp ⟨47, 21⟩
/-- A flag of LE_ARG: 0 W, 1 T, 2 P, 3 X, 4 SEC, 5 G. -/
def LgArg.flag (a : LgArg) (i : Nat) : Bool := bit a.ar.toNat i
/-- The management window. -/
def LgArg.mgmt (a : LgArg) : Bool := a.w == 8
/-- The partition a command acts for: the window's, or LE_ARG.PART (log 32). -/
def LgArg.part (a : LgArg) : Nat := if a.mgmt then fget a.ar LE_ARG_PART else a.w

/-- A command fails: FAIL and CODE (R256). -/
def lgFail (w code : Nat) (s : State) : State :=
  (s.setFlag (rLE_STAT w) LE_STAT_FAIL true).setFld (rLE_STAT w) LE_STAT_CODE code

/-- Does an entry's storage hold an uncorrectable word (R256 DATA_ERR). -/
def leBad (s : State) (f : Nat) : Bool :=
  let w := (s.fld rLG_BASE ⟨47, 24⟩ * 2 ^ 24 + 16 * f) / 4
  (List.range 4).any fun i => lhas (w + i) s.badw || eccUnc (tget 0 s.flips (w + i))

/-- Does an anchor's word hold an uncorrectable word. -/
def anchorBad (s : State) (h : Nat) : Bool :=
  let w := (s.fld rLG_BASE ⟨47, 24⟩ * 2 ^ 24 + 0xA00000 + 4 * h) / 4
  lhas w s.badw || eccUnc (tget 0 s.flips w)

/-- The frames of a chain, at most `n`. -/
def chainFrom (s : State) : Nat → Option Nat → List Nat
  | _, none => []
  | 0, some _ => []
  | n + 1, some f => f :: chainFrom s n (s.le f).next

/-- The chain of a page's anchor. -/
def chainOf (s : State) (p vpn : Nat) : List Nat := chainFrom s 65 (s.anchor (anchorIx p vpn))

/-- Does a walk meet uncorrectable data: in the anchor, or in an entry it reads before it ends (R532). -/
def walkBad (s : State) (p vpn : Nat) : Bool :=
  anchorBad s (anchorIx p vpn) || (walkReads s p vpn 64 (s.anchor (anchorIx p vpn))).any fun f => leBad s f

/-- A command's walk, counted with its slice accesses (R252, R254); none where it meets uncorrectable data. -/
def lgWalk (p vpn : Nat) (s : State) : Option Walk × State :=
  if walkBad s p vpn then (none, walkLines p vpn (s.count (rLG_WALKS p) 1))
  else
    let w := walk s p vpn
    (some w, walkLines p vpn (countWalk p w s))

/-- Does the page overlap the scratchpad range or the companion window (R256 OVERLAP). -/
def overlaps (s : State) (p vpn : Nat) : Bool :=
  let lo := vpn * 2 ^ 21
  let hi := lo + 2 ^ 21
  let sb := spadBase s p
  let cb := s.fld (rCW_VBASE p) CW_VBASE_VBASE * 2 ^ 21
  (decide (lo < sb + 2 ^ 20) && decide (sb < hi)) ||
    (s.flag (rCW_VBASE p) CW_VBASE_EN && decide (lo < cb + s.fld (rCW_SIZE p) CW_SIZE_SIZE * 2 ^ 21) && decide (cb < hi))

/-- Is a frame the destination of a copy in progress. -/
def copyDest (s : State) (f : Nat) : Bool :=
  (s.lgops.any fun x => match x.2 with | .migrate _ d _ _ => d == f | _ => false) ||
    s.snaps.any fun x => x.2.copies.any fun c => c.copy == some f

/-- Is a frame free, owned by the partition, and neither X nor RSV (R257, R431); a frame that a copy fills is not free. -/
def freeFor (s : State) (p f : Nat) : Bool := let e := s.le f; !e.v && !e.x && !e.rsv && e.owner == p && !copyDest s f

/-- The first of the frames lo, lo + 1, …, `n` of them, that passes a test. -/
def firstFrame (ok : Nat → Bool) (lo : Nat) : Nat → Option Nat
  | 0 => none
  | n + 1 => match firstFrame ok lo n with
    | some f => some f
    | none => if ok (lo + n) then some (lo + n) else none

/-- The first frame that passes a test and is free for the partition. -/
def findFree (s : State) (p : Nat) (ok : Nat → Bool) (lo n : Nat) : Option Nat :=
  firstFrame (fun f => ok f && freeFor s p f) lo n

/-- The frame search of R257: the frame and whether the search spilled, or why the command fails; uncorrectable data ends it where
the search meets it (R532). -/
def chooseFrame (s : State) (p loc tier : Nat) : Except Nat (Nat × Bool) :=
  let took := fun (f : Nat) (spill : Bool) => if leBad s f then Except.error lgDATA_ERR else Except.ok (f, spill)
  let lp := fun (spill : Bool) =>
    match firstFrame (fun f => freeFor s p f || leBad s f) lpBase (nFrames - lpBase) with
    | some f => took f spill
    | none => Except.error lgNO_FRAME
  if tier = 1 then lp false
  else match firstFrame (fun f => frameClass s f == loc && (freeFor s p f || leBad s f)) 0 lpBase with
    | some f => took f false
    | none => lp true

/-- Put frame `new` where frame `old` stands in its chain, or take `old` out. -/
def relink (old : Nat) (new : Option Nat) (s : State) : State :=
  let e := s.le old
  let h := anchorIx e.owner e.vpn
  let nxt := match new with | some n => some n | none => e.next
  if s.anchor h = some old then s.setAnchor h nxt
  else match (chainOf s e.owner e.vpn).find? fun g => (s.le g).next == some old with
    | some g => s.setLe g { s.le g with next := nxt }
    | none => s

/-- Endpoints of engines whose translation cache holds the page. -/
def cachesWith (s : State) (p vpn : Nat) : List Nat :=
  (s.ecache.filter fun x => x.2.contains (p, vpn)).map fun x => x.1

/-- Translation of engine `ep` for partition `p`: its cache of 64 entries and the walk counters (R254). -/
def touchEc (ep p va : Nat) (s : State) : State :=
  if !looksUp s p va then s
  else
    let vpn := va / 2 ^ 21
    let l := tget [] s.ecache ep
    if l.contains (p, vpn) then s
    else
      let w := walk s p vpn
      let s := walkLines p vpn (countWalk p w s)
      match w with
      | .hit _ =>
        let l := if l.length < 64 then l else l.eraseIdx (Config.tcVictim (l.length + vpn) % 64)
        { s with ecache := tset ep ((p, vpn) :: l) s.ecache }
      | _ => s.countSat (rLG_XFAULT p) LG_XFAULT_FAIL 1

/-- Count the translations of an engine for the pages of `n` bytes at `va`. -/
def touchEcN (ep p va n : Nat) (s : State) : State :=
  each (fun b s => touchEc ep p (max va (b * 2 ^ 21)) s) (rangeFrom (va / 2 ^ 21) ((va + n - 1) / 2 ^ 21 + 1)) s

/-- A command ends: BUSY falls. -/
def lgEnd (w : Nat) (s : State) : State :=
  ({ s with lgops := tdel w s.lgops }).setFlag (rLE_STAT w) LE_STAT_BUSY false

/-- A shootdown of a page starts; the command ends with it (R255). -/
def shootStart (w p vpn frame : Nat) (s : State) : State :=
  let s := s.setFlag (rLE_STAT w) LE_STAT_BUSY true
  { s with lgops := tset w (.shoot p vpn frame (s.partCores p ++ cachesWith s p vpn)) s.lgops }

/-- UNMAP (R256): V := 0, out of its chain, shootdown. -/
def doUnmap (w f : Nat) (s : State) : State :=
  let e := s.le f
  let s := relink f none s
  shootStart w e.owner e.vpn f (s.setLe f { s.le f with v := false, next := none })

/-- LE_DATA of an entry. -/
def lgData (w f : Nat) (s : State) : State :=
  let b := leBits (s.le f)
  (s.setReg (rLE_DATA0 w) (n64 (b % 2 ^ 64))).setReg (rLE_DATA1 w) (n64 (b / 2 ^ 64))

/-- Is the frame outside the partition of a partition window: another's, or a chip frame (R250, R256). -/
def foreign (s : State) (a : LgArg) (f : Nat) : Bool :=
  !a.mgmt && ((s.le f).owner != a.w || ((s.le f).rsv && (s.le f).chip))

/-- Failure of MAP and MIGRATE on a target frame (R256, R532). -/
def targetFail (s : State) (p f : Nat) : Option Nat :=
  let e := s.le f
  if e.owner ≠ p ∧ !(e.rsv && e.chip) then some lgNOT_OWNED
  else if e.rsv then some lgRESERVED
  else if e.x then some lgRETIRED
  else if e.v then some lgNOT_FREE
  else none

/-- READ (R256). -/
def lgRead (a : LgArg) (s : State) : State :=
  let f := a.frame
  if nFrames ≤ f then lgFail a.w lgNO_FRAME s
  else if leBad s f then lgFail a.w lgDATA_ERR s
  else if foreign s a f then lgFail a.w lgNOT_OWNED s
  else lgData a.w f s

/-- FIND (R256). -/
def lgFind (a : LgArg) (s : State) : State :=
  let (w, s) := lgWalk a.part a.vpn s
  match w with
  | none => lgFail a.w lgDATA_ERR s
  | some (.hit f) => lgData a.w f (s.setFld (rLE_FRAME a.w) ⟨19, 0⟩ f)
  | some _ => lgFail a.w lgNOT_FOUND s

/-- The entry of a new mapping at the head of its chain (R252, R256). -/
def linkNew (p vpn f : Nat) (w pf g sec : Bool) (s : State) : State :=
  let h := anchorIx p vpn
  let e := s.le f
  (s.setLe f { e with v := true, vpn := vpn, w := w, p := pf, g := g, sec := sec, t := false, s := false, x := false,
                      mig := false, next := s.anchor h }).setAnchor h (some f)

/-- MAP (R256, R257, R532). -/
def lgMap (a : LgArg) (s : State) : State :=
  let p := a.part
  let f := a.frame
  if (!a.mgmt && a.flag 4) || (a.flag 2 && a.flag 4) then lgFail a.w lgPRIV s
  else if nFrames ≤ f ∧ f ≠ 0xFFFFF then lgFail a.w lgNO_FRAME s
  else
    let (w, s) := lgWalk p a.vpn s
    match w with
    | none => lgFail a.w lgDATA_ERR s
    | some (.hit _) => lgFail a.w lgDUP s
    | some _ =>
      if overlaps s p a.vpn then lgFail a.w lgOVERLAP s
      else
        let pick : Except Nat (Nat × Bool) :=
          if f = 0xFFFFF then chooseFrame s p (fget a.ar LE_ARG_LOC) (fget a.ar LE_ARG_TIER)
          else if leBad s f then .error lgDATA_ERR
          else match targetFail s p f with
            | some c => .error c
            | none => .ok (f, false)
        match pick with
        | .error c => lgFail a.w c s
        | .ok (f, spill) =>
          if 64 ≤ (chainOf s p a.vpn).length then lgFail a.w lgCHAIN s
          else
            let s := linkNew p a.vpn f (a.flag 0) (a.flag 2) (a.flag 5) (a.flag 4) s
            let s := if spill then s.count (rLG_SPILL p) 1 else s
            shootStart a.w p a.vpn f (s.setFld (rLE_FRAME a.w) ⟨19, 0⟩ f)

/-- UNMAP (R256): held by the snapshot copy of an S page (R430). -/
def lgUnmap (a : LgArg) (s : State) : State :=
  let (w, s) := lgWalk a.part a.vpn s
  match w with
  | none => lgFail a.w lgDATA_ERR s
  | some (.hit f) =>
    if foreign s a f then lgFail a.w lgNOT_OWNED s
    else if mustCopy s f then
      let s := wantCopy f s
      let s := { s with lgops := tset a.w (.held f) s.lgops }
      s.setFlag (rLE_STAT a.w) LE_STAT_BUSY true
    else doUnmap a.w f s
  | some _ => lgFail a.w lgNOT_FOUND s

/-- SETF and CLRF (R256): shootdown when W or X changes. -/
def lgSetClr (a : LgArg) (setf : Bool) (s : State) : State :=
  let f := a.frame
  if setf && !a.mgmt && a.flag 4 then lgFail a.w lgPRIV s
  else if nFrames ≤ f then lgFail a.w lgNO_FRAME s
  else if leBad s f then lgFail a.w lgDATA_ERR s
  else
    let e := s.le f
    if setf && a.flag 2 && e.sec then lgFail a.w lgPRIV s
    else if foreign s a f then lgFail a.w lgNOT_OWNED s
    else
      let e' := if setf then
          { e with w := e.w || a.flag 0, t := e.t || a.flag 1, p := e.p || a.flag 2, x := e.x || a.flag 3, g := e.g || a.flag 5 }
        else
          { e with w := e.w && !a.flag 0, t := e.t && !a.flag 1, p := e.p && !a.flag 2, g := e.g && !a.flag 5 }
      let s := s.setLe f e'
      if e'.w ≠ e.w ∨ e'.x ≠ e.x then shootStart a.w e.owner e.vpn f s else s

/-- The key that protects a frame (R471): its owner's, or the chip's (8). -/
def keyOf (s : State) (f : Nat) : Nat := let e := s.le f; if e.chip then 8 else e.owner

/-- Frame `f` comes under key `k`: what lies in it stays encrypted under its old key and is hidden from the new one, which
finds again the lines it last wrote itself (R471, R500, R530). -/
def rekey (f k : Nat) (s : State) : State :=
  let k0 := keyOf s f
  if k = k0 then s
  else
    let cur := s.mem.filter fun c => frameOf c.1 == f
    let covers := fun (c : Host.Cell) => cur.any fun d => d.1 / 128 == c.1 / 128
    let others := (s.ciph.filter fun x => x.1 == f).map fun x => (f, x.2.1, x.2.2.filter fun c => !covers c)
    let mine := match others.find? fun x => x.2.1 == k with | some x => x.2.2 | none => []
    let kept := (others.filter fun x => x.2.1 != k && x.2.1 != k0) ++ [(f, k0, cur)]
    let s := { s with mem := s.mem.filter (fun c => frameOf c.1 != f), memEpoch := s.memEpoch + 1, zeroed := ldrop f s.zeroed,
                      ciph := s.ciph.filter (fun x => x.1 != f) ++ kept }
    each (fun c s => s.setByte c.1 c.2) mine s

/-- GIVE (R250, R256): the frame comes under the new owner's key, or the chip's with RSV (R471). -/
def lgGive (a : LgArg) (s : State) : State :=
  let f := a.frame
  if !a.mgmt then lgFail a.w lgPRIV s
  else if nFrames ≤ f then lgFail a.w lgNO_FRAME s
  else if leBad s f then lgFail a.w lgDATA_ERR s
  else
    let e := s.le f
    if e.rsv then lgFail a.w lgRESERVED s
    else if e.v then lgFail a.w lgNOT_FREE s
    else
      let rsv := fbit a.ar LE_ARG_RSV
      let s := (rekey f (if rsv then 8 else a.part) s).setLe f { e with owner := a.part, rsv := rsv, chip := rsv }
      shootStart a.w e.owner e.vpn f s

/-- Endpoints of the controllers that copy the shares of a destination frame (R258). -/
def copyUnits (s : State) (f : Nat) : List Nat :=
  if lpBase ≤ f then (List.range 16).map epLC
  else match frameClass s f with
    | 0 => (List.range 16).map epSC
    | 1 => (List.range 8).map epSC
    | _ => (List.range 8).map fun i => epSC (8 + i)

/-- Writes to frame `f` that its homes have accepted by now are marked: the migration that begins waits for them, and does not hold
them (R258 step 2). -/
def markOld (f : Nat) (s : State) : State :=
  let mark := fun (q : Packet) => if pktWrites q && !isCw q.addr && frameOf q.addr == f then { q with cause := mgOld } else q
  { s with
    held := s.held.map mark
    slices := s.slices.map fun x => (x.1, { x.2 with reqs := x.2.reqs.map fun r => { r with pkt := mark r.pkt } })
    lcs := s.lcs.map fun x => (x.1, { x.2 with input := x.2.input.map mark, queue := x.2.queue.map mark }) }

/-- MIGRATE, step 1 (R258, R532). -/
def lgMigrate (a : LgArg) (s : State) : State :=
  let f := a.frame
  let d := a.frame2
  if nFrames ≤ f ∨ (nFrames ≤ d ∧ d ≠ 0xFFFFF) then lgFail a.w lgNO_FRAME s
  else if leBad s f then lgFail a.w lgDATA_ERR s
  else
    let e := s.le f
    -- a source that maps nothing has no mapping to move: NOT_FOUND (log 32)
    if !e.v && !foreign s a f then lgFail a.w lgNOT_FOUND s
    else if foreign s a f then lgFail a.w lgNOT_OWNED s
    else
      let pick : Except Nat Nat :=
        if d = 0xFFFFF then (chooseFrame s e.owner (fget a.ar LE_ARG_LOC) (fget a.ar LE_ARG_TIER)).map fun x => x.1
        else if leBad s d then .error lgDATA_ERR
        else match targetFail s e.owner d with
          | some c => .error c
          | none => .ok d
      match pick with
      | .error c => lgFail a.w c s
      | .ok d =>
        let s := markOld f (s.setLe f { e with mig := true })
        let s := s.setFld (rLE_FRAME a.w) ⟨39, 20⟩ d
        let s := s.setFlag (rLE_STAT a.w) LE_STAT_BUSY true
        { s with lgops := tset a.w (.migrate f d false (copyUnits s d)) s.lgops }

/-- The Ledger engine applies one command (R256). -/
def lgRun (a : LgArg) (s : State) : State :=
  match a.op with
  | 1 => lgRead a s
  | 2 => lgFind a s
  | 3 => lgMap a s
  | 4 => lgUnmap a s
  | 5 => lgSetClr a true s
  | 6 => lgSetClr a false s
  | 7 => lgMigrate a s
  | _ => lgGive a s

/-- The engine applies the commands that wait, until one is in progress. -/
def lgDrain : List (Nat × Nat × Word × Word × Word) → State → State
  | [], s => { s with lgWait := [] }
  | (w, op, fr, vp, ar) :: r, s =>
    if s.lgops.isEmpty then
      lgDrain r (lgRun { w := w, op := op, fr := fr, vp := vp, ar := ar } (s.setFlag (rLE_STAT w) LE_STAT_BUSY false))
    else { s with lgWait := (w, op, fr, vp, ar) :: r }

/-- A command in progress has ended: the next ones follow. -/
def lgNext (s : State) : State := lgDrain s.lgWait s

/-- A write of LE_CMD at window `w` (R256, R266). -/
def ledgerCmd (w op : Nat) (s : State) : State :=
  if op = 0 ∨ 8 < op then s
  else if s.flag (rLE_STAT w) LE_STAT_BUSY then lgFail w lgBUSY s
  else
    let fr := s.reg (rLE_FRAME w)
    let vp := s.reg (rLE_VPN w)
    let ar := s.reg (rLE_ARG w)
    if s.lgops.isEmpty then lgRun { w := w, op := op, fr := fr, vp := vp, ar := ar } s
    else
      let s := s.setFlag (rLE_STAT w) LE_STAT_BUSY true
      { s with lgWait := s.lgWait ++ [(w, op, fr, vp, ar)] }

/-- A Ledger command given by a write of LE_CMD. -/
def opLedger (o : Origin) (w op : Nat) (s : State) : State :=
  regWrite o (rLE_CMD w) (fun _ => decide (w ≤ 8)) (ledgerCmd w op) s

/-- The snapshot copy of a frame has ended: an UNMAP that waited for it proceeds (R430). -/
def lgResume (f : Nat) (s : State) : State :=
  match s.lgops.find? fun x => x.2 == .held f with
  | some (w, _) => doUnmap w f s
  | none => s

/-- Does a packet carry an access of partition `p` to a frame, or its response. -/
def usesFrame (p f : Nat) (q : Packet) : Bool :=
  [opRD, opWR, opATOM, opRD_DATA, opWR_ACK, opPF_RD].contains q.op && q.part == p && !isCw q.addr && frameOf q.addr == f

/-- Has core `c` a TLOAD whose rows use frame `f` for page `vpn` (R255). -/
def tloadUses (k : Core) (vpn f : Nat) : Bool :=
  k.ctxs.any fun x => match x.2.wait with
    | .tload _ _ pages _ => pages.contains (vpn, f)
    | _ => false

/-- Has every access that used an old translation completed (R255). -/
def accessesDone (s : State) (p vpn f : Nat) : Bool :=
  !(s.net.any (usesFrame p f)) && !(s.held.any (usesFrame p f)) &&
    !(s.slices.any fun x => x.2.reqs.any fun r => usesFrame p f r.pkt) &&
    !(s.lcs.any fun x => (x.2.input ++ x.2.queue).any (usesFrame p f)) &&
    !(s.cores.any fun x => x.2.outq.any (usesFrame p f)) && !((s.partCores p).any fun c => tloadUses (s.core c) vpn f)

/-- SHOOTDOWN at an endpoint (R233, R255): its translation cache drops the page, a core its L1 lines of it. -/
def shootdownAt (w ep : Nat) (s : State) : State :=
  match tget? w s.lgops with
  | some (.shoot p vpn f eps) =>
    if !lhas ep eps then s
    else
      let s := if isCoreEp ep then s.modCore ep fun k =>
          { k with
            tc := ldrop vpn k.tc
            l1 := k.l1.filter fun l => isCw (l.line * 128) || frameOf (l.line * 128) != f
            pfOut := k.pfOut.filter fun l => isCw (l * 128) || frameOf (l * 128) != f }
        else { s with ecache := tset ep ((tget [] s.ecache ep).filter fun x => x != (p, vpn)) s.ecache }
      { s with lgops := tset w (.shoot p vpn f (ldrop ep eps)) s.lgops }
  | _ => s

/-- SHOOTDOWN_DONE (R255): every cache has dropped the entry and every access that used it has completed. -/
def shootdownDone (w : Nat) (s : State) : State :=
  match tget? w s.lgops with
  | some (.shoot p vpn f []) => if accessesDone s p vpn f then lgNext (lgEnd w s) else s
  | _ => s

/-- MIGRATE_COPY_START (R258): once the writes accepted before step 1 have completed. -/
def migrateStart (w : Nat) (s : State) : State :=
  match tget? w s.lgops with
  | some (.migrate f d false shares) =>
    let wr := fun (q : Packet) => q.cause == mgOld && pktWrites q && !isCw q.addr && frameOf q.addr == f
    if s.held.any wr || (s.slices.any fun x => x.2.reqs.any fun r => wr r.pkt) ||
        (s.lcs.any fun x => (x.2.input ++ x.2.queue).any wr) then s
    else { s with lgops := tset w (.migrate f d true shares) s.lgops }
  | _ => s

/-- Endpoint of the memory controller of an address. -/
def ctrlOf (s : State) (pa : Nat) : Nat := if isLp pa then epLC (lpMap pa).1 else epSC (hbmMap s pa).1

/-- Lines of destination frame `d` that controller `ep` holds, as line offsets in the frame. -/
def shareLines (s : State) (d ep : Nat) : List Nat :=
  (List.range 16384).filter fun i => ctrlOf s (framePa d + 128 * i) == ep

/-- The bytes that a copy of line `i` of frame `f` to frame `d` reads and writes at LPDDR5X controllers (R268). -/
def countCopy (f d i : Nat) (s : State) : State :=
  let s := if isLp (framePa f) then s.count (rLC_RD (lpMap (framePa f + 128 * i)).1) 128 else s
  if isLp (framePa d) then s.count (rLC_WR (lpMap (framePa d + 128 * i)).1) 128 else s

/-- Copy lines (by offset) of frame `f` to frame `d` (R258, R430): a copy of an unwritten byte is an unwritten byte (log 7). -/
def copyLines (f d : Nat) (ls : List Nat) (s : State) : State :=
  let fl := framePa f / 128
  let dl := framePa d / 128
  let mine := fun l => decide (dl ≤ l) && lhas (l - dl) ls
  let from' := s.mem.filter fun c => decide (fl ≤ c.1 / 128) && lhas (c.1 / 128 - fl) ls
  let s := each (countCopy f d) ls s
  let s := { s with mem := s.mem.filter (fun c => !mine (c.1 / 128)), badw := s.badw.filter (fun w => !mine (w / 32)),
                    flips := s.flips.filter fun x => !mine (x.1 / 32) }
  each (fun c s => s.setByte (c.1 - fl * 128 + dl * 128) c.2) from' s

/-- May a copy of lines be made now: no snoop stands before a line (R409). -/
def copyGate (s : State) (f d : Nat) (ls : List Nat) : Bool :=
  let e := s.le f
  let s0 := s.setLe f { e with mig := false, s := false }
  ls.all fun i => gateOpen (framePa f / 128 + i) false s0 && gateOpen (framePa d / 128 + i) true s0

/-- Start the snoops a copy waits for. -/
def copyPrep (f d part : Nat) (ls : List Nat) (s : State) : State :=
  each (fun i s => gatePrep (framePa d / 128 + i) part 0 0xF true (gatePrep (framePa f / 128 + i) part 0 0xF false s)) ls s

/-- Does a copy read uncorrectable data (R431, R449). -/
def copyBad (s : State) (f part : Nat) (ls : List Nat) : Bool :=
  ls.any fun i => badMask s part (framePa f / 128 + i) 32 != 0

/-- Count a copied share (R258, R442). -/
def countShare (ep : Nat) (s : State) : State :=
  if 0x510 ≤ ep then s.count (rLC_MIG (ep - 0x510)) 1 else s.count (rSC_SNAP_SHARES (ep - 0x500)) 1

/-- Writers held at the homes of a frame return to their requesters, which send them to the frame that maps the page now
(R258). -/
def returnHeld (f d : Nat) (s : State) : State :=
  let mine := fun (q : Packet) => !isCw q.addr && frameOf q.addr == f
  let back := s.held.filter mine
  each (fun (q : Packet) s =>
    let pa := q.addr - framePa f + framePa d
    s.send { q with addr := pa, dst := homeEp s pa }) back { s with held := s.held.filter fun q => !mine q }

/-- MIGRATE, step 4 (R258): the destination entry takes the mapping in the source's place in its chain. -/
def migrateFinish (w f d : Nat) (s : State) : State :=
  let e := s.le f
  let t := s.le d
  let s := relink f (some d) s
  let s := s.setLe d { (s.le f) with tier := t.tier, rsv := t.rsv, chip := t.chip, mig := false }
  let s := s.setLe f { s.le f with v := false, mig := false, s := false, next := none }
  let x := s.snap e.owner
  let s := s.setSnap e.owner { x with copies := x.copies.map fun c => if c.frame = f then { c with frame := d } else c }
  releaseHeld (shootStart w e.owner e.vpn f (returnHeld f d s))

/-- MIGRATE_SHARE_DONE: controller `ep` finishes its share; the last one moves the mapping.  Uncorrectable data ends the
command and the mapping stays at the source (R449). -/
def migrateShare (w ep : Nat) (s : State) : State :=
  match tget? w s.lgops with
  | some (.migrate f d true shares) =>
    if !lhas ep shares then s
    else
      let p := (s.le f).owner
      let ls := shareLines s d ep
      if !copyGate s f d ls then copyPrep f d p ls s
      else if copyBad s f p ls then
        let s := s.setLe f { s.le f with mig := false }
        lgNext (releaseHeld (lgEnd w (lgFail w lgDATA_ERR s)))
      else
        let s := countShare ep (copyLines f d ls s)
        let left := ldrop ep shares
        if left.isEmpty then migrateFinish w f d s
        else { s with lgops := tset w (.migrate f d true left) s.lgops }
  | _ => s

end Sys2Proof.Machine
end

