-- ==== Sys2Proof/Machine/Knots.lean ====
section
/-! DEFINITION. Knots and hitches (R309-R338): the operations at their homes, the instructions at the core, and waits that
a core abandons (R323). -/

namespace Sys2Proof.Machine

/-! Faults (R320). -/
abbrev kfUNDERFLOW : Nat := 1
abbrev kfOVERFLOW : Nat := 2
abbrev kfBOUND : Nat := 3
abbrev kfKIND : Nat := 4
abbrev kfNAME : Nat := 5
abbrev kfFOREIGN : Nat := 6
abbrev kfCANTWAIT : Nat := 7
abbrev kfCLOSED : Nat := 0x10
abbrev kfOUTSIDE : Nat := 0x11
abbrev kfDOUBLE : Nat := 0x12
abbrev kfHFOREIGN : Nat := 0x13
abbrev kfXFAIL : Nat := 0x14
/-- Marks of responses that are no cause of R320: a PRIV fault found at the home, a removed waiter, a satisfied one. -/
abbrev kfPRIV : Nat := 0xFF
abbrev krREMOVED : Nat := 0x80
abbrev krDONE : Nat := 0x81

/-! Names and homes (R309). -/

/-- Is a knot name legal (R309, R314). -/
def knotNameOk (n : Nat) : Bool :=
  decide (n < 2 ^ 32) && (if bit n 31 then bits n 30 13 == 0 else bits n 30 16 == 0)

/-- Key of a knot: chip knot j under j, core knot k of core c under 8192 + 64 c + k. -/
def knotKey (n : Nat) : Nat := if bit n 31 then bits n 12 0 else 8192 + bits n 15 0

/-- Is the key a chip knot's. -/
def knotChip (key : Nat) : Bool := decide (key < 8192)

/-- Core of a core knot's key. -/
def knotCore (key : Nat) : Nat := (key - 8192) / 64

/-- Name of the knot under a key. -/
def knotName (key : Nat) : Nat := if knotChip key then 2 ^ 31 + key else key - 8192

/-- Register that holds the knot word. -/
def knotReg (key : Nat) : Nat := if knotChip key then rCK key else rKN (knotCore key) ((key - 8192) % 64)

/-- A knot word. -/
def State.knot (s : State) (key : Nat) : Word := s.reg (knotReg key)

/-- Endpoint of the home of a knot. -/
def knotHome (key : Nat) : Nat := if knotChip key then epHub (key / 4096) else knotCore key

/-- Partition of a knot (R312). -/
def knotPart (s : State) (key : Nat) : Nat :=
  if knotChip key then fget (s.knot key) CK_PART else s.part (knotCore key)

/-- Report core of a knot (R321). -/
def knotReport (s : State) (key : Nat) : Nat :=
  if knotChip key then fget (s.knot key) CK_ICORE else knotCore key

/-- Largest count of a knot's KIND (R310), without BOUND. -/
def kindMax (w : Word) : Nat := if fget w CK_KIND = 2 then 1 else 2 ^ 32 - 1

/-- Largest count of a knot (R310). -/
def knotMax (w : Word) : Nat :=
  if fget w CK_KIND = 1 ∧ fget w CK_BOUND ≠ 0 then fget w CK_BOUND else kindMax w

/-- Waiters of a knot. -/
def State.waiters (s : State) (key : Nat) : List KWaiter := tget [] s.kwaits key

/-- Set a knot's count. -/
def setCount (key n : Nat) (s : State) : State := s.setFld (knotReg key) CK_COUNT n

/-! The core's side: completion and faults. -/

/-- A knot or hitch fault in context `i` (R320): KH_FAULT and the exception. -/
def knotFault (c i cause name w : Nat) (s : State) : State :=
  if cause = kfPRIV then enterExc c i false Exc.priv.code (n64 w) s
  else
    let s := (s.setFld (rKH_FAULT c) KH_FAULT_NAME name).setFld (rKH_FAULT c) KH_FAULT_CAUSE cause
    enterExc c i false (if cause < 0x10 then Exc.knot.code else Exc.hitch.code) (n64 name) s

/-- A knot or hitch instruction of context `i` completes with `v` in GD; `acq`: acquire order (R45). -/
def knotDone (c i gd v : Nat) (acq : Bool) (s : State) : State :=
  let s := if acq then acquire c s else s
  retireCtx c i 4 (s.modCtx c i fun x => x.setG gd (n64 v))

/-- Grants of the waiters at the head of a queue that a count satisfies (R316): each with its count after, the count left,
the waiters that stay. -/
def takeGrants : List KWaiter → Nat → List (KWaiter × Nat) × Nat × List KWaiter
  | [], n => ([], n, [])
  | w :: r, n =>
    if w.n ≤ n then
      let (g, left, stay) := takeGrants r (n - w.n)
      ((w, n - w.n) :: g, left, stay)
    else ([], n, w :: r)

/-- Deliver a grant: at an own-core port the KWAIT completes, a hub sends the response. -/
def giveGrant (key : Nat) (g : KWaiter × Nat) (s : State) : State :=
  let (w, v) := g
  match w.tx with
  | none =>
    match ((s.core w.core).ctx w.ctx).wait with
    | .kwait _ _ gd _ _ _ => knotDone w.core w.ctx gd v true s
    | _ => s
  | some x =>
    s.send { mkPkt w.core (knotHome key) clsRSP opKNOT_RSP (s.part w.core) (knotName key) with
      txid := x, rgen := w.rgen, payload := BitVec.ofNat 1024 v }

/-- Release waiters from count `n` (R316). -/
def release (key n : Nat) (s : State) : State :=
  let (g, left, stay) := takeGrants (s.waiters key) n
  let s := setCount key left { s with kwaits := if stay.isEmpty then tdel key s.kwaits else tset key stay s.kwaits }
  each (giveGrant key) g s

/-- An accepted signal of a knot with IEN (R322). -/
def signalIrq (key : Nat) (s : State) : State :=
  let c := knotReport s key
  if fbit (s.knot key) CK_IEN && coreIdOk c then
    ((s.ipend c 2).countSat (rKN_IRQ c) KN_IRQ_COUNT 1).setFld (rKN_IRQ c) KN_IRQ_LAST (knotName key)
  else s

/-- A signal of `n` at the knot's home (R315, R321, R322): the count before, or the cause of its refusal. -/
def doSignal (key : Nat) (n : Int) (s : State) : (Sum Nat Nat) × State :=
  let w := s.knot key
  let cnt := fget w CK_COUNT
  let c' : Int := (cnt : Int) + n
  if n = 0 then (.inr cnt, signalIrq key s)
  else if fget w CK_KIND = 3 then (.inr cnt, signalIrq key (setCount key (c'.emod (2 ^ 32)).toNat s))
  else if c' < 0 then (.inl kfUNDERFLOW, s)
  else
    let c' := c'.toNat
    let left := if n < 0 then c' else (takeGrants (s.waiters key) c').2.1
    if knotMax w < left then
      (.inl (if fget w CK_BOUND ≠ 0 ∧ fget w CK_BOUND < left then kfBOUND else kfOVERFLOW), s)
    else (.inr cnt, signalIrq key (if n < 0 then setCount key c' s else release key c' s))

/-- The checks of R320 in their order that precede an operation's own: FN, requesting partition, M, operand. -/
def knotCheck (s : State) (key fn part : Nat) (m : Bool) (n : Nat) : Option Nat :=
  let w := s.knot key
  if fn = 0 ∧ fget w CK_KIND = 3 ∧ !m then some kfPRIV
  else if knotPart s key ≠ part then some kfFOREIGN
  else if fget w CK_KIND = 0 then some kfNAME
  else if fn = 1 ∧ fget w CK_KIND = 3 then some kfKIND
  else if fn = 3 ∧ kindMax w < n then some kfKIND
  else if fn = 1 ∧ knotMax w < n then some kfCANTWAIT
  else none

/-- Count an operation applied at a hub (R338). -/
def countOp (key : Nat) (s : State) : State := if knotChip key then s.count rKN_OPS 1 else s

/-- AN OPERATION AT A KNOT'S HOME (R315-R320): KSIG 0, KPEEK 2, KSET 3.  `n` is the low 64 bits of the operand. -/
def knotOp (key fn part : Nat) (m : Bool) (n : Nat) (s : State) : (Sum Nat Nat) × State :=
  let s := countOp key s
  match knotCheck s key fn part m n with
  | some e => (.inl e, s)
  | none =>
    let cnt := fget (s.knot key) CK_COUNT
    match fn with
    | 0 => doSignal key (sext 64 n) s
    | 3 => (.inr cnt, release key n s)
    | _ => (.inr cnt, s)

/-- A KWAIT at a knot's home (R316): refused, granted at once with the count after, or queued (none). -/
def knotWaitOp (key part : Nat) (w : KWaiter) (s : State) : (Sum Nat (Option Nat)) × State :=
  let s := countOp key s
  match knotCheck s key 1 part true w.n with
  | some e => (.inl e, s)
  | none =>
    let cnt := fget (s.knot key) CK_COUNT
    if (s.waiters key).isEmpty && decide (w.n ≤ cnt) then (.inr (some (cnt - w.n)), setCount key (cnt - w.n) s)
    else (.inr none, { s with kwaits := tset key (s.waiters key ++ [w]) s.kwaits })

/-- Record a failed engine signal (R321); no rule gives the Capstan a SOURCE value, so that of source 4 is free (log 38). -/
def knotErr (key source cause : Nat) (s : State) : State :=
  let c := knotReport s key
  if coreIdOk c then
    let s := (s.ipend c 2).countSat (rKN_ERR c) KN_ERR_COUNT 1
    let (v, s1) := s.fresh
    let s := if source ≤ 3 then s.setFld (rKN_ERR c) KN_ERR_SOURCE source else s1.setFld (rKN_ERR c) KN_ERR_SOURCE v.toNat
    (s.setFld (rKN_ERR c) KN_ERR_NAME (knotName key)).setFld (rKN_ERR c) KN_ERR_CAUSE cause
  else s

/-- An engine's signal at the knot's home (R321): source 1 Culvert, 2 Sluice, 3 hitch completion, 4
Capstan (log 38). -/
def engSignal (key source part : Nat) (n : Nat) (s : State) : State :=
  match knotOp key 0 part true n s with
  | (.inl e, s) => knotErr key source e s
  | (.inr _, s) => s

/-- An engine sends a signal to a chip knot (R321). -/
def sendSignal (src key source part n : Nat) (s : State) : State :=
  s.send { mkPkt (knotHome key) src clsSYNC opKNOT part (knotName key) with
    sub := 16 * source, payload := BitVec.ofNat 1024 (n % 2 ^ 64) }

/-! Knot instructions (R313, R314). -/

/-- Is the core one that a knot name may address from partition `p` (R309, R320 NAME). -/
def knotCoreOk (s : State) (p c : Nat) : Bool := s.owns p c

/-- Send a knot or hitch request of the running context and wait (R342); with no transaction number it does not issue yet. -/
def sendKnot (c dst op addr sub n : Nat) (wait : Nat → Wait) (s : State) : State :=
  match (s.core c).freeTx with
  | none => s
  | some x =>
    (s.modCur c fun y => { y with wait := wait x }).send
      { mkPkt dst c clsSYNC op (s.part c) addr with
        txid := x, rgen := (s.core c).rgen, sub := sub, payload := BitVec.ofNat 1024 n }

/-- Operand of a KSIG, KWAIT or KSET (R314). -/
def knotArgOk (fn : Nat) (b : Word) : Bool :=
  match fn with
  | 0 => decide (-(2 : Int) ^ 31 ≤ b.toInt) && decide (b.toInt < (2 : Int) ^ 31)
  | 1 => decide (1 ≤ b.toNat) && decide (b.toNat < 2 ^ 32)
  | 3 => decide (b.toNat < 2 ^ 32)
  | _ => true

/-- Body of KSIG, KPEEK and KSET: at the own port at once, elsewhere by a request (R315, R317, R318, R320). -/
def knotBody (fn c gd ga gb w : Nat) (s : State) : State :=
  let name := (s.g c ga).toNat
  let b := s.g c gb
  let i := (s.core c).run
  if !knotNameOk name || !knotArgOk fn b then trap c .illegal (n64 w) s
  else
    let key := knotKey name
    let m := (s.cur c).isM
    if !knotChip key && !knotCoreOk s (s.part c) (knotCore key) then knotFault c i kfNAME name w s
    else if !knotChip key && decide (knotCore key = c) then
      (match knotOp key fn (s.part c) m b.toNat s with
       | (.inl e, s) => knotFault c i e name w s
       | (.inr v, s) => knotDone c i gd v false s)
    else sendKnot c (knotHome key) opKNOT name fn (b.toNat + (b2n m <<< 64)) (fun x => .kop fn w name gd x) s

/-- A release-ordered instruction waits for earlier writes and takes ENGINE (R45, R75). -/
def releaseOrder (c : Nat) (k : State → State) (s : State) : State :=
  engGuard c anyDest (fun s => if storesOut s c then s else k s) s

/-- KSIG (R313, R315). -/
def opKsig (c gd ga gb : Nat) (s : State) : State :=
  let w := encS 0x50 gd ga gb 0
  issue4 c w [gd, ga, gb] true false (releaseOrder c (knotBody 0 c gd ga gb w)) s

/-- KPEEK (R317). -/
def opKpeek (c gd ga gb : Nat) (s : State) : State :=
  let w := encS 0x50 gd ga gb 2
  issue4 c w [gd, ga] (decide (gb = 0)) false (knotBody 2 c gd ga gb w) s

/-- KSET (R318). -/
def opKset (c gd ga gb : Nat) (s : State) : State :=
  let w := encS 0x50 gd ga gb 3
  issue4 c w [gd, ga, gb] true true (knotBody 3 c gd ga gb w) s

/-- KWAIT (R313, R316). -/
def opKwait (c gd ga gb : Nat) (s : State) : State :=
  let w := encS 0x50 gd ga gb 1
  issue4 c w [gd, ga, gb] true false (fun s =>
    let name := (s.g c ga).toNat
    let b := s.g c gb
    let i := (s.core c).run
    if !knotNameOk name || !knotArgOk 1 b then trap c .illegal (n64 w) s
    else
      let key := knotKey name
      if !knotChip key && decide (knotCore key ≠ c) then knotFault c i kfNAME name w s
      else if knotChip key then
        sendKnot c (knotHome key) opKNOT name 1 b.toNat (fun x => .kwait name b.toNat gd (some x) (s.cycle c) 0) s
      else
        match knotWaitOp key (s.part c) { core := c, ctx := i, n := b.toNat, tx := none, rgen := (s.core c).rgen } s with
        | (.inl e, s) => knotFault c i e name w s
        | (.inr (some v), s) => knotDone c i gd v true s
        | (.inr none, s) => s.modCur c fun y => { y with wait := .kwait name b.toNat gd none (s.cycle c) 0 }) s

/-- Hitch instructions (R313, R314, R329, R330): FN 0 HARR, 1 HWAIT, 2 HPEEK. -/
def hitchBody (fn c gd ga gb w : Nat) (s : State) : State :=
  let h := (s.g c ga).toNat
  let g := (s.g c gb).toNat
  if 64 ≤ h ∨ (fn = 1 ∧ 65536 ≤ g) then trap c .illegal (n64 w) s
  else sendKnot c (epHub (h / 32)) opHITCH h fn (if fn = 1 then g else 0)
    (fun x => match fn with
      | 0 => .harr h gd x
      | 1 => .hwait h g gd x (s.cycle c)
      | _ => .kop 4 w h gd x) s

/-- HARR, release-ordered (R329). -/
def opHarr (c gd ga gb : Nat) (s : State) : State :=
  let w := encS 0x51 gd ga gb 0
  issue4 c w [gd, ga] (decide (gb = 0)) false (releaseOrder c (hitchBody 0 c gd ga gb w)) s

/-- HWAIT (R330). -/
def opHwait (c gd ga gb : Nat) (s : State) : State :=
  let w := encS 0x51 gd ga gb 1
  issue4 c w [gd, ga, gb] true false (hitchBody 1 c gd ga gb w) s

/-- HPEEK (R330). -/
def opHpeek (c gd ga gb : Nat) (s : State) : State :=
  let w := encS 0x51 gd ga gb 2
  issue4 c w [gd, ga] (decide (gb = 0)) false (hitchBody 2 c gd ga gb w) s

/-! Interrupts and abandoned waits (R67, R79, R80, R323). -/

/-- Enter the handler of the highest-priority pending source (R78, R79); no rule states EVAL of an interrupt: a free value
(log 33). -/
def takeInt (c : Nat) (s : State) : State :=
  let (v, s) := s.fresh
  enterExc c (s.core c).run true (ctz 8 (s.reg (rIPEND c) &&& s.reg (rIENABLE c)).toNat) v s

/-- At a row boundary TSTART holds the next row (R80, R107). -/
def atRow (c : Nat) (rows : List (Nat × Nat)) (s : State) : State :=
  match rows with
  | [] => s
  | (r, _) :: _ => s.modCur c fun x => { x with tstart := n64 r }

/-- A switch in maintenance mode away from the running context (R67, R68): it becomes WAITING, its PC at its instruction. -/
def maintAway (c : Nat) (s : State) : State :=
  let k := s.core c
  match k.nextCtx k.run with
  | none => s
  | some j => switchIn c j ((s.modCtx c k.run fun x => { x with st := .waiting, wait := .none }).count (rSWITCHES c) 1)

/-- A wait has been abandoned: the interrupt that became takeable, or else the switch that was decided (R80, R323). -/
def afterAbandon (c why : Nat) (s : State) : State :=
  if intOpen s c then takeInt c s else if why = 1 && s.maint c then maintAway c s else s

/-- The request of an abandoned or completed wait is still on its way: its number stays out of use (R403). -/
def keepTx (c x : Nat) (s : State) : State :=
  if s.net.any fun p => p.src == c && p.txid == x && (p.op == opHITCH || p.op == opKNOT) then
    s.modCore c fun k => { k with deadTx := ladd x k.deadTx }
  else s

/-- Remove a context's waiter from its own core's knot; the next may then be satisfied (R316). -/
def portRemove (key c i : Nat) (s : State) : State :=
  let stay := (s.waiters key).filter fun w => !(w.core == c && w.ctx == i && w.tx == none)
  release key (fget (s.knot key) CK_COUNT) { s with kwaits := tset key stay s.kwaits }

/-- Abandon the wait of the running context, for a switch (1) or an interrupt (2) (R323): a KWAIT at a hub first sends a
withdrawal. -/
def abandonWait (c why : Nat) (s : State) : State :=
  let i := (s.core c).run
  let off := fun (s : State) => afterAbandon c why (s.modCtx c i fun x => { x with wait := .none })
  match (s.cur c).wait with
  | .wfi _ | .swait _ _ _ => off s
  | .kwait name _ _ none _ _ => off (portRemove (knotKey name) c i (s.modCtx c i fun x => { x with wait := .none }))
  | .kwait name n gd (some x) since 0 =>
    (s.modCtx c i fun y => { y with wait := .kwait name n gd (some x) since why }).send
      { mkPkt (knotHome (knotKey name)) c clsSYNC opWITHDRAW (s.part c) name with txid := x, rgen := (s.core c).rgen }
  | .hwait h _ _ x _ =>
    off ((keepTx c x s).send
      { mkPkt (epHub (h / 32)) c clsSYNC opWITHDRAW (s.part c) h with txid := x, rgen := (s.core c).rgen, sub := 1 })
  | _ => s

/-- INTERRUPT_TAKEN (R79, R80, R323): between instructions, at a row boundary of a tile instruction, or by abandoning a
waiting instruction. -/
def interruptTaken (c : Nat) (s : State) : State :=
  let s := boundary c s
  let k := s.core c
  if !k.enabled || !s.flag (rCORE_CTL c) CORE_CTL_RUN || k.sw.isSome || k.move.isSome ||
      (s.cur c).st != .running || !intOpen s c then s
  else match (s.cur c).wait with
    | .none => takeInt c s
    | .tload _ rows _ _ | .tstore _ rows false _ => takeInt c (atRow c rows s)
    | _ => abandonWait c 2 s

/-- MAINT_SWITCH (R67): in maintenance mode, away from a context stalled in a waiting instruction. -/
def maintSwitch (late : State → Bool) (c : Nat) (s : State) : State :=
  let k := s.core c
  let th := s.fld (rCORE_MODE c) CORE_MODE_SW_THRESH
  let due := fun (since : Nat) => decide (since + th ≤ s.cycle c)
  if !s.maint c || !s.flag (rCORE_CTL c) CORE_CTL_RUN || k.sw.isSome || k.move.isSome || (k.nextCtx k.run).isNone then s
  else if intOpen s c then abandonWait c 2 s
  else match (s.cur c).wait with
    | .wfi t | .hwait _ _ _ _ t | .kwait _ _ _ _ t _ => if due t then abandonWait c 1 s else s
    | .swait _ _ _ => if late s then abandonWait c 1 s else s
    | _ => s

/-! Responses at the core. -/

/-- The context that waits for a knot or hitch response with transaction number `x`. -/
def knotWaiter (k : Core) (x : Nat) : Option Nat :=
  (List.range 4).find? fun i =>
    match (k.ctx i).wait with
    | .kwait _ _ _ (some y) _ _ => y == x
    | .kop _ _ _ _ y | .harr _ _ y | .hwait _ _ _ y _ => y == x
    | _ => false

/-- KNOT_RSP at a core (R316, R320, R323): a result, a refusal, or the answer to a withdrawal. -/
def knotRsp (c : Nat) (p : Packet) (s : State) : State :=
  if p.rgen ≠ (s.core c).rgen then staleRsp c s
  else match knotWaiter (s.core c) p.txid with
    | none => lateRsp c p.txid s
    | some i =>
      let v := bits p.payload.toNat 63 0
      match ((s.core c).ctx i).wait with
      | .kwait name _ gd _ _ wd =>
        if p.sub = krDONE then s
        else if p.sub = krREMOVED then afterAbandon c wd (s.modCtx c i fun x => { x with wait := .none })
        else if p.sub ≠ 0 then knotFault c i p.sub name 0 s
        else knotDone c i gd v true s
      | .kop _ w name gd _ => if p.sub ≠ 0 then knotFault c i p.sub name w s else knotDone c i gd v false s
      | .harr h gd _ => if p.sub ≠ 0 then knotFault c i p.sub h 0 s else knotDone c i gd v false s
      | .hwait h _ gd _ _ => if p.sub ≠ 0 then knotFault c i p.sub h 0 s else knotDone c i gd v true s
      | _ => s

/-- NACK at a core (R320, R363): a knot operation fails with NAME, a memory access as one of its kind. -/
def nackArrive (c : Nat) (p : Packet) (s : State) : State :=
  if p.rgen ≠ (s.core c).rgen then staleRsp c s
  else match knotWaiter (s.core c) p.txid with
    | some i => knotRsp c { p with sub := match ((s.core c).ctx i).wait with | .harr _ _ _ | .hwait _ _ _ _ _ => kfCLOSED | _ => kfNAME } s
    | none => if txOut (s.core c) p.txid then coreFail c p.txid .access (vaOf s p.part (pktByte { p with op := opWR })) s else lateRsp c p.txid s

/-! Arrivals at the homes. -/

/-- A response of a knot or hitch home. -/
def knotReply (p : Packet) (cause v : Nat) (s : State) : State :=
  s.send { reply p opKNOT_RSP with sub := cause, payload := BitVec.ofNat 1024 v }

/-- KNOT at its home (R315-R321, R324). -/
def knotArrive (p : Packet) (s : State) : State :=
  if p.op ≠ opKNOT ∨ knotNameOk p.addr = false then s
  else
    let key := knotKey p.addr
    let s := s.unsend p
    let n := bits p.payload.toNat 63 0
    let fn := p.sub % 16
    let work := fun (s : State) =>
      if 16 ≤ p.sub then engSignal key (p.sub / 16) p.part n s
      else if fn = 1 then
        (if isCoreEp p.src && ((s.core p.src).rst || p.rgen != (s.core p.src).rgen) then nack p nkRESET s
         else match knotWaitOp key p.part { core := p.src, ctx := 0, n := n, tx := some p.txid, rgen := p.rgen } s with
          | (.inl e, s) => knotReply p e 0 s
          | (.inr (some v), s) => knotReply p 0 v s
          | (.inr none, s) => s)
      else match knotOp key fn p.part (bit p.payload.toNat 64) n s with
        | (.inl e, s) => knotReply p e 0 s
        | (.inr v, s) => knotReply p 0 v s
    if knotChip key then work s else ejectReq { p with dst := knotCore key } work s

/-- WITHDRAW at a hub (R323, R324): removes the waiter and says so, or says that it has been satisfied; a hitch withdrawal
lowers WAITERS.  It follows its own request. -/
def withdrawArrive (p : Packet) (s : State) : State :=
  if p.op ≠ opWITHDRAW ∨
      (s.net.any fun q => q.src == p.src && q.txid == p.txid && (q.op == opKNOT || q.op == opHITCH)) = true then s
  else
    let s := s.unsend p
    if p.sub = 1 then
      let h := p.addr
      let stay := (tget [] s.hwaits h).filter fun (q : Packet) => !(q.src == p.src && q.txid == p.txid)
      { s with hwaits := tset h stay s.hwaits }.setFld (rHT_STAT h) HT_STAT_WAITERS stay.length
    else if isCoreEp p.src && ((s.core p.src).rst || p.rgen != (s.core p.src).rgen) then nack p nkRESET s
    else
      let key := knotKey p.addr
      let s := countOp key s
      let mine := fun (w : KWaiter) => w.core == p.src && w.tx == some p.txid
      if (s.waiters key).any mine then
        let s := { s with kwaits := tset key ((s.waiters key).filter fun w => !mine w) s.kwaits }
        knotReply p krREMOVED 0 (release key (fget (s.knot key) CK_COUNT) s)
      else knotReply p krDONE 0 s

/-! Hitches (R326-R335). -/

/-- Field of a hitch's configuration. -/
def State.ht (s : State) (h : Nat) (f : Fld) : Nat := s.fld (rHT_CFG h) f

/-- Is the core in group mask `m` (R327): bits of hidden cores count as 0. -/
def inMask (s : State) (m c : Nat) : Bool :=
  (s.core c).enabled && bit (s.reg (rHM_WORD m (coreMaskBit c / 64))).toNat (coreMaskBit c % 64)

/-- STATE codes of HT_STAT. -/
abbrev hCLOSED : Nat := 0
abbrev hOPEN : Nat := 1
abbrev hXWAIT : Nat := 2
abbrev hFAULT : Nat := 3

/-- State of a hitch. -/
def htState (s : State) (h : Nat) : Nat := s.fld (rHT_STAT h) HT_STAT_STATE

/-- A refusal at the hub, counted as misuse (R332). -/
def hitchRefuse (p : Packet) (cause : Nat) (s : State) : State :=
  knotReply p cause 0 (s.countSat rKH_HUB KH_HUB_MISUSE 1)

/-- Set the waiters of a hitch. -/
def setHwaits (h : Nat) (l : List Packet) (s : State) : State :=
  { s with hwaits := tset h l s.hwaits }.setFld (rHT_STAT h) HT_STAT_WAITERS l.length

/-- A generation completes (R331), without the held arrivals. -/
def hitchComplete (h : Nat) (s : State) : State :=
  let g := s.fld (rHT_STAT h) HT_STAT_GEN
  let p := s.ht h HT_CFG_PART
  let irq := s.ht h HT_CFG_IEN
  let s := s.setFld (rHT_STAT h) HT_STAT_GEN (g + 1)
  let s := { s with harrs := tdel h s.harrs }.setFld (rHT_STAT h) HT_STAT_ARRIVED 0
  let s := s.setFld (rHT_STAT h) HT_STAT_STATE hOPEN
  let s := setHwaits h [] (countBcast (s.count rHT_DONE 1))
  let s := each (fun c s => s.send { mkPkt c (epHub (h / 32)) clsBCAST opHITCH_DONE p h with
      payload := BitVec.ofNat 1024 g, sub := if irq = 1 && inMask s (s.ht h HT_CFG_MASK) c then 1 else 0 }) (s.partCores p) s
  if s.ht h HT_CFG_KEN = 1 then
    sendSignal (epHub (h / 32)) (s.fld (rHT_KNOT h) HT_KNOT_KNOT) 3 p
      (w64 (sext 32 (s.fld (rHT_KNOT h) HT_KNOT_N))).toNat s
  else s

/-- A cross-module hitch fails (R333): its waiters take XFAIL; ARRIVED falls to 0, so that software can close it (log 34). -/
def hitchFail (h : Nat) (s : State) : State :=
  let ws := tget [] s.hwaits h ++ tget [] s.hheld h
  let s := (setHwaits h [] s).setFld (rHT_STAT h) HT_STAT_STATE hFAULT
  let s := { s with harrs := tdel h s.harrs }.setFld (rHT_STAT h) HT_STAT_ARRIVED 0
  each (fun p s => hitchRefuse p kfXFAIL s) ws { s with hheld := tdel h s.hheld }

/-- The hitch has its arrivals: it completes, or sends (XG, GEN) to the Capstan, which reports failure when group XG is
FAILED (R331, R333, R390). -/
def hitchFull (h : Nat) (s : State) : State :=
  if s.ht h HT_CFG_XMOD = 1 then
    let xg := s.ht h HT_CFG_XG
    let s := s.setFld (rHT_STAT h) HT_STAT_STATE hXWAIT
    if s.fld (rCAP_GRP xg) CAP_GRP_STATE = 2 then hitchFail h s
    else { s with xsent := tset xg (h, s.fld (rHT_STAT h) HT_STAT_GEN) s.xsent }
  else hitchComplete h s

/-- An arrival at the hub (R329). -/
def hitchArrival (h : Nat) (p : Packet) (s : State) : State :=
  let q := p.src
  let st := htState s h
  if st = hCLOSED then hitchRefuse p kfCLOSED s
  else if st = hFAULT then hitchRefuse p kfXFAIL s
  else if s.ht h HT_CFG_PART ≠ p.part then hitchRefuse p kfHFOREIGN s
  else if !inMask s (s.ht h HT_CFG_MASK) q then hitchRefuse p kfOUTSIDE s
  else if st = hXWAIT then { s with hheld := tset h (tget [] s.hheld h ++ [p]) s.hheld }
  else if lhas q (tget [] s.harrs h) then hitchRefuse p kfDOUBLE s
  else
    let a := q :: tget [] s.harrs h
    let s := { s with harrs := tset h a s.harrs }.setFld (rHT_STAT h) HT_STAT_ARRIVED a.length
    let s := knotReply p 0 (s.fld (rHT_STAT h) HT_STAT_GEN) s
    if a.length = s.ht h HT_CFG_COUNT then hitchFull h s else s

/-- The Capstan reports that every module has sent (XG, GEN) (R333): the generation completes, then held arrivals apply. -/
def hitchXdone (h : Nat) (s : State) : State :=
  if htState s h ≠ hXWAIT then s
  else
    let held := tget [] s.hheld h
    each (hitchArrival h) held (hitchComplete h { s with hheld := tdel h s.hheld })

/-- A wait at the hub (R330). -/
def hitchWait (h : Nat) (p : Packet) (s : State) : State :=
  let st := htState s h
  let g := s.fld (rHT_STAT h) HT_STAT_GEN
  if st = hCLOSED then hitchRefuse p kfCLOSED s
  else if st = hFAULT then hitchRefuse p kfXFAIL s
  else if s.ht h HT_CFG_PART ≠ p.part then hitchRefuse p kfHFOREIGN s
  else if g ≠ bits p.payload.toNat 63 0 then knotReply p 0 g s
  else setHwaits h (tget [] s.hwaits h ++ [p]) s

/-- HITCH at its hub (R329, R330): HARR 0, HWAIT 1, HPEEK 2. -/
def hitchArrive (p : Packet) (s : State) : State :=
  if p.op ≠ opHITCH ∨ 64 ≤ p.addr then s
  else
    let s := s.unsend p
    match p.sub with
    | 0 => hitchArrival p.addr p s
    | 1 => hitchWait p.addr p s
    | _ => knotReply p 0 (s.reg (rHT_STAT p.addr)).toNat s

/-- A core's HWAITs on a hitch and generation complete (R331). -/
def hitchWake (c h g : Nat) : Nat → State → State
  | 0, s => s
  | i + 1, s =>
    let s := hitchWake c h g i s
    match ((s.core c).ctx i).wait with
    | .hwait h' g' gd x _ => if h' = h ∧ g' = g then knotDone c i gd ((g + 1) % 65536) true (keepTx c x s) else s
    | _ => s

/-- HITCH_DONE reaches a core (R331, R352, R353). -/
def hitchDone (p : Packet) (s : State) : State :=
  if p.op ≠ opHITCH_DONE ∨ s.inNet p = false then s
  else
    let c := p.dst
    let s := s.unsend p
    if gateShut s c then s.countSat (rPT_STAT (s.part c)) PT_STAT_DROP 1
    else if !(s.core c).enabled then s.countSat rCN_NACK CN_NACK_NO_DEST 1
    else if !ofPart s p then s.countSat rCN_NACK CN_NACK_FOREIGN 1
    else
      let s := hitchWake c p.addr (bits p.payload.toNat 63 0) 4 s
      if p.sub = 1 then s.ipend c 3 else s

/-! Memory-mapped writes (R311, R328, R336-R338). -/

/-- Is a write of a knot word by an origin accepted (R311, R312, R336, R337). -/
def knotWordOk (o : Origin) (key : Nat) (v : Word) (s : State) : Bool :=
  let old := s.knot key
  let full := match o with
    | .core c => !knotChip key || (fget old CK_PART == s.part c && fget v CK_PART == fget old CK_PART && fget v CK_KIND == fget old CK_KIND)
    | _ => true
  let wrap := fget v CK_KIND == 3
  full && (s.waiters key).isEmpty &&
    (if knotChip key then !(wrap && fget old CK_KIND != 3 && decide (256 ≤ s.fld rKH_HUB KH_HUB_WRAP_USED)) else !wrap)

/-- Write a knot word and keep WRAP_USED. -/
def knotWordSet (key : Nat) (v : Word) (s : State) : State :=
  let old := s.knot key
  let s := countOp key (s.setReg (knotReg key) v)
  if knotChip key then
    let n := s.fld rKH_HUB KH_HUB_WRAP_USED + b2n (fget v CK_KIND == 3) - b2n (fget old CK_KIND == 3)
    s.setFld rKH_HUB KH_HUB_WRAP_USED n
  else s

/-- KNOT_WORD_WRITE (R336, R337). -/
def opKnotWord (o : Origin) (key : Nat) (v : Word) (s : State) : State :=
  regWrite o (knotReg key) (knotWordOk o key v) (knotWordSet key v) s

/-- May an origin write registers of hitch `h`: M-level code only of its own partition's, and not PART (R338). -/
def hitchMay (o : Origin) (h : Nat) (cfg : Option Word) (s : State) : Bool :=
  match o with
  | .core c => s.ht h HT_CFG_PART == s.part c && (match cfg with | some v => fget v HT_CFG_PART == s.part c | none => true)
  | _ => true

/-- Is a write of HT_CFG accepted (R328). -/
def htCfgOk (o : Origin) (h : Nat) (v : Word) (s : State) : Bool :=
  let p := fget v HT_CFG_PART
  hitchMay o h (some v) s &&
    (if fbit v HT_CFG_EN then
      htState s h == hCLOSED && decide (1 ≤ fget v HT_CFG_COUNT) &&
        decide (fget v HT_CFG_COUNT ≤ ((s.partCores p).filter fun c => inMask s (fget v HT_CFG_MASK) c).length)
     else s.fld (rHT_STAT h) HT_STAT_ARRIVED == 0 && s.fld (rHT_STAT h) HT_STAT_WAITERS == 0)

/-- The effect of an accepted write of HT_CFG (R328). -/
def htCfgSet (h : Nat) (v : Word) (s : State) : State :=
  let s := typedWrite s (rHT_CFG h) v
  let s := { s with harrs := tdel h s.harrs }
  s.setFld (rHT_STAT h) HT_STAT_STATE (if fbit v HT_CFG_EN then hOPEN else hCLOSED)

/-- HT_CFG_WRITE. -/
def opHtCfg (o : Origin) (h : Nat) (v : Word) (s : State) : State :=
  regWrite o (rHT_CFG h) (htCfgOk o h v) (htCfgSet h v) s

/-- HITCH_MASK_WRITE: refused while a hitch that is not CLOSED names the mask (R328); bits past 703 do not exist (R327). -/
def opHitchMask (o : Origin) (m w : Nat) (v : Word) (s : State) : State :=
  regWrite o (rHM_WORD m w)
    (fun s => !((List.range 64).any fun h => htState s h != hCLOSED && s.ht h HT_CFG_MASK == m))
    (fun s => typedWrite s (rHM_WORD m w) v) s

/-- Is a write of HT_STAT accepted: GEN only while the hitch is CLOSED (R328, R338). -/
def htStatOk (o : Origin) (h : Nat) (s : State) : Bool := hitchMay o h none s && htState s h == hCLOSED

/-! Resets (R324, R335). -/

/-- The knots and hitches of a core in a reset (R324, R335): its knots are OFF, its waiters leave the hubs' queues and are
answered, its arrivals are taken back. -/
def knotReset (c : Nat) (s : State) : State :=
  let s := upto (fun k s => s.resetReg (rKN c k)) 64 s
  let s := ((s.resetReg (rKH_FAULT c)).resetReg (rKN_ERR c)).resetReg (rKN_IRQ c)
  let s := { s with kwaits := s.kwaits.filter fun x => !(decide (8192 ≤ x.1) && (x.1 - 8192) / 64 == c) }
  let s := each (fun x s =>
    let key : Nat := x.1
    let mine := x.2.filter fun (w : KWaiter) => w.core == c
    if mine.isEmpty then s
    else
      let s := { s with kwaits := tset key (x.2.filter fun (w : KWaiter) => w.core != c) s.kwaits }
      let s := each (fun (w : KWaiter) s => s.send { mkPkt c (knotHome key) clsRSP opNACK (s.part c) (knotName key) with
          txid := w.tx.getD 0, rgen := w.rgen, cause := nkRESET }) mine s
      release key (fget (s.knot key) CK_COUNT) s) s.kwaits s
  let s := upto (fun h s =>
    let l := tget [] s.harrs h
    if lhas c l then
      { s with harrs := tset h (ldrop c l) s.harrs }.setFld (rHT_STAT h) HT_STAT_ARRIVED (ldrop c l).length
    else s) 64 s
  upto (fun h s =>
    let l := tget [] s.hwaits h
    if l.any fun p => p.src == c then setHwaits h (l.filter fun (p : Packet) => p.src != c) s else s) 64 s

/-- A partition reset closes its hitches (R335). -/
def hitchReset (p : Nat) (s : State) : State :=
  upto (fun h s =>
    if s.ht h HT_CFG_PART = p ∧ htState s h ≠ hCLOSED then
      let s := (s.setFlag (rHT_CFG h) HT_CFG_EN false).setFld (rHT_STAT h) HT_STAT_STATE hCLOSED
      let s := { s with harrs := tdel h s.harrs, hheld := tdel h s.hheld }.setFld (rHT_STAT h) HT_STAT_ARRIVED 0
      setHwaits h [] s
    else s) 64 s

end Sys2Proof.Machine
end

