-- ==== Sys2Proof/Machine/Engine.lean ====
section
/-! DEFINITION. Virtual accesses of engines outside the cores (R211, R228, R229, R252, R254, R392, R423, R430): the checks,
the gates of the homes, and reads and writes line by line. -/

namespace Sys2Proof.Machine

/-- The fault of an engine's access of partition `p`: scratchpads are out of its reach. -/
def eFaultV (s : State) (p : Nat) (m : Bool) (k : AccK) (va n : Nat) : Option (Exc × Nat) :=
  let lo := spadBase s p
  if lo < va + n ∧ va < lo + 2 ^ 20 then some (k.acc, max va lo) else accFault s p m k va n

/-- Does an engine's access stand open at every home. -/
def eGateV (s : State) (p : Nat) (write : Bool) (va n : Nat) : Bool :=
  (vlines va n).all fun vl =>
    match place s p true (if write then .store else .load) (max va (vl * 128)) with
    | .mem pa => gateOpen (pa / 128) write s
    | _ => true

/-- Start what an engine's access waits for. -/
def ePrepV (p tag fmt : Nat) (write : Bool) (va n : Nat) (s : State) : State :=
  each (fun vl s =>
    match place s p true (if write then .store else .load) (max va (vl * 128)) with
    | .mem pa => if gateOpen (pa / 128) write s then s else gatePrep (pa / 128) p tag fmt write s
    | _ => s) (vlines va n) s

/-- Read an engine's bytes by lines: bytes, virtual address of the first uncorrectable word, the homes' new state. -/
def eReadLV (p tag va n : Nat) (cons fg : Bool) : List Nat → State → List Byte × Option Nat × State
  | [], s => ([], none, s)
  | vl :: r, s =>
    let a := max va (vl * 128)
    let e := min (va + n) ((vl + 1) * 128)
    match place s p true .load a with
    | .mem pa =>
      let (bs, bad, s) := engRead pa (e - a) p tag cons false fg s
      let bad := bad.map fun w => if isCw pa then a else max a (w * 4 - pa + a)
      let (bs', bad', s) := eReadLV p tag va n cons fg r s
      (bs ++ bs', (match bad with | some x => some x | none => bad'), s)
    | _ => ([], some a, s)

/-- Read `n` bytes at `va` for an engine of partition `p`. -/
def eReadV (p tag va n : Nat) (cons fg : Bool) (s : State) : List Byte × Option Nat × State :=
  eReadLV p tag va n cons fg (vlines va n) s

/-- Write an engine's bytes by lines. -/
def eWriteLV (p tag fmt : Nat) (nf : Bool) (eng va : Nat) (bs : List Byte) : List Nat → State → State
  | [], s => s
  | vl :: r, s =>
    let a := max va (vl * 128)
    let e := min (va + bs.length) ((vl + 1) * 128)
    let s := match place s p true .store a with
      | .mem pa => engWrite pa ((bs.drop (a - va)).take (e - a)) p tag fmt nf false true eng s
      | _ => s
    eWriteLV p tag fmt nf eng va bs r s

/-- Write bytes at `va` for an engine of partition `p`. -/
def eWriteV (p tag fmt : Nat) (nf : Bool) (eng va : Nat) (bs : List Byte) (s : State) : State :=
  eWriteLV p tag fmt nf eng va bs (vlines va bs.length) s

/-- What the fabrics count of an engine's lines between endpoint `ep` and their homes (R357). -/
def eWay (ep p va n : Nat) (s : State) : State :=
  each (fun vl s =>
    match place s p true .load (max va (vl * 128)) with
    | .mem pa => countLines ep (homeEp s pa) 1 s
    | _ => s) (vlines va n) s

/-- Device-physical address of a virtual one, 0 where none exists. -/
def ePaV (s : State) (p va : Nat) : Nat :=
  match place s p true .load va with
  | .mem pa => pa
  | _ => 0

/-- Has a line of an engine's write failed at the companion before (R419): the write then fails, and the failure is used up. -/
def lostV (s : State) (p va n : Nat) : Option Nat :=
  (vlines va n).find? fun vl =>
    match place s p true .store (max va (vl * 128)) with
    | .mem pa => isCw pa && tget? (pa / 128) s.cwBuf == some none
    | _ => false

/-- Use up the failures of an engine's write. -/
def dropLostV (p va n : Nat) (s : State) : State :=
  each (fun vl s =>
    match place s p true .store (max va (vl * 128)) with
    | .mem pa => if isCw pa && tget? (pa / 128) s.cwBuf == some none then { s with cwBuf := tdel (pa / 128) s.cwBuf } else s
    | _ => s) (vlines va n) s

end Sys2Proof.Machine
end

