-- ==== Sys2Proof/Machine/Culvert.lean ====
section
/-! DEFINITION. The Culvert (R293-R308): descriptors, elements, the Braid form and completion; the Hawser ports' chip-level
channels use the same operations (R392). -/

namespace Sys2Proof.Machine

/-- A channel: of a core, or a chip-level channel of a Hawser port. -/
inductive Chan where
  | cv (c n : Nat)
  | hc (p n : Nat)
  deriving DecidableEq, Repr

/-- Key of a channel's engine state. -/
def Chan.key : Chan → Nat
  | .cv c n => 8 * c + n
  | .hc p n => 8192 + 16 * p + n

/-- CV_HEAD of the channel; its other registers follow at the offsets of R308. -/
def Chan.base : Chan → Nat
  | .cv c n => rCV_HEAD c n
  | .hc p n => rHC_HEAD p n

/-- CV_COUNT. -/
def Chan.rCount (ch : Chan) : Nat := ch.base + 0x08
/-- CV_STAT. -/
def Chan.rStat (ch : Chan) : Nat := ch.base + 0x10
/-- CV_ERRADDR. -/
def Chan.rErr (ch : Chan) : Nat := ch.base + 0x18
/-- CV_CTL. -/
def Chan.rCtl (ch : Chan) : Nat := ch.base + 0x20
/-- CV_DONE. -/
def Chan.rDone (ch : Chan) : Nat := ch.base + 0x28
/-- CV_BYTES. -/
def Chan.rBytes (ch : Chan) : Nat := ch.base + 0x30

/-- Partition of a channel (R294, R392). -/
def Chan.part (s : State) : Chan → Nat
  | .cv c _ => s.part c
  | .hc p n => s.fld (rHC_CFG p n) HC_CFG_PART

/-- Identity of a channel as an engine of writes to the companion window. -/
def Chan.eng (ch : Chan) : Nat := 0x10000 + ch.key

/-- Engine state of a channel. -/
def State.chan (s : State) (ch : Chan) : Chn := tget Chn.reset s.chans ch.key

/-- Replace it. -/
def State.setChan (s : State) (ch : Chan) (x : Chn) : State := { s with chans := tset ch.key x s.chans }

/-! STATE codes of CV_STAT. -/
abbrev cvIDLE : Nat := 0
abbrev cvRUN : Nat := 1
abbrev cvSTOPPED : Nat := 2
abbrev cvERROR : Nat := 3

/-- STATE of a channel. -/
def chState (s : State) (ch : Chan) : Nat := s.fld ch.rStat CV_STAT_STATE

/-! Descriptors (R294, R295): a descriptor is the number in its 64 bytes. -/

/-- Word w of a descriptor. -/
def dW (d w : Nat) : Nat := bits d (64 * w + 63) (64 * w)
/-- NEXT, when NV is set. -/
def dNext (d : Nat) : Option Nat := if bit (dW d 0) 0 then some (bits (dW d 0) 47 6 * 64) else none
/-- SRC. -/
def dSrc (d : Nat) : Nat := bits (dW d 1) 47 0
/-- DST. -/
def dDst (d : Nat) : Nat := bits (dW d 2) 47 0
/-- IDX. -/
def dIdx (d : Nat) : Nat := bits (dW d 3) 47 0
/-- LEN. -/
def dLen (d : Nat) : Nat := bits (dW d 4) 39 0
/-- COUNT. -/
def dCount (d : Nat) : Nat := bits (dW d 5) 31 0
/-- ESIZE. -/
def dEsize (d : Nat) : Nat := (bits (dW d 5) 40 32 + 1) * 16
/-- TAG. -/
def dTag (d : Nat) : Nat := bits (dW d 6) 15 0
/-- MODE. -/
def dMode (d : Nat) : Nat := bits (dW d 6) 21 20
/-- BRAID. -/
def dBraid (d : Nat) : Bool := bit (dW d 6) 22
/-- UNBRAID. -/
def dUnbraid (d : Nat) : Bool := bit (dW d 6) 23
/-- INT. -/
def dInt (d : Nat) : Bool := bit (dW d 6) 24
/-- KEN. -/
def dKen (d : Nat) : Bool := bit (dW d 6) 25
/-- FMT. -/
def dFmt (d : Nat) : Nat := bits (dW d 6) 19 16
/-- WB. -/
def dWb (d : Nat) : Bool := bit (dW d 6) 26
/-- KNOT. -/
def dKnot (d : Nat) : Nat := bits (dW d 6) 37 32

/-- Are the reserved bits of a descriptor 0 (R294). -/
def dReserved (d : Nat) : Bool :=
  bits (dW d 0) 63 48 == 0 && bits (dW d 0) 5 1 == 0 && bits (dW d 1) 63 48 == 0 && bits (dW d 2) 63 48 == 0 &&
    bits (dW d 3) 63 48 == 0 && bits (dW d 4) 63 40 == 0 && bits (dW d 5) 63 41 == 0 && bits (dW d 6) 31 27 == 0 &&
    bits (dW d 6) 63 38 == 0 && dW d 7 == 0

/-- Elements of a descriptor (R296). -/
def dElems (d : Nat) : Nat := if dMode d = 0 then cdiv (dLen d) (dEsize d) else dCount d

/-- Is a descriptor refused with DESC (R295); a chip-level copy moves multiples of 16 bytes (R392). -/
def dBad (chip : Bool) (d : Nat) : Bool :=
  let br := dBraid d || dUnbraid d
  !dReserved d || dMode d == 3 || (dBraid d && dUnbraid d) ||
    (br && (dMode d != 0 || dLen d % 256 != 0 || dEsize d % 256 != 0 || decide (2 ^ 28 < dLen d))) ||
    (dMode d == 0 && (dCount d != 0 || dLen d == 0)) ||
    ((dMode d == 1 || dMode d == 2) && (dCount d == 0 || dLen d != dCount d * dEsize d)) ||
    (chip && dMode d == 0 && dLen d % 16 != 0)

/-- The lowest misaligned address (R295, R301). -/
def dMisaligned (d : Nat) : Option Nat :=
  let l := (if dSrc d % 16 ≠ 0 then [dSrc d] else []) ++ (if dDst d % 16 ≠ 0 then [dDst d] else []) ++
    (if dIdx d % 4 ≠ 0 then [dIdx d] else [])
  match l with
  | [] => none
  | a :: r => some (r.foldl min a)

/-! Codes of R301, and LINK of R393. -/
abbrev cvDESC : Nat := 1
abbrev cvALIGN : Nat := 2
abbrev cvPAGE : Nat := 3
abbrev cvDATA : Nat := 4
abbrev cvHDR : Nat := 5
abbrev cvLINK : Nat := 6

/-- Why a channel's access does not go on: it waits at a home, which is told so, or fails with a code and an address. -/
inductive ChStop where
  | wait (prep : State → State)
  | fail (code addr : Nat) (s : State)

/-- Fault of a channel's access (R301, R392). -/
def chFault (s : State) (ch : Chan) (k : AccK) (va n : Nat) : Option (Exc × Nat) :=
  match ch with
  | .cv c _ => accFault s (s.part c) (s.chan ch).priv k va n
  | .hc _ _ => eFaultV s (ch.part s) true k va n

/-- The endpoint from which a channel reaches the homes: its core, or the port's router 0 for channels 0-7 and router 1 for 8-15
(R357). -/
def Chan.router : Chan → Nat
  | .cv c _ => c
  | .hc p n => epHawser p (n / 8)

/-- Count the translation of a channel's access in its core's or its port's cache (R254, R393), which the port's first endpoint
names. -/
def chTouch (ch : Chan) (va n : Nat) (s : State) : State :=
  match ch with
  | .cv c _ => touchTcN c (s.part c) va n s
  | .hc p _ => touchEcN (epHawser p 0) (ch.part s) va n s

/-- Read `n` bytes at `va` for a channel: checked, gated and correctable, or a stop. -/
def chRead (ch : Chan) (tag fmt va n : Nat) (s : State) : Except ChStop (List Byte × State) :=
  match chFault s ch .load va n with
  | some (_, a) => .error (.fail cvPAGE a (chTouch ch va (a + 1 - va) s))
  | none =>
    let s := chTouch ch va n s
    match ch with
    | .cv c _ =>
      if !coreGate s c false false va n then .error (.wait (corePrep c tag fmt false va n))
      else match coreRead c tag false va n s with
        | (bs, none, s) => .ok (bs, s)
        | (_, some a, s) => .error (.fail cvDATA a s)
    | .hc _ _ =>
      let p := ch.part s
      if !eGateV s p false va n then .error (.wait (ePrepV p tag fmt false va n))
      else match eReadV p tag va n true true (eWay ch.router p va n s) with
        | (bs, none, s) => .ok (bs, s)
        | (_, some a, s) => .error (.fail cvDATA a s)

/-- Check that `n` bytes at `va` can be written now. -/
def chWritable (ch : Chan) (tag fmt va n : Nat) (s : State) : Except ChStop State :=
  match chFault s ch .store va n with
  | some (_, a) => .error (.fail cvPAGE a (chTouch ch va (a + 1 - va) s))
  | none =>
    let s := chTouch ch va n s
    match lostV s (ch.part s) va n with
    | some vl => .error (.fail cvDATA (max va (vl * 128)) (dropLostV (ch.part s) va n s))
    | none =>
    match ch with
    | .cv c _ => if coreGate s c false true va n then .ok s else .error (.wait (corePrep c tag fmt true va n))
    | .hc _ _ => if eGateV s (ch.part s) true va n then .ok s else .error (.wait (ePrepV (ch.part s) tag fmt true va n))

/-- Check every write of a list. -/
def chWritables (ch : Chan) (tag fmt : Nat) : List (Nat × List Byte) → State → Except ChStop State
  | [], s => .ok s
  | (va, bs) :: r, s =>
    match chWritable ch tag fmt va bs.length s with
    | .error e => .error e
    | .ok s => chWritables ch tag fmt r s

/-- Write for a channel. -/
def chWrite (ch : Chan) (tag fmt : Nat) (nf : Bool) (va : Nat) (bs : List Byte) (s : State) : State :=
  match ch with
  | .cv c _ => coreWrite c tag fmt false nf ch.eng va bs s
  | .hc _ _ => eWriteV (ch.part s) tag fmt nf ch.eng va bs (eWay ch.router (ch.part s) va bs.length s)

/-! The Braid form (R302-R306). -/

/-- The mask of a block's non-zero bytes. -/
def braidMask : List Byte → Nat
  | [] => 0
  | b :: r => b2n (b != 0) + 2 * braidMask r

/-- Stored form of a block: header without OFF16, and stored bytes (R302, R303). -/
def braidBlock (bs : List Byte) : Nat × List Byte :=
  let nz := bs.filter fun b => b != 0
  if nz.isEmpty then (0, [])
  else if nz.length ≤ 192 then
    let l := cdiv (32 + nz.length) 16
    let body := leBytes 32 (braidMask bs) ++ nz
    (l <<< 24, body ++ List.replicate (16 * l - body.length) 0)
  else ((1 <<< 31) ||| (16 <<< 24), bs)

/-- BRAID of the blocks of an element: headers and stored bytes, from offset `off` in 16-byte units (R304). -/
def braidAll : List (List Byte) → Nat → List Nat × List Byte × Nat
  | [], off => ([], [], off)
  | b :: r, off =>
    let (h, st) := braidBlock b
    let (hs, ss, off') := braidAll r (off + st.length / 16)
    ((h ||| off) :: hs, st ++ ss, off')

/-- The non-zero bytes put back under a mask. -/
def unbraidBytes (mask : Nat) : Nat → List Byte → List Byte
  | 0, _ => []
  | n + 1, bs =>
    if mask % 2 = 1 then bs.headD 0 :: unbraidBytes (mask / 2) n bs.tail else 0 :: unbraidBytes (mask / 2) n bs

/-- Is a header legal (R306). -/
def braidHdrOk (h : Nat) : Bool :=
  let l := bits h 28 24
  bits h 30 29 == 0 && !(l == 1 || l == 2 || l == 15 || decide (16 < l)) && (bit h 31 == (l == 16))

/-- A block from its stored bytes, or none for an illegal mask (R306). -/
def unbraidBlock (h : Nat) (st : List Byte) : Option (List Byte) :=
  let l := bits h 28 24
  if l = 0 then some (List.replicate 256 0)
  else if l = 16 then some st
  else
    let mask := leNat (st.take 32)
    let p := popc 256 mask
    if p = 0 ∨ 192 < p ∨ cdiv (32 + p) 16 ≠ l then none
    else some (unbraidBytes mask 256 (st.drop 32))

/-- Split bytes into blocks of 256. -/
def blocks256 : Nat → List Byte → List (List Byte)
  | 0, _ => []
  | n + 1, bs => bs.take 256 :: blocks256 n (bs.drop 256)

/-- Read and decompress `n` blocks from block `j` (R303, R304, R306). -/
def unbraidRead (ch : Chan) (d j : Nat) : Nat → State → Except ChStop (List Byte × State)
  | 0, s => .ok ([], s)
  | n + 1, s =>
    match chRead ch 0 0xF (dIdx d + 4 * j) 4 s with
    | .error e => .error e
    | .ok (hb, s) =>
      let h := leNat hb
      if !braidHdrOk h then .error (.fail cvHDR (dIdx d + 4 * j) s)
      else
        let l := bits h 28 24
        let a := dSrc d + 16 * bits h 23 0
        match (if l = 0 then .ok ([], s) else chRead ch (dTag d) (dFmt d) a (16 * l) s : Except ChStop (List Byte × State)) with
        | .error e => .error e
        | .ok (st, s) =>
          match unbraidBlock h st with
          | none => .error (.fail cvHDR a s)
          | some b =>
            match unbraidRead ch d (j + 1) n s with
            | .error e => .error e
            | .ok (bs, s) => .ok (b ++ bs, s)

/-- What an element writes: its writes to DST, and for BRAID its side-table headers (address, bytes) and the new offset. -/
structure ElOut where
  data : Nat × List Byte
  side : List (Nat × List Byte)
  off : Nat
  deriving DecidableEq, Repr

/-- Read element `k` of a descriptor whole and convert it (R296, R297, R304). -/
def elemRead (ch : Chan) (d k : Nat) (s : State) : Except ChStop (ElOut × State) :=
  let es := dEsize d
  let n := if dMode d = 0 then min es (dLen d - k * es) else es
  let off := (s.chan ch).off
  if dUnbraid d then
    match unbraidRead ch d (k * (es / 256)) (n / 256) s with
    | .error e => .error e
    | .ok (bs, s) => .ok ({ data := (dDst d + k * es, bs), side := [], off := off }, s)
  else
    let ix : Except ChStop (Nat × State) :=
      if dMode d = 0 then .ok (k, s)
      else match chRead ch 0 0xF (dIdx d + 4 * k) 4 s with
        | .error e => .error e
        | .ok (bs, s) => .ok (leNat bs, s)
    match ix with
    | .error e => .error e
    | .ok (i, s) =>
      let src := dSrc d + (if dMode d = 1 then i else k) * es
      let dst := dDst d + (if dMode d = 2 then i else k) * es
      match chRead ch (dTag d) (dFmt d) src n s with
      | .error e => .error e
      | .ok (bs, s) =>
        if dBraid d then
          let (hs, st, off') := braidAll (blocks256 (n / 256) bs) off
          let j := k * (es / 256)
          .ok ({ data := (dDst d + 16 * off, st), side := [(dIdx d + 4 * j, hs.flatMap fun h => leBytes 4 h)], off := off' }, s)
        else .ok ({ data := (dst, bs), side := [], off := off }, s)

/-! Events of a channel. -/

/-- Set the DONE or ERR bit and the core's interrupt (R299, R301, R392). -/
def chIrq (ch : Chan) (err : Bool) (s : State) : State :=
  match ch with
  | .cv c n =>
    let s := s.setReg (rCV_IRQ c) (s.reg (rCV_IRQ c) ||| n64 (2 ^ (n + if err then 8 else 0)))
    s.ipend c (if err then 0 else 4)
  | .hc p n =>
    let s := s.setReg (rHC_IRQ p) (s.reg (rHC_IRQ p) ||| n64 (2 ^ (n + if err then 16 else 0)))
    let c := s.fld (rHC_CFG p n) HC_CFG_ICORE
    if coreIdOk c then s.ipend c (if err then 0 else 4) else s

/-- A channel stops with an error at its element (R301). -/
def chError (ch : Chan) (code addr : Nat) (s : State) : State :=
  let s := s.setFld ch.rErr CV_ERRADDR_ADDR addr
  let s := (s.setFld ch.rStat CV_STAT_CODE code).setFld ch.rStat CV_STAT_STATE cvERROR
  let s := chIrq ch true s
  match ch with
  | .cv c n =>
    if s.flag ch.rCtl CV_CTL_ENGERR then engError c 4 (n * 16 + code) (ePaV s (s.part c) addr) (s.chan ch).task 5 0 s else s
  | .hc _ _ => s

/-- Put a stop into effect: a wait leaves the state `s0` before the access. -/
def chStop (ch : Chan) (s0 : State) : ChStop → State
  | .wait f => f s0
  | .fail code addr s => chError ch code addr s

/-- Start the list at `head`, or resume the current descriptor at head 0 (R298): whether it is accepted, and the state. -/
def chStart (ch : Chan) (head task : Nat) (priv : Bool) (s : State) : Bool × State :=
  let st := chState s ch
  if head ≠ 0 then
    if st ≠ cvIDLE then (false, s)
    else
      let s := s.setReg ch.base (n64 (bits head 47 6 * 64))
      let s := s.setReg ch.rStat (fset (fset 0 CV_STAT_STATE cvRUN) CV_STAT_ELEM 0)
      (true, s.setChan ch { Chn.reset with task := task, priv := priv, serial := (s.chan ch).serial + 1 })
  else if st = cvSTOPPED ∨ st = cvERROR then
    let x := s.chan ch
    let restart := match x.cur with | some d => dBraid d || dUnbraid d | none => false
    let s := s.setFld ch.rStat CV_STAT_STATE cvRUN
    let s := if restart then s.setFld ch.rStat CV_STAT_ELEM 0 else s
    (true, s.setChan ch { x with serial := x.serial + 1, task := task, priv := priv, ddone := none, word := false, sent := s.fld ch.rStat CV_STAT_ELEM,
                                 off := if restart then 0 else x.off, out := if restart then 0 else x.out })
  else (false, s)

/-- CSTART (R278, R298), release-ordered. -/
def opCstart (c gd ga gb : Nat) (s : State) : State :=
  let w := encS 0x49 gd ga gb 0
  issue4 c w [gd, ga, gb] true false (releaseOrder c fun s =>
    if !ctxOk (s.g c ga) 3 then trap c .illegal (n64 w) s
    else
      let (ok, s) := chStart (.cv c (s.g c ga).toNat) (s.g c gb).toNat (s.core c).run (s.cur c).isM s
      s.retireG c gd (n64 (b2n ok)) 4) s

/-- Stop a channel at its element boundary (R301). -/
def chHalt (ch : Chan) (s : State) : State :=
  if chState s ch = cvRUN then s.setFld ch.rStat CV_STAT_STATE cvSTOPPED else s

/-- CSTOP (R278, R301). -/
def opCstop (c gd ga gb : Nat) (s : State) : State :=
  let w := encS 0x49 gd ga gb 1
  issue4 c w [gd, ga] (decide (gb = 0)) false (fun s =>
    if !ctxOk (s.g c ga) 3 then trap c .illegal (n64 w) s
    else (chHalt (.cv c (s.g c ga).toNat) s).retireG c gd 0 4) s

/-- CSTAT (R278). -/
def opCstat (c gd ga gb : Nat) (s : State) : State :=
  let w := encS 0x49 gd ga gb 2
  issue4 c w [gd, ga] (decide (gb = 0)) false (fun s =>
    if !ctxOk (s.g c ga) 3 then trap c .illegal (n64 w) s
    else s.retireG c gd (s.reg (Chan.cv c (s.g c ga).toNat).rStat) 4) s

/-- Is the channel a chip-level one. -/
def Chan.chip : Chan → Bool
  | .cv _ _ => false
  | .hc _ _ => true

/-- CULVERT_DESC_FETCH (R295, R297): the current descriptor is read and checked; the next one may be read once the current
one has started, and its errors are found when its turn comes. -/
def descFetch (ch : Chan) (s : State) : State :=
  let x := s.chan ch
  if chState s ch ≠ cvRUN then s
  else match x.cur with
    | none =>
      let a := fget (s.reg ch.base) CV_HEAD_ADDR * 64
      (match chRead ch 0 0xF a 64 s with
       | .error e => chStop ch s e
       | .ok (bs, s) =>
         let d := leNat bs
         if dBad ch.chip d then chError ch cvDESC a s
         else match dMisaligned d with
           | some m => chError ch cvALIGN m s
           | none => s.setChan ch { s.chan ch with cur := some d })
    | some d =>
      match dNext d, x.next with
      | some a, none =>
        (match chRead ch 0 0xF a 64 s with
         | .error (.wait f) => f s
         | .error (.fail _ _ _) => s
         | .ok (bs, s') =>
           let n := leNat bs
           if dBad ch.chip n || (dMisaligned n).isSome then s else s'.setChan ch { s'.chan ch with next := some n })
      | _, _ => s

/-- CULVERT_ELEMENT of a core's channel (R296, R297, R300, R304): the next element is read whole, converted and written.
`nf` is the OR of the NF of its source packets. -/
def culvertElement (c n : Nat) (nf : Bool) (s : State) : State :=
  let ch := Chan.cv c n
  let k := s.fld ch.rStat CV_STAT_ELEM
  match (s.chan ch).cur with
  | none => s
  | some d =>
    if chState s ch ≠ cvRUN ∨ dElems d ≤ k then s
    else match elemRead ch d k s with
      | .error e => chStop ch s e
      | .ok (o, s1) =>
        match chWritables ch (dTag d) (dFmt d) (o.data :: o.side) s1 with
        | .error e => chStop ch s e
        | .ok s2 =>
          let s := chWrite ch (dTag d) (dFmt d) nf o.data.1 o.data.2 s2
          let s := each (fun (w : Nat × List Byte) s => chWrite ch 0 0xF false w.1 w.2 s) o.side s
          let s := (s.count ch.rBytes o.data.2.length).setFld ch.rStat CV_STAT_ELEM (k + 1)
          let x := s.chan ch
          s.setChan ch { x with off := o.off, out := x.out + o.data.2.length }

/-- Count a completed descriptor (R299). -/
def chCount (ch : Chan) (d : Nat) (s : State) : State :=
  let cur := s.fld ch.rCount CV_COUNT_CUR + 1
  let rel := s.fld ch.rCount CV_COUNT_RELOAD
  let hit := decide (rel ≠ 0) && cur == rel
  let s := s.setFld ch.rCount CV_COUNT_CUR (if hit then 0 else cur)
  let s := s.count ch.rDone 1
  if hit || dInt d then chIrq ch false s else s

/-- Does an atomic addition at `va` fail: its translation, or a place that no atomic reaches (R58, R307). -/
def bstatFails (s : State) (p va : Nat) : Bool :=
  (accFault s p true .store va 8).isSome ||
    (match place s p true .store va with | .mem pa => isCw pa | _ => true)

/-- One addition to a tag's Braid counters, as an atomic at its home (R58, R307): dropped and counted when it fails there. -/
def bstatAdd (c va n : Nat) (s : State) : State :=
  let p := s.part c
  if bstatFails s p va then (touchTc c p va s).count (rCV_BDROP c) 1
  else
    match coreRead c 0 false va 8 s with
    | (bs, none, s) => coreWrite c 0 0xF false false 0 va (leBytes 8 (leNat bs + n)) s
    | (_, some _, s) => s

/-- The Braid counters of a completed BRAID descriptor (R307). -/
def bstat (c d out : Nat) (s : State) : State :=
  if s.flag (rCV_BSTAT c) CV_BSTAT_EN && dBraid d && ownsTag s (s.part c) (dTag d) then
    let a := fget (s.reg (rCV_BSTAT c)) CV_BSTAT_BASE * 16 + 16 * dTag d
    bstatAdd c (a + 8) (out + 4 * (dLen d / 256)) (bstatAdd c a (dLen d) s)
  else s

/-- Are writes of the channel to the companion window still unanswered. -/
def chPending (s : State) (ch : Chan) : Bool := s.cwReqs.any fun q => q.eng == ch.eng

/-- The next descriptor becomes the current one, or the list has ended (R298). -/
def chNext (ch : Chan) (d : Nat) (s : State) : State :=
  let x := s.chan ch
  match dNext d with
  | some a =>
    let s := (s.setReg ch.base (n64 a)).setFld ch.rStat CV_STAT_ELEM 0
    s.setChan ch { x with serial := x.serial + 1, cur := x.next, next := none, off := 0, out := 0, sent := 0, ddone := none, word := false }
  | none =>
    (s.setFld ch.rStat CV_STAT_STATE cvIDLE).setChan ch { x with serial := x.serial + 1, cur := none, next := none, off := 0, out := 0, sent := 0, ddone := none, word := false }

/-- The completion word of a descriptor (R294, R298), written once. -/
def chWord (ch : Chan) (d : Nat) (s : State) : Except ChStop State :=
  if !dWb d || (s.chan ch).word then .ok s
  else
    let a := fget (s.reg ch.base) CV_HEAD_ADDR * 64 + 0x38
    match chWritable ch 0 0xF a 8 s with
    | .error e => .error e
    | .ok s =>
      let s := chWrite ch 0 0xF false a (leBytes 8 (2 ^ 63 + (s.chan ch).out % 2 ^ 40)) s
      .ok (s.setChan ch { s.chan ch with word := true })

/-- CULVERT_DESC_COMPLETE of a core's channel (R298, R299, R307): once every element has been written, and its completion word
has reached its home. -/
def culvertComplete (c n : Nat) (s : State) : State :=
  let ch := Chan.cv c n
  match (s.chan ch).cur with
  | none => s
  | some d =>
    let stat := fget (s.reg (rCV_BSTAT c)) CV_BSTAT_BASE * 16 + 16 * dTag d
    let waitStat := s.flag (rCV_BSTAT c) CV_BSTAT_EN && dBraid d && !bstatFails s (s.part c) stat &&
      !coreGate s c false true stat 16
    if chState s ch ≠ cvRUN ∨ s.fld ch.rStat CV_STAT_ELEM < dElems d ∨ chPending s ch = true then s
    else if waitStat then corePrep c 0 0xF true stat 16 s
    else match chWord ch d s with
      | .error e => chStop ch s e
      | .ok s =>
        if chPending s ch then s
        else
          let s := chCount ch d s
          let s := bstat c d (s.chan ch).out s
          let s := if dKen d then engSignal (8192 + 64 * c + dKnot d) 1 (s.part c) 1 s else s
          chNext ch d s

/-- May CV_HEAD, CV_COUNT or CV_CTL of a channel be written: not in RUN (R308). -/
def chIdle (ch : Chan) (s : State) : Bool := chState s ch != cvRUN

/-- A write of CV_COUNT: RELOAD, and CUR := 0 (R299). -/
def chCountWrite (ch : Chan) (v : Word) (s : State) : State :=
  (typedWrite s ch.rCount v).setFld ch.rCount CV_COUNT_CUR 0

/-- CV_COUNT_WRITE (R299, R308). -/
def opCvCount (o : Origin) (c n : Nat) (v : Word) (s : State) : State :=
  regWrite o (rCV_COUNT c n) (chIdle (.cv c n)) (chCountWrite (.cv c n) v) s

/-- A core or partition reset makes the core's channels IDLE (R269). -/
def culvertReset (c : Nat) (s : State) : State :=
  let s := upto (fun n s => { s with chans := tdel (8 * c + n) s.chans }) 8 s
  let s := upto (fun n s => upto (fun j s => s.resetReg (rCV_HEAD c n + 8 * j)) 7 s) 8 s
  ((s.resetReg (rCV_IRQ c)).resetReg (rCV_BSTAT c)).resetReg (rCV_BDROP c)

end Sys2Proof.Machine
end

