-- ==== Sys2Proof/Machine/Scalar.lean ====
section
/-! DEFINITION. The scalar arithmetic and control-flow instructions (R52-R55, R59): ALU, immediates, multiply and divide,
branches and jumps. -/

namespace Sys2Proof.Machine

/-- An ALU register instruction (R52). -/
def alu (fn c gd ga gb : Nat) (f : Word → Word → Word) (s : State) : State :=
  simple c (encS 0x01 gd ga gb fn) gd [ga, gb] (fun s => f (s.g c ga) (s.g c gb)) s

/-- 1 or 0 as a word. -/
def bw (b : Bool) : Word := if b then 1 else 0

/-- Shift amount: bits 5:0 (R52). -/
def sh (b : Word) : Nat := b.toNat % 64

/-- ADD (R52). -/
def opAdd (c gd ga gb : Nat) (s : State) : State := alu 0x000 c gd ga gb (fun a b => a + b) s
/-- SUB (R52). -/
def opSub (c gd ga gb : Nat) (s : State) : State := alu 0x001 c gd ga gb (fun a b => a - b) s
/-- AND (R52). -/
def opAnd (c gd ga gb : Nat) (s : State) : State := alu 0x002 c gd ga gb (fun a b => a &&& b) s
/-- OR (R52). -/
def opOr (c gd ga gb : Nat) (s : State) : State := alu 0x003 c gd ga gb (fun a b => a ||| b) s
/-- XOR (R52). -/
def opXor (c gd ga gb : Nat) (s : State) : State := alu 0x004 c gd ga gb (fun a b => a ^^^ b) s
/-- SLL (R52). -/
def opSll (c gd ga gb : Nat) (s : State) : State := alu 0x005 c gd ga gb (fun a b => a <<< sh b) s
/-- SRL (R52). -/
def opSrl (c gd ga gb : Nat) (s : State) : State := alu 0x006 c gd ga gb (fun a b => a >>> sh b) s
/-- SRA (R52). -/
def opSra (c gd ga gb : Nat) (s : State) : State := alu 0x007 c gd ga gb (fun a b => a.sshiftRight (sh b)) s
/-- SLT (R52). -/
def opSlt (c gd ga gb : Nat) (s : State) : State := alu 0x008 c gd ga gb (fun a b => bw (a.slt b)) s
/-- SLTU (R52). -/
def opSltu (c gd ga gb : Nat) (s : State) : State := alu 0x009 c gd ga gb (fun a b => bw (a.ult b)) s
/-- MIN (R52). -/
def opMin (c gd ga gb : Nat) (s : State) : State := alu 0x00A c gd ga gb (fun a b => if b.slt a then b else a) s
/-- MAX (R52). -/
def opMax (c gd ga gb : Nat) (s : State) : State := alu 0x00B c gd ga gb (fun a b => if a.slt b then b else a) s
/-- MINU (R52). -/
def opMinu (c gd ga gb : Nat) (s : State) : State := alu 0x00C c gd ga gb (fun a b => if b.ult a then b else a) s
/-- MAXU (R52). -/
def opMaxu (c gd ga gb : Nat) (s : State) : State := alu 0x00D c gd ga gb (fun a b => if a.ult b then b else a) s
/-- CLZ; GB ignored (R52). -/
def opClz (c gd ga gb : Nat) (s : State) : State := alu 0x00E c gd ga gb (fun a _ => n64 (clz 64 a.toNat)) s
/-- CTZ; GB ignored (R52). -/
def opCtz (c gd ga gb : Nat) (s : State) : State := alu 0x00F c gd ga gb (fun a _ => n64 (ctz 64 a.toNat)) s
/-- POPC; GB ignored (R52). -/
def opPopc (c gd ga gb : Nat) (s : State) : State := alu 0x010 c gd ga gb (fun a _ => n64 (popc 64 a.toNat)) s
/-- ANDN (R52). -/
def opAndn (c gd ga gb : Nat) (s : State) : State := alu 0x011 c gd ga gb (fun a b => a &&& ~~~ b) s

/-- The sign-extended 15-bit immediate (R49, R53). -/
def imm15 (imm : Nat) : Word := w64 (sext 15 imm)

/-- An immediate instruction (R53). -/
def aluI (opc c gd ga imm : Nat) (f : Word → Word → Word) (s : State) : State :=
  simple c (encI opc gd ga imm) gd [ga] (fun s => f (s.g c ga) (imm15 imm)) s

/-- ADDI (R53). -/
def opAddi (c gd ga imm : Nat) (s : State) : State := aluI 0x02 c gd ga imm (fun a b => a + b) s
/-- ANDI (R53). -/
def opAndi (c gd ga imm : Nat) (s : State) : State := aluI 0x03 c gd ga imm (fun a b => a &&& b) s
/-- ORI (R53). -/
def opOri (c gd ga imm : Nat) (s : State) : State := aluI 0x04 c gd ga imm (fun a b => a ||| b) s
/-- XORI (R53). -/
def opXori (c gd ga imm : Nat) (s : State) : State := aluI 0x05 c gd ga imm (fun a b => a ^^^ b) s
/-- SLTI (R53). -/
def opSlti (c gd ga imm : Nat) (s : State) : State := aluI 0x06 c gd ga imm (fun a b => bw (a.slt b)) s
/-- SLTIU (R53). -/
def opSltiu (c gd ga imm : Nat) (s : State) : State := aluI 0x07 c gd ga imm (fun a b => bw (a.ult b)) s

/-- The shift of SHI: kind in bits 7:6, amount in bits 5:0 (R53). -/
def shiVal (imm : Nat) (a : Word) : Word :=
  let n := imm % 64
  match bits imm 7 6 with
  | 0 => a <<< n
  | 1 => a >>> n
  | _ => a.sshiftRight n

/-- SHI: kind 0b11 and any of bits 14:8 are ILLEGAL (R53). -/
def opShi (c gd ga imm : Nat) (s : State) : State :=
  issue4 c (encI 0x08 gd ga imm) [gd, ga] (decide (bits imm 7 6 ≠ 3) && decide (imm < 256)) false
    (fun s => s.retireG c gd (shiVal imm (s.g c ga)) 4) s

/-- LIH (R54). -/
def opLih (c gd imm : Nat) (s : State) : State :=
  simple c (encU 0x09 gd imm) gd [] (fun _ => w64 (sext 32 (imm <<< 12))) s

/-- LIW, 64 bits; bits 26:7 of the first word are reserved (R49, R50, R54). -/
def opLiw (c gd rsv imm : Nat) (s : State) : State :=
  issue c 8 (encU 0x60 gd rsv) [gd] (decide (rsv = 0)) false fresh0 (fun s => s.retireG c gd (w64 (sext 32 imm)) 8) s

/-- A multiply or divide instruction (R55). -/
def mulDiv (fn c gd ga gb : Nat) (f : Word → Word → Word) (s : State) : State :=
  simple c (encS 0x19 gd ga gb fn) gd [ga, gb] (fun s => f (s.g c ga) (s.g c gb)) s

/-- The signed quotient rounded toward zero, with the cases of R55. -/
def divVal (a b : Word) : Word := if b = 0 then w64 (-1) else w64 (a.toInt.tdiv b.toInt)
/-- The unsigned quotient (R55). -/
def divuVal (a b : Word) : Word := if b = 0 then w64 (-1) else n64 (a.toNat / b.toNat)
/-- The signed remainder, sign of GA (R55). -/
def remVal (a b : Word) : Word := if b = 0 then a else w64 (a.toInt.tmod b.toInt)
/-- The unsigned remainder (R55). -/
def remuVal (a b : Word) : Word := if b = 0 then a else n64 (a.toNat % b.toNat)

/-- MUL (R55). -/
def opMul (c gd ga gb : Nat) (s : State) : State := mulDiv 0x000 c gd ga gb (fun a b => a * b) s
/-- MULH (R55). -/
def opMulh (c gd ga gb : Nat) (s : State) : State := mulDiv 0x001 c gd ga gb (fun a b => w64 ((a.toInt * b.toInt) / 2 ^ 64)) s
/-- MULHU (R55). -/
def opMulhu (c gd ga gb : Nat) (s : State) : State := mulDiv 0x002 c gd ga gb (fun a b => n64 (a.toNat * b.toNat / 2 ^ 64)) s
/-- DIV (R55). -/
def opDiv (c gd ga gb : Nat) (s : State) : State := mulDiv 0x004 c gd ga gb divVal s
/-- DIVU (R55). -/
def opDivu (c gd ga gb : Nat) (s : State) : State := mulDiv 0x005 c gd ga gb divuVal s
/-- REM (R55). -/
def opRem (c gd ga gb : Nat) (s : State) : State := mulDiv 0x006 c gd ga gb remVal s
/-- REMU (R55). -/
def opRemu (c gd ga gb : Nat) (s : State) : State := mulDiv 0x007 c gd ga gb remuVal s

/-- A conditional branch: PC + sext(OFF12) * 4 when the condition holds (R59). -/
def branch (cond c ga gb off : Nat) (p : Word → Word → Bool) (s : State) : State :=
  issue4 c (encB 0x16 cond ga gb off) [ga, gb] true false
    (fun s =>
      if p (s.g c ga) (s.g c gb) then s.jump c ((s.cur c).pc + w64 (sext 12 off * 4)) else s.retire c 4) s

/-- BEQ (R59). -/
def opBeq (c ga gb off : Nat) (s : State) : State := branch 0 c ga gb off (fun a b => a == b) s
/-- BNE (R59). -/
def opBne (c ga gb off : Nat) (s : State) : State := branch 1 c ga gb off (fun a b => a != b) s
/-- BLT (R59). -/
def opBlt (c ga gb off : Nat) (s : State) : State := branch 2 c ga gb off (fun a b => a.slt b) s
/-- BGE (R59). -/
def opBge (c ga gb off : Nat) (s : State) : State := branch 3 c ga gb off (fun a b => !a.slt b) s
/-- BLTU (R59). -/
def opBltu (c ga gb off : Nat) (s : State) : State := branch 4 c ga gb off (fun a b => a.ult b) s
/-- BGEU (R59). -/
def opBgeu (c ga gb off : Nat) (s : State) : State := branch 5 c ga gb off (fun a b => !a.ult b) s

/-- JAL (R59). -/
def opJal (c gd off : Nat) (s : State) : State :=
  issue4 c (encU 0x17 gd off) [gd] true false
    (fun s =>
      let pc := (s.cur c).pc
      (s.modCur c fun x => x.setG gd (pc + 4)).jump c (pc + w64 (sext 20 off * 4))) s

/-- JALR: the target uses the old GA (R59). -/
def opJalr (c gd ga imm : Nat) (s : State) : State :=
  issue4 c (encI 0x18 gd ga imm) [gd, ga] true false
    (fun s =>
      let t := s.g c ga + imm15 imm
      (s.modCur c fun x => x.setG gd ((s.cur c).pc + 4)).jump c t) s

end Sys2Proof.Machine
end

