-- ==== Sys2Proof/Machine/Sluice.lean ====
section
/-! DEFINITION. The Sluice units (R197-R225): jobs, the walk over touched blocks, the sequencer, vector and scalar programs
over 256 lanes, and rule programs. -/

namespace Sys2Proof.Machine

/-- A Sluice unit. -/
def State.slu (s : State) (n : Nat) : Slu := tget Slu.reset s.slus n
/-- Replace it. -/
def State.setSlu (s : State) (n : Nat) (x : Slu) : State := { s with slus := tset n x s.slus }
/-- Change it. -/
def State.modSlu (s : State) (n : Nat) (f : Slu → Slu) : State := s.setSlu n (f (s.slu n))

/-! STATE codes of SLU_STAT. -/
abbrev slIDLE : Nat := 0
abbrev slLOAD : Nat := 1
abbrev slWAIT : Nat := 2
abbrev slRUN : Nat := 3
abbrev slHALT : Nat := 4

/-- STATE of a unit. -/
def slState (s : State) (n : Nat) : Nat := s.fld (rSLU_STAT n) SLU_STAT_STATE
/-- Set STATE. -/
def slSet (n x : Nat) (s : State) : State := s.setFld (rSLU_STAT n) SLU_STAT_STATE x

/-! Codes of R222. -/
abbrev seILLEGAL : Nat := 1
abbrev seDESC : Nat := 2
abbrev seNOT_OWNED : Nat := 3
abbrev seSTRICT : Nat := 4
abbrev seDATA : Nat := 5
abbrev sePAGE : Nat := 6
abbrev seSEQ : Nat := 7
abbrev seRULE : Nat := 8
abbrev seCSEQ : Nat := 9
abbrev seABORT : Nat := 10
abbrev seNO_BITMAP : Nat := 11

/-- Why a unit does not go on: a home holds it, or the job stops with a code at a block (R222). -/
inductive SlStop where
  | wait (prep : State → State)
  | stop (code blk : Nat) (s : State)

/-! The job's header (R202), as the number in its 256 bytes. -/

/-- Word w of a header or entry. -/
def hW (h w : Nat) : Nat := bits h (64 * w + 63) (64 * w)
/-- STEP. -/
def hStep (h : Nat) : Nat := hW h 0
/-- PROG. -/
def hProg (h : Nat) : Nat := bits (hW h 1) 47 0
/-- KIND. -/
def hKind (h : Nat) : Nat := bits (hW h 1) 63 62
/-- NTENS. -/
def hNtens (h : Nat) : Nat := bits (hW h 2) 15 0
/-- START_KNOT. -/
def hStart (h : Nat) : Nat := bits (hW h 2) 28 16
/-- DONE_KNOT. -/
def hDone (h : Nat) : Nat := bits (hW h 2) 44 32
/-- PLEN. -/
def hPlen (h : Nat) : Nat := bits (hW h 2) 60 48
/-- START_COUNT. -/
def hCount (h : Nat) : Nat := bits (hW h 3) 31 0
/-- CSEQ_FIRST. -/
def hCfirst (h : Nat) : Nat := bits (hW h 4) 31 0
/-- CSEQ_N. -/
def hCn (h : Nat) : Nat := bits (hW h 4) 47 32
/-- Job constant i. -/
def hConst (h i : Nat) : Nat := bits h (8 * 0x40 + 32 * i + 31) (8 * 0x40 + 32 * i)

/-- Is a header refused with DESC (R202, R222). -/
def hBad (h : Nat) : Bool :=
  bits (hW h 1) 61 48 != 0 || decide (2 ≤ hKind h) || bits (hW h 2) 31 29 != 0 || bits (hW h 2) 47 45 != 0 ||
    bits (hW h 2) 63 61 != 0 || bits (hW h 3) 63 32 != 0 || bits (hW h 4) 63 48 != 0 || hW h 5 != 0 || hW h 6 != 0 ||
    hW h 7 != 0 || hProg h % 16 != 0 || decide (hNtens h = 0) || decide (4096 < hNtens h) ||
    (hKind h == 0 && (decide (hPlen h = 0) || decide (4096 < hPlen h)))

/-! Tensor entries (R203), as the number in their 64 bytes. -/

/-- TAG. -/
def eTag (e : Nat) : Nat := bits (hW e 0) 15 0
/-- GFMT. -/
def eGf (e : Nat) : Nat := bits (hW e 0) 19 16
/-- PFMT. -/
def ePf (e : Nat) : Nat := bits (hW e 0) 23 20
/-- SFMT. -/
def eSf (e : Nat) : Nat := bits (hW e 0) 27 24
/-- NSTATE. -/
def eNs (e : Nat) : Nat := bits (hW e 0) 30 28
/-- SR. -/
def eSr (e : Nat) : Bool := bit (hW e 0) 31
/-- Tensor constant i. -/
def eConst (e i : Nat) : Nat := bits e (8 * 0x20 + 32 * i + 31) (8 * 0x20 + 32 * i)
/-- Elements of a gradient block (R203). -/
def eEpb (e : Nat) : Nat := 2048 / fmtWidth (eGf e)
/-- Base address and format of region j: 0 the parameter, 1 on the states (R203). -/
def eRegion (e j : Nat) : Nat × Nat :=
  if j = 0 then (bits (hW e 1) 47 0, ePf e) else (bits (hW e 2) 47 0 + (j - 1) * bits (hW e 3) 47 0, eSf e)

/-- Is an entry refused with DESC (R203, R222). -/
def eBad (e : Nat) : Bool :=
  bits (hW e 0) 63 32 != 0 || bits (hW e 1) 63 48 != 0 || bits (hW e 2) 63 48 != 0 || bits (hW e 3) 63 48 != 0 ||
    !(eGf e == 0 || eGf e == 1 || eGf e == 4) || !(ePf e == 0 || ePf e == 1) || !(eSf e == 0 || eSf e == 1) || decide (4 < eNs e)

/-- The current entry of a unit. -/
def Slu.ent (x : Slu) : Nat := bits x.ents (512 * x.t + 511) (512 * x.t)

/-- Partition of the running job. -/
def Slu.part (x : Slu) : Nat := match x.job with | some (_, p) => p | none => 0

/-! Memory (R198, R211, R212). -/

/-- Count the 256-byte blocks of an access that are not the unit's own stack's (R211, log 36). -/
def slRemote (n part va len : Nat) (s : State) : State :=
  each (fun b s =>
    match place s part true .load (max va (b * 256)) with
    | .mem pa => if !isLp pa && unitOf s pa == n then s else s.count (rSLU_REMOTE n) 1
    | _ => s) (rangeFrom (va / 256) ((va + len - 1) / 256 + 1)) s

/-- Read for unit `n`: `k` names the block in errors. -/
def slRead (n part tag va len k : Nat) (remote : Bool) (s : State) : Except SlStop (List Byte × State) :=
  match eFaultV s part true .load va len with
  | some (_, a) => .error (.stop sePAGE k (touchEcN (epSluice n) part va (a + 1 - va) s))
  | none =>
    let s := touchEcN (epSluice n) part va len s
    if !eGateV s part false va len then .error (.wait (ePrepV part tag 0xF false va len))
    else match eReadV part tag va len true true s with
      | (bs, none, s) => .ok (bs, if remote then slRemote n part va len s else s)
      | (_, some _, s) => .error (.stop seDATA k s)

/-- A unit's writes of blocks (block, address, length) wait for every home, after their checks (R211, R212, R222). -/
def slWritable (n part : Nat) : List (Nat × Nat × Nat) → State → Except SlStop State
  | [], s => .ok s
  | (k, va, len) :: r, s =>
    match eFaultV s part true .store va len with
    | some (_, a) => .error (.stop sePAGE k (touchEcN (epSluice n) part va (a + 1 - va) s))
    | none =>
      let s := touchEcN (epSluice n) part va len s
      if (lostV s part va len).isSome then .error (.stop seDATA k (dropLostV part va len s))
      else if !eGateV s part true va len then .error (.wait (ePrepV part 0 0xF true va len)) else slWritable n part r s

/-! Ending a job. -/

/-- The unit's status word (R204). -/
def slWord (res code t blocks : Nat) : Nat :=
  (res <<< 62) ||| (code <<< 56) ||| (t <<< 44) ||| min blocks (2 ^ 32 - 1)

/-- Is the status word's home open; a word that fails its translation is dropped (log 36). -/
def slStatusGate (s : State) (n : Nat) (x : Slu) : Bool :=
  match x.job with
  | some (d, p) => (eFaultV s p true .store (d + 0x80 + 8 * n) 8).isSome || eGateV s p true (d + 0x80 + 8 * n) 8
  | none => true

/-- Write the status word. -/
def slStatus (n w : Nat) (s : State) : State :=
  match (s.slu n).job with
  | some (d, p) =>
    let a := d + 0x80 + 8 * n
    let t := touchEc (epSluice n) p a s
    if (eFaultV s p true .store a 8).isSome then t else eWriteV p 0 0xF false 0 a (leBytes 8 w) t
  | none => s

/-- Signal DONE_KNOT by 1; a header that was not read names none (R209, log 36). -/
def slSignal (n : Nat) (s : State) : State :=
  let x := s.slu n
  if !x.hdrRead then s else sendSignal (epSluice n) (hDone x.hdr) 2 x.part 1 s

/-- A job stops with an error (R222): status, SLU_ERR, DONE_KNOT unless a partition reset stopped it, HALT. -/
def slError (n code blk : Nat) (signal : Bool) (s : State) : State :=
  let x := s.slu n
  let t := s.fld (rSLU_STAT n) SLU_STAT_TENSOR
  let s := slStatus n (slWord 3 code t x.blocks) s
  let s := s.setReg (rSLU_ERR n) (n64 (((blk % 2 ^ 32) <<< 32) ||| (t <<< 20) ||| (1 <<< 8) ||| code))
  let s := if signal then slSignal n s else s
  let s := s.hgEvent (n / 8) HG_EVENT_SLUICE
  slSet n slHALT (s.modSlu n fun x =>
    { x with job := none, grp := none, ended := none, abort := false, errPart := x.part, hdr := 0, hdrRead := false })

/-- Put a stop into effect; `s0` is the state before the row. -/
def slEnd (n : Nat) (s0 : State) : SlStop → State
  | .wait f => f s0
  | .stop code blk s =>
    if slStatusGate s0 n (s0.slu n) then slError n code blk true s
    else match (s0.slu n).job with
      | some (d, p) => ePrepV p 0 0xF true (d + 0x80 + 8 * n) 8 s0
      | none => s0

/-! Queueing (R205, R225). -/

/-- Has the unit room for a job. -/
def slRoom (n : Nat) (s : State) : Bool := s.flag (rSLU_CTL n) SLU_CTL_ENABLE && decide ((s.slu n).queue.length < 4)

/-- Keep SLU_STAT.QUEUE. -/
def slQueueStat (n : Nat) (s : State) : State := s.setFld (rSLU_STAT n) SLU_STAT_QUEUE (s.slu n).queue.length

/-- Queue a job at a unit. -/
def slQueue (d p n : Nat) (s : State) : State :=
  slQueueStat n (s.modSlu n fun x => { x with queue := x.queue ++ [(d, p)] })

/-- Partition of a doorbell: the writing core's, or the PART field (R205). -/
def slPart (o : Origin) (v : Word) (s : State) : Nat := (Origin.part s o).getD (fget v SLU_DOORBELL_PART)

/-- Descriptor address of a doorbell. -/
def slDesc (v : Word) : Nat := fget v SLU_DOORBELL_DESC * 256

/-- SLU_DOORBELL (R205). -/
def opSluDoorbell (o : Origin) (n : Nat) (v : Word) (s : State) : State :=
  regWrite o (rSLU_DOORBELL n) (slRoom n) (fun s => slQueue (slDesc v) (slPart o v s) n s) s

/-- SLU_BCAST: all 16 units or none (R205). -/
def opSluBcast (o : Origin) (n : Nat) (v : Word) (s : State) : State :=
  regWrite o (rSLU_BCAST n) (fun s => (List.range 16).all fun i => slRoom i s)
    (fun s => let p := slPart o v s; upto (fun i s => slQueue (slDesc v) p i s) 16 s) s

/-! Taking and starting a job (R207, R208). -/

/-- Is a rule operation legal (R218, R219): OP below 12, unused fields 0. -/
def ruleOk (w : Nat) : Bool :=
  let op := bits w 31 28
  let uses := if op == 2 || op == 9 || op == 10 then 3 else if decide (op ≤ 1) || op == 3 || op == 6 || op == 7 then 2 else 1
  decide (op < 12) && (decide (3 ≤ uses) || bits w 13 9 == 0) && (decide (2 ≤ uses) || bits w 18 14 == 0) &&
    (op == 11 || bits w 8 0 == 0)

/-- Is a rule-program image legal (R218). -/
def imageOk (img : Nat) : Bool :=
  let nops := bits img 7 0
  let ns := bits img 15 8
  let wm := bits img 23 16
  decide (1 ≤ nops) && decide (nops ≤ 32) && decide (ns ≤ 4) && wm >>> (1 + ns) == 0 && bits img 127 24 == 0 &&
    (List.range nops).all fun i => ruleOk (bits img (128 + 32 * i + 31) (128 + 32 * i))

/-- Instruction or image words from bytes. -/
def words32 (n : Nat) (bs : List Byte) : List Nat := (List.range n).map fun i => leNat ((bs.drop (4 * i)).take 4)

/-- Read and check a job's descriptor and program (R202, R207, R218). -/
def slFetch (n d p : Nat) (s : State) : Except SlStop State :=
  match slRead n p 0 d 256 0xFFFFFFFF false s with
  | .error e => .error e
  | .ok (hb, s) =>
    let h := leNat hb
    let s := s.modSlu n fun x => { x with hdr := h, hdrRead := true }
    if hBad h then .error (.stop seDESC 0 s)
    else if hKind h = 1 ∧ !s.flag (rSLU_CTL n) SLU_CTL_RULE_EN then .error (.stop seRULE 0 s)
    else match slRead n p 0 (d + 0x100) (64 * hNtens h) 0xFFFFFFFF false s with
      | .error e => .error e
      | .ok (eb, s) =>
        let len := if hKind h = 0 then 4 * hPlen h else 144
        match slRead n p 0 (hProg h) len 0xFFFFFFFF false s with
        | .error e => .error e
        | .ok (pb, s) =>
          if hKind h = 1 ∧ !imageOk (leNat pb) then .error (.stop seILLEGAL 0 s)
          else .ok (s.modSlu n fun x => { x with ents := leNat eb, prog := words32 (len / 4) pb })

/-- The job at the head of the queue becomes the unit's, in LOAD (R206, R207). -/
def slTake (n : Nat) (s : State) : State :=
  let x := s.slu n
  match x.queue with
  | [] => s
  | j :: r =>
    let s := s.setSlu n { x with queue := r, job := some j, hdr := 0, hdrRead := false, t := 0, blocks := 0, grp := none,
                                 ended := none, abort := false, foreign := false, mine := [], opi := 0 }
    slSet n slLOAD ((slQueueStat n s).setFld (rSLU_STAT n) SLU_STAT_TENSOR 0)

/-- SLU_JOB_LOAD: the unit takes the job at the head of its queue and reads it; it stays in LOAD while a home holds a read
(R207, R225). -/
def sluJobLoad (n : Nat) (s : State) : State :=
  let s := if slState s n = slIDLE then slTake n s else s
  if slState s n ≠ slLOAD then s
  else match (s.slu n).job with
    | none => s
    | some (d, p) =>
      match slFetch n d p s with
      | .ok s => slSet n slWAIT s
      | .error e => slEnd n s e

/-- Virtual address of the slot of step `st` in partition p's Logline ring (R423). -/
def logSlot (s : State) (p st : Nat) : Nat :=
  s.fld (rLOG_RING p) LOG_RING_BASE <<< 21 + (st % 2 ^ s.fld (rLOG_RING p) LOG_RING_LSIZE) <<< 10

/-- A 64-bit word of a slot, when it can be read. -/
def logWord64 (s : State) (p st off : Nat) : Option Nat :=
  match eFaultV s p true .load (logSlot s p st + off) 8 with
  | some _ => none
  | none =>
    match eReadV p 0 (logSlot s p st + off) 8 false false s with
    | (bs, none, _) => some (leNat bs)
    | _ => none

/-- Is the Logline record of a step complete (R17, R426). -/
def logComplete (s : State) (p st : Nat) : Bool :=
  s.flag (rLOG_STAT p) LOG_STAT_VALID && decide (st ≤ (s.reg (rLOG_LAST p)).toNat) && logWord64 s p st 8 == some st

/-- The record of a collective sequence (R387). -/
def capRecord (s : State) (p c : Nat) : Option CapRec :=
  match tget? (p * 512 + c % 512) s.capRec with
  | some r => if r.c = c then some r else none
  | none => none

/-- Has a sequence's record been replaced (R387, R222). -/
def capReplaced (s : State) (p c : Nat) : Bool := s.capGone.contains (p, c) && (capRecord s p c).isNone

/-- Sequences of a job. -/
def jobSeqs (h : Nat) : List Nat := (List.range (hCn h)).map fun i => (hCfirst h + i) % 2 ^ 32

/-- START_KNOT's condition (R207), and whether the knot is foreign (R321). -/
def knotCond (s : State) (h p : Nat) : Bool × Bool :=
  if hCount h = 0 then (true, false)
  else if knotPart s (hStart h) ≠ p then (false, true)
  else (fget (s.knot (hStart h)) CK_KIND != 0 && decide (hCount h ≤ fget (s.knot (hStart h)) CK_COUNT), false)

/-- What the job of a unit waits for: the Logline record, START_KNOT, the collectives (R207, R225). -/
def slWaits (s : State) (n : Nat) : Bool × Bool × Bool :=
  let x := s.slu n
  (!logComplete s x.part (hStep x.hdr), !(knotCond s x.hdr x.part).1,
    !(jobSeqs x.hdr).all fun c => match capRecord s x.part c with | some r => r.st == 2 | none => false)

/-! The walk (R198-R201, R208, R210, R211, R217, R221). -/

/-- Address of the byte that holds the touched bit of block `k` of a bitmap (R199). -/
def bmByte (ptr k : Nat) : Nat := ptr + 0x40 + 8 * (k / 64) + k % 64 / 8

/-- Clear touched bits of blocks at the bitmap's home slices (R198, R217), each when its home can take the write. -/
def slClear (ptr : Nat) : List Nat → State → Except SlStop State
  | [], s => .ok s
  | k :: r, s =>
    let a := bmByte ptr k
    if !gateOpen (a / 128) true s then .error (.wait (gatePrep (a / 128) (s.le (frameOf a)).owner 0 0xF true))
    else slClear ptr r (bitAct a (fun b => b &&& ~~~ BitVec.ofNat 8 (2 ^ (k % 8))) s)

/-- Read a bitmap's bytes for unit `n` at their home slices (R198): an uncorrectable word stops the job (R222). -/
def slBits (p pa len : Nat) (s : State) : Except SlStop (List Byte × State) :=
  if !gateAll (pa / 128) false s (lineSpan pa len) then .error (.wait (prepAll (pa / 128) p false (lineSpan pa len)))
  else match engRead pa len p 0 false false true s with
    | (bs, none, s) => .ok (bs, s)
    | (_, some _, s) => .error (.stop seDATA 0xFFFFFFFF s)

/-- The touched blocks of a bitmap that unit `n` updates (R201, R210), through the unit's translation cache (R211): a block that
fails translation stops the job with PAGE (log 36). -/
def slShare (n p gbase : Nat) : List Nat → State → Except SlStop (List Nat × State)
  | [], s => .ok ([], s)
  | k :: r, s =>
    let s := touchEc (epSluice n) p (gbase + 256 * k) s
    match eFaultV s p true .load (gbase + 256 * k) 256, place s p true .load (gbase + 256 * k) with
    | none, .mem pa =>
      if isCw pa then .error (.stop sePAGE k s)
      else match slShare n p gbase r s with
        | .error e => .error e
        | .ok (l, s) => .ok (if unitOf s pa = n then k :: l else l, s)
    | _, _ => .error (.stop sePAGE k s)

/-- Steps 1 to 3 of R210 for entry `t`: whether it is frozen, with the walk in the unit; `skip`: only the touched bits count. -/
def slEntry (n t : Nat) (skip : Bool) (s : State) : Except SlStop (Bool × State) :=
  let s := (s.modSlu n fun x => { x with t := t }).setFld (rSLU_STAT n) SLU_STAT_TENSOR t
  let x := s.slu n
  let e := x.ent
  let p := x.part
  let tag := eTag e
  if eBad e then .error (.stop seDESC 0 s)
  else if !ownsTag s p tag then .error (.stop seNOT_OWNED 0 s)
  else
   let s := gaugeLine tag s
   if gaugeBad s tag then .error (.stop seDATA 0xFFFFFFFE (gaugeErr tag s))
   else
    let w0 := s.gw tag 0
    let frozen := !skip && fbit w0 gFROZEN
    if frozen && fbit w0 gSTRICT then .error (.stop seSTRICT 0 s)
    else
      let ptr := bits (s.gw tag 7).toNat 47 3 * 8
      if ptr = 0 ∨ ptr % 64 ≠ 0 ∨ isHbm (ptr + 0x3F) = false then .error (.stop seNO_BITMAP 0 s)
      else match slBits p ptr 16 s with
        | .error e => .error e
        | .ok (hd, s) =>
          let nblk := leNat ((hd.drop 8).take 4)
          let nw := cdiv nblk 64
          if nblk = 0 ∨ isHbm (ptr + 0x40 + 8 * nw - 1) = false then .error (.stop seNO_BITMAP 0 s)
          else match slBits p (ptr + 0x40) (8 * nw) s with
            | .error e => .error e
            | .ok (ws, s) =>
              let gbase := bits (leNat (hd.take 8)) 47 8 * 256
              let m := leNat ws
              match slShare n p gbase ((List.range nblk).filter fun k => bit m k) s with
              | .error e => .error e
              | .ok (mine, s) =>
                .ok (frozen, s.modSlu n fun x => { x with sexp := gaugeS s tag, tptr := ptr, gbase := gbase, mine := mine, grp := none })

/-- The registers at the start of an entry (R214). -/
def slRegs (n : Nat) (s : State) : State :=
  s.modSlu n fun x =>
    let e := x.ent
    let g0 : Tab Word := [(1, n64 (hStep x.hdr)), (2, n64 x.t), (3, n64 (eTag e)), (4, n64 (eNs e)), (5, n64 (eEpb e)), (6, w64 x.sexp)]
    let g1 := g0 ++ ((List.range 8).map fun i => (8 + i, n64 (eConst e i))) ++ ((List.range 16).map fun i => (16 + i, n64 (hConst x.hdr i)))
    { x with g := g1, v := [], p := [], u := [], pc := 0, opi := 0 }

/-- From entry `t` on: frozen entries are passed over (R221); the first other one starts, or the walk has ended. -/
def slFrom (n : Nat) : Nat → Nat → State → Except SlStop State
  | 0, _, s => .ok s
  | fuel + 1, t, s =>
    let x := s.slu n
    if hNtens x.hdr ≤ t then .ok (s.modSlu n fun x => { x with ended := some 1 })
    else if x.abort then .error (.stop seABORT 0 (s.setFld (rSLU_STAT n) SLU_STAT_TENSOR t))
    else match slEntry n t false s with
      | .error e => .error e
      | .ok (true, s) =>
        let x := s.slu n
        match slClear x.tptr x.mine s with
        | .error e => .error e
        | .ok s => slFrom n fuel (t + 1) (s.count (rSLU_FROZEN n) 1)
      | .ok (false, s) =>
        let x := s.slu n
        if hKind x.hdr = 1 ∧ bits ((x.prog.headD 0)) 15 8 ≠ eNs x.ent then .error (.stop seILLEGAL 0 s)
        else .ok (slRegs n s)

/-- Skip the job whole (R208): every touched bit of the unit's share in every tensor is cleared; an entry that cannot be
walked is passed over, with what its reading counted (R160, log 36). -/
def slSkip (n : Nat) : Nat → State → Except SlStop State
  | 0, s => .ok s
  | t + 1, s =>
    match slSkip n t s with
    | .error e => .error e
    | .ok s =>
      match slEntry n t true s with
      | .ok (_, s) => let x := s.slu n; slClear x.tptr x.mine s
      | .error (.stop _ _ s) => .ok s
      | .error (.wait f) => .error (.wait f)

/-- SLU_JOB_START: when its conditions hold the unit starts the walk, or skips the job (R17, R18, R207, R208, R216). -/
def sluJobStart (n : Nat) (s : State) : State :=
  let x := s.slu n
  if slState s n ≠ slWAIT then s
  else
    let h := x.hdr
    let p := x.part
    let fo := (knotCond s h p).2
    let seqs := jobSeqs h
    if x.abort then slEnd n s (.stop seABORT 0 s)
    else if seqs.any fun c => capReplaced s p c then slEnd n s (.stop seCSEQ 0 s)
    else
      let s := if fo && !x.foreign then (knotErr (hStart h) 2 kfFOREIGN s).modSlu n fun x => { x with foreign := true } else s
      if slWaits s n ≠ (false, false, false) then s
      else
        -- a seed that cannot be read is a free value (log 10)
        let (seed, s1) := match logWord64 s p (hStep h) 0x10 with
          | some v => (n64 v, s)
          | none => s.fresh
        let s1 := slSet n slRUN (s1.modSlu n fun x => { x with gen := srSeed seed (1024 + n) })
        let nf := seqs.any fun c => match capRecord s p c with | some r => r.nf | none => false
        if nf then
          match slSkip n (hNtens h) s1 with
          | .ok s => (s.count (rSLU_SKIP_STEPS n) 1).modSlu n fun x => { x with ended := some 2, mine := [], grp := none }
          | .error e => slEnd n s e
        else match slFrom n (hNtens h + 1) 0 s1 with
          | .ok s => s
          | .error e => slEnd n s e

/-- SLU_JOB_DONE (R204, R209): the unit writes DONE or SKIPPED and signals DONE_KNOT. -/
def sluJobDone (n : Nat) (s : State) : State :=
  let x := s.slu n
  match x.ended, x.job with
  | some res, some (d, p) =>
    if !slStatusGate s n x then ePrepV p 0 0xF true (d + 0x80 + 8 * n) 8 s
    else
      let s := slSignal n (slStatus n (slWord res 0 0 x.blocks) s)
      slSet n slIDLE (s.modSlu n fun x => { x with job := none, ended := none, hdr := 0, hdrRead := false })
  | _, _ => s

/-- A write of SLU_CTL.ABORT (R223). -/
def sluAbort (n : Nat) (s : State) : State := s.modSlu n fun x => { x with abort := x.job.isSome }

/-- SLU_ABORT (R223, R225). -/
def opSluAbort (o : Origin) (n : Nat) (s : State) : State :=
  regWrite o (rSLU_CTL n) (fun _ => isMgmt o) (sluAbort n) s

/-- Clearing SLU_ERR.VALID leaves HALT (R222, R225). -/
def sluErrClear (n : Nat) (s : State) : State :=
  if s.flag (rSLU_ERR n) SLU_ERR_VALID then
    let s := s.setFlag (rSLU_ERR n) SLU_ERR_VALID false
    if slState s n = slHALT then slSet n slIDLE s else s
  else s

/-- May the origin clear SLU_ERR.VALID: M-level code of the partition whose job halted the unit (R225). -/
def sluErrMay (o : Origin) (n : Nat) (s : State) : Bool :=
  match o with | .core c => (s.slu n).errPart == s.part c | _ => true

/-- SLU_ERR_CLEAR. -/
def opSluErrClear (o : Origin) (n : Nat) (s : State) : State :=
  regWrite o (rSLU_ERR n) (sluErrMay o n) (sluErrClear n) s

/-! Groups (R203, R210, R215, R216). -/

/-- Blocks of a group: 256 lanes (R210). -/
def groupSize (e : Nat) : Nat := 256 / eEpb e

/-- Elements in bytes, widened to FP32 (R215); FP32 is copied. -/
def widen (fmt n : Nat) (sexp : Int) (bs : List Byte) : List Nat :=
  let b := fmtWidth fmt
  (List.range n).map fun i =>
    let x := leNat ((bs.drop (i * b / 8)).take (b / 8))
    if fmt = 0 ∧ sexp = 0 then x else fround 0 (fscale (-sexp) (fdec fmt x))

/-- Lanes from a list of FP32 encodings; the others are +0. -/
def lanesOf (l : List Nat) : Lanes := packEls 8192 32 (fun i => l.getD i 0) 256

/-- Address and length of the elements of block k in region j (R203). -/
def regionBlock (e j k : Nat) : Nat × Nat :=
  let (base, fmt) := eRegion e j
  let w := fmtWidth fmt / 8
  (base + k * eEpb e * w, eEpb e * w)

/-- Read region j of the blocks of a group. -/
def readRegion (n p e j : Nat) : List Nat → State → Except SlStop (List Nat × State)
  | [], s => .ok ([], s)
  | k :: r, s =>
    let (va, len) := regionBlock e j k
    match slRead n p 0 va len k true s with
    | .error x => .error x
    | .ok (bs, s) =>
      match readRegion n p e j r s with
      | .error x => .error x
      | .ok (l, s) => .ok (widen (eRegion e j).2 (eEpb e) 0 bs ++ l, s)

/-- Read every region of a group, up to `m` of them: the list of lanes, in order. -/
def readRegions (n p e : Nat) (ks : List Nat) : Nat → State → Except SlStop (List Lanes × State)
  | 0, s => .ok ([], s)
  | m + 1, s =>
    match readRegions n p e ks m s with
    | .error x => .error x
    | .ok (l, s) =>
      match readRegion n p e m ks s with
      | .error x => .error x
      | .ok (r, s) => .ok (l ++ [lanesOf r], s)

/-- Read the gradient blocks of a group: consuming reads (R212). -/
def readGrad (n p e gbase : Nat) (sexp : Int) : List Nat → State → Except SlStop (List Nat × State)
  | [], s => .ok ([], s)
  | k :: r, s =>
    match slRead n p (eTag e) (gbase + 256 * k) 256 k true s with
    | .error x => .error x
    | .ok (bs, s) =>
      match readGrad n p e gbase sexp r s with
      | .error x => .error x
      | .ok (l, s) => .ok (widen (eGf e) (eEpb e) sexp bs ++ l, s)

/-- The mask of a group's lanes. -/
def groupMask (e : Nat) (ks : List Nat) : BitVec 256 := BitVec.ofNat 256 (2 ^ (ks.length * eEpb e) - 1)

/-- Load the next group: gradient, parameter and states as lanes. -/
def loadGroup (n : Nat) (s : State) : Except SlStop (List Lanes × List Nat × State) :=
  let x := s.slu n
  let e := x.ent
  let ks := x.mine.take (groupSize e)
  match readGrad n x.part e x.gbase x.sexp ks s with
  | .error y => .error y
  | .ok (g, s) =>
    match readRegions n x.part e ks (1 + eNs e) s with
    | .error y => .error y
    | .ok (l, s) => .ok (lanesOf g :: l, ks, s.modSlu n fun x => { x with mine := x.mine.drop (groupSize x.ent), grp := some ks })

/-- Convert one lane for a region, drawing under SR when the format narrows (R216, log 36). -/
def putLane (fmt : Nat) (sr : Bool) (g : Word) (x : Nat) : Nat × Word :=
  if fmt = 0 then (fconv 0 false none (fdec 0 x), g)
  else if sr then let g := srDraw g; (fconv fmt false (some g) (fdec 0 x), g)
  else (fconv fmt false none (fdec 0 x), g)

/-- Lanes to write of one region: (block, address, bytes), in ascending lane order, with the generator. -/
def putLanes (e j : Nat) (ks : List Nat) (v : Lanes) (m : BitVec 256) : Nat → Word → List (Nat × Nat × List Byte) × Word
  | 0, g => ([], g)
  | i + 1, g =>
    let (l, g) := putLanes e j ks v m i g
    if i < ks.length * eEpb e ∧ m.getLsbD i then
      let fmt := (eRegion e j).2
      let w := fmtWidth fmt / 8
      let (o, g) := putLane fmt (eSr e) g (el32 v i).toNat
      let k := ks.getD (i / eEpb e) 0
      (l ++ [(k, (regionBlock e j k).1 + i % eEpb e * w, leBytes w o)], g)
    else (l, g)

/-- The writes of the regions that `w` selects, up to `n` of them. -/
def putRegions (e : Nat) (ks : List Nat) (vs : Nat → Lanes) (m : BitVec 256) (w : Nat → Bool) : Nat → Word → List (Nat × Nat × List Byte) × Word
  | 0, g => ([], g)
  | j + 1, g =>
    let (l, g) := putRegions e ks vs m w j g
    if w j then let (r, g) := putLanes e j ks (vs j) m 256 g; (l ++ r, g) else (l, g)

/-- The 256-byte blocks that a list of writes touches, each once for its run of writes (R211). -/
def wrBlocks : List (Nat × Nat × List Byte) → List Nat
  | [] => []
  | (_, va, _) :: r => let l := wrBlocks r; if l.head? = some (va / 256) then l else va / 256 :: l

/-- Write a group back (R216) and clear its touched bits (R217): every check passes before any byte moves. -/
def putGroup (n : Nat) (vs : Nat → Lanes) (m : BitVec 256) (w : Nat → Bool) (s : State) : Except SlStop State :=
  let x := s.slu n
  let e := x.ent
  match x.grp with
  | none => .error (.stop seSEQ 0 s)
  | some ks =>
    let (wr, g) := putRegions e ks vs m w (1 + eNs e) x.gen
    match slWritable n x.part (wr.map fun y => (y.1, y.2.1, y.2.2.length)) s with
    | .error y => .error y
    | .ok s =>
      let s := each (fun (y : Nat × Nat × List Byte) s => eWriteV x.part 0 0xF false 0 y.2.1 y.2.2 s) wr s
      let s := each (fun b s => slRemote n x.part (b * 256) 256 s) (wrBlocks wr) s
      match slClear x.tptr ks s with
      | .error y => .error y
      | .ok s =>
       let s := s.count (rSLU_BLOCKS n) ks.length
       .ok (s.modSlu n fun x => { x with grp := none, gen := g, blocks := x.blocks + ks.length })

/-! The sequencer (R213, R215). -/

/-- A g register of a unit; g0 reads 0. -/
def Slu.gr (x : Slu) (r : Nat) : Word := if r = 0 then 0 else tget 0 x.g r
/-- Write one. -/
def Slu.setG (x : Slu) (r : Nat) (v : Word) : Slu := if r = 0 then x else { x with g := tset r v x.g }
/-- A predicate; p0 reads all ones. -/
def Slu.pr (x : Slu) (i : Nat) : BitVec 256 := if i = 0 then BitVec.ofNat 256 (2 ^ 256 - 1) else tget 0 x.p i
/-- Write one. -/
def Slu.setP (x : Slu) (i : Nat) (v : BitVec 256) : Slu := if i = 0 then x else { x with p := tset i v x.p }
/-- A lane register. -/
def Slu.vr (x : Slu) (i : Nat) : Lanes := tget 0 x.v i

/-- The instruction at the PC, of a running Sluice program. -/
def slIns (s : State) (n : Nat) : Option Nat :=
  let x := s.slu n
  if slState s n = slRUN ∧ x.ended.isNone = true ∧ hKind x.hdr = 0 ∧ x.pc / 4 < hPlen x.hdr ∧ x.pc % 4 = 0 then x.prog[x.pc / 4]?
  else none

/-- Is the word the sequencer instruction FN. -/
def isSeq (w fn : Nat) : Bool := bits w 6 0 == 0x1E && bits w 26 17 == 0 && bits w 16 7 == fn

/-- Run a sequencer instruction when it stands at the PC. -/
def seqOp (fn n : Nat) (body : Nat → State → Except SlStop State) (s : State) : State :=
  match slIns s n with
  | some w =>
    if isSeq w fn then
      (match body w s with
       | .ok s => s
       | .error e => slEnd n s e)
    else s
  | none => s

/-- The PC moves on. -/
def slNextPc (n : Nat) (s : State) : State := s.modSlu n fun x => { x with pc := x.pc + 4 }

/-- Load v0 on and p1 (R215). -/
def Slu.loadV (x : Slu) (vs : List Lanes) (m : BitVec 256) : Slu :=
  { x with v := (List.range vs.length).foldl (fun t i => tset i (vs.getD i 0) t) x.v, p := tset 1 m x.p }

/-- NEXT (R215). -/
def seqNext (n : Nat) (s : State) : State :=
  seqOp 0 n (fun w s =>
    let x := s.slu n
    let gd := bits w 31 27
    if x.grp.isSome then .error (.stop seSEQ 0 s)
    else if x.abort then .error (.stop seABORT 0 s)
    else if x.mine.isEmpty then .ok (slNextPc n (s.modSlu n fun x => x.setG gd 0))
    else match loadGroup n s with
      | .error e => .error e
      | .ok (vs, ks, s) =>
        .ok (slNextPc n (s.modSlu n fun x => (x.loadV vs (groupMask x.ent ks)).setG gd (n64 ks.length)))) s

/-- PUT (R215, R216). -/
def seqPut (n : Nat) (s : State) : State :=
  seqOp 1 n (fun _ s =>
    let x := s.slu n
    match putGroup n (fun j => x.vr (1 + j)) (x.pr 1) (fun _ => true) s with
    | .error e => .error e
    | .ok s => .ok (slNextPc n s)) s

/-- DROP (R215). -/
def seqDrop (n : Nat) (s : State) : State :=
  seqOp 2 n (fun _ s =>
    let x := s.slu n
    match x.grp with
    | none => .error (.stop seSEQ 0 s)
    | some ks =>
      match slClear x.tptr ks s with
      | .error e => .error e
      | .ok s => .ok (slNextPc n (s.modSlu n fun x => { x with grp := none }))) s

/-- END (R215): the next entry starts. -/
def seqEnd (n : Nat) (s : State) : State :=
  seqOp 3 n (fun _ s =>
    let x := s.slu n
    if x.grp.isSome then .error (.stop seSEQ 0 s) else slFrom n (hNtens x.hdr + 1) (x.t + 1) s) s

/-! Program instructions over 256 lanes (R213). -/

/-- The scalar result of an ALU or multiply instruction; none for a reserved FN (R52, R55). -/
def aluFn (fn : Nat) (a b : Word) : Option Word :=
  match fn with
  | 0x00 => some (a + b) | 0x01 => some (a - b) | 0x02 => some (a &&& b) | 0x03 => some (a ||| b) | 0x04 => some (a ^^^ b)
  | 0x05 => some (a <<< sh b) | 0x06 => some (a >>> sh b) | 0x07 => some (a.sshiftRight (sh b))
  | 0x08 => some (bw (a.slt b)) | 0x09 => some (bw (a.ult b))
  | 0x0A => some (if b.slt a then b else a) | 0x0B => some (if a.slt b then b else a)
  | 0x0C => some (if b.ult a then b else a) | 0x0D => some (if a.ult b then b else a)
  | 0x0E => some (n64 (clz 64 a.toNat)) | 0x0F => some (n64 (ctz 64 a.toNat)) | 0x10 => some (n64 (popc 64 a.toNat))
  | 0x11 => some (a &&& ~~~ b)
  | _ => none

/-- Multiply and divide (R55). -/
def mulFn (fn : Nat) (a b : Word) : Option Word :=
  match fn with
  | 0 => some (a * b) | 1 => some (w64 ((a.toInt * b.toInt) / 2 ^ 64)) | 2 => some (n64 (a.toNat * b.toNat / 2 ^ 64))
  | 4 => some (divVal a b) | 5 => some (divuVal a b) | 6 => some (remVal a b) | 7 => some (remuVal a b)
  | _ => none

/-- Immediate instructions (R53). -/
def immFn (opc imm : Nat) (a : Word) : Option Word :=
  let b := imm15 imm
  match opc with
  | 2 => some (a + b) | 3 => some (a &&& b) | 4 => some (a ||| b) | 5 => some (a ^^^ b)
  | 6 => some (bw (a.slt b)) | 7 => some (bw (a.ult b))
  | _ => if bits imm 7 6 ≠ 3 ∧ imm < 256 then some (shiVal imm a) else none

/-- Branch conditions (R59). -/
def condFn (cond : Nat) (a b : Word) : Option Bool :=
  match cond with
  | 0 => some (a == b) | 1 => some (a != b) | 2 => some (a.slt b) | 3 => some (!a.slt b) | 4 => some (a.ult b)
  | 5 => some (!a.ult b) | _ => none

/-- A scalar instruction of a program: the unit after it, none where illegal. -/
def slScalar (w : Nat) (x : Slu) : Option Slu :=
  let opc := bits w 6 0
  let gd := bits w 31 27
  let ga := bits w 26 22
  let nx := fun (r : Option Word) => r.map fun v => { x.setG gd v with pc := x.pc + 4 }
  if opc = 1 then nx (aluFn (bits w 16 7) (x.gr ga) (x.gr (bits w 21 17)))
  else if opc = 0x19 then nx (mulFn (bits w 16 7) (x.gr ga) (x.gr (bits w 21 17)))
  else if 2 ≤ opc ∧ opc ≤ 8 then nx (immFn opc (bits w 21 7) (x.gr ga))
  else if opc = 9 then nx (some (w64 (sext 32 (bits w 26 7 <<< 12))))
  else if opc = 0x16 then
    (condFn (bits w 31 29) (x.gr (bits w 28 24)) (x.gr (bits w 23 19))).map fun t =>
      { x with pc := if t then (n64 x.pc + w64 (sext 12 (bits w 18 7) * 4)).toNat else x.pc + 4 }
  else if opc = 0x17 then
    some { x.setG gd (n64 (x.pc + 4)) with pc := (n64 x.pc + w64 (sext 20 (bits w 26 7) * 4)).toNat }
  else none

/-- A one-lane VARITH result at W = 0 (R175); none for a reserved FN. -/
def lArith (fn a b : Nat) : Option Nat :=
  match fn with
  | 0 => some (add32 a b) | 1 => some (sub32 a b) | 2 => some (mul32 a b) | 3 => some (div32 a b)
  | 4 => some (min32 a b) | 5 => some (max32 a b) | 6 => some (fround 0 (fabs (fdec 0 a))) | 7 => some (fround 0 (fneg (fdec 0 a)))
  | 8 => some (sqrt32 a) | 9 => some (fToI32 (fdec 0 a)) | 10 => some (fround 0 (i32Val a))
  | 11 => some (fround 0 (fscale (scalebVal (sext 32 b)) (fdec 0 a)))
  | 12 => some a
  | _ => none

/-- A one-lane VINT result (R175). -/
def lInt (fn : Nat) (a b : W32) : Option W32 :=
  match fn with
  | 0 => some (a + b) | 1 => some (a - b) | 2 => some (a * b) | 3 => some (a &&& b) | 4 => some (a ||| b) | 5 => some (a ^^^ b)
  | 6 => some (a <<< sh5 b) | 7 => some (a >>> sh5 b) | 8 => some (a.sshiftRight (sh5 b))
  | 9 => some (if b.slt a then b else a) | 10 => some (if a.slt b then b else a)
  | _ => none

/-- Comparison of two lanes (R175). -/
def lCmp (fn w a b : Nat) : Option Bool :=
  match fn with
  | 0 => some (vcmpEl w (fun _ e _ => e) a b) | 1 => some (vcmpEl w (fun _ e _ => !e) a b)
  | 2 => some (vcmpEl w (fun l _ _ => l) a b) | 3 => some (vcmpEl w (fun l e _ => l || e) a b)
  | 4 => some (vcmpEl w (fun l e u => !l && !e && !u) a b) | 5 => some (vcmpEl w (fun l _ u => !l && !u) a b)
  | 6 => some (vcmpEl w (fun _ _ u => u) a b)
  | _ => none

/-- New lanes, merged under p[PM] (R170). -/
def lMerge (x : Slu) (vd pm z : Nat) (f : Nat → Nat) : Slu :=
  let m := x.pr pm
  let old := x.vr vd
  { x with v := tset vd (packEls 8192 32 (fun i => if m.getLsbD i then f i else if z = 1 then 0 else (el32 old i).toNat) 256) x.v }

/-- A vector instruction of a program, at W = 0 or 3: the unit after it (without the PC), none where illegal. -/
def slVector (w : Nat) (x : Slu) : Option Slu :=
  let opc := bits w 6 0
  let vd := bits w 31 27
  let va := bits w 26 22
  let vb := bits w 21 17
  let pm := bits w 16 14
  let z := bits w 13 13
  let wd := bits w 12 11
  let fn := bits w 10 7
  let A := x.vr va
  let B := x.vr vb
  let a := fun i => (el32 A i).toNat
  let b := fun i => (el32 B i).toNat
  if opc = 0x30 then
    if wd ≠ 0 then none
    else if fn = 13 then
      some { x with v := tset vd (packEls 8192 32 (fun i => if (x.pr pm).getLsbD i then a i else b i) 256) x.v }
    else if 13 < fn then none
    else some (lMerge x vd pm z fun i => (lArith fn (a i) (b i)).getD 0)
  else if opc = 0x31 then
    if wd ≠ 3 ∨ 10 < fn then none
    else some (lMerge x vd pm z fun i => ((lInt fn (el32 A i) (el32 B i)).getD 0).toNat)
  else if opc = 0x32 then
    if wd ≠ 0 ∨ 2 < fn then none
    else
      let D := x.vr vd
      some (lMerge x vd pm z fun i =>
        let p := fmul (fdec 0 (a i)) (fdec 0 (b i))
        let d := fdec 0 (el32 D i).toNat
        fround 0 (fadd (if fn = 2 then fneg p else p) (if fn = 1 then fneg d else d)))
  else if opc = 0x33 then
    if wd ≠ 0 ∨ 5 < fn then none
    else
      let k := (x.gr vb).toNat % 2 ^ 32
      some (lMerge x vd pm z fun i => (lArith fn (a i) k).getD 0)
  else if opc = 0x34 then
    if (wd ≠ 0 ∧ wd ≠ 3) ∨ 6 < fn ∨ 8 ≤ vd then none
    else
      some (x.setP vd (BitVec.ofNat 256 ((List.range 256).foldl (fun acc i =>
        acc ||| (if (x.pr pm).getLsbD i && (lCmp fn wd (a i) (b i)).getD false then 2 ^ i else 0)) 0)))
  else if opc = 0x35 then
    if (wd ≠ 0 ∧ wd ≠ 3) ∨ 5 < fn ∨ (fn < 5 ∧ 8 ≤ vd) ∨ (fn ≠ 4 ∧ 8 ≤ va) ∨ (fn < 4 ∧ 8 ≤ vb) then none
    else if fn = 4 then some (x.setP vd (BitVec.ofNat 256 (x.gr va).toNat))
    else if fn = 5 then some (x.setG vd (n64 ((x.pr va).toNat % 2 ^ 64)))
    else
      let p := x.pr va
      let q := x.pr vb
      some (x.setP vd (if fn = 0 then p &&& q else if fn = 1 then p ||| q else if fn = 2 then p ^^^ q else p &&& ~~~ q))
  else if opc = 0x36 then
    let k := (x.gr vb).toNat
    if (wd ≠ 0 ∧ wd ≠ 3) ∨ (fn ≠ 0 ∧ fn ≠ 3) ∨ (fn = 0 ∧ 256 ≤ k) then none
    else some (lMerge x vd pm z fun i => if fn = 0 then a k else a ((i + k) % 256))
  else if opc = 0x3C then
    let slot := bits w 21 18
    if wd ≠ 0 ∨ bits w 10 7 ≠ 0 ∨ 6 < slot then none
    else some (lMerge x vd pm z fun i => fnEval Core.reset slot (bits w 17 17) (a i))
  else none

/-- SLUICE_PROGRAM_OP: the instruction at the PC, when it is no sequencer instruction; an illegal one stops the job (R213). -/
def sluProgramOp (n : Nat) (s : State) : State :=
  let x := s.slu n
  if slState s n ≠ slRUN ∨ x.ended.isSome = true ∨ hKind x.hdr ≠ 0 then s
  else match slIns s n with
    | none => slEnd n s (.stop seILLEGAL 0 s)
    | some w =>
      if (List.range 4).any fun fn => isSeq w fn then s
      else match slScalar w x with
        | some y => s.setSlu n y
        | none =>
          match slVector w x with
          | some y => s.setSlu n { y with pc := x.pc + 4 }
          | none => slEnd n s (.stop seILLEGAL 0 s)

/-! Rule programs (R218-R220). -/

/-- The rule operation that stands next, of a group that is loaded. -/
def ruleIns (s : State) (n : Nat) : Option Nat :=
  let x := s.slu n
  if slState s n = slRUN ∧ x.ended.isNone = true ∧ hKind x.hdr = 1 ∧ x.grp.isSome = true ∧ x.opi < bits (x.prog.headD 0) 7 0 then
    x.prog[4 + x.opi]?
  else none

/-- A source of a rule operation: u0-u15 or c0-c15, lane i. -/
def ruleSrc (x : Slu) (f i : Nat) : Nat := if f < 16 then (el32 (tget 0 x.u f) i).toNat else hConst x.hdr (f - 16)

/-- Run a rule operation when it stands next; `f` maps the lanes of A, B and C and IMM9 to the result. -/
def ruleOp (op n : Nat) (f : Nat → Nat → Nat → Int → Nat) (s : State) : State :=
  match ruleIns s n with
  | some w =>
    if bits w 31 28 = op then
      s.modSlu n fun x =>
        let r := packEls 8192 32 (fun i => f (ruleSrc x (bits w 23 19) i) (ruleSrc x (bits w 18 14) i) (ruleSrc x (bits w 13 9) i)
          (sext 9 (bits w 8 0))) 256
        { x with u := tset (bits w 27 24) r x.u, opi := x.opi + 1 }
    else s
  | none => s

/-- RULE ADD. -/
def ruleAdd (n : Nat) (s : State) : State := ruleOp 0 n (fun a b _ _ => add32 a b) s
/-- RULE MUL. -/
def ruleMul (n : Nat) (s : State) : State := ruleOp 1 n (fun a b _ _ => mul32 a b) s
/-- RULE FMA. -/
def ruleFma (n : Nat) (s : State) : State := ruleOp 2 n (fun a b c _ => fma32 a b c) s
/-- RULE DIV. -/
def ruleDiv (n : Nat) (s : State) : State := ruleOp 3 n (fun a b _ _ => div32 a b) s
/-- RULE SQRT. -/
def ruleSqrt (n : Nat) (s : State) : State := ruleOp 4 n (fun a _ _ _ => sqrt32 a) s
/-- RULE RSQRT, by slot 6. -/
def ruleRsqrt (n : Nat) (s : State) : State := ruleOp 5 n (fun a _ _ _ => fnEval Core.reset 6 0 a) s
/-- RULE MAX. -/
def ruleMax (n : Nat) (s : State) : State := ruleOp 6 n (fun a b _ _ => max32 a b) s
/-- RULE MIN. -/
def ruleMin (n : Nat) (s : State) : State := ruleOp 7 n (fun a b _ _ => min32 a b) s
/-- The sign of A: a zero stays itself, NaN gives the canonical NaN (R219). -/
def signOf (a : Nat) : Nat :=
  match fdec 0 a with
  | .nan => fnan 0
  | .fin _ 0 _ => a
  | _ => if bit a 31 then 0xBF800000 else 0x3F800000
/-- RULE SIGN. -/
def ruleSign (n : Nat) (s : State) : State := ruleOp 8 n (fun a _ _ _ => signOf a) s
/-- RULE CLIP. -/
def ruleClip (n : Nat) (s : State) : State := ruleOp 9 n (fun a b c _ => min32 (max32 a b) c) s
/-- RULE LERP. -/
def ruleLerp (n : Nat) (s : State) : State := ruleOp 10 n (fun a b c _ => fma32 c (sub32 b a) a) s
/-- RULE SCALE. -/
def ruleScale (n : Nat) (s : State) : State := ruleOp 11 n (fun a _ _ i => fround 0 (fscale i (fdec 0 a))) s

/-- RULE_GROUP (R220): with no group loaded the next one is loaded into u registers, or the entry ends; a group whose
operations are done is written back by WMASK. -/
def ruleGroup (n : Nat) (s : State) : State :=
  let x := s.slu n
  if slState s n ≠ slRUN ∨ x.ended.isSome = true ∨ hKind x.hdr ≠ 1 then s
  else
    let r : Except SlStop State :=
      if x.grp.isSome then
        (if x.opi < bits (x.prog.headD 0) 7 0 then .ok s
         else putGroup n (fun j => tget 0 x.u (1 + j)) (groupMask x.ent (x.grp.getD [])) (fun j => bit (x.prog.headD 0) (16 + j)) s)
      else if x.abort then .error (.stop seABORT 0 s)
      else if x.mine.isEmpty then slFrom n (hNtens x.hdr + 1) (x.t + 1) s
      else match loadGroup n s with
        | .error e => .error e
        | .ok (vs, _, s) =>
          .ok (s.modSlu n fun x => { x with u := (List.range vs.length).map (fun i => (i, vs.getD i 0)), opi := 0 })
    match r with
    | .ok s => s
    | .error e => slEnd n s e

/-- A partition reset: queued jobs are dropped, a running job stops with ABORT and signals no knot (R223). -/
def sluReset (p : Nat) (s : State) : State :=
  upto (fun n s =>
    let s := slQueueStat n (s.modSlu n fun x => { x with queue := x.queue.filter fun j => j.2 != p })
    let x := s.slu n
    if x.job.isSome && x.part == p then slError n seABORT 0 false s else s) 16 s

end Sys2Proof.Machine
end

