-- ==== Sys2Proof/Machine/Hawser.lean ====
section
/-! DEFINITION. The Hawser ports (R366-R377): ring positions, the send side with its retry buffer and credits, LINK frames, and
the checks of a received frame.  Frames are held as plain text; the verdict of AES-256-GCM on a received frame is an operand
(log 37). -/

namespace Sys2Proof.Machine

/-- A port. -/
def State.port (s : State) (p : Nat) : Port := tget Port.reset s.ports p
/-- Replace it. -/
def State.setPort (s : State) (p : Nat) (x : Port) : State := { s with ports := tset p x s.ports }
/-- Change it. -/
def State.modPort (s : State) (p : Nat) (f : Port → Port) : State := s.setPort p (f (s.port p))

/-! STATE codes of HW_STAT. -/
abbrev hwDOWN : Nat := 0
abbrev hwTRAINING : Nat := 1
abbrev hwTRAINED : Nat := 2
abbrev hwUP : Nat := 3
abbrev hwFAILED : Nat := 4

/-- STATE of a port. -/
def hwState (s : State) (p : Nat) : Nat := s.fld (rHW_STAT p) HW_STAT_STATE

/-! Ring positions (R369-R372). -/

/-- Is a dimension enabled. -/
def dimEn (s : State) (d : Nat) : Bool := s.flag (rCAP_DIM d) CAP_DIM_EN
/-- n_d. -/
def dimN (s : State) (d : Nat) : Nat := if dimEn s d then s.fld (rCAP_DIM d) CAP_DIM_SIZE + 1 else 1
/-- r_d. -/
def dimR (s : State) (d : Nat) : Nat := if dimEn s d then s.fld (rCAP_DIM d) CAP_DIM_POS else 0

/-- The module ID at positions given by `r` (R371). -/
def idOf (s : State) (r : Nat → Nat) : Nat := r 0 + dimN s 0 * (r 1 + dimN s 1 * (r 2 + dimN s 2 * r 3))

/-- The module's own ID. -/
def modId (s : State) : Nat := idOf s (dimR s)

/-- Does the port lead toward the plus neighbour. -/
def plusPort (p : Nat) : Bool := p % 2 == 0

/-- The neighbour that port `p` leads to (R372). -/
def nbrId (s : State) (p : Nat) : Nat :=
  let d := p / 2
  let n := dimN s d
  let r := if plusPort p then (dimR s d + 1) % n else (dimR s d + n - 1) % n
  idOf s fun e => if e = d then r else dimR s e

/-- Position of module `m` in dimension `d`, none where no such module is in the system. -/
def posOf (s : State) (m d : Nat) : Nat :=
  let n0 := dimN s 0
  let n1 := dimN s 1
  let n2 := dimN s 2
  if d = 0 then m % n0 else if d = 1 then m / n0 % n1 else if d = 2 then m / (n0 * n1) % n2 else m / (n0 * n1 * n2)

/-- The port of a frame's next hop toward module `m` (R393): ascending dimensions, the shorter direction, plus on a tie. -/
def routeTo (s : State) (m : Nat) : Option Nat :=
  if dimN s 3 ≤ posOf s m 3 then none
  else
    match (List.range 4).find? fun d => posOf s m d != dimR s d with
    | none => none
    | some d =>
      let n := dimN s d
      let k := (posOf s m d + n - dimR s d) % n
      some (if 2 * k ≤ n then 2 * d else 2 * d + 1)

/-! Sending (R375, R377). -/

/-- A frame with every field at its least (R373); `typ` 3 uses the link key. -/
def mkFrame (s : State) (typ dmod part : Nat) : Frame :=
  { typ := typ, ver := 1, smod := modId s, dmod := dmod, part := part, ksel := if typ = 3 then 8 else part, len := 0, seq := 0,
    tag := 0, fmt := 0xF, nf := false, last := true, braid := false, snap := false, xs := 0, w3 := 0, w4 := 0, cred := 0, ack := 0,
    payload := [], corr := 0, unc := 0, auth := true, fin := false }

/-- Is a port stopped because a counter has reached its reservation mark (R474). -/
def atMark (s : State) (p : Nat) : Bool :=
  decide (tget 0 s.flash.marks (4 * p) ≤ (s.reg (rHW_TXSEQ p)).toNat) || decide (tget 0 s.flash.marks (4 * p + 1) ≤ (s.port p).linkc)

/-- Send a LINK frame (R373, R375); a port stopped at a mark sends none (R474). -/
def linkSend (p sub arg w4 : Nat) (s : State) : State :=
  if atMark s p then s
  else
  let x := s.port p
  let f := { mkFrame s 3 (nbrId s p) 0 with
    seq := x.linkc, w3 := (sub <<< 56) ||| arg, w4 := w4, cred := x.freed % 2 ^ 16, ack := x.rx % 2 ^ 48 }
  (s.setPort p { x with linkc := x.linkc + 1, link := some f }).count (rHW_TX p) 1

/-- The first unacknowledged SEQ. -/
def firstUna (s : State) (p : Nat) : Nat :=
  match (s.port p).retry with
  | (f, _) :: _ => f.seq
  | [] => (s.reg (rHW_TXSEQ p)).toNat

/-- Does CRED show a free frame in the receiver's 16-frame buffer. -/
def hwCredit (x : Port) : Bool := decide (x.snd < x.base + x.cred + 16)

/-- Frames of the retry buffer that training has left to resend go out as credit allows. -/
def resendLeft : List (Frame × Nat) → Port → List (Frame × Nat) × Port × Nat
  | [], x => ([], x, 0)
  | (f, k) :: r, x =>
    if f.seq = x.snd ∧ hwCredit x = true then
      let (r', x', n) := resendLeft r { x with snd := x.snd + 1 }
      ((f, k + 1) :: r', x', n + 1)
    else
      let (r', x', n) := resendLeft r x
      ((f, k) :: r', x', n)

/-- New frames take the next SEQ while the retry buffer's 64 places and the credit last. -/
def sendOut (p : Nat) : List Frame → State → State
  | [], s => s.modPort p fun x => { x with out := [] }
  | f :: r, s =>
    let x := s.port p
    let q := (s.reg (rHW_TXSEQ p)).toNat
    if x.retry.length < 64 ∧ hwCredit x = true ∧ x.snd = q ∧ atMark s p = false then
      let f := { f with seq := q, cred := x.freed % 2 ^ 16, ack := x.rx % 2 ^ 48 }
      let s := s.setPort p { x with retry := x.retry ++ [(f, 1)], snd := q + 1 }
      sendOut p r ((s.count (rHW_TXSEQ p) 1).count (rHW_TX p) 1)
    else s.setPort p { x with out := f :: r }

/-- Let a port that is UP send. -/
def portSend (p : Nat) (s : State) : State :=
  if hwState s p ≠ hwUP ∨ atMark s p = true then s
  else
    let x := s.port p
    let (r, x', n) := resendLeft x.retry x
    let s := (s.setPort p { x' with retry := r }).count (rHW_RETX p) n
    sendOut p (s.port p).out s

/-- Give a port a frame to send. -/
def sendFrame (p : Nat) (f : Frame) (s : State) : State :=
  portSend p (s.modPort p fun x => { x with out := x.out ++ [f] })

/-- The router of a port that received a frame from the ring, from which its traffic enters the mesh (R357). -/
def rxEp (p : Nat) (f : Frame) : Nat := epHawser p (Config.rxRouter p f.seq % 2)

/-- Endpoint of the Capstan at a port's side (R347). -/
def capEp (p : Nat) : Nat := 0x538 + p / 4

/-- A frame of the Capstan goes to the port's two routers alternately (R357). -/
def capFrame (p : Nat) (f : Frame) (s : State) : State :=
  let r := epHawser p (b2n (s.port p).alt)
  sendFrame p f (countFrame (capEp p) r f.payload.length (s.modPort p fun x => { x with alt := !x.alt }))

/-- Count payload bytes that a dimension unit sends. -/
def dimSend (p : Nat) (f : Frame) (s : State) : State := (sendFrame p f s).count rCAP_BYTES f.payload.length

/-- Take the CRED and ACKSEQ of a frame that passed the checks (R375). -/
def takeAck (p : Nat) (f : Frame) (s : State) : State :=
  let x := s.port p
  let dc := (f.cred + 2 ^ 16 - x.cred % 2 ^ 16) % 2 ^ 16
  let cred := if dc < 2 ^ 15 then x.cred + dc else x.cred
  let u := firstUna s p
  let da := (f.ack + 2 ^ 48 - u % 2 ^ 48) % 2 ^ 48
  let retry := if da < 2 ^ 47 then x.retry.filter fun y => decide (u + da ≤ y.1.seq) else x.retry
  portSend p (s.setPort p { x with cred := cred, retry := retry })

/-- One place of the receive buffer is free again. -/
def freeBuf (p : Nat) (f : Frame) (s : State) : State :=
  s.modPort p fun x => { x with rxbuf := x.rxbuf.erase f, freed := x.freed + 1 }

/-! Receiving (R376). -/

/-- Check 2 of R376. -/
def frameLegal (f : Frame) : Bool :=
  f.ver == 1 && decide (f.typ ≤ 3) && decide (f.len ≤ 16384) && f.len % 16 == 0 && (decide (f.typ ≤ 1) || f.len == 0) &&
    f.ksel == (if f.typ = 3 then 8 else f.part) && f.payload.length == f.len

/-- What the checks of a frame that arrives at a port answer: whether it is released, and the state. -/
def frameCheck (p : Nat) (f : Frame) (s : State) : Bool × State :=
  let nack := fun s => if f.typ ≤ 2 then linkSend p 1 0 (s.port p).rx s else s
  let s := s.countSat (rHW_FEC p) HW_FEC_CORR f.corr
  if f.unc ≠ 0 then (false, nack (s.countSat (rHW_FEC p) HW_FEC_UNCORR f.unc))
  else if !frameLegal f || !f.auth || !bit (s.fld (rHW_KEYS p) HW_KEYS_LOADED) f.ksel then (false, nack (s.count (rHW_AUTH p) 1))
  else if f.typ = 3 then (true, s.count (rHW_RX p) 1)
  else if f.seq ≠ (s.port p).rx ∨ hwState s p ≠ hwUP then (false, nack (s.countSat (rHW_DROP p) HW_DROP_SEQ 1))
  else
    let s := (s.modPort p fun x => { x with rx := x.rx + 1, rxbuf := x.rxbuf ++ [f] }).count (rHW_RX p) 1
    (true, linkSend p 0 0 0 (takeAck p f s))

/-- SUB of a CTRL or LINK frame. -/
def frSub (f : Frame) : Nat := bits f.w3 63 56

/-- A frame that arrives by a row of another kind is not this command's; one that fails the format check has no kind. -/
def frameFor (typ sub : Nat) (f : Frame) : Bool :=
  !frameLegal f || (f.typ == typ && (decide (typ < 2) || frSub f == sub))

end Sys2Proof.Machine
end

