-- ==== Sys2Proof/Machine/Capstan.lean ====
section
/-! DEFINITION. The Capstan (R380-R390): groups, descriptors, reduce-scatter and all-gather frame by frame, the sweep, records
and failures, and the hitch sweeps of R390. -/

namespace Sys2Proof.Machine

/-- A group. -/
def State.grp (s : State) (g : Nat) : Grp := tget Grp.reset s.grps g
/-- Replace it, with its QUEUE count. -/
def State.setGrp (s : State) (g : Nat) (x : Grp) : State :=
  { s with grps := tset g x s.grps }.setFld (rCAP_GRP g) CAP_GRP_QUEUE x.queue.length
/-- Change the running collective. -/
def State.setRun (s : State) (g : Nat) (c : Coll) : State := s.setGrp g { s.grp g with run := some c }

/-! STATE of a group and codes of R389. -/
abbrev cgOK : Nat := 1
abbrev cgFAILED : Nat := 2
abbrev ccDESC : Nat := 1
abbrev ccLINK : Nat := 2
abbrev ccMISMATCH : Nat := 3
abbrev ccTIMEOUT : Nat := 4
abbrev ccREMOTE : Nat := 5
abbrev ccDATA : Nat := 6
abbrev ccPAGE : Nat := 7
abbrev ccABORT : Nat := 8

/-- STATE of a group. -/
def grpState (s : State) (g : Nat) : Nat := s.fld (rCAP_GRP g) CAP_GRP_STATE
/-- PART of a group. -/
def grpPart (s : State) (g : Nat) : Nat := s.fld (rCAP_GRP g) CAP_GRP_PART
/-- The dimensions of a group, ascending. -/
def grpDims (s : State) (g : Nat) : List Nat := (List.range 4).filter fun d => bit (s.fld (rCAP_GRP g) CAP_GRP_DIMS) d
/-- N, the number of members (R380). -/
def grpN (s : State) (g : Nat) : Nat := (grpDims s g).foldl (fun a d => a * dimN s d) 1

/-! The descriptor (R381): the number in its 64 bytes. -/

/-- CSEQ. -/
def cSeq (d : Nat) : Nat := bits (dW d 0) 31 0
/-- GROUP. -/
def cGroup (d : Nat) : Nat := bits (dW d 0) 39 32
/-- OP: 0 RS, 1 AG, 2 AR. -/
def cOp (d : Nat) : Nat := bits (dW d 0) 41 40
/-- DFMT. -/
def cDf (d : Nat) : Nat := bits (dW d 0) 45 42
/-- WFMT. -/
def cWf (d : Nat) : Nat := bits (dW d 0) 49 46
/-- SRC. -/
def cSrc (d : Nat) : Nat := bits (dW d 1) 47 0
/-- DST. -/
def cDst (d : Nat) : Nat := bits (dW d 2) 47 0
/-- LEN. -/
def cLen (d : Nat) : Nat := bits (dW d 3) 39 0
/-- STAG. -/
def cStag (d : Nat) : Nat := bits (dW d 4) 15 0
/-- DTAG. -/
def cDtag (d : Nat) : Nat := bits (dW d 4) 31 16
/-- KNOT. -/
def cKnot (d : Nat) : Nat := bits (dW d 4) 44 32
/-- KEN. -/
def cKen (d : Nat) : Bool := bit (dW d 4) 45

/-- A format the Capstan accepts: FP32, BF16 or E5M2 (R381). -/
def cFmtOk (f : Nat) : Bool := f == 0 || f == 1 || f == 4

/-- Is a descriptor refused with DESC (R381); the STATUS word is not looked at, an empty tensor or group is illegal (log 39). -/
def cBad (s : State) (part d : Nat) : Bool :=
  let g := cGroup d
  let nq := grpN s g * (grpDims s g).length
  bits (dW d 0) 63 50 != 0 || bits (dW d 1) 63 48 != 0 || bits (dW d 2) 63 48 != 0 || bits (dW d 3) 63 40 != 0 ||
    bits (dW d 4) 63 46 != 0 || dW d 6 != 0 || dW d 7 != 0 || cOp d == 3 || !cFmtOk (cDf d) || (cOp d != 1 && !cFmtOk (cWf d)) ||
    cSrc d % 256 != 0 || cDst d % 256 != 0 || !(s.flag (rCAP_GRP g) CAP_GRP_EN && grpPart s g == part) ||
    (cStag d != 0 && !ownsTag s part (cStag d)) || (cDtag d != 0 && !ownsTag s part (cDtag d)) ||
    nq == 0 || cLen d == 0 || cLen d % (256 * nq) != 0

/-- Why an access of the Capstan does not go on. -/
inductive CapStop where
  | wait (prep : State → State)
  | fail (code : Nat) (s : State)

/-- Read `n` bytes at `va`: checked, gated and correctable, or a stop. -/
def capRead (part tag va n : Nat) (s : State) : Except CapStop (List Byte × State) :=
  match eFaultV s part true .load va n with
  | some (_, a) => .error (.fail ccPAGE (touchEcN (epCapstan 0) part va (a + 1 - va) s))
  | none =>
    let s := touchEcN (epCapstan 0) part va n s
    if !eGateV s part false va n then .error (.wait (ePrepV part tag 0xF false va n))
    else match eReadV part tag va n (decide (tag ≠ 0)) true s with
      | (bs, none, s) => .ok (bs, s)
      | (_, some _, s) => .error (.fail ccDATA s)

/-- Identity of a group as a writer to the companion window. -/
def capEng (g : Nat) : Nat := 0x30000 + g

/-- Write bytes to DST: checked and gated, or a stop. -/
def capWrite (g part tag : Nat) (nf : Bool) (va : Nat) (bs : List Byte) (s : State) : Except CapStop State :=
  match eFaultV s part true .store va bs.length with
  | some (_, a) => .error (.fail ccPAGE (touchEcN (epCapstan 0) part va (a + 1 - va) s))
  | none =>
    let s := touchEcN (epCapstan 0) part va bs.length s
    if (lostV s part va bs.length).isSome then .error (.fail ccDATA (dropLostV part va bs.length s))
    else if !eGateV s part true va bs.length then .error (.wait (ePrepV part tag 0xF true va bs.length))
    else .ok (eWriteV part tag 0xF nf (capEng g) va bs s)

/-- Write a STATUS word: at once, or as a write that waits at its home; one whose translation fails is dropped (log 39). -/
def capStatus (part va w : Nat) (s : State) : State :=
  let a := va + 0x28
  let s := touchEc (epCapstan 0) part a s
  match eFaultV s part true .store a 8 with
  | some _ => s
  | none =>
    if eGateV s part true a 8 then eWriteV part 0 0xF false 0 a (leBytes 8 w) s
    else
      let pa := ePaV s part a
      let cs := cellsFrom (pa % 128) (leBytes 8 w)
      s.send { mkPkt (homeEp s pa) (epCapstan 0) clsREQ opWR part (pa / 128 * 128) with payload := putCells 0 cs, mask := maskCells cs }

/-- Set the record of a sequence; a record it replaces is gone (R387). -/
def setRec (p c st : Nat) (nf : Bool) (s : State) : State :=
  let k := p * 512 + c % 512
  let gone := match tget? k s.capRec with
    | some r => if r.c = c then s.capGone else (p, r.c) :: s.capGone
    | none => s.capGone
  { s with capRec := tset k { c := c, st := st, nf := nf } s.capRec, capGone := gone.filter fun x => x != (p, c) }

/-- Finish a descriptor FAILED (R381, R389). -/
def capFailed (part code : Nat) (x : Nat × Nat) (s : State) : State :=
  let s := capStatus part x.2 (3 <<< 62 ||| code <<< 56) s
  (setRec part (cSeq x.1) 3 false s).count rCAP_FAILS 1

/-- Is a frame a collective's or hitch's frame of group g. -/
def frOfGrp (g : Nat) (f : Frame) : Bool :=
  (f.typ == 0 && bits f.w3 31 24 == g) || (f.typ == 2 && (frSub f == 0 || frSub f == 1) && bits f.w3 23 16 == g)

/-- Drop what ports hold of group g: received frames free their places, unsent ones are not sent. -/
def purgeGrp (g : Nat) (s : State) : State :=
  upto (fun p s =>
    let x := s.port p
    let mine := x.rxbuf.filter fun f => frOfGrp g f
    s.setPort p { x with
      out := x.out.filter fun f => !frOfGrp g f
      rxbuf := x.rxbuf.filter fun f => !frOfGrp g f
      freed := x.freed + mine.length }) 8 s

/-- Send a CTRL frame to the neighbour of port p. -/
def ctrlSend (p part w3 w4 : Nat) (nf : Bool) (s : State) : State :=
  capFrame p { mkFrame s 2 (nbrId s p) part with w3 := w3, w4 := w4, nf := nf } s

/-- Send GFAIL in both directions along every dimension of a group (R389). -/
def sendGfail (g cseq : Nat) (s : State) : State :=
  each (fun d s =>
    each (fun p s => if hwState s p = hwUP then ctrlSend p (grpPart s g) (3 <<< 56 ||| cseq <<< 24 ||| g <<< 16) 0 false s else s)
      [2 * d, 2 * d + 1] s) (grpDims s g) s

/-- A GROUP FAILS (R389, R390). -/
def groupFail (g code : Nat) (s : State) : State :=
  if grpState s g ≠ cgOK then s
  else
    let x := s.grp g
    let part := grpPart s g
    let cseq := match x.run with | some c => cSeq c.d | none => 0
    let s := (s.setFld (rCAP_GRP g) CAP_GRP_STATE cgFAILED).setFld (rCAP_GRP g) CAP_GRP_CODE code
    let s := match x.run with | some c => capFailed c.part code (c.d, c.va) s | none => s
    let s := each (capFailed part code) x.queue s
    let s := match tget? g s.xsent with
      | some (h, _) => hitchFail h { s with xsent := tdel g s.xsent }
      | none => s
    sendGfail g cseq (purgeGrp g (s.setGrp g Grp.reset))

/-! Parts, ranges and shards (R382, R383). -/

/-- Dimension order of part j: ascending, rotated left by j. -/
def partOrder (dims : List Nat) (j : Nat) : List Nat := dims.drop j ++ dims.take j

/-- First byte and length of what part j's module works on before step k of the reduce-scatter. -/
def partRange (s : State) (dims : List Nat) (len j : Nat) : Nat → Nat × Nat
  | 0 => (j * (len / dims.length), len / dims.length)
  | k + 1 =>
    let (lo, n) := partRange s dims len j k
    let d := (partOrder dims j).getD k 0
    let z := n / dimN s d
    (lo + dimR s d * z, z)

/-- Sizes of a step: dimension, members, position, first byte, block, half block. -/
def stepGeom (s : State) (dims : List Nat) (len j k : Nat) : Nat × Nat × Nat × Nat × Nat × Nat :=
  let d := (partOrder dims j).getD k 0
  let (lo, n) := partRange s dims len j k
  (d, dimN s d, dimR s d, lo, n / dimN s d, n / dimN s d / 2)

/-- The block whose data comes i-th on a stream (R383; the all-gather streams by symmetry, log 39). -/
def streamBlock (ag plus : Bool) (n r i : Nat) : Nat :=
  if ag then (if plus then (r + 2 * n - 1 - i) % n else (r + 1 + i) % n)
  else if plus then (r + 2 * n - 2 - i) % n else (r + 2 + i) % n

/-- Tensor offset of the next byte of a stream that has brought `got` bytes. -/
def streamOff (ag plus : Bool) (n r lo blk half got : Nat) : Nat :=
  lo + streamBlock ag plus n r (got / half) * blk + (if plus then 0 else half) + got % half

/-- Bytes of an element in memory. -/
def cEl (d : Nat) : Nat := fmtWidth (cDf d) / 8

/-- Local elements of a reduce-scatter step, FP32, from byte `off`, n of them (R384): of SRC in the first step, held ones later. -/
def localVals (c : Coll) (cp : CPart) (off n : Nat) (s : State) : Except CapStop (List Nat × State) :=
  if cp.k = 0 then
    match capRead c.part (cStag c.d) (cSrc c.d + off) (n * cEl c.d) s with
    | .error e => .error e
    | .ok (bs, s) => .ok (widen (cDf c.d) n c.sS bs, s)
  else
    match cp.ps with
    | [] => .ok ([], s)
    | q :: _ => .ok (((cp.ps.flatMap fun x => x.vals).drop ((off - q.off) / cEl c.d)).take n, s)

/-- NF of what a frame of `n` elements from `off` derives from, among the held pieces. -/
def heldNf (c : Coll) (cp : CPart) (off n : Nat) : Bool :=
  decide (cp.k ≠ 0) && cp.ps.any fun x =>
    x.nf && decide (x.off < off + n * cEl c.d) && decide (off < x.off + x.vals.length * cEl c.d)

/-- The largest n in -128 to 127 with m * 2^n at most 57,344, from `n` down by fuel (R384). -/
def xsFind (m : Nat) (e : Int) : Nat → Int → Int
  | 0, n => n
  | k + 1, n => if magLt 57344 0 m (e + n) then xsFind m e k (n - 1) else n

/-- XS of a reduce-scatter frame (R384). -/
def xsOf (wf : Nat) (vs : List Nat) : Int :=
  if wf ≠ 4 then 0
  else
    match vs.foldl (fun a v => match fdec 0 v with
        | .fin _ m e => (match a with | some (m', e') => if magLt m' e' m e then some (m, e) else a | none => some (m, e))
        | _ => a) (none : Option (Nat × Int)) with
    | some (m, e) => if m = 0 then 0 else xsFind m e 255 127
    | none => 0

/-- Payload bytes of partial sums in a wire format (R384). -/
def wireBytes (wf : Nat) (xs : Int) (vs : List Nat) : List Byte :=
  vs.flatMap fun v => leBytes (fmtWidth wf / 8) (fround wf (fscale xs (fdec 0 v)))

/-- An int8 exponent as XS bits. -/
def xsBits (x : Int) : Nat := (x % 256).toNat

/-- Send a data frame of group g through port p. -/
def cdataSend (g ph j p : Nat) (c : Coll) (off : Nat) (bs : List Byte) (xs : Nat) (nf : Bool) (s : State) : State :=
  capFrame p { mkFrame s 0 (nbrId s p) c.part with
    len := bs.length, payload := bs, xs := xs, nf := nf
    tag := if ph = 0 then cStag c.d else cDtag c.d
    fmt := if ph = 0 then cWf c.d else cDf c.d
    w3 := (cSeq c.d <<< 32) ||| (g <<< 24) ||| (ph <<< 22) ||| (j <<< 20)
    w4 := off } (s.count rCAP_BYTES bs.length)

/-- Is an FP32 list free of non-finite values. -/
def allFin (vs : List Nat) : Bool := vs.all fun v => !fNonFin 0 v

/-- Send the starting block of a reduce-scatter stream: n elements from `off`, in frames of 16 KiB (log 39). -/
def rsSendRun (g j p : Nat) (c : Coll) (cp : CPart) : Nat → Nat → Nat → State → Except CapStop (Bool × State)
  | 0, _, _, s => .ok (false, s)
  | k + 1, off, n, s =>
    if n = 0 then .ok (false, s)
    else
      let m := min n (16384 * 8 / fmtWidth (cWf c.d))
      match localVals c cp off m s with
      | .error e => .error e
      | .ok (vs, s) =>
        let nf := c.snf || heldNf c cp off m || !allFin vs
        let xs := xsOf (cWf c.d) vs
        let s := cdataSend g 0 j p c off (wireBytes (cWf c.d) xs vs) (xsBits xs) nf s
        match rsSendRun g j p c cp k (off + m * cEl c.d) (n - m) s with
        | .error e => .error e
        | .ok (b, s) => .ok (nf || b, s)

/-- Start step k of a reduce-scatter part: the first block of each direction leaves (R383). -/
def rsStart (g j : Nat) (c : Coll) (cp : CPart) (s : State) : Except CapStop (Bool × State) :=
  let (d, n, r, lo, blk, half) := stepGeom s (grpDims s g) (cLen c.d) j cp.k
  let e := half / cEl c.d
  match rsSendRun g j (2 * d) c cp (e + 1) (lo + (r + n - 1) % n * blk) e s with
  | .error x => .error x
  | .ok (a, s) =>
    match rsSendRun g j (2 * d + 1) c cp (e + 1) (lo + (r + 1) % n * blk + half) e s with
    | .error x => .error x
    | .ok (b, s) => .ok (a || b, s)

/-- Cut bytes of a half shard into pieces of one frame. -/
def cutPieces (xs : Nat) (nf : Bool) : Nat → Nat → List Byte → List Piece
  | 0, _, _ => []
  | k + 1, off, bs =>
    if bs.isEmpty then []
    else { off := off, vals := [], bytes := bs.take 16384, xs := xs, nf := nf } :: cutPieces xs nf k (off + 16384) (bs.drop 16384)

/-- Pieces of an own shard, each half cut from its start. -/
def shardPieces (xs : Nat) (nf : Bool) (off : Nat) (bs : List Byte) : List Piece :=
  let h := bs.length / 2
  cutPieces xs nf (h + 1) off (bs.take h) ++ cutPieces xs nf (h + 1) (off + h) (bs.drop h)

/-- Put a piece into a list in order of offset. -/
def insPiece (x : Piece) : List Piece → List Piece
  | [] => [x]
  | y :: r => if x.off < y.off then x :: y :: r else y :: insPiece x r

/-- Start a step of an all-gather part: the own block's lower half leaves in the plus direction, its upper half in minus. -/
def agStart (g j : Nat) (c : Coll) (cp : CPart) (s : State) : State :=
  let (d, _, r, lo, blk, half) := stepGeom s (grpDims s g) (cLen c.d) j cp.k
  let mid := lo + r * blk + half
  each (fun (x : Piece) s => cdataSend g 1 j (if x.off < mid then 2 * d else 2 * d + 1) c x.off x.bytes x.xs x.nf s) cp.ps s

/-- AMAX and NF of bytes written to DST (R386). -/
def scanDst (df : Nat) (sD : Int) (bs : List Byte) : Nat × Bool :=
  let vs := (List.range (bs.length * 8 / fmtWidth df)).map fun i =>
    fscale (-sD) (fdec df (leNat ((bs.drop (i * fmtWidth df / 8)).take (fmtWidth df / 8))))
  (vs.foldl (fun a v => match v with | .fin _ _ _ => amax32 a (fround 0 (fabs v)) | _ => a) 0, vs.any fun v => !v.isFin)

/-- Write bytes of DST and take them into AMAX and NF. -/
def putDst (g : Nat) (c : Coll) (off : Nat) (bs : List Byte) (nf : Bool) (s : State) : Except CapStop (Coll × State) :=
  let (am, bad) := scanDst (cDf c.d) c.sD bs
  match capWrite g c.part (cDtag c.d) (nf || bad) (cDst c.d + off) bs s with
  | .error e => .error e
  | .ok s => .ok ({ c with amax := amax32 c.amax am, nf := c.nf || nf || bad }, s)

/-- Replace part j. -/
def Coll.setPart (c : Coll) (j : Nat) (p : CPart) : Coll := { c with parts := c.parts.set j p }

/-- Part j. -/
def Coll.part' (c : Coll) (j : Nat) : CPart := c.parts.getD j { ph := 2, k := 0, gp := 0, gm := 0, ps := [] }

/-- Begin the all-gather of part j with the own shard's bytes, which `DST` holds. -/
def agBegin (g j off : Nat) (c : Coll) (bs : List Byte) (nf : Bool) (s : State) : Coll × State :=
  let cp : CPart := { ph := 1, k := (grpDims s g).length - 1, gp := 0, gm := 0, ps := shardPieces (xsBits c.sD) nf off bs }
  (c.setPart j cp, agStart g j c cp s)

/-- The reduce-scatter of part j has ended: the owned shard is converted and written (R384). -/
def rsFinish (g j : Nat) (c : Coll) (s : State) : Except CapStop (Coll × State) :=
  let cp := c.part' j
  let off := (partRange s (grpDims s g) (cLen c.d) j cp.k).1
  let vs := cp.ps.flatMap fun x => x.vals
  let nf := c.snf || cp.ps.any fun x => x.nf
  let bs := vs.flatMap fun v => leBytes (cEl c.d) (fconv (cDf c.d) c.sat none (fscale c.sD (fdec 0 v)))
  match putDst g c off bs nf s with
  | .error e => .error e
  | .ok (c, s) =>
    if cOp c.d = 0 then .ok (c.setPart j { cp with ph := 2, ps := [] }, s)
    else .ok (agBegin g j off c bs (nf || (scanDst (cDf c.d) 0 bs).2) s)

/-- Port through which a stream goes on: the other port of the dimension than the one it came by. -/
def thru (p : Nat) : Nat := if plusPort p then p + 1 else p - 1

/-- A reduce-scatter frame is added to the local elements and its sum is sent on or kept (R383, R384). -/
def rsTake (g j p : Nat) (f : Frame) (c : Coll) (s : State) : Except CapStop (Coll × State) :=
  let cp := c.part' j
  let (_, n, r, lo, blk, half) := stepGeom s (grpDims s g) (cLen c.d) j cp.k
  let plus := !plusPort p
  let got := if plus then cp.gp else cp.gm
  let off := streamOff false plus n r lo blk half got
  let wf := cWf c.d
  let ne := f.payload.length * 8 / fmtWidth wf
  match localVals c cp off ne s with
  | .error e => .error e
  | .ok (xs, s) =>
    let w := fmtWidth wf / 8
    let sx := sext 8 f.xs
    let sums := (List.range ne).map fun i =>
      fround 0 (fadd (fscale (-sx) (fdec wf (leNat ((f.payload.drop (i * w)).take w)))) (fdec 0 (xs.getD i 0)))
    let nf := f.nf || c.snf || heldNf c cp off ne || !allFin xs || !allFin sums
    let last := decide (got / half = n - 2)
    let got := got + ne * cEl c.d
    let s := if last then s
      else let x := xsOf wf sums; cdataSend g 0 j (thru p) c off (wireBytes wf x sums) (xsBits x) nf s
    -- finished elements of the own block are kept under step k + 1 until the step ends
    let cp := { cp with gp := if plus then got else cp.gp, gm := if plus then cp.gm else got }
    let c := { c with nf := c.nf || nf }
    .ok (if last then c.setPart j { cp with ps := cp.ps ++ [{ off := off, vals := sums, bytes := [0], xs := 0, nf := nf }] }
         else c.setPart j cp, s)

/-- An all-gather frame is written unchanged and sent on (R385). -/
def agTake (g j p : Nat) (f : Frame) (c : Coll) (s : State) : Except CapStop (Coll × State) :=
  let cp := c.part' j
  let (_, n, r, lo, blk, half) := stepGeom s (grpDims s g) (cLen c.d) j cp.k
  let plus := !plusPort p
  let got := if plus then cp.gp else cp.gm
  let off := streamOff true plus n r lo blk half got
  let nf := f.nf || c.snf || (scanDst (cDf c.d) 0 f.payload).2
  match putDst g c off f.payload nf s with
  | .error e => .error e
  | .ok (c, s) =>
    let s := if f.xs = xsBits c.sD then s else s.count rCAP_XSMIS 1
    let s := if got / half = n - 2 then s else cdataSend g 1 j (thru p) c off f.payload f.xs nf s
    let got := got + f.payload.length
    let cp := { cp with
      gp := if plus then got else cp.gp
      gm := if plus then cp.gm else got
      ps := insPiece { off := off, vals := [], bytes := f.payload, xs := f.xs, nf := nf } cp.ps }
    .ok (c.setPart j cp, s)

/-- A step of a part whose two streams are complete gives way to the next one. -/
def stepEnd (g j : Nat) (c : Coll) (s : State) : Except CapStop (Coll × State) :=
  let cp := c.part' j
  let q := (grpDims s g).length
  let (_, n, _, _, _, half) := stepGeom s (grpDims s g) (cLen c.d) j cp.k
  if cp.gp < (n - 1) * half ∨ cp.gm < (n - 1) * half then .ok (c, s)
  else if cp.ph = 0 then
    -- the own block's sums are those pieces that this step's last frames left; they carry a mark in `bytes`
    let ps := (cp.ps.filter fun x => !x.bytes.isEmpty).foldl (fun l x => insPiece { x with bytes := [] } l) []
    let cp := { cp with k := cp.k + 1, gp := 0, gm := 0, ps := ps }
    let c := c.setPart j cp
    if cp.k = q then .ok (c, s)
    else match rsStart g j c cp s with
      | .error e => .error e
      | .ok (nf, s) => .ok ({ c with nf := c.nf || nf }, s)
  else if cp.k = 0 then .ok (c.setPart j { cp with ph := 2, ps := [] }, s)
  else
    let cp := { cp with k := cp.k - 1, gp := 0, gm := 0 }
    .ok (c.setPart j cp, agStart g j c cp s)

/-- What a waiting frame is to the running collective. -/
inductive Turn where
  | now | later | bad
  deriving DecidableEq, Repr

/-- Turn of a data frame that came by port p (R389). -/
def dataTurn (s : State) (g p : Nat) (f : Frame) (c : Coll) : Turn :=
  let dims := grpDims s g
  let ph := bits f.w3 23 22
  let j := bits f.w3 21 20
  let ag := ph == 1
  let fmt := if ag then cDf c.d else cWf c.d
  match (partOrder dims j).findIdx? fun d => d == p / 2 with
  | none => .bad
  | some k =>
    if dims.length ≤ j ∨ 2 ≤ ph ∨ (ph = 0 ∧ cOp c.d = 1) ∨ (ph = 1 ∧ cOp c.d = 0) ∨ f.fmt ≠ fmt ∨ f.payload = [] ∨ c.sw.isSome = true then .bad
    else
      let cp := c.part' j
      if cp.ph < ph then .later
      else if cp.ph ≠ ph then .bad
      else if cp.k ≠ k then (if (ag && decide (k < cp.k)) || (!ag && decide (cp.k < k)) then .later else .bad)
      else
        let (_, n, r, lo, blk, half) := stepGeom s dims (cLen c.d) j k
        let plus := !plusPort p
        let got := if plus then cp.gp else cp.gm
        let nb := f.payload.length * 8 / fmtWidth fmt * cEl c.d
        if got < (n - 1) * half ∧ f.w4 % 2 ^ 48 = streamOff ag plus n r lo blk half got ∧ got % half + nb ≤ half then .now else .bad

/-- Turn of a sweep frame. -/
def sweepTurn (s : State) (g p : Nat) (c : Coll) : Turn :=
  match (grpDims s g).findIdx? fun d => d == p / 2, c.sw with
  | none, _ => .bad
  | some _, none => .later
  | some i, some k =>
    if k < i then .later
    else if i < k then .bad
    else if (if plusPort p then c.cm else c.cp) < dimN s (p / 2) / 2 then .now else .bad

/-- Send the sweep's values in both directions of a dimension (R386). -/
def sweepSend (g d : Nat) (c : Coll) (s : State) : State :=
  each (fun p s => ctrlSend p c.part ((cSeq c.d <<< 24) ||| (g <<< 16)) ((c.amax <<< 32) ||| b2n c.nf) c.nf s) [2 * d, 2 * d + 1] s

/-- Begin the sweep of the i-th dimension, or end the sweep after the last. -/
def sweepBegin (g i : Nat) (c : Coll) (s : State) : Coll × State :=
  let c := { c with sw := some i, cp := 0, cm := 0 }
  match (grpDims s g)[i]? with
  | some d => (c, sweepSend g d c s)
  | none => (c, s)

/-- A sweep frame is taken (R386): each direction goes on for floor(n / 2) hops. -/
def sweepTake (g p : Nat) (f : Frame) (c : Coll) (s : State) : Coll × State :=
  let d := p / 2
  let h := dimN s d / 2
  let c := { c with nf := c.nf || bit f.w4 0 || f.nf, amax := amax32 c.amax (bits f.w4 63 32) }
  let plus := !plusPort p
  let c := { c with cp := if plus then c.cp + 1 else c.cp, cm := if plus then c.cm else c.cm + 1 }
  let s := if (if plus then c.cp else c.cm) < h then
      ctrlSend (thru p) c.part ((cSeq c.d <<< 24) ||| (g <<< 16)) ((c.amax <<< 32) ||| b2n c.nf) c.nf s else s
  if c.cp = h ∧ c.cm = h then
    match c.sw with
    | some i => sweepBegin g (i + 1) c s
    | none => (c, s)
  else (c, s)

/-- The collective is complete (R386): merge, STATUS, record, knot. -/
def collDone (g : Nat) (c : Coll) (s : State) : State :=
  let dt := cDtag c.d
  let s := if dt = 0 then s else mergeFrom (epCapstan 0) c.part dt c.amax c.nf s
  let s := capStatus c.part c.va ((1 <<< 62) ||| (b2n c.nf <<< 61) ||| c.amax) s
  let s := setRec c.part (cSeq c.d) 2 c.nf s
  let s := (s.count rCAP_DONE 1).count rCAP_NFCOLL (b2n c.nf)
  let s := if cKen c.d then sendSignal (epCapstan 0) (cKnot c.d) 4 c.part 1 s else s
  s.setGrp g { s.grp g with run := none }

/-- Put a stop of the Capstan into effect for a group. -/
def capStop (g : Nat) (s0 : State) : CapStop → State
  | .wait f => f s0
  | .fail code s => groupFail g code s

/-- When every part is complete the sweep begins. -/
def sweepIf (g : Nat) (c : Coll) (s : State) : State :=
  if c.sw.isNone && c.parts.all fun p => p.ph == 2 then let (c, s) := sweepBegin g 0 c s; s.setRun g c else s.setRun g c

/-- One event of a running collective: an owned shard is written, a waiting frame's turn comes, or it ends. -/
def collStep (g : Nat) (s : State) : State :=
  match (s.grp g).run with
  | none => s
  | some c =>
    let q := (grpDims s g).length
    if c.sw = some q then (if s.cwReqs.any fun x => x.eng == capEng g then s else collDone g c s)
    else match (List.range q).find? fun j => (c.part' j).ph == 0 && (c.part' j).k == q with
      | some j =>
        (match rsFinish g j c s with
         | .error e => capStop g s e
         | .ok (c, s) => sweepIf g c s)
      | none =>
        let turn := fun (x : Nat × Frame) => if x.2.typ = 0 then dataTurn s g x.1 x.2 c else sweepTurn s g x.1 c
        (match c.wait.find? fun x => turn x != .later with
         | none => s
         | some (p, f) =>
           if turn (p, f) = .bad then groupFail g ccMISMATCH s
           else
             let c := { c with wait := c.wait.erase (p, f) }
             if f.typ ≠ 0 then let (c, s) := sweepTake g p f c s; s.setRun g c
             else
               let j := bits f.w3 21 20
               match (if bits f.w3 23 22 = 0 then rsTake g j p f c s else agTake g j p f c s) with
               | .error e => capStop g s e
               | .ok (c, s) =>
                 match stepEnd g j c s with
                 | .error e => capStop g s e
                 | .ok (c, s) => sweepIf g c s)

/-- Let a group's collective go on as far as it can. -/
def collPump (g : Nat) (s : State) : State :=
  match (s.grp g).run with
  | none => s
  | some c => upto (fun _ s => collStep g s) (c.wait.length + c.parts.length + 2) s

/-! The hitch sweep (R390). -/

/-- Send (XG, GEN) in both directions of a dimension. -/
def xhSend (g gen d : Nat) (s : State) : State :=
  each (fun p s => ctrlSend p (grpPart s g) ((1 <<< 56) ||| (g <<< 16) ||| gen) 0 false s) [2 * d, 2 * d + 1] s

/-- Begin the hitch sweep of the i-th dimension, or report completion after the last. -/
def xhBegin (g h gen i : Nat) (s : State) : State :=
  match (grpDims s g)[i]? with
  | some d => xhSend g gen d (s.setGrp g { s.grp g with xh := some (h, gen, i, 0, 0) })
  | none => hitchXdone h { s.setGrp g { s.grp g with xh := none } with xsent := tdel g s.xsent }

/-- Start the sweeps of hitches that have sent (XG, GEN). -/
def xhStart (s : State) : State :=
  each (fun x s => if (s.grp x.1).xh.isSome then s else xhBegin x.1 x.2.1 x.2.2 0 s) s.xsent s

/-- Turn of an XHITCH frame of group g at port p. -/
def xhTurn (s : State) (g p : Nat) : Bool :=
  match (s.grp g).xh with
  | none => false
  | some (_, _, i, a, b) => ((grpDims s g)[i]? == some (p / 2)) && decide ((if plusPort p then b else a) < dimN s (p / 2) / 2)

/-- An XHITCH frame is taken: equal generations go on, others fail the hitch. -/
def xhTake (g p : Nat) (f : Frame) (s : State) : State :=
  match (s.grp g).xh with
  | none => s
  | some (h, gen, i, a, b) =>
    if bits f.w3 15 0 ≠ gen then hitchFail h { s.setGrp g { s.grp g with xh := none } with xsent := tdel g s.xsent }
    else
      let plus := !plusPort p
      let n := dimN s (p / 2) / 2
      let a := if plus then a + 1 else a
      let b := if plus then b else b + 1
      let s := s.setGrp g { s.grp g with xh := some (h, gen, i, a, b) }
      let s := if (if plus then a else b) < n then ctrlSend (thru p) (grpPart s g) ((1 <<< 56) ||| (g <<< 16) ||| gen) 0 false s else s
      if a = n ∧ b = n then xhBegin g h gen (i + 1) s else s

/-! Commands. -/

/-- The descriptor a doorbell names. -/
def dbDesc (v : Word) : Nat := fget v CAP_DOORBELL_DESC * 64

/-- CAP_DOORBELL (R381, R388): the descriptor is read and checked; a full queue refuses it; an unreadable one is dropped
and counted, and one for a FAILED group fails with its CODE (log 39). -/
def opCapDoorbell (o : Origin) (v : Word) (s : State) : State :=
  if !mayReg s o true rCAP_DOORBELL then { s with rsp := .err }
  else
    let part := (Origin.part s o).getD (fget v CAP_DOORBELL_PART)
    match capRead part 0 (dbDesc v) 64 s with
    | .error (.wait f) => f s
    | .error (.fail _ s) => { s.count rCAP_FAILS 1 with rsp := .ok 0 }
    | .ok (bs, s) =>
      let d := leNat bs
      let g := cGroup d
      let x := s.grp g
      if cBad s part d then { capFailed part ccDESC (d, dbDesc v) s with rsp := .ok 0 }
      else if 8 ≤ x.queue.length then { s with rsp := .err }
      else if grpState s g = cgFAILED then { capFailed part (s.fld (rCAP_GRP g) CAP_GRP_CODE) (d, dbDesc v) s with rsp := .ok 0 }
      else { s.setGrp g { x with queue := x.queue ++ [(d, dbDesc v)] } with rsp := .ok 0 }

/-- Scale exponent of a tag, 0 for none (R384). -/
def tagS (s : State) (t : Nat) : Int := if t = 0 then 0 else gaugeS s t

/-- Start part j of a collective that has an own shard to spread (all-gather): read it from SRC, write it to DST. -/
def agFirst (g j : Nat) (c : Coll) (s : State) : Except CapStop (Coll × State) :=
  let (off, z) := partRange s (grpDims s g) (cLen c.d) j (grpDims s g).length
  match capRead c.part (cStag c.d) (cSrc c.d + off) z s with
  | .error e => .error e
  | .ok (bs, s) =>
    match putDst g c off bs c.snf s with
    | .error e => .error e
    | .ok (c, s) => .ok (agBegin g j off c bs (c.snf || (scanDst (cDf c.d) 0 bs).2) s)

/-- Start the parts, the lowest first. -/
def partsStart (g : Nat) : Nat → Coll → State → Except CapStop (Coll × State)
  | 0, c, s => .ok (c, s)
  | j + 1, c, s =>
    match partsStart g j c s with
    | .error e => .error e
    | .ok (c, s) =>
      if cOp c.d = 1 then agFirst g j c s
      else match rsStart g j c (c.part' j) s with
        | .error e => .error e
        | .ok (nf, s) => .ok ({ c with nf := c.nf || nf }, s)

/-- COLLECTIVE_START (R384, R387, R388): the group takes the descriptor at the head of its queue. -/
def collectiveStart (g : Nat) (s : State) : State :=
  let x := s.grp g
  match x.queue, x.run with
  | (d, va) :: r, none =>
    if grpState s g ≠ cgOK then s
    else
      let q := (grpDims s g).length
      let part := grpPart s g
      let st := cStag d
      let dt := cDtag d
      let c : Coll := { d := d, va := va, part := part, sS := tagS s st, sD := tagS s dt
                        sat := decide (dt ≠ 0) && fbit (s.gw dt 0) gSAT
                        snf := decide (st ≠ 0) && fbit (s.gw st 0) gNF, nf := decide (st ≠ 0) && fbit (s.gw st 0) gNF, amax := 0
                        parts := List.replicate q { ph := 0, k := 0, gp := 0, gm := 0, ps := [] }
                        sw := none, cp := 0, cm := 0, wait := [] }
      let s1 := (setRec part (cSeq d) 1 false s).setGrp g { x with queue := r, run := some c }
      let bad := [st, dt].filter fun t => decide (t ≠ 0) && gaugeBad s t
      if !bad.isEmpty then groupFail g ccDATA (each gaugeErr bad s1)
      else match partsStart g q c s1 with
        | .error (.wait f) => f s
        | .error (.fail code _) => groupFail g code s1
        | .ok (c, s) => sweepIf g c s
  | _, _ => s

/-- CAPSTAN_TIMEOUT (R389): a group with a collective running makes no progress for TMO Canal cycles. -/
def capstanTimeout (g : Nat) (s : State) : State := if (s.grp g).run.isSome then groupFail g ccTIMEOUT s else s

/-- CAP_GRP_WRITE (R389, R394): EN 0 then 1 leaves FAILED; clearing EN of a group with work stops it as ABORT (log 39). -/
def opCapGrp (o : Origin) (g : Nat) (v : Word) (s : State) : State :=
  regWrite o (rCAP_GRP g) (fun _ => true) (fun s =>
    let was := s.flag (rCAP_GRP g) CAP_GRP_EN
    let en := fbit v CAP_GRP_EN
    let x := s.grp g
    let s := if was && !en && (x.run.isSome || !x.queue.isEmpty) then groupFail g ccABORT s else s
    let s := typedWrite s (rCAP_GRP g) v
    if was == en then s else s.setFld (rCAP_GRP g) CAP_GRP_STATE (if en then cgOK else 0)) s

/-- The record that CAP_RQ names (R394): STATE and NF. -/
def capRq (s : State) : Word :=
  let v := s.reg rCAP_RQ
  match capRecord s (fget v CAP_RQ_PART) (fget v CAP_RQ_CSEQ) with
  | some r => fsetB (fset v CAP_RQ_STATE r.st) CAP_RQ_NF r.nf
  | none => v

/-- A partition reset fails the groups of the partition with ABORT (R389). -/
def capstanReset (p : Nat) (s : State) : State :=
  each (fun x s => if grpPart s x = p then groupFail x ccABORT s else s) (List.range 256) s

end Sys2Proof.Machine
end

