-- ==== Sys2Proof/Machine/Ring.lean ====
section
/-! DEFINITION. Frames at work (R368-R379, R389-R394): chip-level channels, what a port does with a released frame, training,
retry, ports that leave UP, ring dimensions and the Spillway. -/

namespace Sys2Proof.Machine

/-! Chip-level channels (R392, R393). -/

/-- Send DDONE to the module a DDATA frame came from (R373, R393); one that cannot take its next hop is dropped. -/
def ddoneSend (f : Frame) (code addr : Nat) (s : State) : State :=
  match routeTo s f.smod with
  | none => s
  | some p =>
    if hwState s p ≠ hwUP then s
    else sendFrame p { mkFrame s 2 f.smod f.part with
        w3 := (2 <<< 56) ||| (bits f.w3 63 60 <<< 52) ||| (bits f.w3 59 57 <<< 49) ||| (bits f.w3 56 32 <<< 24) ||| (code <<< 20)
        w4 := addr } s

/-- DDONE ends or stops a descriptor of the channel it names (R393): the channel stops at the failing element, which for a
dense destination is found from the address (log 40). -/
def ddoneTake (f : Frame) (s : State) : State :=
  let p := bits f.w3 51 49
  let n := bits f.w3 55 52
  let ch := Chan.hc p n
  let x := s.chan ch
  let code := bits f.w3 23 20
  let addr := bits f.w4 47 0
  if chState s ch ≠ cvRUN ∨ x.serial % 2 ^ 25 ≠ bits f.w3 48 24 then s
  else if code = 0 then s.setChan ch { x with ddone := some (0, 0) }
  else
    let s := match x.cur with
      | some d =>
        let k := if dMode d = 2 ∨ dBraid d = true ∨ addr < dDst d then 0 else (addr - dDst d) / dEsize d
        s.setFld ch.rStat CV_STAT_ELEM (min k (dElems d))
      | none => s
    chError ch code addr s

/-- A frame of a channel that cannot go on stops its channel with LINK (R393). -/
def frameStuck (f : Frame) (s : State) : State :=
  if f.typ ≠ 1 then s
  else if f.smod = modId s then
    ddoneTake { f with typ := 2, w3 := (2 <<< 56) ||| (bits f.w3 63 60 <<< 52) ||| (bits f.w3 59 57 <<< 49) |||
                                        (bits f.w3 56 32 <<< 24) ||| (cvLINK <<< 20), w4 := bits f.w4 47 0 } s
  else ddoneSend f cvLINK (bits f.w4 47 0) s

/-- A frame that is on its way to another module takes its next hop (R376, R393). -/
def forward (f : Frame) (s : State) : State :=
  match routeTo s f.dmod with
  | none => frameStuck f s
  | some p => if hwState s p = hwUP then dimSend p f s else frameStuck f s

/-- Element writes of the channel at its own module: local copies of R392. -/
def hcLocal (ch : Chan) (d : Nat) (nf : Bool) (o : ElOut) (s : State) : Except ChStop State :=
  match chWritables ch (dTag d) (dFmt d) (o.data :: o.side) s with
  | .error e => .error e
  | .ok s =>
    let s := chWrite ch (dTag d) (dFmt d) nf o.data.1 o.data.2 s
    .ok (each (fun (w : Nat × List Byte) s => chWrite ch 0 0xF false w.1 w.2 s) o.side s)

/-- An element leaves as one DDATA frame, the whole of its unit and so marked LAST (R28, R33); side-table headers are written locally (R392, log 40). -/
def hcRemote (p n : Nat) (d k : Nat) (nf : Bool) (o : ElOut) (s : State) : Except ChStop State :=
  let ch := Chan.hc p n
  let dm := s.fld (rHC_CFG p n) HC_CFG_DMOD
  match chWritables ch 0 0xF o.side s with
  | .error e => .error e
  | .ok s =>
    match routeTo s dm with
    | none => .error (.fail cvLINK o.data.1 s)
    | some q =>
      if hwState s q ≠ hwUP then .error (.fail cvLINK o.data.1 s)
      else
        let s := each (fun (w : Nat × List Byte) s => chWrite ch 0 0xF false w.1 w.2 s) o.side s
        .ok (sendFrame q { mkFrame s 1 dm (ch.part s) with
          len := o.data.2.length, payload := o.data.2, tag := dTag d, fmt := dFmt d, nf := nf, braid := dBraid d
          fin := decide (k + 1 = dElems d)
          w3 := (n <<< 60) ||| (p <<< 57) ||| (((s.chan ch).serial % 2 ^ 25) <<< 32) ||| k
          w4 := o.data.1 } s)

/-- CULVERT_ELEMENT of a chip-level channel (R392). -/
def hcElement (p n : Nat) (nf : Bool) (s : State) : State :=
  let ch := Chan.hc p n
  let k := s.fld ch.rStat CV_STAT_ELEM
  match (s.chan ch).cur with
  | none => s
  | some d =>
    if chState s ch ≠ cvRUN ∨ dElems d ≤ k then s
    else match elemRead ch d k s with
      | .error e => chStop ch s e
      | .ok (o, s1) =>
        match (if s.fld (rHC_CFG p n) HC_CFG_DMOD = modId s then hcLocal ch d nf o s1 else hcRemote p n d k nf o s1) with
        | .error e => chStop ch s e
        | .ok s =>
          let s := (s.count ch.rBytes o.data.2.length).setFld ch.rStat CV_STAT_ELEM (k + 1)
          let x := s.chan ch
          s.setChan ch { x with off := o.off, out := x.out + o.data.2.length, sent := k + 1 }

/-- CULVERT_DESC_COMPLETE of a chip-level channel: a remote one needs its DDONE; KEN is ignored (R293, R393). -/
def hcComplete (p n : Nat) (s : State) : State :=
  let ch := Chan.hc p n
  match (s.chan ch).cur with
  | none => s
  | some d =>
    let away := s.fld (rHC_CFG p n) HC_CFG_DMOD ≠ modId s
    if chState s ch ≠ cvRUN ∨ s.fld ch.rStat CV_STAT_ELEM < dElems d ∨ chPending s ch = true ∨
      (away ∧ (s.chan ch).ddone.isNone = true) then s
    else match chWord ch d s with
      | .error e => chStop ch s e
      | .ok s => if chPending s ch then s else chNext ch d (chCount ch d s)

/-- CULVERT_ELEMENT of a core's or a port's channel. -/
def opElement (chip : Bool) (c n : Nat) (nf : Bool) (s : State) : State :=
  if chip then hcElement c n nf s else culvertElement c n nf s

/-- CULVERT_DESC_COMPLETE. -/
def opComplete (chip : Bool) (c n : Nat) (s : State) : State := if chip then hcComplete c n s else culvertComplete c n s

/-- CULVERT_DESC_FETCH. -/
def opDescFetch (chip : Bool) (c n : Nat) (s : State) : State := descFetch (if chip then .hc c n else .cv c n) s

/-- HC_HEAD_WRITE (R308, R392). -/
def opHcHead (o : Origin) (p n : Nat) (v : Word) (s : State) : State :=
  let ch := Chan.hc p n
  regWrite o (rHC_HEAD p n) (chIdle ch) (fun s => (chStart ch (fget v CV_HEAD_ADDR * 64) 0 true s).2) s

/-- Identity of a remote channel as a writer to the companion window. -/
def ddEng (f : Frame) : Nat := 0x40000 + f.smod * 128 + bits f.w3 63 57

/-- May a DDATA frame for this module be written now, or does it fail. -/
def ddReady (s : State) (f : Frame) : Bool :=
  let va := bits f.w4 47 0
  (eFaultV s f.part true .store va f.payload.length).isSome || (lostV s f.part va f.payload.length).isSome ||
    eGateV s f.part true va f.payload.length

/-- A DDATA frame at its destination: its element is written, or refused whole (R393). -/
def ddTake (p : Nat) (f : Frame) (s : State) : State :=
  let va := bits f.w4 47 0
  match eFaultV s f.part true .store va f.payload.length with
  | some (_, a) => ddoneSend f cvPAGE a (touchEcN (epHawser p 0) f.part va (a + 1 - va) s)
  | none =>
    let s := touchEcN (epHawser p 0) f.part va f.payload.length s
    match lostV s f.part va f.payload.length with
    | some vl => ddoneSend f cvDATA (max va (vl * 128)) (dropLostV f.part va f.payload.length s)
    | none =>
      let s := eWay (rxEp p f) f.part va f.payload.length s
      let s := eWriteV f.part f.tag f.fmt f.nf (ddEng f) va f.payload s
      if !f.fin then s
      else if s.cwReqs.any fun q => q.eng == ddEng f then { s with ddPend := s.ddPend ++ [(ddEng f, f)] }
      else ddoneSend f 0 0 s

/-- DDONE frames whose writes have completed leave. -/
def ddPump (s : State) : State :=
  each (fun (x : Nat × Frame) s =>
    if s.cwReqs.any fun q => q.eng == x.1 then s
    else ddoneSend x.2 0 0 { s with ddPend := s.ddPend.erase x }) s.ddPend s

/-! What a port does with a released frame (R376). -/

/-- Can a frame in the receive buffer leave it now: frames of collectives and hitches that have not started here wait, and so
does an element whose home is not ready (R388, log 40). -/
def frameReady (s : State) (p : Nat) (before : List Frame) (f : Frame) : Bool :=
  if f.dmod ≠ modId s then true
  else match f.typ with
    | 0 =>
      let g := bits f.w3 31 24
      (match (s.grp g).run with
       | some c => c.sw.isNone || bits f.w3 63 32 == cSeq c.d
       | none => grpState s g == cgFAILED)
    | 1 => ddReady s f && !(before.any fun x => x.typ == 1 && x.dmod == f.dmod)
    | _ =>
      let g := bits f.w3 23 16
      if frSub f = 0 then
        (match (s.grp g).run with
         | some c => c.sw.isNone || bits f.w3 55 24 == cSeq c.d
         | none => grpState s g == cgFAILED)
      else if frSub f = 1 then grpState s g == cgFAILED || xhTurn s g p
      else true

/-- Hand a collective frame to its group's running collective (R389), over the mesh from the router that received it (R357). -/
def collFrame (g p cseq : Nat) (f : Frame) (s : State) : State :=
  let s := countFrame (rxEp p f) (capEp p) f.payload.length s
  match (s.grp g).run with
  | none => s
  | some c =>
    if cseq ≠ cSeq c.d ∨ f.part ≠ c.part then groupFail g ccMISMATCH s
    else collPump g (s.setRun g { c with wait := c.wait ++ [(p, f)] })

/-- Take a frame that is ready. -/
def frameTake (p : Nat) (f : Frame) (s : State) : State :=
  if f.dmod ≠ modId s then forward f s
  else match f.typ with
    | 0 => collFrame (bits f.w3 31 24) p (bits f.w3 63 32) f s
    | 1 => ddTake p f s
    | _ =>
      match frSub f with
      | 0 => collFrame (bits f.w3 23 16) p (bits f.w3 55 24) f s
      | 1 => xhTake (bits f.w3 23 16) p f s
      | 2 => ddoneTake f s
      | 3 => groupFail (bits f.w3 23 16) ccREMOTE s
      | _ => s

/-- The first frame of a list that is ready, in order. -/
def firstReady (s : State) (p : Nat) : List Frame → List Frame → Option Frame
  | _, [] => none
  | before, f :: r => if frameReady s p before f then some f else firstReady s p (before ++ [f]) r

/-- Frames leave a port's receive buffer as they become ready; an element that waits for its home has that begun. -/
def rxPump (p : Nat) (s : State) : State :=
  let s := upto (fun _ s =>
    match firstReady s p [] (s.port p).rxbuf with
    | none => s
    | some f => frameTake p f (freeBuf p f s)) (s.port p).rxbuf.length s
  match (s.port p).rxbuf.find? fun f => f.typ == 1 && f.dmod == modId s with
  | some f => if ddReady s f then s else ePrepV f.part f.tag f.fmt true (bits f.w4 47 0) f.payload.length s
  | none => s

/-- Everything the ring's engines can do without a further event: ports, collectives, hitch sweeps, DDONEs. -/
def ringPump (s : State) : State :=
  let s := xhStart s
  let s := upto rxPump 8 s
  let s := each (fun (x : Nat × Grp) s => if x.2.run.isSome then collPump x.1 s else s) s.grps s
  ddPump (upto portSend 8 s)

/-- A frame of type `typ` and SUB `sub` arrives at port p (R376): it is checked, released or discarded.  Ports that are DOWN,
TRAINING or FAILED carry none. -/
def frameArrive (typ sub p : Nat) (f : Frame) (s : State) : State :=
  if 8 ≤ p ∨ !frameFor typ sub f ∨ hwState s p = hwDOWN ∨ hwState s p = hwTRAINING ∨ hwState s p = hwFAILED then s
  else ringPump (frameCheck p f s).2

/-- A LINK frame arrives: checks 1 to 3, then `k` (R372, R376, R377). -/
def linkArrive (sub p : Nat) (f : Frame) (k : State → State) (s : State) : State :=
  if 8 ≤ p ∨ !frameFor 3 sub f ∨ hwState s p = hwDOWN ∨ hwState s p = hwTRAINING ∨ hwState s p = hwFAILED then s
  else
    let (ok, s) := frameCheck p f s
    ringPump (if ok && f.typ == 3 then k s else s)

/-! Ports that leave UP (R377, R379, R389). -/

/-- A port leaves UP, or fails, for state `st`: groups of its dimension fail, channels with frames in it stop with LINK. -/
def portLeave (p st : Nat) (s : State) : State :=
  let was := hwState s p
  let x := s.port p
  let s := (s.setFld (rHW_STAT p) HW_STAT_STATE st).setFlag (rHW_STAT p) HW_STAT_NBR_OK false
  let s := if st = hwFAILED ∧ was ≠ hwFAILED then s.hgEvent (p / 4) HG_EVENT_LINK else s
  let s := if st = hwFAILED then s else (s.setFld (rHW_STAT p) HW_STAT_RX_LANES 0).setFld (rHW_STAT p) HW_STAT_TX_LANES 0
  let s := s.setPort p { x with out := if was = hwUP then [] else x.out, retry := if st = hwFAILED then [] else x.retry }
  if was ≠ hwUP then s
  else
    let s := upto (fun g s => if (grpDims s g).contains (p / 2) then groupFail g ccLINK s else s) 256 s
    let own := (x.retry.map fun y => y.1).filter fun f => st == hwFAILED || f.smod == modId s
    each frameStuck (own ++ x.out) s

/-- Start training of a port (R372, R394): pending keys are taken; the ports of a disabled dimension stay DOWN (R370). -/
def portTrain (p : Nat) (s : State) : State :=
  if !dimEn s (p / 2) then s
  else
    let s := portLeave p hwTRAINING s
    let x := s.port p
    (s.setFld (rHW_KEYS p) HW_KEYS_LOADED (s.fld (rHW_KEYS p) HW_KEYS_LOADED ||| x.keyPend)).setPort p { x with keyPend := 0 }

/-- A port loses its signal on every lane: it leaves UP and trains again by itself (R377). -/
def portLoss (p : Nat) (s : State) : State := if hwState s p = hwDOWN then s else portTrain p s

/-- LANE_SIGNAL_LOSS. -/
def laneSignalLoss (p : Nat) (s : State) : State := ringPump (portLoss p s)

/-- A port goes DOWN. -/
def portDown (p : Nat) (s : State) : State := portLeave p hwDOWN s

/-- Write HW_CTL (R368, R394): DOWN, else TRAIN; the active transmit lanes follow LANE_EN. -/
def hwCtlSet (p : Nat) (v : Word) (s : State) : State :=
  let s := typedWrite s (rHW_CTL p) v
  let s := if fbit v HW_CTL_DOWN then portDown p s else if fbit v HW_CTL_TRAIN then portTrain p s else s
  if hwState s p = hwTRAINED ∨ hwState s p = hwUP then
    s.setFld (rHW_STAT p) HW_STAT_TX_LANES (fget v HW_CTL_LANE_EN)
  else s

/-- A write of HW_CTL. -/
def opHwCtl (o : Origin) (p : Nat) (v : Word) (s : State) : State :=
  ringPump (regWrite o (rHW_CTL p) (fun _ => true) (hwCtlSet p v) s)

/-- HW_TRAIN: HW_CTL is written with its own fields and TRAIN set. -/
def opHwTrain (o : Origin) (p : Nat) (s : State) : State := opHwCtl o p (fsetB (s.reg (rHW_CTL p)) HW_CTL_TRAIN true) s
/-- HW_DOWN. -/
def opHwDown (o : Origin) (p : Nat) (s : State) : State := opHwCtl o p (fsetB (s.reg (rHW_CTL p)) HW_CTL_DOWN true) s
/-- LANE_EN_WRITE. -/
def opLaneEn (o : Origin) (p lanes : Nat) (s : State) : State := opHwCtl o p (fset (s.reg (rHW_CTL p)) HW_CTL_LANE_EN lanes) s

/-- PORT_TRAINED (R372, R375): the lanes are trained; the port sends HELLO with its first SEQ.  On a port that is TRAINED or UP
it names the lanes active now. -/
def portTrained (p rx : Nat) (s : State) : State :=
  let st := hwState s p
  if 8 ≤ p ∨ st = hwDOWN ∨ st = hwFAILED then s
  else
    let en := s.fld (rHW_CTL p) HW_CTL_LANE_EN
    let s := (s.setFld (rHW_STAT p) HW_STAT_RX_LANES rx).setFld (rHW_STAT p) HW_STAT_TX_LANES en
    if st ≠ hwTRAINING then s
    else
      let u := firstUna s p
      let s := s.setFld (rHW_STAT p) HW_STAT_STATE hwTRAINED
      let s := s.modPort p fun x => { x with snd := u, base := u, cred := 0, freed := 0 }
      linkSend p 2 ((p <<< 13) ||| modId s) u s

/-- HELLO (R372, R375): the partner must be the expected neighbour's opposite port of the dimension. -/
def helloTake (p : Nat) (f : Frame) (s : State) : State :=
  if hwState s p ≠ hwTRAINED then s
  else
    let m := bits f.w3 12 0
    let q := bits f.w3 15 13
    let s := (s.setFld (rHW_STAT p) HW_STAT_NBR_MOD m).setFld (rHW_STAT p) HW_STAT_NBR_PORT q
    if m = nbrId s p ∧ q = thru p then
      let s := (s.setFlag (rHW_STAT p) HW_STAT_NBR_OK true).setFld (rHW_STAT p) HW_STAT_STATE hwUP
      s.modPort p fun x => { x with rx := f.w4 }
    else (s.setFlag (rHW_STAT p) HW_STAT_NBR_OK false).countSat (rHW_DROP p) HW_DROP_NBR 1

/-- HELLO at a port. -/
def hello (p : Nat) (f : Frame) (s : State) : State := linkArrive 2 p f (helloTake p f) s

/-- LINK_ACK at a port (R376). -/
def linkAck (p : Nat) (f : Frame) (s : State) : State := linkArrive 0 p f (takeAck p f) s

/-- Go-back-N (R377): every frame sent and not acknowledged is sent again, or the port fails when the first has been sent
RETRY_MAX + 1 times. -/
def resendAll (p : Nat) (s : State) : State :=
  let x := s.port p
  match x.retry with
  | [] => s
  | (_, k) :: _ =>
    if hwState s p ≠ hwUP then s
    else if s.fld (rHW_CTL p) HW_CTL_RETRY_MAX + 1 ≤ k then portLeave p hwFAILED s
    else
      let n := (x.retry.filter fun y => decide (y.1.seq < x.snd)).length
      (s.setPort p { x with retry := x.retry.map fun y => if y.1.seq < x.snd then (y.1, y.2 + 1) else y }).count (rHW_RETX p) n

/-- LINK_NACK at a port: the frames below the expected SEQ are acknowledged, the others resent (R375-R377). -/
def linkNack (p : Nat) (f : Frame) (s : State) : State := linkArrive 1 p f (fun s => resendAll p (takeAck p f s)) s

/-- RETRANSMIT_TIMEOUT (R377). -/
def retransmitTimeout (p : Nat) (s : State) : State := ringPump (resendAll p s)

/-- CDATA. -/
def cdata (p : Nat) (f : Frame) (s : State) : State := frameArrive 0 0 p f s
/-- DDATA. -/
def ddata (p : Nat) (f : Frame) (s : State) : State := frameArrive 1 0 p f s
/-- SWEEP. -/
def sweep (p : Nat) (f : Frame) (s : State) : State := frameArrive 2 0 p f s
/-- XHITCH. -/
def xhitch (p : Nat) (f : Frame) (s : State) : State := frameArrive 2 1 p f s
/-- DDONE. -/
def ddone (p : Nat) (f : Frame) (s : State) : State := frameArrive 2 2 p f s
/-- GFAIL. -/
def gfail (p : Nat) (f : Frame) (s : State) : State := frameArrive 2 3 p f s

/-- HITCH at its hub, and the Capstan's sweep when the hitch spans modules (R329, R390). -/
def hitchRow (p : Packet) (s : State) : State := ringPump (hitchArrive p s)

/-- COLLECTIVE_START, and the frames that waited for it. -/
def collectiveStartRow (g : Nat) (s : State) : State := ringPump (collectiveStart g s)

/-! The Spillway (R378, R379). -/

/-! POS of a switch. -/
abbrev spCLOSED : Nat := 0
abbrev spOPEN : Nat := 1
abbrev spMOVING : Nat := 2

/-- POS of dimension d's switch. -/
def spwPos (s : State) (d : Nat) : Nat := s.fld (rSPW d) SPW_POS

/-- A switch begins to move toward `to`: its fibres lose signal (R377, R379). -/
def spwMove (d pos : Nat) (s : State) : State :=
  let s := (s.setFld (rSPW d) SPW_POS spMOVING).countSat (rSPW d) SPW_COUNT 1
  portLoss (2 * d + 1) (portLoss (2 * d) { s with spwTo := tset d pos s.spwTo })

/-- A switch moves to CLOSED for a cause of R379; one that is CLOSED or on its way there stays. -/
def spwClose (d cause : Nat) (s : State) : State :=
  if spwPos s d = spCLOSED ∨ (spwPos s d = spMOVING ∧ tget 0 s.spwTo d = spCLOSED) then s
  else
    let s := s.setFld (rSPW d) SPW_CAUSE cause
    if spwPos s d = spMOVING then { s with spwTo := tset d spCLOSED s.spwTo } else spwMove d spCLOSED s

/-- Every switch closes. -/
def spwCloseAll (cause : Nat) (s : State) : State := upto (fun d s => spwClose d cause s) 4 s

/-- Conditions of an open command (R379). -/
def spwMayOpen (s : State) (d : Nat) : Bool :=
  let ok := fun p => hwState s p == hwTRAINED || hwState s p == hwUP
  !s.flag (rSPW d) SPW_FORCE && ok (2 * d) && ok (2 * d + 1) && dimEn s d

/-- Write SPW_d (R379): CMD 1 closes, 2 opens. -/
def opSpw (o : Origin) (d : Nat) (v : Word) (s : State) : State :=
  let cmd := fget v SPW_CMD
  ringPump (regWrite o (rSPW d) (fun s => cmd != 2 || spwMayOpen s d) (fun s =>
    if cmd = 1 then spwClose d 7 s
    else if cmd = 2 then (if spwPos s d = spCLOSED then spwMove d spOPEN s else s)
    else s) s)

/-- SPILLWAY_CLOSE. -/
def spillwayClose (o : Origin) (d : Nat) (s : State) : State := opSpw o d 1 s
/-- SPILLWAY_OPEN. -/
def spillwayOpen (o : Origin) (d : Nat) (s : State) : State := opSpw o d 2 s

/-- SPILLWAY_MOVE_DONE (R379). -/
def spillwayMoveDone (d : Nat) (s : State) : State :=
  if spwPos s d = spMOVING then s.setFld (rSPW d) SPW_POS (tget 0 s.spwTo d) else s

/-- BYPASS_FORCE_N_LOW (R379): the pin goes low and every switch closes; with `high` the pin has gone high again (log 41). -/
def bypassForce (high : Bool) (s : State) : State :=
  let s := upto (fun d s => s.setFlag (rSPW d) SPW_FORCE (!high)) 4 s
  if high then s else ringPump (spwCloseAll 4 s)

/-- Is a write of CAP_DIMd accepted (R370, R394). -/
def capDimOk (d : Nat) (v : Word) (s : State) : Bool :=
  let n := fget v CAP_DIM_SIZE + 1
  let others := ((List.range 4).filter fun e => e != d).foldl (fun a e => a * dimN s e) 1
  !((List.range 256).any fun g => s.flag (rCAP_GRP g) CAP_GRP_EN && (grpDims s g).contains d) &&
    (!fbit v CAP_DIM_EN ||
      (decide (d < s.fld rCAP_CTL CAP_CTL_DLIC) && decide (2 ≤ n) && decide (fget v CAP_DIM_POS < n) && decide (n * others ≤ 8192)))

/-- CAP_DIM_WRITE (R370, R371, R379). -/
def opCapDim (o : Origin) (d : Nat) (v : Word) (s : State) : State :=
  ringPump (regWrite o (rCAP_DIM d) (capDimOk d v) (fun s =>
    let was := dimEn s d
    let s := typedWrite s (rCAP_DIM d) v
    let s := if was && !fbit v CAP_DIM_EN then portDown (2 * d + 1) (portDown (2 * d) (spwClose d 8 s)) else s
    s.setFld rCAP_MODID CAP_MODID_ID (modId s)) s)

/-- A partition reset: its chip-level channels become IDLE (R393). -/
def hcReset (p : Nat) (s : State) : State :=
  upto (fun q s => upto (fun n s =>
    if s.fld (rHC_CFG q n) HC_CFG_PART = p then
      let ch := Chan.hc q n
      let s := (s.setFld ch.rStat CV_STAT_STATE cvIDLE).setChan ch { Chn.reset with serial := (s.chan ch).serial + 1 }
      s.setFld ch.rStat CV_STAT_ELEM 0
    else s) 16 s) 8 s

end Sys2Proof.Machine
end

