-- ==== Sys2Proof/Machine/Reset.lean ====
section
/-! DEFINITION. Core registers as outside origins write them (R64-R66, R82-R84, R96, R139), core and partition resets (R83,
R269, R324, R335, R358-R365), and requests that reach the limit of R455. -/

namespace Sys2Proof.Machine

/-- A memory-mapped write of a CORE register by an origin (R11, R82, R84); banked ones go to the bank VIEW names. -/
def opCoreReg (o : Origin) (c off : Nat) (v : Word) (s : State) : State :=
  let a := rCORE_ID c + off
  if mayReg s o true a then s.answer (coreRegWrite c (s.fld (rCORE_MODE c) CORE_MODE_VIEW) off v s)
  else { gateNack o a s with rsp := .err }

/-- Is the block that the running context awaits late (R67, R285). -/
def streamLate (c : Nat) (s : State) : Bool :=
  match (s.cur c).wait with
  | .swait n _ _ => blockLate s c n ((s.core c).fl n).take
  | _ => false

/-- MAINT_SWITCH. -/
def opMaintSwitch (c : Nat) (s : State) : State := maintSwitch (streamLate c) c s

/-! Core reset (R83, R269, R324, R335). -/

/-- What a reset does to a core: held, every context EMPTY, engine state cleared, registers at their reset values but for
CORE_ID, CYCLE and the fields that firmware sets, which are reloaded (MTVEC.BASE with 0, log 3), its streams, channels, knots and
waiters gone, and what it had not sent dropped. -/
def coreClear (c : Nat) (s : State) : State :=
  let lo := rCORE_ID c
  let rt := s.flag (rFL_CTL c) FL_CTL_RT_LIC
  let s := knotReset c (culvertReset c s)
  let s := { s with regs := s.regs.filter fun x => !(decide (lo < x.1) && decide (x.1 < lo + 0x10000)) }
  let s := (s.setReg (rBOOT_VEC c) (s.core c).fwBoot).setFlag (rFL_CTL c) FL_CTL_RT_LIC rt
  s.modCore c fun k =>
    { k with
      ctxs := [], run := 0, sw := none, modePend := none, owner := 0, move := none, eng := Eng.clear, gpend := [], seed := none
      slots := [], stores := [], deadTx := [], arr := [], tbar := none, trel := [], mbar := none, merges := [], rolls := []
      flumes := [], outq := [], errPend := none, pf := [], pfOut := [], tbarq := [], mbarq := [] }

/-- The last step of a reset: the core's reset generation changes (R455). -/
def coreResetEnd (c : Nat) (s : State) : State := s.modCore c fun k => { k with rgen := !k.rgen, rst := false, rstTx := [] }

/-- A reset of one core (R83): late responses carry the old generation and are dropped (R455). -/
def coreReset (c : Nat) (s : State) : State := coreResetEnd c (coreClear c s)

/-! Partitions (R358-R362). -/

/-- Do two ranges of columns overlap. -/
def rangesMeet (a b : Word) : Bool :=
  decide (fget a PT_RANGE_FIRST ≤ fget b PT_RANGE_LAST) && decide (fget b PT_RANGE_FIRST ≤ fget a PT_RANGE_LAST)

/-- Enabled cores in the columns of a range. -/
def rangeCores (s : State) (v : Word) : List Nat :=
  allCores.filter fun c =>
    (s.core c).enabled && decide (fget v PT_RANGE_FIRST ≤ coreX c) && decide (coreX c ≤ fget v PT_RANGE_LAST)

/-- Is a write of PT_RANGEp accepted (R359, R490). -/
def ptRangeOk (p : Nat) (v : Word) (s : State) : Bool :=
  let en := fbit v PT_RANGE_EN
  let old := s.reg (rPT_RANGE p)
  let cores := rangeCores s v ++ (if fbit old PT_RANGE_EN then rangeCores s old else [])
  !(en && (List.range 8).any fun q => q != p && s.flag (rPT_RANGE q) PT_RANGE_EN && rangesMeet v (s.reg (rPT_RANGE q))) &&
    decide (fget v PT_RANGE_FIRST ≤ fget v PT_RANGE_LAST) && !(cores.any fun c => s.flag (rCORE_CTL c) CORE_CTL_RUN) &&
    s.fld (rPT_STAT p) PT_STAT_STATE != 2 && !(en && s.fld rCHIP_INFO CHIP_INFO_STATE == 2)

/-- The effect of an accepted write: PART of the cores in the new columns, whose core memory then follows the partition's
CMEM_CFG (log 42), and STATE: OFF while not enabled, HELD when it becomes enabled (log 42). -/
def ptRangeSet (p : Nat) (v : Word) (s : State) : State :=
  let was := s.flag (rPT_RANGE p) PT_RANGE_EN
  let en := fbit v PT_RANGE_EN
  let s := typedWrite s (rPT_RANGE p) v
  let s := if en then each (fun c s =>
      if s.part c = p then s
      else (s.setFld (rCORE_ID c) CORE_ID_PART p).modCore c fun k =>
        { k with l1 := [], spad := [], spadEpoch := k.spadEpoch + 1, flips := [] }) (rangeCores s v) s
    else s
  if !en then s.setFld (rPT_STAT p) PT_STAT_STATE 0
  else if was then s else s.setFld (rPT_STAT p) PT_STAT_STATE 3

/-- PT_RANGE_WRITE. -/
def opPtRange (o : Origin) (p : Nat) (v : Word) (s : State) : State := regWrite o (rPT_RANGE p) (ptRangeOk p v) (ptRangeSet p v) s

/-- A partition reset's steps 1 to 3 (R361): RESETTING, the gates close, cores, knots, hitches, Sluice jobs, Capstan groups
and chip-level channels are reset; each core keeps the numbers of its outstanding requests (R362). -/
def ptResetStart (p : Nat) (s : State) : State :=
  let st := s.fld (rPT_STAT p) PT_STAT_STATE
  if st = 0 ∨ st = 2 then s
  else
    let s := s.setFld (rPT_STAT p) PT_STAT_STATE 2
    let s := each (fun c s =>
      let k := s.core c
      let unsent := k.outq.map fun q => q.txid
      let tx := k.txUsed.filter fun x => !lhas x unsent && !lhas x k.deadTx
      (coreClear c s).modCore c fun k => { k with rst := true, rstTx := tx }) (s.partCores p) s
    ringPump (hcReset p (capstanReset p (sluReset p (hitchReset p s))))

/-- A write of PT_CTLp.RESET. -/
def opPtReset (o : Origin) (p : Nat) (s : State) : State := regWrite o (rPT_CTL p) (fun _ => true) (ptResetStart p) s

/-- PT_RESET_DRAIN_DONE (R361 steps 4 and 5, R362): every request has been answered or is at its limit. -/
def ptDrainDone (p : Nat) (s : State) : State :=
  if s.fld (rPT_STAT p) PT_STAT_STATE = 2 ∧ (s.partCores p).all (fun c => (s.core c).rstTx.isEmpty) = true then
    (each coreResetEnd (s.partCores p) s).setFld (rPT_STAT p) PT_STAT_STATE 3
  else s

/-- RT_BUSY_WINDOW (R365): a window ends; `busy` gives the counts of the routers' outputs in the layout of RT_BUSY, 0 for a
router not listed. -/
def rtBusyWindow (busy : List (Nat × Word)) (s : State) : State :=
  upto (fun r s => s.setReg (rRT_BUSY r) (tget 0 busy r)) 704 s

/-- The limit of R455 for a request of a core: a reset core's record of it ends; a knot or hitch request fails its
instruction with DATA_ERR (log 43); else a memory request. -/
def requestLimit (c x : Nat) (s : State) : State :=
  let k := s.core c
  if k.rst then
    (if lhas x k.rstTx then logErr .ue c 11 0 0 0 0 true (s.setCore c { k with rstTx := ldrop x k.rstTx }) else s)
  else match knotWaiter k x with
    | some i =>
      let name := match (k.ctx i).wait with
        | .kwait n _ _ _ _ _ => n
        | .kop _ _ n _ _ => n
        | .harr h _ _ => h
        | .hwait h _ _ _ _ => h
        | _ => 0
      let s := s.modCore c fun k => { k with deadTx := ladd x k.deadTx }
      logErr .ue c 11 0 0 0 0 true (enterExc c i false Exc.dataErr.code (n64 name) s)
    | none => memLimit c x s

end Sys2Proof.Machine
end

