-- ==== Sys2Proof/Machine/Tether.lean ====
section
/-! DEFINITION. The receive side of the Tether (R395-R422): training, flits, companion requests and snoops, answers, timeouts,
link loss, MSIs, windows and doorbells.  A flit's CRC verdict is an operand (log 37). -/

namespace Sys2Proof.Machine

/-! STATE codes of a sub-link. -/
abbrev slDOWN : Nat := 0
abbrev slTRAINING : Nat := 1
abbrev slUP : Nat := 2
abbrev slRETRAIN : Nat := 3
abbrev slFAILED : Nat := 4

/-- Set the state of a sub-link. -/
def setSubState (k st : Nat) (s : State) : State := s.setFld rTT_STAT (subFld k) st

/-- Count a malformed or unmatched message (R396, R402, R416). -/
def ttProto (s : State) : State := s.count rTT_PROTO 1

/-- Change a sub-link. -/
def State.modSub (s : State) (k : Nat) (f : TtSub → TtSub) : State := s.setSub k (f (s.sub k))

/-! Requests of the device (R403, R411, R419, R420). -/

/-- The channel whose engine identity is `e`. -/
def chanOf (e : Nat) : Chan :=
  let k := e - 0x10000
  if k < 8192 then .cv (k / 8) (k % 8) else .hc ((k - 8192) / 16) ((k - 8192) % 16)

/-- An engine's write to the companion window failed: the engine's own data error (R419, R301, R389, R393). -/
def engFailed (e line : Nat) (s : State) : State :=
  if 0x40000 ≤ e then
    match s.ddPend.find? fun x => x.1 == e with
    | some x => ddoneSend x.2 cvDATA (vaOf s x.2.part (line * 128)) { s with ddPend := s.ddPend.erase x }
    | none => s
  else if 0x30000 ≤ e then groupFail (e - 0x30000) ccDATA s
  else if 0x10000 ≤ e then
    let ch := chanOf e
    if chState s ch = cvRUN then chError ch cvDATA (vaOf s (ch.part s) (line * 128)) s else s
  else s

/-- A device request ends as answered by ERR DATA_ERR: a read's line is failed for its reader, a write fails its writer. -/
def cwFail (q : CwReq) (s : State) : State :=
  if q.op ≤ 3 then { s with cwBuf := tset q.line none s.cwBuf }
  else if q.op = 5 ∨ q.op = 6 then
    match q.pkt with
    | some p => s.send { reply p opWR_ACK with bad := 1 }
    | none => engFailed q.eng q.line s
  else s

/-- A late request's number is free again, or an answered request leaves the list. -/
def dropCw (q : CwReq) (s : State) : State := { s with cwReqs := s.cwReqs.erase q }

/-- Everything that waited at homes and in engines tries again. -/
def wake (s : State) : State := ringPump (releaseHeld s)

/-- TT_REQ_TIMEOUT (R419, R420). -/
def ttReqTimeout (k x : Nat) (s : State) : State :=
  match s.cwReqs.find? fun q => q.sub == k && q.txid == x && !q.dead with
  | none => s
  | some q =>
    let s := { s with cwReqs := s.cwReqs.map fun r => if r = q then { r with dead := true, pkt := none, eng := 0 } else r }
    wake (cwFail q (s.countSat rTT_TMO TT_TMO_REQ 1))

/-! Link loss (R421). -/

/-- Record a line whose data the link took with it. -/
def lostLine (line : Nat) (s : State) : State := (s.count rTT_LOSTCNT 1).setFld rTT_LOSTADDR TT_LOSTADDR_ADDR line

/-- A slice's filter and companion lines go; what only the companion or only the slice held is recorded. -/
def lossSlice (n : Nat) (s : State) : State :=
  let x := s.slice n
  let s := each (fun (f : Nat × Bool × Nat) s => if f.2.1 then lostLine f.1 s else s) x.filter s
  let s := each (fun (f : Nat × Nat × Line) s => if f.2.1 = 3 then lostLine f.1 s else s) x.comp s
  s.setSlice n { x with filter := [], comp := [], lines := x.lines.filter fun l => !isCw (l.line * 128) }

/-- LINK LOSS, in the order of R421. -/
def linkLoss (s : State) : State :=
  let s := (s.setFlag rTT_STAT TT_STAT_LOST true).setFld rTT_STAT TT_STAT_WIDTH 0
  let s := upto (fun k s => s.modSub k fun t => { t with replay := [], out := [], steered := false }) 2 s
  let s := { s with ttIn := [] }
  let s := each (fun q s => if q.dead then s else cwFail q (s.countSat rTT_TMO TT_TMO_REQ 1)) s.cwReqs s
  let s := upto lossSlice 256 { s with cwReqs := [], snoops := [] }
  wake (s.hgEvents HG_EVENT_LINK)

/-- TT_SNOOP_TIMEOUT (R419). -/
def ttSnoopTimeout (k x : Nat) (s : State) : State :=
  if s.snoops.any fun q => q.sub == k && q.txid == x && !q.wbp then linkLoss s else s

/-! Training (R397, R399, R421, R422). -/

/-- A sub-link fails; one that carries line traffic loses the link (R419). -/
def subFail (k : Nat) (s : State) : State :=
  let line := subLine s k
  let s := setSubState k slFAILED s
  if line then linkLoss s else s

/-- Start training of both sub-links; LOST is cleared (R421).  A link that carried line traffic is lost first.  The half of a
Headgate that stays in ROM never starts (R397; DEDUCED, log 44). -/
def ttTrain (s : State) : State :=
  let s := if s.fld rTT_STAT TT_STAT_WIDTH ≠ 0 then linkLoss s else s
  let s := s.setFlag rTT_STAT TT_STAT_LOST false
  upto (fun k s => setSubState k (if (s.hgx k).rom then slDOWN else slTRAINING) (s.setSub k TtSub.reset)) 2 s

/-- Both sub-links go DOWN; outstanding requests complete as under TMO (R422). -/
def ttDown (s : State) : State :=
  let s := upto (setSubState · slDOWN) 2 s
  let live := s.cwReqs.filter fun q => !q.dead
  let s := { s with cwReqs := s.cwReqs.map fun r => { r with dead := true, pkt := none, eng := 0 } }
  wake (each (fun q s => cwFail q (s.countSat rTT_TMO TT_TMO_REQ 1)) live s)

/-- SUBLINK_LOCKED (R397 step 2). -/
def sublinkLocked (k : Nat) (s : State) : State :=
  if subState s k = slTRAINING ∨ subState s k = slRETRAIN then s.modSub k fun t => { t with locked := true } else s

/-- SUBLINK_TRAIN_TIMEOUT (R397, R399). -/
def sublinkTrainTimeout (k : Nat) (s : State) : State :=
  if subState s k = slTRAINING ∨ subState s k = slRETRAIN then subFail k s else s

/-! Flits (R398, R399, R404). -/

/-- A flit that fails a check is discarded, counted, and answered with a NAK (R399, R419). -/
def flitBad (k : Nat) (s : State) : State := s.countSat rTT_CRC (if k = 0 then TT_CRC_SL0 else TT_CRC_SL1) 1

/-- Take the ACKSEQ and the freed slots of a good flit. -/
def takeFlit (k : Nat) (f : Flit) (s : State) : State :=
  let t := s.sub k
  let d := match t.replay with
    | (q, _) :: _ => (f.ack + 4096 - q % 4096) % 4096
    | [] => 0
  let n := if d < 2048 then d else 0
  let cr := upto (fun i (c : Tab Nat) => tset (i + 1) (tget 0 c (i + 1) + f.cr.getD i 0) c) 5 t.credits
  pump k (s.setSub k { t with replay := t.replay.drop n, tries := if n = 0 then t.tries else 0, credits := cr })

/-- IDLE_FLIT (R397, R398): it ends training, and carries ACKSEQ and credits. -/
def idleFlit (k : Nat) (f : Flit) (s : State) : State :=
  let st := subState s k
  if 2 ≤ k ∨ st = slDOWN ∨ st = slFAILED ∨ s.flag rTT_STAT TT_STAT_LOST = true then s
  else if !f.crc then flitBad k s
  else if st = slUP then takeFlit k f s
  else if (s.sub k).locked then takeFlit k f (setSubState k slUP (s.modSub k fun t => { t with tries := 0 }))
  else s

/-- MSG_FLIT (R399-R402): checked, and its message released to the attachment; until a STEER only MGMT is carried (R396). -/
def msgFlit (k : Nat) (f : Flit) (s : State) : State :=
  if 2 ≤ k ∨ subState s k ≠ slUP ∨ s.flag rTT_STAT TT_STAT_LOST = true then s
  else if !f.crc ∨ f.fseq ≠ (s.sub k).frx then flitBad k s
  else
    let s := takeFlit k f (s.modSub k fun t => { t with frx := (t.frx + 1) % 4096 })
    let bad := msgSlots f.msg != some (f.nslot + 1) || (f.msg.cls != 5 && !(s.sub k).steered)
    if bad then ttProto (s.modSub k fun t => { t with freed := tset f.msg.cls (tget 0 t.freed f.msg.cls + f.nslot + 1) t.freed })
    else { s with ttIn := s.ttIn ++ [(k, f.msg)] }

/-- NAK (R399): every flit from the named FSEQ is sent again, or the sub-link retrains. -/
def nakFlit (k : Nat) (f : Flit) (s : State) : State :=
  if 2 ≤ k ∨ subState s k ≠ slUP ∨ s.flag rTT_STAT TT_STAT_LOST = true then s
  else if !f.crc then flitBad k s
  else
    let s := takeFlit k f s
    let t := s.sub k
    if t.replay.isEmpty then s
    else if s.fld rTT_CTL TT_CTL_RETRY_MAX ≤ t.tries then
      let s := s.countSat rTT_RETRAIN (if k = 0 then TT_RETRAIN_SL0 else TT_RETRAIN_SL1) 1
      setSubState k slRETRAIN (s.setSub k { t with locked := false })
    else s.setSub k { t with tries := t.tries + 1 }

/-- STEER (R396).  Only IDLE and NAK flits are not counted in FSEQ (R398), so that a STEER is checked as a MSG flit is (DEDUCED, log 44). -/
def steerFlit (k : Nat) (f : Flit) (s : State) : State :=
  if 2 ≤ k ∨ subState s k ≠ slUP ∨ s.flag rTT_STAT TT_STAT_LOST = true then s
  else if !f.crc ∨ f.fseq ≠ (s.sub k).frx then flitBad k s
  else
    let s := takeFlit k f (s.modSub k fun t => { t with frx := (t.frx + 1) % 4096 })
    let w := f.width % 4
    if (bit w 0 && subState s 0 != slUP) || (bit w 1 && subState s 1 != slUP) then ttProto s
    else wake ((s.modSub k fun t => { t with steered := true }).setFld rTT_STAT TT_STAT_WIDTH w)

/-! Messages the companion sends (R401-R413). -/

/-- A message leaves the attachment: its slots are free. -/
def takeMsg (k : Nat) (m : TMsg) (s : State) : State :=
  { s with ttIn := s.ttIn.erase (k, m) }.modSub k fun t =>
    { t with freed := tset m.cls (tget 0 t.freed m.cls + (msgSlots m).getD 1) t.freed }

/-- Run `f` on a message of class and operation that is the oldest of its class at sub-link k (R415). -/
def onMsg (cls op k : Nat) (m : TMsg) (f : State → State) (s : State) : State :=
  if m.cls = cls ∧ m.op = op ∧ (s.ttIn.find? fun x => x.1 == k && x.2.cls == cls) = some (k, m) then f s else s

/-- Reply to a request on its sub-link (R403). -/
def ttReply (k : Nat) (m : TMsg) (cls op status state : Nat) (d : Line) (s : State) : State :=
  ttSend k { m with cls := cls, op := op, status := status, state := state, data := d, mask := 0 } s

/-- Refuse a request with ERR ACCESS (R406, R413). -/
def ttRefuse (k : Nat) (m : TMsg) (s : State) : State :=
  let s := (s.countSat rTT_ACCERR TT_ACCERR_COUNT 1).setFld rTT_ACCERR TT_ACCERR_ADDR m.addr
  ttReply k m 3 4 2 0 0 (takeMsg k m s)

/-- Do the Ledger and TT_PARTACC admit a request (R406, R413). -/
def ttAdmit (s : State) (m : TMsg) (write cache : Bool) : Bool :=
  let pa := m.addr * 128
  let e := s.le (frameOf pa)
  (isHbm pa || isLp pa) && e.v && !e.rsv && !e.x && !e.sec && e.owner == m.part &&
    bit (s.fld rTT_PARTACC TT_PARTACC_ACC) m.part && (!cache || (bit (s.fld rTT_PARTACC TT_PARTACC_CACHE) m.part && !isLp pa)) &&
    (!write || e.w)

/-- The access check of a companion request (R413): the frame's entry is looked up through the Tether's translation cache (R254;
its key is the entry's own page, DEDUCED, log 44), a request not admitted is refused, and one admitted goes on. -/
def ttChecked (k : Nat) (m : TMsg) (write cache : Bool) (f : State → State) (s : State) : State :=
  let e := s.le (frameOf (m.addr * 128))
  let s := if e.v && e.owner == m.part then touchEc (epTether 0 0) m.part (e.vpn * 2 ^ 21) s else s
  if ttAdmit s m write cache then f s else ttRefuse k m s

/-- Filter state of a device line. -/
def filterOf (s : State) (line : Nat) : Option Bool :=
  (tget? line (s.slice (homeSlice s (line * 128))).filter).map fun x => x.1

/-- Set of the snoop filter (R407). -/
def filterSet (line : Nat) : Nat := nxor (bits (line * 128) 21 16) (bits (line * 128) 27 22)

/-- Set a filter entry, the most recently used. -/
def setFilter (line : Nat) (st : Option Bool) (s : State) : State :=
  let n := homeSlice s (line * 128)
  let x := s.slice n
  match st with
  | none => s.setSlice n { x with filter := tdel line x.filter }
  | some em => s.setSlice n { x with filter := tset line (em, x.clk) x.filter, clk := x.clk + 1 }

/-- The least recently used of filter entries. -/
def oldestEntry : List (Nat × Bool × Nat) → Option (Nat × Bool × Nat)
  | [] => none
  | x :: r => match oldestEntry r with
    | some y => if x.2.2 ≤ y.2.2 then some x else some y
    | none => some x

/-- Has the line's filter set room for a new entry; else a back-invalidation begins (R408, R410). -/
def filterRoom (s : State) (line : Nat) : Bool :=
  let x := s.slice (homeSlice s (line * 128))
  (tget? line x.filter).isSome || decide ((x.filter.filter fun f => filterSet f.1 == filterSet line).length < 16)

/-- Begin a back-invalidation for a line's set. -/
def backInv (line part : Nat) (s : State) : State :=
  let n := homeSlice s (line * 128)
  let l := (s.slice n).filter.filter fun f => filterSet f.1 == filterSet line
  if l.any fun f => snoopOut s f.1 then s
  else match oldestEntry l with
    | some f => snoop f.1 n part true true s
    | none => s

/-- May the home serve a companion request for a line now: no snoop, no test, nothing of the line waiting before it; a write
waits for a snapshot copy or a migration of its frame (R20, R409, R413). -/
def homeFree (s : State) (line : Nat) (write : Bool) : Bool :=
  !snoopOut s line && !inTest s line && !(s.held.any fun p => p.addr / 128 == line) &&
    !(write && ((s.le (frameOf (line * 128))).mig || mustCopy s (frameOf (line * 128))))

/-- What a waiting companion write has begun for it. -/
def homePrep (line : Nat) (write : Bool) (s : State) : State :=
  let f := frameOf (line * 128)
  if write && !(s.le f).mig && mustCopy s f then wantCopy f s else s

/-- Read a line for the companion: data in the state granted, or ERR DATA_ERR with no data (R419). -/
def ttRead (k : Nat) (m : TMsg) (state : Nat) (after : State → State) (s : State) : State :=
  let s := takeMsg k m s
  let (d, bad, s) := homeRead m.addr m.part m.tag false false true s
  if bad ≠ 0 then ttReply k m 3 4 1 0 0 s else ttReply k m 4 0 0 state d (after s)

/-- A caching read (R408). -/
def ttCache (k : Nat) (m : TMsg) (own : Bool) (s : State) : State :=
  ttChecked k m own true (fun s =>
    if filterOf s m.addr = some true then ttProto (takeMsg k m s)
    else if !homeFree s m.addr false then s
    else if !filterRoom s m.addr then backInv m.addr m.part s
    else ttRead k m (if own then 2 else 1) (setFilter m.addr (some own)) s) s

/-- RD_SHARED (R408). -/
def rdShared (k : Nat) (m : TMsg) (s : State) : State := onMsg 1 0 k m (ttCache k m false) s
/-- RD_OWN (R408). -/
def rdOwn (k : Nat) (m : TMsg) (s : State) : State := onMsg 1 1 k m (ttCache k m true) s

/-- RD_CUR: the slice's copy, no snoop (R408). -/
def rdCur (k : Nat) (m : TMsg) (s : State) : State :=
  onMsg 1 2 k m (ttChecked k m false false fun s =>
    if inTest s m.addr || s.held.any (fun p => p.addr / 128 == m.addr) then s
    else ttRead k m 0 id s) s

/-- UPGRADE (R408): from I it is a RD_OWN. -/
def upgrade (k : Nat) (m : TMsg) (s : State) : State :=
  onMsg 1 3 k m (fun s =>
    if filterOf s m.addr ≠ some false then ttCache k m true s
    else ttChecked k m false true (fun s =>
      if !homeFree s m.addr false then s
      else ttReply k m 3 1 0 2 0 (setFilter m.addr (some true) (takeMsg k m s))) s) s

/-- EVICT (R408, R412): with no entry it is acknowledged and changes nothing. -/
def evictReq (k : Nat) (m : TMsg) (s : State) : State :=
  onMsg 1 4 k m (ttChecked k m false false fun s =>
    let s := takeMsg k m s
    let s := if snoopOut s m.addr then s else setFilter m.addr none s
    ttReply k m 3 3 0 0 0 s) s

/-- Bytes of a companion write. -/
def ttCells (m : TMsg) : Cells :=
  if m.op = 6 then cellsMask m.data m.mask 128 else cellsMask m.data (BitVec.allOnes 128) 128

/-- A whole or partial write of a line by the companion (R408, R413, R415). -/
def ttWrite (k : Nat) (m : TMsg) (s : State) : State :=
  ttChecked k m true false (fun s =>
    if !homeFree s m.addr true then homePrep m.addr true s
    else
      let s := setFilter m.addr none (takeMsg k m s)
      ttReply k m 3 0 0 0 0 (homeWrite m.addr (ttCells m) m.part m.tag m.fmt m.nf false true 0 none s)) s

/-- WR_LINE. -/
def wrLine (k : Nat) (m : TMsg) (s : State) : State := onMsg 1 5 k m (ttWrite k m) s
/-- WR_PART. -/
def wrPart (k : Nat) (m : TMsg) (s : State) : State := onMsg 1 6 k m (ttWrite k m) s

/-- The data a snoop or a WR_BACK returns is written into the line. -/
def returned (m : TMsg) (line : Nat) (s : State) : State :=
  homeWrite line (cellsMask m.data (BitVec.allOnes 128) 128) m.part m.tag m.fmt m.nf false true 0 none s

/-- WR_BACK (R408, R412): awaited by a snoop, it is the snoop's data; else a write from EM. -/
def wrBack (k : Nat) (m : TMsg) (s : State) : State :=
  onMsg 1 7 k m (fun s =>
    match s.snoops.find? fun q => q.line == m.addr && q.wbp with
    | some q =>
      let s := setFilter m.addr none (returned m m.addr (takeMsg k m { s with snoops := s.snoops.erase q }))
      wake (ttReply k m 3 0 0 0 0 s)
    | none =>
      if snoopOut s m.addr then s
      else if filterOf s m.addr ≠ some true then ttProto (takeMsg k m s)
      else ttChecked k m true false (fun s =>
        if !homeFree s m.addr true then homePrep m.addr true s
        else ttReply k m 3 0 0 0 0 (setFilter m.addr none (returned m m.addr (takeMsg k m s)))) s) s

/-! Snoops of companion lines (R411, R412). -/

/-- Answer a companion snoop as a cache does; while the device's own request for the line is out the snoop is held. -/
def snooped (k : Nat) (m : TMsg) (inv : Bool) (s : State) : State :=
  let line := m.addr
  let n := homeSlice s (line * 128)
  let x := s.slice n
  let out := s.cwReqs.find? fun q => q.line == line && !q.dead
  let op := match out with | some q => q.op | none => 99
  if op = 0 ∨ op = 1 ∨ op = 3 then s
  else
    let s := takeMsg k m s
    let drop := fun (s : State) => s.setSlice n { s.slice n with
      comp := tdel line (s.slice n).comp, lines := (s.slice n).lines.filter fun l => l.line != line }
    if op = 7 then ttReply k m 3 2 0 4 0 s
    else if op = 4 then ttReply k m 3 2 0 0 0 s
    else match tget? line x.comp with
      | none => ttReply k m 3 2 0 0 0 s
      | some (st, d) =>
        let s := if inv then drop s else s.setSlice n { x with comp := tset line (1, d) x.comp }
        let left := if inv then 0 else 1
        if st = 3 then ttReply k m 4 1 0 left d s else ttReply k m 3 2 0 left 0 s

/-- SNP_DATA at a companion line. -/
def snpData (k : Nat) (m : TMsg) (s : State) : State := onMsg 2 0 k m (snooped k m false) s
/-- SNP_INV at a companion line. -/
def snpInv (k : Nat) (m : TMsg) (s : State) : State := onMsg 2 1 k m (snooped k m true) s

/-! Answers to the device (R402, R403, R409-R412, R419, R420). -/

/-- Match an answer to a request: unmatched is malformed, a late one is discarded and frees its number. -/
def onReply (k : Nat) (m : TMsg) (ok : CwReq → Bool) (f : CwReq → State → State) (s : State) : State :=
  let s := takeMsg k m s
  match s.cwReqs.find? fun q => q.sub == k && q.txid == m.txid with
  | none => ttProto s
  | some q =>
    if q.dead then wake (dropCw q (s.countSat rTT_TMO TT_TMO_LATE 1))
    else if !ok q then ttProto s
    else wake (f q (dropCw q s))

/-- TT_WR_ACK: the write is complete (R415). -/
def ttWrAck (k : Nat) (m : TMsg) (s : State) : State :=
  onMsg 3 0 k m (onReply k m (fun q => decide (5 ≤ q.op)) (fun q s =>
    match q.pkt with
    | some p => s.send (reply p opWR_ACK)
    | none => s)) s

/-- GRANT (R402). -/
def grant (k : Nat) (m : TMsg) (s : State) : State :=
  onMsg 3 1 k m (onReply k m (fun q => q.op == 3) (fun q s =>
    let x := s.slice q.slice
    match tget? q.line x.comp with
    | some (_, d) => s.setSlice q.slice { x with comp := tset q.line (2, d) x.comp }
    | none => s)) s

/-- EVICT_ACK (R402). -/
def evictAck (k : Nat) (m : TMsg) (s : State) : State := onMsg 3 3 k m (onReply k m (fun q => q.op == 4) (fun _ s => s)) s

/-- TT_ERR (R419). -/
def ttErr (k : Nat) (m : TMsg) (s : State) : State := onMsg 3 4 k m (onReply k m (fun _ => true) cwFail) s

/-- TT_RD_DATA: an uncached read is answered; a cached line is installed in the state granted (R411). -/
def ttRdData (k : Nat) (m : TMsg) (s : State) : State :=
  onMsg 4 0 k m (onReply k m (fun q => decide (q.op ≤ 3)) (fun q s =>
    if q.op = 2 then { s with cwBuf := tset q.line (some m.data) s.cwBuf }
    else
      let s := if ((s.slice q.slice).lines.any fun l => l.line == q.line) then s else fill q.slice q.line m.tag m.part false s
      let x := s.slice q.slice
      s.setSlice q.slice { x with comp := tset q.line (m.state, m.data) x.comp })) s

/-- Match an answer to a snoop. -/
def onSnoop (k : Nat) (m : TMsg) (f : Snoop → State → State) (s : State) : State :=
  let s := takeMsg k m s
  match s.snoops.find? fun q => q.sub == k && q.txid == m.txid with
  | none => ttProto s
  | some q => f q s

/-- SNP_ACK (R409, R410, R412): with WBP the home waits for the WR_BACK. -/
def snpAck (k : Nat) (m : TMsg) (s : State) : State :=
  onMsg 3 2 k m (onSnoop k m (fun q s =>
    if m.state = 4 then { s with snoops := s.snoops.map fun r => if r = q then { r with wbp := true } else r }
    else
      let s := { s with snoops := s.snoops.erase q }
      wake (setFilter q.line (if m.state = 1 ∧ q.inv = false then some false else none) s))) s

/-- SNP_DATA_RSP: the data is written into the line (R409, R410). -/
def snpDataRsp (k : Nat) (m : TMsg) (s : State) : State :=
  onMsg 4 1 k m (onSnoop k m (fun q s =>
    let s := returned m q.line { s with snoops := s.snoops.erase q }
    wake (setFilter q.line (if m.state = 1 ∧ q.inv = false then some false else none) s))) s

/-- A management message that no rule lets the companion send, or an answer that nothing awaits (R402). -/
def ttStray (op k : Nat) (m : TMsg) (s : State) : State := onMsg 5 op k m (fun s => ttProto (takeMsg k m s)) s

/-! Registers (R414, R416, R418, R422). -/

/-- Half of an origin; the companion's MSIs use SL0's half. -/
def originHalf : Origin → Nat
  | .core c => coreHalf c
  | .hg h => h
  | .comp => 0

/-- TT_MSI_WRITE (R416). -/
def opTtMsi (o : Origin) (p : Nat) (v : Word) (s : State) : State :=
  regWrite o (rTT_MSI p) (fun _ => true) (fun s =>
    let w := s.fld rTT_STAT TT_STAT_WIDTH
    if w = 0 then ttProto s
    else ttMsi (if w = 3 then originHalf o else if w = 2 then 1 else 0) p (fget v TT_MSI_VECTOR) s) s

/-- Range of a window, when it is enabled. -/
def cwRange (b z : Word) : Option (Nat × Nat) :=
  if fbit b TT_CWBASE_EN then some (fget b TT_CWBASE_BASE, fget z TT_CWSIZE_SIZE) else none

/-- Would windows overlap with window `w` holding base and size `b`, `z` (R414). -/
def cwOverlap (w : Nat) (b z : Word) (s : State) : Bool :=
  match cwRange b z with
  | none => false
  | some (lo, n) => (List.range 8).any fun q =>
      q != w && (match cwRange (s.reg (rTT_CWBASE q)) (s.reg (rTT_CWSIZE q)) with
        | none => false
        | some (lo', n') => decide (lo < lo' + n') && decide (lo' < lo + n))

/-- TT_CW_WRITE (R414): TT_CWBASEw, or TT_CWSIZEw with `size`. -/
def opTtCw (o : Origin) (size : Bool) (w : Nat) (v : Word) (s : State) : State :=
  let a := if size then rTT_CWSIZE w else rTT_CWBASE w
  regWrite o a (fun s => if size then !cwOverlap w (s.reg (rTT_CWBASE w)) v s else !cwOverlap w v (s.reg (rTT_CWSIZE w)) s)
    (fun s => typedWrite s a v) s

/-- May an origin write these bits of MB_CTLh (R418, R422). -/
def mbMay (o : Origin) (h : Nat) (v : Word) : Bool :=
  (!fbit v MB_CTL_IN_DOOR || o == .comp) && (!fbit v MB_CTL_OUT_DOOR || o == .hg h) &&
    (!fbit v MB_CTL_OUT_FULL || o == .comp) && (!fbit v MB_CTL_IN_FULL || o == .hg h)

/-- Write MB_CTLh (R418). -/
def opMbCtl (o : Origin) (h : Nat) (v : Word) (s : State) : State :=
  regWrite o (rMB_CTL h) (fun _ => mbMay o h v) (fun s =>
    let s := typedWrite s (rMB_CTL h) v
    let s := if fbit v MB_CTL_IN_DOOR then (s.setFlag (rMB_CTL h) MB_CTL_IN_FULL true).hgEvent h HG_EVENT_MBOX else s
    if fbit v MB_CTL_OUT_DOOR then
      ttMsi h 0 (s.fld (rMB_CTL h) MB_CTL_OUT_VEC) (s.setFlag (rMB_CTL h) MB_CTL_OUT_FULL true)
    else s) s

/-- MB_IN_DOOR. -/
def mbInDoor (h : Nat) (s : State) : State :=
  opMbCtl .comp h (fsetB (fset 0 MB_CTL_OUT_VEC (s.fld (rMB_CTL h) MB_CTL_OUT_VEC)) MB_CTL_IN_DOOR true) s
/-- MB_OUT_DOOR. -/
def mbOutDoor (h : Nat) (s : State) : State :=
  opMbCtl (.hg h) h (fsetB (fset 0 MB_CTL_OUT_VEC (s.fld (rMB_CTL h) MB_CTL_OUT_VEC)) MB_CTL_OUT_DOOR true) s

/-- May a mailbox word be written: its box is not full (R418, R422). -/
def mbWordOk (o : Origin) (h : Nat) (out : Bool) (s : State) : Bool :=
  if out then o == .hg h && !s.flag (rMB_CTL h) MB_CTL_OUT_FULL else o == .comp && !s.flag (rMB_CTL h) MB_CTL_IN_FULL

end Sys2Proof.Machine
end

