-- ==== Sys2Proof/Machine/Logline.lean ====
section
/-! DEFINITION. The Logline and the snapshots (R423-R443). -/

namespace Sys2Proof.Machine

/-! The Logline. -/

/-- Causes of a refused commit (R425). -/
abbrev lcORDER : Nat := 1
abbrev lcSTEP : Nat := 2
abbrev lcDIGEST : Nat := 3
abbrev lcBOUND : Nat := 4
abbrev lcMIRROR : Nat := 5
abbrev lcNOSNAP : Nat := 6
abbrev lcREAD : Nat := 7

/-- STATE of SN_STAT (R442): 0 NONE, 1 SWEEPING, 2 PENDING, 3 HELD. -/
def snState (s : State) (p : Nat) : Nat := s.fld (rSN_STAT p) SN_STAT_STATE

/-- The bytes `lo` to `hi - 1` of a record, as a number. -/
def recNat (r : List Byte) (lo n : Nat) : Nat := leNat ((r.drop lo).take n)

/-- Is a byte of a record one that R424 does not list: descriptors at and beyond NSHARD are not listed (DEDUCED, log 45). -/
def recReserved (nshard i : Nat) : Bool :=
  (decide (4 ≤ i) && decide (i < 8)) || i == 0x1E || i == 0x1F || (decide (0x28 ≤ i) && decide (i < 0x40)) ||
    (decide (0x40 + 48 * nshard ≤ i) && decide (i < 0x3E0))

/-- Is a reserved byte of a record set. -/
def recDirty (nshard : Nat) (r : List Byte) : Bool :=
  (r.zipIdx).any fun x => recReserved nshard x.2 && x.1 != 0

/-- Has an enabled mirror not yet copied the record of the slot that step `st` takes (R425 MIRROR). -/
def mirrorBehind (s : State) (p st : Nat) : Bool :=
  let n := 2 ^ s.fld (rLOG_RING p) LOG_RING_LSIZE
  decide (n < st) &&
    ((s.flag (rLOG_MIRROR p) LOG_MIRROR_MIRC && decide ((s.reg (rLOG_MIRC p)).toNat < st - n)) ||
     (s.flag (rLOG_MIRROR p) LOG_MIRROR_MIRF && decide ((s.reg (rLOG_MIRF p)).toNat < st - n)))

/-- Read the whole slot of a step: its bytes when they can be read, and the homes' new state. -/
def slotRead (p st : Nat) (s : State) : Option (List Byte) × State :=
  match eFaultV s p true .load (logSlot s p st) 1024 with
  | some _ => (none, s)
  | none =>
    match eReadV p 0 (logSlot s p st) 1024 false true s with
    | (bs, none, s) => (some bs, s)
    | (_, some _, s) => (none, s)

/-- The checks of R425 on a slot's bytes: 0 when both pass. -/
def recordCause (p st : Nat) (r : List Byte) : Nat :=
  let ns := recNat r 2 1
  if recNat r 8 8 ≠ st ∨ recNat r 0 2 ≠ 1 ∨ 19 < ns ∨ recNat r 3 1 ≠ p ∨ recDirty ns r = true then lcSTEP
  else if sha256 (r.take 0x3E0) ≠ r.drop 0x3E0 then lcDIGEST
  else 0

/-- The checks of R425 in their order: the cause, 0 for none, and the state after the read. -/
def commitCause (p st : Nat) (s : State) : Nat × State :=
  let last := (s.reg (rLOG_LAST p)).toNat
  if snState s p = 0 then (lcNOSNAP, s)
  else if st ≠ last + 1 then (lcORDER, s)
  else if (s.reg (rSN_OLDSTEP p)).toNat + s.fld (rSN_CTL p) SN_CTL_N < st then (lcBOUND, s)
  else if mirrorBehind s p st then (lcMIRROR, s)
  else match slotRead p st s with
    | (none, s) => (lcREAD, s)
    | (some r, s) => (recordCause p st r, s)

/-- A write of a step to LOG_COMMIT (R425, R427). -/
def logCommit (p : Nat) (v : Word) (s : State) : State :=
  let (c, s) := commitCause p v.toNat s
  if c = 0 then
    let s := s.setReg (rLOG_LAST p) v
    let x := s.snap p
    s.setSnap p { x with
      mirC := if s.flag (rLOG_MIRROR p) LOG_MIRROR_MIRC then x.mirC ++ [v.toNat] else x.mirC
      mirF := if s.flag (rLOG_MIRROR p) LOG_MIRROR_MIRF then x.mirF ++ [v.toNat] else x.mirF }
  else (s.setFld (rLOG_STAT p) LOG_STAT_CAUSE c).countSat (rLOG_STAT p) LOG_STAT_REFUSED 1

/-- LOG_COMMIT. -/
def opLogCommit (o : Origin) (p : Nat) (v : Word) (s : State) : State :=
  regWrite o (rLOG_COMMIT p) (fun _ => decide (p < 8)) (logCommit p v) s

/-- Identity of the Logline controller among the writers of the companion window. -/
def logEng (p : Nat) : Nat := 0x50000 + p

/-- Device-physical address of a step's place in the companion mirror (R427). -/
def mirrorPa (s : State) (p st : Nat) : Nat :=
  0x400000000000 + s.fld (rLOG_MIRROR p) LOG_MIRROR_CBASE * 2 ^ 21 +
    st % 2 ^ s.fld (rLOG_RING p) LOG_RING_LSIZE * 1024

/-- The lines of a mirror place whose write failed. -/
def mirrorLost (s : State) (pa : Nat) : List Nat :=
  ((List.range 8).map fun i => pa / 128 + i).filter fun l => tget? l s.cwBuf == some none

/-- LOG_MIRROR_COMPANION (R427): the writes of the oldest record still to be mirrored go to the companion window; when
all have completed LOG_MIRC advances.  A mirror that cannot write stops, and writes again when it can (R421). -/
def mirrorCompanion (p : Nat) (s : State) : State :=
  let x := s.snap p
  match x.mirC with
  | [] => s
  | st :: rest =>
    let pa := mirrorPa s p st
    let busy := s.cwReqs.any fun q => q.eng == logEng p
    if x.mirOut then
      (if busy then s
       else match mirrorLost s pa with
        | [] => (s.setReg (rLOG_MIRC p) (n64 st)).setSnap p { x with mirC := rest, mirOut := false }
        | ls => { s.setSnap p { x with mirOut := false } with cwBuf := s.cwBuf.filter fun e => !lhas e.1 ls })
    else if !cwOpen s pa true then s
    else if !gateAll (pa / 128) true s 8 then prepAll (pa / 128) p true 8 s
    else match slotRead p st s with
      | (none, s) => s
      | (some r, s) => (engWrite pa r p 0 0xF false false true (logEng p) s).setSnap p { s.snap p with mirOut := true }

/-! Snapshots. -/

/-- The count field of a table (R442). -/
def snCountFld (s : State) (p t : Nat) : Fld :=
  if s.fld (rSN_STAT p) SN_STAT_TSEL = t then SN_COUNT_OLD else SN_COUNT_NEW

/-- Records in a table. -/
def snCount (s : State) (p t : Nat) : Nat := s.fld (rSN_COUNT p) (snCountFld s p t)

/-- Virtual address of record `i` of a table (R433). -/
def recVa (s : State) (p t i : Nat) : Nat := s.fld (rSN_TBL p t) SN_TBL_BASE <<< 21 + 16 * i

/-- A copy record (R433). -/
structure CopyRec where
  v : Bool
  bad : Bool
  lp : Bool
  vpn : Nat
  src : Nat
  copy : Nat
  deriving DecidableEq, Repr

/-- The bytes of a record. -/
def CopyRec.bytes (r : CopyRec) : List Byte :=
  leBytes 8 (b2n r.v <<< 63 ||| b2n r.bad <<< 62 ||| b2n r.lp <<< 61 ||| r.vpn <<< 21) ++ leBytes 8 (r.src <<< 20 ||| r.copy)

/-- The record that words spell. -/
def CopyRec.ofNats (a b : Nat) : CopyRec :=
  { v := bit a 63, bad := bit a 62, lp := bit a 61, vpn := bits a 47 21, src := bits b 39 20, copy := bits b 19 0 }

/-- Record `i` of a table as its memory holds it (log 45). -/
def readRec (s : State) (p t i : Nat) : Option CopyRec :=
  match eFaultV s p true .load (recVa s p t i) 16 with
  | some _ => none
  | none =>
    match eReadV p 0 (recVa s p t i) 16 false false s with
    | (bs, none, _) =>
      let r := CopyRec.ofNats (leNat (bs.take 8)) (leNat (bs.drop 8))
      if r.v then some r else none
    | _ => none

/-- The valid records of a table, oldest first, with their places. -/
def tableRecs (s : State) (p t : Nat) : List (Nat × CopyRec) :=
  (List.range (snCount s p t)).filterMap fun i => (readRec s p t i).map fun r => (i, r)

/-- Write bytes at a record's place; a table that cannot be written loses them (log 45). -/
def writeRec (p t i : Nat) (bs : List Byte) (s : State) : State :=
  match eFaultV s p true .store (recVa s p t i) 16 with
  | some _ => s
  | none => eWriteV p 0 0xF false 0 (recVa s p t i) bs s

/-- A frame of the partition that holds a copy gets RSV := 0. -/
def unreserve (p f : Nat) (s : State) : State :=
  let e := s.le f
  if e.rsv && !e.chip && e.owner == p then s.setLe f { e with rsv := false } else s

/-- The copy frames of a table become free and the table is cleared (R434). -/
def clearTable (p t : Nat) (s : State) : State :=
  let n := snCount s p t
  let s := each (fun (x : Nat × CopyRec) s => if x.2.bad then s else unreserve p x.2.copy s) (tableRecs s p t) s
  let s := upto (fun i s => writeRec p t i (leBytes 16 0) s) n s
  let s := s.setFld (rSN_COUNT p) (snCountFld s p t) 0
  let x := s.snap p
  s.setSnap p { x with copies := x.copies.map fun c => if c.tbl = some t then { c with tbl := none } else c }

/-- Set STATE. -/
def snSet (p st : Nat) (s : State) : State := s.setFld (rSN_STAT p) SN_STAT_STATE st

/-- TAKE (R428). -/
def snTake (p : Nat) (k : Word) (s : State) : State :=
  let first := decide (snState s p = 0)
  let s := if s.flag (rLOG_STAT p) LOG_STAT_VALID then s
    else (s.setReg (rLOG_LAST p) k).setFlag (rLOG_STAT p) LOG_STAT_VALID true
  let s := (snSet p 1 s).setReg (rSN_NEWSTEP p) k
  let s := if first then s.setReg (rSN_OLDSTEP p) k else s
  let s := (s.setFlag (rSN_STAT p) SN_STAT_BUSY true).setFld (rSN_STAT p) SN_STAT_SWEEP 0
  s.setSnap p { s.snap p with swept := [], first := first }

/-- COMMIT (R434). -/
def snCommit (p : Nat) (s : State) : State :=
  let o := s.fld (rSN_STAT p) SN_STAT_TSEL
  let s := clearTable p o s
  let n := s.fld (rSN_COUNT p) SN_COUNT_NEW
  let s := (s.setFld (rSN_COUNT p) SN_COUNT_OLD n).setFld (rSN_COUNT p) SN_COUNT_NEW 0
  let b := s.flag (rSN_STAT p) SN_STAT_BROKEN_NEW
  let s := (s.setFlag (rSN_STAT p) SN_STAT_BROKEN_OLD b).setFlag (rSN_STAT p) SN_STAT_BROKEN_NEW false
  let s := s.setReg (rSN_OLDSTEP p) (s.reg (rSN_NEWSTEP p))
  snSet p 3 (s.setFld (rSN_STAT p) SN_STAT_TSEL (1 - o))

/-- NEW is dropped (R434). -/
def snDrop (p : Nat) (s : State) : State :=
  let s := clearTable p (1 - s.fld (rSN_STAT p) SN_STAT_TSEL) s
  snSet p 3 (s.setFlag (rSN_STAT p) SN_STAT_BROKEN_NEW false)

/-- A rollback starts (R439). -/
def snRollback (p : Nat) (new : Bool) (s : State) : State :=
  (s.setFlag (rSN_STAT p) SN_STAT_BUSY true).setSnap p { s.snap p with rollback := some new }

/-- Do an accepted command. -/
def snRun (p op : Nat) (k : Word) (s : State) : State :=
  match op with
  | 1 => snTake p k s
  | 2 => snCommit p s
  | 3 => snDrop p s
  | 4 => snRollback p false s
  | _ => snRollback p true s

/-- STATE after a command accepted in a state. -/
def snAfter (op st : Nat) : Nat := if op = 1 then (if st = 3 then 2 else 3) else if op = 5 then 2 else 3

/-- The state that the running and the waiting commands leave (R434, log 45). -/
def snEff (s : State) (p : Nat) : Nat :=
  let x := s.snap p
  let st := snState s p
  let st := if st = 1 then (if x.first then 3 else 2) else if x.rollback = some false then 3 else st
  x.cmds.foldl (fun st c => snAfter c.1 st) st

/-- Is a command accepted (R428, R434). -/
def snOk (p op : Nat) (s : State) : Bool :=
  let st := snEff s p
  match op with
  | 1 => s.flag (rSN_CTL p) SN_CTL_EN && (st == 0 || st == 3) &&
      (!s.flag (rLOG_STAT p) LOG_STAT_VALID || s.reg (rSN_ARG p) == s.reg (rLOG_LAST p))
  | 4 => st == 3 || st == 2
  | 2 | 3 | 5 => st == 2
  | _ => true

/-- A write of SN_CMD (R434): with BUSY = 1 an accepted command waits; other operations do nothing. -/
def opSnCmd (o : Origin) (p op : Nat) (s : State) : State :=
  regWrite o (rSN_CMD p) (fun s => decide (p < 8) && snOk p op s) (fun s =>
    if op = 0 ∨ 5 < op then s
    else
      let x := s.snap p
      if s.flag (rSN_STAT p) SN_STAT_BUSY then s.setSnap p { x with cmds := x.cmds ++ [(op, s.reg (rSN_ARG p))] }
      else snRun p op (s.reg (rSN_ARG p)) s) s

/-- The running sweep or rollback has ended: the commands that wait follow. -/
def snIdle (p : Nat) : List (Nat × Word) → State → State
  | [], s => s.setSnap p { s.snap p with cmds := [] }
  | (op, k) :: r, s =>
    if s.flag (rSN_STAT p) SN_STAT_BUSY then s.setSnap p { s.snap p with cmds := (op, k) :: r }
    else snIdle p r (snRun p op k s)

/-- BUSY falls. -/
def snDone (p : Nat) (s : State) : State :=
  snIdle p (s.snap p).cmds (s.setFlag (rSN_STAT p) SN_STAT_BUSY false)

/-- SNAPSHOT_SWEEP_END (R428): every entry not swept out of order has been swept in frame order. -/
def snapshotSweepEnd (p : Nat) (s : State) : State :=
  if snState s p ≠ 1 then s
  else
    let x := s.snap p
    let fs := (s.ledger.map fun e => e.1).filter fun f => !lhas f x.swept
    let s := each (fun f s => let e := s.le f; if sweeps s p e then s.setLe f { e with s := true } else s) fs s
    let s := (snSet p (if x.first then 3 else 2) s).setFld (rSN_STAT p) SN_STAT_SWEEP 0
    snDone p (s.setSnap p { s.snap p with swept := [], first := false })

/-- The copy frame of a page (R431): of its class and half, else in LPDDR5X. -/
def copyFrame (s : State) (p f : Nat) : Option Nat :=
  let hbm := if f < lpBase then findFree s p (fun d => frameClass s d == frameClass s f) 0 lpBase else none
  match hbm with
  | some d => some d
  | none => findFree s p (fun _ => true) lpBase (nFrames - lpBase)

/-- SNAPSHOT_COPY_START (R431, R432): a place is free and the writes accepted before the snapshot point have completed. -/
def snapshotCopyStart (p f : Nat) (s : State) : State :=
  let x := s.snap p
  let wr := fun (q : Packet) => pktWrites q && !isCw q.addr && frameOf q.addr == f
  if !(x.copies.any fun c => c.frame == f && !c.started) || decide (8 ≤ (x.copies.filter fun c => c.started).length) ||
      (s.slices.any fun y => y.2.reqs.any fun r => wr r.pkt) || (s.lcs.any fun y => (y.2.input ++ y.2.queue).any wr) then s
  else
    let d := copyFrame s p f
    let s := match d with
      | some d => if lpBase ≤ d then s.countSat (rSN_NOFRAME p) SN_NOFRAME_LP 1 else s
      | none => s
    s.setSnap p { x with copies := x.copies.map fun c => if c.frame = f then { c with copy := d, started := true } else c }

/-- Every line of a frame. -/
def frameLines : List Nat := List.range 16384

/-- Append a record to a table (R433). -/
def appendRec (p t : Nat) (r : CopyRec) (s : State) : State :=
  let n := snCount s p t
  let s := writeRec p t n r.bytes s
  s.setFld (rSN_COUNT p) (snCountFld s p t) (n + 1)

/-- Set BROKEN of a table's snapshot. -/
def setBroken (p t : Nat) (s : State) : State :=
  s.setFlag (rSN_STAT p) (if s.fld (rSN_STAT p) SN_STAT_TSEL = t then SN_STAT_BROKEN_OLD else SN_STAT_BROKEN_NEW) true

/-- The record of a finished copy: a good one reserves its frame; without a frame COPY and LP are free values (log 45). -/
def copyRecord (p f : Nat) (c : SnCopy) (good : Bool) (t : Nat) (s : State) : State :=
  let e := s.le f
  let r : CopyRec := { v := true, bad := !good, lp := false, vpn := e.vpn, src := f, copy := 0 }
  match c.copy with
  | some d =>
    let s := appendRec p t { r with lp := decide (lpBase ≤ d), copy := d } s
    if good then s.setLe d { s.le d with rsv := true, chip := false } else s
  | none =>
    let (w, s) := s.fresh
    appendRec p t { r with lp := bit w.toNat 20, copy := bits w.toNat 19 0 } s

/-- SNAPSHOT_COPY_DONE (R430, R431): the copy, its record, RSV, S := 0, and the held writers go on. -/
def snapshotCopyDone (p f : Nat) (s : State) : State :=
  let x := s.snap p
  match x.copies.find? fun c => c.frame == f && c.started with
  | none => s
  | some c =>
    let va := match c.tbl with | some t => recVa s p t (snCount s p t) | none => 0
    if c.tbl.isSome && !eGateV s p true va 16 then ePrepV p 0 0xF true va 16 s
    else if (match c.copy with | some d => !copyGate s f d frameLines | none => false) then
      (match c.copy with | some d => copyPrep f d p frameLines s | none => s)
    else
      let good := c.copy.isSome && !copyBad s f p frameLines
      let s := match c.copy with
        | some d => if good then each countShare (copyUnits s d) (copyLines f d frameLines s) else s
        | none => s
      let s := match c.tbl with
        | some t =>
          let s := copyRecord p f c good t s
          if good then s else (setBroken p t s).countSat (rSN_NOFRAME p) SN_NOFRAME_BAD 1
        | none => s
      let s := s.setLe f { s.le f with s := false }
      let x := s.snap p
      let s := s.setSnap p { x with copies := x.copies.filter fun c => c.frame != f }
      wake (lgNext (lgResume f s))

/-- The place of the record of a copy frame. -/
def findRec (s : State) (p f : Nat) : Option (Nat × Nat × CopyRec) :=
  match (tableRecs s p 0).find? fun x => x.2.copy == f && !x.2.bad with
  | some (i, r) => some (0, i, r)
  | none => ((tableRecs s p 1).find? fun x => x.2.copy == f && !x.2.bad).map fun x => (1, x.1, x.2)

/-- SNAPSHOT_MIGRATE (R435): an HBM3E copy frame moves to a free LPDDR5X frame of the partition. -/
def snapshotMigrate (p f : Nat) (s : State) : State :=
  let e := s.le f
  if !s.flag (rSN_CTL p) SN_CTL_MIGEN || lpBase ≤ f || !e.rsv || e.chip || e.owner ≠ p then s
  else match findRec s p f, findFree s p (fun _ => true) lpBase (nFrames - lpBase) with
    | some (t, i, r), some d =>
      if !eGateV s p true (recVa s p t i) 16 then ePrepV p 0 0xF true (recVa s p t i) 16 s
      else if !copyGate s f d frameLines then copyPrep f d p frameLines s
      else if copyBad s f p frameLines then s
      else
        let s := each countShare (copyUnits s d) (copyLines f d frameLines s)
        let s := writeRec p t i { r with lp := true, copy := d }.bytes s
        let s := s.setLe d { s.le d with rsv := true, chip := false }
        s.setLe f { s.le f with rsv := false }
    | _, _ => s

/-- What a rollback restores (R439): page, copy frame, whether from NEW while going back to OLD.  The first record of a page
in a table is the one restored (log 45). -/
def rollPlan (s : State) (p : Nat) (new : Bool) : List (Nat × Nat × Bool) :=
  let o := s.fld (rSN_STAT p) SN_STAT_TSEL
  let x := if new then 1 - o else o
  let pick := fun (seen : List Nat) (n : Bool) (l : List (Nat × CopyRec)) =>
    l.foldl (fun (a : List Nat × List (Nat × Nat × Bool)) e =>
      if lhas e.2.vpn a.1 then a
      else (e.2.vpn :: a.1, if e.2.bad then a.2 else a.2 ++ [(e.2.vpn, e.2.copy, n)])) (seen, [])
  let a := pick [] false (tableRecs s p x)
  if new then a.2 else a.2 ++ (pick a.1 true (tableRecs s p (1 - o))).2

/-- The frame a page is restored into: the one that maps it now, or a new one mapped with W set (R439). -/
def rollTarget (p vpn : Nat) (s : State) : Option Nat × State :=
  match walk s p vpn with
  | .hit f => (some f, s)
  | _ =>
    if overlaps s p vpn || decide (64 ≤ (chainOf s p vpn).length) then (none, s)
    else match chooseFrame s p 0 0 with
      | .error _ => (none, s)
      | .ok (f, _) => (some f, linkNew p vpn f true false false false s)

/-- Restore one page. -/
def rollPage (p t : Nat) (x : Nat × Nat × Bool) (s : State) : State :=
  match rollTarget p x.1 s with
  | (none, s) => setBroken p t s
  | (some f, s) =>
    if copyBad s x.2.1 p frameLines then setBroken p t s
    else
      let s := each countShare (copyUnits s f) (copyLines x.2.1 f frameLines s)
      let s := s.setLe f { s.le f with s := x.2.2 }
      if x.2.2 then unreserve p x.2.1 s else s

/-- Do the homes of all pages of a plan stand open. -/
def rollGate (s : State) (p : Nat) (plan : List (Nat × Nat × Bool)) : Bool :=
  plan.all fun x => match walk s p x.1 with | .hit f => copyGate s x.2.1 f frameLines | _ => true

/-- ROLLBACK_DONE (R439). -/
def rollbackDone (p : Nat) (s : State) : State :=
  match (s.snap p).rollback with
  | none => s
  | some new =>
    let plan := rollPlan s p new
    if !rollGate s p plan then
      each (fun x s => match walk s p x.1 with | .hit f => copyPrep x.2.1 f p frameLines s | _ => s) plan s
    else
      let o := s.fld (rSN_STAT p) SN_STAT_TSEL
      let s := each (rollPage p (if new then 1 - o else o)) plan s
      let s := if !new && snState s p == 2 then snDrop p s else s
      wake (snDone p (s.setSnap p { s.snap p with rollback := none }))

/-! Register writes. -/

/-- A write of SN_CTL (R437, R442). -/
def opSnCtl (o : Origin) (p : Nat) (v : Word) (s : State) : State :=
  let n := fget v SN_CTL_N
  regWrite o (rSN_CTL p)
    (fun s => decide (p < 8) && snState s p == 0 && n != 0 && decide (n ≤ 2 ^ s.fld (rLOG_RING p) LOG_RING_LSIZE - 1))
    (fun s => typedWrite s (rSN_CTL p) v) s

/-- A write of LOG_RING, LOG_MIRROR, SN_SKIPLO, SN_SKIPHI, SN_TBL0 or SN_TBL1 (R442): refused while a snapshot is held, and
for LSIZE outside 6-16 or one that leaves N above 2^LSIZE - 1 (R437). -/
def opSnGuarded (o : Origin) (p a : Nat) (v : Word) (s : State) : State :=
  let l := fget v LOG_RING_LSIZE
  regWrite o a
    (fun s => decide (p < 8) && snState s p == 0 &&
      (a != rLOG_RING p || (decide (6 ≤ l) && decide (l ≤ 16) && decide (s.fld (rSN_CTL p) SN_CTL_N ≤ 2 ^ l - 1))))
    (fun s => typedWrite s a v) s

end Sys2Proof.Machine
end

