-- ==== Sys2Proof/Machine/Protect.lean ====
section
/-! DEFINITION. Background work of the memory controllers and the protection of stored data: budgets (R36, R38), PHY
recalibration (R39, R505), Dredge (R456-R458), the transparent background test (R461, R462), bank retirement (R467). -/

namespace Sys2Proof.Machine

/-! Budgets (R36-R38).  Island k: 0 Canal west, 1 Canal east, 2 Weir west, 3 Weir east, in the order of R40's counters. -/

/-- Endpoint under which a Canal link's background cycles are kept: one per half. -/
abbrev epLink (h : Nat) : Nat := 0xC00 + h

/-- Island of a controller or link. -/
def unitIsland (u : Nat) : Nat :=
  if 0xC00 ≤ u then (u - 0xC00) % 2 else if 0x510 ≤ u then (u - 0x510) / 8 % 2 else 2 + (u - 0x500) / 8 % 2

/-- Budget of a window (R36). -/
def bgLimit (u : Nat) : Nat := if 0xC00 ≤ u then 10485 else 20971

/-- Does the rest of the window's budget cover an operation of `n` cycles. -/
def bgFits (s : State) (u n : Nat) : Bool := decide (tget 0 s.bg u + n ≤ bgLimit u)

/-- Spend budget. -/
def bgSpend (u n : Nat) (s : State) : State := { s with bg := tset u (tget 0 s.bg u + n) s.bg }

/-- An operation waits for the next window (R38). -/
def bgWait (u : Nat) (s : State) : State := { s with bgDefer := ladd u s.bgDefer }

/-- A background operation of `n` link cycles on the Canal links of half `h`: it runs within the window's budget, in the order of
R38 behind what already waits for the next window when it is `late`, or waits for that window itself (R36, R38). -/
def onLink (h n : Nat) (late : Bool) (run : State → State) (s : State) : State :=
  if (late && lhas (epLink h) s.bgDefer) || !bgFits s (epLink h) n then bgWait (epLink h) s else run (bgSpend (epLink h) n s)

/-- BG_WINDOW_END of an island (R36, R40). -/
def bgWindowEnd (k : Nat) (s : State) : State :=
  let mine := fun (u : Nat) => unitIsland u == k
  let links := fun (u : Nat) => decide (0xC00 ≤ u)
  let last := each (fun (x : Nat × Nat) t => tset x.1 x.2 t) (s.bg.filter fun x => mine x.1)
    (s.bgLast.map fun x => if mine x.1 then (x.1, 0) else x)
  let peak := fun (sel : Nat → Bool) => (last.filter fun x => sel x.1).foldl (fun m x => max m x.2) 0
  let d := s.bgDefer.filter mine
  let s := s.setFld rBG_MEM_PEAK BG_MEM_PEAK_CYCLES (peak fun u => !links u)
  let s := s.setFld rBG_CANAL_PEAK BG_CANAL_PEAK_CYCLES (peak links)
  let s := if d.any fun u => !links u then s.setReg rBG_DEFER (fincr (s.reg rBG_DEFER) BG_DEFER_MEM_WINDOWS 1) else s
  let s := if d.any links then s.setReg rBG_DEFER (fincr (s.reg rBG_DEFER) BG_DEFER_CANAL_WINDOWS 1) else s
  { s with bg := s.bg.filter (fun x => !mine x.1), bgLast := last, bgDefer := s.bgDefer.filter fun u => !mine u }

/-! PHY recalibration. -/

/-- Channels of a controller (R505). -/
def nChans (u : Nat) : Nat := if 0x510 ≤ u then 4 else 32

/-- RECAL_START (R39, R503, R505): the next channel of the rotation, for at most 4,096 cycles, when the budget covers it;
deferred while the half's Headgate restarts for a swap. -/
def recalStart (u cyc : Nat) (s : State) : State :=
  if u < 0x500 ∨ 0x520 ≤ u ∨ 4096 < cyc ∨ (s.recal.any fun x => x.1 == u) = true ∨ (s.hgx (unitIsland u % 2)).swap = true then s
  else if !bgFits s u cyc then bgWait u s
  else
    let ch := tget 0 s.recalNext u % nChans u
    { bgSpend u cyc s with recal := (u, ch) :: s.recal, recalNext := tset u ((ch + 1) % nChans u) s.recalNext }

/-- RECAL_END (R39): the channel is released, and the requests that waited for it go on. -/
def recalEnd (u : Nat) (s : State) : State := wake { s with recal := s.recal.filter fun x => x.1 != u }

/-! Dredge. -/

/-- Lines of a unit's memory: a stack (R228, R247), an LPDDR5X controller. -/
def memLines (u : Nat) : Nat := if 0x510 ≤ u then 268435456 else 402653184

/-- Places of a unit's whole walk: a stack and then its 16 slices' lines; a controller's lines; a core memory's 16-byte
words. -/
def walkLen (u : Nat) : Nat := if u < 0x500 then 65536 else if 0x510 ≤ u then memLines u else memLines u + 131072

/-- The address of a stack's or controller's line (the map of R247 or R249 read backwards). -/
def lineAt (s : State) (u i : Nat) : Nat :=
  let a := i * 128
  let r := a % 131072 / 256
  let y := a % 256
  let n := u % 16
  if 0x510 ≤ u then
    0x010000000000 + a / 131072 * 2 ^ 21 + (r * 16 + nxor (nxor n (bits r 3 0)) (bits r 7 4)) * 256 + y
  else
    let f := a / 131072
    if halfLocal s (f / 2) then
      let b := f % 2 * 4096 + r * 8 + nxor (nxor (n % 8) (bits r 2 0)) (bits r 5 3)
      (f / 2 * 2 + n / 8) * 2 ^ 21 + b * 256 + y
    else f * 2 ^ 21 + (r * 16 + nxor (nxor n (bits r 3 0)) (bits r 7 4)) * 256 + y

/-- Is Dredge enabled in a unit (R468). -/
def drgOn (s : State) (u : Nat) : Bool :=
  if u < 0x500 then s.flag rEL_CTL EL_CTL_CM_DREDGE && coreIdOk u
  else if 0x510 ≤ u then s.flag (rLC_DRG_CTL (u - 0x510)) SC_DRG_CTL_EN else s.flag (rSC_DRG_CTL (u - 0x500)) SC_DRG_CTL_EN

/-- Cycle counter of a unit's island. -/
def unitCycle (s : State) (u : Nat) : Nat :=
  if u < 0x400 then s.cycle u
  else (s.reg (0x10 + 8 * unitIsland u)).toNat

/-- Does a unit have no foreground request waiting: at its slices or in its queues, held there for another, or a write-back of
its slices (R37). -/
def unitIdle (s : State) (u : Nat) : Bool :=
  if u < 0x500 then true
  else if 0x510 ≤ u then
    (s.lc (u - 0x510)).queue.isEmpty && (s.lc (u - 0x510)).input.isEmpty && !(s.held.any fun p => homeEp s p.addr == u)
  else
    ((List.range 16).all fun i =>
      let x := s.slice (16 * (u - 0x500) + i)
      x.reqs.isEmpty && x.wbs.isEmpty) &&
    !(s.held.any fun p => isHbm p.addr && homeSlice s p.addr / 16 == u - 0x500)

/-- Count in SC_DRG_CNT of a unit. -/
def drgCount (u : Nat) (f : Fld) (s : State) : State :=
  if u < 0x500 then s
  else if 0x510 ≤ u then s.countSat (rLC_DRG_CNT (u - 0x510)) f 1 else s.countSat (rSC_DRG_CNT (u - 0x500)) f 1

/-- Dredge moves on; at the end of a lap it starts the next one and reports the lap. -/
def drgAdvance (u : Nat) (s : State) : State :=
  let (i, t) := tget (0, 0) s.dredge u
  let now := unitCycle s u
  if i + 1 < walkLen u then
    let s := { s with dredge := tset u (i + 1, t) s.dredge }
    let l := if i + 1 < memLines u then i + 1 else 0
    if u < 0x500 then s
    else if 0x510 ≤ u then s.setFld (rLC_DRG_POS (u - 0x510)) SC_DRG_POS_LINE l
    else s.setFld (rSC_DRG_POS (u - 0x500)) SC_DRG_POS_LINE l
  else
    let s := { s with dredge := tset u (0, now) s.dredge }
    if u < 0x500 then s.setReg (rCM_LAP u) (n64 (now - t))
    else if 0x510 ≤ u then
      let n := u - 0x510
      ((s.setReg (rLC_DRG_LAP n) (n64 (now - t))).countSat (rLC_DRG_POS n) SC_DRG_POS_LAPS 1).setFld (rLC_DRG_POS n) SC_DRG_POS_LINE 0
    else
      let n := u - 0x500
      ((s.setReg (rSC_DRG_LAP n) (n64 (now - t))).countSat (rSC_DRG_POS n) SC_DRG_POS_LAPS 1).setFld (rSC_DRG_POS n) SC_DRG_POS_LINE 0

/-- Write the corrected word back into a slice's array: fresh check bits (R446, R463). -/
def fixWord (w : Nat) (s : State) : State :=
  let m := tget 0 s.flips w
  if m = 0 ∨ eccUnc m = true then s
  else
    let bs := s.rdBytes (4 * w) 4
    let s := { s with flips := tdel w s.flips }
    if eccLeft m = 0 then s else each (fun (x : Byte × Nat) s => s.setByte (4 * w + x.2) x.1) bs.zipIdx s

/-- The same in a core's memory, for the flip mask under a key. -/
def fixCore (c key : Nat) (s : State) : State :=
  let m := tget 0 (s.core c).flips key
  if m = 0 ∨ eccUnc m = true then s
  else
    let bs := spadBytes s c (4 * key) 4
    let s := s.modCore c fun k => { k with flips := tdel key k.flips }
    if eccLeft m = 0 then s
    else if key < 2 ^ 40 then spadPut c (4 * key) bs s
    else
      let line := (key - 2 ^ 40) / 32
      let w := key % 32
      s.modCore c fun k => { k with l1 := k.l1.map fun l =>
        if l.line = line then { l with data := l.data ^^^ BitVec.ofNat 1024 (eccLeft m <<< (32 * w)) } else l }

/-- Log what a background read of a core-memory word finds. -/
def logCore (c key : Nat) (s : State) : State :=
  let m := tget 0 (s.core c).flips key
  if m = 0 then s
  else if eccUnc m then logErr .ueScrub c 0 (key % 2 ^ 18) 0 0 (eccSynd m) false s
  else if eccSynd m ≠ 0 then logErr .ce c 0 (key % 2 ^ 18) 0 0 (eccSynd m) false s
  else s

/-- Flip-mask keys of a 16-byte word of core memory: of the scratchpad, and above it of the L1's lines in the order held
(log 47). -/
def coreKeys (s : State) (c i : Nat) : List Nat :=
  let sp := spadSize s (s.part c)
  if i * 16 < sp then (List.range 4).map fun j => 4 * i + j
  else match (s.core c).l1[(i * 16 - sp) / 128]? with
    | some l => (List.range 4).map fun j => l1Key l.line (i % 8 * 4 + j)
    | none => []

/-- Dredge's read of a word of core memory. -/
def drgCore (c i : Nat) (s : State) : State :=
  each (fun k s => fixCore c k (logCore c k s)) (coreKeys s c i) s

/-- A correction write leaves for its home. -/
def drgSend (u line : Nat) (arr : Bool) (s : State) : State := { s with corr := s.corr ++ [(u, line, arr, false)] }

/-- Dredge's read of a memory line, with what the storage reports: `sev` a corrected word's severity or syndrome, `unc`
uncorrectable (R447, R448, R456, R458). -/
def drgLine (u line sev : Nat) (unc : Bool) (s : State) : State :=
  let pa := line * 128
  let known := (List.range 32).any fun i => lhas (line * 32 + i) s.badw
  match (if isHbm pa then resident s line else none) with
  | some _ =>
    if unc && !known then
      let old := cellsOf s line
      let s := modLine (homeSlice s pa) line (fun l => { l with dirty := true, old := if l.dirty then l.old else old }) s
      logWord .restored (line * 32) sev s
    else if known then drgCount u SC_DRG_CNT_UE (logWord .ueScrub (line * 32) sev s)
    else if sev ≠ 0 then drgSend u line false (logWord .ce (line * 32) sev s) else s
  | none =>
    if unc || known then
      let s := { s with badw := if unc then (List.range 32).foldl (fun l i => ladd (line * 32 + i) l) s.badw else s.badw }
      drgCount u SC_DRG_CNT_UE (logWord .ueScrub (line * 32) sev s)
    else if sev ≠ 0 then drgSend u line false (logWord .ce (line * 32) sev s) else s

/-- Dredge's read of a slice's line (R456, R451). -/
def drgSlice (u i : Nat) (s : State) : State :=
  let n := 16 * (u - 0x500) + i / 8192
  let at' := i % 8192
  match (s.slice n).lines.find? fun l => l.set * 16 + l.way == at' with
  | none => s
  | some l =>
    let ws := (List.range 32).map fun j => l.line * 32 + j
    if s.tbt.contains (epSlice n, at' / 32) then s
    else if ws.any fun w => eccUnc (tget 0 s.flips w) then
      let s := match ws.find? fun w => eccUnc (tget 0 s.flips w) with
        | some w => drgCount u SC_DRG_CNT_UE (logErr .ueScrub (epSlice n) 7 (at' * 32 + w % 32) 0 0 (eccSynd (tget 0 s.flips w)) false s)
        | none => s
      foundBad n l.line s
    else if ws.any fun w => tget 0 s.flips w != 0 then drgSend u l.line true (logFixed l.line 32 s)
    else s

/-- DREDGE_SCRUB (R456-R458): the next line or word of unit `u`'s walk, read in an idle cycle within the budget: `cyc` the
data-transfer cycles that the read occupies. -/
def dredgeScrub (u cyc sev : Nat) (unc : Bool) (s : State) : State :=
  if !drgOn s u then s
  else
    let i := (tget (0, 0) s.dredge u).1
    if u < 0x500 then
      drgAdvance u (if s.tbt.contains (u, i / 256) then s else drgCore u i s)
    else if memLines u ≤ i then drgAdvance u (drgSlice u (i - memLines u) s)
    else
      let line := lineAt s u i / 128
      if bankRetired s (line * 128) then drgAdvance u s
      else if !unitIdle s u || lhas u s.bgDefer || (s.recal.any fun x => x.1 == u) then s
      else if !bgFits s u cyc then bgWait u s
      else drgAdvance u (drgLine u line sev unc (bgSpend u cyc s))

/-- Data-transfer cycles of one line: a stack moves 640 bytes a cycle (R458), an LPDDR5X controller 64 (R356). -/
def lineCycles (u : Nat) : Nat := if 0x510 ≤ u then 2 else 1

/-- DREDGE_CORRECTION (R458): a correction write arrives at the line's home and is applied or dropped; one that writes memory
counts against the budget (R37), and waits for a window that covers it. -/
def dredgeCorrection (u line : Nat) (s : State) : State :=
  match ltake (fun (c : Nat × Nat × Bool × Bool) => c.1 == u && c.2.1 == line) s.corr with
  | none => s
  | some ((_, _, arr, late), rest) =>
    let dirty := match (if isHbm (line * 128) then resident s line else none) with | some l => l.dirty | none => false
    if late || dirty then drgCount u SC_DRG_CNT_UE { s with corr := rest }
    else if !arr && !bgFits s u (lineCycles u) then bgWait u s
    else
      let s := { (if arr then s else bgSpend u (lineCycles u) s) with corr := rest }
      let s := if arr then upto (fun j s => fixWord (line * 32 + j) s) 32 s else s
      drgCount u SC_DRG_CNT_CE s

/-! The transparent background test. -/

/-- Does a foreground request wait for a region of a unit (R461). -/
def regionWanted (s : State) (u r : Nat) : Bool :=
  if u < 0x400 then false
  else
    let x := s.slice (u - 0x400)
    x.lines.any fun l => (l.set * 16 + l.way) / 32 == r &&
      (x.reqs.any (fun q => q.pkt.addr / 128 == l.line) || s.held.any fun p => p.addr / 128 == l.line)

/-- TBT_REGION_START (R461): the next 4 KiB region of a core memory or slice is saved and tested. -/
def tbtStart (u : Nat) (s : State) : State :=
  let r := tget 0 s.tbtNext u
  if !s.flag rEL_REPAIR EL_REPAIR_TBT || 0x500 ≤ u || (u < 0x400 && !coreIdOk u) || (s.tbt.any fun x => x.1 == u) ||
      regionWanted s u r then s
  else { s with tbt := s.tbt ++ [(u, r)] }

/-- A fault that a test finds in macro `m` at array word `w` (R462): each macro has 4 spare columns (R459). -/
def tbtFault (u m w : Nat) (s : State) : State :=
  let key := u * 65536 + m
  let n := tget 0 s.spares key
  let st := if u < 0x400 then 0 else 7
  if s.flag rEL_REPAIR EL_REPAIR_SOFT && decide (n < 4) then
    (logErr .tbtRepair u st w 0 0 0 false { s with spares := tset key (n + 1) s.spares }).countSat rEL_TBT EL_TBT_REPAIRED 1
  else logErr .tbtHard u st w 0 0 0 false s

/-- The saved words of a region are read, corrected where they can be, and restored (R446, R462). -/
def tbtRestore (u r : Nat) (s : State) : State :=
  if u < 0x400 then
    each (fun i s => each (fun k s => fixCore u k (if eccUnc (tget 0 (s.core u).flips k) then s else logCore u k s)) (coreKeys s u i) s)
      ((List.range 256).map fun j => r * 256 + j) s
  else
    each (fun (l : SLine) s => upto (fun j s => fixWord (l.line * 32 + j) s) 32 (logFixed l.line 32 s))
      ((s.slice (u - 0x400)).lines.filter fun l => (l.set * 16 + l.way) / 32 == r) s

/-- TBT_REGION_END (R461, R462): faults found, as (macro, array word); the region is restored and released. -/
def tbtEnd (u : Nat) (faults : List (Nat × Nat)) (s : State) : State :=
  match s.tbt.find? fun x => x.1 == u with
  | none => s
  | some (_, r) =>
    let s := each (fun (x : Nat × Nat) s => tbtFault u x.1 x.2 s) faults s
    let s := tbtRestore u r s
    let s := s.setReg rEL_TBT (fincr (s.reg rEL_TBT) EL_TBT_REGIONS 1)
    wake { s with tbt := s.tbt.filter (fun x => x.1 != u), tbtNext := tset u ((r + 1) % 256) s.tbtNext }

/-- BANK_RETIRE: a write of SC_BRETk (R467). -/
def opBret (o : Origin) (st k : Nat) (v : Word) (s : State) : State :=
  regWrite o (rSC_BRET st k) (fun _ => decide (st < 16) && decide (k < 4)) (fun s => typedWrite s (rSC_BRET st k) v) s

end Sys2Proof.Machine
end

