-- ==== Sys2Proof/Machine/Restart.lean ====
section
/-! DEFINITION. Cold and warm resets (R26, R375, R379, R474, R481, R484, R500, R511, R527), and the vault wipe. -/

namespace Sys2Proof.Machine

/-- Keys zeroed and vault wiped (R484): every key in the memory controllers and ports, the licences, the staging area. -/
def vaultWipe (s : State) : State :=
  let s := s.setReg rCK_KEYS 0
  let s := upto (fun p s => (s.setFld (rHW_KEYS p) HW_KEYS_LOADED 0).modPort p fun x => { x with keyPend := 0 }) 8 s
  let s := { s with regs := s.regs.filter fun x => !(decide (rCK_STAGING 0 ≤ x.1) && decide (x.1 < rCK_STAGING 8192)) }
  let s := s.setFlag rCK_STAT CK_STAT_ID_OK false
  { s with cleat := { s.cleat with lics := [], wiping := true }, ciph := [] }

/-- Registers that a cold reset keeps (R500): fuses, the calendar, the Spillway's latched fields, PWR_HIST. -/
def keepCold (a : Nat) : Bool :=
  (decide (0x50000 ≤ a) && decide (a < 0x60000) && a != rFU_LICENCE) || (decide (0x30000 ≤ a) && decide (a < 0x40000)) ||
    (decide (rSPW 0 ≤ a) && decide (a < rSPW 4)) || a == rPWR_HIST

/-- Registers that a warm reset keeps besides (R26, R473, R481, R375, R485): the islands' CYCLE counters, the memory keys, MEAS, the
tamper cause, the identity, the ports' keys and SEQ counters. -/
def keepWarm (a : Nat) : Bool :=
  keepCold a || (decide (0x10 ≤ a) && decide (a ≤ 0x38)) || a == rCK_KEYS || a == rCK_TAMPER ||
    (decide (rDEV_ID 0 ≤ a) && decide (a < rMEAS 8 0)) ||
    (List.range 8).any fun p => a == rHW_KEYS p || a == rHW_TXSEQ p

/-- A port whose counters start from their reservation marks (R474). -/
def portFromMarks (s : State) (p : Nat) : Port :=
  let m := fun k => tget 0 s.flash.marks (4 * p + k)
  { Port.reset with snd := m 0, base := m 0, linkc := m 1, rx := m 2 }

/-- The fuse-loaded DEAD marks of the routers, which no reset changes (R349, R365). -/
def deadMarks (s : State) : Tab Word :=
  s.regs.filterMap fun x =>
    if rRT_CFG 0 ≤ x.1 ∧ x.1 < rRT_CFG 704 ∧ fbit x.2 RT_CFG_DEAD = true then some (x.1, fsetB 0 RT_CFG_DEAD true) else none

/-- Chip state that neither reset keeps, around registers `regs`. -/
def bare (s : State) (regs : Tab Word) : State :=
  { State.reset with pending := s.pending, free := s.free, rsp := s.rsp, regs := each (fun x t => tset x.1 x.2 t) (deadMarks s) regs, memEpoch := s.memEpoch, flash := s.flash,
                     board := s.board, spwTo := s.spwTo }

/-- COLD RESET (R500): flash, fuses, calendar and Spillway stay; the vault is wiped, memory contents are gone, the ports'
counters start from their marks, every Spillway closes, and bring-up starts at step 1. -/
def coldReset (s : State) : State :=
  let t := bare s (s.regs.filter fun x => keepCold x.1)
  let t := { t with memEpoch := s.memEpoch + 1, cleat := { Cleat.reset with wiping := true } }
  let t := upto (fun p t => (t.setPort p (portFromMarks s p)).setReg (rHW_TXSEQ p) (n64 (tget 0 s.flash.marks (4 * p)))) 8 t
  spwCloseAll 2 t

/-- Are the converters on (R511-R513, R517). -/
def powered (s : State) : Bool := s.board.vin && s.board.aux && s.board.charged && !s.board.trip

/-- WARM RESET (R500): the counters of the islands, memory contents, memory keys, MEAS and TAMPER stay as well; the Ledger and
Gauge regions are cleared at step 10; core memory is unspecified.  A chip without power is in reset already. -/
def warmReset (s : State) : State :=
  if !powered s then s
  else
  let t := bare s (s.regs.filter fun x => keepWarm x.1)
  let t := { t with
    mem := s.mem, badw := s.badw, ciph := s.ciph, ledger := s.ledger, anchors := s.anchors, zeroed := s.zeroed
    coreTick := s.coreTick
    cores := s.cores.map fun (x : Nat × Core) => (x.1, { Core.reset with cycOff := x.2.cycOff, spadEpoch := x.2.spadEpoch + 1 })
    cleat := { s.cleat with cmd := none, svn := [] }
    ports := s.ports.map fun (x : Nat × Port) => (x.1, { Port.reset with linkc := x.2.linkc, rx := x.2.rx, keyPend := x.2.keyPend })
    boot := if s.boot = 1 then 1 else 2, bootWarm := s.boot != 1, bootStart := (s.reg (0x30)).toNat }
  let t := t.setFlag rCK_STAT CK_STAT_TAMPER (s.flag rCK_STAT CK_STAT_TAMPER)
  spwCloseAll 3 t

/-- Does something hold the chip in warm reset: MOD_RESET_N low, or EXTEST or EXTEST_PULSE loaded (R500, R527). -/
def heldInReset (s : State) : Bool := s.board.modReset || s.board.ir == 0x00 || s.board.ir == 0x0C

/-- COLD_RESET: a write of HG_RESET.COLD (R494, R500). -/
def opColdReset (o : Origin) (h : Nat) (s : State) : State := regWrite o (rHG_RESET h) (fun _ => decide (h < 2)) coldReset s

/-- WARM_RESET: a write of HG_RESET.WARM. -/
def opWarmReset (o : Origin) (h : Nat) (s : State) : State := regWrite o (rHG_RESET h) (fun _ => decide (h < 2)) warmReset s

/-- A write of HG_RESET: COLD before WARM. -/
def opHgReset (o : Origin) (h : Nat) (v : Word) (s : State) : State :=
  if fbit v HG_RESET_COLD then opColdReset o h s
  else if fbit v HG_RESET_WARM then opWarmReset o h s
  else regWrite o (rHG_RESET h) (fun _ => decide (h < 2)) (fun s => s) s

/-- A write of TT_CTL (R397, R417, R422): a warm reset, else DOWN, else TRAIN. -/
def opTtCtl (o : Origin) (v : Word) (s : State) : State :=
  regWrite o rTT_CTL (fun _ => true) (fun s =>
    let s := typedWrite s rTT_CTL v
    if fbit v TT_CTL_WRESET then warmReset s
    else if fbit v TT_CTL_DOWN then ttDown s
    else if fbit v TT_CTL_TRAIN then ttTrain s
    else s) s

/-- TT_CTL written with its own fields and one action bit. -/
def ttCtlWith (s : State) (f : Fld) : Word := fsetB (s.reg rTT_CTL) f true

/-- TT_TRAIN. -/
def opTtTrain (o : Origin) (s : State) : State := opTtCtl o (ttCtlWith s TT_CTL_TRAIN) s
/-- TT_DOWN. -/
def opTtDown (o : Origin) (s : State) : State := opTtCtl o (ttCtlWith s TT_CTL_DOWN) s
/-- TT_WRESET. -/
def opTtWreset (o : Origin) (s : State) : State := opTtCtl o (ttCtlWith s TT_CTL_WRESET) s

/-- MOD_RESET_N_LOW (R500). -/
def modResetLow (s : State) : State := warmReset { s with board := { s.board with modReset := true } }

/-- MOD_RESET_N_HIGH (R500): the reset is no longer held. -/
def modResetHigh (s : State) : State := { s with board := { s.board with modReset := false } }

end Sys2Proof.Machine
end

