-- ==== Sys2Proof/Machine/Trust.lean ====
section
/-! DEFINITION. The Cleat (R469-R488): RSASSA-PSS verification, signed objects, firmware images, measurements, the life
cycle, licences, key blobs, debug unlock, attestation, tamper events and the commands of CK_CMD.  What needs a private key
is a free value (log 49). -/

namespace Sys2Proof.Machine

/-! RSASSA-PSS (R469; PRESUMED from PKCS #1 v2.2, log 46). -/

/-- The number that bytes spell, most significant first. -/
def beNat (bs : List Byte) : Nat := bs.foldl (fun a b => a * 256 + b.toNat) 0

/-- `n` bytes of a number, most significant first. -/
def beBytesOf (n x : Nat) : List Byte := (leBytes n x).reverse

/-- Square `k` times modulo `m`. -/
def sqMod (m : Nat) : Nat → Nat → Nat
  | 0, x => x % m
  | k + 1, x => sqMod m k (x * x % m)

/-- RSA with the public exponent 65,537. -/
def rsaPub (m x : Nat) : Nat := sqMod m 16 x * x % m

/-- MGF1 with SHA-256: `n` blocks from counter `i`. -/
def mgf1 (seed : List Byte) : Nat → Nat → List Byte
  | 0, _ => []
  | n + 1, i => sha256 (seed ++ beBytesOf 4 i) ++ mgf1 seed n (i + 1)

/-- RSASSA-PSS verification for a 3072-bit modulus, SHA-256 and a 32-byte salt. -/
def pssOk (mod msg sig : List Byte) : Bool :=
  let n := beNat mod
  let x := beNat sig
  if n < 2 ^ 3071 ∨ n ≤ x ∨ sig.length ≠ 384 then false
  else
    let em := beBytesOf 384 (rsaPub n x)
    let mdb := em.take 351
    let h := (em.drop 351).take 32
    let mask := (mgf1 h 11 0).take 351
    let db := (mdb.zip mask).map fun y => y.1 ^^^ y.2
    let db := match db with | b :: r => (b &&& 0x7F#8) :: r | [] => []
    decide (em.getLast? = some 0xBC#8) && decide ((mdb.getD 0 0) < 0x80#8) &&
      (db.take 318).all (fun b => b == 0) && db.getD 318 0 == 1 &&
      sha256 (List.replicate 8 0 ++ sha256 msg ++ db.drop 319) == h

/-! Registers of 256 bits and the staging area. -/

/-- 32 bytes held in four registers. -/
def reg256 (s : State) (a : Nat) : List Byte := ((List.range 4).map fun w => leBytes 8 (s.reg (a + 8 * w)).toNat).flatten

/-- Store 32 bytes in four registers. -/
def setReg256 (a : Nat) (bs : List Byte) (s : State) : State :=
  upto (fun w s => s.setReg (a + 8 * w) (n64 (leNat ((bs.drop (8 * w)).take 8)))) 4 s

/-- `n` bytes of the staging area from offset `off`. -/
def staged (s : State) (off n : Nat) : List Byte :=
  (((List.range ((off + n + 7) / 8 - off / 8)).map fun i => leBytes 8 (s.reg (rCK_STAGING (off / 8 + i))).toNat).flatten.drop
    (off % 8)).take n

/-- Write bytes to the staging area, whole words from an aligned offset. -/
def stagePut (off : Nat) (bs : List Byte) (s : State) : State :=
  upto (fun i s => s.setReg (rCK_STAGING (off / 8 + i)) (n64 (leNat ((bs.drop (8 * i)).take 8)))) ((bs.length + 7) / 8) s

/-- Bytes of a list. -/
def sub (b : List Byte) (off n : Nat) : List Byte := (b.drop off).take n
/-- Little-endian number in a list. -/
def num (b : List Byte) (off n : Nat) : Nat := leNat (sub b off n)
/-- Are bytes all 0. -/
def zeros (b : List Byte) : Bool := b.all fun x => x == 0

/-! Life cycle (R482). -/

/-- RESULT codes (R488). -/
abbrev ckOK : Nat := 0
abbrev ckFORMAT : Nat := 1
abbrev ckLC : Nat := 2
abbrev ckREVOKED : Nat := 3
abbrev ckSIGNER : Nat := 4
abbrev ckSIG : Nat := 5
abbrev ckDEVICE : Nat := 6
abbrev ckTIME : Nat := 7
abbrev ckROLLBACK : Nat := 8
abbrev ckDIGEST : Nat := 9
abbrev ckSTATE : Nat := 10
abbrev ckREAD : Nat := 11
abbrev ckTAMPER : Nat := 12
abbrev ckNO_ID : Nat := 13

/-- The life-cycle state code. -/
def lcState (s : State) : Nat := s.fld rFU_LC FU_LC_STATE

/-- Fuse pattern of a state; SCRAPPED blows every bit (log 49). -/
def lcBits (c : Nat) : Nat := if c < 5 then 2 ^ c - 1 else 0x3F

/-- The next state that a token may name (R482). -/
def lcNext (c : Nat) : Nat := if c = 1 then 2 else if c = 2 then 3 else if c = 3 then 4 else 0

/-- IDK's modulus (R470). -/
def idkMod : List Byte := (List.range 384).map Config.idkByte
/-- AK's modulus in a state. -/
def akMod (lc : Nat) : List Byte := (List.range 384).map (Config.akByte lc)

/-- The calendar's seconds. -/
def calSec (s : State) : Nat := s.fld rCAL_TIME CAL_TIME_SEC

/-- The Cleat reads the calendar (R476): CAL_OK, and the highest second read. -/
def calRead (s : State) : State :=
  let ok := s.flag rCAL_CTL CAL_CTL_VALID && decide (s.flash.cal ≤ calSec s)
  let s := s.setFlag rCK_STAT CK_STAT_CAL_OK ok
  if ok then { s with flash := { s.flash with cal := calSec s } } else s

/-! Signed objects (R475, R476). -/

/-- A signed object's fields. -/
structure Obj where
  magic : Nat
  typ : Nat
  signer : Nat
  blen : Nat
  dev : List Byte
  serial : Nat
  nb : Nat
  na : Nat
  mod : List Byte
  body : List Byte
  sig : List Byte
  signed : List Byte
  deriving DecidableEq, Repr

/-- BLEN of each TYPE (R476). -/
def objBlen (typ : Nat) : Nat := if typ = 1 then 16 else if typ = 2 ∨ typ = 5 then 400 else 48

/-- The object that bytes spell. -/
def objOf (b : List Byte) : Obj :=
  let n := num b 6 2
  { magic := num b 0 4, typ := num b 4 1, signer := num b 5 1, blen := n, dev := sub b 8 32, serial := num b 0x28 8,
    nb := num b 0x30 8, na := num b 0x38 8, mod := sub b 0x40 384, body := sub b 0x1C0 n, sig := sub b (0x1C0 + n) 384,
    signed := b.take (0x1C0 + n) }

/-- The object at an offset of the staging area. -/
def stagedObj (s : State) (off : Nat) : List Byte :=
  let n := leNat (staged s (off + 6) 2)
  staged s off (448 + min n 1024 + 384)

/-- Is a body legal for its TYPE (R476): a token's CHAL and TARGET belong to its legality (R482, R486; log 49). -/
def bodyLegal (s : State) (o : Obj) : Bool :=
  let b := o.body
  match o.typ with
  | 1 => [512, 576, 640].contains (num b 0 2) && decide (num b 2 1 ≤ 4) && decide (num b 3 1 ≤ 3) && zeros (b.drop 4)
  | 2 => decide (num b 0 1 ≤ 8) && zeros (sub b 2 14)
  | 3 => decide (1 ≤ num b 0 1) && decide (num b 0 1 ≤ 3) && zeros (sub b 1 15) && sub b 16 32 == reg256 s (rDBG_CHAL 0)
  | 4 => num b 0 1 == lcNext (lcState s) && decide (num b 0 1 ≠ 0) && zeros (sub b 1 15) && (num b 0 1 == 3 || zeros (sub b 16 32))
  | 5 => decide (num b 0 1 ≤ 5) && zeros (sub b 1 15)
  | _ => false

/-- FORMAT (R475, R476). -/
def objFormat (s : State) (o : Obj) : Bool :=
  o.magic == 0x4F534753 && decide (1 ≤ o.typ) && decide (o.typ ≤ 5) && decide (o.signer ≤ 5) && o.blen == objBlen o.typ &&
    o.serial != 0 && decide (o.nb < 2 ^ 40) && decide (o.na < 2 ^ 40) && bodyLegal s o

/-- Is TYPE legal in the life-cycle state (R483); a debug token also by its LEVEL (R486; log 49). -/
def objLc (lc : Nat) (o : Obj) : Bool :=
  match o.typ with
  | 1 => lc == 2 || lc == 3 || lc == 4
  | 2 => lc == 2 || lc == 3
  | 3 => lc == 2 || lc == 4 || (lc == 3 && decide (num o.body 0 1 ≤ (if o.signer = 4 then 2 else 1)))
  | 4 => lc == 1 || lc == 2 || lc == 3
  | _ => lc == 2 || lc == 3 || lc == 4

/-- Is SIGNER allowed for TYPE (R482, R483). -/
def objSigner (lc : Nat) (o : Obj) : Bool :=
  let vendor := decide (o.signer ≤ 3)
  match o.typ with
  | 1 => vendor
  | 2 => if lc = 3 then o.signer == 4 else vendor
  | 3 => vendor || (lc == 3 && o.signer == 4)
  | 4 => if lc = 3 then o.signer == 4 else vendor
  | _ => o.signer == 5

/-- Is a vendor root fused and not revoked. -/
def rootOk (s : State) (r : Nat) : Bool := bit (s.fld rFU_ROOT FU_ROOT_VALID) r && !bit (s.fld rFU_ROOT FU_ROOT_REVOKED) r

/-- The hash that a signer's modulus must have. -/
def signerHash (s : State) (r : Nat) : List Byte :=
  if r ≤ 3 then reg256 s (rFU_ROOTHASH r 0) else if r = 4 then reg256 s (rFU_OWNER 0) else sha256 idkMod

/-- Does the chip lack the identity that a check needs (R470, R488 NO_ID); in RAW and TEST there is none to check against. -/
def noId (s : State) : Bool := !s.flag rCK_STAT CK_STAT_ID_OK && decide (2 ≤ lcState s)

/-- The checks of R476 in their order; 0 when every one passes.  The Cleat has just read the calendar. -/
def objCheck (s : State) (o : Obj) : Nat :=
  let lc := lcState s
  if !objFormat s o then ckFORMAT
  else if !objLc lc o then ckLC
  else if !objSigner lc o || (decide (o.signer ≤ 3) && !rootOk s o.signer) then ckREVOKED
  else if o.signer = 5 ∧ noId s = true then ckNO_ID
  else if sha256 o.mod ≠ signerHash s o.signer then ckSIGNER
  else if !pssOk o.mod o.signed o.sig then ckSIG
  else if noId s then ckNO_ID
  else if o.dev ≠ reg256 s (rDEV_ID 0) then ckDEVICE
  else if o.nb = 0 ∧ o.na = 0xFFFFFFFFFF then ckOK
  else if s.flag rCK_STAT CK_STAT_CAL_OK && decide (o.nb ≤ calSec s) && decide (calSec s < o.na) then ckOK
  else ckTIME

/-! Licences and key blobs (R473, R474, R477). -/

/-- The licence that an accepted object carries. -/
def licOf (b : List Byte) : Lic :=
  let o := objOf b
  { serial := o.serial, notBefore := o.nb, notAfter := o.na, cores := num o.body 0 2, dims := num o.body 2 1, feat := num o.body 3 1, obj := b }

/-- The licence with the highest SERIAL. -/
def topLic : List Lic → Option Lic
  | [] => none
  | l :: r => match topLic r with
    | none => some l
    | some m => if l.serial < m.serial then some m else some l

/-- Keep at most 8 licences: the one with the lowest SERIAL goes (log 49). -/
def keepEight (ls : List Lic) : List Lic :=
  if ls.length ≤ 8 then ls
  else
    let lo := ls.foldl (fun m l => min m l.serial) (2 ^ 64)
    ls.filter fun l => l.serial != lo

/-- Accept a licence: vault and flash. -/
def acceptLic (b : List Byte) (s : State) : State :=
  let l := licOf b
  let ls := keepEight ((s.cleat.lics.filter fun k => k.serial != l.serial) ++ [l])
  { s with cleat := { s.cleat with lics := ls }, flash := { s.flash with lics := ls.map fun l => l.obj } }

/-- Load slot `k`'s key into a port (R473). -/
def loadKey (p k : Nat) (s : State) : State :=
  if hwState s p = hwDOWN ∨ hwState s p = hwFAILED then
    s.setFld (rHW_KEYS p) HW_KEYS_LOADED (s.fld (rHW_KEYS p) HW_KEYS_LOADED ||| 2 ^ k)
  else s.modPort p fun x => { x with keyPend := x.keyPend ||| 2 ^ k }

/-- Load an accepted key blob into the ports of its PORTS mask. -/
def loadBlob (b : List Byte) (s : State) : State :=
  let o := objOf b
  upto (fun p s => if bit (num o.body 1 1) p then loadKey p (num o.body 0 1) s else s) 8 s

/-- Checks of a key blob: those of R476, and its decryption under TK (log 49). -/
def blobCheck (s : State) (b : List Byte) : Nat :=
  let c := objCheck s (objOf b)
  if c ≠ 0 then c
  else if Config.oaepOk (lcState s) (sub (objOf b).body 16 384) then ckOK else ckFORMAT

/-- Accept a key blob: the newest of its slot stays in flash, its key goes to the ports. -/
def acceptBlob (b : List Byte) (s : State) : State :=
  loadBlob b { s with flash := { s.flash with blobs := tset (num (objOf b).body 0 1) b s.flash.blobs } }

/-! Firmware images and measurements (R479-R481). -/

/-- MEASm := SHA-256(MEASm ‖ x). -/
def extend (m : Nat) (x : List Byte) (s : State) : State :=
  setReg256 (rMEAS m 0) (sha256 (reg256 s (rMEAS m 0) ++ x)) s

/-- FU_SVN field of a kind. -/
def svnFld (k : Nat) : Fld := if k = 0 then FU_SVN_HG else if k = 1 then FU_SVN_CORE else if k = 2 then FU_SVN_SLUICE else FU_SVN_CLEAT

/-- LEN of an image header. -/
def imgLen (h : List Byte) : Nat := num h 8 8

/-- The checks of R480 on a header and, when it can be read, a body. -/
def imageCheck (s : State) (h : List Byte) (body : Option (List Byte)) : Nat :=
  let kind := num h 4 1
  let root := num h 5 1
  if num h 0 4 ≠ 0x4D494753 ∨ 3 < kind ∨ 3 < root ∨ 63 < num h 6 1 ∨ imgLen h = 0 ∨ 2 ^ 28 < imgLen h ∨ zeros (h.drop 0x350) = false then
    ckFORMAT
  else if !rootOk s root then ckREVOKED
  else if sha256 (sub h 0x50 384) ≠ signerHash s root then ckSIGNER
  else if !pssOk (sub h 0x50 384) (h.take 0x1D0) (sub h 0x1D0 384) then ckSIG
  else if zeros (sub h 0x10 32) = false ∧ noId s = true then ckNO_ID
  else if zeros (sub h 0x10 32) = false ∧ sub h 0x10 32 ≠ reg256 s (rDEV_ID 0) then ckDEVICE
  else if !bit (num h 7 1) (lcState s) || lcState s == 5 then ckLC
  else if num h 6 1 < s.fld rFU_SVN (svnFld kind) then ckROLLBACK
  else match body with
    | none => ckREAD
    | some b => if sha256 b = sub h 0x30 32 then ckOK else ckDIGEST

/-- The header's part that is measured. -/
def imgMeas (h : List Byte) : List Byte := sha256 (h.take 0x350)

/-- An image passes: its kind's register is extended and its SVN kept for COMMIT_SVN (R480). -/
def imagePass (h : List Byte) (s : State) : State :=
  let k := num h 4 1
  extend (k + 1) (imgMeas h) { s with cleat := { s.cleat with svn := tset k (num h 6 1) s.cleat.svn } }

/-- Bytes of an image in HBM3E chip frames, none where a frame is not one or data are uncorrectable (R480). -/
def chipBytes (s : State) (pa n : Nat) : Option (List Byte) :=
  if isHbm (pa + n - 1) && (List.range (lineSpan pa n)).all (fun i => (s.le (frameOf ((pa / 128 + i) * 128))).chip) &&
      (badIn s 8 pa n).isNone then
    some (s.rdBytes pa n)
  else none

/-! Commands (R488). -/

/-- VERIFY (R480). -/
def ckVerify (s : State) : Nat × State :=
  let pa := s.fld rCK_ADDR CK_ADDR_ADDR
  match chipBytes s pa 1024 with
  | none => (ckREAD, s)
  | some h =>
    let c := imageCheck s h (chipBytes s (pa + 1024) (min (imgLen h) (2 ^ 28)))
    (c, if c = 0 then imagePass h s else s)

/-- COMMIT_SVN (R480): no image of the kind has passed, or no such kind: STATE or FORMAT (log 49). -/
def ckCommit (kind : Nat) (s : State) : Nat × State :=
  if 3 < kind then (ckFORMAT, s)
  else match tget? kind s.cleat.svn with
    | none => (ckSTATE, s)
    | some v => (ckOK, s.setFld rFU_SVN (svnFld kind) (max v (s.fld rFU_SVN (svnFld kind))))

/-- INSTALL (R473, R476, R477): a licence or a key blob. -/
def ckInstall (s : State) : Nat × State :=
  let s := calRead s
  let b := stagedObj s 0
  let o := objOf b
  if o.typ ≠ 1 ∧ o.typ ≠ 2 then (ckFORMAT, s)
  else if o.typ = 1 then
    let c := objCheck s o
    (c, if c = 0 then acceptLic b s else s)
  else
    let c := blobCheck s b
    (c, if c = 0 then acceptBlob b s else s)

/-- A signature by a key of the Cleat. -/
def signed (key : Nat) (msg : List Byte) (s : State) : List Byte × State :=
  ((List.range 384).map (Config.signByte key (lcState s) msg s.free), { s with free := s.free + 1 })

/-- ATTEST (R487). -/
def ckAttest (s : State) : Nat × State :=
  let lc := lcState s
  let s := calRead s
  if lc < 2 ∨ (noId s = true ∧ lc ≠ 5) then (ckNO_ID, s)
  else
    let s := { s with cleat := { s.cleat with reports := s.cleat.reports + 1 } }
    let ls := s.cleat.lics
    let first := match topLic ls with
      | some l => l.serial :: ((ls.filter fun (k : Lic) => k.serial != l.serial).map fun (k : Lic) => k.serial)
      | none => []
    let flags := b2n (s.fld rCHIP_INFO CHIP_INFO_STATE == 2) + 2 * b2n (s.flag rCK_STAT CK_STAT_TAMPER) +
      4 * b2n (decide (2 ≤ s.fld rCK_DEBUG CK_DEBUG_LEVEL)) + 8 * b2n (s.flag rCK_STAT CK_STAT_LIC_EXP)
    let cal := if s.flag rCK_STAT CK_STAT_CAL_OK then bits (s.reg rCAL_TIME).toNat 54 0 else 0
    let r := leBytes 4 0x54414753 ++ leBytes 2 1 ++ leBytes 1 lc ++ leBytes 1 ls.length ++ leBytes 8 cal ++
      leBytes 8 s.cleat.reports ++ leBytes 8 flags ++ reg256 s (rDEV_ID 0) ++ staged s 0 32 ++
      ((List.range 8).map fun m => reg256 s (rMEAS m 0)).flatten ++
      ((List.range 8).map fun i => leBytes 8 (first.getD i 0)).flatten ++ List.replicate 96 0
    let (sig, s) := if lc = 5 then (List.replicate 384 0, s) else signed 0 r s
    (ckOK, stagePut 0x1000 (r ++ sig) s)

/-- Key of bytes whose key is gone: no access has it again. -/
abbrev lostKey : Nat := 9

/-- What lies in partition `p`'s frames, and what lies hidden in memory under its key, has lost its key (R472). -/
def loseKey (p : Nat) (s : State) : State :=
  let cur := s.mem.filter fun c => let e := s.le (frameOf c.1); e.owner == p && !e.chip
  let fs := (cur.map fun c => frameOf c.1).eraseDups
  { s with
    mem := s.mem.filter (fun c => let e := s.le (frameOf c.1); !(e.owner == p && !e.chip))
    memEpoch := s.memEpoch + 1
    ciph := (s.ciph.map fun x => if x.2.1 = p then (x.1, lostKey, x.2.2) else x) ++
      fs.map fun f => (f, lostKey, cur.filter fun c => frameOf c.1 == f) }

/-- MEMKEY (R472): a new random key; what lies in the partition's frames decrypts to unrelated values with no error from now on. -/
def ckMemkey (p : Nat) (s : State) : Nat × State :=
  if 8 ≤ p then (ckFORMAT, s)
  else if s.fld (rPT_STAT p) PT_STAT_STATE ≠ 0 then (ckSTATE, s)
  else (ckOK, (loseKey p s).setFld rCK_KEYS CK_KEYS_MEM (s.fld rCK_KEYS CK_KEYS_MEM ||| 2 ^ p))

/-- The authority of a transition (R482): 0 when it may go on. -/
def transCheck (target : Nat) (s : State) : Nat :=
  let lc := lcState s
  if target = 5 ∨ (lc = 0 ∧ target = 1) then ckOK
  else if lcNext lc ≠ target ∨ target = 0 then ckLC
  else
    let o := objOf (stagedObj s 0)
    if o.typ ≠ 4 then ckFORMAT else objCheck s o

/-- TRANSITION (R482): token, vault wipe, fuses, cold reset; stored key blobs are erased (R474). -/
def ckTransition (target : Nat) (s : State) : Nat × State :=
  let s := calRead s
  let c := transCheck target s
  if c ≠ 0 then (c, s)
  else
    let owner := sub (objOf (stagedObj s 0)).body 16 32
    let s := vaultWipe s
    let s := (s.setFld rFU_LC FU_LC_STATE target).setFld rFU_LC FU_LC_BITS (lcBits target)
    let s := if target = 3 then setReg256 (rFU_OWNER 0) owner s else s
    (ckOK, coldReset { s with flash := { s.flash with blobs := [] } })

/-- A fresh debug challenge (R486). -/
def newChal (s : State) : State :=
  upto (fun w s => let (v, s) := s.fresh; s.setReg (rDBG_CHAL w) v) 4 s

/-- UNLOCK (R483, R486). -/
def ckUnlock (s : State) : Nat × State :=
  let lc := lcState s
  let s := calRead s
  if lc < 2 then (ckOK, newChal (s.setFld rCK_DEBUG CK_DEBUG_LEVEL 3))
  else
    let o := objOf (stagedObj s 0)
    let c := if o.typ ≠ 3 then ckFORMAT else objCheck s o
    (c, if c = 0 then newChal (s.setFld rCK_DEBUG CK_DEBUG_LEVEL (num o.body 0 1)) else s)

/-- AKCERT (R475, R487): the certificate of the current AK, signed by IDK; the manual gives no SERIAL and no window for it
(log 49). -/
def ckAkcert (s : State) : Nat × State :=
  let lc := lcState s
  if lc < 2 ∨ noId s = true then (ckNO_ID, s)
  else
    let (w, s) := s.fresh
    let (x, s) := s.fresh
    let (y, s) := s.fresh
    let b := leBytes 4 0x4F534753 ++ leBytes 1 5 ++ leBytes 1 5 ++ leBytes 2 400 ++ reg256 s (rDEV_ID 0) ++
      leBytes 8 (max 1 w.toNat) ++ leBytes 8 (x.toNat % 2 ^ 40) ++ leBytes 8 (y.toNat % 2 ^ 40) ++ idkMod ++
      leBytes 16 lc ++ akMod lc
    let (sig, s) := signed 1 b s
    (ckOK, stagePut 0x2000 (b ++ sig) s)

/-- EXTEND (R481). -/
def ckExtend (s : State) : Nat × State := (ckOK, extend 7 (staged s 0 32) s)

/-- Run a command: RESULT and the state.  In SCRAPPED only ATTEST runs (R482). -/
def ckRun (op arg : Nat) (s : State) : Nat × State :=
  if lcState s = 5 ∧ op ≠ 4 then (ckLC, s)
  else match op with
    | 1 => ckVerify s
    | 2 => ckCommit arg s
    | 3 => ckInstall s
    | 4 => ckAttest s
    | 5 => ckMemkey arg s
    | 6 => ckTransition arg s
    | 7 => ckUnlock s
    | 8 => ckAkcert s
    | _ => ckExtend s

/-- A write of CK_CMD (R488, R494): refused while BUSY. -/
def opCk (o : Origin) (op arg : Nat) (s : State) : State :=
  regWrite o rCK_CMD (fun s => !s.flag rCK_STAT CK_STAT_BUSY) (fun s =>
    if op = 0 ∨ 9 < op then s
    else { s.setFlag rCK_STAT CK_STAT_BUSY true with cleat := { s.cleat with cmd := some (op, arg) } }) s

/-- CK_CMD_DONE (R488): the running command's checks and effect, its RESULT, BUSY := 0. -/
def ckDone (s : State) : State :=
  match s.cleat.cmd with
  | none => s
  | some (op, arg) =>
    let (r, s) := ckRun op arg s
    ({ s with cleat := { s.cleat with cmd := none } }.setFld rCK_STAT CK_STAT_RESULT r).setFlag rCK_STAT CK_STAT_BUSY false

/-- TAMPER (R484, R485, R488): bit `cause` of CK_TAMPER; a command ends with RESULT TAMPER; keys and vault are wiped, every
Spillway closes, a warm reset starts. -/
def tamper (cause : Nat) (s : State) : State :=
  if 6 ≤ cause then s
  else
    let s := s.setFld rCK_TAMPER CK_TAMPER_CAUSE (s.fld rCK_TAMPER CK_TAMPER_CAUSE ||| 2 ^ cause)
    let s := (s.setFlag rCK_STAT CK_STAT_TAMPER true).hgEvents HG_EVENT_TAMPER
    let busy := s.cleat.cmd.isSome
    let s := { s with cleat := { s.cleat with cmd := none } }
    let ev := s.hgs
    let t := warmReset (spwCloseAll 6 (vaultWipe s))
    let t := upto (fun h t => t.setFlag (rHG_EVENT h) HG_EVENT_TAMPER true) 2 { t with hgs := ev.map fun (x : Nat × Hg) => (x.1, { Hg.reset with events := x.2.events }) }
    if busy then t.setFld rCK_STAT CK_STAT_RESULT ckTAMPER else t

/-- VAULT_WIPE_DONE (R484). -/
def vaultWipeDone (s : State) : State := { s with cleat := { s.cleat with wiping := false } }

/-- LICENCE_EXPIRY (R478): the effective licence's NOT_AFTER has passed. -/
def licenceExpiry (s : State) : State :=
  let n := s.reg rCK_LIC
  match s.cleat.lics.find? fun l => n64 l.serial == n with
  | some l =>
    if l.notAfter ≠ 0xFFFFFFFFFF ∧ l.notAfter ≤ calSec s ∧ s.flag rCAL_CTL CAL_CTL_VALID = true ∧ n ≠ 0 then
      (s.setFlag rCK_STAT CK_STAT_LIC_EXP true).hgEvents HG_EVENT_LIC
    else s
  | none => s

/-! Reservation marks (R474). -/

/-- The value of a port's counter: direction 0 sends, 1 receives; counter 0 SEQ, 1 LINK frames. -/
def markCounter (s : State) (p dir k : Nat) : Nat :=
  if dir = 1 then (if k = 0 then (s.port p).rx else 0)
  else if k = 0 then (s.reg (rHW_TXSEQ p)).toNat else (s.port p).linkc

/-- SEQ_MARK_WRITE (R474): a counter within 2^31 of its mark has a new mark written, 2^32 higher. -/
def seqMarkWrite (p dir k : Nat) (s : State) : State :=
  let key := 4 * p + 2 * dir + k
  if 8 ≤ p ∨ 2 ≤ dir ∨ 2 ≤ k ∨ lhas key s.flash.markOut = true ∨ markCounter s p dir k + 2 ^ 31 < tget 0 s.flash.marks key then s
  else { s with flash := { s.flash with markOut := key :: s.flash.markOut } }

/-- SEQ_MARK_WRITTEN (R474): the mark lies in the flash, and a port that had stopped goes on. -/
def seqMarkWritten (p dir k : Nat) (s : State) : State :=
  let key := 4 * p + 2 * dir + k
  if lhas key s.flash.markOut then
    ringPump (portSend p { s with flash := { s.flash with
      markOut := ldrop key s.flash.markOut, marks := tset key (tget 0 s.flash.marks key + 2 ^ 32) s.flash.marks } })
  else s

end Sys2Proof.Machine
end

