-- ==== Sys2Proof/Machine/Bringup.lean ====
section
/-! DEFINITION. Bring-up (R459, R477, R489-R491, R496) and mastership (R492-R495). -/

namespace Sys2Proof.Machine

/-! The lease. -/

/-- CYCLE of a Headgate island. -/
def hgCycle (s : State) (h : Nat) : Nat := (s.reg (0x30 + 8 * h)).toNat

/-- EPOCH that a Headgate holds. -/
def epoch (s : State) (h : Nat) : Nat := s.fld (rHG_LEASE h) HG_LEASE_EPOCH

/-- A Headgate takes a role; one that becomes FOLLOWER counts from now to its first renewal (R492; DEDUCED, log 50). -/
def setRole (h r : Nat) (s : State) : State :=
  let s := s.setFld (rHG_STAT h) HG_STAT_ROLE r
  if r = 1 then s.modHgx h fun x => { x with renew := hgCycle s h } else s

/-- A Headgate takes an epoch and its holder (1 west, 2 east). -/
def setLease (h e holder : Nat) (s : State) : State :=
  (s.setFld (rHG_LEASE h) HG_LEASE_EPOCH e).setFld (rHG_LEASE h) HG_LEASE_HOLDER holder

/-- Is the sideband up. -/
def sbUp (s : State) : Bool := s.flag rCHIP_INFO CHIP_INFO_SPLICE_SB

/-- A Headgate claims the lease (R492): it is MASTER, and the claim goes to its partner. -/
def claim (h e : Nat) (s : State) : State :=
  (setLease h e (h + 1) (setRole h 2 s)).modHgx (1 - h) fun x => { x with claims := x.claims ++ [e] }

/-- LEASE_RENEWAL (R492): the holder's renewal reaches its follower `h`. -/
def leaseRenewal (h : Nat) (s : State) : State :=
  if h ≤ 1 ∧ hgRole s h = 1 ∧ hgRole s (1 - h) = 2 ∧ sbUp s = true then
    (setLease h (epoch s (1 - h)) (2 - h) s).modHgx h fun x => { x with renew := hgCycle s h }
  else s

/-- LEASE_TIMEOUT (R492): TIMEOUT cycles of the follower's own island have passed with no renewal. -/
def leaseTimeout (h : Nat) (s : State) : State :=
  if h ≤ 1 ∧ hgRole s h = 1 ∧ sbUp s = true ∧ (s.hgx h).swap = false ∧
      s.fld (rHG_LEASE_CFG h) HG_LEASE_CFG_TIMEOUT ≤ hgCycle s h - (s.hgx h).renew then
    claim h (epoch s h + 1) s
  else s

/-- Both Headgates set CLAIM. -/
def claimEvents (s : State) : State := s.hgEvents HG_EVENT_CLAIM

/-- LEASE_CLAIM (R493): Headgate `h` resolves the oldest claim that has reached it. -/
def leaseClaim (h : Nat) (s : State) : State :=
  match (s.hgx h).claims with
  | [] => s
  | e :: r =>
    let s := s.modHgx h fun x => { x with claims := r }
    let own := epoch s h
    let wins := decide (own < e) || (e == own && (hgRole s h != 2 || h == 1))
    if wins then claimEvents (setLease h e (2 - h) (setRole h 1 s))
    else claimEvents (setLease (1 - h) own (h + 1) (setRole (1 - h) 1 s))

/-- LEASE_RELEASE (R492): the holder releases, and its follower claims at once. -/
def opLeaseRelease (o : Origin) (h : Nat) (s : State) : State :=
  regWrite o (rHG_LEASE h) (fun s => decide (h ≤ 1) && o == .hg h && hgRole s h == 2) (fun s =>
    let s := setRole h 1 s
    if sbUp s ∧ hgRole s (1 - h) = 1 then claim (1 - h) (epoch s h + 1) s else s) s

/-- A write of HG_LEASE: RELEASE is its only writable field. -/
def opHgLease (o : Origin) (h : Nat) (v : Word) (s : State) : State :=
  if fbit v HG_LEASE_RELEASE then opLeaseRelease o h s else regWrite o (rHG_LEASE h) (fun _ => true) (fun s => s) s

/-- SIDEBAND_DOWN (R495). -/
def sidebandDown (s : State) : State :=
  if !sbUp s then s
  else
    let s := s.setFlag rCHIP_INFO CHIP_INFO_SPLICE_SB false
    upto (fun h s => setRole h 3 ((s.setFlag (rHG_STAT h) HG_STAT_SB false).modHgx h fun x => { x with old := hgRole s h })) 2 s

/-- The outcome of R495's table once both Headgates have exchanged roles and epochs. -/
def settle (s : State) : State :=
  let w := epoch s 0
  let e := epoch s 1
  let other := fun r => if r = 2 then 1 else 2
  if w ≠ e then
    let hi := if e < w then 0 else 1
    let r := hgRole s hi
    let holder := if r = 2 then hi + 1 else 2 - hi
    let s := setRole (1 - hi) (other r) s
    setLease hi (max w e) holder (setLease (1 - hi) (max w e) holder s)
  else if hgRole s 0 = 2 ∧ hgRole s 1 = 2 then claimEvents (setLease 1 w 1 (setRole 1 1 s))
  else if hgRole s 0 = 1 ∧ hgRole s 1 = 1 then
    let p := if s.flag (rHG_STAT 0) HG_STAT_PRIMARY then 0 else 1
    claim p (w + 1) s
  else s

/-- SIDEBAND_UP (R491, R495): a Headgate still in SPLIT takes back its old role, NONE counting as FOLLOWER; they settle; a
measurement that HG-E held is extended. -/
def sidebandUp (s : State) : State :=
  if sbUp s then s
  else
    let s := s.setFlag rCHIP_INFO CHIP_INFO_SPLICE_SB true
    let s := upto (fun h s =>
      let s := (s.setFlag (rHG_STAT h) HG_STAT_SB true).modHgx h fun x => { x with renew := hgCycle s h }
      if hgRole s h = 3 then setRole h (if (s.hgx h).old = 2 then 2 else 1) s else s) 2 s
    let s := settle s
    match (s.hgx 1).meas with
    | some m => extend 1 m (s.modHgx 1 fun x => { x with meas := none })
    | none => s

/-! Bring-up. -/

/-- A step fails (R490): its cause, and the step that failed first. -/
def bootFail (n : Nat) (f : Option Fld) (s : State) : State :=
  upto (fun h s =>
    let s := match f with | some f => s.setFlag (rHG_DEGR h) f true | none => s
    if s.fld (rHG_DEGR h) HG_DEGR_STEP = 0 then s.setFld (rHG_DEGR h) HG_DEGR_STEP n else s) 2 s

/-- Has any cause of DEGRADED been recorded. -/
def bootBad (s : State) : Bool := s.fld (rHG_DEGR 0) ⟨7, 0⟩ != 0 || s.fld (rHG_DEGR 0) HG_DEGR_STEP != 0

/-- Is a core good (R3): in the fuse map's core map and not found bad. -/
def coreGood (s : State) (c : Nat) : Bool :=
  bit (s.reg (rFU_COREMAP (coreMaskBit c / 64))).toNat (coreMaskBit c % 64) && !(s.core c).dead

/-- Good cores, in the order of the core map. -/
def goodCores (s : State) : List Nat :=
  (List.range 704).filterMap fun b =>
    let c := b / 352 * 512 + b % 352 / 22 * 32 + b % 22
    if coreGood s c then some c else none

/-- The licences that the flash holds and that pass R476 now (R477). -/
def validLics (s : State) : List Lic :=
  if lcState s < 2 ∨ lcState s = 5 then []
  else (s.flash.lics.filter fun b => objCheck s (objOf b) == 0).map licOf

/-- Cores that must be enabled: the licence's, or every good one in RAW and TEST (R1, R3). -/
def wantCores (s : State) (l : Option Lic) : Nat :=
  if lcState s < 2 then (goodCores s).length
  else match l with | some l => l.cores | none => 0

/-- Too few good cores for a licence of `need` cores (R4, R496, R499). -/
def coresShort (s : State) (need : Nat) : Bool :=
  decide ((goodCores s).length < (if lcState s < 2 then 1 else need))

/-- The image of a kind in a bank of the flash, as header and body. -/
def flashImage (s : State) (kind bank : Nat) : Option (List Byte × List Byte) :=
  (tget? (2 * kind + bank) s.flash.img).map fun b => (b.take 1024, (b.drop 1024).take (imgLen b))

/-- Check the image of a kind in a bank: what passes is its measurement and SVN.  Of an image whose bytes the model does not
hold, `ok` says whether it passes, and its measurement is a free value (log 48). -/
def bootImage (kind bank : Nat) (ok : Bool) (s : State) : Option (List Byte × Nat) × State :=
  match flashImage s kind bank with
  | some (h, b) => (if imageCheck s h (some b) = 0 ∧ num h 4 1 = kind then some (imgMeas h, num h 6 1) else none, s)
  | none =>
    if !ok then (none, s)
    else
      let (a, s) := s.fresh
      let (b, s) := s.fresh
      let (c, s) := s.fresh
      let (d, s) := s.fresh
      (some (leBytes 8 a.toNat ++ leBytes 8 b.toNat ++ leBytes 8 c.toNat ++ leBytes 8 d.toNat, 0), s)

/-- A Headgate's ROM starts an image (R491): of the bank NEXT names, else of the other; if both fail it stays in ROM. -/
def hgStart (h : Nat) (ok : Bool) (s : State) : State :=
  let b := s.fld (rHG_FW h) HG_FW_NEXT
  let (r, s) := bootImage 0 b ok s
  let (r, b, s) := match r with
    | some x => (some x, b, s)
    | none => let (r', s) := bootImage 0 (1 - b) ok s; (r', 1 - b, s)
  match r with
  | some (m, svn) =>
    let s := (s.setFld (rHG_STAT h) HG_STAT_BANK b).setFld (rHG_STAT h) HG_STAT_SVN svn
    let s := s.modHgx h fun x => { x with rom := false }
    if h = 1 ∧ sbUp s = false then s.modHgx h fun x => { x with meas := some m } else extend 1 m s
  | none => s.modHgx h fun x => { x with rom := true }

/-- Values from the configuration region and the flash's own counts, before the lease is settled (R492, R506, R509; log 50). -/
def hgConfig (s : State) : State :=
  upto (fun h s =>
    let s := s.setReg (rHG_LEASE_CFG h) s.flash.lease
    let s := match tget? h s.flash.recal with | some v => s.setReg (rHG_RECAL h) v | none => s
    let m := s.flash.erases.foldl (fun m x => max m x.2) 0
    ((s.setFld (rHG_FLASH h) HG_FLASH_RETIRED s.flash.retired).setFld (rHG_FLASH h) HG_FLASH_SPARE s.flash.spare).setFld
      (rHG_FLASH h) HG_FLASH_MAXERASE m) 2 s

/-- Step 4: identity, chip memory key, calendar, and after a cold reset MEAS0, MEAS6 and the debug challenge (R470, R471,
R476, R481, R486). -/
def bootCleat (ok : Bool) (s : State) : State :=
  let lc := lcState s
  let id := ok && decide (2 ≤ lc)
  let s := s.setFlag rCK_STAT CK_STAT_ID_OK id
  let s := if id then setReg256 (rDEV_ID 0) (sha256 idkMod) s else s
  let s := if s.flag rCK_KEYS CK_KEYS_CHIP then s
    else { s with mem := s.mem.filter (fun c => !(s.le (frameOf c.1)).chip), zeroed := [] }.setFlag rCK_KEYS CK_KEYS_CHIP true
  let s := calRead s
  let s := if s.bootWarm then s
    else
      let s := extend 0 ((List.range 32).map Config.romByte) s
      newChal (extend 6 (leBytes 1 lc ++ reg256 s (rFU_OWNER 0)) s)
  if ok then s else bootFail 4 none s

/-- One macro that the SRAM self-test found faulty (R459): repairable or not, endpoint of its unit, and for a slice the way. -/
def bistFault (x : Nat × Nat × Nat) (s : State) : State :=
  let (k, u, w) := x
  if k = 0 ∧ s.flag rEL_REPAIR EL_REPAIR_SOFT = true then
    (logErr .bistRepair u 8 w 0 0 0 false s).countSat 0x20028 ⟨47, 32⟩ 1
  else
    let s := (logErr .bistFail u 8 w 0 0 0 false s).countSat 0x20028 ⟨63, 48⟩ 1
    if u < 0x400 then s.modCore u fun k => { k with dead := true }
    else if u < 0x500 then
      let n := u - 0x400
      let s := { s with waysOff := ladd (n * 16 + w % 16) s.waysOff }
      if 4 < (s.waysOff.filter fun v => v / 16 == n).length then bootFail 6 (some HG_DEGR_SRAM) s else s
    else bootFail 6 (some HG_DEGR_SRAM) s

/-- Step 10: the Ledger and Gauge regions are cleared and marked (R156, R250); frames leave their owners' keys (R471). -/
def clearRegions (s : State) : State :=
  let s := each (fun (x : Nat × LEnt) s => rekey x.1 0 s) s.ledger s
  let s := if s.fld rGAUGE_BASE GAUGE_BASE_BASE = 0 then s.setFld rGAUGE_BASE GAUGE_BASE_BASE 2 else s
  let lg := s.fld rLG_BASE ⟨47, 24⟩ * 8
  let ga := s.fld rGAUGE_BASE GAUGE_BASE_BASE * 4
  let fs := ((List.range 8).map fun i => lg + i) ++ ((List.range 4).map fun i => ga + i)
  let s := { s with ledger := [], anchors := [], zeroed := (List.range 4).map fun i => ga + i }
  each (fun f s =>
    let s := { s with mem := s.mem.filter (fun c => frameOf c.1 != f), badw := s.badw.filter fun w => frameOf (4 * w) != f }
    s.setLe f { LEnt.free with rsv := true, chip := true }) fs s

/-- Apply the effective licence (R477, R478, R481). -/
def applyLicence (s : State) : State :=
  let lc := lcState s
  let ls := validLics s
  let l := topLic ls
  let s := { s with cleat := { s.cleat with lics := ls } }
  let good := goodCores s
  let n := if lc = 5 then 0 else min (wantCores s l) good.length
  let on := good.take n
  let s := each (fun c s => s.modCore c fun k => { k with enabled := lhas c on, dead := k.dead || !lhas c good }) allCores s
  let s := (s.setFld rCHIP_INFO CHIP_INFO_ENABLED_CORES n).setFld rCHIP_INFO CHIP_INFO_SPARE_CORES (good.length - n)
  let test := decide (lc < 2)
  let (dims, rt, rule) := if test then (4, true, true)
    else match l with | some l => (l.dims, bit l.feat 0, bit l.feat 1) | none => (0, false, false)
  let s := s.setFld rCAP_CTL CAP_CTL_DLIC dims
  let s := each (fun c s => s.setFlag (rFL_CTL c) FL_CTL_RT_LIC rt) allCores s
  let s := upto (fun n s => s.setFlag (rSLU_CTL n) SLU_CTL_RULE_EN rule) 16 s
  match l with
  | some l =>
    let s := s.setReg rCK_LIC (n64 l.serial)
    let v := fset (fset (fset (fset (fset 0 FU_LICENCE_CORES l.cores) FU_LICENCE_DIMS l.dims) FU_LICENCE_RT (b2n rt)) FU_LICENCE_RULE
      (b2n rule)) FU_LICENCE_VALID 1
    extend 5 (leBytes 8 l.serial) (s.setReg rFU_LICENCE v)
  | none => if test then s else bootFail 11 (some HG_DEGR_LICENCE) s

/-- Reload the stored key blobs after a cold reset (R474). -/
def reloadKeys (s : State) : State :=
  if s.bootWarm || s.flag rCK_STAT CK_STAT_TAMPER then s
  else each (fun (x : Nat × List Byte) s =>
    if blobCheck s x.2 = 0 then loadBlob x.2 s
    else { s with flash := { s.flash with blobs := tdel x.1 s.flash.blobs } }) s.flash.blobs s

/-- Frames for a firmware image of `n` bytes: the highest-numbered HBM3E frames of uniform pairs that are no chip frames yet
(R246, R250; DESIGN CHOICE, log 48). -/
def imageFrames (s : State) (n : Nat) : List Nat :=
  (((List.range 1024).map fun i => 393215 - i).filter fun f => !(s.le f).chip && !halfLocal s (f / 2)).take (cdiv (max n 1) (2 ^ 21))

/-- An image is copied from flash into frames that become chip frames (R250, R489); of one whose bytes the model does not hold,
the frame alone (log 48). -/
def placeImage (img : List Byte) (s : State) : State :=
  let fs := imageFrames s img.length
  let s := each (fun f s => { s with mem := s.mem.filter fun c => frameOf c.1 != f }.setLe f { LEnt.free with rsv := true, chip := true }) fs s
  each (fun (x : Nat × Byte) s => s.setByte (framePa (fs.getD (x.1 / 2 ^ 21) 0) + x.1 % 2 ^ 21) x.2)
    ((List.range img.length).zip img) s

/-- Step 11: core and Sluice images, licence, key blobs; the Sluice units whose image runs are enabled (R504, log 3). -/
def bootFirmware (ok : Bool) (s : State) : State :=
  let s := upto (fun i s =>
    let k := i + 1
    let b := tget 0 s.flash.bank k
    let (r, s) := bootImage k b ok s
    match r with
    | some (m, _) =>
      let s := extend (k + 1) m (placeImage (match flashImage s k b with | some (h, y) => h ++ y | none => []) s)
      if k = 2 then upto (fun n s => s.setFlag (rSLU_CTL n) SLU_CTL_ENABLE true) 16 s else s
    | none => bootFail 11 none s) 2 s
  reloadKeys (applyLicence s)

/-- The start of step 13: the dimensions of the ring record are enabled and their ports train (R379). -/
def ringStart (s : State) : State :=
  each (fun (x : Nat × Word) s =>
    let s := s.setReg (rCAP_DIM x.1) (x.2 &&& n64 (fmask CAP_DIM_EN ||| fmask CAP_DIM_POS ||| fmask CAP_DIM_SIZE))
    let s := s.setFld rCAP_MODID CAP_MODID_ID (modId s)
    ringPump (portTrain (2 * x.1 + 1) (portTrain (2 * x.1) s))) (s.flash.ring.filter fun x => fbit x.2 CAP_DIM_EN) s

/-- The detour fields of the routers around a DEAD one (R351): north or west of it (log 54). -/
def detourAround (x : Nat × Nat) (s : State) : State :=
  let r := fun (x y : Nat) => rRT_CFG (y * 32 + x)
  let s := s.setFld (r (x.1 - 1) x.2) RT_CFG_DET_E 1
  let s := s.setFld (r (x.1 + 1) x.2) RT_CFG_DET_W 1
  let s := s.setFld (r x.1 (x.2 + 1)) RT_CFG_DET_N 1
  s.setFld (r x.1 (x.2 - 1)) RT_CFG_DET_S 1

/-- Step 13: a dimension of the ring record that is not UP is closed again (R490). -/
def ringCheck (s : State) : State :=
  each (fun (x : Nat × Word) s =>
    if hwState s (2 * x.1) = hwUP ∧ hwState s (2 * x.1 + 1) = hwUP then s else ringPump (spwClose x.1 7 s))
    (s.flash.ring.filter fun x => fbit x.2 CAP_DIM_EN) s

/-- Step 14: the locks, and READY or DEGRADED (R14, R489, R490); in SCRAPPED the chip never leaves BOOT (R482). -/
def bootEnd (s : State) : State :=
  let s := s.setFlag rGAUGE_CTL GAUGE_CTL_LOCK true
  let s := s.setFlag rLG_CTL LG_CTL_LOCK true
  let s := s.setFlag rWEIR_CTL WEIR_CTL_LOCK true
  let s := s.setFlag rCN_CTL CN_CTL_LOCK true
  let s := s.setFlag rEL_REPAIR EL_REPAIR_LOCK true
  let s := if s.flag rCK_STAT CK_STAT_TAMPER then bootFail 14 (some HG_DEGR_TAMPER) s else s
  let s := (s.setFlag rCHIP_INFO CHIP_INFO_WEST_UP true).setFlag rCHIP_INFO CHIP_INFO_EAST_UP true
  let s := upto (fun h s => s.setReg (rHG_BOOTCYC h) (n64 (hgCycle s h - s.bootStart))) 2 s
  if lcState s = 5 then s else s.setFld rCHIP_INFO CHIP_INFO_STATE (if bootBad s then 2 else 1)

/-- The effect of completing step `n`; `ok` says whether what the step finds out is good, `faults` what the self-test found. -/
def bootStep (n : Nat) (ok : Bool) (faults : List (Nat × Nat × Nat)) (s : State) : State :=
  match n with
  | 2 =>
    let s := upto (fun h s => s.setFlag (rHG_STAT h) HG_STAT_SB ok) 2 (s.setFlag rCHIP_INFO CHIP_INFO_SPLICE_SB ok)
    if ok then s else bootFail 2 none s
  | 3 =>
    let s := hgConfig s
    if sbUp s then
      let p := if s.flag (rHG_STAT 0) HG_STAT_PRIMARY then 0 else 1
      setLease 1 1 (p + 1) (setLease 0 1 (p + 1) (setRole (1 - p) 1 (setRole p 2 s)))
    else setRole 1 3 (setRole 0 3 s)
  | 4 => bootCleat ok s
  | 5 =>
    let s := hgStart 1 ok (hgStart 0 ok s)
    if (s.hgx 0).rom || (s.hgx 1).rom then bootFail 5 none s else s
  | 6 => each bistFault faults s
  | 7 => each detourAround (deadRouters s) (each (fun c s => s.modCore c fun k => { k with dead := !coreGood s c }) allCores s)
  | 8 =>
    let s := (s.setFlag rSP_STAT SP_STAT_CANAL_UP ok).setFlag rSP_STAT SP_STAT_WEIR_UP ok
    if ok then s else bootFail 8 none s
  | 9 =>
    let s := if ok then s else bootFail 9 (some HG_DEGR_TOPOLOGY) s
    if coresShort s (match topLic (validLics s) with | some l => l.cores | none => 0) then bootFail 9 (some HG_DEGR_CORES) s else s
  | 10 =>
    let s := upto (fun n s => (s.setFld (rLC_INFO n) LC_INFO_MTS 9600).setFld (rLC_INFO n) LC_INFO_GIB 32) 16 s
    clearRegions (if ok then s else bootFail 10 (some HG_DEGR_MEMORY) s)
  | 11 => bootFirmware ok s
  | 12 => ringStart (if subState s 0 = 2 ∨ subState s 1 = 2 then s else bootFail 12 (some HG_DEGR_TETHER) s)
  | 13 => ringCheck s
  | 14 => bootEnd s
  | _ => s

/-- May bring-up go on: supplies good and no reset held (R489, R500, R512, R513, R517). -/
def bootMay (s : State) : Bool := powered s && !heldInReset s

/-- The step is behind: HG_STAT.STEP, and the next one; at step 12 the Tether starts training (R397). -/
def bootNext (n : Nat) (done : Bool) (s : State) : State :=
  let s := if done then upto (fun h s => s.setFld (rHG_STAT h) HG_STAT_STEP n) 2 s else s
  let s := if n = 11 then ttTrain s else s
  { s with boot := n + 1 }

/-- BRINGUP_STEP_DONE (R489): step `n`, the next one, completes. -/
def bringupStepDone (n : Nat) (ok : Bool) (faults : List (Nat × Nat × Nat)) (s : State) : State :=
  if n ≠ s.boot ∨ 14 < n ∨ n = 0 ∨ bootMay s = false then s
  else
    let s := if n = 1 then { s with bootStart := hgCycle s 0 } else s
    bootNext n true (bootStep n ok faults s)

/-- BRINGUP_STEP_TIMEOUT (R490): step `n` passes its Latest count; a Tether or ring step ends as its state stands. -/
def bringupStepTimeout (n : Nat) (s : State) : State :=
  if n ≠ s.boot ∨ 14 < n ∨ n = 0 ∨ bootMay s = false then s
  else if n = 12 ∨ n = 13 then bootNext n true (bootStep n true [] s)
  else
    let s := bootFail n (some HG_DEGR_TIMEOUT) s
    bootNext n (n == 14) (if n = 14 then bootStep 14 true [] s else s)

end Sys2Proof.Machine
end

