-- ==== Sys2Proof/Machine/Headgate.lean ====
section
/-! DEFINITION. Live service by the Headgates: core firmware loads (R497-R499), core resets and spare swaps (R83, R502),
Headgate and Sluice updates (R503, R504), the flash (R427, R506) and the mailbox (R507, R508). -/

namespace Sys2Proof.Machine

/-- The Headgate that holds mastership, HG-W where none does. -/
def masterHg (s : State) : Nat := if hgRole s 0 = 2 then 0 else if hgRole s 1 = 2 then 1 else 0

/-! Cores. -/

/-- CHIP_INFO counts the enabled cores and the spares (R3, R502). -/
def countCores (s : State) : State :=
  let on := (allCores.filter fun c => (s.core c).enabled && !(s.core c).dead).length
  (s.setFld rCHIP_INFO CHIP_INFO_ENABLED_CORES on).setFld rCHIP_INFO CHIP_INFO_SPARE_CORES ((goodCores s).length - on)

/-- After every disable the chip counts good cores again (R499), against the licence that took effect at the last reset
(R4, R478), which FU_LICENCE shows. -/
def recount (s : State) : State :=
  let s := countCores s
  if coresShort s (s.fld rFU_LICENCE FU_LICENCE_CORES) then
    let s := upto (fun h s => s.setFlag (rHG_DEGR h) HG_DEGR_CORES true) 2 s
    if s.fld rCHIP_INFO CHIP_INFO_STATE = 1 then s.setFld rCHIP_INFO CHIP_INFO_STATE 2 else s
  else s

/-- A core is hidden for good (R3, R498). -/
def hideCore (c : Nat) (s : State) : State := recount (s.modCore c fun k => { k with dead := true, enabled := false })

/-- HG_FWCORE of a core, in the block of its half (R509). -/
def rFwCore (c : Nat) : Nat := rHG_FWCORE (coreHalf c) (c % 512)

/-! Core firmware (R497, R498). -/

/-- The KIND 1 image that the flash holds: ENTRY, resident and library sections. -/
def coreImage (s : State) : Option (Nat × List Byte × List Byte) :=
  (flashImage s 1 (tget 0 s.flash.bank 1)).map fun x =>
    let b := x.2
    let r := leNat (b.take 8)
    (leNat ((b.drop 8).take 8), (b.drop 64).take r, b.drop (64 + r))

/-- Is the partition of the core enabled with the core in its columns. -/
def partnered (s : State) (c : Nat) : Bool := (s.partCores (s.part c)).contains c

/-- The master arms cores for a load of the next generation and sets their BOOT_VEC; ENTRY of an image whose bytes the model
does not hold is a free value (R497, R498, log 48). -/
def fwStart (cs : List Nat) (s : State) : State :=
  let h := masterHg s
  let gen := (s.fld (rHG_FW h) HG_FW_GEN + 1) % 256
  let s := s.setFld (rHG_FW h) HG_FW_GEN gen
  let (entry, len, s) := match coreImage s with
    | some (e, r, _) => (n64 e, r.length, s)
    | none => let (w, s) := s.fresh; let (v, s) := s.fresh; (w, v.toNat % 917504 + 1, s)
  let s := s.setReg (rHG_FWREP h) (fset 0 HG_FWREP_CHUNKS (cdiv len 4096))
  each (fun c s =>
    let s := s.setReg (rFwCore c) (fset (fset 0 HG_FWCORE_ARM 1) HG_FWCORE_GEN gen)
    let s := { s with fwrx := tdel c s.fwrx }
    if partnered s c then
      let v := (n64 (spadBase s (s.part c)) + entry) &&& n64 (fmask BOOT_VEC_ADDR)
      (s.setReg (rBOOT_VEC c) v).modCore c fun k => { k with fwBoot := v }
    else s) cs s

/-- BRINGUP_STEP_DONE (R489, R498): at step 11 every good core, enabled or spare, is loaded when the core image passes. -/
def bringupRow (n : Nat) (ok : Bool) (faults : List (Nat × Nat × Nat)) (s : State) : State :=
  let t := bringupStepDone n ok faults s
  if n = 11 ∧ t.boot ≠ s.boot ∧ (bootImage 1 (tget 0 s.flash.bank 1) ok s).1.isSome = true then fwStart (goodCores t) t else t

/-- Does a core's router eject a FW_CHUNK (R352), and does its receiver accept it (R498). -/
def fwAccepts (s : State) (c : Nat) (p : Packet) : Bool :=
  coreGood s c && coreOpen s c && p.op == opFW_CHUNK && (p.cls == clsBCAST || p.cls == clsMGMT) && p.len16 == 8 &&
    (p.src == epHG 0 || p.src == epHG 1) && s.flag (rFwCore c) HG_FWCORE_ARM &&
    s.fld (rFwCore c) HG_FWCORE_GEN == bits p.addr 47 40 && !s.flag (rCORE_CTL c) CORE_CTL_RUN

/-- FW_CHUNK (R497, R498) at core `c`: a flit of a chunk goes to core memory, whatever its layout, over L1 lines that lie
there (log 50); the digest packet is kept.  A packet with an uncorrectable word does not count. -/
def fwChunk (c : Nat) (p : Packet) (s : State) : State :=
  if !fwAccepts s c p ∨ p.bad ≠ 0 then s
  else
    let ch := bits p.addr 15 5
    let fl := bits p.addr 4 0
    let x := tget FwRx.reset s.fwrx c
    if ch < 224 then
      let off := ch * 4096 + fl * 128
      let s := spadWrite c off (leBytes 128 p.payload.toNat) s
      let s := if off < s.fld (rCMEM_CFG (s.part c)) CMEM_CFG_SPAD_SIZE * 131072 then s else s.modCore c fun k => { k with l1 := [] }
      { s with fwrx := tset c { x with got := ladd (ch * 32 + fl) x.got } s.fwrx }
    else if ch = 0x7FF then
      let d := leBytes 32 (bits p.payload.toNat 255 0)
      { s with fwrx := tset c { x with digest := some (d, bits p.payload.toNat 287 256) } s.fwrx }
    else s

/-- Chunks of a load that have not been received whole. -/
def fwMissing (x : FwRx) (n : Nat) : List Nat :=
  (List.range n).filter fun ch => !((List.range 32).all fun f => lhas (ch * 32 + f) x.got)

/-- A core's report, or what stands for one, reaches the master (R498 steps 4 to 6): a pass, a repair round, or the end. -/
def fwReport (c : Nat) (pass : Bool) (missing : List Nat) (s : State) : State :=
  let a := rFwCore c
  let h := masterHg s
  let s := s.setFld a HG_FWCORE_MISSING missing.length
  if pass then
    (s.setFlag a HG_FWCORE_DONE true).setFlag a HG_FWCORE_ARM false
  else if s.fld a HG_FWCORE_ROUNDS < 3 then
    let s := (s.setFld a HG_FWCORE_ROUNDS (s.fld a HG_FWCORE_ROUNDS + 1)).countSat (rHG_FWREP h) HG_FWREP_REPAIRED missing.length
    let x := tget FwRx.reset s.fwrx c
    { s with fwrx := tset c { got := x.got.filter fun i => !lhas (i / 32) missing, digest := none } s.fwrx }
  else
    let s := ((s.setFlag a HG_FWCORE_FAIL true).setFlag a HG_FWCORE_ARM false).countSat (rHG_FWREP h) HG_FWREP_DISABLED 1
    hideCore c s

/-- FW_LOAD_REPORT (R498): an armed core that has the digest packet reports; a failed hash counts as all chunks missing. -/
def fwLoadReport (c : Nat) (s : State) : State :=
  let x := tget FwRx.reset s.fwrx c
  match x.digest with
  | none => s
  | some (d, n) =>
    if !s.flag (rFwCore c) HG_FWCORE_ARM then s
    else
      let miss := fwMissing x n
      if !miss.isEmpty then fwReport c false miss s
      else if (spadBad s c 0 (n * 4096)).isNone ∧ sha256 (spadBytes s c 0 (n * 4096)) = d then fwReport c true [] s
      else fwReport c false (List.range n) s

/-- FW_REPORT_TIMEOUT (R498): a missing report counts as all chunks missing. -/
def fwReportTimeout (c : Nat) (s : State) : State :=
  if s.flag (rFwCore c) HG_FWCORE_ARM then
    fwReport c false (List.range (s.fld (rHG_FWREP (masterHg s)) HG_FWREP_CHUNKS)) s
  else s

/-- A write of HG_FWCOREc: setting ARM starts an empty receiver. -/
def opFwCore (o : Origin) (c : Nat) (v : Word) (s : State) : State :=
  let a := rFwCore c
  regWrite o a (fun _ => true) (fun s =>
    let was := s.flag a HG_FWCORE_ARM
    let s := typedWrite s a v
    if !was && fbit v HG_FWCORE_ARM then { s with fwrx := tdel c s.fwrx } else s) s

/-- A write of HG_LEASE_CFG (R509). -/
def opHgLeaseCfg (o : Origin) (h : Nat) (v : Word) (s : State) : State :=
  let a := rHG_LEASE_CFG h
  regWrite o a (fun _ => decide (4 * fget v HG_LEASE_CFG_RENEW ≤ fget v HG_LEASE_CFG_TIMEOUT)) (fun s => typedWrite s a v) s

/-! HG_CORERST (R83, R502). -/

/-- The partition in whose columns a core lies. -/
def colPart (s : State) (c : Nat) : Option Nat :=
  (List.range 8).find? fun p =>
    s.flag (rPT_RANGE p) PT_RANGE_EN && decide (s.fld (rPT_RANGE p) PT_RANGE_FIRST ≤ coreX c) &&
      decide (coreX c ≤ s.fld (rPT_RANGE p) PT_RANGE_LAST)

/-- Good spares in the columns of a partition, lowest first. -/
def sparesIn (s : State) (p : Nat) : List Nat :=
  (goodCores s).filter fun c => !(s.core c).enabled && colPart s c == some p

/-- May a failing core be disabled (R502). -/
def disableOk (o : Origin) (c : Nat) (s : State) : Bool :=
  let halted := (s.cur c).st == .halted
  coreIdOk c && masterOr s o && (s.core c).enabled && (!s.flag (rCORE_CTL c) CORE_CTL_RUN || halted) &&
    !(sparesIn s (s.part c)).isEmpty

/-- OP 2. -/
def disableCore (c : Nat) (s : State) : State :=
  let s := hideCore c s
  { s with swapOut := ladd c s.swapOut }

/-- The disabled core that a spare of partition `p` replaces. -/
def replaced (s : State) (p : Nat) : Option Nat := s.swapOut.find? fun d => colPart s d == some p

/-- May a spare be enabled (R502): it replaces a core of the partition in whose columns it lies. -/
def spareOk (o : Origin) (c : Nat) (s : State) : Bool :=
  coreIdOk c && masterOr s o && coreGood s c && !(s.core c).enabled &&
    (match colPart s c with
     | some p => (replaced s p).isSome
     | none => false)

/-- OP 3: the spare takes the partition's number, its layout of core memory, and is loaded under R498. -/
def enableSpare (c : Nat) (s : State) : State :=
  match colPart s c with
  | none => s
  | some p =>
    let out := (replaced s p).getD 0
    let s := { s with swapOut := ldrop out s.swapOut }
    let s := (s.setFld (rCORE_ID c) CORE_ID_PART p).modCore c fun k =>
      { k with enabled := true, l1 := [], spad := [], spadEpoch := k.spadEpoch + 1, flips := [] }
    fwStart [c] (countCores s)

/-- CORE_RESET: HG_CORERST with OP 1 (R83); a core that a partition reset holds is reset already. -/
def opCoreReset (o : Origin) (h c : Nat) (s : State) : State :=
  regWrite o (rHG_CORERST h) (fun _ => true) (fun s =>
    if !coreIdOk c || (s.core c).rst then s else ringPump (coreReset c s)) s

/-- CORE_DISABLE: OP 2. -/
def opCoreDisable (o : Origin) (h c : Nat) (s : State) : State := regWrite o (rHG_CORERST h) (disableOk o c) (disableCore c) s

/-- SPARE_ENABLE: OP 3. -/
def opSpareEnable (o : Origin) (h c : Nat) (s : State) : State := regWrite o (rHG_CORERST h) (spareOk o c) (enableSpare c) s

/-- A write of HG_CORERST. -/
def opHgCoreRst (o : Origin) (h : Nat) (v : Word) (s : State) : State :=
  let c := fget v HG_CORERST_ID
  let op := fget v HG_CORERST_OP
  if op = 1 then opCoreReset o h c s
  else if op = 2 then opCoreDisable o h c s
  else if op = 3 then opSpareEnable o h c s
  else regWrite o (rHG_CORERST h) (fun _ => true) (fun s => s) s

/-! The flash (R427, R506). -/

/-- HG_FLASH and HG_DEGR show the flash's counts. -/
def flashShow (s : State) : State :=
  let m := s.flash.erases.foldl (fun m x => max m x.2) 0
  upto (fun h s =>
    let s := s.setFld (rHG_FLASH h) HG_FLASH_RETIRED s.flash.retired
    let s := s.setFld (rHG_FLASH h) HG_FLASH_SPARE s.flash.spare
    let s := s.setFld (rHG_FLASH h) HG_FLASH_MAXERASE m
    if s.flash.spare = 0 then s.setFlag (rHG_DEGR h) HG_DEGR_FLASH true else s) 2 s

/-- A block is erased; one that fails or reaches 100,000 erases is retired and a spare block takes its place. -/
def flashErase (b : Nat) (fail : Bool) (s : State) : State :=
  let f := s.flash
  let n := tget 0 f.erases b + 1
  let f := if (fail || decide (100000 ≤ n)) && decide (0 < f.spare) then
      { f with erases := tset b 0 f.erases, retired := f.retired + 1, spare := f.spare - 1 }
    else { f with erases := tset b n f.erases }
  flashShow { s with flash := f }

/-- FLASH_REFRESH (R506): a block below the spare blocks is rewritten, its 2,048 lines of 128 bytes in the Canal budget of the
master's half (R36, R38, log 65). -/
def flashRefresh (b : Nat) (fail : Bool) (s : State) : State :=
  if b < 12672 then onLink (masterHg s) 2048 true (flashErase b fail) s else s

/-- LOG_MIRROR_FLASH (R427, R506): the oldest record still to be mirrored is written, its 8 lines in the Canal budget of the
master's half (R36, R38, log 65); the first record of an erase block erases it.  With no spare block left, mirror writes stop. -/
def logMirrorFlash (p : Nat) (fail : Bool) (s : State) : State :=
  let x := s.snap p
  match x.mirF with
  | [] => s
  | st :: rest =>
    if s.flash.spare = 0 then s
    else if !eGateV s p false (logSlot s p st) 1024 then ePrepV p 0 0xF false (logSlot s p st) 1024 s
    else onLink (masterHg s) 8 true (fun s => match slotRead p st s with
      | (none, s) => s
      | (some r, s) =>
        let pl := st % 262144
        let s := if pl % 256 = 0 ∨ fail = true then flashErase (2432 + p * 1024 + pl / 256) fail s else s
        let s := { s with flash := { s.flash with log := tset (p * 262144 + pl) r s.flash.log } }
        (s.setReg (rLOG_MIRF p) (n64 st)).setSnap p { s.snap p with mirF := rest }) s

/-! Updates (R503, R504). -/

/-- A Headgate leaves for its ROM to start from the other bank (R503 steps 1 and 2). -/
def swapStart (h : Nat) (s : State) : State :=
  let s := if hgRole s h = 2 then opLeaseRelease (.hg h) h s else s
  let s := s.setFld (rHG_FW h) HG_FW_NEXT (1 - s.fld (rHG_STAT h) HG_STAT_BANK)
  s.modHgx h fun x => { x with swap := true }

/-- HG_SWAP_DONE (R491, R503): the ROM has started an image, or stays in ROM; the Headgate joins as FOLLOWER with its partner's
epoch. -/
def hgSwapDone (h : Nat) (ok : Bool) (s : State) : State :=
  if h ≤ 1 ∧ (s.hgx h).swap = true then
    let s := hgStart h ok (s.modHgx h fun x => { x with swap := false })
    if (s.hgx h).rom then s
    else
      let s := if sbUp s then setLease h (epoch s (1 - h)) (s.fld (rHG_LEASE (1 - h)) HG_LEASE_HOLDER) s else s
      (setRole h 1 s).modHgx h fun x => { x with renew := hgCycle s h }
  else s

/-- May a Sluice update start (R504 step 1). -/
def sluIdle (s : State) (n : Nat) : Bool := (s.slu n).queue.isEmpty && slState s n == slIDLE && !lhas n s.slUpd

/-- R504 steps 2 and 3. -/
def sluUpdate (n : Nat) (s : State) : State := { s.setFlag (rSLU_CTL n) SLU_CTL_ENABLE false with slUpd := ladd n s.slUpd }

/-- SLUICE_UPDATE_DONE (R504 step 4). -/
def sluiceUpdateDone (n : Nat) (s : State) : State :=
  if lhas n s.slUpd then { s.setFlag (rSLU_CTL n) SLU_CTL_ENABLE true with slUpd := ldrop n s.slUpd } else s

/-! The mailbox (R507, R508). -/

/-- STATUS codes. -/
abbrev mbOK : Nat := 0
abbrev mbBADOP : Nat := 1
abbrev mbNOT_MASTER : Nat := 2
abbrev mbBUSY : Nat := 3
abbrev mbVERIFY : Nat := 4
abbrev mbREFUSED : Nat := 5

/-- Word `w` of the request in mailbox `h`. -/
def mbWord (s : State) (h w : Nat) : Nat := (s.reg (rMB_IN h w)).toNat

/-- Send a message of words to the companion: they fill MB_OUT and the doorbell rings. -/
def mbSend (h : Nat) (ws : List Word) (s : State) : State :=
  mbOutDoor h (each (fun (x : Word × Nat) s => s.setReg (rMB_OUT h x.2) x.1) ws.zipIdx s)

/-- Reply to the request in mailbox `h`: it repeats OP and SEQ; the request is taken. -/
def mbReply (h st : Nat) (ws : List Word) (s : State) : State :=
  let q := mbWord s h 0
  let w0 := n64 ((bits q 63 48 <<< 48) ||| (st <<< 32) ||| bits q 7 0)
  mbSend h (w0 :: ws) (s.setFlag (rMB_CTL h) MB_CTL_IN_FULL false)

/-- Serve a request of operation `op` in mailbox `h`; a reply waits until MB_OUT is free, and a Headgate that restarts or
stays in ROM does not answer (R503). -/
def mbServe (op h : Nat) (master : Bool) (f : State → State) (s : State) : State :=
  let o := bits (mbWord s h 0) 7 0
  if 2 ≤ h ∨ s.flag (rMB_CTL h) MB_CTL_IN_FULL = false ∨ s.flag (rMB_CTL h) MB_CTL_OUT_FULL = true ∨ (s.hgx h).swap = true ∨
      (s.hgx h).rom = true then s
  else if o = 0 ∨ 7 < o then mbReply h mbBADOP [] s
  else if o ≠ op then s
  else if master && hgRole s h != 2 then mbReply h mbNOT_MASTER [] s
  else f s

/-- STATUS. -/
def mbStatus (h : Nat) (s : State) : State :=
  mbServe 1 h false (fun s => mbReply h mbOK [s.reg rCHIP_INFO, s.reg (rHG_STAT h), s.reg (rHG_DEGR h)] s) s

/-- NAME (R495): a greater EPOCH is adopted with the role the message gives. -/
def mbName (h : Nat) (s : State) : State :=
  mbServe 2 h false (fun s =>
    let who := mbWord s h 1
    let e := mbWord s h 2
    if (who = 1 ∨ who = 2) ∧ epoch s h < e ∧ e < 2 ^ 32 then
      mbReply h mbOK [] (setLease h e who (setRole h (if who = h + 1 then 2 else 1) s))
    else mbReply h mbREFUSED [] s) s

/-- Bytes that a bank of the flash has for an image of a kind (R506). -/
def bankSize (kind : Nat) : Nat := if kind = 0 then 2 ^ 25 else 2 ^ 28

/-- FW_STAGE: an image is copied from the companion window into flash; KIND in bits 7:0 of word 3 and the bank in bit 8 (log
50). -/
def mbStage (h : Nat) (s : State) : State :=
  mbServe 3 h true (fun s =>
    let off := mbWord s h 1
    let n := mbWord s h 2
    let kind := bits (mbWord s h 3) 7 0
    let bank := bits (mbWord s h 3) 8 8
    let pa := 0x400000000000 + off
    if 2 < kind ∨ n = 0 ∨ bankSize kind < n ∨ 2 ^ 46 < off + n ∨ cwOpen s pa false = false then mbReply h mbREFUSED [] s
    else if !gateAll (pa / 128) false s (lineSpan pa n) then prepAll (pa / 128) 0 false (lineSpan pa n) s
    else match engRead pa n 0 0 false false true s with
      | (_, some _, s) => mbReply h mbREFUSED [] s
      | (bs, none, s) =>
        let f := s.flash
        mbReply h mbOK [] { s with flash := { f with img := tset (2 * kind + bank) bs f.img, bank := tset kind bank f.bank } }) s

/-- VERIFY of the image of a kind in the flash: the Cleat's RESULT, `ok` deciding for an image whose bytes the model does not
hold; one that passes is measured (R480, log 48). -/
def activateCheck (kind : Nat) (ok : Bool) (s : State) : Nat × State :=
  match flashImage s kind (tget 0 s.flash.bank kind) with
  | some (hd, b) =>
    let c := imageCheck s hd (some b)
    let c := if c = 0 ∧ num hd 4 1 ≠ kind then ckFORMAT else c
    (c, if c = 0 then imagePass hd s else s)
  | none =>
    if ok then
      match bootImage kind (tget 0 s.flash.bank kind) true s with
      | (some (m, _), s) => (0, extend (kind + 1) m s)
      | (none, s) => (0, s)
    else let (w, s) := s.fresh; (1 + w.toNat % 12, s)

/-- Cores of a partition that a load reaches. -/
def loadCores (s : State) (p : Nat) : List Nat := (s.partCores p).filter fun c => coreGood s c

/-- FW_ACTIVATE: KIND 0 swaps a Headgate, KIND 1 loads a partition's cores, KIND 2 updates a Sluice unit. -/
def mbActivate (h : Nat) (ok : Bool) (s : State) : State :=
  mbServe 4 h true (fun s =>
    let kind := mbWord s h 1
    let x := mbWord s h 2
    if kind = 0 then
      (if x < 2 ∧ (s.hgx x).swap = false then swapStart x (mbReply h mbOK [] s) else mbReply h mbREFUSED [] s)
    else if kind = 1 then
      (if 8 ≤ x ∨ s.flag (rPT_RANGE x) PT_RANGE_EN = false then mbReply h mbREFUSED [] s
       else if (allCores.any fun c => s.flag (rFwCore c) HG_FWCORE_ARM) = true then mbReply h mbBUSY [] s
       else
        let r := activateCheck 1 ok s
        if r.1 = 0 then fwStart (loadCores r.2 x) (mbReply h mbOK [] r.2) else mbReply h mbVERIFY [n64 r.1] r.2)
    else if kind = 2 then
      (if 16 ≤ x then mbReply h mbREFUSED [] s
       else if !sluIdle s x then mbReply h mbBUSY [] s
       else
        let r := activateCheck 2 ok s
        if r.1 = 0 then sluUpdate x (mbReply h mbOK [] r.2) else mbReply h mbVERIFY [n64 r.1] r.2)
    else mbReply h mbREFUSED [] s) s

/-- FWPLACE: the library section goes into mapped frames. -/
def mbPlace (h : Nat) (s : State) : State :=
  mbServe 5 h true (fun s =>
    let p := mbWord s h 1
    let va := mbWord s h 2
    match coreImage s with
    | none => mbReply h mbREFUSED [] s
    | some (_, _, lib) =>
      if 8 ≤ p ∨ 2 ^ 48 ≤ va + lib.length ∨ (eFaultV s p true .store va lib.length).isSome = true then mbReply h mbREFUSED [] s
      else if !eGateV s p true va lib.length then ePrepV p 0 0xF true va lib.length s
      else mbReply h mbOK [] (eWriteV p 0 0xF false 0 va lib s)) s

/-- CORE_SWAP (R502): the lowest good spare of the partition replaces the failing core. -/
def mbCoreSwap (h : Nat) (s : State) : State :=
  mbServe 6 h true (fun s =>
    let c := mbWord s h 1
    if disableOk (.hg h) c s then
      match sparesIn s (s.part c) with
      | d :: _ => mbReply h mbOK [n64 d] (enableSpare d (disableCore c s))
      | [] => mbReply h mbREFUSED [] s
    else mbReply h mbREFUSED [] s) s

/-- RING: the ring record. -/
def mbRing (h : Nat) (s : State) : State :=
  mbServe 7 h true (fun s =>
    let r : Tab Word := (List.range 4).map fun d => (d, s.reg (rMB_IN h (d + 1)))
    mbReply h mbOK [] { s with flash := { s.flash with ring := r } }) s

/-- EVENT (R508): the oldest newly set HG_EVENT bit of Headgate `h` sends its message; SEQ is a free value (log 50). -/
def mbEvent (h : Nat) (s : State) : State :=
  match (s.hgx h).events with
  | [] => s
  | _ :: r =>
    if 2 ≤ h ∨ s.flag (rMB_CTL h) MB_CTL_OUT_FULL = true ∨ (s.hgx h).swap = true ∨ (s.hgx h).rom = true then s
    else
      let s := s.modHgx h fun x => { x with events := r }
      let (w, s) := s.fresh
      mbSend h [n64 (((w.toNat % 65536) <<< 48) ||| 0x80), s.reg (rHG_EVENT h), s.reg (rHG_HALT h)] s

end Sys2Proof.Machine
end

