-- ==== Sys2Proof/Machine/Board.lean ====
section
/-! DEFINITION. Supplies and power states (R511-R517), the calendar clock (R519-R521), telemetry (R522, R523), SMBus and PMBus
(R524, R525) and JTAG (R526, R527). -/

namespace Sys2Proof.Machine

/-- Change the board's state. -/
def State.modBoard (s : State) (f : Board → Board) : State := { s with board := f s.board }

/-! Supplies (R511-R514, R517). -/

/-- A power loss (R511, R513, R517): every Spillway closes for `spw`, PWR_HIST records `cause`, and the chip lies in the state
of a cold reset until the converters start again. -/
def powerLoss (cause spw : Nat) (s : State) : State :=
  coldReset ((spwCloseAll spw s).setFld rPWR_HIST PWR_HIST_CAUSE cause)

/-- VIN64_GOOD (R511, R517): the voltage has risen above 56.0 V; it ends a thermal trip that a fall has followed. -/
def vin64Good (s : State) : State :=
  if s.board.vin then s
  else coldReset (s.modBoard fun b => { b with vin := true, trip := b.trip && !b.tripLow, tripLow := false })

/-- VIN64_UNDERVOLTAGE (R511, R517). -/
def vin64Under (s : State) : State :=
  if s.board.vin then
    powerLoss 1 1 (s.modBoard fun b => { b with vin := false, charged := false, tripLow := b.trip })
  else s.modBoard fun b => { b with charged := false, tripLow := b.trip }

/-- VIN64_OVERVOLTAGE (R511): a power loss in the same way. -/
def vin64Over (s : State) : State :=
  if s.board.vin then powerLoss 2 1 (s.modBoard fun b => { b with vin := false }) else s

/-- AUX3V3_GOOD (R514): STANDBY, or all of power when VIN64 is good; the TAP and the SMBus target start anew (log 51), and the
counters of the Headgate islands and of the always-on one stand at 0 (R26, log 2). -/
def aux3v3Good (s : State) : State :=
  if s.board.aux then s
  else ((s.setReg rCYC_HG_W 0).setReg rCYC_HG_E 0).modBoard fun b => { b with
    aux := true, aonCycle := 0, page := 0, stat := 0, statT := 0, alert := false, alertRead := false, cleared := false, smb := none
    ir := 1, bsr := 0, dr := 0 }

/-- AUX3V3_LOSS (R513): a power loss while VIN64 is good. -/
def aux3v3Loss (s : State) : State :=
  if !s.board.aux then s
  else
    let s := s.modBoard fun b => { b with aux := false }
    if s.board.vin then powerLoss 4 1 s else s

/-- INPUT_CHARGED (R512). -/
def inputCharged (s : State) : State := if s.board.vin then s.modBoard fun b => { b with charged := true } else s

/-- THERM_TRIP (R517). -/
def thermTrip (s : State) : State :=
  if powered s then powerLoss 3 5 (s.modBoard fun b => { b with trip := true, tripLow := false }) else s

/-- Throttle level of a half (R515). -/
def thrLevel (s : State) (h : Nat) : Nat := s.fld rTHR_STAT (if h = 0 then THR_STAT_LVL_W else THR_STAT_LVL_E)

/-- PWR_STATE (R514): 0 OFF, 1 STANDBY, 2 IDLE, 3 ACTIVE, 4 THROTTLED. -/
def pwrState (s : State) : Nat :=
  if !s.board.aux then 0
  else if !s.board.vin then 1
  else if s.fld rCHIP_INFO CHIP_INFO_STATE = 0 ∨ (allCores.any fun c => s.flag (rCORE_CTL c) CORE_CTL_RUN) = false then 2
  else if thrLevel s 0 = 0 ∧ thrLevel s 1 = 0 then 3
  else 4

/-! Throttling (R515). -/

/-- One cause's level after a sample: raised by 1 up to `top`, or lowered by 1 after 20 quiet samples in a row. -/
def thrStep (up quiet : Bool) (top l n : Nat) : Nat × Nat :=
  if up then (if l < top then l + 1 else l, 0)
  else if quiet then (if 19 ≤ n then (l - 1, 0) else (l, n + 1))
  else (l, 0)

/-- Highest level of the power cause. -/
def maxLvl (s : State) : Nat := s.fld rTHR_CTL THR_CTL_MAXLVL

/-- The cap in mW; 0 acts as 1,200 W. -/
def capMw (s : State) : Nat :=
  let c := s.fld rTHR_CTL THR_CTL_CAP_W
  (if c = 0 then 1200 else c) * 1000

/-- Write a half's level and causes: the largest level that any cause requires. -/
def thrShow (h : Nat) (s : State) : State :=
  let t := tget Thr.reset s.thrs h
  let w := tget Thr.reset s.thrs 0
  let pw := min w.pw (maxLvl s)
  let lim := if t.lim then 8 else 0
  let cause := b2n (decide (0 < t.th)) ||| b2n t.lim <<< 1 ||| b2n (decide (0 < pw)) <<< 2 ||| b2n (decide (0 < w.ic)) <<< 3
  (s.setFld rTHR_STAT (if h = 0 then THR_STAT_LVL_W else THR_STAT_LVL_E) (max (max t.th lim) (max pw w.ic))).setFld rTHR_STAT
    (if h = 0 then THR_STAT_CAUSE_W else THR_STAT_CAUSE_E) cause

/-- THROTTLE_SAMPLE (R515) by the Headgate of half `h`: the hottest sensor of its die in 1/16 °C, module input power in mW and
input current in mA; the west sample sets the causes that act on both halves (log 51). -/
def throttleSample (h : Nat) (tj : Int) (mw ma : Nat) (s : State) : State :=
  if 2 ≤ h ∨ powered s = false then s
  else
    let t := tget Thr.reset s.thrs h
    let (th, thN) := thrStep (decide (1520 ≤ tj)) (decide (tj < 1472)) 8 t.th t.thN
    let t := { t with th := th, thN := thN, lim := decide (1680 ≤ tj) || (t.lim && decide (1600 ≤ tj)) }
    let (pw, pwN) := thrStep (decide (capMw s < mw)) (decide (mw * 100 ≤ capMw s * 95)) (maxLvl s) t.pw t.pwN
    let (ic, icN) := thrStep (decide (20700 < ma)) (decide (ma ≤ 19700)) 8 t.ic t.icN
    let t := if h = 0 then { t with pw := pw, pwN := pwN, ic := ic, icN := icN } else t
    upto thrShow 2 { s with thrs := tset h t s.thrs }

/-- THR_CTL_WRITE (R523). -/
def opThrCtl (o : Origin) (v : Word) (s : State) : State :=
  regWrite o rTHR_CTL (fun _ => decide (fget v THR_CTL_CAP_W ≤ 1200) && decide (fget v THR_CTL_MAXLVL ≤ 8)) (fun s => typedWrite s rTHR_CTL v) s

/-! Status and telemetry (R522-R525). -/

/-- STATUS_TEMPERATURE bits whose condition holds: 7 fault at 110 °C, 6 warning at 95 °C (log 51). -/
def tempStatus (s : State) : Nat :=
  let t := max (sext 16 (s.fld rTEMP TEMP_TJ_W)) (sext 16 (s.fld rTEMP TEMP_TJ_E))
  b2n (decide (1760 ≤ t)) <<< 7 ||| b2n (decide (1520 ≤ t)) <<< 6

/-- STATUS_WORD bits whose condition holds: 13 input outside its operating range or above 20.7 A, 14 the power cause throttles, 2
temperature (log 51). -/
def wordStatus (s : State) : Nat :=
  let mv := s.fld (rRAIL_VI 0) RAIL_VI_MV
  let bad := decide (mv < 58000) || decide (68000 < mv) || decide (20700 < s.fld (rRAIL_VI 0) RAIL_VI_MA)
  let cause := s.fld rTHR_STAT THR_STAT_CAUSE_W ||| s.fld rTHR_STAT THR_STAT_CAUSE_E
  b2n bad <<< 13 ||| b2n (bit cause 2) <<< 14 ||| b2n (tempStatus s != 0) <<< 2

/-- New conditions set status bits; one that becomes set asserts ALERT_N (R525). -/
def statusUpdate (s : State) : State :=
  let w := wordStatus s
  s.modBoard fun b =>
    let new := (w ||| b.stat) != b.stat
    { b with stat := b.stat ||| w, statT := b.statT ||| tempStatus s, alert := b.alert || new
             alertRead := b.alertRead && !new, cleared := b.cleared && !new }

/-- One page of readings: MV, MA, MW. -/
def railSet (p mv ma mw : Nat) (s : State) : State :=
  let s := s.setReg (rRAIL_VI p) (fset (fset 0 RAIL_VI_MV mv) RAIL_VI_MA ma)
  let pk := max (s.fld (rRAIL_P p) RAIL_P_PEAK) mw
  s.setReg (rRAIL_P p) (fset (fset 0 RAIL_P_PEAK pk) RAIL_P_MW mw)

/-- A telemetry update (R522): the readings of pages 0 to 8 as (mV, mA, mW), and the sensors in 1/16 °C; in STANDBY pages 1 to 7 read 0
(R524). -/
def telemRead (rails : List (Nat × Nat × Nat)) (tjw tje tmod : Int) (s : State) : State :=
  let s := upto (fun p s =>
    let (mv, ma, mw) := if !s.board.vin && decide (1 ≤ p) && decide (p ≤ 7) then (0, 0, 0) else rails.getD p (0, 0, 0)
    railSet p mv ma mw s) 9 s
  let h := fun (x : Int) => (x % 65536).toNat
  let s := s.setReg rTEMP (fset (fset (fset 0 TEMP_TMOD (h tmod)) TEMP_TJ_E (h tje)) TEMP_TJ_W (h tjw))
  statusUpdate s

/-- Link cycles of a telemetry update: a free value that a window's budget can cover (R36, log 65). -/
def telemCost : Nat := min Config.telemCycles 10485

/-- TELEM_UPDATE (R522): in the Canal budget of both halves while the islands have power, or not before the next window (R36,
R38). -/
def telemUpdate (rails : List (Nat × Nat × Nat)) (tjw tje tmod : Int) (s : State) : State :=
  if !s.board.aux then s
  else if !powered s then telemRead rails tjw tje tmod s
  else if !bgFits s (epLink 0) telemCost || !bgFits s (epLink 1) telemCost then bgWait (epLink 1) (bgWait (epLink 0) s)
  else telemRead rails tjw tje tmod (bgSpend (epLink 1) telemCost (bgSpend (epLink 0) telemCost s))

/-! The calendar (R519-R521). -/

/-- How far the calendar moves at a tick: one, the TRIM ticks added at the last of 1,048,576 ticks, or none for the last
-TRIM of them (log 51). -/
def calStep (s : State) : Nat :=
  let t := sext 8 (s.fld rCAL_CTL CAL_CTL_TRIM)
  let n := s.board.calN
  if 0 ≤ t then (if n = 1048575 then 1 + t.toNat else 1)
  else if 1048576 - (-t).toNat ≤ n then 0 else 1

/-- CAL_TICK (R521): a pending LOAD wins; else the time moves on. -/
def calTick (s : State) : State :=
  let d := calStep s
  let load := s.board.calLoad
  let s := s.modBoard fun b => { b with calN := (b.calN + 1) % 1048576, calLoad := false }
  if load then calRead ((s.setReg rCAL_TIME (n64 (s.fld rCAL_SET CAL_SET_TIME))).setFlag rCAL_CTL CAL_CTL_VALID true)
  else s.setReg rCAL_TIME (n64 (((s.reg rCAL_TIME).toNat + d) % 2 ^ 55))

/-- A write of CAL_CTL (R520). -/
def opCalCtl (o : Origin) (v : Word) (s : State) : State :=
  regWrite o rCAL_CTL (fun _ => true) (fun s =>
    let s := typedWrite s rCAL_CTL v
    if fbit v CAL_CTL_LOAD then s.modBoard fun b => { b with calLoad := true } else s) s

/-- CAL_LOAD: CAL_CTL written with LOAD and its own TRIM. -/
def opCalLoad (o : Origin) (s : State) : State :=
  opCalCtl o (fset (fset 0 CAL_CTL_TRIM (s.fld rCAL_CTL CAL_CTL_TRIM)) CAL_CTL_LOAD 1) s

/-- OSC_STOP (R521): power returns after the oscillator stopped. -/
def oscStop (s : State) : State := (s.setFlag rCAL_CTL CAL_CTL_OSC_STOP true).setFlag rCAL_CTL CAL_CTL_VALID false

/-- VBAT_LOW (R520): VBAT below 2.5 V while AUX3V3 is absent. -/
def vbatLow (s : State) : State := if s.board.aux then s else s.setFlag rCAL_CTL CAL_CTL_BATLOW true

/-! PMBus (R524, R525). -/

/-- The first of `n` exponents from `e` up at which `num / den` divided by 2^e, rounded down, fits 11 bits. -/
def lin11Exp (num : Int) (den : Nat) : Nat → Int → Int
  | 0, e => e
  | n + 1, e =>
    let m := if e < 0 then num * 2 ^ (-e).toNat / den else num / (den * 2 ^ e.toNat)
    if -1024 ≤ m ∧ m ≤ 1023 then e else lin11Exp num den n (e + 1)

/-- LINEAR11 of `num / den`: the smallest exponent that fits, rounded down (log 51). -/
def lin11 (num : Int) (den : Nat) : Nat :=
  let e := lin11Exp num den 31 (-16)
  let m := if e < 0 then num * 2 ^ (-e).toNat / den else num / (den * 2 ^ e.toNat)
  (e % 32).toNat * 2048 + (m % 2048).toNat

/-- The value of a LINEAR11 word, in whole units, rounded down. -/
def ofLin11 (w : Nat) : Int :=
  let e := sext 5 (w / 2048)
  let m := sext 11 w
  if e < 0 then m / 2 ^ (-e).toNat else m * 2 ^ e.toNat

/-- Serve a command: the target needs AUX3V3, and a packet error code that is present and wrong is not acknowledged; `f` gives
the bytes returned, none for a NACK. -/
def pmbus (pec : Bool) (f : State → Option (List Byte) × State) (s : State) : State :=
  if !s.board.aux || !pec then s.modBoard fun b => { b with smb := none }
  else
    let (r, s) := f s
    s.modBoard fun b => { b with smb := r }

/-- A command that only reads. -/
def pmRead (pec : Bool) (f : State → Option (List Byte)) (s : State) : State := pmbus pec (fun s => (f s, s)) s

/-- A word read on pages that have it. -/
def pmWord (pec : Bool) (ok : Nat → Bool) (v : State → Nat → Nat) (s : State) : State :=
  pmRead pec (fun s => if ok s.board.page then some (leBytes 2 (v s s.board.page)) else none) s

/-- PAGE: a write selects a page 0 to 8; a read returns it. -/
def pmPage (pec : Bool) (w : Option Nat) (s : State) : State :=
  pmbus pec (fun s => match w with
    | none => (some (leBytes 1 s.board.page), s)
    | some n => if n ≤ 8 then (some [], s.modBoard fun b => { b with page := n }) else (none, s)) s

/-- ALERT_N is released once the alert response has been read and CLEAR_FAULTS done. -/
def alertEnd (s : State) : State :=
  s.modBoard fun b => if b.alertRead && b.cleared then { b with alert := false, alertRead := false, cleared := false } else b

/-- CLEAR_FAULTS. -/
def pmClear (pec : Bool) (s : State) : State :=
  pmbus pec (fun s => (some [], alertEnd (s.modBoard fun b =>
    { b with stat := b.stat &&& wordStatus s, statT := b.statT &&& tempStatus s, cleared := b.alert }))) s

/-- CAPABILITY. -/
def pmCapability (pec : Bool) (s : State) : State := pmRead pec (fun _ => some [0xD0]) s
/-- VOUT_MODE. -/
def pmVoutMode (pec : Bool) (s : State) : State := pmRead pec (fun _ => some [0x14]) s
/-- STATUS_WORD: the bits are those of page 0. -/
def pmStatusWord (pec : Bool) (s : State) : State := pmWord pec (fun _ => true) (fun s p => if p = 0 then s.board.stat else 0) s
/-- STATUS_TEMPERATURE. -/
def pmStatusTemp (pec : Bool) (s : State) : State :=
  pmRead pec (fun s => some (leBytes 1 (if s.board.page = 0 then s.board.statT else 0))) s
/-- Page 0. -/
def pg0 (p : Nat) : Bool := p == 0
/-- Pages 1 to 8. -/
def pg18 (p : Nat) : Bool := decide (1 ≤ p)
/-- READ_VIN. -/
def pmVin (pec : Bool) (s : State) : State := pmWord pec pg0 (fun s p => lin11 (s.fld (rRAIL_VI p) RAIL_VI_MV) 1000) s
/-- READ_IIN. -/
def pmIin (pec : Bool) (s : State) : State := pmWord pec pg0 (fun s p => lin11 (s.fld (rRAIL_VI p) RAIL_VI_MA) 1000) s
/-- READ_VOUT: LINEAR16 with exponent -12. -/
def pmVout (pec : Bool) (s : State) : State := pmWord pec pg18 (fun s p => s.fld (rRAIL_VI p) RAIL_VI_MV * 4096 / 1000) s
/-- READ_IOUT. -/
def pmIout (pec : Bool) (s : State) : State := pmWord pec pg18 (fun s p => lin11 (s.fld (rRAIL_VI p) RAIL_VI_MA) 1000) s
/-- READ_POUT. -/
def pmPout (pec : Bool) (s : State) : State := pmWord pec pg18 (fun s p => lin11 (s.fld (rRAIL_P p) RAIL_P_MW) 1000) s
/-- READ_PIN. -/
def pmPin (pec : Bool) (s : State) : State := pmWord pec pg0 (fun s p => lin11 (s.fld (rRAIL_P p) RAIL_P_MW) 1000) s
/-- READ_TEMPERATURE_1, _2 and _3: a field of TEMP. -/
def pmTemp (f : Fld) (pec : Bool) (s : State) : State := pmWord pec (fun _ => true) (fun s _ => lin11 (sext 16 (s.fld rTEMP f)) 16) s
/-- PMBUS_REVISION. -/
def pmRevision (pec : Bool) (s : State) : State := pmRead pec (fun _ => some [0x33]) s
/-- MFR_ID: the block "YUNAMAN". -/
def pmMfrId (pec : Bool) (s : State) : State := pmRead pec (fun _ => some [7, 0x59, 0x55, 0x4E, 0x41, 0x4D, 0x41, 0x4E]) s
/-- MFR_MODEL: the block "SGN-P1". -/
def pmMfrModel (pec : Bool) (s : State) : State := pmRead pec (fun _ => some [6, 0x53, 0x47, 0x4E, 0x2D, 0x50, 0x31]) s
/-- MFR_POWER_CAP: a read returns CAP_W; a write sets it, refused above 1,200 W or below 0 (R523). -/
def pmPowerCap (pec : Bool) (w : Option Nat) (s : State) : State :=
  pmbus pec (fun s => match w with
    | none => (some (leBytes 2 (lin11 (s.fld rTHR_CTL THR_CTL_CAP_W) 1)), s)
    | some x =>
      let v := ofLin11 x
      if 0 ≤ v ∧ v ≤ 1200 then (some [], s.setFld rTHR_CTL THR_CTL_CAP_W v.toNat) else (none, s)) s

/-- ALERT_RESPONSE (R524): the target that asserts ALERT_N answers with its address. -/
def alertResponse (s : State) : State :=
  pmbus true (fun s => if s.board.alert then (some [0x94], alertEnd (s.modBoard fun b => { b with alertRead := true })) else (none, s)) s

/-! JTAG (R526, R527). -/

/-- Load an instruction; EXTEST and EXTEST_PULSE start a warm reset that they hold. -/
def jtagLoad (code : Nat) (s : State) : State :=
  if !s.board.aux then s
  else if code = 0x00 ∨ (code = 0x0C ∧ s.board.vin = true) then warmReset (s.modBoard fun b => { b with ir := code })
  else
    let listed := code == 0x01 || code == 0x02 || (code == 0x10 && s.fld rCK_DEBUG CK_DEBUG_LEVEL != 0)
    s.modBoard fun b => { b with ir := if listed then code else 0xFF }

/-- BYPASS, or any instruction code that acts as it: the 1-bit register captures 0. -/
def jtagBypass (s : State) : State := if s.board.aux then (jtagLoad 0xFF s).modBoard fun b => { b with dr := 0 } else s
/-- IDCODE. -/
def jtagIdcode (s : State) : State := if s.board.aux then (jtagLoad 0x01 s).modBoard fun b => { b with dr := 0x05341A7F } else s
/-- SAMPLE/PRELOAD: the signals' values are captured, which the model leaves free; `v` is shifted in. -/
def jtagSample (v : Nat) (s : State) : State :=
  if s.board.aux then
    let (w, s) := (jtagLoad 0x02 s).fresh
    s.modBoard fun b => { b with dr := w.toNat, bsr := v }
  else s
/-- EXTEST. -/
def jtagExtest (s : State) : State := jtagLoad 0x00 s
/-- EXTEST_PULSE: without VIN64 it acts as BYPASS (log 51). -/
def jtagExtestPulse (s : State) : State := jtagLoad 0x0C s
/-- DEBUG: the debug access of CK_DEBUG.LEVEL; BYPASS at level 0. -/
def jtagDebug (s : State) : State := jtagLoad 0x10 s
/-- TRST_N: the TAP is reset to IDCODE. -/
def trstN (s : State) : State := s.modBoard fun b => { b with ir := 1 }

end Sys2Proof.Machine
end

