-- ==== Sys2Proof/Machine/Mmio.lean ====
section
/-! DEFINITION. Register space as memory-mapped accesses reach it (R11-R13, R41): the write of a register by its own rule or by
its access types, and the read with its effect; and the companion's management path (R417). -/

namespace Sys2Proof.Machine

/-! Blocks. -/

/-- A register with no rule of its own. -/
def plainWrite (o : Origin) (a : Nat) (v : Word) (s : State) : State := regWrite o a (fun _ => true) (fun s => typedWrite s a v) s

/-- A register whose write needs `ok`. -/
def guardedWrite (o : Origin) (a : Nat) (ok : State → Bool) (v : Word) (s : State) : State :=
  regWrite o a ok (fun s => typedWrite s a v) s

/-- A write to an offset with no register (R11). -/
def refuse (s : State) : State := { s with rsp := .err }

/-- PART. -/
def writePart (o : Origin) (a off : Nat) (v : Word) (s : State) : State :=
  if off < 0x40 then opPtRange o (off / 8) v s
  else if off < 0x80 ∧ fbit v PT_CTL_RESET = true then opPtReset o ((off - 0x40) / 8) s
  else plainWrite o a v s

/-- HG of Headgate `h`. -/
def writeHg (o : Origin) (a h off : Nat) (v : Word) (s : State) : State :=
  if off = 0x8 then opHgLease o h v s
  else if off = 0x10 then opHgLeaseCfg o h v s
  else if off = 0x28 then opHgCoreRst o h v s
  else if off = 0x30 then opHgReset o h v s
  else if 0x10000 ≤ off ∧ off < 0x11000 then opFwCore o (h * 512 + (off - 0x10000) / 8) v s
  else plainWrite o a v s

/-- LOGLINE. -/
def writeLog (o : Origin) (a off : Nat) (v : Word) (s : State) : State :=
  let p := off / 0x100
  let r := off % 0x100
  if r = 0x00 ∨ r = 0x08 ∨ r = 0x40 ∨ r = 0x48 ∨ r = 0x50 ∨ r = 0x58 then opSnGuarded o p a v s
  else if r = 0x10 then opLogCommit o p v s
  else if r = 0x38 then opSnCtl o p v s
  else if r = 0x60 then opSnCmd o p (fget v SN_CMD_OP) s
  else plainWrite o a v s

/-- FLUME of core `c` (R292); a 1 for FL_CFG.RT is ignored without the licence's real-time feature (R283). -/
def writeFlume (o : Origin) (a c off : Nat) (v : Word) (s : State) : State :=
  let v := if a = rFL_CFG c (off / 0x40) ∧ s.flag (rFL_CTL c) FL_CTL_RT_LIC = false then fset v FL_CFG_RT 0 else v
  if off < 0x1000 then guardedWrite o a (fun s => flState s c (off / 0x40) != flARMED) v s else plainWrite o a v s

/-- CULVERT of core `c` (R308). -/
def writeCulvert (o : Origin) (a c off : Nat) (v : Word) (s : State) : State :=
  let n := off / 0x40
  let r := off % 0x40
  if 0x200 ≤ off then plainWrite o a v s
  else if r = 0x08 then opCvCount o c n v s
  else if r = 0x00 ∨ r = 0x20 then guardedWrite o a (chIdle (.cv c n)) v s
  else plainWrite o a v s

/-- KNOT of core `c`. -/
def writeKnot (o : Origin) (a c off : Nat) (v : Word) (s : State) : State :=
  if off < 0x200 then opKnotWord o (8192 + 64 * c + off / 8) v s else plainWrite o a v s

/-- A write of SLU_CTL: ENABLE, and ABORT (R223, R225). -/
def opSluCtl (o : Origin) (n : Nat) (v : Word) (s : State) : State :=
  let s := plainWrite o (rSLU_CTL n) v s
  if fbit v SLU_CTL_ABORT then opSluAbort o n s else s

/-- SC of stack `n`. -/
def writeSc (o : Origin) (a n off : Nat) (v : Word) (s : State) : State :=
  if off = 0x40000 then opSluDoorbell o n v s
  else if off = 0x40008 then opSluBcast o n v s
  else if off = 0x40018 then (if fbit v SLU_ERR_VALID then opSluErrClear o n s else guardedWrite o a (sluErrMay o n) v s)
  else if off = 0x40020 then opSluCtl o n v s
  else if 0x60040 ≤ off ∧ off < 0x60060 then opBret o n ((off - 0x60040) / 8) v s
  else plainWrite o a v s

/-- CMEM_CFG: the write, after which the master loads the partition's cores again (R230, R498). -/
def writeCmem (o : Origin) (p : Nat) (v : Word) (s : State) : State :=
  let t := opCmem o p v s
  if t.rsp = .ok 0 then fwStart (loadCores t p) t else t

/-- LEDGER (R266). -/
def writeLedger (o : Origin) (a off : Nat) (v : Word) (s : State) : State :=
  if 0x1000 ≤ off then
    let w := (off - 0x1000) / 0x100
    let r := off % 0x100
    if r = 0x10 then guardedWrite o a (fun _ => fget v LE_ARG_LOC != 3) v s
    else if r = 0x18 then opLedger o w (fget v LE_CMD_OP) s
    else plainWrite o a v s
  else if 0x100 ≤ off ∧ off < 0x300 ∧ (off - 0x100) % 0x40 = 0 then writeCmem o ((off - 0x100) / 0x40) v s
  else plainWrite o a v s

/-- GAUGE (R165-R167). -/
def writeGauge (o : Origin) (a off : Nat) (v : Word) (s : State) : State :=
  if 0x10 ≤ off ∧ off < 0x50 then opGrange o ((off - 0x10) / 8) v s
  else if 0x1000 ≤ off then
    let p := (off - 0x1000) / 0x100
    if off % 0x100 = 0x08 then regWrite o a (fun _ => true) (geCmd p v) s
    else if off % 0x100 = 0x18 then opSrSeed o p v s
    else plainWrite o a v s
  else plainWrite o a v s

/-- HITCH (R328, R338). -/
def writeHitch (o : Origin) (a off : Nat) (v : Word) (s : State) : State :=
  if off < 0x800 then
    let h := off / 0x20
    if off % 0x20 = 0 then opHtCfg o h v s
    else if off % 0x20 = 0x08 then guardedWrite o a (htStatOk o h) v s
    else guardedWrite o a (hitchMay o h none) v s
  else if 0x1000 ≤ off ∧ off < 0x2000 then opHitchMask o ((off - 0x1000) / 0x80) (off % 0x80 / 8) v s
  else plainWrite o a v s

/-- The channels of a port whose bits an origin may clear in HC_IRQ, in both halves of the register (R394). -/
def hcMine (o : Origin) (p : Nat) (s : State) : Nat :=
  match o with
  | .core c => (List.range 16).foldl (fun m n =>
      if s.fld (rHC_CFG p n) HC_CFG_PART = s.part c then m ||| (2 ^ n) ||| (2 ^ (n + 16)) else m) 0
  | _ => 2 ^ 32 - 1

/-- A write of HC_CFG: M-level code changes DMOD only (R394). -/
def opHcCfg (o : Origin) (p n : Nat) (v : Word) (s : State) : State :=
  let v := match o with
    | .core _ => fset (s.reg (rHC_CFG p n)) HC_CFG_DMOD (fget v HC_CFG_DMOD)
    | _ => v
  plainWrite o (rHC_CFG p n) v s

/-- HAWSER of port `p` (R308, R392, R394). -/
def writeHawser (o : Origin) (a p off : Nat) (v : Word) (s : State) : State :=
  if off = 0x8 then opHwCtl o p v s
  else if 0x1000 ≤ off ∧ off < 0x1400 then
    let n := (off - 0x1000) / 0x40
    let r := off % 0x40
    if r = 0x00 then opHcHead o p n v s
    else if r = 0x08 then regWrite o a (chIdle (.hc p n)) (chCountWrite (.hc p n) v) s
    else if r = 0x20 then guardedWrite o a (chIdle (.hc p n)) v s
    else if r = 0x38 then opHcCfg o p n v s
    else plainWrite o a v s
  else if off = 0x1400 then plainWrite o a (v &&& n64 (hcMine o p s)) s
  else plainWrite o a v s

/-- CAPSTAN. -/
def writeCapstan (o : Origin) (a off : Nat) (v : Word) (s : State) : State :=
  if off < 0x20 then opCapDim o (off / 8) v s
  else if off = 0x30 then opCapDoorbell o v s
  else if 0x1000 ≤ off then opCapGrp o ((off - 0x1000) / 8) v s
  else plainWrite o a v s

/-- TETHER (R414, R416, R418, R422). -/
def writeTether (o : Origin) (a off : Nat) (v : Word) (s : State) : State :=
  if off = 0x8 then opTtCtl o v s
  else if 0x100 ≤ off ∧ off < 0x180 then opTtCw o (off % 0x10 == 8) ((off - 0x100) / 0x10) v s
  else if 0x200 ≤ off ∧ off < 0x240 then opTtMsi o ((off - 0x200) / 8) v s
  else if 0x1000 ≤ off ∧ off < 0x3000 then
    let h := (off - 0x1000) / 0x1000
    let r := off % 0x1000
    if r < 0x100 then guardedWrite o a (mbWordOk o h false) v s
    else if r < 0x200 then guardedWrite o a (mbWordOk o h true) v s
    else if r = 0x200 then opMbCtl o h v s
    else plainWrite o a v s
  else plainWrite o a v s

/-- A memory-mapped write of `v` to the register-space offset `a` (R11-R13). -/
def mmioWrite (o : Origin) (a : Nat) (v : Word) (s : State) : State :=
  if a % 8 ≠ 0 then refuse s
  else match blkOf a with
    | none => refuse s
    | some (b, i, off) => match b with
      | .part => writePart o a off v s
      | .cal => if off = 0x10 then opCalCtl o v s else plainWrite o a v s
      | .telem => if off = 0x8 then opThrCtl o v s else plainWrite o a v s
      | .fuse => refuse s
      | .hg => writeHg o a i off v s
      | .cleat => if off = 0 then opCk o (fget v CK_CMD_OP) (fget v CK_CMD_ARG) s else plainWrite o a v s
      | .logline => writeLog o a off v s
      | .core => opCoreReg o i off v s
      | .flume => writeFlume o a i off v s
      | .culvert => writeCulvert o a i off v s
      | .knot => writeKnot o a i off v s
      | .sc => writeSc o a i off v s
      | .slice => if off = 0 then guardedWrite o a (fun _ => decide (fget v SL_CTL_RETAIN_MAX ≤ 16)) v s else plainWrite o a v s
      | .ledger => writeLedger o a off v s
      | .gauge => writeGauge o a off v s
      | .chipknot => opKnotWord o (off / 8) v s
      | .hitch => writeHitch o a off v s
      | .hawser => writeHawser o a i off v s
      | .capstan => writeCapstan o a off v s
      | .spillway => if off < 0x20 then opSpw o (off / 8) v s else refuse s
      | .tether => writeTether o a off v s
      | .chip | .errlog | .lc | .weir | .canal | .splice => plainWrite o a v s

/-! Reads. -/

/-- Requests in the command queue of a channel of an LPDDR5X controller (R262). -/
def lcQueued (s : State) (n ch : Nat) : Nat := ((s.lc n).queue.filter fun p => (lpMap p.addr).2.1 == ch).length

/-- The value of a register that shows state held elsewhere; others are held as such. -/
def regShow (s : State) (a : Nat) : Word :=
  match blkOf a with
  | some (.telem, _, 0) => n64 (pwrState s)
  | some (.slice, n, 8) =>
    fset (fset (fset 0 SL_OCC_BUF (bufUsed s n)) SL_OCC_PC1 (pcSlots s n (2 * (n % 16) + 1))) SL_OCC_PC0 (pcSlots s n (2 * (n % 16)))
  | some (.lc, n, 8) =>
    n64 (lcQueued s n 0 ||| lcQueued s n 1 <<< 8 ||| lcQueued s n 2 <<< 16 ||| lcQueued s n 3 <<< 24)
  | some (.sc, n, 0x40010) =>
    if slState s n = slWAIT then
      let (l, k, c) := slWaits s n
      fsetB (fsetB (fsetB (s.reg a) SLU_STAT_W_LOG l) SLU_STAT_W_KNOT k) SLU_STAT_W_CSEQ c
    else s.reg a
  | some (.splice, _, 0) => fsetB (s.reg a) SP_STAT_SB_UP (sbUp s)
  | some (.capstan, _, 0x38) => capRq s
  | _ => s.reg a

/-- A memory-mapped read (R11, R13): a core's registers through the bank VIEW names (R82). -/
def mmioRead (o : Origin) (a : Nat) (s : State) : State :=
  if !mayReg s o false a then { gateNack o a s with rsp := .err }
  else match blkOf a with
    | some (.core, c, off) =>
      match coreRegRead c (s.fld (rCORE_MODE c) CORE_MODE_VIEW) off s with
      | some (v, t) => { t with rsp := .ok v }
      | none => { s with rsp := .err }
    | _ => { readClear s a with rsp := .ok (regShow s a &&& readMask a) }

/-! The management path (R417). -/

/-- Offset in register space of a MGMT message's address, bits 47:3 of which it carries (R401); none outside it. -/
def mgmtAddr (m : TMsg) : Option Nat := if isRegSpace (m.addr * 8) then some (m.addr * 8 - 0xF00000000000) else none

/-- REG_RSP of an access that has been done. -/
def regRsp (k : Nat) (m : TMsg) (s : State) : State :=
  match s.rsp with
  | .ok v => ttReply k m 5 2 0 0 (BitVec.ofNat 1024 v.toNat) s
  | _ => ttReply k m 5 2 3 0 0 s

/-- REG_RD (R417). -/
def regRd (k : Nat) (m : TMsg) (s : State) : State :=
  onMsg 5 0 k m (fun s =>
    let s := takeMsg k m s
    regRsp k m (match mgmtAddr m with | some a => mmioRead .comp a s | none => refuse s)) s

/-- REG_WR (R417). -/
def regWr (k : Nat) (m : TMsg) (s : State) : State :=
  onMsg 5 1 k m (fun s =>
    let s := takeMsg k m s
    regRsp k m (match mgmtAddr m with | some a => mmioWrite .comp a (BitVec.ofNat 64 m.data.toNat) s | none => refuse s)) s

/-- TCFG_MMIO_WRITE: a write of TCFGt of core `c` (R93, R96). -/
def opTcfgMmio (o : Origin) (c t : Nat) (v : Word) (s : State) : State :=
  if t < 8 then opCoreReg o c (0x100 + 8 * t) v s else s

end Sys2Proof.Machine
end

