-- ==== Sys2Proof/Machine/LoadStore.lean ====
section
/-! DEFINITION. Scalar loads and stores (R43, R44, R56, R57, R231, R232, R235), their register-space accesses (R11, R43), and
atomics (R58). -/

namespace Sys2Proof.Machine

/-- The address GA + sext(IMM15) (R56). -/
def memAddr (s : State) (c ga imm : Nat) : Nat := (s.g c ga + w64 (sext 15 imm)).toNat

/-- Does the access take MISALIGN (R57). -/
def misaligned (s : State) (c sz va : Nat) : Bool := va % sz != 0 && !s.flag (rCORE_MODE c) CORE_MODE_ROT

/-- A register-space access of a core: privilege M and aligned 64 bits, else ACCESS; an error response is ACCESS too (R11, R43, R84). -/
def regAccess (c sz va : Nat) (acc : State → State) (ok : Word → State → State) (s : State) : State :=
  if !(s.cur c).isM || sz != 8 || va % 8 != 0 then trap c .access (n64 va) s
  else
    let t := acc s
    match t.rsp with
    | .ok v => ok v t
    | _ => trap c .access (n64 va) t

/-- Virtual and memory lines of an access that passed its checks. -/
def accLines (s : State) (c : Nat) (k : AccK) (va sz : Nat) : List (Nat × Nat) :=
  (vlines va sz).filterMap fun vl =>
    match corePlace s c k (max va (vl * 128)) with
    | .mem pa => some (vl, pa / 128)
    | _ => none

/-- The translations of an access are counted in the core's cache (R254). -/
def touchLines (c : Nat) (ls : List (Nat × Nat)) (s : State) : State := each (fun l s => touchTc c (s.part c) (l.1 * 128) s) ls s

/-- Send a load's reads; with a transaction number missing it does not issue. -/
def loadSend (c gd sz : Nat) (sx : Bool) (va : Nat) (s0 : State) : State :=
  let ls := accLines s0 c .load va sz
  let i := (s0.core c).run
  match sendReads c i 0 0xF ls [] [] (touchLines c ls s0) with
  | none => s0
  | some (outs, got, s) => memFinish c i (s.modCur c fun x => { x with wait := .mem outs got none (.load gd sz sx va) })

/-- A load's effect on a scratchpad or memory address. -/
def loadAt (c gd sz : Nat) (sx : Bool) (va : Nat) (s : State) : State :=
  match accFault s (s.part c) (s.cur c).isM .load va sz with
  | some (e, ev) => trapAcc c e va ev s
  | none =>
    if inSpad s (s.part c) va then
      let off := va - spadBase s (s.part c)
      if spadTested s c off sz then s
      else match spadBad s c off sz with
        | some o => trap c .dataErr (n64 (spadBase s (s.part c) + o)) (spadSeen c off sz s)
        | none => (spadSeen c off sz s).retireG c gd (loadVal sz sx (leNat (spadBytes s c off sz))) 4
    else loadSend c gd sz sx va s

/-- A load of `sz` bytes. -/
def load (opc sz : Nat) (sx : Bool) (c gd ga imm : Nat) (s : State) : State :=
  issue4 c (encI opc gd ga imm) [gd, ga] true false (fun s =>
    let va := memAddr s c ga imm
    if misaligned s c sz va then trap c .misalign (n64 va) s
    else if isRegSpace va then
      regAccess c sz va (mmioRead (.core c) (va - 0xF00000000000)) (fun v s => s.retireG c gd v 4) s
    else loadAt c gd sz sx va s) s

/-- Cells of the part of a store that lies in virtual line `vl`. -/
def storeCellsIn (va vl : Nat) (bs : List Byte) : Cells :=
  let a := max va (vl * 128)
  let e := min (va + bs.length) ((vl + 1) * 128)
  cellsFrom (a % 128) ((bs.drop (a - va)).take (e - a))

/-- Post a store's writes, one per line; none when a transaction number is missing. -/
def storeSend (c va : Nat) (bs : List Byte) : List (Nat × Nat) → State → Option State
  | [], s => some s
  | (vl, line) :: r, s =>
    match postWrite c line (storeCellsIn va vl bs) 0 0xF false (s.core c).run stStore s with
    | some s => storeSend c va bs r s
    | none => none

/-- A store's effect on a scratchpad or memory address: a memory store retires when its writes have completed (R74). -/
def storeAt (c va : Nat) (bs : List Byte) (s : State) : State :=
  match accFault s (s.part c) (s.cur c).isM .store va bs.length with
  | some (e, ev) => trapAcc c e va ev s
  | none =>
    if inSpad s (s.part c) va then
      let off := va - spadBase s (s.part c)
      if spadTested s c off bs.length then s else (spadWrite c off bs s).retire c 4
    else
      let ls := accLines s c .store va bs.length
      match storeSend c va bs ls (touchLines c ls s) with
      | some t => t.modCur c fun x => { x with wait := .store false va none }
      | none => s

/-- A store of the low `sz` bytes of GS. -/
def store (opc sz c gs ga imm : Nat) (s : State) : State :=
  issue4 c (encI opc gs ga imm) [gs, ga] true false (fun s =>
    let va := memAddr s c ga imm
    let v := s.g c gs
    if misaligned s c sz va then trap c .misalign (n64 va) s
    else if isRegSpace va then
      regAccess c sz va (mmioWrite (.core c) (va - 0xF00000000000) v) (fun _ s => s.retire c 4) s
    else storeAt c va (leBytes sz v.toNat) s) s

/-- LB. -/
def opLb (c gd ga imm : Nat) (s : State) : State := load 0x0A 1 true c gd ga imm s
/-- LBU. -/
def opLbu (c gd ga imm : Nat) (s : State) : State := load 0x0B 1 false c gd ga imm s
/-- LH. -/
def opLh (c gd ga imm : Nat) (s : State) : State := load 0x0C 2 true c gd ga imm s
/-- LHU. -/
def opLhu (c gd ga imm : Nat) (s : State) : State := load 0x0D 2 false c gd ga imm s
/-- LW. -/
def opLw (c gd ga imm : Nat) (s : State) : State := load 0x0E 4 true c gd ga imm s
/-- LWU. -/
def opLwu (c gd ga imm : Nat) (s : State) : State := load 0x0F 4 false c gd ga imm s
/-- LD. -/
def opLd (c gd ga imm : Nat) (s : State) : State := load 0x10 8 true c gd ga imm s
/-- SB. -/
def opSb (c gs ga imm : Nat) (s : State) : State := store 0x11 1 c gs ga imm s
/-- SH. -/
def opSh (c gs ga imm : Nat) (s : State) : State := store 0x12 2 c gs ga imm s
/-- SW. -/
def opSw (c gs ga imm : Nat) (s : State) : State := store 0x13 4 c gs ga imm s
/-- SD. -/
def opSd (c gs ga imm : Nat) (s : State) : State := store 0x14 8 c gs ga imm s

/-! Atomics (R58). -/

/-- Send an atomic to its home; the L1 drops its copy of the line (R232). -/
def atomSend (op : Nat) (wide : Bool) (c gd gb va pa : Nat) (s : State) : State :=
  match (s.core c).freeTx with
  | none => s
  | some x =>
    let s := l1Drop c (pa / 128) (touchTc c (s.part c) va s)
    let pay := (s.g c gb).toNat ||| ((s.g c gd).toNat <<< 64)
    let s := sendReq c { coreReq s c opATOM (pa / 128) x with
      addr := pa, sub := 2 * op + b2n wide, payload := BitVec.ofNat 1024 pay, size := if wide then 8 else 4, len16 := 1 } s
    s.modCur c fun y => { y with wait := .mem [(x, va / 128)] [] none (.atomic gd va wide) }

/-- An atomic: FN bit 0 is the width, bits 4:1 the operation, bits 9:5 must be 0. -/
def atomic (op : Nat) (wide : Bool) (rsv c gd ga gb : Nat) (s : State) : State :=
  issue4 c (encS 0x15 gd ga gb ((rsv <<< 5) ||| (op <<< 1) ||| b2n wide)) [gd, ga, gb] (decide (rsv = 0)) false (fun s =>
    let va := (s.g c ga).toNat
    let sz := if wide then 8 else 4
    let p := s.part c
    if va % sz ≠ 0 then trap c .misalign (n64 va) s
    else if isRegSpace va ∨ inSpad s p va = true ∨ inCw s p va = true then trap c .access (n64 va) s
    else match accFault s p (s.cur c).isM .store va sz with
      | some (e, ev) => trapAcc c e va ev s
      | none =>
        match corePlace s c .store va with
        | .mem pa => atomSend op wide c gd gb va pa s
        | _ => s) s

/-- ATOMIC_SWAP. -/
def opAtomSwap (wide : Bool) (rsv c gd ga gb : Nat) (s : State) : State := atomic 0 wide rsv c gd ga gb s
/-- ATOMIC_ADD. -/
def opAtomAdd (wide : Bool) (rsv c gd ga gb : Nat) (s : State) : State := atomic 1 wide rsv c gd ga gb s
/-- ATOMIC_AND. -/
def opAtomAnd (wide : Bool) (rsv c gd ga gb : Nat) (s : State) : State := atomic 2 wide rsv c gd ga gb s
/-- ATOMIC_OR. -/
def opAtomOr (wide : Bool) (rsv c gd ga gb : Nat) (s : State) : State := atomic 3 wide rsv c gd ga gb s
/-- ATOMIC_XOR. -/
def opAtomXor (wide : Bool) (rsv c gd ga gb : Nat) (s : State) : State := atomic 4 wide rsv c gd ga gb s
/-- ATOMIC_MAX. -/
def opAtomMax (wide : Bool) (rsv c gd ga gb : Nat) (s : State) : State := atomic 5 wide rsv c gd ga gb s
/-- ATOMIC_MIN. -/
def opAtomMin (wide : Bool) (rsv c gd ga gb : Nat) (s : State) : State := atomic 6 wide rsv c gd ga gb s
/-- ATOMIC_MAXU. -/
def opAtomMaxu (wide : Bool) (rsv c gd ga gb : Nat) (s : State) : State := atomic 7 wide rsv c gd ga gb s
/-- ATOMIC_MINU. -/
def opAtomMinu (wide : Bool) (rsv c gd ga gb : Nat) (s : State) : State := atomic 8 wide rsv c gd ga gb s
/-- ATOMIC_CAS. -/
def opAtomCas (wide : Bool) (rsv c gd ga gb : Nat) (s : State) : State := atomic 9 wide rsv c gd ga gb s

end Sys2Proof.Machine
end

