-- ==== Sys2Proof/Machine/EngMove.lean ====
section
/-! DEFINITION. The end of a lazy engine-state move (R70): the held instruction issues. -/

namespace Sys2Proof.Machine

/-- Issue the instruction that started an engine-state move; no other command is held by one (R70 step 4). -/
def engRun (i : Instr) (s : State) : State :=
  match i with
  | .csrrw c gd ga imm => csrOp 0 0x1B c gd ga imm i s
  | .csrrs c gd ga imm => csrOp 1 0x1C c gd ga imm i s
  | .csrrc c gd ga imm => csrOp 2 0x1D c gd ga imm i s
  | .tload c tt ga gb rsv => opTload c tt ga gb rsv i s
  | .tstore c tt ga gb rsv => opTstore c tt ga gb rsv i s
  | .tzero c tt rsv => opTzero c tt rsv i s
  | .trel c mask rsv => opTrel c mask rsv i s
  | .tconf c tt ga rsv => opTconf c tt ga rsv i s
  | .mma c sb sa tb ta btr atr bsrc asrc ovw acc r0 r1 ns ms ks => opMma c sb sa tb ta btr atr bsrc asrc ovw acc r0 r1 ns ms ks i s
  | .mdrain c r0 fmt rm gb ga td r1 dst acc r2 nc coff tag => opMdrain c r0 fmt rm gb ga td r1 dst acc r2 nc coff tag i s
  | .mcfg c gd ga gb fn => opMcfg c gd ga gb fn i s
  | .varithAdd c vd va vb pm z w => opVarithAdd c vd va vb pm z w i s
  | .varithSub c vd va vb pm z w => opVarithSub c vd va vb pm z w i s
  | .varithMul c vd va vb pm z w => opVarithMul c vd va vb pm z w i s
  | .varithDiv c vd va vb pm z w => opVarithDiv c vd va vb pm z w i s
  | .varithMin c vd va vb pm z w => opVarithMin c vd va vb pm z w i s
  | .varithMax c vd va vb pm z w => opVarithMax c vd va vb pm z w i s
  | .varithAbs c vd va vb pm z w => opVarithAbs c vd va vb pm z w i s
  | .varithNeg c vd va vb pm z w => opVarithNeg c vd va vb pm z w i s
  | .varithSqrt c vd va vb pm z w => opVarithSqrt c vd va vb pm z w i s
  | .cvtfi c vd va vb pm z w => opCvtfi c vd va vb pm z w i s
  | .cvtif c vd va vb pm z w => opCvtif c vd va vb pm z w i s
  | .scaleb c vd va vb pm z w => opScaleb c vd va vb pm z w i s
  | .varithMov c vd va vb pm z w => opVarithMov c vd va vb pm z w i s
  | .varithSel c vd va vb pm z w => opVarithSel c vd va vb pm z w i s
  | .vintAdd c vd va vb pm z w => opVintAdd c vd va vb pm z w i s
  | .vintSub c vd va vb pm z w => opVintSub c vd va vb pm z w i s
  | .vintMul c vd va vb pm z w => opVintMul c vd va vb pm z w i s
  | .vintAnd c vd va vb pm z w => opVintAnd c vd va vb pm z w i s
  | .vintOr c vd va vb pm z w => opVintOr c vd va vb pm z w i s
  | .vintXor c vd va vb pm z w => opVintXor c vd va vb pm z w i s
  | .vintSll c vd va vb pm z w => opVintSll c vd va vb pm z w i s
  | .vintSrl c vd va vb pm z w => opVintSrl c vd va vb pm z w i s
  | .vintSra c vd va vb pm z w => opVintSra c vd va vb pm z w i s
  | .vintMin c vd va vb pm z w => opVintMin c vd va vb pm z w i s
  | .vintMax c vd va vb pm z w => opVintMax c vd va vb pm z w i s
  | .vfma c vd va vb pm z w => opVfma c vd va vb pm z w i s
  | .vfmaSub c vd va vb pm z w => opVfmaSub c vd va vb pm z w i s
  | .vfmaNeg c vd va vb pm z w => opVfmaNeg c vd va vb pm z w i s
  | .vscalAdd c vd va vb pm z w => opVscalAdd c vd va vb pm z w i s
  | .vscalSub c vd va vb pm z w => opVscalSub c vd va vb pm z w i s
  | .vscalMul c vd va vb pm z w => opVscalMul c vd va vb pm z w i s
  | .vscalDiv c vd va vb pm z w => opVscalDiv c vd va vb pm z w i s
  | .vscalMin c vd va vb pm z w => opVscalMin c vd va vb pm z w i s
  | .vscalMax c vd va vb pm z w => opVscalMax c vd va vb pm z w i s
  | .vcmpEq c vd va vb pm z w => opVcmpEq c vd va vb pm z w i s
  | .vcmpNe c vd va vb pm z w => opVcmpNe c vd va vb pm z w i s
  | .vcmpLt c vd va vb pm z w => opVcmpLt c vd va vb pm z w i s
  | .vcmpLe c vd va vb pm z w => opVcmpLe c vd va vb pm z w i s
  | .vcmpGt c vd va vb pm z w => opVcmpGt c vd va vb pm z w i s
  | .vcmpGe c vd va vb pm z w => opVcmpGe c vd va vb pm z w i s
  | .vcmpUnord c vd va vb pm z w => opVcmpUnord c vd va vb pm z w i s
  | .vpredAnd c vd va vb pm z w => opVpredAnd c vd va vb pm z w i s
  | .vpredOr c vd va vb pm z w => opVpredOr c vd va vb pm z w i s
  | .vpredXor c vd va vb pm z w => opVpredXor c vd va vb pm z w i s
  | .vpredAndn c vd va vb pm z w => opVpredAndn c vd va vb pm z w i s
  | .fromg c vd va vb pm z w => opFromg c vd va vb pm z w i s
  | .tog c vd va vb pm z w => opTog c vd va vb pm z w i s
  | .bcast c vd va vb pm z w => opBcast c vd va vb pm z w i s
  | .vext c vd va vb pm z w => opVext c vd va vb pm z w i s
  | .vins c vd va vb pm z w => opVins c vd va vb pm z w i s
  | .rot c vd va vb pm z w => opRot c vd va vb pm z w i s
  | .vcvtWiden c vd va nfmt part rm rsv w => opVcvtWiden c vd va nfmt part rm rsv w i s
  | .vcvtNarrow c vd va nfmt part rm rsv w => opVcvtNarrow c vd va nfmt part rm rsv w i s
  | .vld c vd ga pm imm => opVld c vd ga pm imm i s
  | .vst c vs ga pm imm => opVst c vs ga pm imm i s
  | .vtr c vd ga tt tr rsv => opVtr c vd ga tt tr rsv i s
  | .vtw c vs ga tt tr rsv => opVtw c vs ga tt tr rsv i s
  | .vredSum c vd va vb pm g ts w => opVredSum c vd va vb pm g ts w i s
  | .vredMax c vd va vb pm g ts w => opVredMax c vd va vb pm g ts w i s
  | .vredSumsq c vd va vb pm g ts w => opVredSumsq c vd va vb pm g ts w i s
  | .vredDot c vd va vb pm g ts w => opVredDot c vd va vb pm g ts w i s
  | .vfun c vd va slot d pm z w rsv => opVfun c vd va slot d pm z w rsv i s
  | .vmxs c vd va vb byte w => opVmxs c vd va vb byte w i s
  | .vcfg c vd ga rest => opVcfg c vd ga rest i s
  | .vfact c td ga ta gb rsv => opVfact c td ga ta gb rsv i s
  | .vsolve c vd va ga tf rsv => opVsolve c vd va ga tf rsv i s
  | _ => s

/-- ENG_STATE_MOVE_DONE (R70): the move of core `c` saves and loads, or waits, or faults with the instruction unissued.  A
CORE_MODE write that waits for the boundary goes on waiting while the held instruction issues (R66). -/
def engStateMoveDone (c : Nat) (s : State) : State :=
  match (s.core c).move with
  | none => s
  | some (i, ins) =>
    let close := fun (s : State) => s.modCore c fun k => { k with move := none }
    match moveEngine c i s with
    | .wait s' => s'
    | .fault e va => trap c e (n64 va) (close s)
    | .done s' =>
      let pend := (s'.core c).modePend
      (engRun ins (close (s'.modCore c fun k => { k with modePend := none }))).modCore c fun k => { k with modePend := pend }

end Sys2Proof.Machine
end

