-- ==== Sys2Proof/Machine/Clock.lean ====
section
/-! DEFINITION. What passes with time alone: one cycle of every island (R17, R40, R81, R121, R127, R225, R441, R443, R523; log 2). -/

namespace Sys2Proof.Machine

/-- The cycle counters of the Canal and Weir islands (R40). -/
def cycRegs : List Nat := [rCYC_CANAL_W, rCYC_CANAL_E, rCYC_WEIR_W, rCYC_WEIR_E]

/-- A cycle of the islands that STANDBY powers too: always-on and both Headgates (R9, R23, R26, R514). -/
def standbyTick (s : State) : State :=
  if s.board.aux then
    ({ s with board := { s.board with aonCycle := s.board.aonCycle + 1 } }.count rCYC_HG_W 1).count rCYC_HG_E 1
  else s

/-- IPEND.CYC of the core whose CYCLE_CMP register `x` is (R81). -/
def cycTick (x : Nat × Word) (s : State) : State :=
  let c := (x.1 - rCYCLE_CMP 0) / 0x10000
  if x.1 = rCYCLE_CMP c ∧ coreIdOk c = true then cycSet c s else s

/-- Is a writer of partition `p` held for a copy (SN_STALL, R430, R442). -/
def snHolds (s : State) (p : Nat) : Bool :=
  s.held.any fun q => q.part == p && pktWrites q && !isCw q.addr && ((s.snap p).copies.any fun c => c.frame == frameOf q.addr)

/-- Does either half run above level 0 (THR_CYC, R523). -/
def thrOn (s : State) : Bool := s.fld rTHR_STAT THR_STAT_LVL_W != 0 || s.fld rTHR_STAT THR_STAT_LVL_E != 0

/-- A cycle of core `c`'s array (R121, R127, R139): the cells perform K steps, or the oldest MMA waits for a drain, for a
stream's bytes, or for the fill of its run. -/
def arrTick (c : Nat) (s : State) : State :=
  let k := s.core c
  if arrStopped s c then s
  else
    let on := k.arr.any fun e => e.isMma && decide (0 < e.kDone)
    let run := fun (s : State) => if on then s.count (rARR_ACTIVE c) 1 else s.count (rARR_FILL c) 1
    match findEnt k fun e => e.isMma && decide (e.kDone < e.k) with
    | none => if on then run s else s
    | some (j, e) =>
      if (before k j).any (fun d => !d.isMma && d.acc == e.acc && !d.readDone) then s.count (rACC_WAIT c) 1
      else
        let dryA := !slotCan s c e.a
        let dryB := !slotCan s c e.b
        if dryA || dryB then (s.count (rFEED_DRY_A c) (b2n dryA)).count (rFEED_DRY_B c) (b2n dryB) else run s

/-- A cycle of Sluice unit `n` (R17, R225). -/
def sluTick (n : Nat) (s : State) : State :=
  let st := slState s n
  if st = slIDLE ∨ st = slHALT then s
  else
    let x := s.slu n
    let s := s.count (rSLU_BUSY n) 1
    if st = slWAIT ∧ logComplete s x.part (hStep x.hdr) = false then s.count (rSLU_LOG_WAIT n) 1 else s

/-- Does stack `n` copy a share of a page (R431, R443). -/
def stackCopies (s : State) (n : Nat) : Bool :=
  (List.range 8).any fun p => (s.snap p).copies.any fun c => c.started &&
    (match c.copy with | some d => lhas (epSC n) (copyUnits s d) | none => false)

/-- One cycle of every island with no command: the counters of the islands that have power count (log 2). -/
def tick (s : State) : State :=
  let s := standbyTick s
  if powered s then
    let s := { s with coreTick := s.coreTick + 1 }
    let s := each cycTick s.regs s
    let s := each (fun a s => s.count a 1) cycRegs s
    let s := if thrOn s then s.count rTHR_CYC 1 else s
    let s := upto (fun p s => if snHolds s p then s.count (rSN_STALL p) 1 else s) 8 s
    let s := each (fun (x : Nat × Core) s => if x.2.arr.isEmpty then s else arrTick x.1 s) s.cores s
    upto (fun n s => if stackCopies s n then (sluTick n s).count (rSC_SNAP_CYC n) 1 else sluTick n s) 16 s
  else s

/-- A table word has no bits in this part's table, so it spells no command; the queue stays as it is (log 52). -/
def placeWord (s : State) (i : Option Instr) : State :=
  match i with
  | some c => { s with pending := c :: s.pending }
  | none => s

end Sys2Proof.Machine
end

