-- ==== Sys2Proof/Machine/RunArray.lean ====
section
/-! DEFINITION. The meanings of the rows of the matrix array (R115-R142): each is its own definition over the shared operations. -/

namespace Sys2Proof.Machine

/-- MMA (R124). -/
def execMma (c sb sa tb ta btr atr bsrc asrc ovw acc r0 r1 ns ms ks : Nat) (s : State) : Host.Outcome State Fault Refusal :=
  .next (opMma c sb sa tb ta btr atr bsrc asrc ovw acc r0 r1 ns ms ks (.mma c sb sa tb ta btr atr bsrc asrc ovw acc r0 r1 ns ms ks) s)

/-- MDRAIN (R132). -/
def execMdrain (c r0 fmt rm gb ga td r1 dst acc r2 nc coff tag : Nat) (s : State) : Host.Outcome State Fault Refusal :=
  .next (opMdrain c r0 fmt rm gb ga td r1 dst acc r2 nc coff tag (.mdrain c r0 fmt rm gb ga td r1 dst acc r2 nc coff tag) s)

/-- MCFG (R137). -/
def execMcfg (c gd ga gb fn : Nat) (s : State) : Host.Outcome State Fault Refusal :=
  .next (opMcfg c gd ga gb fn (.mcfg c gd ga gb fn) s)

/-- MCFG_BARRIER_APPLY (R137). -/
def execMcfgBarrierApply (c : Nat) (s : State) : Host.Outcome State Fault Refusal := .next (mcfgBarrierApply c s)

/-- FEEDER_SLOT_RELEASE (R119). -/
def execFeederSlotRelease (c : Nat) (s : State) : Host.Outcome State Fault Refusal := .next (feederSlotRelease c s)

/-- MMA_COMPLETE (R127). -/
def execMmaComplete (c : Nat) (s : State) : Host.Outcome State Fault Refusal := .next (mmaComplete c s)

/-- MDRAIN_READ_END (R129). -/
def execMdrainReadEnd (c : Nat) (s : State) : Host.Outcome State Fault Refusal := .next (mdrainReadEnd c s)

/-- MDRAIN_WRITTEN (R129). -/
def execMdrainWritten (c : Nat) (s : State) : Host.Outcome State Fault Refusal := .next (mdrainWritten c s)

/-- MDRAIN_COMPLETE (R129). -/
def execMdrainComplete (c : Nat) (s : State) : Host.Outcome State Fault Refusal := .next (mdrainComplete c s)

end Sys2Proof.Machine
end

