-- ==== Sys2Proof/Machine/RunBoard.lean ====
section
/-! DEFINITION. The meanings of the rows of power, thermal, calendar, PMBus and JTAG (R511-R532): each is its own definition over the shared operations. -/

namespace Sys2Proof.Machine

/-- VIN64_GOOD (R511). -/
def execVin64Good (s : State) : Host.Outcome State Fault Refusal := .next (vin64Good s)

/-- VIN64_UNDERVOLTAGE (R511). -/
def execVin64Undervoltage (s : State) : Host.Outcome State Fault Refusal := .next (vin64Under s)

/-- VIN64_OVERVOLTAGE (R511). -/
def execVin64Overvoltage (s : State) : Host.Outcome State Fault Refusal := .next (vin64Over s)

/-- AUX3V3_GOOD (R514). -/
def execAux3v3Good (s : State) : Host.Outcome State Fault Refusal := .next (aux3v3Good s)

/-- AUX3V3_LOSS (R513). -/
def execAux3v3Loss (s : State) : Host.Outcome State Fault Refusal := .next (aux3v3Loss s)

/-- INPUT_CHARGED (R512). -/
def execInputCharged (s : State) : Host.Outcome State Fault Refusal := .next (inputCharged s)

/-- THERM_TRIP (R517). -/
def execThermTrip (s : State) : Host.Outcome State Fault Refusal := .next (thermTrip s)

/-- CAL_TICK (R521). -/
def execCalTick (s : State) : Host.Outcome State Fault Refusal := .next (calTick s)

/-- OSC_STOP (R521). -/
def execOscStop (s : State) : Host.Outcome State Fault Refusal := .next (oscStop s)

/-- VBAT_LOW (R520). -/
def execVbatLow (s : State) : Host.Outcome State Fault Refusal := .next (vbatLow s)

/-- THROTTLE_SAMPLE (R515). -/
def execThrottleSample (h : Nat) (tj : Int) (mw ma : Nat) (s : State) : Host.Outcome State Fault Refusal :=
  .next (throttleSample h tj mw ma s)

/-- TELEM_UPDATE (R522). -/
def execTelemUpdate (rails : List (Nat × Nat × Nat)) (tjw tje tmod : Int) (s : State) : Host.Outcome State Fault Refusal :=
  .next (telemUpdate rails tjw tje tmod s)

/-- THR_CTL_WRITE (R523). -/
def execThrCtlWrite (o : Origin) (v : Word) (s : State) : Host.Outcome State Fault Refusal := .next (opThrCtl o v s)

/-- CAL_LOAD (R521). -/
def execCalLoad (o : Origin) (s : State) : Host.Outcome State Fault Refusal := .next (opCalLoad o s)

/-- PAGE (R525). -/
def execPmPage (pec : Bool) (w : Option Nat) (s : State) : Host.Outcome State Fault Refusal := .next (pmPage pec w s)

/-- CLEAR_FAULTS (R525). -/
def execPmClearFaults (pec : Bool) (s : State) : Host.Outcome State Fault Refusal := .next (pmClear pec s)

/-- CAPABILITY (R525). -/
def execPmCapability (pec : Bool) (s : State) : Host.Outcome State Fault Refusal := .next (pmCapability pec s)

/-- VOUT_MODE (R525). -/
def execPmVoutMode (pec : Bool) (s : State) : Host.Outcome State Fault Refusal := .next (pmVoutMode pec s)

/-- STATUS_WORD (R525). -/
def execPmStatusWord (pec : Bool) (s : State) : Host.Outcome State Fault Refusal := .next (pmStatusWord pec s)

/-- STATUS_TEMPERATURE (R525). -/
def execPmStatusTemperature (pec : Bool) (s : State) : Host.Outcome State Fault Refusal := .next (pmStatusTemp pec s)

/-- READ_VIN (R525). -/
def execPmReadVin (pec : Bool) (s : State) : Host.Outcome State Fault Refusal := .next (pmVin pec s)

/-- READ_IIN (R525). -/
def execPmReadIin (pec : Bool) (s : State) : Host.Outcome State Fault Refusal := .next (pmIin pec s)

/-- READ_VOUT (R525). -/
def execPmReadVout (pec : Bool) (s : State) : Host.Outcome State Fault Refusal := .next (pmVout pec s)

/-- READ_IOUT (R525). -/
def execPmReadIout (pec : Bool) (s : State) : Host.Outcome State Fault Refusal := .next (pmIout pec s)

/-- READ_POUT (R525). -/
def execPmReadPout (pec : Bool) (s : State) : Host.Outcome State Fault Refusal := .next (pmPout pec s)

/-- READ_PIN (R525). -/
def execPmReadPin (pec : Bool) (s : State) : Host.Outcome State Fault Refusal := .next (pmPin pec s)

/-- READ_TEMPERATURE_1 (R525). -/
def execPmReadTemperature1 (pec : Bool) (s : State) : Host.Outcome State Fault Refusal := .next (pmTemp TEMP_TJ_W pec s)

/-- READ_TEMPERATURE_2 (R525). -/
def execPmReadTemperature2 (pec : Bool) (s : State) : Host.Outcome State Fault Refusal := .next (pmTemp TEMP_TJ_E pec s)

/-- READ_TEMPERATURE_3 (R525). -/
def execPmReadTemperature3 (pec : Bool) (s : State) : Host.Outcome State Fault Refusal := .next (pmTemp TEMP_TMOD pec s)

/-- PMBUS_REVISION (R525). -/
def execPmRevision (pec : Bool) (s : State) : Host.Outcome State Fault Refusal := .next (pmRevision pec s)

/-- MFR_ID (R525). -/
def execPmMfrId (pec : Bool) (s : State) : Host.Outcome State Fault Refusal := .next (pmMfrId pec s)

/-- MFR_MODEL (R525). -/
def execPmMfrModel (pec : Bool) (s : State) : Host.Outcome State Fault Refusal := .next (pmMfrModel pec s)

/-- MFR_POWER_CAP (R525). -/
def execPmMfrPowerCap (pec : Bool) (w : Option Nat) (s : State) : Host.Outcome State Fault Refusal :=
  .next (pmPowerCap pec w s)

/-- ALERT_RESPONSE (R524). -/
def execPmAlertResponse (s : State) : Host.Outcome State Fault Refusal := .next (alertResponse s)

/-- BYPASS (R526). -/
def execJtagBypass (s : State) : Host.Outcome State Fault Refusal := .next (jtagBypass s)

/-- IDCODE (R526). -/
def execJtagIdcode (s : State) : Host.Outcome State Fault Refusal := .next (jtagIdcode s)

/-- SAMPLE_PRELOAD (R526). -/
def execJtagSamplePreload (w : Nat) (s : State) : Host.Outcome State Fault Refusal := .next (jtagSample w s)

/-- EXTEST (R527). -/
def execJtagExtest (s : State) : Host.Outcome State Fault Refusal := .next (jtagExtest s)

/-- EXTEST_PULSE (R527). -/
def execJtagExtestPulse (s : State) : Host.Outcome State Fault Refusal := .next (jtagExtestPulse s)

/-- DEBUG (R526). -/
def execJtagDebug (s : State) : Host.Outcome State Fault Refusal := .next (jtagDebug s)

/-- TRST_N (R526). -/
def execJtagTrstN (s : State) : Host.Outcome State Fault Refusal := .next (trstN s)

end Sys2Proof.Machine
end

