-- ==== Sys2Proof/Machine/RunCapstan.lean ====
section
/-! DEFINITION. The meanings of the rows of Capstan, Hawser, chip-level channels and Spillways (R366-R394): each is its own definition over the shared operations. -/

namespace Sys2Proof.Machine

/-- CAP_DOORBELL (R381). -/
def execCapDoorbell (o : Origin) (v : Word) (s : State) : Host.Outcome State Fault Refusal := .next (opCapDoorbell o v s)

/-- COLLECTIVE_START (R388). -/
def execCollectiveStart (g : Nat) (s : State) : Host.Outcome State Fault Refusal := .next (collectiveStartRow g s)

/-- CDATA (R382). -/
def execCdata (k : Nat) (f : Frame) (s : State) : Host.Outcome State Fault Refusal := .next (cdata k f s)

/-- SWEEP (R386). -/
def execSweep (k : Nat) (f : Frame) (s : State) : Host.Outcome State Fault Refusal := .next (sweep k f s)

/-- GFAIL (R389). -/
def execGfail (k : Nat) (f : Frame) (s : State) : Host.Outcome State Fault Refusal := .next (gfail k f s)

/-- XHITCH (R390). -/
def execXhitch (k : Nat) (f : Frame) (s : State) : Host.Outcome State Fault Refusal := .next (xhitch k f s)

/-- DDATA (R393). -/
def execDdata (k : Nat) (f : Frame) (s : State) : Host.Outcome State Fault Refusal := .next (ddata k f s)

/-- DDONE (R393). -/
def execDdone (k : Nat) (f : Frame) (s : State) : Host.Outcome State Fault Refusal := .next (ddone k f s)

/-- HELLO (R372). -/
def execHello (k : Nat) (f : Frame) (s : State) : Host.Outcome State Fault Refusal := .next (hello k f s)

/-- LINK_ACK (R376). -/
def execLinkAck (k : Nat) (f : Frame) (s : State) : Host.Outcome State Fault Refusal := .next (linkAck k f s)

/-- LINK_NACK (R377). -/
def execLinkNack (k : Nat) (f : Frame) (s : State) : Host.Outcome State Fault Refusal := .next (linkNack k f s)

/-- CAPSTAN_TIMEOUT (R389). -/
def execCapstanTimeout (g : Nat) (s : State) : Host.Outcome State Fault Refusal := .next (capstanTimeout g s)

/-- CAP_DIM_WRITE (R370). -/
def execCapDimWrite (o : Origin) (d : Nat) (v : Word) (s : State) : Host.Outcome State Fault Refusal :=
  .next (opCapDim o d v s)

/-- CAP_GRP_WRITE (R389). -/
def execCapGrpWrite (o : Origin) (g : Nat) (v : Word) (s : State) : Host.Outcome State Fault Refusal :=
  .next (opCapGrp o g v s)

/-- HC_HEAD_WRITE (R392). -/
def execHcHeadWrite (o : Origin) (k n : Nat) (v : Word) (s : State) : Host.Outcome State Fault Refusal :=
  .next (opHcHead o k n v s)

/-- RETRANSMIT_TIMEOUT (R377). -/
def execRetransmitTimeout (k : Nat) (s : State) : Host.Outcome State Fault Refusal := .next (retransmitTimeout k s)

/-- LANE_SIGNAL_LOSS (R377). -/
def execLaneSignalLoss (k : Nat) (s : State) : Host.Outcome State Fault Refusal := .next (laneSignalLoss k s)

/-- PORT_TRAINED (R372). -/
def execPortTrained (k rx : Nat) (s : State) : Host.Outcome State Fault Refusal := .next (portTrained k rx s)

/-- HW_TRAIN (R394). -/
def execHwTrain (o : Origin) (k : Nat) (s : State) : Host.Outcome State Fault Refusal := .next (opHwTrain o k s)

/-- HW_DOWN (R394). -/
def execHwDown (o : Origin) (k : Nat) (s : State) : Host.Outcome State Fault Refusal := .next (opHwDown o k s)

/-- LANE_EN_WRITE (R368). -/
def execLaneEnWrite (o : Origin) (k lanes : Nat) (s : State) : Host.Outcome State Fault Refusal :=
  .next (opLaneEn o k lanes s)

/-- SPILLWAY_CLOSE (R379). -/
def execSpillwayClose (o : Origin) (d : Nat) (s : State) : Host.Outcome State Fault Refusal := .next (spillwayClose o d s)

/-- SPILLWAY_OPEN (R379). -/
def execSpillwayOpen (o : Origin) (d : Nat) (s : State) : Host.Outcome State Fault Refusal := .next (spillwayOpen o d s)

/-- SPILLWAY_MOVE_DONE (R379). -/
def execSpillwayMoveDone (d : Nat) (s : State) : Host.Outcome State Fault Refusal := .next (spillwayMoveDone d s)

/-- BYPASS_FORCE_N_LOW (R379). -/
def execBypassForceNLow (high : Bool) (s : State) : Host.Outcome State Fault Refusal := .next (bypassForce high s)

end Sys2Proof.Machine
end

