-- ==== Sys2Proof/Machine/RunCore.lean ====
section
/-! DEFINITION. The meanings of the rows of system and CSR instructions, contexts, interrupts and core registers (R60-R83): each is its own definition over the shared operations. -/

namespace Sys2Proof.Machine

/-- ECALL (R61). -/
def execEcall (c gd ga gb : Nat) (s : State) : Host.Outcome State Fault Refusal := .next (opEcall c gd ga gb s)

/-- BREAK (R61). -/
def execBrk (c gd ga gb : Nat) (s : State) : Host.Outcome State Fault Refusal := .next (opBreak c gd ga gb s)

/-- MRET (R61). -/
def execMret (c gd ga gb : Nat) (s : State) : Host.Outcome State Fault Refusal := .next (opMret c gd ga gb s)

/-- WFI (R61). -/
def execWfi (c gd ga gb : Nat) (s : State) : Host.Outcome State Fault Refusal := .next (opWfi c gd ga gb s)

/-- FENCE (R61). -/
def execFence (c gd ga gb : Nat) (s : State) : Host.Outcome State Fault Refusal := .next (opFence c gd ga gb s)

/-- FENCE_I (R61). -/
def execFenceI (c gd ga gb : Nat) (s : State) : Host.Outcome State Fault Refusal := .next (opFenceI c gd ga gb s)

/-- TSWITCH (R69). -/
def execTswitch (c gd ga gb : Nat) (s : State) : Host.Outcome State Fault Refusal := .next (opTswitch c gd ga gb s)

/-- CTXSAVE (R71). -/
def execCtxsave (c gd ga gb : Nat) (s : State) : Host.Outcome State Fault Refusal := .next (opCtxsave c gd ga gb s)

/-- CTXLOAD (R71). -/
def execCtxload (c gd ga gb : Nat) (s : State) : Host.Outcome State Fault Refusal := .next (opCtxload c gd ga gb s)

/-- CSRRW (R62). -/
def execCsrrw (c gd ga imm : Nat) (s : State) : Host.Outcome State Fault Refusal :=
  .next (csrOp 0 0x1B c gd ga imm (.csrrw c gd ga imm) s)

/-- CSRRS (R62). -/
def execCsrrs (c gd ga imm : Nat) (s : State) : Host.Outcome State Fault Refusal :=
  .next (csrOp 1 0x1C c gd ga imm (.csrrs c gd ga imm) s)

/-- CSRRC (R62). -/
def execCsrrc (c gd ga imm : Nat) (s : State) : Host.Outcome State Fault Refusal :=
  .next (csrOp 2 0x1D c gd ga imm (.csrrc c gd ga imm) s)

/-- INTERRUPT_TAKEN (R79). -/
def execInterruptTaken (c : Nat) (s : State) : Host.Outcome State Fault Refusal := .next (interruptTaken c s)

/-- MAINT_SWITCH (R67). -/
def execMaintSwitch (c : Nat) (s : State) : Host.Outcome State Fault Refusal := .next (opMaintSwitch c s)

/-- CONTEXT_SWITCH_DONE (R68). -/
def execContextSwitchDone (c : Nat) (s : State) : Host.Outcome State Fault Refusal := .next (contextSwitchDone c s)

/-- ENG_STATE_MOVE_DONE (R70). -/
def execEngStateMoveDone (c : Nat) (s : State) : Host.Outcome State Fault Refusal := .next (engStateMoveDone c s)

/-- CYCLE_CMP_MATCH (R81). -/
def execCycleCmpMatch (c : Nat) (s : State) : Host.Outcome State Fault Refusal := .next (cycleCmpMatch c s)

/-- ISOFT_WRITE (R82). -/
def execIsoftWrite (o : Origin) (c : Nat) (v : Word) (s : State) : Host.Outcome State Fault Refusal :=
  .next (opCoreReg o c 0x070 v s)

/-- CORE_RUN_WRITE (R83). -/
def execCoreRunWrite (o : Origin) (c : Nat) (v : Word) (s : State) : Host.Outcome State Fault Refusal :=
  .next (opCoreReg o c 0x0C0 v s)

/-- CORE_MODE_WRITE (R66). -/
def execCoreModeWrite (o : Origin) (c : Nat) (v : Word) (s : State) : Host.Outcome State Fault Refusal :=
  .next (opCoreReg o c 0x018 v s)

/-- CTX_STATE_WRITE (R64). -/
def execCtxStateWrite (o : Origin) (c : Nat) (v : Word) (s : State) : Host.Outcome State Fault Refusal :=
  .next (opCoreReg o c 0x020 v s)

/-- ENG_ERR_CLEAR (R139). -/
def execEngErrClear (o : Origin) (c : Nat) (v : Word) (s : State) : Host.Outcome State Fault Refusal :=
  .next (opCoreReg o c 0x098 v s)

end Sys2Proof.Machine
end

