-- ==== Sys2Proof/Machine/RunGauge.lean ====
section
/-! DEFINITION. The meanings of the rows of the Gauge (R143-R169): each is its own definition over the shared operations. -/

namespace Sys2Proof.Machine

/-- GROLL (R162). -/
def execGroll (c gd ga gb fn : Nat) (s : State) : Host.Outcome State Fault Refusal := .next (opGroll c gd ga gb fn s)

/-- GROLL_SLICE_UPDATE (R163). -/
def execGrollSliceUpdate (c n : Nat) (s : State) : Host.Outcome State Fault Refusal := .next (grollSlice c n s)

/-- GROLL_COMPLETE (R164). -/
def execGrollComplete (c : Nat) (s : State) : Host.Outcome State Fault Refusal := .next (grollComplete c s)

/-- GAUGE_WINDOW_READ (R159). -/
def execGaugeWindowRead (o : Origin) (k : Nat) (s : State) : Host.Outcome State Fault Refusal := .next (opWindowRead o k s)

/-- GAUGE_WINDOW_WRITE (R159). -/
def execGaugeWindowWrite (o : Origin) (k mask : Nat) (s : State) : Host.Outcome State Fault Refusal :=
  .next (opWindowWrite o k mask s)

/-- SR_SEED (R155). -/
def execSrSeed (o : Origin) (k : Nat) (v : Word) (s : State) : Host.Outcome State Fault Refusal := .next (opSrSeed o k v s)

/-- SEED_APPLY (R155). -/
def execSeedApply (c : Nat) (s : State) : Host.Outcome State Fault Refusal := .next (seedApply c s)

/-- GRANGE_WRITE (R166). -/
def execGrangeWrite (o : Origin) (k : Nat) (v : Word) (s : State) : Host.Outcome State Fault Refusal :=
  .next (opGrange o k v s)

end Sys2Proof.Machine
end

