-- ==== Sys2Proof/Machine/RunHeadgate.lean ====
section
/-! DEFINITION. The meanings of the rows of resets, bring-up, lease, mailbox and firmware (R489-R510): each is its own definition over the shared operations. -/

namespace Sys2Proof.Machine

/-- MOD_RESET_N_LOW (R500). -/
def execModResetNLow (s : State) : Host.Outcome State Fault Refusal := .next (modResetLow s)

/-- MOD_RESET_N_HIGH (R500). -/
def execModResetNHigh (s : State) : Host.Outcome State Fault Refusal := .next (modResetHigh s)

/-- COLD_RESET (R500). -/
def execColdReset (o : Origin) (h : Nat) (s : State) : Host.Outcome State Fault Refusal := .next (opColdReset o h s)

/-- WARM_RESET (R500). -/
def execWarmReset (o : Origin) (h : Nat) (s : State) : Host.Outcome State Fault Refusal := .next (opWarmReset o h s)

/-- BRINGUP_STEP_DONE (R489). -/
def execBringupStepDone (n : Nat) (ok : Bool) (faults : List (Nat × Nat × Nat)) (s : State) : Host.Outcome State Fault Refusal :=
  .next (bringupRow n ok faults s)

/-- BRINGUP_STEP_TIMEOUT (R490). -/
def execBringupStepTimeout (n : Nat) (s : State) : Host.Outcome State Fault Refusal := .next (bringupStepTimeout n s)

/-- LEASE_RENEWAL (R492). -/
def execLeaseRenewal (h : Nat) (s : State) : Host.Outcome State Fault Refusal := .next (leaseRenewal h s)

/-- LEASE_TIMEOUT (R492). -/
def execLeaseTimeout (h : Nat) (s : State) : Host.Outcome State Fault Refusal := .next (leaseTimeout h s)

/-- LEASE_CLAIM (R493). -/
def execLeaseClaim (h : Nat) (s : State) : Host.Outcome State Fault Refusal := .next (leaseClaim h s)

/-- LEASE_RELEASE (R492). -/
def execLeaseRelease (o : Origin) (h : Nat) (s : State) : Host.Outcome State Fault Refusal := .next (opLeaseRelease o h s)

/-- SIDEBAND_DOWN (R495). -/
def execSidebandDown (s : State) : Host.Outcome State Fault Refusal := .next (sidebandDown s)

/-- SIDEBAND_UP (R495). -/
def execSidebandUp (s : State) : Host.Outcome State Fault Refusal := .next (sidebandUp s)

/-- STATUS (R507). -/
def execMbStatus (h : Nat) (s : State) : Host.Outcome State Fault Refusal := .next (mbStatus h s)

/-- NAME (R495). -/
def execMbName (h : Nat) (s : State) : Host.Outcome State Fault Refusal := .next (mbName h s)

/-- FW_STAGE (R507). -/
def execMbFwStage (h : Nat) (s : State) : Host.Outcome State Fault Refusal := .next (mbStage h s)

/-- FW_ACTIVATE (R507). -/
def execMbFwActivate (h : Nat) (ok : Bool) (s : State) : Host.Outcome State Fault Refusal := .next (mbActivate h ok s)

/-- FWPLACE (R507). -/
def execMbFwplace (h : Nat) (s : State) : Host.Outcome State Fault Refusal := .next (mbPlace h s)

/-- CORE_SWAP (R502). -/
def execMbCoreSwap (h : Nat) (s : State) : Host.Outcome State Fault Refusal := .next (mbCoreSwap h s)

/-- RING (R507). -/
def execMbRing (h : Nat) (s : State) : Host.Outcome State Fault Refusal := .next (mbRing h s)

/-- EVENT (R508). -/
def execMbEvent (h : Nat) (s : State) : Host.Outcome State Fault Refusal := .next (mbEvent h s)

/-- FW_CHUNK (R498). -/
def execFwChunk (c : Nat) (p : Packet) (s : State) : Host.Outcome State Fault Refusal := .next (delivered p (fwChunk c) s)

/-- FW_LOAD_REPORT (R498). -/
def execFwLoadReport (c : Nat) (s : State) : Host.Outcome State Fault Refusal := .next (fwLoadReport c s)

/-- FW_REPORT_TIMEOUT (R498). -/
def execFwReportTimeout (c : Nat) (s : State) : Host.Outcome State Fault Refusal := .next (fwReportTimeout c s)

/-- CORE_RESET (R83). -/
def execCoreReset (o : Origin) (h c : Nat) (s : State) : Host.Outcome State Fault Refusal := .next (opCoreReset o h c s)

/-- CORE_DISABLE (R502). -/
def execCoreDisable (o : Origin) (h c : Nat) (s : State) : Host.Outcome State Fault Refusal := .next (opCoreDisable o h c s)

/-- SPARE_ENABLE (R502). -/
def execSpareEnable (o : Origin) (h c : Nat) (s : State) : Host.Outcome State Fault Refusal := .next (opSpareEnable o h c s)

/-- HG_SWAP_DONE (R503). -/
def execHgSwapDone (h : Nat) (ok : Bool) (s : State) : Host.Outcome State Fault Refusal := .next (hgSwapDone h ok s)

/-- SLUICE_UPDATE_DONE (R504). -/
def execSluiceUpdateDone (n : Nat) (s : State) : Host.Outcome State Fault Refusal := .next (sluiceUpdateDone n s)

/-- FLASH_REFRESH (R506). -/
def execFlashRefresh (b : Nat) (fail : Bool) (s : State) : Host.Outcome State Fault Refusal := .next (flashRefresh b fail s)

end Sys2Proof.Machine
end

