-- ==== Sys2Proof/Machine/RunHome.lean ====
section
/-! DEFINITION. The meanings of the rows of packets and homes (R20-R45, R226-R266, R340-R365): each is its own definition over the shared operations. -/

namespace Sys2Proof.Machine

/-- RD (R20). -/
def execRd (p : Packet) (s : State) : Host.Outcome State Fault Refusal := .next (delivered p (request opRD) s)

/-- WR (R29). -/
def execWr (p : Packet) (s : State) : Host.Outcome State Fault Refusal := .next (delivered p (request opWR) s)

/-- ATOM (R58). -/
def execAtom (p : Packet) (s : State) : Host.Outcome State Fault Refusal := .next (delivered p (request opATOM) s)

/-- MERGE (R29). -/
def execMerge (p : Packet) (s : State) : Host.Outcome State Fault Refusal := .next (delivered p mergeArrive s)

/-- SPENT (R239). -/
def execSpent (p : Packet) (s : State) : Host.Outcome State Fault Refusal := .next (delivered p spentArrive s)

/-- RD_DATA (R232). -/
def execRdData (p : Packet) (s : State) : Host.Outcome State Fault Refusal :=
  .next (delivered p (fun q => response opRD_DATA q (coreRdData q.dst q)) s)

/-- WR_ACK (R45). -/
def execWrAck (p : Packet) (s : State) : Host.Outcome State Fault Refusal :=
  .next (delivered p (fun q => response opWR_ACK q (coreWrAck q.dst q)) s)

/-- NACK (R363). -/
def execNack (p : Packet) (s : State) : Host.Outcome State Fault Refusal :=
  .next (delivered p (fun q => response opNACK q (nackArrive q.dst q)) s)

/-- CREDIT (R260). -/
def execCredit (p : Packet) (s : State) : Host.Outcome State Fault Refusal := .next (delivered p creditRow s)

/-- MSG (R343). -/
def execMsg (p : Packet) (s : State) : Host.Outcome State Fault Refusal := .next (delivered p msgArrive s)

/-- RESERVED_OP_PACKET (R343). -/
def execReservedOpPacket (p : Packet) (s : State) : Host.Outcome State Fault Refusal := .next (delivered p reservedOp s)

/-- SLICE_MISS_ADMIT (R260). -/
def execSliceMissAdmit (n : Nat) (s : State) : Host.Outcome State Fault Refusal := .next (sliceMissAdmit n s)

/-- MEMORY_READ_DONE (R236). -/
def execMemoryReadDone (ep line sev : Nat) (unc : Bool) (s : State) : Host.Outcome State Fault Refusal :=
  .next (memoryReadDone ep line sev unc s)

/-- LC_QUEUE_ADMIT (R262). -/
def execLcQueueAdmit (n : Nat) (s : State) : Host.Outcome State Fault Refusal := .next (lcQueueAdmit n s)

/-- WRITE_BACK_DONE (R259). -/
def execWriteBackDone (n line : Nat) (s : State) : Host.Outcome State Fault Refusal := .next (writeBackDone n line s)

/-- PF_RD (R265). -/
def execPfRd (p : Packet) (s : State) : Host.Outcome State Fault Refusal := .next (delivered p pfRead s)

/-- CMEM_CFG_WRITE (R230). -/
def execCmemCfgWrite (o : Origin) (k : Nat) (v : Word) (s : State) : Host.Outcome State Fault Refusal :=
  .next (opCmem o k v s)

/-- REQUEST_LIMIT (R455). -/
def execRequestLimit (c txid : Nat) (s : State) : Host.Outcome State Fault Refusal := .next (requestLimit c txid s)

end Sys2Proof.Machine
end

