-- ==== Sys2Proof/Machine/RunKnot.lean ====
section
/-! DEFINITION. The meanings of the rows of knots and hitches (R312-R339): each is its own definition over the shared operations. -/

namespace Sys2Proof.Machine

/-- KSIG (R315). -/
def execKsig (c gd ga gb : Nat) (s : State) : Host.Outcome State Fault Refusal := .next (opKsig c gd ga gb s)

/-- KWAIT (R316). -/
def execKwait (c gd ga gb : Nat) (s : State) : Host.Outcome State Fault Refusal := .next (opKwait c gd ga gb s)

/-- KPEEK (R317). -/
def execKpeek (c gd ga gb : Nat) (s : State) : Host.Outcome State Fault Refusal := .next (opKpeek c gd ga gb s)

/-- KSET (R318). -/
def execKset (c gd ga gb : Nat) (s : State) : Host.Outcome State Fault Refusal := .next (opKset c gd ga gb s)

/-- HARR (R329). -/
def execHarr (c gd ga gb : Nat) (s : State) : Host.Outcome State Fault Refusal := .next (opHarr c gd ga gb s)

/-- HWAIT (R330). -/
def execHwait (c gd ga gb : Nat) (s : State) : Host.Outcome State Fault Refusal := .next (opHwait c gd ga gb s)

/-- HPEEK (R330). -/
def execHpeek (c gd ga gb : Nat) (s : State) : Host.Outcome State Fault Refusal := .next (opHpeek c gd ga gb s)

/-- KNOT (R319). -/
def execKnot (p : Packet) (s : State) : Host.Outcome State Fault Refusal := .next (delivered p knotArrive s)

/-- KNOT_RSP (R320). -/
def execKnotRsp (p : Packet) (s : State) : Host.Outcome State Fault Refusal :=
  .next (delivered p (fun q => response opKNOT_RSP q (knotRsp q.dst q)) s)

/-- WITHDRAW (R323). -/
def execWithdraw (p : Packet) (s : State) : Host.Outcome State Fault Refusal := .next (delivered p withdrawArrive s)

/-- HITCH (R329). -/
def execHitch (p : Packet) (s : State) : Host.Outcome State Fault Refusal := .next (delivered p hitchRow s)

/-- HITCH_DONE (R331). -/
def execHitchDone (p : Packet) (s : State) : Host.Outcome State Fault Refusal := .next (delivered p hitchDone s)

/-- KNOT_WORD_WRITE (R337). -/
def execKnotWordWrite (o : Origin) (key : Nat) (v : Word) (s : State) : Host.Outcome State Fault Refusal :=
  .next (opKnotWord o key v s)

/-- HT_CFG_WRITE (R328). -/
def execHtCfgWrite (o : Origin) (h : Nat) (v : Word) (s : State) : Host.Outcome State Fault Refusal :=
  .next (opHtCfg o h v s)

/-- HITCH_MASK_WRITE (R328). -/
def execHitchMaskWrite (o : Origin) (mask w : Nat) (v : Word) (s : State) : Host.Outcome State Fault Refusal :=
  .next (opHitchMask o mask w v s)

end Sys2Proof.Machine
end

