-- ==== Sys2Proof/Machine/RunLedger.lean ====
section
/-! DEFINITION. The meanings of the rows of the Ledger (R245-R268): each is its own definition over the shared operations. -/

namespace Sys2Proof.Machine

/-- LEDGER_READ (R256). -/
def execLgRead (o : Origin) (w : Nat) (s : State) : Host.Outcome State Fault Refusal := .next (opLedger o w 1 s)

/-- FIND (R256). -/
def execLgFind (o : Origin) (w : Nat) (s : State) : Host.Outcome State Fault Refusal := .next (opLedger o w 2 s)

/-- MAP (R256). -/
def execLgMap (o : Origin) (w : Nat) (s : State) : Host.Outcome State Fault Refusal := .next (opLedger o w 3 s)

/-- UNMAP (R256). -/
def execLgUnmap (o : Origin) (w : Nat) (s : State) : Host.Outcome State Fault Refusal := .next (opLedger o w 4 s)

/-- SETF (R256). -/
def execLgSetf (o : Origin) (w : Nat) (s : State) : Host.Outcome State Fault Refusal := .next (opLedger o w 5 s)

/-- CLRF (R256). -/
def execLgClrf (o : Origin) (w : Nat) (s : State) : Host.Outcome State Fault Refusal := .next (opLedger o w 6 s)

/-- MIGRATE (R258). -/
def execLgMigrate (o : Origin) (w : Nat) (s : State) : Host.Outcome State Fault Refusal := .next (opLedger o w 7 s)

/-- GIVE (R256). -/
def execLgGive (o : Origin) (w : Nat) (s : State) : Host.Outcome State Fault Refusal := .next (opLedger o w 8 s)

/-- SHOOTDOWN (R255). -/
def execShootdown (w ep : Nat) (s : State) : Host.Outcome State Fault Refusal := .next (shootdownAt w ep s)

/-- SHOOTDOWN_DONE (R255). -/
def execShootdownDone (w : Nat) (s : State) : Host.Outcome State Fault Refusal := .next (shootdownDone w s)

/-- MIGRATE_COPY_START (R258). -/
def execMigrateCopyStart (w : Nat) (s : State) : Host.Outcome State Fault Refusal := .next (migrateStart w s)

/-- MIGRATE_SHARE_DONE (R258). -/
def execMigrateShareDone (w ep : Nat) (s : State) : Host.Outcome State Fault Refusal := .next (migrateShare w ep s)

end Sys2Proof.Machine
end

