-- ==== Sys2Proof/Machine/RunLogline.lean ====
section
/-! DEFINITION. The meanings of the rows of Logline and snapshots (R423-R445): each is its own definition over the shared operations. -/

namespace Sys2Proof.Machine

/-- LOG_COMMIT (R425). -/
def execLogCommit (o : Origin) (k : Nat) (v : Word) (s : State) : Host.Outcome State Fault Refusal :=
  .next (opLogCommit o k v s)

/-- LOG_MIRROR_COMPANION (R427). -/
def execLogMirrorCompanion (k : Nat) (s : State) : Host.Outcome State Fault Refusal := .next (mirrorCompanion k s)

/-- LOG_MIRROR_FLASH (R427). -/
def execLogMirrorFlash (k : Nat) (fail : Bool) (s : State) : Host.Outcome State Fault Refusal :=
  .next (logMirrorFlash k fail s)

/-- TAKE (R428). -/
def execSnTake (o : Origin) (k : Nat) (s : State) : Host.Outcome State Fault Refusal := .next (opSnCmd o k 1 s)

/-- SN_COMMIT (R434). -/
def execSnCommit (o : Origin) (k : Nat) (s : State) : Host.Outcome State Fault Refusal := .next (opSnCmd o k 2 s)

/-- SN_DROP (R434). -/
def execSnDrop (o : Origin) (k : Nat) (s : State) : Host.Outcome State Fault Refusal := .next (opSnCmd o k 3 s)

/-- ROLLBACK_OLD (R439). -/
def execSnRollbackOld (o : Origin) (k : Nat) (s : State) : Host.Outcome State Fault Refusal := .next (opSnCmd o k 4 s)

/-- ROLLBACK_NEW (R439). -/
def execSnRollbackNew (o : Origin) (k : Nat) (s : State) : Host.Outcome State Fault Refusal := .next (opSnCmd o k 5 s)

/-- SNAPSHOT_SWEEP_END (R428). -/
def execSnapshotSweepEnd (k : Nat) (s : State) : Host.Outcome State Fault Refusal := .next (snapshotSweepEnd k s)

/-- SNAPSHOT_COPY_START (R431). -/
def execSnapshotCopyStart (k fr : Nat) (s : State) : Host.Outcome State Fault Refusal := .next (snapshotCopyStart k fr s)

/-- SNAPSHOT_COPY_DONE (R430). -/
def execSnapshotCopyDone (k fr : Nat) (s : State) : Host.Outcome State Fault Refusal := .next (snapshotCopyDone k fr s)

/-- SNAPSHOT_MIGRATE (R435). -/
def execSnapshotMigrate (k fr : Nat) (s : State) : Host.Outcome State Fault Refusal := .next (snapshotMigrate k fr s)

/-- ROLLBACK_DONE (R439). -/
def execRollbackDone (k : Nat) (s : State) : Host.Outcome State Fault Refusal := .next (rollbackDone k s)

/-- SN_CTL_WRITE (R437). -/
def execSnCtlWrite (o : Origin) (k : Nat) (v : Word) (s : State) : Host.Outcome State Fault Refusal :=
  .next (opSnCtl o k v s)

end Sys2Proof.Machine
end

