-- ==== Sys2Proof/Machine/RunPart.lean ====
section
/-! DEFINITION. The meanings of the rows of partitions, register accesses and windows (R11-R15, R36, R355-R365): each is its own definition over the shared operations. -/

namespace Sys2Proof.Machine

/-- PT_RANGE_WRITE (R359). -/
def execPtRangeWrite (o : Origin) (k : Nat) (v : Word) (s : State) : Host.Outcome State Fault Refusal :=
  .next (opPtRange o k v s)

/-- PT_RESET (R361). -/
def execPtReset (o : Origin) (k : Nat) (s : State) : Host.Outcome State Fault Refusal := .next (opPtReset o k s)

/-- PT_RESET_DRAIN_DONE (R361). -/
def execPtResetDrainDone (k : Nat) (s : State) : Host.Outcome State Fault Refusal := .next (ptDrainDone k s)

/-- RT_BUSY_WINDOW (R365). -/
def execRtBusyWindow (busy : List (Nat × Word)) (s : State) : Host.Outcome State Fault Refusal := .next (rtBusyWindow busy s)

/-- REGISTER_WRITE (R13). -/
def execRegisterWrite (o : Origin) (a : Nat) (v : Word) (s : State) : Host.Outcome State Fault Refusal :=
  .next (mmioWrite o a v s)

/-- REGISTER_READ_CLEAR (R13). -/
def execRegisterReadClear (o : Origin) (a : Nat) (s : State) : Host.Outcome State Fault Refusal := .next (mmioRead o a s)

/-- BG_WINDOW_END (R36). -/
def execBgWindowEnd (k : Nat) (s : State) : Host.Outcome State Fault Refusal := .next (bgWindowEnd k s)

end Sys2Proof.Machine
end

