-- ==== Sys2Proof/Machine/RunProtect.lean ====
section
/-! DEFINITION. The meanings of the rows of Dredge, recalibration, background test and bank retirement (R446-R470): each is its own definition over the shared operations. -/

namespace Sys2Proof.Machine

/-- DREDGE_SCRUB (R456). -/
def execDredgeScrub (u cyc sev : Nat) (unc : Bool) (s : State) : Host.Outcome State Fault Refusal :=
  .next (dredgeScrub u cyc sev unc s)

/-- DREDGE_CORRECTION (R458). -/
def execDredgeCorrection (u line : Nat) (s : State) : Host.Outcome State Fault Refusal := .next (dredgeCorrection u line s)

/-- RECAL_START (R505). -/
def execRecalStart (u cyc : Nat) (s : State) : Host.Outcome State Fault Refusal := .next (recalStart u cyc s)

/-- RECAL_END (R39). -/
def execRecalEnd (u : Nat) (s : State) : Host.Outcome State Fault Refusal := .next (recalEnd u s)

/-- TBT_REGION_START (R461). -/
def execTbtRegionStart (u : Nat) (s : State) : Host.Outcome State Fault Refusal := .next (tbtStart u s)

/-- TBT_REGION_END (R461). -/
def execTbtRegionEnd (u : Nat) (faults : List (Nat × Nat)) (s : State) : Host.Outcome State Fault Refusal :=
  .next (tbtEnd u faults s)

/-- BANK_RETIRE (R467). -/
def execBankRetire (o : Origin) (st k : Nat) (v : Word) (s : State) : Host.Outcome State Fault Refusal :=
  .next (opBret o st k v s)

end Sys2Proof.Machine
end

