-- ==== Sys2Proof/Machine/RunScalar.lean ====
section
/-! DEFINITION. The meanings of the rows of the scalar instructions (R52-R59): each is its own definition over the shared operations. -/

namespace Sys2Proof.Machine

/-- ADD (R52). -/
def execAdd (c gd ga gb : Nat) (s : State) : Host.Outcome State Fault Refusal := .next (opAdd c gd ga gb s)

/-- SUB (R52). -/
def execSub (c gd ga gb : Nat) (s : State) : Host.Outcome State Fault Refusal := .next (opSub c gd ga gb s)

/-- AND (R52). -/
def execAnd (c gd ga gb : Nat) (s : State) : Host.Outcome State Fault Refusal := .next (opAnd c gd ga gb s)

/-- OR (R52). -/
def execOr (c gd ga gb : Nat) (s : State) : Host.Outcome State Fault Refusal := .next (opOr c gd ga gb s)

/-- XOR (R52). -/
def execXor (c gd ga gb : Nat) (s : State) : Host.Outcome State Fault Refusal := .next (opXor c gd ga gb s)

/-- SLL (R52). -/
def execSll (c gd ga gb : Nat) (s : State) : Host.Outcome State Fault Refusal := .next (opSll c gd ga gb s)

/-- SRL (R52). -/
def execSrl (c gd ga gb : Nat) (s : State) : Host.Outcome State Fault Refusal := .next (opSrl c gd ga gb s)

/-- SRA (R52). -/
def execSra (c gd ga gb : Nat) (s : State) : Host.Outcome State Fault Refusal := .next (opSra c gd ga gb s)

/-- SLT (R52). -/
def execSlt (c gd ga gb : Nat) (s : State) : Host.Outcome State Fault Refusal := .next (opSlt c gd ga gb s)

/-- SLTU (R52). -/
def execSltu (c gd ga gb : Nat) (s : State) : Host.Outcome State Fault Refusal := .next (opSltu c gd ga gb s)

/-- MIN (R52). -/
def execMin (c gd ga gb : Nat) (s : State) : Host.Outcome State Fault Refusal := .next (opMin c gd ga gb s)

/-- MAX (R52). -/
def execMax (c gd ga gb : Nat) (s : State) : Host.Outcome State Fault Refusal := .next (opMax c gd ga gb s)

/-- MINU (R52). -/
def execMinu (c gd ga gb : Nat) (s : State) : Host.Outcome State Fault Refusal := .next (opMinu c gd ga gb s)

/-- MAXU (R52). -/
def execMaxu (c gd ga gb : Nat) (s : State) : Host.Outcome State Fault Refusal := .next (opMaxu c gd ga gb s)

/-- CLZ (R52). -/
def execClz (c gd ga gb : Nat) (s : State) : Host.Outcome State Fault Refusal := .next (opClz c gd ga gb s)

/-- CTZ (R52). -/
def execCtz (c gd ga gb : Nat) (s : State) : Host.Outcome State Fault Refusal := .next (opCtz c gd ga gb s)

/-- POPC (R52). -/
def execPopc (c gd ga gb : Nat) (s : State) : Host.Outcome State Fault Refusal := .next (opPopc c gd ga gb s)

/-- ANDN (R52). -/
def execAndn (c gd ga gb : Nat) (s : State) : Host.Outcome State Fault Refusal := .next (opAndn c gd ga gb s)

/-- ADDI (R53). -/
def execAddi (c gd ga imm : Nat) (s : State) : Host.Outcome State Fault Refusal := .next (opAddi c gd ga imm s)

/-- ANDI (R53). -/
def execAndi (c gd ga imm : Nat) (s : State) : Host.Outcome State Fault Refusal := .next (opAndi c gd ga imm s)

/-- ORI (R53). -/
def execOri (c gd ga imm : Nat) (s : State) : Host.Outcome State Fault Refusal := .next (opOri c gd ga imm s)

/-- XORI (R53). -/
def execXori (c gd ga imm : Nat) (s : State) : Host.Outcome State Fault Refusal := .next (opXori c gd ga imm s)

/-- SLTI (R53). -/
def execSlti (c gd ga imm : Nat) (s : State) : Host.Outcome State Fault Refusal := .next (opSlti c gd ga imm s)

/-- SLTIU (R53). -/
def execSltiu (c gd ga imm : Nat) (s : State) : Host.Outcome State Fault Refusal := .next (opSltiu c gd ga imm s)

/-- SHI (R53). -/
def execShi (c gd ga imm : Nat) (s : State) : Host.Outcome State Fault Refusal := .next (opShi c gd ga imm s)

/-- LIH (R54). -/
def execLih (c gd imm : Nat) (s : State) : Host.Outcome State Fault Refusal := .next (opLih c gd imm s)

/-- LIW (R54). -/
def execLiw (c gd rsv imm : Nat) (s : State) : Host.Outcome State Fault Refusal := .next (opLiw c gd rsv imm s)

/-- MUL (R55). -/
def execMul (c gd ga gb : Nat) (s : State) : Host.Outcome State Fault Refusal := .next (opMul c gd ga gb s)

/-- MULH (R55). -/
def execMulh (c gd ga gb : Nat) (s : State) : Host.Outcome State Fault Refusal := .next (opMulh c gd ga gb s)

/-- MULHU (R55). -/
def execMulhu (c gd ga gb : Nat) (s : State) : Host.Outcome State Fault Refusal := .next (opMulhu c gd ga gb s)

/-- DIV (R55). -/
def execDiv (c gd ga gb : Nat) (s : State) : Host.Outcome State Fault Refusal := .next (opDiv c gd ga gb s)

/-- DIVU (R55). -/
def execDivu (c gd ga gb : Nat) (s : State) : Host.Outcome State Fault Refusal := .next (opDivu c gd ga gb s)

/-- REM (R55). -/
def execRem (c gd ga gb : Nat) (s : State) : Host.Outcome State Fault Refusal := .next (opRem c gd ga gb s)

/-- REMU (R55). -/
def execRemu (c gd ga gb : Nat) (s : State) : Host.Outcome State Fault Refusal := .next (opRemu c gd ga gb s)

/-- LB (R56). -/
def execLb (c gd ga imm : Nat) (s : State) : Host.Outcome State Fault Refusal := .next (opLb c gd ga imm s)

/-- LBU (R56). -/
def execLbu (c gd ga imm : Nat) (s : State) : Host.Outcome State Fault Refusal := .next (opLbu c gd ga imm s)

/-- LH (R56). -/
def execLh (c gd ga imm : Nat) (s : State) : Host.Outcome State Fault Refusal := .next (opLh c gd ga imm s)

/-- LHU (R56). -/
def execLhu (c gd ga imm : Nat) (s : State) : Host.Outcome State Fault Refusal := .next (opLhu c gd ga imm s)

/-- LW (R56). -/
def execLw (c gd ga imm : Nat) (s : State) : Host.Outcome State Fault Refusal := .next (opLw c gd ga imm s)

/-- LWU (R56). -/
def execLwu (c gd ga imm : Nat) (s : State) : Host.Outcome State Fault Refusal := .next (opLwu c gd ga imm s)

/-- LD (R56). -/
def execLd (c gd ga imm : Nat) (s : State) : Host.Outcome State Fault Refusal := .next (opLd c gd ga imm s)

/-- SB (R56). -/
def execSb (c gs ga imm : Nat) (s : State) : Host.Outcome State Fault Refusal := .next (opSb c gs ga imm s)

/-- SH (R56). -/
def execSh (c gs ga imm : Nat) (s : State) : Host.Outcome State Fault Refusal := .next (opSh c gs ga imm s)

/-- SW (R56). -/
def execSw (c gs ga imm : Nat) (s : State) : Host.Outcome State Fault Refusal := .next (opSw c gs ga imm s)

/-- SD (R56). -/
def execSd (c gs ga imm : Nat) (s : State) : Host.Outcome State Fault Refusal := .next (opSd c gs ga imm s)

/-- ATOMIC_SWAP (R58). -/
def execAtomicSwap (c : Nat) (wide : Bool) (rsv gd ga gb : Nat) (s : State) : Host.Outcome State Fault Refusal :=
  .next (opAtomSwap wide rsv c gd ga gb s)

/-- ATOMIC_ADD (R58). -/
def execAtomicAdd (c : Nat) (wide : Bool) (rsv gd ga gb : Nat) (s : State) : Host.Outcome State Fault Refusal :=
  .next (opAtomAdd wide rsv c gd ga gb s)

/-- ATOMIC_AND (R58). -/
def execAtomicAnd (c : Nat) (wide : Bool) (rsv gd ga gb : Nat) (s : State) : Host.Outcome State Fault Refusal :=
  .next (opAtomAnd wide rsv c gd ga gb s)

/-- ATOMIC_OR (R58). -/
def execAtomicOr (c : Nat) (wide : Bool) (rsv gd ga gb : Nat) (s : State) : Host.Outcome State Fault Refusal :=
  .next (opAtomOr wide rsv c gd ga gb s)

/-- ATOMIC_XOR (R58). -/
def execAtomicXor (c : Nat) (wide : Bool) (rsv gd ga gb : Nat) (s : State) : Host.Outcome State Fault Refusal :=
  .next (opAtomXor wide rsv c gd ga gb s)

/-- ATOMIC_MAX (R58). -/
def execAtomicMax (c : Nat) (wide : Bool) (rsv gd ga gb : Nat) (s : State) : Host.Outcome State Fault Refusal :=
  .next (opAtomMax wide rsv c gd ga gb s)

/-- ATOMIC_MIN (R58). -/
def execAtomicMin (c : Nat) (wide : Bool) (rsv gd ga gb : Nat) (s : State) : Host.Outcome State Fault Refusal :=
  .next (opAtomMin wide rsv c gd ga gb s)

/-- ATOMIC_MAXU (R58). -/
def execAtomicMaxu (c : Nat) (wide : Bool) (rsv gd ga gb : Nat) (s : State) : Host.Outcome State Fault Refusal :=
  .next (opAtomMaxu wide rsv c gd ga gb s)

/-- ATOMIC_MINU (R58). -/
def execAtomicMinu (c : Nat) (wide : Bool) (rsv gd ga gb : Nat) (s : State) : Host.Outcome State Fault Refusal :=
  .next (opAtomMinu wide rsv c gd ga gb s)

/-- ATOMIC_CAS (R58). -/
def execAtomicCas (c : Nat) (wide : Bool) (rsv gd ga gb : Nat) (s : State) : Host.Outcome State Fault Refusal :=
  .next (opAtomCas wide rsv c gd ga gb s)

/-- BEQ (R59). -/
def execBeq (c ga gb off : Nat) (s : State) : Host.Outcome State Fault Refusal := .next (opBeq c ga gb off s)

/-- BNE (R59). -/
def execBne (c ga gb off : Nat) (s : State) : Host.Outcome State Fault Refusal := .next (opBne c ga gb off s)

/-- BLT (R59). -/
def execBlt (c ga gb off : Nat) (s : State) : Host.Outcome State Fault Refusal := .next (opBlt c ga gb off s)

/-- BGE (R59). -/
def execBge (c ga gb off : Nat) (s : State) : Host.Outcome State Fault Refusal := .next (opBge c ga gb off s)

/-- BLTU (R59). -/
def execBltu (c ga gb off : Nat) (s : State) : Host.Outcome State Fault Refusal := .next (opBltu c ga gb off s)

/-- BGEU (R59). -/
def execBgeu (c ga gb off : Nat) (s : State) : Host.Outcome State Fault Refusal := .next (opBgeu c ga gb off s)

/-- JAL (R59). -/
def execJal (c gd off : Nat) (s : State) : Host.Outcome State Fault Refusal := .next (opJal c gd off s)

/-- JALR (R59). -/
def execJalr (c gd ga imm : Nat) (s : State) : Host.Outcome State Fault Refusal := .next (opJalr c gd ga imm s)

end Sys2Proof.Machine
end

