-- ==== Sys2Proof/Machine/RunSluice.lean ====
section
/-! DEFINITION. The meanings of the rows of the Sluice (R197-R225): each is its own definition over the shared operations. -/

namespace Sys2Proof.Machine

/-- NEXT (R215). -/
def execSeqNext (n : Nat) (s : State) : Host.Outcome State Fault Refusal := .next (seqNext n s)

/-- PUT (R215). -/
def execSeqPut (n : Nat) (s : State) : Host.Outcome State Fault Refusal := .next (seqPut n s)

/-- DROP (R215). -/
def execSeqDrop (n : Nat) (s : State) : Host.Outcome State Fault Refusal := .next (seqDrop n s)

/-- END (R215). -/
def execSeqEnd (n : Nat) (s : State) : Host.Outcome State Fault Refusal := .next (seqEnd n s)

/-- SLUICE_PROGRAM_OP (R213). -/
def execSluiceProgramOp (n : Nat) (s : State) : Host.Outcome State Fault Refusal := .next (sluProgramOp n s)

/-- RULE_ADD (R219). -/
def execRuleAdd (n : Nat) (s : State) : Host.Outcome State Fault Refusal := .next (ruleAdd n s)

/-- RULE_MUL (R219). -/
def execRuleMul (n : Nat) (s : State) : Host.Outcome State Fault Refusal := .next (ruleMul n s)

/-- RULE_FMA (R219). -/
def execRuleFma (n : Nat) (s : State) : Host.Outcome State Fault Refusal := .next (ruleFma n s)

/-- RULE_DIV (R219). -/
def execRuleDiv (n : Nat) (s : State) : Host.Outcome State Fault Refusal := .next (ruleDiv n s)

/-- RULE_SQRT (R219). -/
def execRuleSqrt (n : Nat) (s : State) : Host.Outcome State Fault Refusal := .next (ruleSqrt n s)

/-- RULE_RSQRT (R219). -/
def execRuleRsqrt (n : Nat) (s : State) : Host.Outcome State Fault Refusal := .next (ruleRsqrt n s)

/-- RULE_MAX (R219). -/
def execRuleMax (n : Nat) (s : State) : Host.Outcome State Fault Refusal := .next (ruleMax n s)

/-- RULE_MIN (R219). -/
def execRuleMin (n : Nat) (s : State) : Host.Outcome State Fault Refusal := .next (ruleMin n s)

/-- RULE_SIGN (R219). -/
def execRuleSign (n : Nat) (s : State) : Host.Outcome State Fault Refusal := .next (ruleSign n s)

/-- RULE_CLIP (R219). -/
def execRuleClip (n : Nat) (s : State) : Host.Outcome State Fault Refusal := .next (ruleClip n s)

/-- RULE_LERP (R219). -/
def execRuleLerp (n : Nat) (s : State) : Host.Outcome State Fault Refusal := .next (ruleLerp n s)

/-- RULE_SCALE (R219). -/
def execRuleScale (n : Nat) (s : State) : Host.Outcome State Fault Refusal := .next (ruleScale n s)

/-- RULE_GROUP (R220). -/
def execRuleGroup (n : Nat) (s : State) : Host.Outcome State Fault Refusal := .next (ruleGroup n s)

/-- SLU_DOORBELL (R205). -/
def execSluDoorbell (o : Origin) (n : Nat) (v : Word) (s : State) : Host.Outcome State Fault Refusal :=
  .next (opSluDoorbell o n v s)

/-- SLU_BCAST (R205). -/
def execSluBcast (o : Origin) (n : Nat) (v : Word) (s : State) : Host.Outcome State Fault Refusal :=
  .next (opSluBcast o n v s)

/-- SLU_JOB_LOAD (R207). -/
def execSluJobLoad (n : Nat) (s : State) : Host.Outcome State Fault Refusal := .next (sluJobLoad n s)

/-- SLU_JOB_START (R207). -/
def execSluJobStart (n : Nat) (s : State) : Host.Outcome State Fault Refusal := .next (sluJobStart n s)

/-- SLU_JOB_DONE (R209). -/
def execSluJobDone (n : Nat) (s : State) : Host.Outcome State Fault Refusal := .next (sluJobDone n s)

/-- SLU_ABORT (R223). -/
def execSluAbort (o : Origin) (n : Nat) (s : State) : Host.Outcome State Fault Refusal := .next (opSluAbort o n s)

/-- SLU_ERR_CLEAR (R222). -/
def execSluErrClear (o : Origin) (n : Nat) (s : State) : Host.Outcome State Fault Refusal := .next (opSluErrClear o n s)

end Sys2Proof.Machine
end

