-- ==== Sys2Proof/Machine/RunStream.lean ====
section
/-! DEFINITION. The meanings of the rows of Flume and Culvert (R269-R311): each is its own definition over the shared operations. -/

namespace Sys2Proof.Machine

/-- SARM (R279). -/
def execSarm (c gd ga gb : Nat) (s : State) : Host.Outcome State Fault Refusal := .next (opSarm c gd ga gb s)

/-- SWAIT (R280). -/
def execSwait (c gd ga gb : Nat) (s : State) : Host.Outcome State Fault Refusal := .next (opSwait c gd ga gb s)

/-- SFREE (R281). -/
def execSfree (c gd ga gb : Nat) (s : State) : Host.Outcome State Fault Refusal := .next (opSfree c gd ga gb s)

/-- SSTOP (R282). -/
def execSstop (c gd ga gb : Nat) (s : State) : Host.Outcome State Fault Refusal := .next (opSstop c gd ga gb s)

/-- SSTAT (R278). -/
def execSstat (c gd ga gb : Nat) (s : State) : Host.Outcome State Fault Refusal := .next (opSstat c gd ga gb s)

/-- FLUME_UNIT_ARRIVAL (R274). -/
def execFlumeUnitArrival (c n : Nat) (nf : Bool) (s : State) : Host.Outcome State Fault Refusal :=
  .next (flumeUnitArrival c n nf s)

/-- DEADLINE_CHECK (R285). -/
def execDeadlineCheck (c n : Nat) (s : State) : Host.Outcome State Fault Refusal := .next (deadlineCheck c n s)

/-- CSTART (R298). -/
def execCstart (c gd ga gb : Nat) (s : State) : Host.Outcome State Fault Refusal := .next (opCstart c gd ga gb s)

/-- CSTOP (R301). -/
def execCstop (c gd ga gb : Nat) (s : State) : Host.Outcome State Fault Refusal := .next (opCstop c gd ga gb s)

/-- CSTAT (R278). -/
def execCstat (c gd ga gb : Nat) (s : State) : Host.Outcome State Fault Refusal := .next (opCstat c gd ga gb s)

/-- CULVERT_DESC_FETCH (R297). -/
def execCulvertDescFetch (chip : Bool) (c n : Nat) (s : State) : Host.Outcome State Fault Refusal :=
  .next (opDescFetch chip c n s)

/-- CULVERT_ELEMENT (R297). -/
def execCulvertElement (chip : Bool) (c n : Nat) (nf : Bool) (s : State) : Host.Outcome State Fault Refusal :=
  .next (opElement chip c n nf s)

/-- CULVERT_DESC_COMPLETE (R298). -/
def execCulvertDescComplete (chip : Bool) (c n : Nat) (s : State) : Host.Outcome State Fault Refusal :=
  .next (opComplete chip c n s)

/-- CV_COUNT_WRITE (R299). -/
def execCvCountWrite (o : Origin) (c n : Nat) (v : Word) (s : State) : Host.Outcome State Fault Refusal :=
  .next (opCvCount o c n v s)

end Sys2Proof.Machine
end

