-- ==== Sys2Proof/Machine/RunTether.lean ====
section
/-! DEFINITION. The meanings of the rows of the Tether (R395-R422): each is its own definition over the shared operations. -/

namespace Sys2Proof.Machine

/-- TT_TRAIN (R397). -/
def execTtTrain (o : Origin) (s : State) : Host.Outcome State Fault Refusal := .next (opTtTrain o s)

/-- TT_DOWN (R422). -/
def execTtDown (o : Origin) (s : State) : Host.Outcome State Fault Refusal := .next (opTtDown o s)

/-- TT_WRESET (R417). -/
def execTtWreset (o : Origin) (s : State) : Host.Outcome State Fault Refusal := .next (opTtWreset o s)

/-- SUBLINK_LOCKED (R397). -/
def execSublinkLocked (k : Nat) (s : State) : Host.Outcome State Fault Refusal := .next (sublinkLocked k s)

/-- SUBLINK_TRAIN_TIMEOUT (R397). -/
def execSublinkTrainTimeout (k : Nat) (s : State) : Host.Outcome State Fault Refusal := .next (sublinkTrainTimeout k s)

/-- IDLE_FLIT (R397). -/
def execIdleFlit (k : Nat) (x : Flit) (s : State) : Host.Outcome State Fault Refusal := .next (idleFlit k x s)

/-- MSG_FLIT (R399). -/
def execMsgFlit (k : Nat) (x : Flit) (s : State) : Host.Outcome State Fault Refusal := .next (msgFlit k x s)

/-- NAK (R399). -/
def execNak (k : Nat) (x : Flit) (s : State) : Host.Outcome State Fault Refusal := .next (nakFlit k x s)

/-- STEER (R396). -/
def execSteer (k : Nat) (x : Flit) (s : State) : Host.Outcome State Fault Refusal := .next (steerFlit k x s)

/-- RD_SHARED (R408). -/
def execRdShared (k : Nat) (m : TMsg) (s : State) : Host.Outcome State Fault Refusal := .next (rdShared k m s)

/-- RD_OWN (R408). -/
def execRdOwn (k : Nat) (m : TMsg) (s : State) : Host.Outcome State Fault Refusal := .next (rdOwn k m s)

/-- RD_CUR (R408). -/
def execRdCur (k : Nat) (m : TMsg) (s : State) : Host.Outcome State Fault Refusal := .next (rdCur k m s)

/-- UPGRADE (R408). -/
def execUpgrade (k : Nat) (m : TMsg) (s : State) : Host.Outcome State Fault Refusal := .next (upgrade k m s)

/-- EVICT (R408). -/
def execEvict (k : Nat) (m : TMsg) (s : State) : Host.Outcome State Fault Refusal := .next (evictReq k m s)

/-- WR_LINE (R408). -/
def execWrLine (k : Nat) (m : TMsg) (s : State) : Host.Outcome State Fault Refusal := .next (wrLine k m s)

/-- WR_PART (R408). -/
def execWrPart (k : Nat) (m : TMsg) (s : State) : Host.Outcome State Fault Refusal := .next (wrPart k m s)

/-- WR_BACK (R408). -/
def execWrBack (k : Nat) (m : TMsg) (s : State) : Host.Outcome State Fault Refusal := .next (wrBack k m s)

/-- SNP_DATA (R402). -/
def execSnpData (k : Nat) (m : TMsg) (s : State) : Host.Outcome State Fault Refusal := .next (snpData k m s)

/-- SNP_INV (R402). -/
def execSnpInv (k : Nat) (m : TMsg) (s : State) : Host.Outcome State Fault Refusal := .next (snpInv k m s)

/-- TT_WR_ACK (R402). -/
def execTtWrAck (k : Nat) (m : TMsg) (s : State) : Host.Outcome State Fault Refusal := .next (ttWrAck k m s)

/-- GRANT (R402). -/
def execGrant (k : Nat) (m : TMsg) (s : State) : Host.Outcome State Fault Refusal := .next (grant k m s)

/-- SNP_ACK (R412). -/
def execSnpAck (k : Nat) (m : TMsg) (s : State) : Host.Outcome State Fault Refusal := .next (snpAck k m s)

/-- EVICT_ACK (R402). -/
def execEvictAck (k : Nat) (m : TMsg) (s : State) : Host.Outcome State Fault Refusal := .next (evictAck k m s)

/-- TT_ERR (R419). -/
def execTtErr (k : Nat) (m : TMsg) (s : State) : Host.Outcome State Fault Refusal := .next (ttErr k m s)

/-- TT_RD_DATA (R402). -/
def execTtRdData (k : Nat) (m : TMsg) (s : State) : Host.Outcome State Fault Refusal := .next (ttRdData k m s)

/-- SNP_DATA_RSP (R402). -/
def execSnpDataRsp (k : Nat) (m : TMsg) (s : State) : Host.Outcome State Fault Refusal := .next (snpDataRsp k m s)

/-- REG_RD (R417). -/
def execRegRd (k : Nat) (m : TMsg) (s : State) : Host.Outcome State Fault Refusal := .next (regRd k m s)

/-- REG_WR (R417). -/
def execRegWr (k : Nat) (m : TMsg) (s : State) : Host.Outcome State Fault Refusal := .next (regWr k m s)

/-- REG_RSP (R417). -/
def execRegRsp (k : Nat) (m : TMsg) (s : State) : Host.Outcome State Fault Refusal := .next (ttStray 2 k m s)

/-- MSI (R416). -/
def execMsi (k : Nat) (m : TMsg) (s : State) : Host.Outcome State Fault Refusal := .next (ttStray 3 k m s)

/-- TT_REQ_TIMEOUT (R419). -/
def execTtReqTimeout (k txid : Nat) (s : State) : Host.Outcome State Fault Refusal := .next (ttReqTimeout k txid s)

/-- TT_SNOOP_TIMEOUT (R419). -/
def execTtSnoopTimeout (k txid : Nat) (s : State) : Host.Outcome State Fault Refusal := .next (ttSnoopTimeout k txid s)

/-- TT_MSI_WRITE (R416). -/
def execTtMsiWrite (o : Origin) (k : Nat) (v : Word) (s : State) : Host.Outcome State Fault Refusal :=
  .next (opTtMsi o k v s)

/-- TT_CW_WRITE (R414). -/
def execTtCwWrite (o : Origin) (size : Bool) (w : Nat) (v : Word) (s : State) : Host.Outcome State Fault Refusal :=
  .next (opTtCw o size w v s)

/-- MB_IN_DOOR (R418). -/
def execMbInDoor (h : Nat) (s : State) : Host.Outcome State Fault Refusal := .next (mbInDoor h s)

/-- MB_OUT_DOOR (R418). -/
def execMbOutDoor (h : Nat) (s : State) : Host.Outcome State Fault Refusal := .next (mbOutDoor h s)

end Sys2Proof.Machine
end

