-- ==== Sys2Proof/Machine/RunTile.lean ====
section
/-! DEFINITION. The meanings of the rows of tile registers (R84-R114): each is its own definition over the shared operations. -/

namespace Sys2Proof.Machine

/-- TLOAD (R103). -/
def execTload (c tt ga gb rsv : Nat) (s : State) : Host.Outcome State Fault Refusal :=
  .next (opTload c tt ga gb rsv (.tload c tt ga gb rsv) s)

/-- TSTORE (R104). -/
def execTstore (c tt ga gb rsv : Nat) (s : State) : Host.Outcome State Fault Refusal :=
  .next (opTstore c tt ga gb rsv (.tstore c tt ga gb rsv) s)

/-- TZERO (R110). -/
def execTzero (c tt rsv : Nat) (s : State) : Host.Outcome State Fault Refusal := .next (opTzero c tt rsv (.tzero c tt rsv) s)

/-- TREL (R111). -/
def execTrel (c mask rsv : Nat) (s : State) : Host.Outcome State Fault Refusal :=
  .next (opTrel c mask rsv (.trel c mask rsv) s)

/-- TCONF (R93). -/
def execTconf (c tt ga rsv : Nat) (s : State) : Host.Outcome State Fault Refusal :=
  .next (opTconf c tt ga rsv (.tconf c tt ga rsv) s)

/-- TCFG_MMIO_WRITE (R96). -/
def execTcfgMmioWrite (o : Origin) (c t : Nat) (v : Word) (s : State) : Host.Outcome State Fault Refusal :=
  .next (opTcfgMmio o c t v s)

/-- TCFG_BARRIER_APPLY (R94). -/
def execTcfgBarrierApply (c : Nat) (s : State) : Host.Outcome State Fault Refusal := .next (tcfgBarrierApply c s)

/-- TREL_APPLY (R111). -/
def execTrelApply (c : Nat) (s : State) : Host.Outcome State Fault Refusal := .next (trelApply c s)

/-- TLOAD_ROW_RETURN (R103). -/
def execTloadRowReturn (c row : Nat) (nf : Bool) (s : State) : Host.Outcome State Fault Refusal :=
  .next (tloadRow c row nf s)

end Sys2Proof.Machine
end

