-- ==== Sys2Proof/Machine/RunTrust.lean ====
section
/-! DEFINITION. The meanings of the rows of the Cleat (R471-R488): each is its own definition over the shared operations. -/

namespace Sys2Proof.Machine

/-- VERIFY (R480). -/
def execCkVerify (o : Origin) (arg : Nat) (s : State) : Host.Outcome State Fault Refusal := .next (opCk o 1 arg s)

/-- COMMIT_SVN (R480). -/
def execCkCommitSvn (o : Origin) (arg : Nat) (s : State) : Host.Outcome State Fault Refusal := .next (opCk o 2 arg s)

/-- INSTALL (R476). -/
def execCkInstall (o : Origin) (arg : Nat) (s : State) : Host.Outcome State Fault Refusal := .next (opCk o 3 arg s)

/-- ATTEST (R487). -/
def execCkAttest (o : Origin) (arg : Nat) (s : State) : Host.Outcome State Fault Refusal := .next (opCk o 4 arg s)

/-- MEMKEY (R472). -/
def execCkMemkey (o : Origin) (arg : Nat) (s : State) : Host.Outcome State Fault Refusal := .next (opCk o 5 arg s)

/-- TRANSITION (R482). -/
def execCkTransition (o : Origin) (arg : Nat) (s : State) : Host.Outcome State Fault Refusal := .next (opCk o 6 arg s)

/-- UNLOCK (R486). -/
def execCkUnlock (o : Origin) (arg : Nat) (s : State) : Host.Outcome State Fault Refusal := .next (opCk o 7 arg s)

/-- AKCERT (R487). -/
def execCkAkcert (o : Origin) (arg : Nat) (s : State) : Host.Outcome State Fault Refusal := .next (opCk o 8 arg s)

/-- EXTEND (R481). -/
def execCkExtend (o : Origin) (arg : Nat) (s : State) : Host.Outcome State Fault Refusal := .next (opCk o 9 arg s)

/-- CK_CMD_DONE (R488). -/
def execCkCmdDone (s : State) : Host.Outcome State Fault Refusal := .next (ckDone s)

/-- TAMPER (R485). -/
def execTamper (cause : Nat) (s : State) : Host.Outcome State Fault Refusal := .next (tamper cause s)

/-- VAULT_WIPE_DONE (R484). -/
def execVaultWipeDone (s : State) : Host.Outcome State Fault Refusal := .next (vaultWipeDone s)

/-- LICENCE_EXPIRY (R478). -/
def execLicenceExpiry (s : State) : Host.Outcome State Fault Refusal := .next (licenceExpiry s)

/-- SEQ_MARK_WRITE (R474). -/
def execSeqMarkWrite (k dir n : Nat) (s : State) : Host.Outcome State Fault Refusal := .next (seqMarkWrite k dir n s)

/-- SEQ_MARK_WRITTEN (R474). -/
def execSeqMarkWritten (k dir n : Nat) (s : State) : Host.Outcome State Fault Refusal := .next (seqMarkWritten k dir n s)

end Sys2Proof.Machine
end

