-- ==== Sys2Proof/Machine/RunVector.lean ====
section
/-! DEFINITION. The meanings of the rows of the vector engine (R170-R196): each is its own definition over the shared operations. -/

namespace Sys2Proof.Machine

/-- VARITH_ADD (R175). -/
def execVarithAdd (c vd va vb pm z w : Nat) (s : State) : Host.Outcome State Fault Refusal :=
  .next (opVarithAdd c vd va vb pm z w (.varithAdd c vd va vb pm z w) s)

/-- VARITH_SUB (R175). -/
def execVarithSub (c vd va vb pm z w : Nat) (s : State) : Host.Outcome State Fault Refusal :=
  .next (opVarithSub c vd va vb pm z w (.varithSub c vd va vb pm z w) s)

/-- VARITH_MUL (R175). -/
def execVarithMul (c vd va vb pm z w : Nat) (s : State) : Host.Outcome State Fault Refusal :=
  .next (opVarithMul c vd va vb pm z w (.varithMul c vd va vb pm z w) s)

/-- VARITH_DIV (R175). -/
def execVarithDiv (c vd va vb pm z w : Nat) (s : State) : Host.Outcome State Fault Refusal :=
  .next (opVarithDiv c vd va vb pm z w (.varithDiv c vd va vb pm z w) s)

/-- VARITH_MIN (R175). -/
def execVarithMin (c vd va vb pm z w : Nat) (s : State) : Host.Outcome State Fault Refusal :=
  .next (opVarithMin c vd va vb pm z w (.varithMin c vd va vb pm z w) s)

/-- VARITH_MAX (R175). -/
def execVarithMax (c vd va vb pm z w : Nat) (s : State) : Host.Outcome State Fault Refusal :=
  .next (opVarithMax c vd va vb pm z w (.varithMax c vd va vb pm z w) s)

/-- VARITH_ABS (R175). -/
def execVarithAbs (c vd va vb pm z w : Nat) (s : State) : Host.Outcome State Fault Refusal :=
  .next (opVarithAbs c vd va vb pm z w (.varithAbs c vd va vb pm z w) s)

/-- VARITH_NEG (R175). -/
def execVarithNeg (c vd va vb pm z w : Nat) (s : State) : Host.Outcome State Fault Refusal :=
  .next (opVarithNeg c vd va vb pm z w (.varithNeg c vd va vb pm z w) s)

/-- VARITH_SQRT (R175). -/
def execVarithSqrt (c vd va vb pm z w : Nat) (s : State) : Host.Outcome State Fault Refusal :=
  .next (opVarithSqrt c vd va vb pm z w (.varithSqrt c vd va vb pm z w) s)

/-- CVTFI (R175). -/
def execCvtfi (c vd va vb pm z w : Nat) (s : State) : Host.Outcome State Fault Refusal :=
  .next (opCvtfi c vd va vb pm z w (.cvtfi c vd va vb pm z w) s)

/-- CVTIF (R175). -/
def execCvtif (c vd va vb pm z w : Nat) (s : State) : Host.Outcome State Fault Refusal :=
  .next (opCvtif c vd va vb pm z w (.cvtif c vd va vb pm z w) s)

/-- SCALEB (R175). -/
def execScaleb (c vd va vb pm z w : Nat) (s : State) : Host.Outcome State Fault Refusal :=
  .next (opScaleb c vd va vb pm z w (.scaleb c vd va vb pm z w) s)

/-- VARITH_MOV (R175). -/
def execVarithMov (c vd va vb pm z w : Nat) (s : State) : Host.Outcome State Fault Refusal :=
  .next (opVarithMov c vd va vb pm z w (.varithMov c vd va vb pm z w) s)

/-- VARITH_SEL (R175). -/
def execVarithSel (c vd va vb pm z w : Nat) (s : State) : Host.Outcome State Fault Refusal :=
  .next (opVarithSel c vd va vb pm z w (.varithSel c vd va vb pm z w) s)

/-- VINT_ADD (R175). -/
def execVintAdd (c vd va vb pm z w : Nat) (s : State) : Host.Outcome State Fault Refusal :=
  .next (opVintAdd c vd va vb pm z w (.vintAdd c vd va vb pm z w) s)

/-- VINT_SUB (R175). -/
def execVintSub (c vd va vb pm z w : Nat) (s : State) : Host.Outcome State Fault Refusal :=
  .next (opVintSub c vd va vb pm z w (.vintSub c vd va vb pm z w) s)

/-- VINT_MUL (R175). -/
def execVintMul (c vd va vb pm z w : Nat) (s : State) : Host.Outcome State Fault Refusal :=
  .next (opVintMul c vd va vb pm z w (.vintMul c vd va vb pm z w) s)

/-- VINT_AND (R175). -/
def execVintAnd (c vd va vb pm z w : Nat) (s : State) : Host.Outcome State Fault Refusal :=
  .next (opVintAnd c vd va vb pm z w (.vintAnd c vd va vb pm z w) s)

/-- VINT_OR (R175). -/
def execVintOr (c vd va vb pm z w : Nat) (s : State) : Host.Outcome State Fault Refusal :=
  .next (opVintOr c vd va vb pm z w (.vintOr c vd va vb pm z w) s)

/-- VINT_XOR (R175). -/
def execVintXor (c vd va vb pm z w : Nat) (s : State) : Host.Outcome State Fault Refusal :=
  .next (opVintXor c vd va vb pm z w (.vintXor c vd va vb pm z w) s)

/-- VINT_SLL (R175). -/
def execVintSll (c vd va vb pm z w : Nat) (s : State) : Host.Outcome State Fault Refusal :=
  .next (opVintSll c vd va vb pm z w (.vintSll c vd va vb pm z w) s)

/-- VINT_SRL (R175). -/
def execVintSrl (c vd va vb pm z w : Nat) (s : State) : Host.Outcome State Fault Refusal :=
  .next (opVintSrl c vd va vb pm z w (.vintSrl c vd va vb pm z w) s)

/-- VINT_SRA (R175). -/
def execVintSra (c vd va vb pm z w : Nat) (s : State) : Host.Outcome State Fault Refusal :=
  .next (opVintSra c vd va vb pm z w (.vintSra c vd va vb pm z w) s)

/-- VINT_MIN (R175). -/
def execVintMin (c vd va vb pm z w : Nat) (s : State) : Host.Outcome State Fault Refusal :=
  .next (opVintMin c vd va vb pm z w (.vintMin c vd va vb pm z w) s)

/-- VINT_MAX (R175). -/
def execVintMax (c vd va vb pm z w : Nat) (s : State) : Host.Outcome State Fault Refusal :=
  .next (opVintMax c vd va vb pm z w (.vintMax c vd va vb pm z w) s)

/-- VFMA (R174). -/
def execVfma (c vd va vb pm z w : Nat) (s : State) : Host.Outcome State Fault Refusal :=
  .next (opVfma c vd va vb pm z w (.vfma c vd va vb pm z w) s)

/-- VFMA_SUB (R174). -/
def execVfmaSub (c vd va vb pm z w : Nat) (s : State) : Host.Outcome State Fault Refusal :=
  .next (opVfmaSub c vd va vb pm z w (.vfmaSub c vd va vb pm z w) s)

/-- VFMA_NEG (R174). -/
def execVfmaNeg (c vd va vb pm z w : Nat) (s : State) : Host.Outcome State Fault Refusal :=
  .next (opVfmaNeg c vd va vb pm z w (.vfmaNeg c vd va vb pm z w) s)

/-- VSCAL_ADD (R174). -/
def execVscalAdd (c vd va vb pm z w : Nat) (s : State) : Host.Outcome State Fault Refusal :=
  .next (opVscalAdd c vd va vb pm z w (.vscalAdd c vd va vb pm z w) s)

/-- VSCAL_SUB (R174). -/
def execVscalSub (c vd va vb pm z w : Nat) (s : State) : Host.Outcome State Fault Refusal :=
  .next (opVscalSub c vd va vb pm z w (.vscalSub c vd va vb pm z w) s)

/-- VSCAL_MUL (R174). -/
def execVscalMul (c vd va vb pm z w : Nat) (s : State) : Host.Outcome State Fault Refusal :=
  .next (opVscalMul c vd va vb pm z w (.vscalMul c vd va vb pm z w) s)

/-- VSCAL_DIV (R174). -/
def execVscalDiv (c vd va vb pm z w : Nat) (s : State) : Host.Outcome State Fault Refusal :=
  .next (opVscalDiv c vd va vb pm z w (.vscalDiv c vd va vb pm z w) s)

/-- VSCAL_MIN (R174). -/
def execVscalMin (c vd va vb pm z w : Nat) (s : State) : Host.Outcome State Fault Refusal :=
  .next (opVscalMin c vd va vb pm z w (.vscalMin c vd va vb pm z w) s)

/-- VSCAL_MAX (R174). -/
def execVscalMax (c vd va vb pm z w : Nat) (s : State) : Host.Outcome State Fault Refusal :=
  .next (opVscalMax c vd va vb pm z w (.vscalMax c vd va vb pm z w) s)

/-- VCMP_EQ (R175). -/
def execVcmpEq (c vd va vb pm z w : Nat) (s : State) : Host.Outcome State Fault Refusal :=
  .next (opVcmpEq c vd va vb pm z w (.vcmpEq c vd va vb pm z w) s)

/-- VCMP_NE (R175). -/
def execVcmpNe (c vd va vb pm z w : Nat) (s : State) : Host.Outcome State Fault Refusal :=
  .next (opVcmpNe c vd va vb pm z w (.vcmpNe c vd va vb pm z w) s)

/-- VCMP_LT (R175). -/
def execVcmpLt (c vd va vb pm z w : Nat) (s : State) : Host.Outcome State Fault Refusal :=
  .next (opVcmpLt c vd va vb pm z w (.vcmpLt c vd va vb pm z w) s)

/-- VCMP_LE (R175). -/
def execVcmpLe (c vd va vb pm z w : Nat) (s : State) : Host.Outcome State Fault Refusal :=
  .next (opVcmpLe c vd va vb pm z w (.vcmpLe c vd va vb pm z w) s)

/-- VCMP_GT (R175). -/
def execVcmpGt (c vd va vb pm z w : Nat) (s : State) : Host.Outcome State Fault Refusal :=
  .next (opVcmpGt c vd va vb pm z w (.vcmpGt c vd va vb pm z w) s)

/-- VCMP_GE (R175). -/
def execVcmpGe (c vd va vb pm z w : Nat) (s : State) : Host.Outcome State Fault Refusal :=
  .next (opVcmpGe c vd va vb pm z w (.vcmpGe c vd va vb pm z w) s)

/-- VCMP_UNORD (R175). -/
def execVcmpUnord (c vd va vb pm z w : Nat) (s : State) : Host.Outcome State Fault Refusal :=
  .next (opVcmpUnord c vd va vb pm z w (.vcmpUnord c vd va vb pm z w) s)

/-- VPRED_AND (R175). -/
def execVpredAnd (c vd va vb pm z w : Nat) (s : State) : Host.Outcome State Fault Refusal :=
  .next (opVpredAnd c vd va vb pm z w (.vpredAnd c vd va vb pm z w) s)

/-- VPRED_OR (R175). -/
def execVpredOr (c vd va vb pm z w : Nat) (s : State) : Host.Outcome State Fault Refusal :=
  .next (opVpredOr c vd va vb pm z w (.vpredOr c vd va vb pm z w) s)

/-- VPRED_XOR (R175). -/
def execVpredXor (c vd va vb pm z w : Nat) (s : State) : Host.Outcome State Fault Refusal :=
  .next (opVpredXor c vd va vb pm z w (.vpredXor c vd va vb pm z w) s)

/-- VPRED_ANDN (R175). -/
def execVpredAndn (c vd va vb pm z w : Nat) (s : State) : Host.Outcome State Fault Refusal :=
  .next (opVpredAndn c vd va vb pm z w (.vpredAndn c vd va vb pm z w) s)

/-- FROMG (R175). -/
def execFromg (c vd va vb pm z w : Nat) (s : State) : Host.Outcome State Fault Refusal :=
  .next (opFromg c vd va vb pm z w (.fromg c vd va vb pm z w) s)

/-- TOG (R175). -/
def execTog (c vd va vb pm z w : Nat) (s : State) : Host.Outcome State Fault Refusal :=
  .next (opTog c vd va vb pm z w (.tog c vd va vb pm z w) s)

/-- BCAST (R175). -/
def execBcast (c vd va vb pm z w : Nat) (s : State) : Host.Outcome State Fault Refusal :=
  .next (opBcast c vd va vb pm z w (.bcast c vd va vb pm z w) s)

/-- VEXT (R175). -/
def execVext (c vd va vb pm z w : Nat) (s : State) : Host.Outcome State Fault Refusal :=
  .next (opVext c vd va vb pm z w (.vext c vd va vb pm z w) s)

/-- VINS (R175). -/
def execVins (c vd va vb pm z w : Nat) (s : State) : Host.Outcome State Fault Refusal :=
  .next (opVins c vd va vb pm z w (.vins c vd va vb pm z w) s)

/-- ROT (R175). -/
def execRot (c vd va vb pm z w : Nat) (s : State) : Host.Outcome State Fault Refusal :=
  .next (opRot c vd va vb pm z w (.rot c vd va vb pm z w) s)

/-- VCVT_WIDEN (R179). -/
def execVcvtWiden (c vd va nfmt part rm rsv w : Nat) (s : State) : Host.Outcome State Fault Refusal :=
  .next (opVcvtWiden c vd va nfmt part rm rsv w (.vcvtWiden c vd va nfmt part rm rsv w) s)

/-- VCVT_NARROW (R179). -/
def execVcvtNarrow (c vd va nfmt part rm rsv w : Nat) (s : State) : Host.Outcome State Fault Refusal :=
  .next (opVcvtNarrow c vd va nfmt part rm rsv w (.vcvtNarrow c vd va nfmt part rm rsv w) s)

/-- VLD (R177). -/
def execVld (c vd ga pm imm : Nat) (s : State) : Host.Outcome State Fault Refusal :=
  .next (opVld c vd ga pm imm (.vld c vd ga pm imm) s)

/-- VST (R177). -/
def execVst (c vs ga pm imm : Nat) (s : State) : Host.Outcome State Fault Refusal :=
  .next (opVst c vs ga pm imm (.vst c vs ga pm imm) s)

/-- VTR (R178). -/
def execVtr (c vd ga tt tr rsv : Nat) (s : State) : Host.Outcome State Fault Refusal :=
  .next (opVtr c vd ga tt tr rsv (.vtr c vd ga tt tr rsv) s)

/-- VTW (R178). -/
def execVtw (c vs ga tt tr rsv : Nat) (s : State) : Host.Outcome State Fault Refusal :=
  .next (opVtw c vs ga tt tr rsv (.vtw c vs ga tt tr rsv) s)

/-- VRED_SUM (R189). -/
def execVredSum (c vd va vb pm g ts w : Nat) (s : State) : Host.Outcome State Fault Refusal :=
  .next (opVredSum c vd va vb pm g ts w (.vredSum c vd va vb pm g ts w) s)

/-- VRED_MAX (R189). -/
def execVredMax (c vd va vb pm g ts w : Nat) (s : State) : Host.Outcome State Fault Refusal :=
  .next (opVredMax c vd va vb pm g ts w (.vredMax c vd va vb pm g ts w) s)

/-- VRED_SUMSQ (R189). -/
def execVredSumsq (c vd va vb pm g ts w : Nat) (s : State) : Host.Outcome State Fault Refusal :=
  .next (opVredSumsq c vd va vb pm g ts w (.vredSumsq c vd va vb pm g ts w) s)

/-- VRED_DOT (R189). -/
def execVredDot (c vd va vb pm g ts w : Nat) (s : State) : Host.Outcome State Fault Refusal :=
  .next (opVredDot c vd va vb pm g ts w (.vredDot c vd va vb pm g ts w) s)

/-- VFUN (R186). -/
def execVfun (c vd va slot d pm z w rsv : Nat) (s : State) : Host.Outcome State Fault Refusal :=
  .next (opVfun c vd va slot d pm z w rsv (.vfun c vd va slot d pm z w rsv) s)

/-- VFLOAD (R187). -/
def execVfload (c slot r0 ga rsv : Nat) (s : State) : Host.Outcome State Fault Refusal := .next (opVfload c slot r0 ga rsv s)

/-- VFLOAD_DONE (R187). -/
def execVfloadDone (c : Nat) (s : State) : Host.Outcome State Fault Refusal := .next (vfloadDone c s)

/-- VMXS (R181). -/
def execVmxs (c vd va vb byte w : Nat) (s : State) : Host.Outcome State Fault Refusal :=
  .next (opVmxs c vd va vb byte w (.vmxs c vd va vb byte w) s)

/-- VCFG (R176). -/
def execVcfg (c vd ga rest : Nat) (s : State) : Host.Outcome State Fault Refusal :=
  .next (opVcfg c vd ga rest (.vcfg c vd ga rest) s)

/-- VFACT (R191). -/
def execVfact (c td ga ta gb rsv : Nat) (s : State) : Host.Outcome State Fault Refusal :=
  .next (opVfact c td ga ta gb rsv (.vfact c td ga ta gb rsv) s)

/-- VSOLVE (R193). -/
def execVsolve (c vd va ga tf rsv : Nat) (s : State) : Host.Outcome State Fault Refusal :=
  .next (opVsolve c vd va ga tf rsv (.vsolve c vd va ga tf rsv) s)

end Sys2Proof.Machine
end

