-- ==== Sys2Proof/Machine/Dispatch.lean ====
section
/-! DEFINITION. One arm for each command. -/

namespace Sys2Proof.Machine

def exec (i : Instr) (s : State) : Host.Outcome State Fault Refusal :=
  match i with
  | .add c gd ga gb => Sys2Proof.Machine.execAdd c gd ga gb s
  | .sub c gd ga gb => Sys2Proof.Machine.execSub c gd ga gb s
  | .and c gd ga gb => Sys2Proof.Machine.execAnd c gd ga gb s
  | .or c gd ga gb => Sys2Proof.Machine.execOr c gd ga gb s
  | .xor c gd ga gb => Sys2Proof.Machine.execXor c gd ga gb s
  | .sll c gd ga gb => Sys2Proof.Machine.execSll c gd ga gb s
  | .srl c gd ga gb => Sys2Proof.Machine.execSrl c gd ga gb s
  | .sra c gd ga gb => Sys2Proof.Machine.execSra c gd ga gb s
  | .slt c gd ga gb => Sys2Proof.Machine.execSlt c gd ga gb s
  | .sltu c gd ga gb => Sys2Proof.Machine.execSltu c gd ga gb s
  | .min c gd ga gb => Sys2Proof.Machine.execMin c gd ga gb s
  | .max c gd ga gb => Sys2Proof.Machine.execMax c gd ga gb s
  | .minu c gd ga gb => Sys2Proof.Machine.execMinu c gd ga gb s
  | .maxu c gd ga gb => Sys2Proof.Machine.execMaxu c gd ga gb s
  | .clz c gd ga gb => Sys2Proof.Machine.execClz c gd ga gb s
  | .ctz c gd ga gb => Sys2Proof.Machine.execCtz c gd ga gb s
  | .popc c gd ga gb => Sys2Proof.Machine.execPopc c gd ga gb s
  | .andn c gd ga gb => Sys2Proof.Machine.execAndn c gd ga gb s
  | .addi c gd ga imm => Sys2Proof.Machine.execAddi c gd ga imm s
  | .andi c gd ga imm => Sys2Proof.Machine.execAndi c gd ga imm s
  | .ori c gd ga imm => Sys2Proof.Machine.execOri c gd ga imm s
  | .xori c gd ga imm => Sys2Proof.Machine.execXori c gd ga imm s
  | .slti c gd ga imm => Sys2Proof.Machine.execSlti c gd ga imm s
  | .sltiu c gd ga imm => Sys2Proof.Machine.execSltiu c gd ga imm s
  | .shi c gd ga imm => Sys2Proof.Machine.execShi c gd ga imm s
  | .lih c gd imm => Sys2Proof.Machine.execLih c gd imm s
  | .liw c gd rsv imm => Sys2Proof.Machine.execLiw c gd rsv imm s
  | .mul c gd ga gb => Sys2Proof.Machine.execMul c gd ga gb s
  | .mulh c gd ga gb => Sys2Proof.Machine.execMulh c gd ga gb s
  | .mulhu c gd ga gb => Sys2Proof.Machine.execMulhu c gd ga gb s
  | .div c gd ga gb => Sys2Proof.Machine.execDiv c gd ga gb s
  | .divu c gd ga gb => Sys2Proof.Machine.execDivu c gd ga gb s
  | .rem c gd ga gb => Sys2Proof.Machine.execRem c gd ga gb s
  | .remu c gd ga gb => Sys2Proof.Machine.execRemu c gd ga gb s
  | .lb c gd ga imm => Sys2Proof.Machine.execLb c gd ga imm s
  | .lbu c gd ga imm => Sys2Proof.Machine.execLbu c gd ga imm s
  | .lh c gd ga imm => Sys2Proof.Machine.execLh c gd ga imm s
  | .lhu c gd ga imm => Sys2Proof.Machine.execLhu c gd ga imm s
  | .lw c gd ga imm => Sys2Proof.Machine.execLw c gd ga imm s
  | .lwu c gd ga imm => Sys2Proof.Machine.execLwu c gd ga imm s
  | .ld c gd ga imm => Sys2Proof.Machine.execLd c gd ga imm s
  | .sb c gs ga imm => Sys2Proof.Machine.execSb c gs ga imm s
  | .sh c gs ga imm => Sys2Proof.Machine.execSh c gs ga imm s
  | .sw c gs ga imm => Sys2Proof.Machine.execSw c gs ga imm s
  | .sd c gs ga imm => Sys2Proof.Machine.execSd c gs ga imm s
  | .atomicSwap c wide rsv gd ga gb => Sys2Proof.Machine.execAtomicSwap c wide rsv gd ga gb s
  | .atomicAdd c wide rsv gd ga gb => Sys2Proof.Machine.execAtomicAdd c wide rsv gd ga gb s
  | .atomicAnd c wide rsv gd ga gb => Sys2Proof.Machine.execAtomicAnd c wide rsv gd ga gb s
  | .atomicOr c wide rsv gd ga gb => Sys2Proof.Machine.execAtomicOr c wide rsv gd ga gb s
  | .atomicXor c wide rsv gd ga gb => Sys2Proof.Machine.execAtomicXor c wide rsv gd ga gb s
  | .atomicMax c wide rsv gd ga gb => Sys2Proof.Machine.execAtomicMax c wide rsv gd ga gb s
  | .atomicMin c wide rsv gd ga gb => Sys2Proof.Machine.execAtomicMin c wide rsv gd ga gb s
  | .atomicMaxu c wide rsv gd ga gb => Sys2Proof.Machine.execAtomicMaxu c wide rsv gd ga gb s
  | .atomicMinu c wide rsv gd ga gb => Sys2Proof.Machine.execAtomicMinu c wide rsv gd ga gb s
  | .atomicCas c wide rsv gd ga gb => Sys2Proof.Machine.execAtomicCas c wide rsv gd ga gb s
  | .beq c ga gb off => Sys2Proof.Machine.execBeq c ga gb off s
  | .bne c ga gb off => Sys2Proof.Machine.execBne c ga gb off s
  | .blt c ga gb off => Sys2Proof.Machine.execBlt c ga gb off s
  | .bge c ga gb off => Sys2Proof.Machine.execBge c ga gb off s
  | .bltu c ga gb off => Sys2Proof.Machine.execBltu c ga gb off s
  | .bgeu c ga gb off => Sys2Proof.Machine.execBgeu c ga gb off s
  | .jal c gd off => Sys2Proof.Machine.execJal c gd off s
  | .jalr c gd ga imm => Sys2Proof.Machine.execJalr c gd ga imm s
  | .ecall c gd ga gb => Sys2Proof.Machine.execEcall c gd ga gb s
  | .brk c gd ga gb => Sys2Proof.Machine.execBrk c gd ga gb s
  | .mret c gd ga gb => Sys2Proof.Machine.execMret c gd ga gb s
  | .wfi c gd ga gb => Sys2Proof.Machine.execWfi c gd ga gb s
  | .fence c gd ga gb => Sys2Proof.Machine.execFence c gd ga gb s
  | .fenceI c gd ga gb => Sys2Proof.Machine.execFenceI c gd ga gb s
  | .tswitch c gd ga gb => Sys2Proof.Machine.execTswitch c gd ga gb s
  | .ctxsave c gd ga gb => Sys2Proof.Machine.execCtxsave c gd ga gb s
  | .ctxload c gd ga gb => Sys2Proof.Machine.execCtxload c gd ga gb s
  | .csrrw c gd ga imm => Sys2Proof.Machine.execCsrrw c gd ga imm s
  | .csrrs c gd ga imm => Sys2Proof.Machine.execCsrrs c gd ga imm s
  | .csrrc c gd ga imm => Sys2Proof.Machine.execCsrrc c gd ga imm s
  | .interruptTaken c => Sys2Proof.Machine.execInterruptTaken c s
  | .maintSwitch c => Sys2Proof.Machine.execMaintSwitch c s
  | .contextSwitchDone c => Sys2Proof.Machine.execContextSwitchDone c s
  | .engStateMoveDone c => Sys2Proof.Machine.execEngStateMoveDone c s
  | .cycleCmpMatch c => Sys2Proof.Machine.execCycleCmpMatch c s
  | .isoftWrite o c v => Sys2Proof.Machine.execIsoftWrite o c v s
  | .coreRunWrite o c v => Sys2Proof.Machine.execCoreRunWrite o c v s
  | .coreModeWrite o c v => Sys2Proof.Machine.execCoreModeWrite o c v s
  | .ctxStateWrite o c v => Sys2Proof.Machine.execCtxStateWrite o c v s
  | .engErrClear o c v => Sys2Proof.Machine.execEngErrClear o c v s
  | .tload c tt ga gb rsv => Sys2Proof.Machine.execTload c tt ga gb rsv s
  | .tstore c tt ga gb rsv => Sys2Proof.Machine.execTstore c tt ga gb rsv s
  | .tzero c tt rsv => Sys2Proof.Machine.execTzero c tt rsv s
  | .trel c mask rsv => Sys2Proof.Machine.execTrel c mask rsv s
  | .tconf c tt ga rsv => Sys2Proof.Machine.execTconf c tt ga rsv s
  | .tcfgMmioWrite o c t v => Sys2Proof.Machine.execTcfgMmioWrite o c t v s
  | .tcfgBarrierApply c => Sys2Proof.Machine.execTcfgBarrierApply c s
  | .trelApply c => Sys2Proof.Machine.execTrelApply c s
  | .tloadRowReturn c row nf => Sys2Proof.Machine.execTloadRowReturn c row nf s
  | .mma c sb sa tb ta btr atr bsrc asrc ovw acc r0 r1 ns ms ks => Sys2Proof.Machine.execMma c sb sa tb ta btr atr bsrc asrc ovw acc r0 r1 ns ms ks s
  | .mdrain c r0 fmt rm gb ga td r1 dst acc r2 nc coff tag => Sys2Proof.Machine.execMdrain c r0 fmt rm gb ga td r1 dst acc r2 nc coff tag s
  | .mcfg c gd ga gb fn => Sys2Proof.Machine.execMcfg c gd ga gb fn s
  | .mcfgBarrierApply c => Sys2Proof.Machine.execMcfgBarrierApply c s
  | .feederSlotRelease c => Sys2Proof.Machine.execFeederSlotRelease c s
  | .mmaComplete c => Sys2Proof.Machine.execMmaComplete c s
  | .mdrainReadEnd c => Sys2Proof.Machine.execMdrainReadEnd c s
  | .mdrainWritten c => Sys2Proof.Machine.execMdrainWritten c s
  | .mdrainComplete c => Sys2Proof.Machine.execMdrainComplete c s
  | .varithAdd c vd va vb pm z w => Sys2Proof.Machine.execVarithAdd c vd va vb pm z w s
  | .varithSub c vd va vb pm z w => Sys2Proof.Machine.execVarithSub c vd va vb pm z w s
  | .varithMul c vd va vb pm z w => Sys2Proof.Machine.execVarithMul c vd va vb pm z w s
  | .varithDiv c vd va vb pm z w => Sys2Proof.Machine.execVarithDiv c vd va vb pm z w s
  | .varithMin c vd va vb pm z w => Sys2Proof.Machine.execVarithMin c vd va vb pm z w s
  | .varithMax c vd va vb pm z w => Sys2Proof.Machine.execVarithMax c vd va vb pm z w s
  | .varithAbs c vd va vb pm z w => Sys2Proof.Machine.execVarithAbs c vd va vb pm z w s
  | .varithNeg c vd va vb pm z w => Sys2Proof.Machine.execVarithNeg c vd va vb pm z w s
  | .varithSqrt c vd va vb pm z w => Sys2Proof.Machine.execVarithSqrt c vd va vb pm z w s
  | .cvtfi c vd va vb pm z w => Sys2Proof.Machine.execCvtfi c vd va vb pm z w s
  | .cvtif c vd va vb pm z w => Sys2Proof.Machine.execCvtif c vd va vb pm z w s
  | .scaleb c vd va vb pm z w => Sys2Proof.Machine.execScaleb c vd va vb pm z w s
  | .varithMov c vd va vb pm z w => Sys2Proof.Machine.execVarithMov c vd va vb pm z w s
  | .varithSel c vd va vb pm z w => Sys2Proof.Machine.execVarithSel c vd va vb pm z w s
  | .vintAdd c vd va vb pm z w => Sys2Proof.Machine.execVintAdd c vd va vb pm z w s
  | .vintSub c vd va vb pm z w => Sys2Proof.Machine.execVintSub c vd va vb pm z w s
  | .vintMul c vd va vb pm z w => Sys2Proof.Machine.execVintMul c vd va vb pm z w s
  | .vintAnd c vd va vb pm z w => Sys2Proof.Machine.execVintAnd c vd va vb pm z w s
  | .vintOr c vd va vb pm z w => Sys2Proof.Machine.execVintOr c vd va vb pm z w s
  | .vintXor c vd va vb pm z w => Sys2Proof.Machine.execVintXor c vd va vb pm z w s
  | .vintSll c vd va vb pm z w => Sys2Proof.Machine.execVintSll c vd va vb pm z w s
  | .vintSrl c vd va vb pm z w => Sys2Proof.Machine.execVintSrl c vd va vb pm z w s
  | .vintSra c vd va vb pm z w => Sys2Proof.Machine.execVintSra c vd va vb pm z w s
  | .vintMin c vd va vb pm z w => Sys2Proof.Machine.execVintMin c vd va vb pm z w s
  | .vintMax c vd va vb pm z w => Sys2Proof.Machine.execVintMax c vd va vb pm z w s
  | .vfma c vd va vb pm z w => Sys2Proof.Machine.execVfma c vd va vb pm z w s
  | .vfmaSub c vd va vb pm z w => Sys2Proof.Machine.execVfmaSub c vd va vb pm z w s
  | .vfmaNeg c vd va vb pm z w => Sys2Proof.Machine.execVfmaNeg c vd va vb pm z w s
  | .vscalAdd c vd va vb pm z w => Sys2Proof.Machine.execVscalAdd c vd va vb pm z w s
  | .vscalSub c vd va vb pm z w => Sys2Proof.Machine.execVscalSub c vd va vb pm z w s
  | .vscalMul c vd va vb pm z w => Sys2Proof.Machine.execVscalMul c vd va vb pm z w s
  | .vscalDiv c vd va vb pm z w => Sys2Proof.Machine.execVscalDiv c vd va vb pm z w s
  | .vscalMin c vd va vb pm z w => Sys2Proof.Machine.execVscalMin c vd va vb pm z w s
  | .vscalMax c vd va vb pm z w => Sys2Proof.Machine.execVscalMax c vd va vb pm z w s
  | .vcmpEq c vd va vb pm z w => Sys2Proof.Machine.execVcmpEq c vd va vb pm z w s
  | .vcmpNe c vd va vb pm z w => Sys2Proof.Machine.execVcmpNe c vd va vb pm z w s
  | .vcmpLt c vd va vb pm z w => Sys2Proof.Machine.execVcmpLt c vd va vb pm z w s
  | .vcmpLe c vd va vb pm z w => Sys2Proof.Machine.execVcmpLe c vd va vb pm z w s
  | .vcmpGt c vd va vb pm z w => Sys2Proof.Machine.execVcmpGt c vd va vb pm z w s
  | .vcmpGe c vd va vb pm z w => Sys2Proof.Machine.execVcmpGe c vd va vb pm z w s
  | .vcmpUnord c vd va vb pm z w => Sys2Proof.Machine.execVcmpUnord c vd va vb pm z w s
  | .vpredAnd c vd va vb pm z w => Sys2Proof.Machine.execVpredAnd c vd va vb pm z w s
  | .vpredOr c vd va vb pm z w => Sys2Proof.Machine.execVpredOr c vd va vb pm z w s
  | .vpredXor c vd va vb pm z w => Sys2Proof.Machine.execVpredXor c vd va vb pm z w s
  | .vpredAndn c vd va vb pm z w => Sys2Proof.Machine.execVpredAndn c vd va vb pm z w s
  | .fromg c vd va vb pm z w => Sys2Proof.Machine.execFromg c vd va vb pm z w s
  | .tog c vd va vb pm z w => Sys2Proof.Machine.execTog c vd va vb pm z w s
  | .bcast c vd va vb pm z w => Sys2Proof.Machine.execBcast c vd va vb pm z w s
  | .vext c vd va vb pm z w => Sys2Proof.Machine.execVext c vd va vb pm z w s
  | .vins c vd va vb pm z w => Sys2Proof.Machine.execVins c vd va vb pm z w s
  | .rot c vd va vb pm z w => Sys2Proof.Machine.execRot c vd va vb pm z w s
  | .vcvtWiden c vd va nfmt part rm rsv w => Sys2Proof.Machine.execVcvtWiden c vd va nfmt part rm rsv w s
  | .vcvtNarrow c vd va nfmt part rm rsv w => Sys2Proof.Machine.execVcvtNarrow c vd va nfmt part rm rsv w s
  | .vld c vd ga pm imm => Sys2Proof.Machine.execVld c vd ga pm imm s
  | .vst c vs ga pm imm => Sys2Proof.Machine.execVst c vs ga pm imm s
  | .vtr c vd ga tt tr rsv => Sys2Proof.Machine.execVtr c vd ga tt tr rsv s
  | .vtw c vs ga tt tr rsv => Sys2Proof.Machine.execVtw c vs ga tt tr rsv s
  | .vredSum c vd va vb pm g ts w => Sys2Proof.Machine.execVredSum c vd va vb pm g ts w s
  | .vredMax c vd va vb pm g ts w => Sys2Proof.Machine.execVredMax c vd va vb pm g ts w s
  | .vredSumsq c vd va vb pm g ts w => Sys2Proof.Machine.execVredSumsq c vd va vb pm g ts w s
  | .vredDot c vd va vb pm g ts w => Sys2Proof.Machine.execVredDot c vd va vb pm g ts w s
  | .vfun c vd va slot d pm z w rsv => Sys2Proof.Machine.execVfun c vd va slot d pm z w rsv s
  | .vfload c slot r0 ga rsv => Sys2Proof.Machine.execVfload c slot r0 ga rsv s
  | .vfloadDone c => Sys2Proof.Machine.execVfloadDone c s
  | .vmxs c vd va vb byte w => Sys2Proof.Machine.execVmxs c vd va vb byte w s
  | .vcfg c vd ga rest => Sys2Proof.Machine.execVcfg c vd ga rest s
  | .vfact c td ga ta gb rsv => Sys2Proof.Machine.execVfact c td ga ta gb rsv s
  | .vsolve c vd va ga tf rsv => Sys2Proof.Machine.execVsolve c vd va ga tf rsv s
  | .groll c gd ga gb fn => Sys2Proof.Machine.execGroll c gd ga gb fn s
  | .grollSliceUpdate c n => Sys2Proof.Machine.execGrollSliceUpdate c n s
  | .grollComplete c => Sys2Proof.Machine.execGrollComplete c s
  | .gaugeWindowRead o k => Sys2Proof.Machine.execGaugeWindowRead o k s
  | .gaugeWindowWrite o k mask => Sys2Proof.Machine.execGaugeWindowWrite o k mask s
  | .srSeed o k v => Sys2Proof.Machine.execSrSeed o k v s
  | .seedApply c => Sys2Proof.Machine.execSeedApply c s
  | .grangeWrite o k v => Sys2Proof.Machine.execGrangeWrite o k v s
  | .rd p => Sys2Proof.Machine.execRd p s
  | .wr p => Sys2Proof.Machine.execWr p s
  | .atom p => Sys2Proof.Machine.execAtom p s
  | .merge p => Sys2Proof.Machine.execMerge p s
  | .spent p => Sys2Proof.Machine.execSpent p s
  | .rdData p => Sys2Proof.Machine.execRdData p s
  | .wrAck p => Sys2Proof.Machine.execWrAck p s
  | .nack p => Sys2Proof.Machine.execNack p s
  | .credit p => Sys2Proof.Machine.execCredit p s
  | .msg p => Sys2Proof.Machine.execMsg p s
  | .reservedOpPacket p => Sys2Proof.Machine.execReservedOpPacket p s
  | .sliceMissAdmit n => Sys2Proof.Machine.execSliceMissAdmit n s
  | .memoryReadDone ep line sev unc => Sys2Proof.Machine.execMemoryReadDone ep line sev unc s
  | .lcQueueAdmit n => Sys2Proof.Machine.execLcQueueAdmit n s
  | .writeBackDone n line => Sys2Proof.Machine.execWriteBackDone n line s
  | .pfRd p => Sys2Proof.Machine.execPfRd p s
  | .cmemCfgWrite o k v => Sys2Proof.Machine.execCmemCfgWrite o k v s
  | .requestLimit c txid => Sys2Proof.Machine.execRequestLimit c txid s
  | .lgRead o w => Sys2Proof.Machine.execLgRead o w s
  | .lgFind o w => Sys2Proof.Machine.execLgFind o w s
  | .lgMap o w => Sys2Proof.Machine.execLgMap o w s
  | .lgUnmap o w => Sys2Proof.Machine.execLgUnmap o w s
  | .lgSetf o w => Sys2Proof.Machine.execLgSetf o w s
  | .lgClrf o w => Sys2Proof.Machine.execLgClrf o w s
  | .lgMigrate o w => Sys2Proof.Machine.execLgMigrate o w s
  | .lgGive o w => Sys2Proof.Machine.execLgGive o w s
  | .shootdown w ep => Sys2Proof.Machine.execShootdown w ep s
  | .shootdownDone w => Sys2Proof.Machine.execShootdownDone w s
  | .migrateCopyStart w => Sys2Proof.Machine.execMigrateCopyStart w s
  | .migrateShareDone w ep => Sys2Proof.Machine.execMigrateShareDone w ep s
  | .sarm c gd ga gb => Sys2Proof.Machine.execSarm c gd ga gb s
  | .swait c gd ga gb => Sys2Proof.Machine.execSwait c gd ga gb s
  | .sfree c gd ga gb => Sys2Proof.Machine.execSfree c gd ga gb s
  | .sstop c gd ga gb => Sys2Proof.Machine.execSstop c gd ga gb s
  | .sstat c gd ga gb => Sys2Proof.Machine.execSstat c gd ga gb s
  | .flumeUnitArrival c n nf => Sys2Proof.Machine.execFlumeUnitArrival c n nf s
  | .deadlineCheck c n => Sys2Proof.Machine.execDeadlineCheck c n s
  | .cstart c gd ga gb => Sys2Proof.Machine.execCstart c gd ga gb s
  | .cstop c gd ga gb => Sys2Proof.Machine.execCstop c gd ga gb s
  | .cstat c gd ga gb => Sys2Proof.Machine.execCstat c gd ga gb s
  | .culvertDescFetch chip c n => Sys2Proof.Machine.execCulvertDescFetch chip c n s
  | .culvertElement chip c n nf => Sys2Proof.Machine.execCulvertElement chip c n nf s
  | .culvertDescComplete chip c n => Sys2Proof.Machine.execCulvertDescComplete chip c n s
  | .cvCountWrite o c n v => Sys2Proof.Machine.execCvCountWrite o c n v s
  | .ksig c gd ga gb => Sys2Proof.Machine.execKsig c gd ga gb s
  | .kwait c gd ga gb => Sys2Proof.Machine.execKwait c gd ga gb s
  | .kpeek c gd ga gb => Sys2Proof.Machine.execKpeek c gd ga gb s
  | .kset c gd ga gb => Sys2Proof.Machine.execKset c gd ga gb s
  | .harr c gd ga gb => Sys2Proof.Machine.execHarr c gd ga gb s
  | .hwait c gd ga gb => Sys2Proof.Machine.execHwait c gd ga gb s
  | .hpeek c gd ga gb => Sys2Proof.Machine.execHpeek c gd ga gb s
  | .knot p => Sys2Proof.Machine.execKnot p s
  | .knotRsp p => Sys2Proof.Machine.execKnotRsp p s
  | .withdraw p => Sys2Proof.Machine.execWithdraw p s
  | .hitch p => Sys2Proof.Machine.execHitch p s
  | .hitchDone p => Sys2Proof.Machine.execHitchDone p s
  | .knotWordWrite o key v => Sys2Proof.Machine.execKnotWordWrite o key v s
  | .htCfgWrite o h v => Sys2Proof.Machine.execHtCfgWrite o h v s
  | .hitchMaskWrite o mask w v => Sys2Proof.Machine.execHitchMaskWrite o mask w v s
  | .ptRangeWrite o k v => Sys2Proof.Machine.execPtRangeWrite o k v s
  | .ptReset o k => Sys2Proof.Machine.execPtReset o k s
  | .ptResetDrainDone k => Sys2Proof.Machine.execPtResetDrainDone k s
  | .rtBusyWindow busy => Sys2Proof.Machine.execRtBusyWindow busy s
  | .registerWrite o a v => Sys2Proof.Machine.execRegisterWrite o a v s
  | .registerReadClear o a => Sys2Proof.Machine.execRegisterReadClear o a s
  | .bgWindowEnd k => Sys2Proof.Machine.execBgWindowEnd k s
  | .seqNext n => Sys2Proof.Machine.execSeqNext n s
  | .seqPut n => Sys2Proof.Machine.execSeqPut n s
  | .seqDrop n => Sys2Proof.Machine.execSeqDrop n s
  | .seqEnd n => Sys2Proof.Machine.execSeqEnd n s
  | .sluiceProgramOp n => Sys2Proof.Machine.execSluiceProgramOp n s
  | .ruleAdd n => Sys2Proof.Machine.execRuleAdd n s
  | .ruleMul n => Sys2Proof.Machine.execRuleMul n s
  | .ruleFma n => Sys2Proof.Machine.execRuleFma n s
  | .ruleDiv n => Sys2Proof.Machine.execRuleDiv n s
  | .ruleSqrt n => Sys2Proof.Machine.execRuleSqrt n s
  | .ruleRsqrt n => Sys2Proof.Machine.execRuleRsqrt n s
  | .ruleMax n => Sys2Proof.Machine.execRuleMax n s
  | .ruleMin n => Sys2Proof.Machine.execRuleMin n s
  | .ruleSign n => Sys2Proof.Machine.execRuleSign n s
  | .ruleClip n => Sys2Proof.Machine.execRuleClip n s
  | .ruleLerp n => Sys2Proof.Machine.execRuleLerp n s
  | .ruleScale n => Sys2Proof.Machine.execRuleScale n s
  | .ruleGroup n => Sys2Proof.Machine.execRuleGroup n s
  | .sluDoorbell o n v => Sys2Proof.Machine.execSluDoorbell o n v s
  | .sluBcast o n v => Sys2Proof.Machine.execSluBcast o n v s
  | .sluJobLoad n => Sys2Proof.Machine.execSluJobLoad n s
  | .sluJobStart n => Sys2Proof.Machine.execSluJobStart n s
  | .sluJobDone n => Sys2Proof.Machine.execSluJobDone n s
  | .sluAbort o n => Sys2Proof.Machine.execSluAbort o n s
  | .sluErrClear o n => Sys2Proof.Machine.execSluErrClear o n s
  | .capDoorbell o v => Sys2Proof.Machine.execCapDoorbell o v s
  | .collectiveStart g => Sys2Proof.Machine.execCollectiveStart g s
  | .cdata k f => Sys2Proof.Machine.execCdata k f s
  | .sweep k f => Sys2Proof.Machine.execSweep k f s
  | .gfail k f => Sys2Proof.Machine.execGfail k f s
  | .xhitch k f => Sys2Proof.Machine.execXhitch k f s
  | .ddata k f => Sys2Proof.Machine.execDdata k f s
  | .ddone k f => Sys2Proof.Machine.execDdone k f s
  | .hello k f => Sys2Proof.Machine.execHello k f s
  | .linkAck k f => Sys2Proof.Machine.execLinkAck k f s
  | .linkNack k f => Sys2Proof.Machine.execLinkNack k f s
  | .capstanTimeout g => Sys2Proof.Machine.execCapstanTimeout g s
  | .capDimWrite o d v => Sys2Proof.Machine.execCapDimWrite o d v s
  | .capGrpWrite o g v => Sys2Proof.Machine.execCapGrpWrite o g v s
  | .hcHeadWrite o k n v => Sys2Proof.Machine.execHcHeadWrite o k n v s
  | .retransmitTimeout k => Sys2Proof.Machine.execRetransmitTimeout k s
  | .laneSignalLoss k => Sys2Proof.Machine.execLaneSignalLoss k s
  | .portTrained k rx => Sys2Proof.Machine.execPortTrained k rx s
  | .hwTrain o k => Sys2Proof.Machine.execHwTrain o k s
  | .hwDown o k => Sys2Proof.Machine.execHwDown o k s
  | .laneEnWrite o k lanes => Sys2Proof.Machine.execLaneEnWrite o k lanes s
  | .spillwayClose o d => Sys2Proof.Machine.execSpillwayClose o d s
  | .spillwayOpen o d => Sys2Proof.Machine.execSpillwayOpen o d s
  | .spillwayMoveDone d => Sys2Proof.Machine.execSpillwayMoveDone d s
  | .bypassForceNLow high => Sys2Proof.Machine.execBypassForceNLow high s
  | .ttTrain o => Sys2Proof.Machine.execTtTrain o s
  | .ttDown o => Sys2Proof.Machine.execTtDown o s
  | .ttWreset o => Sys2Proof.Machine.execTtWreset o s
  | .sublinkLocked k => Sys2Proof.Machine.execSublinkLocked k s
  | .sublinkTrainTimeout k => Sys2Proof.Machine.execSublinkTrainTimeout k s
  | .idleFlit k x => Sys2Proof.Machine.execIdleFlit k x s
  | .msgFlit k x => Sys2Proof.Machine.execMsgFlit k x s
  | .nak k x => Sys2Proof.Machine.execNak k x s
  | .steer k x => Sys2Proof.Machine.execSteer k x s
  | .rdShared k m => Sys2Proof.Machine.execRdShared k m s
  | .rdOwn k m => Sys2Proof.Machine.execRdOwn k m s
  | .rdCur k m => Sys2Proof.Machine.execRdCur k m s
  | .upgrade k m => Sys2Proof.Machine.execUpgrade k m s
  | .evict k m => Sys2Proof.Machine.execEvict k m s
  | .wrLine k m => Sys2Proof.Machine.execWrLine k m s
  | .wrPart k m => Sys2Proof.Machine.execWrPart k m s
  | .wrBack k m => Sys2Proof.Machine.execWrBack k m s
  | .snpData k m => Sys2Proof.Machine.execSnpData k m s
  | .snpInv k m => Sys2Proof.Machine.execSnpInv k m s
  | .ttWrAck k m => Sys2Proof.Machine.execTtWrAck k m s
  | .grant k m => Sys2Proof.Machine.execGrant k m s
  | .snpAck k m => Sys2Proof.Machine.execSnpAck k m s
  | .evictAck k m => Sys2Proof.Machine.execEvictAck k m s
  | .ttErr k m => Sys2Proof.Machine.execTtErr k m s
  | .ttRdData k m => Sys2Proof.Machine.execTtRdData k m s
  | .snpDataRsp k m => Sys2Proof.Machine.execSnpDataRsp k m s
  | .regRd k m => Sys2Proof.Machine.execRegRd k m s
  | .regWr k m => Sys2Proof.Machine.execRegWr k m s
  | .regRsp k m => Sys2Proof.Machine.execRegRsp k m s
  | .msi k m => Sys2Proof.Machine.execMsi k m s
  | .ttReqTimeout k txid => Sys2Proof.Machine.execTtReqTimeout k txid s
  | .ttSnoopTimeout k txid => Sys2Proof.Machine.execTtSnoopTimeout k txid s
  | .ttMsiWrite o k v => Sys2Proof.Machine.execTtMsiWrite o k v s
  | .ttCwWrite o size w v => Sys2Proof.Machine.execTtCwWrite o size w v s
  | .mbInDoor h => Sys2Proof.Machine.execMbInDoor h s
  | .mbOutDoor h => Sys2Proof.Machine.execMbOutDoor h s
  | .logCommit o k v => Sys2Proof.Machine.execLogCommit o k v s
  | .logMirrorCompanion k => Sys2Proof.Machine.execLogMirrorCompanion k s
  | .logMirrorFlash k fail => Sys2Proof.Machine.execLogMirrorFlash k fail s
  | .snTake o k => Sys2Proof.Machine.execSnTake o k s
  | .snCommit o k => Sys2Proof.Machine.execSnCommit o k s
  | .snDrop o k => Sys2Proof.Machine.execSnDrop o k s
  | .snRollbackOld o k => Sys2Proof.Machine.execSnRollbackOld o k s
  | .snRollbackNew o k => Sys2Proof.Machine.execSnRollbackNew o k s
  | .snapshotSweepEnd k => Sys2Proof.Machine.execSnapshotSweepEnd k s
  | .snapshotCopyStart k fr => Sys2Proof.Machine.execSnapshotCopyStart k fr s
  | .snapshotCopyDone k fr => Sys2Proof.Machine.execSnapshotCopyDone k fr s
  | .snapshotMigrate k fr => Sys2Proof.Machine.execSnapshotMigrate k fr s
  | .rollbackDone k => Sys2Proof.Machine.execRollbackDone k s
  | .snCtlWrite o k v => Sys2Proof.Machine.execSnCtlWrite o k v s
  | .dredgeScrub u cyc sev unc => Sys2Proof.Machine.execDredgeScrub u cyc sev unc s
  | .dredgeCorrection u line => Sys2Proof.Machine.execDredgeCorrection u line s
  | .recalStart u cyc => Sys2Proof.Machine.execRecalStart u cyc s
  | .recalEnd u => Sys2Proof.Machine.execRecalEnd u s
  | .tbtRegionStart u => Sys2Proof.Machine.execTbtRegionStart u s
  | .tbtRegionEnd u faults => Sys2Proof.Machine.execTbtRegionEnd u faults s
  | .bankRetire o st k v => Sys2Proof.Machine.execBankRetire o st k v s
  | .ckVerify o arg => Sys2Proof.Machine.execCkVerify o arg s
  | .ckCommitSvn o arg => Sys2Proof.Machine.execCkCommitSvn o arg s
  | .ckInstall o arg => Sys2Proof.Machine.execCkInstall o arg s
  | .ckAttest o arg => Sys2Proof.Machine.execCkAttest o arg s
  | .ckMemkey o arg => Sys2Proof.Machine.execCkMemkey o arg s
  | .ckTransition o arg => Sys2Proof.Machine.execCkTransition o arg s
  | .ckUnlock o arg => Sys2Proof.Machine.execCkUnlock o arg s
  | .ckAkcert o arg => Sys2Proof.Machine.execCkAkcert o arg s
  | .ckExtend o arg => Sys2Proof.Machine.execCkExtend o arg s
  | .ckCmdDone => Sys2Proof.Machine.execCkCmdDone s
  | .tamper cause => Sys2Proof.Machine.execTamper cause s
  | .vaultWipeDone => Sys2Proof.Machine.execVaultWipeDone s
  | .licenceExpiry => Sys2Proof.Machine.execLicenceExpiry s
  | .seqMarkWrite k dir n => Sys2Proof.Machine.execSeqMarkWrite k dir n s
  | .seqMarkWritten k dir n => Sys2Proof.Machine.execSeqMarkWritten k dir n s
  | .vin64Good => Sys2Proof.Machine.execVin64Good s
  | .vin64Undervoltage => Sys2Proof.Machine.execVin64Undervoltage s
  | .vin64Overvoltage => Sys2Proof.Machine.execVin64Overvoltage s
  | .aux3v3Good => Sys2Proof.Machine.execAux3v3Good s
  | .aux3v3Loss => Sys2Proof.Machine.execAux3v3Loss s
  | .inputCharged => Sys2Proof.Machine.execInputCharged s
  | .thermTrip => Sys2Proof.Machine.execThermTrip s
  | .calTick => Sys2Proof.Machine.execCalTick s
  | .oscStop => Sys2Proof.Machine.execOscStop s
  | .vbatLow => Sys2Proof.Machine.execVbatLow s
  | .throttleSample h tj mw ma => Sys2Proof.Machine.execThrottleSample h tj mw ma s
  | .telemUpdate rails tjw tje tmod => Sys2Proof.Machine.execTelemUpdate rails tjw tje tmod s
  | .thrCtlWrite o v => Sys2Proof.Machine.execThrCtlWrite o v s
  | .calLoad o => Sys2Proof.Machine.execCalLoad o s
  | .pmPage pec w => Sys2Proof.Machine.execPmPage pec w s
  | .pmClearFaults pec => Sys2Proof.Machine.execPmClearFaults pec s
  | .pmCapability pec => Sys2Proof.Machine.execPmCapability pec s
  | .pmVoutMode pec => Sys2Proof.Machine.execPmVoutMode pec s
  | .pmStatusWord pec => Sys2Proof.Machine.execPmStatusWord pec s
  | .pmStatusTemperature pec => Sys2Proof.Machine.execPmStatusTemperature pec s
  | .pmReadVin pec => Sys2Proof.Machine.execPmReadVin pec s
  | .pmReadIin pec => Sys2Proof.Machine.execPmReadIin pec s
  | .pmReadVout pec => Sys2Proof.Machine.execPmReadVout pec s
  | .pmReadIout pec => Sys2Proof.Machine.execPmReadIout pec s
  | .pmReadPout pec => Sys2Proof.Machine.execPmReadPout pec s
  | .pmReadPin pec => Sys2Proof.Machine.execPmReadPin pec s
  | .pmReadTemperature1 pec => Sys2Proof.Machine.execPmReadTemperature1 pec s
  | .pmReadTemperature2 pec => Sys2Proof.Machine.execPmReadTemperature2 pec s
  | .pmReadTemperature3 pec => Sys2Proof.Machine.execPmReadTemperature3 pec s
  | .pmRevision pec => Sys2Proof.Machine.execPmRevision pec s
  | .pmMfrId pec => Sys2Proof.Machine.execPmMfrId pec s
  | .pmMfrModel pec => Sys2Proof.Machine.execPmMfrModel pec s
  | .pmMfrPowerCap pec w => Sys2Proof.Machine.execPmMfrPowerCap pec w s
  | .pmAlertResponse => Sys2Proof.Machine.execPmAlertResponse s
  | .jtagBypass => Sys2Proof.Machine.execJtagBypass s
  | .jtagIdcode => Sys2Proof.Machine.execJtagIdcode s
  | .jtagSamplePreload w => Sys2Proof.Machine.execJtagSamplePreload w s
  | .jtagExtest => Sys2Proof.Machine.execJtagExtest s
  | .jtagExtestPulse => Sys2Proof.Machine.execJtagExtestPulse s
  | .jtagDebug => Sys2Proof.Machine.execJtagDebug s
  | .jtagTrstN => Sys2Proof.Machine.execJtagTrstN s
  | .modResetNLow => Sys2Proof.Machine.execModResetNLow s
  | .modResetNHigh => Sys2Proof.Machine.execModResetNHigh s
  | .coldReset o h => Sys2Proof.Machine.execColdReset o h s
  | .warmReset o h => Sys2Proof.Machine.execWarmReset o h s
  | .bringupStepDone n ok faults => Sys2Proof.Machine.execBringupStepDone n ok faults s
  | .bringupStepTimeout n => Sys2Proof.Machine.execBringupStepTimeout n s
  | .leaseRenewal h => Sys2Proof.Machine.execLeaseRenewal h s
  | .leaseTimeout h => Sys2Proof.Machine.execLeaseTimeout h s
  | .leaseClaim h => Sys2Proof.Machine.execLeaseClaim h s
  | .leaseRelease o h => Sys2Proof.Machine.execLeaseRelease o h s
  | .sidebandDown => Sys2Proof.Machine.execSidebandDown s
  | .sidebandUp => Sys2Proof.Machine.execSidebandUp s
  | .mbStatus h => Sys2Proof.Machine.execMbStatus h s
  | .mbName h => Sys2Proof.Machine.execMbName h s
  | .mbFwStage h => Sys2Proof.Machine.execMbFwStage h s
  | .mbFwActivate h ok => Sys2Proof.Machine.execMbFwActivate h ok s
  | .mbFwplace h => Sys2Proof.Machine.execMbFwplace h s
  | .mbCoreSwap h => Sys2Proof.Machine.execMbCoreSwap h s
  | .mbRing h => Sys2Proof.Machine.execMbRing h s
  | .mbEvent h => Sys2Proof.Machine.execMbEvent h s
  | .fwChunk c p => Sys2Proof.Machine.execFwChunk c p s
  | .fwLoadReport c => Sys2Proof.Machine.execFwLoadReport c s
  | .fwReportTimeout c => Sys2Proof.Machine.execFwReportTimeout c s
  | .coreReset o h c => Sys2Proof.Machine.execCoreReset o h c s
  | .coreDisable o h c => Sys2Proof.Machine.execCoreDisable o h c s
  | .spareEnable o h c => Sys2Proof.Machine.execSpareEnable o h c s
  | .hgSwapDone h ok => Sys2Proof.Machine.execHgSwapDone h ok s
  | .sluiceUpdateDone n => Sys2Proof.Machine.execSluiceUpdateDone n s
  | .flashRefresh b fail => Sys2Proof.Machine.execFlashRefresh b fail s

end Sys2Proof.Machine
end

