-- ==== Sys2Proof/Machine/Step.lean ====
section
/-! DEFINITION. One step of the part: the command at the front of the queue, or one cycle when none waits. -/

namespace Sys2Proof.Machine

/-- One step: the front command runs on the state with the rest of the queue; an empty queue is a cycle (log 2). -/
def step (s : State) : Host.Outcome State Fault Refusal :=
  match s.pending with
  | c :: rest => exec c { s with pending := rest }
  | [] => .next (tick s)

/-- The state with the command that a table word spells put at the front of the queue (log 52). -/
def State.withFetchWord (s : State) (nbits w : Nat) : State := placeWord s (decodeTableWord nbits w)

end Sys2Proof.Machine
end

