-- ==== Sys2Proof/Safety.lean ====
section
/-! DEFINITION. What counts as a safe run, and the words in which statements about commands are made: when a core can issue, what a
scalar instruction leaves, what an exception leaves. -/

namespace Sys2Proof

open Machine

/-- The command answers a next state, of which `P` holds. -/
def Gives (i : Instr) (s : State) (P : State → Prop) : Prop := ∃ t, exec i s = .next t ∧ P t

/-- Every one of the next `k` steps goes on. -/
def SafeFor : Nat → State → Prop
  | 0, _ => True
  | k + 1, s => ∃ t, step s = .next t ∧ SafeFor k t

/-- A run never stops. -/
def Safe (s : State) : Prop := ∀ k, SafeFor k s

/-- Core `c` can issue its next instruction, with the g registers `rs` not awaited from an engine: no CORE_MODE change waits for
the boundary (R66), the core is enabled and running with no switch and no engine-state move in progress (R68, R70), its
running context waits for nothing (R45), and the fetch at the PC has no fault (R43, R76). -/
structure Ready (s : State) (c : Nat) (rs : List Nat) : Prop where
  core : c < 1024
  mode : (s.core c).modePend = none
  may : mayIssue s c fresh0 = true
  regs : regBusy s c rs = false
  fetch : fetchFault s c = none

/-- The running context owns the engine state (R70). -/
def Owner (s : State) (c : Nat) : Prop := (s.core c).run = (s.core c).owner

/-- Core `c` can issue its next instruction, of 64 bits: it stands at a multiple of 8 and its second word has no fault either
(R48, R76). -/
structure Ready8 (s : State) (c : Nat) (rs : List Nat) : Prop where
  ready : Ready s c rs
  aligned : (s.cur c).pc.toNat % 8 = 0
  second : fetchSecond s c = none

/-- `a` is a register of the error log, an interrupt-pending register, a Headgate event register, a walk counter, or a counter of
the home slices that hold the Ledger's lines: what fetching, translating and logging an error write. -/
def LogReg (a : Nat) : Prop :=
  (0x20000 ≤ a ∧ a < 0x23000) ∨ (∃ c, a = rIPEND c) ∨ (∃ h, h < 2 ∧ a = rHG_EVENT h) ∨
    (∃ p, p < 8 ∧ (a = rLG_WALKS p ∨ a = rLG_XFAULT p)) ∨
    (∃ n, n < 256 ∧ (a = rSL_HIT n ∨ a = rSL_MISS n ∨ a = rSL_EVICT n)) ∨
    (∃ n, n < 16 ∧ (a = rSC_DRG_CNT n ∨ a = rLC_DRG_CNT n))

/-- What a table walk leaves of the state (R252, R254): all but registers, Headgate events, the cores, and, where a Ledger line came
into its home slice, the slices, the flip masks of the line that made room, and what a companion line that did so sends. -/
def Walked (s t : State) : Prop :=
  t = { s with
    regs := t.regs, hgs := t.hgs, cores := t.cores, slices := t.slices, flips := t.flips, cwReqs := t.cwReqs, tt := t.tt }

/-- From `s` to `t` one instruction of core `c` has done nothing outside its context's bank: the other cores, all else of the
core but its caches of translations and instructions, every register but the log's and INSTRET, memory, the network and the
queue are as before; a table walk of the fetch may have brought Ledger lines into their slices. -/
structure Kept (s t : State) (c : Nat) : Prop where
  run : (t.core c).run = (s.core c).run
  other : ∀ i, i ≠ (s.core c).run → (t.core c).ctx i = (s.core c).ctx i
  own : t.core c = { s.core c with tc := (t.core c).tc, icache := (t.core c).icache, ctxs := (t.core c).ctxs }
  cores : ∀ d, d ≠ c → t.core d = s.core d
  regs : ∀ a, ¬ LogReg a → a ≠ rINSTRET c → t.reg a = s.reg a
  rest : Walked s t

/-- The running context of core `c` executed an instruction: `gd` holds `v` unless it is g0, the PC is `pc`, INSTRET counted one,
every other g register and every special register of the bank is as before, and nothing else changed. -/
structure Ran (s t : State) (c gd : Nat) (v pc : Word) : Prop where
  value : t.g c gd = if gd = 0 then 0 else v
  pcIs : (t.cur c).pc = pc
  keep : ∀ r, r ≠ gd → t.g c r = s.g c r
  bank : t.cur c = { s.cur c with g := (t.cur c).g, pc := pc, wait := .none }
  instret : t.reg (rINSTRET c) = s.reg (rINSTRET c) + 1
  kept : Kept s t c

/-- The instruction answers a next state in which it wrote `v` to `gd` and the PC moved past it. -/
def Writes (i : Instr) (s : State) (c gd : Nat) (v : Word) : Prop := Gives i s fun t => Ran s t c gd v ((s.cur c).pc + 4)

/-- The instruction answers a next state in which control moved to `pc` and nothing else changed. -/
def Goes (i : Instr) (s : State) (c : Nat) (pc : Word) : Prop := Gives i s fun t => Ran s t c 0 0 pc

/-- Bit `i` of MSTATUS of a bank (R82): 0 PRIV, 1 PPRIV, 2 IE, 3 PIE, 4 INEXC. -/
def statusBit (x : Ctx) (i : Nat) : Bool := x.mstatus.getLsbD i

/-- From `s` to `t` the running context of core `c` entered its handler (R77): the PC, cause and value are saved, the privilege
and the interrupt enable are saved and become M and off, INEXC is 1, the PC is MTVEC, no g register changes. -/
structure Entered (s t : State) (c : Nat) (cause value : Word) : Prop where
  epc : (t.cur c).epc = (s.cur c).pc
  ecause : (t.cur c).ecause = cause
  eval : (t.cur c).eval = value
  priv : statusBit (t.cur c) 0 = true
  ppriv : statusBit (t.cur c) 1 = statusBit (s.cur c) 0
  ie : statusBit (t.cur c) 2 = false
  pie : statusBit (t.cur c) 3 = statusBit (s.cur c) 2
  inexc : statusBit (t.cur c) 4 = true
  pc : (t.cur c).pc = s.reg (rMTVEC c)
  g : ∀ r, t.g c r = s.g c r
  scratch : (t.cur c).escratch = (s.cur c).escratch
  instret : t.reg (rINSTRET c) = s.reg (rINSTRET c)
  kept : Kept s t c

/-- The instruction takes the exception `e` with value `v` in a context whose INEXC is 0. -/
def Traps (i : Instr) (s : State) (c : Nat) (e : Exc) (v : Word) : Prop :=
  statusBit (s.cur c) 4 = false → Gives i s fun t => Entered s t c (BitVec.ofNat 64 e.code) v

/-- An access of `n` bytes at `va` that lies in the core's own scratchpad, aligned, in no region under test (R230, R231, R461). -/
structure OwnSpad (s : State) (c va n : Nat) : Prop where
  aligned : va % n = 0
  low : spadBase s (s.part c) ≤ va
  high : va + n ≤ spadBase s (s.part c) + spadSize s (s.part c)
  space : va + n ≤ 0xF00000000000
  free : spadTested s c (va - spadBase s (s.part c)) n = false

/-- From `s` to `t` the `n` low bytes of `v` were stored at scratchpad offset `off` of core `c` and the PC moved past the
instruction: every other byte of the scratchpad, every g register, all of memory and every other core are as before. -/
structure SpadStored (s t : State) (c off n : Nat) (v : Word) : Prop where
  stored : ∀ i, i < n → spadByte t c (off + i) = v.extractLsb' (8 * i) 8
  kept : ∀ o, o < off ∨ off + n ≤ o → spadByte t c o = spadByte s c o
  pc : (t.cur c).pc = (s.cur c).pc + 4
  g : ∀ r, t.g c r = s.g c r
  mem : t.mem = s.mem
  cores : ∀ d, d ≠ c → t.core d = s.core d

/-- No g register but `gd` of core `c` and no byte of memory differs between `s` and `t`. -/
structure OnlyG (s t : State) (c gd : Nat) : Prop where
  g : ∀ d i r, (d = c → r ≠ gd) → ((t.core d).ctx i).gr r = ((s.core d).ctx i).gr r
  mem : ∀ a, t.byte a = s.byte a

/-- The instructions that name at most g registers and the PC (R52-R55, R59), over their operands. -/
def registerForms (c gd ga gb imm : Nat) : List Instr :=
  [.add c gd ga gb, .sub c gd ga gb, .and c gd ga gb, .or c gd ga gb, .xor c gd ga gb, .sll c gd ga gb, .srl c gd ga gb,
    .sra c gd ga gb, .slt c gd ga gb, .sltu c gd ga gb, .min c gd ga gb, .max c gd ga gb, .minu c gd ga gb, .maxu c gd ga gb,
    .clz c gd ga gb, .ctz c gd ga gb, .popc c gd ga gb, .andn c gd ga gb] ++
  [.addi c gd ga imm, .andi c gd ga imm, .ori c gd ga imm, .xori c gd ga imm, .slti c gd ga imm, .sltiu c gd ga imm,
    .shi c gd ga imm, .lih c gd imm, .liw c gd 0 imm, .mul c gd ga gb, .mulh c gd ga gb, .mulhu c gd ga gb, .div c gd ga gb,
    .divu c gd ga gb, .rem c gd ga gb, .remu c gd ga gb, .jal c gd imm, .jalr c gd ga imm]

/-- The conditional branches (R59). -/
def branchForms (c ga gb off : Nat) : List Instr :=
  [.beq c ga gb off, .bne c ga gb off, .blt c ga gb off, .bge c ga gb off, .bltu c ga gb off, .bgeu c ga gb off]

/-- The address of a scalar load or store: GA + sext(IMM15) (R56). -/
def dataAddr (s : State) (c ga imm : Nat) : Nat := (s.g c ga + (BitVec.ofNat 15 imm).signExtend 64).toNat

/-- The number that the `n` bytes of a core's own scratchpad at virtual address `va` spell, as a reader receives them. -/
def spadNat (s : State) (c va n : Nat) : Nat := leNat (spadBytes s c (va - spadBase s (s.part c)) n)

/-- The `n` bytes at `va` lie in the core's own scratchpad and none of them in an uncorrectable word. -/
def SpadReads (s : State) (c va n : Nat) : Prop := OwnSpad s c va n ∧ spadBad s c (va - spadBase s (s.part c)) n = none

/-- Scalar loads and stores with their sizes (R56). -/
def loadForms (c gd ga imm : Nat) : List (Nat × Instr) :=
  [(1, .lb c gd ga imm), (1, .lbu c gd ga imm), (2, .lh c gd ga imm), (2, .lhu c gd ga imm), (4, .lw c gd ga imm), (4, .lwu c gd ga imm),
    (8, .ld c gd ga imm)]

def storeForms (c gs ga imm : Nat) : List (Nat × Instr) :=
  [(1, .sb c gs ga imm), (2, .sh c gs ga imm), (4, .sw c gs ga imm), (8, .sd c gs ga imm)]

/-- Atomics with their operation codes (R58). -/
def atomForms (c : Nat) (wide : Bool) (rsv gd ga gb : Nat) : List (Nat × Instr) :=
  [(0, .atomicSwap c wide rsv gd ga gb), (1, .atomicAdd c wide rsv gd ga gb), (2, .atomicAnd c wide rsv gd ga gb),
    (3, .atomicOr c wide rsv gd ga gb), (4, .atomicXor c wide rsv gd ga gb), (5, .atomicMax c wide rsv gd ga gb),
    (6, .atomicMin c wide rsv gd ga gb), (7, .atomicMaxu c wide rsv gd ga gb), (8, .atomicMinu c wide rsv gd ga gb),
    (9, .atomicCas c wide rsv gd ga gb)]

/-- System instructions that need privilege M, those that read GA and those that read no register, with their FN (R61). -/
def privForms (c gd ga gb : Nat) : List (Nat × Instr) :=
  [(2, .mret c gd ga gb), (6, .tswitch c gd ga gb), (7, .ctxsave c gd ga gb), (8, .ctxload c gd ga gb)]

def bareForms (c gd ga gb : Nat) : List (Nat × Instr) :=
  [(0, .ecall c gd ga gb), (1, .brk c gd ga gb), (2, .mret c gd ga gb), (3, .wfi c gd ga gb), (4, .fence c gd ga gb),
    (5, .fenceI c gd ga gb)]

/-- An atomic request on its way: sent, or waiting for a credit at its home slice (R58, R260). -/
def AtomSent (s t : State) (c pa va gd gb op : Nat) (wide : Bool) : Prop :=
  ∃ p x, (p ∈ t.net ∨ p ∈ (t.core c).outq) ∧ p.op = opATOM ∧ p.addr = pa ∧ p.sub = 2 * op + (if wide then 1 else 0) ∧
    p.txid = x ∧ p.src = c ∧ p.dst = homeEp s (pa / 128 * 128) ∧ p.payload.extractLsb' 0 64 = s.g c gb ∧
    p.payload.extractLsb' 64 64 = s.g c gd ∧ (t.cur c).wait = .mem [(x, va / 128)] [] none (.atomic gd va wide) ∧
    (t.cur c).pc = (s.cur c).pc ∧ t.mem = s.mem ∧ ∀ r, t.g c r = s.g c r

/-- A stretch of `n` bytes at `base` that lies in the core's own scratchpad, readable, in no region under test (R230, R461). -/
structure SpadArea (s : State) (c base n : Nat) : Prop where
  low : spadBase s (s.part c) ≤ base
  high : base + n ≤ spadBase s (s.part c) + spadSize s (s.part c)
  space : base + n ≤ 0xF00000000000
  free : spadTested s c (base - spadBase s (s.part c)) n = false
  good : spadBad s c (base - spadBase s (s.part c)) n = none

/-- From `s` to `t` the running context of core `c` returned from its handler (R61 MRET). -/
structure Returned (s t : State) (c : Nat) : Prop where
  pc : (t.cur c).pc = (s.cur c).epc &&& ~~~3#64
  priv : statusBit (t.cur c) 0 = statusBit (s.cur c) 1
  ie : statusBit (t.cur c) 2 = statusBit (s.cur c) 3
  inexc : statusBit (t.cur c) 4 = false
  stay : statusBit (t.cur c) 1 = statusBit (s.cur c) 1 ∧ statusBit (t.cur c) 3 = statusBit (s.cur c) 3
  g : ∀ r, t.g c r = s.g c r
  saved : (t.cur c).epc = (s.cur c).epc ∧ (t.cur c).ecause = (s.cur c).ecause ∧ (t.cur c).eval = (s.cur c).eval
  kept : Kept s t c

/-- The origin may write the register at offset `off` of core `c`'s block (R11, R84, R366, R491). -/
def MayWrite (s : State) (o : Origin) (c off : Nat) : Prop := mayReg s o true (rCORE_ID c + off) = true

/-- Core `c` can issue an engine instruction of the engine state's owner, with no engine error to take (R70, R75). -/
structure EngReady (s : State) (c : Nat) (rs : List Nat) : Prop where
  ready : Ready s c rs
  owner : Owner s c
  noErr : (s.core c).errPend = none

/-- Tile `t` is configured, no barrier and no pending TREL holds its instructions, and no issued instruction uses it (R90, R94). -/
structure TileOpen (s : State) (c t : Nat) : Prop where
  lt : t < 8
  conf : (s.core c).conf t = true
  held : tileHeld (s.core c) [t] = false
  idle : tileBusy (s.core c) t = false

/-- The running context retired an instruction of 4 bytes that changed no g register and no memory. -/
structure Passed (s t : State) (c : Nat) : Prop where
  pc : (t.cur c).pc = (s.cur c).pc + 4
  g : ∀ r, t.g c r = s.g c r
  mem : t.mem = s.mem
  cores : ∀ d, d ≠ c → t.core d = s.core d

/-- The value of a TILE_SHAPE exception that names tile `t` alone (R100): its nibble lowest, F in the others. -/
def shapeOne (t : Nat) : Word := BitVec.ofNat 64 (2 ^ 64 - 16 + t)

/-- The running context retired a vector instruction that changed no g register and no memory; VEC_DONE counts it (R194). -/
structure VecRan (s t : State) (c : Nat) : Prop where
  passed : Passed s t c
  done : t.reg (rVEC_DONE c) = s.reg (rVEC_DONE c) + 1

/-- Of the engine state of core `c` only vector register `vd` and its VNF bit differ. -/
structure OnlyV (s t : State) (c vd : Nat) : Prop where
  eng : (t.core c).eng = { (s.core c).eng with v := (t.core c).eng.v, vnf := (t.core c).eng.vnf }
  others : ∀ v, v ≠ vd → (t.core c).eng.vr v = (s.core c).eng.vr v ∧ (t.core c).eng.nfOf v = (s.core c).eng.nfOf v

/-- The instruction writes every element `j` of `vd` at width `w` with `f j`, sets VNF[vd] exactly when `nf`, and does nothing
else. -/
def VecWrites (i : Instr) (s : State) (c w vd : Nat) (f : Nat → Nat) (nf : Prop) : Prop :=
  Gives i s fun t => VecRan s t c ∧ OnlyV s t c vd ∧ (∀ j, j < vEls w → vEl w ((t.core c).eng.vr vd) j = f j % 2 ^ vBits w) ∧
    ((t.core c).eng.nfOf vd = true ↔ nf)

/-- The instruction writes the elements of `vd` that predicate `pm` makes active with `f`, and leaves the others, or writes 0 to
them when `z` is 1 (R170). -/
def VecMerges (i : Instr) (s : State) (c w pm z vd : Nat) (f : Nat → Nat) (nf : Prop) : Prop :=
  VecWrites i s c w vd
    (fun j => if active w ((s.core c).eng.pr pm) j = true then f j else if z = 1 then 0 else vEl w ((s.core c).eng.vr vd) j) nf

/-- The rule of R171 for floating-point elements: an element written is non-finite, or a source's VNF is set, or the merge leaves
elements of a register whose VNF was set. -/
def NfRule (s : State) (c w pm z vd : Nat) (srcs : List Nat) (f : Nat → Nat) : Prop :=
  let e := (s.core c).eng
  (∃ j, j < vEls w ∧ active w (e.pr pm) j = true ∧ fNonFin w (f j) = true) ∨ (∃ r ∈ srcs, e.nfOf r = true) ∨
    (z = 0 ∧ pm ≠ 0 ∧ e.nfOf vd = true)

/-- An elementwise floating-point instruction: its elements and its VNF. -/
def VecFloat (i : Instr) (s : State) (c w pm z vd : Nat) (srcs : List Nat) (f : Nat → Nat) : Prop :=
  VecMerges i s c w pm z vd f (NfRule s c w pm z vd srcs f)

/-- The instruction writes predicate `pd` with the bits `f`, unless it is p0, and does nothing else. -/
def PredWrites (i : Instr) (s : State) (c pd : Nat) (f : Nat → Bool) : Prop :=
  Gives i s fun t => VecRan s t c ∧
    (∀ j, j < 64 → pd ≠ 0 → ((t.core c).eng.pr pd).getLsbD j = f j) ∧
    (∀ q, q ≠ pd ∨ q = 0 → (t.core c).eng.pr q = (s.core c).eng.pr q) ∧
    (t.core c).eng = { (s.core c).eng with p := (t.core c).eng.p }

/-- The vector instruction writes `v` to `gd`, and does nothing else. -/
def VecToG (i : Instr) (s : State) (c gd : Nat) (v : Word) : Prop :=
  Gives i s fun t => t.g c gd = (if gd = 0 then 0 else v) ∧ (∀ r, r ≠ gd → t.g c r = s.g c r) ∧
    (t.cur c).pc = (s.cur c).pc + 4 ∧ (t.core c).eng = (s.core c).eng ∧ t.mem = s.mem ∧
    t.reg (rVEC_DONE c) = s.reg (rVEC_DONE c) + 1

/-- The combination of 2^n values by halves (R190). -/
def treeOf (op : FVal → FVal → FVal) : Nat → List FVal → FVal
  | 0, l => l.headD (.fin false 0 0)
  | n + 1, l => op (treeOf op n (l.take (2 ^ n))) (treeOf op n (l.drop (2 ^ n)))

/-- Sum of the first `n` terms in ascending order in FP32, from 0. -/
def sum32 (f : Nat → Nat) : Nat → Nat
  | 0 => 0
  | n + 1 => add32 (sum32 f n) (f n)

/-- `a` less the first `n` terms in ascending order, each step in FP32. -/
def less32 (a : Nat) (f : Nat → Nat) : Nat → Nat
  | 0 => a
  | n + 1 => sub32 (less32 a f n) (f n)

/-- The generator state after `n` draws (R155). -/
def drawN : Nat → Word → Word
  | 0, g => g
  | n + 1, g => srDraw (drawN n g)

/-- The entry of a tag has no uncorrectable word, before its line comes into its home slice and after (R160). -/
def GaugeGood (s : State) (tag : Nat) : Prop := gaugeBad s tag = false ∧ gaugeBad (gaugeLine tag s) tag = false

/-- Context `i` of core `c`, whose INEXC was 0, took exception `e` with value `v`, whatever it waited for. -/
structure Excepted (s t : State) (c i : Nat) (e : Exc) (v : Nat) : Prop where
  epc : ((t.core c).ctx i).epc = ((s.core c).ctx i).pc
  ecause : ((t.core c).ctx i).ecause = BitVec.ofNat 64 e.code
  eval : ((t.core c).ctx i).eval = BitVec.ofNat 64 v
  pc : ((t.core c).ctx i).pc = s.reg (rMTVEC c)
  inexc : statusBit ((t.core c).ctx i) 4 = true
  wait : ((t.core c).ctx i).wait = .none
  g : ∀ r, ((t.core c).ctx i).gr r = ((s.core c).ctx i).gr r

/-- The way of packet `p` is clean: no router loses it, no switch corrects a word of it, and its destination exists (R34, R341, R453). -/
structure CleanWay (p : Packet) : Prop where
  whole : p.lost = none
  words : p.fixes = []
  dest : reservedEp p.dst = false

/-- A request `p` of operation `op` can be served at its home slice at once: its way is clean, no earlier request of its line waits
anywhere, its gate is open, its line lies in HBM and the partition can read all of it. -/
structure AtSlice (s : State) (p : Packet) (op : Nat) : Prop where
  opIs : p.op = op
  way : CleanWay p
  first : behind p s = false
  held : (s.held.any fun q => q.addr / 128 == p.addr / 128) = false
  gate : gateFor p s = true
  hbm : isLp p.addr = false ∧ isCw p.addr = false ∧ isLp (p.addr / 128 * 128) = false ∧ isCw (p.addr / 128 * 128) = false
  queue : lineQueued s (p.addr / 128) = false
  good : badMask s p.part (p.addr / 128) 32 = 0
  key : keyOk s p.part (p.addr / 128 * 128) = true

/-- A response `p` of operation `op` reaches the core it is for: it is in flight on a clean way, of the core's reset generation, its
router is open, the core enabled and in the columns of the packet's partition (R342, R352, R358, R362, R455). -/
structure AtCore (s : State) (p : Packet) (op : Nat) : Prop where
  opIs : p.op = op
  way : CleanWay p
  flight : p ∈ s.net
  core : p.dst < 0x400
  shut : gateShut s p.dst = false
  enabled : (s.core p.dst).enabled = true
  part : s.inCols p.part p.dst = true
  rgen : p.rgen = (s.core p.dst).rgen

/-- A packet of operation `op` is on its way from `src` to `dst` with transaction number `x` and data `d`. -/
def Sent (t : State) (op src dst x : Nat) (d : Line) : Prop :=
  ∃ q ∈ t.net, q.op = op ∧ q.src = src ∧ q.dst = dst ∧ q.txid = x ∧ q.payload = d

/-- A command can be given at window `w` of the Ledger engine by origin `o`, and the engine is idle (R256). -/
structure LgReady (s : State) (o : Origin) (w : Nat) : Prop where
  may : mayReg s o true (rLE_CMD w) = true
  win : w ≤ 8
  busy : s.flag (rLE_STAT w) LE_STAT_BUSY = false
  idle : s.lgops = []

/-- The Ledger command of window `w` waits for the shootdown of page `vpn` of partition `p`, which frame `f` mapped, in the cores of
the partition and in the engines that hold the page (R255). -/
structure Shooting (s t : State) (w p vpn f : Nat) : Prop where
  busy : t.flag (rLE_STAT w) LE_STAT_BUSY = true
  run : ∃ eps, t.lgops = [(w, .shoot p vpn f eps)] ∧ (∀ c, c ∈ s.partCores p → c ∈ eps)
  rsp : t.rsp = .ok 0

/-- The command of window `w` failed with `code` and changed nothing (R256). -/
structure LgFailed (s t : State) (w code : Nat) : Prop where
  fail : t.flag (rLE_STAT w) LE_STAT_FAIL = true
  code : t.fld (rLE_STAT w) LE_STAT_CODE = code
  same : t.ledger = s.ledger ∧ t.anchors = s.anchors ∧ t.lgops = s.lgops ∧ t.mem = s.mem

/-- The ring's engines have nothing to do: no frame waits at a port, no collective or hitch sweep runs, no delivery report is owed. -/
structure RingQuiet (s : State) : Prop where
  rx : ∀ p, p < 8 → (s.port p).rxbuf = []
  tx : ∀ p, p < 8 → hwState s p ≠ hwUP ∨ ((s.port p).out = [] ∧ (s.port p).retry = [])
  sweeps : s.xsent = []
  reports : s.ddPend = []
  runs : ∀ x ∈ s.grps, x.2.run = none

/-- The job of Sluice unit `n` has stopped with `code` (R222): SLU_ERR records it and the unit is in HALT. -/
structure SlFailed (t : State) (n code : Nat) : Prop where
  code : t.fld (rSLU_ERR n) SLU_ERR_CODE = code
  valid : t.flag (rSLU_ERR n) SLU_ERR_VALID = true
  halt : slState t n = slHALT
  job : (t.slu n).job = none

/-- Unit `n` runs a job of KIND `k` whose walk has not ended. -/
structure SlRunning (s : State) (n k : Nat) : Prop where
  lt : n < 16
  run : slState s n = slRUN
  going : (s.slu n).ended = none
  kind : hKind (s.slu n).hdr = k

/-- The word `w` stands at the PC of a Sluice program (R213). -/
structure SlAt (s : State) (n w : Nat) : Prop where
  running : SlRunning s n 0
  aligned : (s.slu n).pc % 4 = 0
  inside : (s.slu n).pc / 4 < hPlen (s.slu n).hdr
  word : (s.slu n).prog[(s.slu n).pc / 4]? = some w

/-- The sequencer word FN with destination `gd` (R215). -/
def seqWord (fn gd : Nat) : Nat := 0x1E + fn <<< 7 + gd <<< 27

/-- The touched bits of the blocks `ks` of the bitmap at `ptr` are clear. -/
def Untouched (t : State) (ptr : Nat) (ks : List Nat) : Prop :=
  ∀ k ∈ ks, (t.byte (ptr + 0x40 + 8 * (k / 64) + k % 64 / 8)).getLsbD (k % 8) = false

/-- Frame `f` arrives at port `k` and passes the checks of R376: its format, code words, authentication and key, and for a data or
control frame its SEQ; the port is UP, and no reservation mark stops it (R474). -/
structure FrameGood (s : State) (k : Nat) (f : Frame) (typ sub : Nat) : Prop where
  port : k < 8
  legal : frameLegal f = true
  kind : f.typ = typ ∧ (typ < 2 ∨ frSub f = sub)
  code : f.unc = 0
  auth : f.auth = true ∧ (s.fld (rHW_KEYS k) HW_KEYS_LOADED).testBit f.ksel = true
  seq : typ < 3 → f.seq = (s.port k).rx
  up : hwState s k = hwUP
  mark : atMark s k = false

/-- As `RingQuiet`, whatever the ports have still to send. -/
structure RingStill (s : State) : Prop where
  rx : ∀ p, p < 8 → (s.port p).rxbuf = []
  sweeps : s.xsent = []
  reports : s.ddPend = []
  runs : ∀ x ∈ s.grps, x.2.run = none

/-- The port took a frame: SEQ and HW_RX went on by one, and LINK_ACK names the next SEQ (R375, R376). -/
structure FrameTaken (s t : State) (k : Nat) : Prop where
  rx : (t.port k).rx = (s.port k).rx + 1
  count : t.reg (rHW_RX k) = s.reg (rHW_RX k) + 1
  ack : ∃ l, (t.port k).link = some l ∧ l.typ = 3 ∧ frSub l = 0 ∧ l.ack = ((s.port k).rx + 1) % 2 ^ 48 ∧ l.dmod = nbrId s k

/-- Group `g` has failed with `code` (R389). -/
structure GrpFailed (t : State) (g code : Nat) : Prop where
  failed : grpState t g = cgFAILED
  code : t.fld (rCAP_GRP g) CAP_GRP_CODE = code
  empty : (t.grp g).run = none ∧ (t.grp g).queue = []

/-- Message `m` of class `cls` and operation `op` is the oldest of its class at sub-link `k` (R415). -/
structure MsgFront (s : State) (k : Nat) (m : TMsg) (cls op : Nat) : Prop where
  kind : m.cls = cls ∧ m.op = op
  front : (s.ttIn.find? fun x => x.1 == k && x.2.cls == cls) = some (k, m)

/-- Message `q` has been given to sub-link `k`: it waits there, or is on its way. -/
def Replied (t : State) (k : Nat) (q : TMsg) : Prop := q ∈ (t.sub k).out ∨ ∃ n, (n, q) ∈ (t.sub k).replay

/-- Nothing waits at a home or in the ring's engines. -/
def AllQuiet (s : State) : Prop := RingQuiet s ∧ s.held = []

/-- `m` answers the device's one outstanding request `q`, and nothing else waits (R403). -/
structure TtAnswer (s : State) (k : Nat) (m : TMsg) (cls op : Nat) (q : CwReq) : Prop where
  front : MsgFront s k m cls op
  only : s.cwReqs = [q]
  mine : q.sub = k ∧ q.txid = m.txid ∧ q.dead = false
  quiet : AllQuiet s

/-- The HBM3E line `line` lies in its slice, and the partition can read and write all of it. -/
structure LineHere (s : State) (line part : Nat) : Prop where
  hbm : isHbm (line * 128) = true
  here : (resident s line).isSome = true
  good : badMask s part line 32 = 0
  key : keyOk s part (line * 128) = true

/-- The Cleat runs command `op` with argument `arg`, and the life-cycle state lets it (R482). -/
structure CkOp (s : State) (op arg : Nat) : Prop where
  cmd : s.cleat.cmd = some (op, arg)
  live : lcState s ≠ 5

/-- The Cleat's command has ended with RESULT `r` (R488). -/
structure CkEnded (t : State) (r : Nat) : Prop where
  idle : t.cleat.cmd = none
  busy : t.flag rCK_STAT CK_STAT_BUSY = false
  result : t.fld rCK_STAT CK_STAT_RESULT = r

/-- From `s` to `t` no register but CK_STAT changed, and memory, cores and licences are as before. -/
structure CkNothing (s t : State) : Prop where
  regs : ∀ a, a ≠ rCK_STAT → t.reg a = s.reg a
  mem : t.mem = s.mem
  cores : t.cores = s.cores
  lics : t.cleat.lics = s.cleat.lics

/-- What an image must be to pass VERIFY (R480): signed by a root that is fused and not revoked, bound to no device or to this one,
for this life-cycle state, no older than the fuses allow, with its digest. -/
structure ImagePassed (s : State) (h b : List Byte) : Prop where
  root : rootOk s (num h 5 1) = true
  signer : sha256 (sub h 0x50 384) = signerHash s (num h 5 1)
  sig : pssOk (sub h 0x50 384) (h.take 0x1D0) (sub h 0x1D0 384) = true
  bind : zeros (sub h 0x10 32) = true ∨ sub h 0x10 32 = reg256 s (rDEV_ID 0)
  life : (num h 7 1).testBit (lcState s) = true
  svn : s.fld rFU_SVN (svnFld (num h 4 1)) ≤ num h 6 1
  digest : sha256 b = sub h 0x30 32

/-- Every Spillway is closed or on its way there (R379). -/
def Closed (t : State) : Prop := ∀ d, d < 4 → spwPos t d = spCLOSED ∨ (spwPos t d = spMOVING ∧ tget 0 t.spwTo d = spCLOSED)

/-- From `s` to `t` the chip went through a cold reset (R500): bring-up starts at step 1 in BOOT, memory and vault are gone, the
Spillways close; flash, fuses and calendar stay. -/
structure ColdReset (s t : State) : Prop where
  boot : t.boot = 1 ∧ t.bootWarm = false ∧ t.fld rCHIP_INFO CHIP_INFO_STATE = 0
  mem : t.mem = []
  vault : t.cleat.lics = [] ∧ t.cleat.wiping = true ∧ t.reg rCK_KEYS = 0
  spill : Closed t
  flash : t.flash = s.flash
  fuses : ∀ a, 0x50000 ≤ a → a < 0x60000 → a ≠ rFU_LICENCE → t.reg a = s.reg a
  cal : ∀ a, 0x30000 ≤ a → a < 0x40000 → t.reg a = s.reg a
  queue : t.pending = s.pending

/-- From `s` to `t` the chip went through a warm reset (R500): bring-up goes on from step 2, or from step 1 where it had not begun; memory
contents, memory keys, MEAS, flash and calendar stay; the Spillways close. -/
structure WarmReset (s t : State) : Prop where
  boot : t.boot = (if s.boot = 1 then 1 else 2) ∧ t.fld rCHIP_INFO CHIP_INFO_STATE = 0
  mem : t.mem = s.mem
  keys : t.reg rCK_KEYS = s.reg rCK_KEYS ∧ t.flag rCK_STAT CK_STAT_TAMPER = s.flag rCK_STAT CK_STAT_TAMPER
  meas : ∀ m, m < 8 → reg256 t (rMEAS m 0) = reg256 s (rMEAS m 0)
  cycles : t.coreTick = s.coreTick ∧ ∀ h, h < 2 → hgCycle t h = hgCycle s h
  spill : Closed t
  flash : t.flash = s.flash
  cal : ∀ a, 0x30000 ≤ a → a < 0x40000 → t.reg a = s.reg a
  queue : t.pending = s.pending

/-- The LINEAR11 word `w` stands for `num / den`, within one step of its exponent (R525). -/
def Lin11Near (w : Nat) (num : Int) (den : Nat) : Prop :=
  let e := sext 5 (w / 2048)
  let m := sext 11 w
  w < 65536 ∧ m * (den * 2 ^ e.toNat : Nat) ≤ num * 2 ^ (-e).toNat ∧ num * 2 ^ (-e).toNat < (m + 1) * (den * 2 ^ e.toNat : Nat)

/-- The SMBus target answers `r` to the command, and nothing else changes (R524). -/
def Answers (i : Instr) (s : State) (r : Option (List Byte)) : Prop :=
  Gives i s fun t => t = { s with board := { s.board with smb := r } }

/-- The throttle levels of every cause of half `h` are at most 8 (R515). -/
def ThrOk (s : State) (h : Nat) : Prop :=
  (tget Thr.reset s.thrs h).th ≤ 8 ∧ (tget Thr.reset s.thrs h).pw ≤ 8 ∧ (tget Thr.reset s.thrs h).ic ≤ 8

/-- One cause's level `l` and quiet samples `n` after a sample that raises it, is quiet, or is neither (R515). -/
structure LevelStep (up quiet : Prop) (top l n l' n' : Nat) : Prop where
  rises : up → l' = (if l < top then l + 1 else l) ∧ n' = 0
  falls : ¬ up → quiet → 19 ≤ n → l' = l - 1 ∧ n' = 0
  waits : ¬ up → quiet → n < 19 → l' = l ∧ n' = n + 1
  stays : ¬ up → ¬ quiet → l' = l ∧ n' = 0

/-- A request of operation `op` waits in mailbox `h`, whose Headgate serves it and has room for the reply (R507). -/
structure MbAsked (s : State) (h op : Nat) : Prop where
  box : h < 2
  full : s.flag (rMB_CTL h) MB_CTL_IN_FULL = true
  room : s.flag (rMB_CTL h) MB_CTL_OUT_FULL = false
  runs : (s.hgx h).swap = false ∧ (s.hgx h).rom = false
  opIs : bits (mbWord s h 0) 7 0 = op

/-- The Headgate replied with STATUS `st`, repeating OP and SEQ, and took the request (R507). -/
structure MbReplied (s t : State) (h st : Nat) : Prop where
  taken : t.flag (rMB_CTL h) MB_CTL_IN_FULL = false
  door : t.flag (rMB_CTL h) MB_CTL_OUT_FULL = true
  word : t.reg (rMB_OUT h 0) = n64 (bits (mbWord s h 0) 63 48 * 2 ^ 48 + st * 2 ^ 32 + bits (mbWord s h 0) 7 0)

/-- What the tables of a state keep: memory, registers, cores and the Ledger are in their canonical forms. -/
def Canonical (s : State) : Prop := memWf s = true ∧ twf s.regs = true ∧ twf s.cores = true ∧ twf s.ledger = true

end Sys2Proof
end

