-- ==== Sys2Proof/Certificates/Slice0/Obligations.lean ====
section
/-! DEFINITION. The statements for the provers, from the numbered rules of the manual. -/

open Sys2Proof Sys2Proof.Machine

/-! The block. -/

/-- A step takes the command at the front of the queue and runs it on the state with the rest of the queue. -/
def Obligations.StepRunsFront : Prop :=
  ∀ (i : Instr) (q : List Instr) (s : State), s.pending = i :: q → step s = exec i { s with pending := q }

/-- With no command waiting a step is a core cycle (R81): the core island's cycle counter advances by one, and memory, the
network and the queue are as before.  That a cycle passes on an empty queue is the model's choice (log 2). -/
def Obligations.IdleStepIsACycle : Prop :=
  ∀ s : State, s.pending = [] → powered s = true →
    ∃ t, step s = .next t ∧ t.coreTick = s.coreTick + 1 ∧ t.mem = s.mem ∧ t.net = s.net ∧ t.pending = []

/-- The state after reset is canonical and has an empty queue. -/
def Obligations.ResetIsCanonical : Prop := Canonical State.reset ∧ State.reset.pending = []

/-- Every step keeps the canonical forms, from every canonical state. -/
def Obligations.StepKeepsCanonical : Prop :=
  ∀ s t : State, Canonical s → step s = .next t → Canonical t

/-- Every step of every state answers a next state, takes exactly one command off the queue, puts none on it, and never lets
the free-value counter or the memory epoch fall, so that no free value is used twice (log 10). -/
def Obligations.StepTakesOneCommand : Prop :=
  ∀ s : State, ∃ t, step s = .next t ∧ t.pending = s.pending.tail ∧ s.free ≤ t.free ∧ s.memEpoch ≤ t.memEpoch

/-! Scalar instructions. -/

/-- R52, R42: the ALU register class: each writes GD its function of GA and GB, and nothing else changes. -/
def Obligations.ScalarArithmetic : Prop :=
  ∀ (s : State) (c gd ga gb : Nat), Ready s c [gd, ga, gb] →
    let a := s.g c ga
    let b := s.g c gb
    Writes (.add c gd ga gb) s c gd (a + b) ∧
    Writes (.sub c gd ga gb) s c gd (a - b) ∧
    Writes (.and c gd ga gb) s c gd (a &&& b) ∧
    Writes (.or c gd ga gb) s c gd (a ||| b) ∧
    Writes (.xor c gd ga gb) s c gd (a ^^^ b) ∧
    Writes (.andn c gd ga gb) s c gd (a &&& ~~~b) ∧
    Writes (.sll c gd ga gb) s c gd (a <<< (b &&& 63).toNat) ∧
    Writes (.srl c gd ga gb) s c gd (a >>> (b &&& 63).toNat) ∧
    Writes (.sra c gd ga gb) s c gd (a.sshiftRight (b &&& 63).toNat) ∧
    Writes (.slt c gd ga gb) s c gd (if a.toInt < b.toInt then 1 else 0) ∧
    Writes (.sltu c gd ga gb) s c gd (if a.toNat < b.toNat then 1 else 0) ∧
    Writes (.min c gd ga gb) s c gd (if a.toInt ≤ b.toInt then a else b) ∧
    Writes (.max c gd ga gb) s c gd (if a.toInt ≤ b.toInt then b else a) ∧
    Writes (.minu c gd ga gb) s c gd (if a.toNat ≤ b.toNat then a else b) ∧
    Writes (.maxu c gd ga gb) s c gd (if a.toNat ≤ b.toNat then b else a) ∧
    (∃ n ≤ 64, a.toNat < 2 ^ (64 - n) ∧ (n < 64 → 2 ^ (63 - n) ≤ a.toNat) ∧ Writes (.clz c gd ga gb) s c gd (BitVec.ofNat 64 n)) ∧
    (∃ n ≤ 64, (2 ^ n ∣ a.toNat) ∧ (n < 64 → ¬ 2 ^ (n + 1) ∣ a.toNat) ∧ Writes (.ctz c gd ga gb) s c gd (BitVec.ofNat 64 n)) ∧
    Writes (.popc c gd ga gb) s c gd (BitVec.ofNat 64 ((List.range 64).countP fun i => a.getLsbD i))

/-- R53, R54: the immediate instructions, LIH and LIW.  SHI with kind 0b11 or a bit of 14:8 set is ILLEGAL, and so is LIW at an address that
is not a multiple of 8 (R48) or with reserved bits set (R50); an uncorrectable second word is DATA_ERR (R76). -/
def Obligations.ScalarImmediate : Prop :=
  (∀ (s : State) (c gd ga imm : Nat), Ready s c [gd, ga] → imm < 2 ^ 15 →
    let a := s.g c ga
    let b := (BitVec.ofNat 15 imm).signExtend 64
    Writes (.addi c gd ga imm) s c gd (a + b) ∧
    Writes (.andi c gd ga imm) s c gd (a &&& b) ∧
    Writes (.ori c gd ga imm) s c gd (a ||| b) ∧
    Writes (.xori c gd ga imm) s c gd (a ^^^ b) ∧
    Writes (.slti c gd ga imm) s c gd (if a.toInt < b.toInt then 1 else 0) ∧
    Writes (.sltiu c gd ga imm) s c gd (if a.toNat < b.toNat then 1 else 0) ∧
    (imm < 64 → Writes (.shi c gd ga imm) s c gd (a <<< imm)) ∧
    (64 ≤ imm → imm < 128 → Writes (.shi c gd ga imm) s c gd (a >>> (imm - 64))) ∧
    (128 ≤ imm → imm < 192 → Writes (.shi c gd ga imm) s c gd (a.sshiftRight (imm - 128))) ∧
    (192 ≤ imm → Traps (.shi c gd ga imm) s c .illegal (BitVec.ofNat 64 (encI 0x08 gd ga imm)))) ∧
  (∀ (s : State) (c gd : Nat), Ready s c [gd] →
    (∀ imm, imm < 2 ^ 20 → Writes (.lih c gd imm) s c gd ((BitVec.ofNat 32 (imm * 4096)).signExtend 64)) ∧
    (∀ imm, imm < 2 ^ 32 → 8 ∣ (s.cur c).pc.toNat → fetchSecond s c = none →
      Gives (.liw c gd 0 imm) s fun t => Ran s t c gd ((BitVec.ofNat 32 imm).signExtend 64) ((s.cur c).pc + 8)) ∧
    (∀ rsv imm, ¬ 8 ∣ (s.cur c).pc.toNat ∨ (rsv ≠ 0 ∧ fetchSecond s c = none) →
      Traps (.liw c gd rsv imm) s c .illegal (BitVec.ofNat 64 (encU 0x60 gd rsv))) ∧
    (∀ rsv imm, 8 ∣ (s.cur c).pc.toNat → fetchSecond s c ≠ none → Traps (.liw c gd rsv imm) s c .dataErr ((s.cur c).pc + 4)))

/-- R55: multiply and divide, with the cases of GB = 0 and of the quotient that does not fit. -/
def Obligations.MultiplyDivide : Prop :=
  ∀ (s : State) (c gd ga gb : Nat), Ready s c [gd, ga, gb] →
    let a := s.g c ga
    let b := s.g c gb
    Writes (.mul c gd ga gb) s c gd (BitVec.ofInt 64 (a.toInt * b.toInt)) ∧
    Writes (.mulh c gd ga gb) s c gd (BitVec.extractLsb' 64 64 (BitVec.ofInt 128 (a.toInt * b.toInt))) ∧
    Writes (.mulhu c gd ga gb) s c gd (BitVec.extractLsb' 64 64 (BitVec.ofNat 128 (a.toNat * b.toNat))) ∧
    Writes (.div c gd ga gb) s c gd
      (if b = 0 then BitVec.allOnes 64 else if a = BitVec.intMin 64 ∧ b = BitVec.allOnes 64 then BitVec.intMin 64 else a.sdiv b) ∧
    Writes (.divu c gd ga gb) s c gd (if b = 0 then BitVec.allOnes 64 else a.udiv b) ∧
    Writes (.rem c gd ga gb) s c gd
      (if b = 0 then a else if a = BitVec.intMin 64 ∧ b = BitVec.allOnes 64 then 0 else a.srem b) ∧
    Writes (.remu c gd ga gb) s c gd (if b = 0 then a else a.umod b)

/-- R59, R48: branches move by sext(OFF12) × 4 when their condition holds, else past themselves; JAL and JALR link and jump,
JALR with the old GA. -/
def Obligations.BranchesAndJumps : Prop :=
  (∀ (s : State) (c ga gb off : Nat), Ready s c [ga, gb] → off < 2 ^ 12 →
    let a := s.g c ga
    let b := s.g c gb
    let pc := (s.cur c).pc
    let tgt := (pc + (BitVec.ofNat 12 off).signExtend 64 * 4) &&& ~~~3#64
    Goes (.beq c ga gb off) s c (if a = b then tgt else pc + 4) ∧
    Goes (.bne c ga gb off) s c (if a = b then pc + 4 else tgt) ∧
    Goes (.blt c ga gb off) s c (if a.toInt < b.toInt then tgt else pc + 4) ∧
    Goes (.bge c ga gb off) s c (if a.toInt < b.toInt then pc + 4 else tgt) ∧
    Goes (.bltu c ga gb off) s c (if a.toNat < b.toNat then tgt else pc + 4) ∧
    Goes (.bgeu c ga gb off) s c (if a.toNat < b.toNat then pc + 4 else tgt)) ∧
  (∀ (s : State) (c gd off : Nat), Ready s c [gd] → off < 2 ^ 20 →
    Gives (.jal c gd off) s fun t =>
      Ran s t c gd ((s.cur c).pc + 4) (((s.cur c).pc + (BitVec.ofNat 20 off).signExtend 64 * 4) &&& ~~~3#64)) ∧
  (∀ (s : State) (c gd ga imm : Nat), Ready s c [gd, ga] → imm < 2 ^ 15 →
    Gives (.jalr c gd ga imm) s fun t =>
      Ran s t c gd ((s.cur c).pc + 4) ((s.g c ga + (BitVec.ofNat 15 imm).signExtend 64) &&& ~~~3#64))

/-- R42: whatever comes of it, a register instruction or a branch changes no g register but its destination, no other context's
and no other core's registers, and no byte of memory. -/
def Obligations.RegisterFormsFrame : Prop :=
  ∀ (s t : State) (c gd ga gb imm : Nat) (i : Instr),
    (i ∈ registerForms c gd ga gb imm → exec i s = .next t → OnlyG s t c gd) ∧
    (i ∈ branchForms c ga gb imm → exec i s = .next t → OnlyG s t c 0)

/-- R56: a load from the core's own scratchpad (R231) writes GD, sign- or zero-extended, and changes nothing else. -/
def Obligations.ScalarLoads : Prop :=
  ∀ (s : State) (c gd ga imm : Nat), Ready s c [gd, ga] → imm < 2 ^ 15 →
    let va := dataAddr s c ga imm
    (SpadReads s c va 1 →
      Writes (.lb c gd ga imm) s c gd ((BitVec.ofNat 8 (spadNat s c va 1)).signExtend 64) ∧
      Writes (.lbu c gd ga imm) s c gd ((BitVec.ofNat 8 (spadNat s c va 1)).setWidth 64)) ∧
    (SpadReads s c va 2 →
      Writes (.lh c gd ga imm) s c gd ((BitVec.ofNat 16 (spadNat s c va 2)).signExtend 64) ∧
      Writes (.lhu c gd ga imm) s c gd ((BitVec.ofNat 16 (spadNat s c va 2)).setWidth 64)) ∧
    (SpadReads s c va 4 →
      Writes (.lw c gd ga imm) s c gd ((BitVec.ofNat 32 (spadNat s c va 4)).signExtend 64) ∧
      Writes (.lwu c gd ga imm) s c gd ((BitVec.ofNat 32 (spadNat s c va 4)).setWidth 64)) ∧
    (SpadReads s c va 8 → Writes (.ld c gd ga imm) s c gd (BitVec.ofNat 64 (spadNat s c va 8)))

/-- R56: a store to the core's own scratchpad (R231) writes the low bytes of GS, the lowest at the address, and changes no other
byte, no g register and no other core. -/
def Obligations.ScalarStores : Prop :=
  ∀ (s : State) (c gs ga imm : Nat), Ready s c [gs, ga] → imm < 2 ^ 15 →
    let va := dataAddr s c ga imm
    ∀ x ∈ storeForms c gs ga imm, OwnSpad s c va x.1 →
      Gives x.2 s fun t => SpadStored s t c (va - spadBase s (s.part c)) x.1 (s.g c gs)

/-- R57, R43, R76: a load or store at an address that is not a multiple of its size takes MISALIGN with ROT = 0; one in register
space at T takes ACCESS; one with any of bits 63:48 set takes LOAD_PAGE or STORE_PAGE.  EVAL holds the data address. -/
def Obligations.DataFaults : Prop :=
  ∀ (s : State) (c g ga imm : Nat), Ready s c [g, ga] → imm < 2 ^ 15 →
    let va := dataAddr s c ga imm
    let common := fun (x : Nat × Instr) =>
      (va % x.1 ≠ 0 → s.flag (rCORE_MODE c) CORE_MODE_ROT = false → Traps x.2 s c .misalign (BitVec.ofNat 64 va)) ∧
      (va % x.1 = 0 → va / 2 ^ 44 = 15 → (s.cur c).isM = false → Traps x.2 s c .access (BitVec.ofNat 64 va))
    (∀ x ∈ loadForms c g ga imm, common x ∧ (va % x.1 = 0 → 2 ^ 48 ≤ va → Traps x.2 s c .loadPage (BitVec.ofNat 64 va))) ∧
    (∀ x ∈ storeForms c g ga imm, common x ∧ (va % x.1 = 0 → 2 ^ 48 ≤ va → Traps x.2 s c .storePage (BitVec.ofNat 64 va)))

/-- R58: an aligned atomic to a page the task may store to sends the operation with GB and the incoming GD to the line's home and
waits there; a misaligned one takes MISALIGN, one to register space, the scratchpad or the companion window ACCESS, and one
with FN bits 9:5 set ILLEGAL (R50). -/
def Obligations.AtomicsGo : Prop :=
  ∀ (s : State) (c gd ga gb : Nat) (wide : Bool), Ready s c [gd, ga, gb] →
    let va := (s.g c ga).toNat
    let sz := if wide then 8 else 4
    let p := s.part c
    ∀ x ∈ atomForms c wide 0 gd ga gb,
      (∀ pa, va % sz = 0 → isRegSpace va = false → inSpad s p va = false → inCw s p va = false →
        accFault s p (s.cur c).isM .store va sz = none → corePlace s c .store va = .mem pa → (s.core c).freeTx ≠ none →
        Gives x.2 s fun t => AtomSent s t c pa va gd gb x.1 wide) ∧
      (va % sz ≠ 0 → Traps x.2 s c .misalign (s.g c ga)) ∧
      (va % sz = 0 → isRegSpace va = true ∨ inSpad s p va = true ∨ inCw s p va = true → Traps x.2 s c .access (s.g c ga))

/-- R50, R58, R61: reserved encodings of the atomic and system classes take ILLEGAL with the instruction's first word.  R60: at T a
privileged system instruction takes PRIV with no other effect. -/
def Obligations.IllegalAndPrivileged : Prop :=
  (∀ (s : State) (c gd ga gb : Nat),
    (∀ wide rsv, Ready s c [gd, ga, gb] → 0 < rsv → ∀ x ∈ atomForms c wide rsv gd ga gb,
      Traps x.2 s c .illegal (BitVec.ofNat 64 (encS 0x15 gd ga gb (rsv * 32 + x.1 * 2 + (if wide then 1 else 0))))) ∧
    (Ready s c [] → ¬ (gd = 0 ∧ ga = 0 ∧ gb = 0) → ∀ x ∈ bareForms c gd ga gb,
      Traps x.2 s c .illegal (BitVec.ofNat 64 (encS 0x1A gd ga gb x.1)))) ∧
  (∀ (s : State) (c ga : Nat), Ready s c [ga] → (s.cur c).isM = false →
    (∀ x ∈ privForms c 0 0 0, ga = 0 → Traps x.2 s c .priv (BitVec.ofNat 64 (encS 0x1A 0 0 0 x.1))) ∧
    Traps (.tswitch c 0 ga 0) s c .priv (BitVec.ofNat 64 (encS 0x1A 0 ga 0 6)) ∧
    Traps (.ctxsave c 0 ga 0) s c .priv (BitVec.ofNat 64 (encS 0x1A 0 ga 0 7)) ∧
    Traps (.ctxload c 0 ga 0) s c .priv (BitVec.ofNat 64 (encS 0x1A 0 ga 0 8)))

/-! System instructions, contexts and core registers. -/

/-- R61, R77: ECALL and BREAK take their exceptions with EVAL 0; with INEXC already 1 the exception is a double fault: the context
becomes HALTED, its EPC, ECAUSE and EVAL stay, and the core-halt event is raised at the Headgate of the core's half. -/
def Obligations.CallsAndReturns : Prop :=
  ∀ (s : State) (c : Nat), Ready s c [] →
    Traps (.ecall c 0 0 0) s c .ecall 0 ∧ Traps (.brk c 0 0 0) s c .brk 0 ∧
    ((s.cur c).isM = true → Gives (.mret c 0 0 0) s fun t => Returned s t c) ∧
    ∀ i ∈ [Instr.ecall c 0 0 0, Instr.brk c 0 0 0], statusBit (s.cur c) 4 = true → s.maint c = false →
      Gives i s fun t =>
        (t.cur c).st = .halted ∧ (t.cur c).epc = (s.cur c).epc ∧ (t.cur c).ecause = (s.cur c).ecause ∧
        (t.cur c).eval = (s.cur c).eval ∧ t.flag (rHG_EVENT (coreHalf c)) HG_EVENT_HALT = true ∧
        ∀ j, j ≠ (s.core c).run → (t.core c).ctx j = (s.core c).ctx j

/-- R61: WFI goes on when IPEND, as the fetch leaves it, and IENABLE share a set bit, and else waits with its PC at it; FENCE goes on when every earlier
access has completed, and FENCE.I then invalidates the instruction cache; with an access outstanding they wait. -/
def Obligations.WaitAndFence : Prop :=
  ∀ (s : State) (c : Nat), Ready s c [] →
    (((fetched c s).reg (rIPEND c) &&& s.reg (rIENABLE c)) &&& 0xFF#64 ≠ 0 → Goes (.wfi c 0 0 0) s c ((s.cur c).pc + 4)) ∧
    (((fetched c s).reg (rIPEND c) &&& s.reg (rIENABLE c)) &&& 0xFF#64 = 0 →
      Gives (.wfi c 0 0 0) s fun t => (t.cur c).wait = .wfi (s.cycle c) ∧ (t.cur c).pc = (s.cur c).pc ∧ ∀ r, t.g c r = s.g c r) ∧
    ((s.core c).errPend = none → storesOut s c = false →
      Goes (.fence c 0 0 0) s c ((s.cur c).pc + 4) ∧ Goes (.fenceI c 0 0 0) s c ((s.cur c).pc + 4) ∧
      Gives (.fenceI c 0 0 0) s fun t => (t.core c).icache = []) ∧
    ((s.core c).errPend = none → storesOut s c = true →
      (Gives (.fence c 0 0 0) s fun t => (t.cur c).pc = (s.cur c).pc) ∧
      Gives (.fenceI c 0 0 0) s fun t => (t.cur c).pc = (s.cur c).pc)

/-- R69: TSWITCH at M makes the context that GA names RUNNING and the caller READY with its PC after the TSWITCH, and in normal
service sets FG_CTX; for the caller's own context it has no effect; for an EMPTY or HALTED one it takes ILLEGAL with EVAL the
context. -/
def Obligations.TaskSwitch : Prop :=
  ∀ (s : State) (c ga : Nat), Ready s c [ga] → (s.cur c).isM = true →
    let i := (s.g c ga &&& 3).toNat
    let k := s.core c
    (i = k.run → Goes (.tswitch c 0 ga 0) s c ((s.cur c).pc + 4)) ∧
    (i ≠ k.run → (k.ctx i).st = .ready ∨ (k.ctx i).st = .waiting →
      Gives (.tswitch c 0 ga 0) s fun t =>
        (t.core c).run = i ∧ (t.cur c).st = .running ∧ (t.core c).sw = some i ∧ (t.cur c).pc = (k.ctx i).pc ∧
        ((t.core c).ctx k.run).st = .ready ∧ ((t.core c).ctx k.run).pc = (s.cur c).pc + 4 ∧
        (s.maint c = false → t.fld (rCORE_MODE c) CORE_MODE_FG_CTX = i) ∧
        (s.maint c = true → t.fld (rCORE_MODE c) CORE_MODE_FG_CTX = s.fld (rCORE_MODE c) CORE_MODE_FG_CTX)) ∧
    (i ≠ k.run → (k.ctx i).st = .empty ∨ (k.ctx i).st = .halted → Traps (.tswitch c 0 ga 0) s c .illegal (BitVec.ofNat 64 i))

/-- R71, R72: CTXSAVE of a context that does not own the engine state writes its g registers and PC to its save area, here one in
the core's scratchpad, and CTXLOAD of a context other than the caller's takes them from it and makes it READY; CTXLOAD of the
caller's context takes ILLEGAL. -/
def Obligations.ContextSaveAndLoad : Prop :=
  ∀ (s : State) (c ga : Nat), Ready s c [ga] → (s.cur c).isM = true →
    let i := (s.g c ga &&& 3).toNat
    let k := s.core c
    let base := (s.reg (rCTX_SAVE c i)).toNat
    (i ≠ k.owner → k.errPend = none → SpadArea s c base 0x240 → base % 8 = 0 → s.flag (rCM_FLIP c) SC_FLIP_ARM = false →
      Gives (.ctxsave c 0 ga 0) s fun t =>
        (∀ r, r < 32 → spadNat t c (base + 0x100 + 8 * r) 8 = ((k.ctx i).gr r).toNat) ∧
        spadNat t c (base + 0x200) 8 = (if i = k.run then (k.ctx i).pc + 4 else (k.ctx i).pc).toNat ∧
        (t.cur c).pc = (s.cur c).pc + 4) ∧
    (i ≠ k.run → SpadArea s c base 0x240 → (spadNat s c base 8).testBit 9 = false →
      Gives (.ctxload c 0 ga 0) s fun t =>
        (∀ r, 0 < r → r < 32 → (((t.core c).ctx i).gr r).toNat = spadNat s c (base + 0x100 + 8 * r) 8) ∧
        (((t.core c).ctx i).pc).toNat = spadNat s c (base + 0x200) 8 ∧ ((t.core c).ctx i).st = .ready ∧
        (t.core c).owner = k.owner ∧ (t.cur c).pc = (s.cur c).pc + 4) ∧
    (i = k.run → Traps (.ctxload c 0 ga 0) s c .illegal (BitVec.ofNat 64 i))

/-- R62, R60: a CSR instruction returns the old value of the register in GD and writes GA, sets its bits or clears its bits; here
ESCRATCH, a banked register, and IENABLE, one per core.  With GA = g0, CSRRS and CSRRC only read.  At T a write takes PRIV. -/
def Obligations.CsrAccess : Prop :=
  ∀ (s : State) (c gd ga : Nat), Ready s c [gd, ga] →
    let a := s.g c ga
    let old := (s.cur c).escratch
    let en := s.reg (rIENABLE c)
    let P := fun (v : Word) (t : State) =>
      t.g c gd = (if gd = 0 then 0 else old) ∧ (t.cur c).escratch = v ∧ (t.cur c).pc = (s.cur c).pc + 4 ∧
        (∀ r, r ≠ gd → t.g c r = s.g c r) ∧ t.mem = s.mem
    let Q := fun (v : Word) (t : State) =>
      t.g c gd = (if gd = 0 then 0 else en) ∧ t.reg (rIENABLE c) &&& 0xFF#64 = v &&& 0xFF#64 ∧ (t.cur c).pc = (s.cur c).pc + 4 ∧
        (∀ r, r ≠ gd → t.g c r = s.g c r) ∧ t.mem = s.mem
    ((s.cur c).isM = true →
      Gives (.csrrw c gd ga 0xB) s (P a) ∧ (ga ≠ 0 → Gives (.csrrs c gd ga 0xB) s (P (old ||| a))) ∧
      (ga ≠ 0 → Gives (.csrrc c gd ga 0xB) s (P (old &&& ~~~a))) ∧
      Writes (.csrrs c gd 0 0xB) s c gd old ∧ Writes (.csrrc c gd 0 0xB) s c gd old ∧
      Gives (.csrrw c gd ga 0xD) s (Q a) ∧ (ga ≠ 0 → Gives (.csrrs c gd ga 0xD) s (Q (en ||| a))) ∧
      (ga ≠ 0 → Gives (.csrrc c gd ga 0xD) s (Q (en &&& ~~~a)))) ∧
    ((s.cur c).isM = false →
      Traps (.csrrw c gd ga 0xB) s c .priv (BitVec.ofNat 64 (encI 0x1B gd ga 0xB)) ∧
      Traps (.csrrs c gd 0 0xB) s c .priv (BitVec.ofNat 64 (encI 0x1C gd 0 0xB)) ∧
      Writes (.csrrs c gd 0 0x6) s c gd (s.cur c).mstatus)

/-- R81: CYCLE at or past a non-zero CYCLE_CMP sets IPEND.CYC.  R79, R78: an interrupt is taken at a boundary when an enabled source is pending and the context is at T or has IE set: the
lowest-numbered such source goes to ECAUSE with bit 63, the entry is that of R77, EPC is the next instruction, and IPEND keeps
the bit.  EVAL is a free value (log 33). -/
def Obligations.InterruptEntry : Prop :=
  (∀ (s : State) (c : Nat),
    (s.reg (rCYCLE_CMP c) ≠ 0 → (s.reg (rCYCLE_CMP c)).toNat ≤ s.cycle c →
      exec (.cycleCmpMatch c) s = .next (s.setReg (rIPEND c) (s.reg (rIPEND c) ||| 0x40))) ∧
    (s.reg (rCYCLE_CMP c) = 0 → exec (.cycleCmpMatch c) s = .next s)) ∧
  ∀ (s : State) (c b : Nat), Ready s c [] → b < 8 →
    (s.reg (rIPEND c) &&& s.reg (rIENABLE c)).getLsbD b = true →
    (∀ j, j < b → (s.reg (rIPEND c) &&& s.reg (rIENABLE c)).getLsbD j = false) →
    (s.cur c).isM = false ∨ statusBit (s.cur c) 2 = true →
    Gives (.interruptTaken c) s fun t =>
      (t.cur c).epc = (s.cur c).pc ∧ (t.cur c).ecause = BitVec.ofNat 64 (2 ^ 63 + b) ∧ statusBit (t.cur c) 0 = true ∧
      statusBit (t.cur c) 1 = statusBit (s.cur c) 0 ∧ statusBit (t.cur c) 2 = false ∧
      statusBit (t.cur c) 3 = statusBit (s.cur c) 2 ∧ statusBit (t.cur c) 4 = true ∧ (t.cur c).pc = s.reg (rMTVEC c) ∧
      t.reg (rIPEND c) = s.reg (rIPEND c) ∧ ∀ r, t.g c r = s.g c r

/-- R67, R68: in maintenance mode a context that has waited in WFI for SW_THRESH cycles becomes WAITING with its PC at the WFI, and
the next READY or WAITING context in cyclic order runs when the switch has ended. -/
def Obligations.MaintenanceSwitch : Prop :=
  (∀ (s : State) (c j since : Nat), s.maint c = true → s.flag (rCORE_CTL c) CORE_CTL_RUN = true → (s.core c).sw = none →
    (s.core c).move = none → (s.core c).nextCtx (s.core c).run = some j → j ≠ (s.core c).run → intOpen s c = false →
    (s.cur c).wait = .wfi since → since + s.fld (rCORE_MODE c) CORE_MODE_SW_THRESH ≤ s.cycle c →
    Gives (.maintSwitch c) s fun t =>
      ((t.core c).ctx (s.core c).run).st = .waiting ∧ ((t.core c).ctx (s.core c).run).pc = (s.cur c).pc ∧
      (t.core c).run = j ∧ (t.cur c).st = .running ∧ (t.core c).sw = some j ∧
      t.reg (rSWITCHES c) = s.reg (rSWITCHES c) + 1) ∧
  (∀ (s : State) (c : Nat), Gives (.contextSwitchDone c) s fun t =>
    t.core c = { s.core c with sw := none } ∧ (∀ d, d ≠ c → t.core d = s.core d) ∧ t.mem = s.mem ∧ t.regs = s.regs)

/-- R70: at the end of an engine-state move whose save areas lie in the core's scratchpad, the new context owns the engine state,
cleared when its header holds none, and the held instruction issues; a CORE_MODE write that waits for the boundary goes on
waiting (R66). -/
def Obligations.EngineStateMove : Prop :=
  ∀ (s : State) (c i : Nat) (ins : Instr), (s.core c).move = some (i, ins) → engIdle (s.core c) = true →
    (s.core c).owner ≠ i → i < 4 → (s.core c).owner < 4 → s.flag (rCM_FLIP c) SC_FLIP_ARM = false →
    SpadArea s c (s.reg (rCTX_SAVE c (s.core c).owner)).toNat 0x32400 → SpadArea s c (s.reg (rCTX_SAVE c i)).toNat 8 →
    (s.reg (rCTX_SAVE c (s.core c).owner)).toNat % 128 = 0 → (s.reg (rCTX_SAVE c i)).toNat % 128 = 0 →
    ((s.reg (rCTX_SAVE c (s.core c).owner)).toNat + 0x32400 ≤ (s.reg (rCTX_SAVE c i)).toNat ∨
      (s.reg (rCTX_SAVE c i)).toNat + 8 ≤ (s.reg (rCTX_SAVE c (s.core c).owner)).toNat) →
    (spadNat s c (s.reg (rCTX_SAVE c i)).toNat 8).testBit 9 = false →
    ∃ u, exec (.engStateMoveDone c) s =
        .next ((engRun ins u).modCore c fun k => { k with modePend := (s.core c).modePend }) ∧
      (u.core c).owner = i ∧ (u.core c).eng = Eng.clear ∧ (u.core c).move = none ∧ (u.core c).modePend = none ∧
      (u.core c).ctxs = (s.core c).ctxs

/-- R78, R83, R66, R64, R139: writes of the core registers with an effect of their own, from an origin that may reach them: ISOFT
sets IPEND bit 7; CORE_CTL.RUN releases context 0 at M at BOOT_VEC and holds the core again; CORE_MODE of a held core takes
effect at once, and is refused when it would leave an EMPTY or HALTED foreground; CTX_STATE makes a context that is not
RUNNING EMPTY or READY; ENG_ERR.VALID is cleared. -/
def Obligations.CoreRegisterWrites : Prop :=
  ∀ (s : State) (o : Origin) (c : Nat), 
    (MayWrite s o c 0x070 → exec (.isoftWrite o c 1) s =
      .next { s.setReg (rIPEND c) (s.reg (rIPEND c) ||| 0x80) with rsp := .ok 0 }) ∧
    (MayWrite s o c 0x0C0 → inPart s c = true → s.flag (rCORE_CTL c) CORE_CTL_RUN = false →
      Gives (.coreRunWrite o c 1) s fun t =>
        t.flag (rCORE_CTL c) CORE_CTL_RUN = true ∧ (t.core c).run = 0 ∧ (t.cur c).st = .running ∧ statusBit (t.cur c) 0 = true ∧
        (t.cur c).pc = s.reg (rBOOT_VEC c) ∧ t.rsp = .ok 0) ∧
    (MayWrite s o c 0x0C0 →
      Gives (.coreRunWrite o c 0) s fun t => t.flag (rCORE_CTL c) CORE_CTL_RUN = false ∧ t.rsp = .ok 0) ∧
    (∀ v, MayWrite s o c 0x018 → s.flag (rCORE_CTL c) CORE_CTL_RUN = false → s.maint c = true →
      let f := fget v CORE_MODE_FG_CTX
      (fbit v CORE_MODE_MAINT = true → Gives (.coreModeWrite o c v) s fun t =>
        t.maint c = true ∧ t.fld (rCORE_MODE c) CORE_MODE_SW_THRESH = fget v CORE_MODE_SW_THRESH ∧
        t.fld (rCORE_MODE c) CORE_MODE_FG_CTX = f ∧ t.cores = s.cores ∧ t.rsp = .ok 0) ∧
      (fbit v CORE_MODE_MAINT = false → ((s.core c).ctx f).st = .ready →
        Gives (.coreModeWrite o c v) s fun t =>
          t.maint c = false ∧ t.fld (rCORE_MODE c) CORE_MODE_FG_CTX = f ∧ t.rsp = .ok 0 ∧
          ∀ i, i < 4 → ((s.core c).ctx i).st = .waiting → ((t.core c).ctx i).st = .ready) ∧
      (fbit v CORE_MODE_MAINT = false → ((s.core c).ctx f).st = .empty ∨ ((s.core c).ctx f).st = .halted →
        exec (.coreModeWrite o c v) s = .next { s with rsp := .err })) ∧
    (∀ v i, MayWrite s o c 0x020 → i < 4 → ((s.core c).ctx i).st ≠ .running →
      Gives (.ctxStateWrite o c v) s fun t =>
        ((v >>> (4 * i)) &&& 0xF#64 = 0 → ((t.core c).ctx i).st = .empty) ∧
        ((v >>> (4 * i)) &&& 0xF#64 = 1 → ((t.core c).ctx i).st = .ready) ∧
        (1#64 < (v >>> (4 * i)) &&& 0xF#64 → ((t.core c).ctx i).st = ((s.core c).ctx i).st)) ∧
    (MayWrite s o c 0x098 → Gives (.engErrClear o c (BitVec.ofNat 64 (2 ^ 8))) s fun t =>
      t.flag (rENG_ERR c) ENG_ERR_VALID = false ∧ t.rsp = .ok 0)

/-! Tiles. -/

/-- R103, R106: a TLOAD of a tile whose rows pass their checks waits for its rows with nothing written; a row that returns, here
from the scratchpad, is written and counted; with the last one the tile is FULL, TSTART is 0 and the TLOAD retires. -/
def Obligations.TileLoad : Prop :=
  (∀ (s : State) (c tt ga gb : Nat), EngReady s c [ga, gb] → TileOpen s c tt → (s.cur c).tstart = 0 →
    (∀ r, r < (s.core c).rowsOf tt → rowFault s c .load (rowVa (s.g c ga) (s.g c gb) r) ((s.core c).rbOf tt) = none) →
    Gives (.tload c tt ga gb 0) s fun t =>
      (let rows := (List.range ((s.core c).rowsOf tt)).map fun r => (r, rowVa (s.g c ga) (s.g c gb) r)
       (t.cur c).wait = .tload tt rows (rowPages s c rows ((s.core c).rbOf tt)) none) ∧
      (t.cur c).pc = (s.cur c).pc ∧ (t.core c).eng = (s.core c).eng ∧ t.mem = s.mem) ∧
  (∀ (s : State) (c tt r va : Nat) (rows pages : List (Nat × Nat)), tt < 8 → r < 64 → (s.cur c).wait = .tload tt rows pages none →
    rows.find? (fun x => x.1 == r) = some (r, va) → SpadArea s c va ((s.core c).rbOf tt) →
    Gives (.tloadRowReturn c r false) s fun t =>
      (t.core c).row tt r = BitVec.ofNat 2048 (spadNat s c va ((s.core c).rbOf tt)) ∧
      t.reg (rTILE_ROWS_IN c) = s.reg (rTILE_ROWS_IN c) + 1 ∧ (t.core c).full tt = true ∧
      (rows = [(r, va)] → (t.cur c).pc = (s.cur c).pc + 4 ∧ (t.cur c).wait = .none ∧ (t.cur c).tstart = 0) ∧
      ∀ q, t.g c q = s.g c q)

/-- R104: a TSTORE writes the rows of a FULL tile, lowest byte first, row r at GA + r × GB; here to rows of the scratchpad that do
not meet, with no interrupt to take between them (R107).  The tile keeps its content, TSTART is 0, and TILE_ROWS_OUT counts the
rows. -/
def Obligations.TileStore : Prop :=
  ∀ (s : State) (c tt ga gb : Nat), EngReady s c [ga, gb] → TileOpen s c tt → (s.core c).full tt = true → (s.cur c).tstart = 0 →
    intOpen (fetched c s) c = false →
    let n := (s.core c).rowsOf tt
    let rb := (s.core c).rbOf tt
    let va := rowVa (s.g c ga) (s.g c gb)
    (∀ r, r < n → SpadArea s c (va r) rb ∧ va r % 16 = 0) →
    (∀ i j, i < n → j < n → i ≠ j → va i + rb ≤ va j ∨ va j + rb ≤ va i) →
    Gives (.tstore c tt ga gb 0) s fun t =>
      (∀ r i, r < n → i < rb →
        spadByte t c (va r - spadBase s (s.part c) + i) = ((s.core c).row tt r).extractLsb' (8 * i) 8) ∧
      Passed s t c ∧ (t.core c).eng = (s.core c).eng ∧ (t.cur c).tstart = 0 ∧
      t.reg (rTILE_ROWS_OUT c) = s.reg (rTILE_ROWS_OUT c) + BitVec.ofNat 64 n

/-- R110, R111, R93, R94: TZERO makes a tile FULL of zeros with NF clear; TREL is queued and, when no user of its tiles is left,
makes the tiles of its mask EMPTY and no other; TCONF of a legal value is a barrier, at which the tile is configured with CONF
1, NF 0 and EMPTY; a memory-mapped TCFG write of a held core is one too. -/
def Obligations.TileState : Prop :=
  (∀ (s : State) (c tt : Nat), EngReady s c [] → TileOpen s c tt →
    Gives (.tzero c tt 0) s fun t =>
      Passed s t c ∧ (t.core c).full tt = true ∧ (∀ r, r < 64 → (t.core c).row tt r = 0) ∧
      fbit ((t.core c).tcf tt) TCFG_NF = false ∧
      ∀ u, u ≠ tt → (t.core c).full u = (s.core c).full u ∧ ∀ r, r < 64 → u < 8 → (t.core c).row u r = (s.core c).row u r) ∧
  (∀ (s : State) (c mask : Nat), EngReady s c [] → (s.core c).tbar = none → mask ≠ 0 →
    Gives (.trel c mask 0) s fun t =>
      Passed s t c ∧ (t.core c).trel = (s.core c).trel ++ [mask] ∧ (t.core c).eng = (s.core c).eng) ∧
  (∀ (s : State) (c m : Nat) (rest : List Nat), (s.core c).trel = m :: rest →
    (∀ u, u < 8 → m.testBit u = true → tileBusy (s.core c) u = false) →
    Gives (.trelApply c) s fun t =>
      (t.core c).trel = rest ∧ (∀ u, u < 8 → (t.core c).full u = (!m.testBit u && (s.core c).full u)) ∧ t.mem = s.mem) ∧
  (∀ (s : State) (c tt ga : Nat), EngReady s c [ga] → tcfgLegal (s.g c ga) = true → (s.core c).tbar = none →
    Gives (.tconf c tt ga 0) s fun t =>
      Passed s t c ∧ (t.core c).tbar = some (tt, s.g c ga, none) ∧ (t.core c).eng = (s.core c).eng) ∧
  (∀ (s : State) (c tt : Nat) (v : Word), (s.core c).tbar = some (tt, v, none) → (∀ u, u < 8 → tileBusy (s.core c) u = false) →
    (s.core c).arr = [] → (s.core c).trel = [] →
    Gives (.tcfgBarrierApply c) s fun t =>
      (t.core c).tbar = ((s.core c).tbarq.head?.map fun x => (x.1, x.2, none)) ∧ (t.core c).tbarq = (s.core c).tbarq.tail ∧
      (t.core c).full tt = false ∧ (t.core c).conf tt = true ∧
      fget ((t.core c).tcf tt) TCFG_FMT = fget v TCFG_FMT ∧ fget ((t.core c).tcf tt) TCFG_ROWS = fget v TCFG_ROWS ∧
      fget ((t.core c).tcf tt) TCFG_RBYTES = fget v TCFG_RBYTES ∧ fget ((t.core c).tcf tt) TCFG_TAG = fget v TCFG_TAG ∧
      fbit ((t.core c).tcf tt) TCFG_NF = false ∧ ∀ u, u ≠ tt → (t.core c).tcf u = (s.core c).tcf u) ∧
  (∀ (s : State) (o : Origin) (c tt : Nat) (v : Word), tt < 8 → MayWrite s o c (0x100 + 8 * tt) → tcfgLegal v = true →
    (s.flag (rCORE_CTL c) CORE_CTL_RUN = false → Gives (.tcfgMmioWrite o c tt v) s fun t =>
      t.rsp = .ok 0 ∧
      ((s.core c).tbar = none → tilesDone (s.core c) = true → (t.core c).full tt = false ∧ (t.core c).conf tt = true ∧
        fget ((t.core c).tcf tt) TCFG_ROWS = fget v TCFG_ROWS) ∧
      ((s.core c).tbar = none → tilesDone (s.core c) = false → (t.core c).tbar = some (tt, v, none) ∧ (t.core c).eng = (s.core c).eng) ∧
      ((s.core c).tbar ≠ none → (t.core c).tbarq = (s.core c).tbarq ++ [(tt, v)] ∧ (t.core c).eng = (s.core c).eng)) ∧
    (s.flag (rCORE_CTL c) CORE_CTL_RUN = true → exec (.tcfgMmioWrite o c tt v) s = .next { s with rsp := .err }))

/-- R94, R99, R100, R50, R93: a tile instruction that no barrier, TREL or user of its tile holds takes its exceptions: on an unconfigured tile
TILE_SHAPE naming it, a TSTORE of an EMPTY tile TILE_EMPTY, a reserved bit or an illegal TCONF value ILLEGAL. -/
def Obligations.TileFaults : Prop :=
  ∀ (s : State) (c tt ga gb : Nat), EngReady s c [ga, gb] → tt < 8 →
    ((s.core c).conf tt = false → tileHeld (s.core c) [tt] = false → tileBusy (s.core c) tt = false →
      Traps (.tload c tt ga gb 0) s c .tileShape (shapeOne tt) ∧ Traps (.tstore c tt ga gb 0) s c .tileShape (shapeOne tt) ∧
      Traps (.tzero c tt 0) s c .tileShape (shapeOne tt)) ∧
    (TileOpen s c tt → (s.core c).full tt = false → Traps (.tstore c tt ga gb 0) s c .tileEmpty (BitVec.ofNat 64 tt)) ∧
    (tcfgLegal (s.g c ga) = false → (s.core c).tbar = none → Traps (.tconf c tt ga 0) s c .illegal (BitVec.ofNat 64 (encTC 0x24 tt ga 0))) ∧
    (∀ rsv, rsv ≠ 0 →
      Traps (.tload c tt ga gb rsv) s c .illegal (BitVec.ofNat 64 (encTM 0x20 tt ga gb rsv)) ∧
      Traps (.tstore c tt ga gb rsv) s c .illegal (BitVec.ofNat 64 (encTM 0x21 tt ga gb rsv)) ∧
      Traps (.tconf c tt ga rsv) s c .illegal (BitVec.ofNat 64 (encTC 0x24 tt ga rsv)))

/-! The matrix array. -/

/-- R122, R124, R126, R130, R131, R137: an MMA whose two tiles are FULL and fit, with F = 1, and an MDRAIN to a tile that fits take
a place in the array queue and retire, 8 bytes long, with nothing else changed; MCFG waits as an array barrier, at which the
fold factor is set, and takes ILLEGAL for a value above 3. -/
def Obligations.ArrayIssue : Prop :=
  (∀ (s : State) (c ta tb acc : Nat), EngReady s c [] → Ready8 s c [] → ta < 8 → tb < 8 → acc < 2 →
    let k := s.core c
    k.eng.mcfg = 0 → k.mbar = none → tileHeld k [ta, tb] = false → k.conf ta = true → k.conf tb = true →
    k.full ta = true → k.full tb = true → writerBusy k ta = false → writerBusy k tb = false → arrPlaces k < 4 →
    k.elemsOf ta = k.rowsOf tb → k.elemsOf tb ≤ 128 →
    pairOk (fget (k.tcf ta) TCFG_FMT) (fget (k.tcf tb) TCFG_FMT) = true →
    fget (k.tcf ta) TCFG_TAG = 0 → fget (k.tcf tb) TCFG_TAG = 0 →
    Gives (.mma c 0 0 tb ta 0 0 0 0 1 acc 0 0 0 0 0) s fun t =>
      ∃ e, (t.core c).arr = k.arr ++ [e] ∧ e.isMma = true ∧ e.acc = acc ∧ e.ovw = true ∧ e.a = .tile ta false ∧ e.b = .tile tb false ∧
        e.m = k.rowsOf ta ∧ e.n = k.elemsOf tb ∧ e.k = k.elemsOf ta ∧ e.kDone = 0 ∧
        (t.core c).eng = k.eng ∧ (t.cur c).pc = (s.cur c).pc + 8 ∧ t.mem = s.mem ∧ ∀ r, t.g c r = s.g c r) ∧
  (∀ (s : State) (c fmt td acc coff : Nat), EngReady s c [] → Ready8 s c [] → td < 8 → acc < 2 → fmtOk fmt = true →
    let k := s.core c
    k.eng.mcfg = 0 → k.mbar = none → tileHeld k [td] = false → k.conf td = true → coff * 64 + k.elemsOf td ≤ 128 →
    fget (k.tcf td) TCFG_FMT = fmt → fget (k.tcf td) TCFG_TAG = 0 → arrPlaces k < 4 →
    Gives (.mdrain c 0 fmt 0 0 0 td 0 0 acc 0 0 coff 0) s fun t =>
      ∃ e, (t.core c).arr = k.arr ++ [e] ∧ e.isMma = false ∧ e.acc = acc ∧ e.dstSpad = false ∧ e.td = td ∧ e.fmt = fmt ∧
        e.m = k.rowsOf td ∧ e.n = k.elemsOf td ∧ e.coff = coff ∧ e.readDone = false ∧
        (t.core c).eng = k.eng ∧ (t.cur c).pc = (s.cur c).pc + 8 ∧ t.mem = s.mem ∧ ∀ r, t.g c r = s.g c r) ∧
  (∀ (s : State) (c ga : Nat), EngReady s c [ga] → (s.core c).mbar = none →
    ((s.g c ga).toNat ≤ 3 → Gives (.mcfg c 0 ga 0 0) s fun t =>
      Passed s t c ∧ (t.core c).mbar = some (s.g c ga, none) ∧ (t.core c).eng = (s.core c).eng) ∧
    (3 < (s.g c ga).toNat → Traps (.mcfg c 0 ga 0 0) s c .illegal (BitVec.ofNat 64 (encS 0x58 0 ga 0 0)))) ∧
  (∀ (s : State) (c : Nat) (v : Word), (s.core c).mbar = some (v, none) →
    (∀ e ∈ (s.core c).arr, e.isMma = false ∧ e.written = true) → Gives (.mcfgBarrierApply c) s fun t =>
      (t.core c).mbar = ((s.core c).mbarq.head?.map fun v => (v, none)) ∧ (t.core c).mbarq = (s.core c).mbarq.tail ∧
      (t.core c).eng = { (s.core c).eng with mcfg := v } ∧ t.mem = s.mem)

/-- R115, R124, R127: the last K step of the oldest MMA, with tile operands, F = 1 and scales 0, adds to each cell of its M × N
the FP32-rounded product of A's and B's elements, with overwrite from 0 at the first step; an MMA that has performed its last
K step leaves the queue and counts in MMA_DONE. -/
def Obligations.MultiplyAccumulate : Prop :=
  (∀ (s : State) (c : Nat) (e : ArrEnt) (rest : List ArrEnt) (ta tb : Nat), (s.core c).arr = e :: rest → e.isMma = true →
    e.a = .tile ta false → e.b = .tile tb false → ta < 8 → tb < 8 → e.fold = 1 → e.k = e.kDone + 1 → e.scales = some (0, [0]) →
    e.mxA = none → e.mxB = none → e.ns = [e.n] → e.m ≤ 64 → e.n ≤ 128 → e.acc < 2 → arrStopped s c = false →
    Gives (.feederSlotRelease c) s fun t =>
      (∃ e', (t.core c).arr = e' :: rest ∧ e'.kDone = e.k ∧ e'.isMma = true ∧ e'.k = e.k) ∧
      ∀ i j, i < e.m → j < e.n →
        let old := if e.ovw = true ∧ e.kDone = 0 then 0 else (el32 (tget 0 (s.core c).eng.acc (e.acc * 64 + i)) j).toNat
        let x := fdec e.fmtA (tileEl (s.core c) ta false i e.kDone)
        let y := fdec e.fmtB (tileEl (s.core c) tb false e.kDone j)
        el32 (tget 0 (t.core c).eng.acc (e.acc * 64 + i)) j = BitVec.ofNat 32 (add32 old (fround 0 (fscale 0 (fmul x y))))) ∧
  (∀ (s : State) (c : Nat) (e : ArrEnt) (rest : List ArrEnt), (s.core c).arr = e :: rest → e.isMma = true → e.kDone = e.k →
    Gives (.mmaComplete c) s fun t =>
      (t.core c).arr = rest ∧ t.reg (rMMA_DONE c) = s.reg (rMMA_DONE c) + 1 ∧ (t.core c).eng = (s.core c).eng)

/-- R118, R126, R127, R129, R132: the next drain in order reads its accumulator, which keeps its content, after every earlier MMA into
it: each element times 2^s is converted in row-major order, with the draws of RM = 1 taken from the core's generator, |v| of the
finite ones enters amax, and NF is set by a non-finite value or result, or by the accumulator's NF or ERR.  Its rows are then
written, to a tile, which is FULL and takes NF, or to the scratchpad; an untagged drain leaves the queue there and counts in
DRAIN_DONE, a tagged one sends its merge and does so when that has been accepted. -/
def Obligations.Drain : Prop :=
  let plain := fun (q : List ArrEnt) => q.map fun d => { d with behind := 0 }
  (∀ (s : State) (c : Nat) (l rest : List ArrEnt) (e : ArrEnt), (s.core c).arr = l ++ e :: rest → e.isMma = false →
    e.readDone = false → (∀ d ∈ l, d.isMma = true ∨ d.readDone = true) →
    ((∃ d ∈ l, d.isMma = true ∧ d.acc = e.acc) → exec (.mdrainReadEnd c) s = .next s) ∧
    (let k := s.core c
     let tag := effTag s (s.part c) e.tag
     let b := fmtWidth e.fmt
     let sc := if tag = 0 then 0 else gaugeS s tag
     let sat := decide (tag ≠ 0) && fbit (s.gw tag 0) gSAT
     let x := fun i j => accEl k.eng e i (e.coff * 64 + j)
     let o := fun i j =>
       fconv e.fmt sat (if e.rm = 1 then some (drawN (i * e.n + j + 1) k.sr) else none) (fscale sc (fdec 0 (x i j)))
     (∀ d ∈ l, d.isMma = true → d.acc ≠ e.acc) → arrStopped s c = false → fmtOk e.fmt = true → 8 ∣ e.n * b →
     tag = 0 ∨ gaugeBad s tag = false → Gives (.mdrainReadEnd c) s fun t =>
       ∃ e', (t.core c).arr = l ++ e' :: rest ∧
         e' = { e with readDone := true, tag := tag, out := e'.out, amax := e'.amax, nf := e'.nf } ∧ e'.out.length = e.m ∧
         (∀ i, i < e.m → ∃ bs, bs.length = e.n * b / 8 ∧ (∀ j, j < e.n → leNat bs / 2 ^ (b * j) % 2 ^ b = o i j % 2 ^ b) ∧
           e'.out[i]? = some (if e.dstSpad then rowVa (BitVec.ofNat 64 e.base) (BitVec.ofNat 64 e.pitch) i - spadBase s (s.part c) else i,
             bs)) ∧
         (∀ i j, i < e.m → j < e.n → (fdec 0 (x i j)).isFin = true → x i j % 2 ^ 31 ≤ e'.amax) ∧
         (e'.amax = 0 ∨ ∃ i j, i < e.m ∧ j < e.n ∧ (fdec 0 (x i j)).isFin = true ∧ x i j % 2 ^ 31 = e'.amax) ∧
         (e'.nf = true ↔ tget false k.eng.accNf e.acc = true ∨ tget false k.eng.accErr e.acc = true ∨
           ∃ i j, i < e.m ∧ j < e.n ∧ ((fdec 0 (x i j)).isFin = false ∨ fNonFin e.fmt (o i j) = true)) ∧
         (t.core c).sr = (if e.rm = 1 then drawN (e.m * e.n) k.sr else k.sr) ∧ (t.core c).eng = k.eng ∧ t.mem = s.mem)) ∧
  (∀ (s : State) (c : Nat) (l rest : List ArrEnt) (e : ArrEnt), (s.core c).arr = l ++ e :: rest → e.isMma = false →
    e.readDone = true → e.written = false → (∀ d ∈ l, d.isMma = true ∨ d.written = true) →
    let k := s.core c
    let gone := fun (t : State) => plain (t.core c).arr = plain (l ++ rest) ∧ t.reg (rDRAIN_DONE c) = s.reg (rDRAIN_DONE c) + 1 ∧
      t.mem = s.mem ∧ ∀ d, d ≠ c → t.core d = s.core d
    let free := (∀ d ∈ l, d.uses e.td = false) ∧ ∀ y ∈ k.stores, y.2.2 ≠ e.td + 1
    (e.tag = 0 → e.dstSpad = false → free → e.td < 8 → (∀ y ∈ e.out, y.1 < 64) → (e.out.map Prod.fst).Nodup → e.out ≠ [] →
      Gives (.mdrainWritten c) s fun t => gone t ∧ (t.core c).full e.td = true ∧
        (∀ y ∈ e.out, (t.core c).row e.td y.1 = BitVec.ofNat 2048 (leNat y.2)) ∧
        fbit ((t.core c).tcf e.td) TCFG_NF = (fbit (k.tcf e.td) TCFG_NF || e.nf) ∧
        ∀ u, u ≠ e.td → (t.core c).full u = k.full u ∧ (t.core c).tcf u = k.tcf u ∧ ∀ r, r < 64 → (t.core c).row u r = k.row u r) ∧
    (e.tag = 0 → e.dstSpad = true → (e.out.Pairwise fun y z => y.1 + y.2.length ≤ z.1 ∨ z.1 + z.2.length ≤ y.1) →
      Gives (.mdrainWritten c) s fun t => gone t ∧ (t.core c).eng = k.eng ∧
        (∀ y ∈ e.out, ∀ q, q < y.2.length → spadByte t c (y.1 + q) = y.2.getD q 0) ∧
        ∀ a, (∀ y ∈ e.out, a < y.1 ∨ y.1 + y.2.length ≤ a) → spadByte t c a = spadByte s c a) ∧
    (∀ x, e.tag ≠ 0 → k.freeTx = some x → e.dstSpad = true ∨ free → Gives (.mdrainWritten c) s fun t =>
      plain (t.core c).arr = plain (l ++ { e with written := true, txid := some x } :: rest) ∧
      (t.core c).merges = k.merges ++ [(x, e.ctx)] ∧ t.reg (rDRAIN_DONE c) = s.reg (rDRAIN_DONE c) ∧ t.mem = s.mem ∧
      ∃ p, (p ∈ t.net ∨ p ∈ (t.core c).outq) ∧ p.op = opMERGE ∧ p.tag = e.tag ∧ p.nf = e.nf ∧ p.txid = x ∧ p.src = c ∧
        p.dst = epSlice (gaugeHome s e.tag) ∧ p.payload = BitVec.ofNat 1024 e.amax)) ∧
  (∀ (s : State) (c : Nat) (l rest : List ArrEnt) (e : ArrEnt), (s.core c).arr = l ++ e :: rest → e.isMma = false →
    e.written = true → (∀ d ∈ l, d.isMma = true ∨ d.written = false) →
    ((∃ m ∈ (s.core c).merges, some m.1 = e.txid) → exec (.mdrainComplete c) s = .next s) ∧
    ((∀ m ∈ (s.core c).merges, some m.1 ≠ e.txid) → Gives (.mdrainComplete c) s fun t =>
      plain (t.core c).arr = plain (l ++ rest) ∧ t.reg (rDRAIN_DONE c) = s.reg (rDRAIN_DONE c) + 1 ∧
      (t.core c).eng = (s.core c).eng ∧ t.mem = s.mem))

/-! The vector engine. -/

/-- R170, R171, R172, R174, R175: the floating-point classes at widths 0 to 2, each element rounded once; VSCAL takes the low bits of a
g register as its scalar; FP32 conversions and SCALEB at width 0; SEL writes every element; width 3 is ILLEGAL. -/
def Obligations.VectorArithmetic : Prop :=
  ∀ (s : State) (c vd va vb pm z w : Nat), vd < 32 → va < 32 → vb < 32 →
    let e := (s.core c).eng
    let x := fun j => fdec w (vEl w (e.vr va) j)
    let y := fun j => fdec w (vEl w (e.vr vb) j)
    let d := fun j => fdec w (vEl w (e.vr vd) j)
    let k := fdec w ((s.g c vb).toNat % 2 ^ vBits w)
    let goes := fun (i : Instr) (srcs : List Nat) (f : Nat → FVal) => VecFloat i s c w pm z vd srcs fun j => fround w (f j)
    (EngReady s c [] → w < 3 →
      goes (.varithAdd c vd va vb pm z w) [va, vb] (fun j => fadd (x j) (y j)) ∧
      goes (.varithSub c vd va vb pm z w) [va, vb] (fun j => fadd (x j) (fneg (y j))) ∧
      goes (.varithMul c vd va vb pm z w) [va, vb] (fun j => fmul (x j) (y j)) ∧
      goes (.varithDiv c vd va vb pm z w) [va, vb] (fun j => fdiv (x j) (y j)) ∧
      goes (.varithMin c vd va vb pm z w) [va, vb] (fun j => fmin (x j) (y j)) ∧
      goes (.varithMax c vd va vb pm z w) [va, vb] (fun j => fmaxV (x j) (y j)) ∧
      goes (.varithAbs c vd va vb pm z w) [va] (fun j => fabs (x j)) ∧
      goes (.varithNeg c vd va vb pm z w) [va] (fun j => fneg (x j)) ∧
      goes (.varithSqrt c vd va vb pm z w) [va] (fun j => fsqrt (x j)) ∧
      goes (.vfma c vd va vb pm z w) [va, vb, vd] (fun j => fadd (fmul (x j) (y j)) (d j)) ∧
      goes (.vfmaSub c vd va vb pm z w) [va, vb, vd] (fun j => fadd (fmul (x j) (y j)) (fneg (d j))) ∧
      goes (.vfmaNeg c vd va vb pm z w) [va, vb, vd] (fun j => fadd (fneg (fmul (x j) (y j))) (d j)) ∧
      VecFloat (.varithMov c vd va vb pm z w) s c w pm z vd [va] (fun j => vEl w (e.vr va) j) ∧
      (let f := fun j => if active w (e.pr pm) j = true then vEl w (e.vr va) j else vEl w (e.vr vb) j
       VecWrites (.varithSel c vd va vb pm z w) s c w vd f
         ((∃ j, j < vEls w ∧ fNonFin w (f j) = true) ∨ e.nfOf va = true ∨ e.nfOf vb = true))) ∧
    (EngReady s c [] → w = 0 →
      VecMerges (.cvtfi c vd va vb pm z w) s c w pm z vd (fun j => fToI32 (x j))
        (e.nfOf va = true ∨ (z = 0 ∧ pm ≠ 0 ∧ e.nfOf vd = true)) ∧
      goes (.cvtif c vd va vb pm z w) [va] (fun j => i32Val (vEl 0 (e.vr va) j)) ∧
      goes (.scaleb c vd va vb pm z w) [va, vb] (fun j => fscale (scalebVal (sext 32 (vEl 0 (e.vr vb) j))) (x j))) ∧
    (EngReady s c [vb] → w < 3 →
      goes (.vscalAdd c vd va vb pm z w) [va] (fun j => fadd (x j) k) ∧
      goes (.vscalSub c vd va vb pm z w) [va] (fun j => fadd (x j) (fneg k)) ∧
      goes (.vscalMul c vd va vb pm z w) [va] (fun j => fmul (x j) k) ∧
      goes (.vscalDiv c vd va vb pm z w) [va] (fun j => fdiv (x j) k) ∧
      goes (.vscalMin c vd va vb pm z w) [va] (fun j => fmin (x j) k) ∧
      goes (.vscalMax c vd va vb pm z w) [va] (fun j => fmaxV (x j) k)) ∧
    (EngReady s c [] →
      Traps (.varithAdd c vd va vb pm z 3) s c .illegal (BitVec.ofNat 64 (encV 0x30 vd va vb pm z 3 0)) ∧
      Traps (.vfma c vd va vb pm z 3) s c .illegal (BitVec.ofNat 64 (encV 0x32 vd va vb pm z 3 0)) ∧
      (w ≠ 0 → Traps (.cvtfi c vd va vb pm z w) s c .illegal (BitVec.ofNat 64 (encV 0x30 vd va vb pm z w 9))))

/-- R171, R175: the integer class at width 3, shift amounts in bits 4:0; other widths are ILLEGAL. -/
def Obligations.VectorInteger : Prop :=
  ∀ (s : State) (c vd va vb pm z : Nat), EngReady s c [] → vd < 32 →
    let e := (s.core c).eng
    let x := fun j => el32 (e.vr va) j
    let y := fun j => el32 (e.vr vb) j
    let goes := fun (i : Instr) (f : Nat → W32) =>
      VecMerges i s c 3 pm z vd (fun j => (f j).toNat) (e.nfOf va = true ∨ e.nfOf vb = true)
    goes (.vintAdd c vd va vb pm z 3) (fun j => x j + y j) ∧
    goes (.vintSub c vd va vb pm z 3) (fun j => x j - y j) ∧
    goes (.vintMul c vd va vb pm z 3) (fun j => x j * y j) ∧
    goes (.vintAnd c vd va vb pm z 3) (fun j => x j &&& y j) ∧
    goes (.vintOr c vd va vb pm z 3) (fun j => x j ||| y j) ∧
    goes (.vintXor c vd va vb pm z 3) (fun j => x j ^^^ y j) ∧
    goes (.vintSll c vd va vb pm z 3) (fun j => x j <<< (y j &&& 31).toNat) ∧
    goes (.vintSrl c vd va vb pm z 3) (fun j => x j >>> (y j &&& 31).toNat) ∧
    goes (.vintSra c vd va vb pm z 3) (fun j => (x j).sshiftRight (y j &&& 31).toNat) ∧
    goes (.vintMin c vd va vb pm z 3) (fun j => if (x j).toInt ≤ (y j).toInt then x j else y j) ∧
    goes (.vintMax c vd va vb pm z 3) (fun j => if (x j).toInt ≤ (y j).toInt then y j else x j) ∧
    (∀ w, w ≠ 3 → Traps (.vintAdd c vd va vb pm z w) s c .illegal (BitVec.ofNat 64 (encV 0x31 vd va vb pm z w 0)))

/-- R175: comparisons write a predicate, 0 for a masked-off element, false for NaN except NE and UNORD; VPRED combines predicates, FROMG and
TOG move them; a predicate number above 7 is ILLEGAL. -/
def Obligations.VectorPredicates : Prop :=
  ∀ (s : State) (c vd va vb pm z w : Nat),
    let e := (s.core c).eng
    let x := fun j => fdec 0 (vEl 0 (e.vr va) j)
    let y := fun j => fdec 0 (vEl 0 (e.vr vb) j)
    let a := fun j => sext 32 (vEl 0 (e.vr va) j)
    let b := fun j => sext 32 (vEl 0 (e.vr vb) j)
    let un := fun j => x j == .nan || y j == .nan
    let act := fun j => (e.pr pm).getLsbD j
    (EngReady s c [] → vd < 8 →
      PredWrites (.vcmpEq c vd va vb pm z 0) s c vd (fun j => act j && feq (x j) (y j)) ∧
      PredWrites (.vcmpNe c vd va vb pm z 0) s c vd (fun j => act j && !feq (x j) (y j)) ∧
      PredWrites (.vcmpLt c vd va vb pm z 0) s c vd (fun j => act j && flt false (x j) (y j)) ∧
      PredWrites (.vcmpLe c vd va vb pm z 0) s c vd (fun j => act j && (flt false (x j) (y j) || feq (x j) (y j))) ∧
      PredWrites (.vcmpGt c vd va vb pm z 0) s c vd (fun j => act j && (!un j && !flt false (x j) (y j) && !feq (x j) (y j))) ∧
      PredWrites (.vcmpGe c vd va vb pm z 0) s c vd (fun j => act j && (!un j && !flt false (x j) (y j))) ∧
      PredWrites (.vcmpUnord c vd va vb pm z 0) s c vd (fun j => act j && un j) ∧
      PredWrites (.vcmpEq c vd va vb pm z 3) s c vd (fun j => act j && decide (a j = b j)) ∧
      PredWrites (.vcmpNe c vd va vb pm z 3) s c vd (fun j => act j && decide (a j ≠ b j)) ∧
      PredWrites (.vcmpLt c vd va vb pm z 3) s c vd (fun j => act j && decide (a j < b j)) ∧
      PredWrites (.vcmpLe c vd va vb pm z 3) s c vd (fun j => act j && decide (a j ≤ b j)) ∧
      PredWrites (.vcmpGt c vd va vb pm z 3) s c vd (fun j => act j && decide (b j < a j)) ∧
      PredWrites (.vcmpGe c vd va vb pm z 3) s c vd (fun j => act j && decide (b j ≤ a j)) ∧
      PredWrites (.vcmpUnord c vd va vb pm z 3) s c vd (fun _ => false)) ∧
    (EngReady s c [] → vd < 8 → va < 8 → vb < 8 →
      PredWrites (.vpredAnd c vd va vb pm z w) s c vd (fun j => (e.pr va &&& e.pr vb).getLsbD j) ∧
      PredWrites (.vpredOr c vd va vb pm z w) s c vd (fun j => (e.pr va ||| e.pr vb).getLsbD j) ∧
      PredWrites (.vpredXor c vd va vb pm z w) s c vd (fun j => (e.pr va ^^^ e.pr vb).getLsbD j) ∧
      PredWrites (.vpredAndn c vd va vb pm z w) s c vd (fun j => (e.pr va &&& ~~~e.pr vb).getLsbD j)) ∧
    (EngReady s c [va] → vd < 8 → PredWrites (.fromg c vd va vb pm z w) s c vd (fun j => (s.g c va).getLsbD j)) ∧
    (EngReady s c [vd] → va < 8 → VecToG (.tog c vd va vb pm z w) s c vd (e.pr va)) ∧
    (EngReady s c [] → 8 ≤ vd ∨ w = 1 ∨ w = 2 →
      Traps (.vcmpEq c vd va vb pm z w) s c .illegal (BitVec.ofNat 64 (encV 0x34 vd va vb pm z w 0))) ∧
    (EngReady s c [] → 8 ≤ vd ∨ 8 ≤ va ∨ 8 ≤ vb →
      Traps (.vpredAnd c vd va vb pm z w) s c .illegal (BitVec.ofNat 64 (encV 0x35 vd va vb pm z w 0)))

/-- R175, R179: the permutes, which are ILLEGAL for an element index not below the number of elements, ROT excepted; a widening VCVT
writes the elements of a part times 2^−s, a narrowing one converts va times 2^s into its part, leaves the rest of vd, and with a
tag sends one merge to the Gauge entry. -/
def Obligations.VectorPermutesAndConversions : Prop :=
  (∀ (s : State) (c vd va vb pm z w : Nat), w < 4 → vd < 32 → va < 32 →
    let e := (s.core c).eng
    let n := (s.g c vb).toNat
    let nf := fun f => (w = 3 ∧ e.nfOf va = true) ∨ (w ≠ 3 ∧ NfRule s c w pm z vd [va] f)
    (EngReady s c [vb] → n < vEls w →
      VecMerges (.bcast c vd va vb pm z w) s c w pm z vd (fun _ => vEl w (e.vr va) n) (nf fun _ => vEl w (e.vr va) n)) ∧
    (EngReady s c [vb] →
      VecMerges (.rot c vd va vb pm z w) s c w pm z vd (fun j => vEl w (e.vr va) ((j + n) % vEls w))
        (nf fun j => vEl w (e.vr va) ((j + n) % vEls w))) ∧
    (EngReady s c [vd, vb] → n < vEls w → VecToG (.vext c vd va vb pm z w) s c vd (BitVec.ofNat 64 (vEl w (e.vr va) n))) ∧
    (EngReady s c [va, vb] → n < vEls w →
      let x := (s.g c va).toNat % 2 ^ vBits w
      VecMerges (.vins c vd va vb pm z w) s c w pm z vd (fun j => if j = n then x else vEl w (e.vr vd) j)
        (e.nfOf vd = true ∨ (w ≠ 3 ∧ active w (e.pr pm) n = true ∧ fNonFin w x = true))) ∧
    (EngReady s c [vb] → vEls w ≤ n →
      Traps (.bcast c vd va vb pm z w) s c .illegal (BitVec.ofNat 64 (encV 0x36 vd va vb pm z w 0)))) ∧
  (∀ (s : State) (c vd va nfmt part rm w : Nat), EngReady s c [] → vd < 32 → vcvtLegal nfmt part 0 w = true →
    let k := s.core c
    let e := k.eng
    let u := fetched c s
    let tag := effTag u (u.part c) (fget e.vctl VCTL_TAG)
    let sc := if tag = 0 then 0 else gaugeS u tag
    let b := fmtWidth nfmt
    (tag = 0 ∨ gaugeBad u tag = false) →
    (let f := fun j => fround w (fscale (-sc) (fdec nfmt (elW b (e.vr va) (part * vEls w + j))))
     VecWrites (.vcvtWiden c vd va nfmt part rm 0 w) s c w vd f
       (e.nfOf va = true ∨ ∃ j, j < vEls w ∧ fNonFin w (f j) = true)) ∧
    (∀ x, k.freeTx = some x →
      let sat := decide (tag ≠ 0) && fbit (u.gw tag 0) gSAT
      let o := fun j => fconv nfmt sat (if rm = 1 then some (drawN (j + 1) k.sr) else none) (fscale sc (fdec w (vEl w (e.vr va) j)))
      Gives (.vcvtNarrow c vd va nfmt part rm 0 w) s fun t =>
        VecRan s t c ∧ OnlyV s t c vd ∧
        (∀ q, (q + 1) * b ≤ 2048 → elW b ((t.core c).eng.vr vd) q =
          if part * vEls w ≤ q ∧ q < (part + 1) * vEls w then o (q - part * vEls w) % 2 ^ b else elW b (e.vr vd) q) ∧
        ((t.core c).eng.nfOf vd = true ↔
          (∃ j, j < vEls w ∧ (fNonFin nfmt (o j) = true ∨ (fdec w (vEl w (e.vr va) j)).isFin = false)) ∨ e.nfOf va = true ∨
            (vEls w * b < 2048 ∧ e.nfOf vd = true)) ∧
        (t.core c).sr = (if rm = 1 then drawN (vEls w) k.sr else k.sr) ∧
        (tag ≠ 0 → (t.core c).merges = k.merges ++ [(x, k.run)] ∧
          ∃ p, (p ∈ t.net ∨ p ∈ (t.core c).outq) ∧ p.op = opMERGE ∧ p.tag = tag ∧ p.txid = x ∧ p.src = c ∧
            p.dst = epSlice (gaugeHome u tag))))

/-- R174, R176, R177, R178, R101: VCFG writes VCTL; VLD and VST, here of the core's own scratchpad, move the active words at GA +
sext(IMM12) × 16 and no other; VTR reads a row or an element column of a FULL tile, VTW writes a row and makes the tile FULL; an unaligned
address, an illegal VCTL value and a TR of 1 in VTW are refused by their exceptions. -/
def Obligations.VectorMemoryAndTiles : Prop :=
  (∀ (s : State) (c ga : Nat), EngReady s c [ga] →
    (vctlLegal (s.g c ga) = true → Gives (.vcfg c 0 ga 0) s fun t =>
      VecRan s t c ∧ (t.core c).eng = { (s.core c).eng with vctl := s.g c ga }) ∧
    (vctlLegal (s.g c ga) = false → Traps (.vcfg c 0 ga 0) s c .illegal (BitVec.ofNat 64 ((ga <<< 22) ||| 0x3F)))) ∧
  (∀ (s : State) (c vd ga pm imm : Nat), EngReady s c [ga] → vd < 32 → imm < 2 ^ 12 →
    let e := (s.core c).eng
    let va := (s.g c ga + (BitVec.ofNat 12 imm).signExtend 64 * 16).toNat
    let act := fun j => (e.pr pm).getLsbD j = true
    (va % 16 = 0 → (∀ j, j < 64 → act j → SpadArea s c (va + 4 * j) 4) →
      (Gives (.vld c vd ga pm imm) s fun t => VecRan s t c ∧ OnlyV s t c vd ∧
        (∀ j, j < 64 → (act j → vEl 0 ((t.core c).eng.vr vd) j = spadNat s c (va + 4 * j) 4) ∧
          (¬ act j → vEl 0 ((t.core c).eng.vr vd) j = vEl 0 (e.vr vd) j)) ∧
        ((t.core c).eng.nfOf vd = true ↔ e.pr pm ≠ BitVec.allOnes 64 ∧ e.nfOf vd = true)) ∧
      (Gives (.vst c vd ga pm imm) s fun t => VecRan s t c ∧ (t.core c).eng = e ∧
        (∀ j i, j < 64 → act j → i < 4 →
          spadByte t c (va + 4 * j + i - spadBase s (s.part c)) = (e.vr vd).extractLsb' (8 * (4 * j + i)) 8) ∧
        (∀ o, (∀ j i, j < 64 → act j → i < 4 → o ≠ va + 4 * j + i - spadBase s (s.part c)) → spadByte t c o = spadByte s c o))) ∧
    (va % 16 ≠ 0 →
      Traps (.vld c vd ga pm imm) s c .misalign (BitVec.ofNat 64 va) ∧ Traps (.vst c vd ga pm imm) s c .misalign (BitVec.ofNat 64 va))) ∧
  (∀ (s : State) (c vd ga tt : Nat), EngReady s c [ga] → TileOpen s c tt → vd < 32 →
    let k := s.core c
    let n := (s.g c ga).toNat
    let b := fmtWidth (fget (k.tcf tt) TCFG_FMT)
    (n < k.rowsOf tt → k.full tt = true → Gives (.vtr c vd ga tt 0 0) s fun t => VecRan s t c ∧ OnlyV s t c vd ∧
      ((t.core c).eng.vr vd).toNat = (k.row tt n).toNat % 2 ^ (8 * k.rbOf tt) ∧
      (t.core c).eng.nfOf vd = fbit (k.tcf tt) TCFG_NF) ∧
    (n < k.elsOf tt → k.full tt = true → Gives (.vtr c vd ga tt 1 0) s fun t => VecRan s t c ∧ OnlyV s t c vd ∧
      (∀ r, r < k.rowsOf tt → (r + 1) * b ≤ 2048 → elW b ((t.core c).eng.vr vd) r = elW b (k.row tt r) n % 2 ^ b) ∧
      (t.core c).eng.nfOf vd = fbit (k.tcf tt) TCFG_NF) ∧
    (n < k.rowsOf tt → Gives (.vtw c vd ga tt 0 0) s fun t => VecRan s t c ∧ (t.core c).full tt = true ∧
      ((t.core c).row tt n).toNat = (k.eng.vr vd).toNat % 2 ^ (8 * k.rbOf tt) ∧
      fbit ((t.core c).tcf tt) TCFG_NF = (fbit (k.tcf tt) TCFG_NF || k.eng.nfOf vd) ∧
      (k.full tt = true → ∀ r, r < 64 → r ≠ n → (t.core c).row tt r = k.row tt r)) ∧
    (n < k.rowsOf tt → k.full tt = false → Traps (.vtr c vd ga tt 0 0) s c .tileEmpty (BitVec.ofNat 64 tt)) ∧
    (k.rowsOf tt ≤ n → Traps (.vtr c vd ga tt 0 0) s c .tileShape (shapeOne tt) ∧ Traps (.vtw c vd ga tt 0 0) s c .tileShape (shapeOne tt)) ∧
    Traps (.vtw c vd ga tt 1 0) s c .illegal (BitVec.ofNat 64 (encVT vd ga tt 1 0 1)))

/-- R189, R190, R186, R181: a reduction of 2^g registers, or of a row of an untagged tile, writes the value of its tree to the active
elements; a table function writes f of each FP32 element, and an invalid slot is ILLEGAL; VMXS writes a scale byte for each block of
32 and the scaled elements.  What a table gives at a point is the model's reading of R184 to R187 (log 30). -/
def Obligations.VectorReductionsAndTables : Prop :=
  (∀ (s : State) (c vd va vb pm g w : Nat), EngReady s c [] → vd < 32 → g < 4 → w < 3 → va % 2 ^ g = 0 → vb % 2 ^ g = 0 →
    let e := (s.core c).eng
    let els := fun v => (List.range (2 ^ g * vEls w)).map fun q => fdec w (vEl w (e.vr (v + q / vEls w)) (q % vEls w))
    let add := fun a b => fdec 0 (fround 0 (fadd a b))
    let mx := fun a b => fdec 0 (fround 0 (fmaxV a b))
    let n := g + (if w = 0 then 6 else 7)
    let regs := fun v => (List.range (2 ^ g)).map fun r => v + r
    let goes := fun (i : Instr) (srcs : List Nat) (x : FVal) => VecFloat i s c w pm 0 vd srcs fun _ => fround w x
    goes (.vredSum c vd va vb pm g 0 w) (regs va) (treeOf add n (els va)) ∧
    goes (.vredMax c vd va vb pm g 0 w) (regs va) (treeOf mx n (els va)) ∧
    goes (.vredSumsq c vd va vb pm g 0 w) (regs va) (treeOf add n ((els va).map fun x => fmul x x)) ∧
    goes (.vredDot c vd va vb pm g 0 w) (regs va ++ regs vb) (treeOf add n (List.zipWith fmul (els va) (els vb)))) ∧
  (∀ (s : State) (c vd tt vb pm g w : Nat), EngReady s c [vb] → TileOpen s c tt → vd < 32 → w < 3 → (s.core c).full tt = true →
    let k := s.core c
    let r := (s.g c vb).toNat
    let f := fget (k.tcf tt) TCFG_FMT
    let els := (List.range (k.elsOf tt)).map fun j => fdec f (elW (fmtWidth f) (k.row tt r) j)
    r < k.rowsOf tt → fget (k.tcf tt) TCFG_TAG = 0 →
    VecFloat (.vredSum c vd tt vb pm g 1 w) s c w pm 0 vd [] (fun _ => fround w (reduce false (els.map (fscale 0))))) ∧
  (∀ (s : State) (c vd va slot d pm z w : Nat), EngReady s c [] → vd < 32 → w < 3 →
    (slotValid s c slot = true → VecFloat (.vfun c vd va slot d pm z w 0) s c w pm z vd [va]
      (fun j => fround w (fdec 0 (fnEval (s.core c) slot d (fround 0 (fdec w (vEl w ((s.core c).eng.vr va) j))))))) ∧
    (slotValid s c slot = false →
      Traps (.vfun c vd va slot d pm z w 0) s c .illegal (BitVec.ofNat 64 (encVF vd va slot d pm z w 0)))) ∧
  (∀ (s : State) (c vd va vb byte w : Nat), EngReady s c [] → vd < 32 → vb < 32 → w < 3 → vb ≠ va → vb ≠ vd → byte + vEls w / 32 - 1 ≤ 255 →
    let e := (s.core c).eng
    let emax : Int := if fget e.vctl VCTL_MXFMT = 5 then 4 else 2
    let x := fun b => mxScale emax ((List.range 32).map fun j => fdec w (vEl w (e.vr va) (32 * b + j)))
    Gives (.vmxs c vd va vb byte w) s fun t => VecRan s t c ∧
      (∀ b, b < vEls w / 32 → elW 8 ((t.core c).eng.vr vb) (byte + b) = x b) ∧
      (∀ n, n < 256 → n < byte ∨ byte + vEls w / 32 ≤ n → elW 8 ((t.core c).eng.vr vb) n = elW 8 (e.vr vb) n) ∧
      (∀ j, j < vEls w → vEl w ((t.core c).eng.vr vd) j =
        (if x (j / 32) = 255 then vEl w (e.vr va) j
         else fround w (fscale (127 - (x (j / 32) : Int)) (fdec w (vEl w (e.vr va) j)))) % 2 ^ vBits w) ∧
      ∀ v, v ≠ vd → v ≠ vb → (t.core c).eng.vr v = e.vr v)

/-- R187, R191, R192, R193: VFLOAD makes its slot invalid and waits for the image; with the whole image the slot holds it and is valid when
it is legal; VFACT factors the finite lower triangle of TA into TD, 0 above the diagonal, and VSOLVE solves with a factor, each
step in FP32 in ascending order. -/
def Obligations.TableLoadAndFactorisation : Prop :=
  (∀ (s : State) (c slot ga : Nat), Ready s c [ga] → statusBit (s.cur c) 0 = true → 7 ≤ slot → slot < 16 →
    let va := (s.g c ga).toNat
    (va % 16 = 0 → SpadArea s c va imgBytes → Gives (.vfload c slot 0 ga 0) s fun t =>
      (t.cur c).wait = .vfload slot va ∧ slotValid t c slot = false ∧ (t.cur c).pc = (s.cur c).pc ∧
      ∀ q, q ≠ slot → slotValid t c q = slotValid s c q) ∧
    (statusBit (s.cur c) 4 = false → va % 16 ≠ 0 → Gives (.vfload c slot 0 ga 0) s fun t =>
      slotValid t c slot = false ∧ (t.cur c).ecause = BitVec.ofNat 64 Exc.misalign.code ∧ (t.cur c).eval = BitVec.ofNat 64 va)) ∧
  (∀ (s : State) (c slot va : Nat), (s.cur c).wait = .vfload slot va → slot < 16 → SpadArea s c va imgBytes →
    Gives (.vfloadDone c) s fun t =>
      tget 0 (t.core c).slots slot = BitVec.ofNat 67584 (spadNat s c va imgBytes) ∧
      slotValid t c slot = imgLegal (BitVec.ofNat 67584 (spadNat s c va imgBytes)) ∧ (t.cur c).wait = .none ∧
      (t.cur c).pc = (s.cur c).pc + 4 ∧ (t.core c).eng = (s.core c).eng) ∧
  (∀ (s : State) (c td ga ta gb : Nat), EngReady s c [ga, gb] → TileOpen s c td → TileOpen s c ta → (s.core c).full ta = true →
    let k := s.core c
    let n := (s.g c ga).toNat
    let tau := (s.g c gb).toNat % 2 ^ 32
    let tabs := (s.g c gb).toNat / 2 ^ 32
    let a := fun i j => k.el ta i j
    let dmax := (List.range n).foldl (fun m i => max32 m (a i i % 2 ^ 31)) 0
    let fl := if (fdec 0 (mul32 tau dmax)).isZero = true then tabs else mul32 tau dmax
    0 < n → n ≤ 64 → flt false (fdec 0 tau) (.fin false 0 0) = false → (fdec 0 tau).isFin = true →
    flt false (.fin false 0 0) (fdec 0 tabs) = true → (fdec 0 tabs).isFin = true →
    factShape k n ta = false → factShape k n td = false → (∀ i j, i < n → j ≤ i → fNonFin 0 (a i j) = false) →
    Gives (.vfact c td ga ta gb 0) s fun t =>
      let l := fun i j => (t.core c).el td i j
      let rest := fun i j => less32 (a i j) (fun m => mul32 (l i m) (mul32 (l j m) (l m m))) j
      VecRan s t c ∧ (t.core c).full td = true ∧
      (∀ j, j < n → l j j = if flt false (fdec 0 (rest j j)) (fdec 0 fl) || fdec 0 (rest j j) == .nan || fdec 0 fl == .nan then fl else rest j j) ∧
      (∀ i j, i < n → j < i → l i j = div32 (rest i j) (l j j)) ∧ (∀ i j, j < n → i < j → l i j = 0)) ∧
  (∀ (s : State) (c vd va ga tf : Nat), EngReady s c [ga] → TileOpen s c tf → vd < 32 → (s.core c).full tf = true →
    let k := s.core c
    let n := (s.g c ga).toNat
    let l := fun i j => k.el tf i j
    0 < n → n ≤ 64 → factShape k n tf = false →
    Gives (.vsolve c vd va ga tf 0) s fun t => VecRan s t c ∧ OnlyV s t c vd ∧
      (∃ z : Nat → Nat, (∀ i, i < n → z i = sub32 (vEl 0 (k.eng.vr va) i) (sum32 (fun m => mul32 (l i m) (z m)) i)) ∧
        ∀ i, i < n → vEl 0 ((t.core c).eng.vr vd) i =
          sub32 (div32 (z i) (l i i)) (sum32 (fun m => mul32 (l (i + 1 + m) i) (vEl 0 ((t.core c).eng.vr vd) (i + 1 + m))) (n - 1 - i))) ∧
      ∀ j, n ≤ j → j < 64 → vEl 0 ((t.core c).eng.vr vd) j = 0)

/-! The Gauge. -/

/-- R162, R163, R164, R161: GROLL of a legal range retires with GD awaited and names the home slices of its tags; a slice's update of one tag
skips a tag the partition does not own, and rolls an owned one: AMAX and NF start the next step at 0, the old maximum enters the
history as the least BF16 value not below it, HP advances, and S becomes the largest shift that keeps the history's maximum in the
format, less the margin, clamped; the last report writes the count to GD. -/
def Obligations.GaugeRoll : Prop :=
  (∀ (s : State) (c gd ga gb : Nat), Ready s c [gd, ga, gb] →
    let a := (s.g c ga).toNat
    let b := (s.g c gb).toNat
    (1 ≤ b → a + b ≤ 65536 → Gives (.groll c gd ga gb 0) s fun t =>
      Passed s t c ∧ ∃ r, (t.core c).rolls = (s.core c).rolls ++ [r] ∧ r.gd = gd ∧ r.ctx = (s.core c).run ∧ r.part = s.part c ∧
        r.first = a ∧ r.count = b ∧ r.upd = 0 ∧ ∀ n, n < 256 → (n ∈ r.left ↔ ∃ j, j < b ∧ gaugeHome s (a + j) = n)) ∧
    (b = 0 ∨ 65536 < a + b → Traps (.groll c gd ga gb 0) s c .illegal (BitVec.ofNat 64 (encS 0x47 gd ga gb 0)))) ∧
  (∀ (s : State) (c n tag : Nat) (r : Groll) (rest : List Groll), (s.core c).rolls = r :: rest → r.first = tag → r.count = 1 →
    n ∈ r.left → gaugeHome s tag = n →
    (ownsTag s r.part tag = false → Gives (.grollSliceUpdate c n) s fun t =>
      (t.core c).rolls = { r with left := ldrop n r.left } :: rest ∧ t.mem = s.mem) ∧
    (ownsTag s r.part tag = true → GaugeGood s tag → s.flag (rSC_FLIP (n / 16)) SC_FLIP_ARM = false →
      fmtScaled (fget (s.gw tag 0) gFMT) = true → fbit (s.gw tag 0) gNF = false →
      ∀ m e, fdec 0 (fget (s.gw tag 1) gAMAX) = .fin false m e →
      Gives (.grollSliceUpdate c n) s fun t =>
        let hp := fget (s.gw tag 0) gHP
        let mg : Int := fget (s.gw tag 0) gMARGIN
        let h := (List.range (fget (s.gw tag 0) gLM1 + 1)).foldl (fun x j => max x (slotVal (histSlot t tag ((hp + 16 - j) % 16)))) 0
        (t.core c).rolls = { r with left := ldrop n r.left, upd := r.upd + 1 } :: rest ∧
        fget (t.gw tag 1) gAMAX = 0 ∧ fbit (t.gw tag 0) gNF = false ∧ fget (t.gw tag 0) gHP = (hp + 1) % 16 ∧
        fget (t.gw tag 0) gFMT = fget (s.gw tag 0) gFMT ∧ fget (t.gw tag 0) gUSES = fget (s.gw tag 0) gUSES ∧
        histSlot t tag hp = upBf16 m e ∧ (∀ q, q < 16 → q ≠ hp → histSlot t tag q = histSlot s tag q) ∧
        (h = 0 → gaugeS t tag = gaugeS s tag) ∧
        (0 < h → ∃ k hm he, fdec 1 h = .fin false hm he ∧
          magLt (fmaxVal (fget (s.gw tag 0) gFMT)).1 (fmaxVal (fget (s.gw tag 0) gFMT)).2 hm (he + k) = false ∧
          magLt (fmaxVal (fget (s.gw tag 0) gFMT)).1 (fmaxVal (fget (s.gw tag 0) gFMT)).2 hm (he + k + 1) = true ∧
          gaugeS t tag = clampI k (-128 + mg) (127 + mg) - mg))) ∧
  (∀ (s : State) (c : Nat) (r : Groll) (rest : List Groll), (s.core c).rolls = r :: rest → r.left = [] →
    Gives (.grollComplete c) s fun t =>
      (t.core c).rolls = rest ∧ ((t.core c).ctx r.ctx).gr r.gd = (if r.gd = 0 then 0 else BitVec.ofNat 64 r.upd) ∧
      (∀ i q, i ≠ r.ctx ∨ q ≠ r.gd → ((t.core c).ctx i).gr q = ((s.core c).ctx i).gr q) ∧ t.mem = s.mem)

/-- R155, R157, R159, R166, R167: a window READ copies an owned entry into GE_DATA, a WRITE puts the words of its mask into it and no others;
either fails for a tag the partition does not own; SR_SEED reaches every core of the partition, which takes it xor a multiple of
its ID, 1 for 0; a legal GRANGE is written and any other refused, as is a write without the right. -/
def Obligations.GaugeWindowAndSeeds : Prop :=
  (∀ (s : State) (o : Origin) (k : Nat), k < 8 → mayReg s o true (rGE_CMD k) = true →
    let tag := s.fld (rGE_INDEX k) GE_INDEX_TAG
    (ownsTag s k tag = true → GaugeGood s tag → Gives (.gaugeWindowRead o k) s fun t =>
      (∀ w, w < 16 → t.reg (rGE_DATA k w) = s.gw tag w) ∧ t.mem = s.mem ∧ t.rsp = .ok 0) ∧
    (ownsTag s k tag = false → Gives (.gaugeWindowRead o k) s fun t =>
      t.flag (rGE_STAT k) GE_STAT_FAIL = true ∧ t.mem = s.mem ∧ t.rsp = .ok 0) ∧
    (∀ mask, mask < 65536 → ownsTag s k tag = true → entryLegal s k mask = true → GaugeGood s tag →
      s.flag (rSC_FLIP (gaugeHome s tag / 16)) SC_FLIP_ARM = false → Gives (.gaugeWindowWrite o k mask) s fun t =>
        (∀ w, w < 16 → t.gw tag w = if mask.testBit w then s.reg (rGE_DATA k w) else s.gw tag w) ∧
        (∀ a, a < gaugePa s tag ∨ gaugePa s tag + 128 ≤ a → t.byte a = s.byte a) ∧ t.rsp = .ok 0) ∧
    (∀ mask, mask < 65536 → ownsTag s k tag = false ∨ entryLegal s k mask = false → Gives (.gaugeWindowWrite o k mask) s fun t =>
      t.flag (rGE_STAT k) GE_STAT_FAIL = true ∧ t.mem = s.mem)) ∧
  (∀ (s : State) (o : Origin) (k : Nat) (v : Word),
    (mayReg s o true (rSR_SEED k) = true → Gives (.srSeed o k v) s fun t =>
      (∀ c, c ∈ s.partCores k → ∃ d i, (t.core c).seed = some (v, d, i)) ∧
      (∀ c, c ∉ s.partCores k → t.core c = s.core c) ∧ t.rsp = .ok 0) ∧
    (mayReg s o true (rSR_SEED k) = false → Gives (.srSeed o k v) s fun t => t.cores = s.cores ∧ t.rsp = .err)) ∧
  (∀ (s : State) (c : Nat) (v : Word) (d i : Nat), (s.core c).seed = some (v, d, i) → Gives (.seedApply c) s fun t =>
    (let g := v ^^^ (0xA5C31F4D2B976E01#64 * BitVec.ofNat 64 (c + 1))
     (t.core c).sr = if g = 0 then 1 else g) ∧ (t.core c).seed = none ∧ (t.core c).eng = (s.core c).eng ∧ t.mem = s.mem) ∧
  (∀ (s : State) (o : Origin) (k : Nat) (v : Word),
    (mayReg s o true (rGRANGE k) = true → k < 8 → locked s (rGRANGE k) = false → grangeOk k v s = true →
      Gives (.grangeWrite o k v) s fun t => t.rsp = .ok 0 ∧ t.flag (rGRANGE k) GRANGE_EN = fbit v GRANGE_EN ∧
        t.fld (rGRANGE k) GRANGE_LO = fget v GRANGE_LO ∧ t.fld (rGRANGE k) GRANGE_HI = fget v GRANGE_HI) ∧
    (fget v GRANGE_LO = 0 ∨ fget v GRANGE_HI < fget v GRANGE_LO →
      Gives (.grangeWrite o k v) s fun t => t.rsp = .err ∧ t.reg (rGRANGE k) = s.reg (rGRANGE k)))

/-! Packets and homes. -/

/-- R20, R29, R45, R58, R236, R251, R260: at the home slice, a read of a line it holds is answered with the line's data, a read of one it does
not hold waits in the buffer; a write stores the bytes of its mask and no others, marks the frame T and is answered; an atomic
answers with the old data and stores the operation's result. -/
def Obligations.RequestsAtHome : Prop :=
  (∀ (s : State) (p : Packet), AtSlice s p opRD → p.tag = 0 →
    ((resident s (p.addr / 128)).isSome = true → Gives (.rd p) s fun t =>
      Sent t opRD_DATA p.dst p.src p.txid (s.rdLine (p.addr / 128)) ∧ t.mem = s.mem ∧
      (0x400 ≤ p.dst → p.dst < 0x500 → p.src < 0x400 → ∃ q ∈ t.net, q.op = opCREDIT ∧ q.dst = p.src ∧ q.src = p.dst)) ∧
    ((resident s (p.addr / 128)).isNone = true → Gives (.rd p) s fun t =>
      ∃ r, (t.slice (homeSlice s p.addr)).reqs = (s.slice (homeSlice s p.addr)).reqs ++ [r] ∧ r.pkt = p ∧ r.admitted = false ∧
        t.mem = s.mem)) ∧
  (∀ (s : State) (p : Packet), AtSlice s p opWR → (resident s (p.addr / 128)).isSome = true → p.tag = 0 → p.bad = 0 → p.snap = false →
    Gives (.wr p) s fun t =>
      (∀ j, j < 128 → t.byte (p.addr / 128 * 128 + j) =
        if p.mask.getLsbD j then p.payload.extractLsb' (8 * j) 8 else s.byte (p.addr / 128 * 128 + j)) ∧
      (∀ a, a / 128 ≠ p.addr / 128 → t.byte a = s.byte a) ∧ (t.le (frameOf p.addr)).t = true ∧
      (∃ q ∈ t.net, q.op = opWR_ACK ∧ q.dst = p.src ∧ q.txid = p.txid)) ∧
  (∀ (s : State) (p : Packet), AtSlice s p opATOM → (resident s (p.addr / 128)).isSome = true →
    let sz := if p.sub % 2 = 1 then 8 else 4
    let w := 8 * sz
    let o := s.rdNat p.addr sz
    let b := p.payload.toNat % 2 ^ w
    let g := p.payload.toNat / 2 ^ 64 % 2 ^ w
    p.addr % sz = 0 → Gives (.atom p) s fun t =>
      Sent t opRD_DATA p.dst p.src p.txid (s.rdLine (p.addr / 128)) ∧
      ∃ new, (∀ i, i < sz → t.byte (p.addr + i) = BitVec.ofNat 8 (new / 2 ^ (8 * i))) ∧
        (∀ a, a < p.addr ∨ p.addr + sz ≤ a → t.byte a = s.byte a) ∧
        (p.sub / 2 = 0 → new = b) ∧ (p.sub / 2 = 1 → new = (o + b) % 2 ^ w) ∧ (p.sub / 2 = 2 → new = o &&& b) ∧
        (p.sub / 2 = 3 → new = o ||| b) ∧ (p.sub / 2 = 4 → new = o ^^^ b) ∧
        (p.sub / 2 = 5 → new = if sext w o < sext w b then b else o) ∧ (p.sub / 2 = 6 → new = if sext w b < sext w o then b else o) ∧
        (p.sub / 2 = 7 → new = max o b) ∧ (p.sub / 2 = 8 → new = min o b) ∧ (p.sub / 2 = 9 → new = if o = g then b else o))

/-- R29, R32, R39, R236, R239, R260, R262, R265: the first buffered miss with room for its slots is admitted, and with no such miss nothing
happens; the requests of a line are answered when the memory has read it, once no recalibration holds its channel; the first
waiting LPDDR5X request with room enters its queue; a write-back that ends frees its slots; a merge raises AMAX and ORs NF, and of
a tag that its partition does not own it does neither and is counted; SPENT marks the tag at its slice; a prefetch waits behind the
demand requests of its home, and then reads without any side effect on memory. -/
def Obligations.HomeServices : Prop :=
  (∀ (s : State) (n : Nat), let rs := (s.slice n).reqs
    let fits := fun (r : SReq) => r.admitted = false ∧ roomFor s n r.pkt.addr = true ∧
      ∀ q ∈ rs, q.admitted = true → q.pkt.addr / 128 ≠ r.pkt.addr / 128
    let shown := fun (l : List SReq) => l.map fun q => (q.pkt, q.admitted)
    (∀ l r rest, rs = l ++ r :: rest → fits r → (∀ q ∈ l, ¬ fits q) → Gives (.sliceMissAdmit n) s fun t =>
      shown (t.slice n).reqs = shown l ++ (r.pkt, true) :: shown rest ∧ t.mem = s.mem) ∧
    ((∀ q ∈ rs, ¬ fits q) → exec (.sliceMissAdmit n) s = .next s)) ∧
  (∀ (s : State) (n line : Nat) (l rest : List SReq) (r : SReq), n < 256 → homeSlice s (line * 128) = n → chanHeld s line = false →
    (s.slice n).reqs = l ++ r :: rest → r.admitted = true → r.pkt.addr / 128 = line → (∀ q ∈ l ++ rest, q.pkt.addr / 128 ≠ line) →
    (resident s line).isNone = true → r.pkt.tag = 0 → AtSlice (s.setSlice n { s.slice n with reqs := l ++ rest }) r.pkt opRD →
    Gives (.memoryReadDone (0x400 + n) line 0 false) s fun t =>
      Sent t opRD_DATA r.pkt.dst r.pkt.src r.pkt.txid (s.rdLine line) ∧ t.mem = s.mem ∧ (t.slice n).reqs = l ++ rest) ∧
  (∀ (s : State) (ep line sev : Nat) (unc : Bool), chanHeld s line = true → exec (.memoryReadDone ep line sev unc) s = .next s) ∧
  (∀ (s : State) (n : Nat),
    (∀ l p rest, (s.lc n).input = l ++ p :: rest → lcRoom s n p.addr = true → (∀ q ∈ l, lcRoom s n q.addr = false) →
      Gives (.lcQueueAdmit n) s fun t => (t.lc n).input = l ++ rest ∧ (t.lc n).queue = (s.lc n).queue ++ [p] ∧ t.mem = s.mem) ∧
    ((∀ q ∈ (s.lc n).input, lcRoom s n q.addr = false) → exec (.lcQueueAdmit n) s = .next s)) ∧
  (∀ (s : State) (n line : Nat), line ∈ (s.slice n).wbs →
    (chanHeld s line = false → Gives (.writeBackDone n line) s fun t => (t.slice n).wbs = (s.slice n).wbs.erase line ∧ t.mem = s.mem) ∧
    (chanHeld s line = true → exec (.writeBackDone n line) s = .next s)) ∧
  (∀ (s : State) (p : Packet), p.op = opMERGE → CleanWay p →
    (ownsTag s p.part p.tag = true → GaugeGood s p.tag → s.flag (rSC_FLIP (gaugeHome s p.tag / 16)) SC_FLIP_ARM = false →
      Gives (.merge p) s fun t =>
        fget (t.gw p.tag 1) gAMAX = max (fget (s.gw p.tag 1) gAMAX) (p.payload.toNat % 2 ^ 32) ∧
        fbit (t.gw p.tag 0) gNF = (fbit (s.gw p.tag 0) gNF || p.nf) ∧ gaugeS t p.tag = gaugeS s p.tag ∧
        (∀ a, a < gaugePa s p.tag ∨ gaugePa s p.tag + 128 ≤ a → t.byte a = s.byte a) ∧
        (p.cls = clsREQ → ∃ q ∈ t.net, q.op = opWR_ACK ∧ q.dst = p.src ∧ q.txid = p.txid)) ∧
    (ownsTag s p.part p.tag = false → p.tag < 65536 → Gives (.merge p) s fun t => t.mem = s.mem ∧
      (p.tag ≠ 0 → t.fld rTAG_STATUS TAG_STATUS_LAST_TAG = p.tag) ∧
      (p.cls = clsREQ → ∃ q ∈ t.net, q.op = opWR_ACK ∧ q.dst = p.src ∧ q.txid = p.txid))) ∧
  (∀ (s : State) (p : Packet), p.op = opSPENT → CleanWay p → 0x400 ≤ p.dst → p.dst < 0x500 → Gives (.spent p) s fun t =>
    lhas p.tag (t.slice (p.dst - 0x400)).spentTags = true ∧ (∀ a ∈ (t.slice (p.dst - 0x400)).attr, a.1 = p.tag → a.2.2 = true) ∧
    (t.slice (p.dst - 0x400)).lines = (s.slice (p.dst - 0x400)).lines ∧ t.mem = s.mem) ∧
  (∀ (s : State) (p : Packet), p.op = opPF_RD → CleanWay p → isCw p.addr = false →
    (demandWaits s p.addr = false → gateOpen (p.addr / 128) false s = true → badMask s p.part (p.addr / 128) 32 = 0 → p.src < 0x400 →
      Gives (.pfRd p) s fun t =>
        (∃ q ∈ t.net, q.op = opRD_DATA ∧ q.dst = p.src ∧ pfMark ≤ q.sub ∧ q.payload = s.rdLine (p.addr / 128)) ∧ t.mem = s.mem ∧
        t.ledger = s.ledger) ∧
    (demandWaits s p.addr = true → exec (.pfRd p) s = .next s))

/-- R58, R74, R105, R342, R343, R352, R362, R363, R455: an answer to a core ends what waited for it: read data completes a load or an atomic, or
is DATA_ERR where its word is uncorrectable; a write's ack ends its record, and the store whose last write it was retires; a NACK
is ACCESS; a request at its limit is DATA_ERR, and its number stays out of use; both name the lowest byte of the access that the
answer would have brought; a credit sends the next request; a message sets its interrupt; an unassigned operation is counted and
lost. -/
def Obligations.ResponsesAtCore : Prop :=
  (∀ (s : State) (p : Packet) (i gd sz va : Nat) (sx : Bool), AtCore s p opRD_DATA → p.sub < pfMark →
    waitsFor (s.core p.dst) p.txid = some (i, va / 128) → sz ∈ [1, 2, 4, 8] → va % sz = 0 →
    (((s.core p.dst).ctx i).wait = .mem [(p.txid, va / 128)] [] none (.load gd sz sx va) →
      (p.bad = 0 → Gives (.rdData p) s fun t =>
        ((t.core p.dst).ctx i).gr gd = (if gd = 0 then 0 else loadVal sz sx (p.payload.toNat / 2 ^ (8 * (va % 128)) % 2 ^ (8 * sz))) ∧
        (∀ r, r ≠ gd → ((t.core p.dst).ctx i).gr r = ((s.core p.dst).ctx i).gr r) ∧
        ((t.core p.dst).ctx i).pc = ((s.core p.dst).ctx i).pc + 4 ∧ ((t.core p.dst).ctx i).wait = .none ∧ t.mem = s.mem) ∧
      (p.bad.getLsbD (va % 128 / 4) = true → statusBit ((s.core p.dst).ctx i) 4 = false → Gives (.rdData p) s fun t =>
        Excepted s t p.dst i .dataErr va)) ∧
    (((s.core p.dst).ctx i).wait = .mem [(p.txid, va / 128)] [] none (.atomic gd va (sz == 8)) → sz = 4 ∨ sz = 8 → p.bad = 0 →
      Gives (.rdData p) s fun t =>
        ((t.core p.dst).ctx i).gr gd = (if gd = 0 then 0 else loadVal sz true (p.payload.toNat / 2 ^ (8 * (va % 128)) % 2 ^ (8 * sz))) ∧
        ((t.core p.dst).ctx i).pc = ((s.core p.dst).ctx i).pc + 4 ∧ t.mem = s.mem)) ∧
  (∀ (s : State) (p : Packet), AtCore s p opWR_ACK → p.bad = 0 →
    (∀ i tt rows out bad, i < 4 → ((s.core p.dst).ctx i).wait ≠ .tstore tt rows out bad) → Gives (.wrAck p) s fun t =>
      (∀ y, y ∈ (t.core p.dst).stores ↔ y ∈ (s.core p.dst).stores ∧ y.1 ≠ p.txid) ∧
      (∀ y, y ∈ (t.core p.dst).merges ↔ y ∈ (s.core p.dst).merges ∧ y.1 ≠ p.txid) ∧ t.mem = s.mem ∧
      ∀ i va, i < 4 → ((s.core p.dst).ctx i).wait = .store false va none →
        (∀ y ∈ (s.core p.dst).stores, y.2.1 = i → y.2.2 = stStore → y.1 = p.txid) →
        ((t.core p.dst).ctx i).pc = ((s.core p.dst).ctx i).pc + 4 ∧ ((t.core p.dst).ctx i).wait = .none) ∧
  (∀ (k : MemKind) (vl j : Nat), j < k.span.2 → k.active j = true → (k.span.1 + j) / 128 = vl →
    (∀ h, h < j → k.active h = true → (k.span.1 + h) / 128 ≠ vl) →
    (∀ (s : State) (p : Packet) (i : Nat), AtCore s p opNACK → knotWaiter (s.core p.dst) p.txid = none →
      waitsFor (s.core p.dst) p.txid = some (i, vl) → ((s.core p.dst).ctx i).wait = .mem [(p.txid, vl)] [] none k →
      statusBit ((s.core p.dst).ctx i) 4 = false → Gives (.nack p) s fun t => Excepted s t p.dst i .access (k.span.1 + j)) ∧
    (∀ (s : State) (c x i : Nat), (s.core c).rst = false → knotWaiter (s.core c) x = none →
      waitsFor (s.core c) x = some (i, vl) → ((s.core c).ctx i).wait = .mem [(x, vl)] [] none k →
      statusBit ((s.core c).ctx i) 4 = false → Gives (.requestLimit c x) s fun t =>
        Excepted s t c i .dataErr (k.span.1 + j) ∧ lhas x (t.core c).deadTx = true ∧ t.mem = s.mem)) ∧
  (∀ (s : State) (p : Packet), p.op = opCREDIT → CleanWay p → p ∈ s.net → p.dst < 0x400 → gateShut s p.dst = false →
    let mine := fun (q : Packet) => q.dst = p.src ∧ q.op ≠ opPF_RD
    let asked := fun (l : List Packet) => l.filter fun q => q.op != opPF_RD
    (∀ l q rest, (s.core p.dst).outq = l ++ q :: rest → mine q → (∀ r ∈ l, ¬ mine r) → Gives (.credit p) s fun t =>
      asked (t.core p.dst).outq = asked (l ++ rest) ∧ q ∈ t.net) ∧
    ((∀ r ∈ (s.core p.dst).outq, ¬ mine r) → Gives (.credit p) s fun t =>
      tget 0 (t.core p.dst).cred p.src = tget 0 (s.core p.dst).cred p.src - 1 ∧ (t.core p.dst).outq = (s.core p.dst).outq)) ∧
  (∀ (s : State) (p : Packet), p.op = opMSG → CleanWay p → p.dst < 0x400 →
    let refused := fun (t : State) (cause : Nat) =>
      (∃ q ∈ t.net, q.op = opNACK ∧ q.dst = p.src ∧ q.txid = p.txid ∧ q.cause = cause) ∧ t.reg (rIPEND p.dst) = s.reg (rIPEND p.dst)
    (gateShut s p.dst = true → Gives (.msg p) s fun t => refused t 1) ∧
    (gateShut s p.dst = false → (s.core p.dst).enabled = false → Gives (.msg p) s fun t => refused t 2) ∧
    (gateShut s p.dst = false → (s.core p.dst).enabled = true → s.inCols p.part p.dst = true → Gives (.msg p) s fun t =>
      (t.reg (rIPEND p.dst)).getLsbD 5 = true)) ∧
  (∀ (s : State) (p : Packet), 0x11 < p.op → CleanWay p → Gives (.reservedOpPacket p) s fun t =>
    t.net = s.net.erase p ∧ t.reg rCN_NACK = faddSat (s.reg rCN_NACK) CN_NACK_BADOP 1 ∧ t.mem = s.mem ∧ t.cores = s.cores) ∧
  (∀ (s : State) (o : Origin) (k : Nat) (v : Word), k < 8 → mayReg s o true (rCMEM_CFG k) = true →
    (cmemOk k s = true → Gives (.cmemCfgWrite o k v) s fun t => t.rsp = .ok 0 ∧
      ∀ c, c ∈ s.partCores k → (t.core c).l1 = [] ∧ (t.core c).spad = [] ∧ (t.core c).eng = (s.core c).eng) ∧
    (cmemOk k s = false → Gives (.cmemCfgWrite o k v) s fun t => t.rsp = .err ∧ t.cores = s.cores))

/-! The Ledger. -/

/-- R250, R252, R256, R257: each command of the Ledger at an idle engine: READ and FIND show an entry, MAP links a frame that the partition may use
and a walk then finds it, UNMAP takes it out, SETF and CLRF change the marked flags, GIVE changes the owner of a free frame, MIGRATE
marks its source; a busy window, a foreign frame, a page already mapped and GIVE from a partition window fail and change nothing. -/
def Obligations.LedgerCommands : Prop :=
  ∀ (s : State) (o : Origin) (w : Nat), LgReady s o w →
    let f := fget (s.reg (rLE_FRAME w)) ⟨19, 0⟩
    let d := fget (s.reg (rLE_FRAME w)) ⟨39, 20⟩
    let vpn := fget (s.reg (rLE_VPN w)) ⟨47, 21⟩
    let ar := s.reg (rLE_ARG w)
    let e := s.le f
    (w < 8 → f < nFrames → leBad s f = false →
      (e.owner = w → e.rsv = false → Gives (.lgRead o w) s fun t =>
        t.reg (rLE_DATA0 w) = BitVec.ofNat 64 (leBits e) ∧ t.reg (rLE_DATA1 w) = BitVec.ofNat 64 (leBits e / 2 ^ 64) ∧
        t.ledger = s.ledger ∧ t.rsp = .ok 0) ∧
      (e.owner ≠ w → Gives (.lgRead o w) s fun t => LgFailed s t w 2)) ∧
    (w < 8 → walkBad s w vpn = false →
      (∀ q, walk s w vpn = .hit q → q < 2 ^ 20 →
        (Gives (.lgFind o w) s fun t => t.fld (rLE_FRAME w) ⟨19, 0⟩ = q ∧ t.reg (rLE_DATA0 w) = BitVec.ofNat 64 (leBits (s.le q)) ∧
          t.reg (rLE_DATA1 w) = BitVec.ofNat 64 (leBits (s.le q) / 2 ^ 64) ∧ t.ledger = s.ledger) ∧
        (mustCopy s q = false → (s.le q).owner = w → (s.le q).vpn = vpn → Gives (.lgUnmap o w) s fun t =>
          Shooting s t w w vpn q ∧ (t.le q).v = false ∧ (t.le q).owner = w ∧ (t.le q).next = none) ∧
        (ar.getLsbD 4 = false → f < nFrames → Gives (.lgMap o w) s fun t => LgFailed s t w 6)) ∧
      (walk s w vpn = .miss → (Gives (.lgFind o w) s fun t => LgFailed s t w 1) ∧
        (ar.getLsbD 4 = false → f < nFrames → leBad s f = false → overlaps s w vpn = false → e.owner = w → e.rsv = false → e.x = false →
          e.v = false → (chainOf s w vpn).length < 64 → Gives (.lgMap o w) s fun t =>
            Shooting s t w w vpn f ∧ walk t w vpn = .hit f ∧ (t.le f).v = true ∧ (t.le f).vpn = vpn ∧ (t.le f).owner = w ∧
            (t.le f).w = ar.getLsbD 0 ∧ (t.le f).p = ar.getLsbD 2 ∧ (t.le f).g = ar.getLsbD 5 ∧ (t.le f).t = false ∧
            (t.le f).s = false ∧ (t.le f).mig = false ∧ ∀ q, q ≠ f → t.le q = s.le q))) ∧
    (f < nFrames → leBad s f = false → foreign s ⟨w, 5, s.reg (rLE_FRAME w), s.reg (rLE_VPN w), ar⟩ f = false →
      (w = 8 ∨ ar.getLsbD 4 = false → ar.getLsbD 2 = false ∨ e.sec = false → Gives (.lgSetf o w) s fun t =>
        t.le f = { e with w := e.w || ar.getLsbD 0, t := e.t || ar.getLsbD 1, p := e.p || ar.getLsbD 2,
                          x := e.x || ar.getLsbD 3, g := e.g || ar.getLsbD 5 } ∧
        ((e.w = false ∧ ar.getLsbD 0 = true) ∨ (e.x = false ∧ ar.getLsbD 3 = true) → Shooting s t w e.owner e.vpn f)) ∧
      (Gives (.lgClrf o w) s fun t =>
        t.le f = { e with w := e.w && !ar.getLsbD 0, t := e.t && !ar.getLsbD 1, p := e.p && !ar.getLsbD 2, g := e.g && !ar.getLsbD 5 } ∧
        (e.w = true → ar.getLsbD 0 = true → Shooting s t w e.owner e.vpn f)) ∧
      (e.v = true → d < nFrames → leBad s d = false → (s.le d).owner = e.owner → (s.le d).rsv = false → (s.le d).x = false →
        (s.le d).v = false → Gives (.lgMigrate o w) s fun t =>
          t.le f = { e with mig := true } ∧ t.flag (rLE_STAT w) LE_STAT_BUSY = true ∧
          t.lgops = [(w, .migrate f d false (copyUnits s d))] ∧ t.mem = s.mem)) ∧
    (w = 8 → f < nFrames → leBad s f = false → e.rsv = false → e.v = false → Gives (.lgGive o w) s fun t =>
      Shooting s t w e.owner e.vpn f ∧ (t.le f).owner = fget ar LE_ARG_PART ∧ (t.le f).rsv = fbit ar LE_ARG_RSV ∧ (t.le f).v = false) ∧
    (w < 8 → Gives (.lgGive o w) s fun t => LgFailed s t w 10)

/-- R233, R255, R258: a shootdown takes the page out of a core's translation cache and its lines out of the L1; with every cache done and every
old access complete the command ends; a migration starts when the writes before it are done, each controller copies its share, and
with the last share the destination takes the mapping and the source is free, with a shootdown. -/
def Obligations.LedgerProgress : Prop :=
  (∀ (s : State) (w c p vpn f : Nat) (eps : List Nat), s.lgops = [(w, .shoot p vpn f eps)] → c < 0x400 → lhas c eps = true →
    Gives (.shootdown w c) s fun t =>
      vpn ∉ (t.core c).tc ∧ (∀ l ∈ (t.core c).l1, isCw (l.line * 128) = true ∨ frameOf (l.line * 128) ≠ f) ∧
      t.lgops = [(w, .shoot p vpn f (ldrop c eps))] ∧ t.mem = s.mem ∧ t.ledger = s.ledger) ∧
  (∀ (s : State) (w p vpn f : Nat), s.lgops = [(w, .shoot p vpn f [])] → s.lgWait = [] →
    (accessesDone s p vpn f = true → Gives (.shootdownDone w) s fun t => t.lgops = [] ∧ t.flag (rLE_STAT w) LE_STAT_BUSY = false) ∧
    (accessesDone s p vpn f = false → exec (.shootdownDone w) s = .next s)) ∧
  (∀ (s : State) (w f d : Nat) (eps : List Nat), s.lgops = [(w, .migrate f d false eps)] →
    let old := fun (q : Packet) => q.cause = mgOld ∧ pktWrites q = true ∧ isCw q.addr = false ∧ frameOf q.addr = f
    ((∀ q ∈ s.held, ¬ old q) → (∀ x ∈ s.slices, ∀ r ∈ x.2.reqs, ¬ old r.pkt) → (∀ x ∈ s.lcs, ∀ q ∈ x.2.input ++ x.2.queue, ¬ old q) →
      Gives (.migrateCopyStart w) s fun t => t.lgops = [(w, .migrate f d true eps)] ∧ t.mem = s.mem) ∧
    ((∃ q ∈ s.held, old q) → exec (.migrateCopyStart w) s = .next s)) ∧
  (∀ (s : State) (w f d ep : Nat), s.lgops = [(w, .migrate f d true [ep])] → f ≠ d → f < nFrames → d < nFrames → s.held = [] → memWf s = true →
    let e := s.le f
    let ls := shareLines s d ep
    copyGate s f d ls = true → copyBad s f e.owner ls = false → Gives (.migrateShareDone w ep) s fun t =>
      (∀ i ∈ ls, ∀ j, j < 128 → tget? (framePa f + 128 * i + j) s.mem ≠ none →
        t.byte (framePa d + 128 * i + j) = s.byte (framePa f + 128 * i + j)) ∧
      (t.le d).v = e.v ∧ (t.le d).owner = e.owner ∧ (t.le d).vpn = e.vpn ∧ (t.le d).w = e.w ∧ (t.le d).t = e.t ∧ (t.le d).s = e.s ∧
      (t.le d).tier = (s.le d).tier ∧ (t.le d).mig = false ∧ (t.le f).v = false ∧ (t.le f).mig = false ∧
      t.flag (rLE_STAT w) LE_STAT_BUSY = true ∧ ∃ eps, t.lgops = [(w, .shoot e.owner e.vpn f eps)])

/-! Streams: the Flume and the Culvert. -/

/-- R270, R272, R278 to R282, R285, R290: SARM arms an idle context at its first entry, SWAIT takes the next block, ends with 0 after END, or waits,
SFREE frees the oldest held block, SSTOP makes the context idle, SSTAT reads FL_STAT; an in-place unit, here listed in the
scratchpad, arrives; a closed block that is late is counted.  SWAIT of an idle context and SFREE with nothing held are STREAM. -/
def Obligations.FlumeStreams : Prop :=
  (∀ (s : State) (c gd ga : Nat), Ready s c [gd, ga] → (s.g c ga).toNat < 64 →
    let n := (s.g c ga).toNat
    let x := (s.core c).fl n
    let goes := fun (i : Instr) (v : Word) (P : State → Prop) => Gives i s fun t =>
      t.g c gd = (if gd = 0 then 0 else v) ∧ (∀ r, r ≠ gd → t.g c r = s.g c r) ∧ (t.cur c).pc = (s.cur c).pc + 4 ∧ t.mem = s.mem ∧ P t
    (flState s c n = 0 → flMode s c n ≠ 3 → s.flag (rFL_CFG c n) FL_CFG_RT = false → s.fld (rFL_BUF c n) FL_BUF_HALF = 0 →
      goes (.sarm c gd ga 0) 1 fun t => flState t c n = 1 ∧ (t.core c).fl n = { Flume.reset with
        task := (s.core c).run, priv := (s.cur c).isM, entry := some (s.fld (rFL_CFG c n) FL_CFG_FIRST) }) ∧
    (flState s c n = 1 → goes (.sarm c gd ga 0) 0 fun t => (t.core c).fl n = x) ∧
    (flState s c n ≠ 1 → flMode s c n = 3 → goes (.sarm c gd ga 0) 2 fun t => (t.core c).fl n = x) ∧
    (flState s c n ≠ 0 → flMode s c n = 0 →
      (∀ va len, x.block x.take = some (va, len) → goes (.swait c gd ga 0) (BitVec.ofNat 64 va) fun t =>
        (t.core c).fl n = { x with take := x.take + 1, held := x.held ++ [x.take] }) ∧
      (x.block x.take = none → (∃ e, x.endAt = some e ∧ e < x.take) → goes (.swait c gd ga 0) 0 fun t => (t.core c).fl n = x) ∧
      (x.block x.take = none → x.endAt = none → x.fail = none → x.units.length ≠ 2 → Gives (.swait c gd ga 0) s fun t =>
        (t.cur c).wait = .swait n gd (s.cycle c) ∧ (t.cur c).pc = (s.cur c).pc ∧ t.mem = s.mem) ∧
      (∀ h rest, x.held = h :: rest → goes (.sfree c gd ga 0) 0 fun t => ((t.core c).fl n).held = rest) ∧
      (x.held = [] → statusBit (s.cur c) 4 = false → Gives (.sfree c gd ga 0) s fun t =>
        Excepted s t c (s.core c).run .stream n ∧ t.fld (rFL_STAT c n) FL_STAT_CODE = 7)) ∧
    (flState s c n = 0 → statusBit (s.cur c) 4 = false → Gives (.swait c gd ga 0) s fun t =>
      Excepted s t c (s.core c).run .stream n ∧ t.fld (rFL_STAT c n) FL_STAT_CODE = 8) ∧
    (arrNames (s.core c) n = false → flState s c n ≠ 0 → x.miss = [] → goes (.sstop c gd ga 0) 0 fun t =>
      flState t c n = 0 ∧ (t.core c).fl n = Flume.reset) ∧
    goes (.sstat c gd ga 0) (s.reg (rFL_STAT c n)) fun t => (t.core c).fl n = x) ∧
  (∀ (s : State) (c n j : Nat), n < 64 → let x := (s.core c).fl n
    flState s c n = 1 → x.units.length < 2 → x.fail = none → x.miss = [] → x.entry = some j → SpadArea s c (entVa s c n j) 16 →
    let w := spadNat s c (entVa s c n j) 16
    let e : ListEnt := ⟨w % 2 ^ 48, w / 2 ^ 64 % 2 ^ 24, (w / 2 ^ 64).testBit 24, (w / 2 ^ 64).testBit 25⟩
    w / 2 ^ 48 % 2 ^ 16 = 0 → w / 2 ^ 90 = 0 → e.last = false ∨ e.wrap = false → blkKind s c n e = .inPlace →
    flMode s c n = 0 ∨ slotPlan (s.core c) n = [] → Gives (.flumeUnitArrival c n false) s fun t =>
      ((t.core c).fl n).units = x.units ++ [{ first := x.nb, blocks := [(e.addr, e.len)], nf := false, stamp := s.cycle c }] ∧
      ((t.core c).fl n).nb = x.nb + 1 ∧ (e.last = true → flState t c n = 2 ∧ ((t.core c).fl n).endAt = some x.nb) ∧
      (e.last = false → ((t.core c).fl n).entry = some (if e.wrap then 0 else j + 1)) ∧ t.mem = s.mem) ∧
  (∀ (s : State) (c n : Nat), n < 64 → let i := ((s.core c).fl n).chk
    (hasDeadline s c n i = true → reached s c (closeAt s c n i) = true → blockLate s c n i = false → Gives (.deadlineCheck c n) s fun t =>
      ((t.core c).fl n).chk = i + 1 ∧ t.reg (rFL_MISS c n) = s.reg (rFL_MISS c n)) ∧
    (hasDeadline s c n i = true → blockLate s c n i = true → s.maint c = true → Gives (.deadlineCheck c n) s fun t =>
      ((t.core c).fl n).chk = i + 1 ∧ t.reg (rFL_MISS c n) = faddSat (s.reg (rFL_MISS c n)) FL_MISS_COUNT 1) ∧
    (reached s c (closeAt s c n i) = false → exec (.deadlineCheck c n) s = .next s))

/-- R278, R295 to R301, R308: CSTART of an idle channel starts the list and returns 1, of a running one 0; CSTOP stops it; CSTAT reads CV_STAT;
a legal descriptor, here in the scratchpad, becomes the current one, a reserved bit is the error DESC; a plain element is copied,
byte for byte, and counted; a descriptor whose elements are all written completes, and the list ends or goes on; CV_COUNT clears
CUR. -/
def Obligations.CulvertChannels : Prop :=
  (∀ (s : State) (c gd ga gb n : Nat), Ready s c [gd, ga, gb] → (s.g c ga).toNat = n → n < 8 →
    let ch := Chan.cv c n
    let h := s.g c gb
    let goes := fun (i : Instr) (v : Word) (P : State → Prop) => Gives i s fun t =>
      t.g c gd = (if gd = 0 then 0 else v) ∧ (∀ r, r ≠ gd → t.g c r = s.g c r) ∧ (t.cur c).pc = (s.cur c).pc + 4 ∧ t.mem = s.mem ∧ P t
    (storesOut s c = false → (s.core c).errPend = none →
      (h ≠ 0 → chState s ch = 0 → goes (.cstart c gd ga gb) 1 fun t =>
        chState t ch = 1 ∧ t.fld ch.rStat CV_STAT_ELEM = 0 ∧ t.reg (rCV_HEAD c n) = BitVec.ofNat 64 (h.toNat % 2 ^ 48 / 64 * 64) ∧
        (t.chan ch).cur = none ∧ (t.chan ch).task = (s.core c).run) ∧
      (h ≠ 0 → chState s ch = 1 → goes (.cstart c gd ga gb) 0 fun t => t.chan ch = s.chan ch)) ∧
    (chState s ch = 1 → goes (.cstop c gd ga 0) 0 fun t => chState t ch = 2 ∧ t.chan ch = s.chan ch) ∧
    goes (.cstat c gd ga 0) (s.reg (rCV_STAT c n)) fun t => t.chan ch = s.chan ch) ∧
  (∀ (s : State) (c n : Nat), n < 8 → let ch := Chan.cv c n
    let a := s.fld (rCV_HEAD c n) CV_HEAD_ADDR * 64
    let d := spadNat s c a 64
    chState s ch = 1 → (s.chan ch).cur = none → SpadArea s c a 64 →
    (dBad false d = false → dMisaligned d = none → Gives (.culvertDescFetch false c n) s fun t =>
      (t.chan ch).cur = some d ∧ chState t ch = 1 ∧ t.mem = s.mem) ∧
    (dBad false d = true → Gives (.culvertDescFetch false c n) s fun t =>
      chState t ch = 3 ∧ t.fld ch.rStat CV_STAT_CODE = 1 ∧ t.fld ch.rErr CV_ERRADDR_ADDR = a ∧ (t.reg (rCV_IRQ c)).getLsbD (n + 8) = true)) ∧
  (∀ (s : State) (c n d : Nat), n < 8 → let ch := Chan.cv c n
    let k := s.fld ch.rStat CV_STAT_ELEM
    let m := min (dEsize d) (dLen d - k * dEsize d)
    let src := dSrc d + k * dEsize d
    let dst := dDst d + k * dEsize d
    chState s ch = 1 → (s.chan ch).cur = some d → k < dElems d → dMode d = 0 → dBraid d = false → dUnbraid d = false → 0 < m → k + 1 < 2 ^ 32 →
    SpadArea s c src m → SpadArea s c dst m → Gives (.culvertElement false c n false) s fun t =>
      (∀ i, i < m → (spadByte t c (dst - spadBase s (s.part c) + i)).toNat = spadNat s c (src + i) 1) ∧
      (∀ o, o < dst - spadBase s (s.part c) ∨ dst - spadBase s (s.part c) + m ≤ o → spadByte t c o = spadByte s c o) ∧
      t.fld ch.rStat CV_STAT_ELEM = k + 1 ∧ t.reg ch.rBytes = s.reg ch.rBytes + BitVec.ofNat 64 m ∧ t.mem = s.mem) ∧
  (∀ (s : State) (c n d : Nat), n < 8 → let ch := Chan.cv c n
    chState s ch = 1 → (s.chan ch).cur = some d → dElems d ≤ s.fld ch.rStat CV_STAT_ELEM → chPending s ch = false →
    s.flag (rCV_BSTAT c) CV_BSTAT_EN = false → dWb d = false → dKen d = false → Gives (.culvertDescComplete false c n) s fun t =>
      t.reg (rCV_DONE c n) = s.reg (rCV_DONE c n) + 1 ∧ (t.chan ch).cur = (if (dNext d).isSome then (s.chan ch).next else none) ∧
      (dNext d = none → chState t ch = 0) ∧
      (∀ a, dNext d = some a → chState t ch = 1 ∧ t.reg (rCV_HEAD c n) = BitVec.ofNat 64 a ∧ t.fld ch.rStat CV_STAT_ELEM = 0) ∧
      (dInt d = true → (t.reg (rCV_IRQ c)).getLsbD n = true ∧ (t.reg (rIPEND c)).getLsbD 4 = true) ∧ t.mem = s.mem) ∧
  (∀ (s : State) (o : Origin) (c n : Nat) (v : Word), mayReg s o true (rCV_COUNT c n) = true → n < 8 →
    (chState s (.cv c n) ≠ 1 → Gives (.cvCountWrite o c n v) s fun t => t.rsp = .ok 0 ∧
      t.fld (rCV_COUNT c n) CV_COUNT_CUR = 0 ∧ t.fld (rCV_COUNT c n) CV_COUNT_RELOAD = fget v CV_COUNT_RELOAD) ∧
    (chState s (.cv c n) = 1 → Gives (.cvCountWrite o c n v) s fun t => t.rsp = .err ∧ t.reg (rCV_COUNT c n) = s.reg (rCV_COUNT c n)))

/-! Knots and hitches. -/

/-- R310, R313 to R318, R320, R329, R330: at the core's own port KSIG adds to the count, KWAIT takes from it or queues, KPEEK reads it and KSET sets
it, each with the count in GD; a signal that would fall below 0 is UNDERFLOW; a hitch instruction sends its request to its hub and
waits; an illegal name is ILLEGAL, and KSET needs M. -/
def Obligations.KnotInstructions : Prop :=
  (∀ (s : State) (c gd ga gb : Nat), Ready s c [gd, ga, gb] →
    let name := (s.g c ga).toNat
    let key := 8192 + name
    let b := s.g c gb
    let w := s.knot key
    let cnt := fget w CK_COUNT
    let goes := fun (i : Instr) (v n : Nat) => Gives i s fun t =>
      t.g c gd = (if gd = 0 then 0 else BitVec.ofNat 64 v) ∧ (∀ r, r ≠ gd → t.g c r = s.g c r) ∧ (t.cur c).pc = (s.cur c).pc + 4 ∧
      fget (t.knot key) CK_COUNT = n ∧ t.waiters key = s.waiters key ∧ t.mem = s.mem
    (64 * c ≤ name → name < 64 * c + 64 → s.owns (s.part c) c = true → fget w CK_KIND = 1 → s.waiters key = [] →
      (∀ n : Nat, storesOut s c = false → (s.core c).errPend = none → fbit w CK_IEN = false → -(2 : Int) ^ 31 ≤ b.toInt → b.toInt < (2 : Int) ^ 31 →
        (n : Int) = cnt + b.toInt → n ≤ knotMax w → goes (.ksig c gd ga gb) cnt n) ∧
      (storesOut s c = false → (s.core c).errPend = none → -(2 : Int) ^ 31 ≤ b.toInt → (cnt : Int) + b.toInt < 0 → statusBit (s.cur c) 4 = false →
        Gives (.ksig c gd ga gb) s fun t => Excepted s t c (s.core c).run .knot name ∧ t.fld (rKH_FAULT c) KH_FAULT_CAUSE = 1 ∧
          t.knot key = w) ∧
      (1 ≤ b.toNat → b.toNat ≤ cnt → b.toNat ≤ knotMax w → goes (.kwait c gd ga gb) (cnt - b.toNat) (cnt - b.toNat)) ∧
      (cnt < b.toNat → b.toNat ≤ knotMax w → b.toNat < 2 ^ 32 → Gives (.kwait c gd ga gb) s fun t =>
        (t.cur c).wait = .kwait name b.toNat gd none (s.cycle c) 0 ∧ (t.cur c).pc = (s.cur c).pc ∧
        ∃ q, t.waiters key = [q] ∧ q.core = c ∧ q.n = b.toNat) ∧
      goes (.kpeek c gd ga 0) cnt cnt ∧
      (statusBit (s.cur c) 0 = true → b.toNat < 2 ^ 32 → goes (.kset c gd ga gb) cnt b.toNat) ∧
      (statusBit (s.cur c) 0 = false → Traps (.kset c gd ga gb) s c .priv (BitVec.ofNat 64 (encS 0x50 gd ga gb 3)))) ∧
    (2 ^ 32 ≤ name → Traps (.kpeek c gd ga 0) s c .illegal (BitVec.ofNat 64 (encS 0x50 gd ga 0 2)))) ∧
  (∀ (s : State) (c gd ga gb x : Nat), Ready s c [gd, ga, gb] → (s.core c).freeTx = some x →
    let h := (s.g c ga).toNat
    let g := (s.g c gb).toNat
    let asks := fun (i : Instr) (sub : Nat) (wt : Wait) => Gives i s fun t =>
      (∃ p ∈ t.net, p.op = opHITCH ∧ p.src = c ∧ p.dst = epHub (h / 32) ∧ p.addr = h ∧ p.sub = sub ∧ p.txid = x) ∧
      (t.cur c).wait = wt ∧ (t.cur c).pc = (s.cur c).pc ∧ (∀ r, t.g c r = s.g c r) ∧ t.mem = s.mem
    (h < 64 → storesOut s c = false → (s.core c).errPend = none → asks (.harr c gd ga 0) 0 (.harr h gd x)) ∧
    (h < 64 → g < 65536 → asks (.hwait c gd ga gb) 1 (.hwait h g gd x (s.cycle c))) ∧
    (h < 64 → asks (.hpeek c gd ga 0) 2 (.kop 4 (encS 0x51 gd ga 0 2) h gd x)) ∧
    (64 ≤ h → Traps (.hwait c gd ga gb) s c .illegal (BitVec.ofNat 64 (encS 0x51 gd ga gb 1))))

/-- R311, R316, R320, R323, R328, R329, R331, R336: at a hub a chip knot's signal changes its count and releases the oldest waiter that it satisfies, a
withdrawal removes its waiter; an arrival at an open hitch is counted, the last one advances the generation and tells every core
of the partition, whose waits complete; a response completes or faults its instruction; knot words, hitch configurations and masks
are written, and refused where the rules say. -/
def Obligations.KnotsAtHome : Prop :=
  (∀ (s : State) (p : Packet) (j : Nat), p.op = opKNOT → CleanWay p → p.addr = 2 ^ 31 + j → j < 8192 → p.sub = 0 →
    let w := s.knot j
    let cnt := fget w CK_COUNT
    let n := (p.payload.extractLsb' 0 64).toInt
    fget w CK_PART = p.part → fget w CK_KIND = 1 → fbit w CK_IEN = false → 0 < n →
    (s.waiters j = [] → cnt + n.toNat ≤ knotMax w → Gives (.knot p) s fun t =>
      fget (t.knot j) CK_COUNT = cnt + n.toNat ∧ ∃ q ∈ t.net, q.op = opKNOT_RSP ∧ q.dst = p.src ∧ q.txid = p.txid ∧ q.sub = 0 ∧
        q.payload = BitVec.ofNat 1024 cnt) ∧
    (∀ k x, s.waiters j = [k] → k.tx = some x → k.n ≤ cnt + n.toNat → cnt + n.toNat - k.n ≤ knotMax w → Gives (.knot p) s fun t =>
      fget (t.knot j) CK_COUNT = cnt + n.toNat - k.n ∧ t.waiters j = [] ∧
      ∃ q ∈ t.net, q.op = opKNOT_RSP ∧ q.dst = k.core ∧ q.txid = x ∧ q.payload = BitVec.ofNat 1024 (cnt + n.toNat - k.n))) ∧
  (∀ (s : State) (p : Packet) (i w name gd : Nat), AtCore s p opKNOT_RSP → knotWaiter (s.core p.dst) p.txid = some i →
    ((s.core p.dst).ctx i).wait = .kop 0 w name gd p.txid →
    (p.sub = 0 → Gives (.knotRsp p) s fun t =>
      ((t.core p.dst).ctx i).gr gd = (if gd = 0 then 0 else p.payload.extractLsb' 0 64) ∧
      ((t.core p.dst).ctx i).pc = ((s.core p.dst).ctx i).pc + 4 ∧ ((t.core p.dst).ctx i).wait = .none ∧ t.mem = s.mem) ∧
    (0 < p.sub → p.sub < 8 → statusBit ((s.core p.dst).ctx i) 4 = false → Gives (.knotRsp p) s fun t =>
      Excepted s t p.dst i .knot name ∧ t.fld (rKH_FAULT p.dst) KH_FAULT_CAUSE = p.sub)) ∧
  (∀ (s : State) (p : Packet) (k : KWaiter) (rest : List KWaiter) (j : Nat), p.op = opWITHDRAW → CleanWay p → p.addr = 2 ^ 31 + j → j < 8192 →
    p.sub = 0 → s.net = [p] → (s.core p.src).rst = false → p.rgen = (s.core p.src).rgen → s.waiters j = k :: rest → k.core = p.src →
    k.tx = some p.txid → (∀ q ∈ rest, q.core ≠ p.src ∧ fget (s.knot j) CK_COUNT < q.n) → Gives (.withdraw p) s fun t =>
      t.waiters j = rest ∧ fget (t.knot j) CK_COUNT = fget (s.knot j) CK_COUNT ∧
      ∃ q ∈ t.net, q.op = opKNOT_RSP ∧ q.dst = p.src ∧ q.txid = p.txid ∧ q.sub = krREMOVED) ∧
  (∀ (s : State) (p : Packet), p.op = opHITCH → CleanWay p → p.addr < 64 → p.sub = 0 → RingQuiet s →
    let h := p.addr
    let l := tget [] s.harrs h
    let g := s.fld (rHT_STAT h) HT_STAT_GEN
    (htState s h = 1 → s.ht h HT_CFG_PART = p.part → inMask s (s.ht h HT_CFG_MASK) p.src = true → p.src ∉ l → l.length < 1023 →
      s.ht h HT_CFG_XMOD = 0 → s.ht h HT_CFG_KEN = 0 → Gives (.hitch p) s fun t =>
        (∃ q ∈ t.net, q.op = opKNOT_RSP ∧ q.dst = p.src ∧ q.txid = p.txid ∧ q.sub = 0 ∧ q.payload = BitVec.ofNat 1024 g) ∧
        (l.length + 1 ≠ s.ht h HT_CFG_COUNT → tget [] t.harrs h = p.src :: l ∧ t.fld (rHT_STAT h) HT_STAT_ARRIVED = l.length + 1 ∧
          t.fld (rHT_STAT h) HT_STAT_GEN = g) ∧
        (l.length + 1 = s.ht h HT_CFG_COUNT → tget [] t.harrs h = [] ∧ t.fld (rHT_STAT h) HT_STAT_ARRIVED = 0 ∧ htState t h = 1 ∧
          t.fld (rHT_STAT h) HT_STAT_GEN = (g + 1) % 65536 ∧
          ∀ c ∈ s.partCores p.part, ∃ q ∈ t.net, q.op = opHITCH_DONE ∧ q.dst = c ∧ q.addr = h ∧ q.payload = BitVec.ofNat 1024 g)) ∧
    (htState s h = 0 → Gives (.hitch p) s fun t =>
      (∃ q ∈ t.net, q.op = opKNOT_RSP ∧ q.dst = p.src ∧ q.txid = p.txid ∧ q.sub = 0x10) ∧ t.harrs = s.harrs)) ∧
  (∀ (s : State) (p : Packet) (i gd x since : Nat), p.op = opHITCH_DONE → CleanWay p → p ∈ s.net → gateShut s p.dst = false →
    (s.core p.dst).enabled = true → s.inCols p.part p.dst = true → i < 4 → p.payload.toNat < 65536 →
    ((s.core p.dst).ctx i).wait = .hwait p.addr p.payload.toNat gd x since → Gives (.hitchDone p) s fun t =>
      ((t.core p.dst).ctx i).gr gd = (if gd = 0 then 0 else BitVec.ofNat 64 ((p.payload.toNat + 1) % 65536)) ∧
      ((t.core p.dst).ctx i).pc = ((s.core p.dst).ctx i).pc + 4 ∧ ((t.core p.dst).ctx i).wait = .none) ∧
  (∀ (s : State) (o : Origin) (key : Nat) (v : Word), mayReg s o true (knotReg key) = true →
    (knotWordOk o key v s = true → key < 8192 → Gives (.knotWordWrite o key v) s fun t => t.knot key = v ∧ t.rsp = .ok 0) ∧
    (s.waiters key ≠ [] → Gives (.knotWordWrite o key v) s fun t => t.knot key = s.knot key ∧ t.rsp = .err)) ∧
  (∀ (s : State) (o : Origin) (h : Nat) (v : Word), h < 64 → mayReg s o true (rHT_CFG h) = true →
    (htCfgOk o h v s = true → Gives (.htCfgWrite o h v) s fun t =>
      t.rsp = .ok 0 ∧ htState t h = (if fbit v HT_CFG_EN then 1 else 0) ∧ t.ht h HT_CFG_COUNT = fget v HT_CFG_COUNT) ∧
    (fbit v HT_CFG_EN = true → htState s h ≠ 0 → Gives (.htCfgWrite o h v) s fun t => t.rsp = .err ∧ t.reg (rHT_CFG h) = s.reg (rHT_CFG h))) ∧
  (∀ (s : State) (o : Origin) (m w : Nat) (v : Word), m < 32 → w < 11 → mayReg s o true (rHM_WORD m w) = true →
    ((∀ h, h < 64 → s.ht h HT_CFG_MASK = m → htState s h = 0) → Gives (.hitchMaskWrite o m w v) s fun t =>
      t.rsp = .ok 0 ∧ t.reg (rHM_WORD m w) = v) ∧
    (∀ h, h < 64 → s.ht h HT_CFG_MASK = m → htState s h ≠ 0 → Gives (.hitchMaskWrite o m w v) s fun t =>
      t.rsp = .err ∧ t.reg (rHM_WORD m w) = s.reg (rHM_WORD m w)))

/-! Partitions, register accesses, windows. -/

/-- R13, R36, R40, R359, R361, R362, R365: a range write sets the partition's columns and its cores' PART, or is refused and changes nothing; a
partition reset puts the partition in RESETTING and its cores in reset, and when all their requests have ended it is HELD and
each core's generation changes; a register write and read act by access type; a window's end shows its peaks and counts its
deferrals. -/
def Obligations.PartitionsAndRegisters : Prop :=
  (∀ (s : State) (o : Origin) (p : Nat) (v : Word), p < 8 → mayReg s o true (rPT_RANGE p) = true →
    (ptRangeOk p v s = true → Gives (.ptRangeWrite o p v) s fun t =>
      t.rsp = .ok 0 ∧ t.fld (rPT_RANGE p) PT_RANGE_FIRST = fget v PT_RANGE_FIRST ∧ t.fld (rPT_RANGE p) PT_RANGE_LAST = fget v PT_RANGE_LAST ∧
      t.flag (rPT_RANGE p) PT_RANGE_EN = fbit v PT_RANGE_EN ∧ t.mem = s.mem ∧
      (∀ c, coreIdOk c = true → t.part c =
        if fbit v PT_RANGE_EN = true ∧ (s.core c).enabled = true ∧ fget v PT_RANGE_FIRST ≤ coreX c ∧ coreX c ≤ fget v PT_RANGE_LAST then p
        else s.part c)) ∧
    (fget v PT_RANGE_LAST < fget v PT_RANGE_FIRST ∨ s.fld (rPT_STAT p) PT_STAT_STATE = 2 ∨
      (fbit v PT_RANGE_EN = true ∧ ∃ q, q < 8 ∧ q ≠ p ∧ s.flag (rPT_RANGE q) PT_RANGE_EN = true ∧
        fget v PT_RANGE_FIRST ≤ s.fld (rPT_RANGE q) PT_RANGE_LAST ∧ s.fld (rPT_RANGE q) PT_RANGE_FIRST ≤ fget v PT_RANGE_LAST) ∨
      (∃ c, coreIdOk c = true ∧ (s.core c).enabled = true ∧ fget v PT_RANGE_FIRST ≤ coreX c ∧ coreX c ≤ fget v PT_RANGE_LAST ∧
        s.flag (rCORE_CTL c) CORE_CTL_RUN = true) → Gives (.ptRangeWrite o p v) s fun t => t = { s with rsp := .err })) ∧
  (∀ (s : State) (o : Origin) (p : Nat), p < 8 → mayReg s o true (rPT_CTL p) = true → RingQuiet s →
    (∀ g, g < 256 → grpPart s g = p → grpState s g ≠ cgOK) → (∀ n, n < 16 → (s.slu n).job = none) →
    (s.fld (rPT_STAT p) PT_STAT_STATE = 1 ∨ s.fld (rPT_STAT p) PT_STAT_STATE = 3) → Gives (.ptReset o p) s fun t =>
      t.rsp = .ok 0 ∧ t.fld (rPT_STAT p) PT_STAT_STATE = 2 ∧ t.mem = s.mem ∧
      (∀ c, c ∈ s.partCores p → (t.core c).rst = true ∧ t.flag (rCORE_CTL c) CORE_CTL_RUN = false ∧
        (t.core c).rgen = (s.core c).rgen) ∧
      (∀ c, c ∉ s.partCores p → (t.core c).rst = (s.core c).rst ∧ (t.core c).rgen = (s.core c).rgen)) ∧
  (∀ (s : State) (p : Nat), p < 8 → s.fld (rPT_STAT p) PT_STAT_STATE = 2 → (∀ c, c ∈ s.partCores p → (s.core c).rstTx = []) →
    Gives (.ptResetDrainDone p) s fun t =>
      t.fld (rPT_STAT p) PT_STAT_STATE = 3 ∧ t.mem = s.mem ∧ t.net = s.net ∧
      (∀ c, c ∈ s.partCores p → (t.core c).rst = false ∧ (t.core c).rgen = !(s.core c).rgen) ∧
      (∀ c, c ∉ s.partCores p → t.core c = s.core c)) ∧
  (∀ (s : State) (busy : List (Nat × Word)), Gives (.rtBusyWindow busy) s fun t =>
    (∀ r, r < 704 → t.reg (rRT_BUSY r) = tget 0 busy r) ∧ (∀ a, (∀ r, r < 704 → a ≠ rRT_BUSY r) → t.reg a = s.reg a) ∧
    t = { s with regs := t.regs }) ∧
  (∀ (s : State) (o : Origin) (a i off : Nat) (b : Blk) (r : RegRow) (v : Word), blkOf a = some (b, i, off) →
    b ∈ [Blk.chip, .errlog, .lc, .weir, .canal, .splice] → regRow a = some r →
    (mayReg s o true a = true → Gives (.registerWrite o a v) s fun t => t.rsp = .ok 0 ∧
      (∀ j, j < 64 → (t.reg a).getLsbD j =
        ((if r.rw.testBit j = true ∨ (r.rwl.testBit j = true ∧ locked s a = false) then v.getLsbD j else (s.reg a).getLsbD j) &&
          !(r.w1c.testBit j && v.getLsbD j))) ∧ (∀ x, x ≠ a → t.reg x = s.reg x) ∧ t = { s with regs := t.regs, rsp := t.rsp }) ∧
    (mayReg s o true a = false → Gives (.registerWrite o a v) s fun t => t = { s with rsp := .err })) ∧
  (∀ (s : State) (o : Origin) (a i off : Nat) (b : Blk) (r : RegRow), blkOf a = some (b, i, off) →
    b ∈ [Blk.chip, .errlog, .weir, .canal] → regRow a = some r →
    mayReg s o false a = true → Gives (.registerReadClear o a) s fun t => t.rsp = .ok (s.reg a &&& ~~~ BitVec.ofNat 64 r.wo) ∧
      t.reg a = s.reg a &&& ~~~ BitVec.ofNat 64 r.rc ∧ (∀ x, x ≠ a → t.reg x = s.reg x) ∧ t = { s with regs := t.regs, rsp := t.rsp }) ∧
  (∀ (s : State) (o : Origin) (a : Nat), mayReg s o false a = false → (∀ i off, blkOf a ≠ some (.core, i, off) ∧ blkOf a ≠ some (.flume, i, off) ∧
    blkOf a ≠ some (.culvert, i, off) ∧ blkOf a ≠ some (.knot, i, off)) → Gives (.registerReadClear o a) s fun t => t = { s with rsp := .err }) ∧
  (∀ (s : State) (k : Nat), k < 4 → Gives (.bgWindowEnd k) s fun t =>
    (∀ u, tget 0 t.bg u = if unitIsland u = k then 0 else tget 0 s.bg u) ∧
    (∀ u n, s.bg = [(u, n)] → unitIsland u = k → s.bgLast = [] → n < 2 ^ 21 →
      t.fld rBG_MEM_PEAK BG_MEM_PEAK_CYCLES = (if u < 0xC00 then n else 0) ∧
      t.fld rBG_CANAL_PEAK BG_CANAL_PEAK_CYCLES = (if u < 0xC00 then 0 else n)) ∧
    t.fld rBG_DEFER BG_DEFER_MEM_WINDOWS = (s.fld rBG_DEFER BG_DEFER_MEM_WINDOWS +
      (if (s.bgDefer.any fun u => decide (unitIsland u = k ∧ u < 0xC00)) = true then 1 else 0)) % 2 ^ 32 ∧
    t.fld rBG_DEFER BG_DEFER_CANAL_WINDOWS = (s.fld rBG_DEFER BG_DEFER_CANAL_WINDOWS +
      (if (s.bgDefer.any fun u => decide (unitIsland u = k ∧ 0xC00 ≤ u)) = true then 1 else 0)) % 2 ^ 32 ∧
    t.mem = s.mem ∧ t.cores = s.cores)

/-! The Sluice units. -/

/-- R202, R205, R207 to R209, R214, R222, R223, R225: a doorbell queues a job at one unit, a broadcast at all 16 or none; the unit takes the head of its
queue, checks it and waits; it starts only when the log, the knot and the collectives allow, with its generator seeded and its
registers set, or skips the whole job on NF; a finished job writes its status word and signals DONE_KNOT; ABORT is recorded for the
next group boundary; clearing SLU_ERR.VALID leaves HALT. -/
def Obligations.SluiceJobs : Prop :=
  (∀ (s : State) (o : Origin) (n : Nat) (v : Word), n < 16 → mayReg s o true (rSLU_DOORBELL n) = true →
    let p := match o with | .core c => s.part c | _ => fget v SLU_DOORBELL_PART
    let room := fun m => s.flag (rSLU_CTL m) SLU_CTL_ENABLE = true ∧ (s.slu m).queue.length < 4
    let queued := fun (t : State) m => (t.slu m).queue = (s.slu m).queue ++ [(fget v SLU_DOORBELL_DESC * 256, p)] ∧
      t.fld (rSLU_STAT m) SLU_STAT_QUEUE = (s.slu m).queue.length + 1
    (room n → Gives (.sluDoorbell o n v) s fun t => t.rsp = .ok 0 ∧ queued t n ∧ t.mem = s.mem ∧ ∀ m, m ≠ n → t.slu m = s.slu m) ∧
    (¬ room n → Gives (.sluDoorbell o n v) s fun t => t = { s with rsp := .err }) ∧
    (mayReg s o true (rSLU_BCAST n) = true →
      ((∀ m, m < 16 → room m) → Gives (.sluBcast o n v) s fun t => t.rsp = .ok 0 ∧ (∀ m, m < 16 → queued t m) ∧ t.mem = s.mem) ∧
      (∀ m, m < 16 → ¬ room m → Gives (.sluBcast o n v) s fun t => t = { s with rsp := .err }))) ∧
  (∀ (s : State) (n d p : Nat) (r : List (Nat × Nat)), n < 16 → slState s n = slIDLE → (s.slu n).queue = (d, p) :: r →
    let s1 := slTake n s
    (∀ u, slFetch n d p s1 = .ok u → Gives (.sluJobLoad n) s fun t => t = slSet n slWAIT u ∧ slState t n = slWAIT ∧
      (t.slu n).job = some (d, p) ∧ (t.slu n).queue = r ∧ hBad (t.slu n).hdr = false ∧
      (hKind (t.slu n).hdr = 1 → t.flag (rSLU_CTL n) SLU_CTL_RULE_EN = true)) ∧
    (∀ hb u, slRead n p 0 d 256 0xFFFFFFFF false s1 = .ok (hb, u) → hBad (leNat hb) = true → slStatusGate s1 n (s1.slu n) = true →
      Gives (.sluJobLoad n) s fun t => SlFailed t n 2)) ∧
  (∀ (s : State) (n : Nat), n < 16 → slState s n = slWAIT → let x := s.slu n
    let h := x.hdr
    let knot := hCount h = 0 ∨ (knotPart s (hStart h) = x.part ∧ fget (s.knot (hStart h)) CK_KIND ≠ 0 ∧
      hCount h ≤ fget (s.knot (hStart h)) CK_COUNT)
    x.abort = false → (∀ c ∈ jobSeqs h, capReplaced s x.part c = false) → (hCount h ≠ 0 → knotPart s (hStart h) = x.part) →
    let shows := fun (f : Fld) => fbit (regShow s (rSLU_STAT n)) f = true
    (logComplete s x.part (hStep h) = false → exec (.sluJobStart n) s = .next s ∧ shows SLU_STAT_W_LOG) ∧
    (¬ knot → exec (.sluJobStart n) s = .next s ∧ shows SLU_STAT_W_KNOT) ∧
    (logComplete s x.part (hStep h) = true → knot → ∀ seed, logWord64 s x.part (hStep h) 0x10 = some seed →
      let s1 := slSet n slRUN (s.modSlu n fun x => { x with gen := srSeed (BitVec.ofNat 64 seed) (1024 + n) })
      (∀ u, (∀ c ∈ jobSeqs h, ∃ r, capRecord s x.part c = some r ∧ r.st = 2 ∧ r.nf = false) → slFrom n (hNtens h + 1) 0 s1 = .ok u →
        Gives (.sluJobStart n) s fun t => t = u ∧ slState t n = slRUN ∧ (t.slu n).gen = srSeed (BitVec.ofNat 64 seed) (1024 + n) ∧
          ((t.slu n).ended = none → let y := t.slu n
            y.pc = 0 ∧ y.gr 1 = BitVec.ofNat 64 (hStep h) ∧ y.gr 2 = BitVec.ofNat 64 y.t ∧ y.gr 3 = BitVec.ofNat 64 (eTag y.ent) ∧
            y.gr 4 = BitVec.ofNat 64 (eNs y.ent) ∧ y.gr 5 = BitVec.ofNat 64 (eEpb y.ent) ∧ y.gr 6 = BitVec.ofInt 64 y.sexp ∧ y.gr 7 = 0 ∧
            (∀ i, i < 8 → y.gr (8 + i) = BitVec.ofNat 64 (eConst y.ent i)) ∧ (∀ i, i < 16 → y.gr (16 + i) = BitVec.ofNat 64 (hConst h i)) ∧
            (∀ i, y.vr i = 0) ∧ ∀ i, i ≠ 0 → y.pr i = 0)) ∧
      (∀ u, (∀ c ∈ jobSeqs h, ∃ r, capRecord s x.part c = some r ∧ r.st = 2) →
        (∃ c ∈ jobSeqs h, ∃ r, capRecord s x.part c = some r ∧ r.nf = true) → slSkip n (hNtens h) s1 = .ok u →
        Gives (.sluJobStart n) s fun t => (t.slu n).ended = some 2 ∧ slState t n = slRUN ∧
          t.reg (rSLU_SKIP_STEPS n) = s.reg (rSLU_SKIP_STEPS n) + 1 ∧ t.reg (rSLU_BLOCKS n) = s.reg (rSLU_BLOCKS n)))) ∧
  (∀ (s : State) (n res d p pa : Nat), n < 16 → let x := s.slu n
    let a := d + 0x80 + 8 * n
    x.ended = some res → x.job = some (d, p) → x.hdrRead = true → d % 256 = 0 → eFaultV s p true .store a 8 = none → eGateV s p true a 8 = true →
    place s p true .store a = .mem pa → isCw pa = false → isLp pa = false → keyOk s p (pa / 128 * 128) = true →
    bankRetired s (pa / 128 * 128) = false → Gives (.sluJobDone n) s fun t =>
      slState t n = slIDLE ∧ (t.slu n).job = none ∧
      (∀ i, i < 8 → t.byte (pa + i) = BitVec.ofNat 8 ((res <<< 62 ||| min x.blocks (2 ^ 32 - 1)) / 2 ^ (8 * i))) ∧
      ∃ q ∈ t.net, q.op = opKNOT ∧ q.src = epSluice n ∧ q.dst = knotHome (hDone x.hdr) ∧ q.addr = 2 ^ 31 + hDone x.hdr ∧ q.payload = 1) ∧
  (∀ (s : State) (o : Origin) (n : Nat), n < 16 →
    (isMgmt o = true → mayReg s o true (rSLU_CTL n) = true → Gives (.sluAbort o n) s fun t => t.rsp = .ok 0 ∧ (t.slu n).abort = (s.slu n).job.isSome ∧
      (∀ m, m ≠ n → t.slu m = s.slu m) ∧ t.mem = s.mem ∧ t.regs = s.regs) ∧
    (isMgmt o = false → Gives (.sluAbort o n) s fun t => t = { s with rsp := .err })) ∧
  (∀ (s : State) (o : Origin) (n : Nat), n < 16 → mayReg s o true (rSLU_ERR n) = true → s.flag (rSLU_ERR n) SLU_ERR_VALID = true →
    (isMgmt o = true ∨ (∃ c, o = .core c ∧ (s.slu n).errPart = s.part c) → Gives (.sluErrClear o n) s fun t =>
      t.rsp = .ok 0 ∧ t.flag (rSLU_ERR n) SLU_ERR_VALID = false ∧ (slState s n = slHALT → slState t n = slIDLE) ∧ t.slus = s.slus ∧ t.mem = s.mem) ∧
    (∀ c, o = .core c → (s.slu n).errPart ≠ s.part c → Gives (.sluErrClear o n) s fun t => t = { s with rsp := .err }))

/-- R203, R210, R213, R215 to R217, R222: NEXT loads the next group of blocks, or writes 0 when none is left; PUT converts and writes the lanes and
clears the touched bits; DROP clears them alone; END ends the entry; misuse stops the job; every other instruction of a program acts
on the unit's registers, and an illegal one stops the job. -/
def Obligations.SluicePrograms : Prop :=
  (∀ (s : State) (n gd : Nat), SlAt s n (seqWord 0 gd) → gd < 32 → let x := s.slu n
    let e := x.ent
    (x.grp ≠ none → slStatusGate s n x = true → Gives (.seqNext n) s fun t => SlFailed t n 7) ∧
    (x.grp = none → x.abort = true → slStatusGate s n x = true → Gives (.seqNext n) s fun t => SlFailed t n 10) ∧
    (x.grp = none → x.abort = false → x.mine = [] → Gives (.seqNext n) s fun t => t = s.setSlu n { x.setG gd 0 with pc := x.pc + 4 }) ∧
    (x.grp = none → x.abort = false → x.mine ≠ [] → ∀ vs ks u, loadGroup n s = .ok (vs, ks, u) → Gives (.seqNext n) s fun t =>
      let y := t.slu n
      y.gr gd = (if gd = 0 then 0 else BitVec.ofNat 64 ks.length) ∧ ks = x.mine.take (groupSize e) ∧ y.mine = x.mine.drop (groupSize e) ∧
      y.grp = some ks ∧ vs.length = 2 + eNs e ∧ (∀ i, i < 2 + eNs e → y.vr i = vs.getD i 0) ∧ (∀ i, 2 + eNs e ≤ i → y.vr i = x.vr i) ∧
      (∀ i, i < 256 → (y.pr 1).getLsbD i = decide (i < ks.length * eEpb e)) ∧ y.pc = x.pc + 4 ∧
      (s.flips = [] → fget (s.gw (eTag e) 0) gUSES = 0 → t.mem = s.mem)) ∧
    (x.grp = none → x.abort = false → (eGf e = 0 ∨ eGf e = 1 ∨ eGf e = 4) → eNs e = 0 → ∀ k bg bp u1 u2, x.mine = [k] →
      slRead n x.part (eTag e) (x.gbase + 256 * k) 256 k true s = .ok (bg, u1) →
      slRead n x.part 0 (bits (hW e 1) 47 0 + k * eEpb e * (fmtWidth (ePf e) / 8)) (eEpb e * (fmtWidth (ePf e) / 8)) k true u1 = .ok (bp, u2) →
      Gives (.seqNext n) s fun t =>
        let y := t.slu n
        let g := fun i => leNat ((bg.drop (i * fmtWidth (eGf e) / 8)).take (fmtWidth (eGf e) / 8))
        let q := fun i => leNat ((bp.drop (i * fmtWidth (ePf e) / 8)).take (fmtWidth (ePf e) / 8))
        (∀ i, i < eEpb e → el32 (y.vr 0) i = BitVec.ofNat 32 (if eGf e = 0 ∧ x.sexp = 0 then g i else fround 0 (fscale (-x.sexp) (fdec (eGf e) (g i))))) ∧
        (∀ i, i < eEpb e → el32 (y.vr 1) i = BitVec.ofNat 32 (if ePf e = 0 then q i else fround 0 (fscale 0 (fdec (ePf e) (q i))))) ∧
        (∀ i, eEpb e ≤ i → i < 256 → el32 (y.vr 0) i = 0 ∧ el32 (y.vr 1) i = 0))) ∧
  (∀ (s : State) (n gd : Nat), SlAt s n (seqWord 1 gd) → gd < 32 → let x := s.slu n
    let e := x.ent
    (x.grp = none → slStatusGate s n x = true → Gives (.seqPut n) s fun t => SlFailed t n 7) ∧
    (∀ ks u, x.grp = some ks → putGroup n (fun j => x.vr (1 + j)) (x.pr 1) (fun _ => true) s = .ok u → Gives (.seqPut n) s fun t =>
      (t.slu n).grp = none ∧ (t.slu n).pc = x.pc + 4 ∧ (t.slu n).blocks = x.blocks + ks.length ∧ Untouched t x.tptr ks ∧
      t.reg (rSLU_BLOCKS n) = s.reg (rSLU_BLOCKS n) + BitVec.ofNat 64 ks.length) ∧
    (∀ k i pa, x.grp = some [k] → eNs e = 0 → eSr e = false → (ePf e = 0 ∨ ePf e = 1) → i < eEpb e → i < 256 →
      (∀ j, j < 256 → (x.pr 1).getLsbD j = decide (j = i)) →
      let w := fmtWidth (ePf e) / 8
      let a := bits (hW e 1) 47 0 + k * eEpb e * w + i * w
      let b := x.tptr + 0x40 + 8 * (k / 64) + k % 64 / 8
      let lane := (el32 (x.vr 1) i).toNat
      a % w = 0 → eFaultV s x.part true .store a w = none → eGateV s x.part true a w = true → place s x.part true .store a = .mem pa →
      isCw pa = false → isLp pa = false → keyOk s x.part (pa / 128 * 128) = true → bankRetired s (pa / 128 * 128) = false →
      isHbm b = true → gateOpen (b / 128) true s = true → s.tbt = [] → s.recal = [] → s.flips = [] →
      s.flag (rSC_FLIP (homeSlice s (pa / 128 * 128) / 16)) SC_FLIP_ARM = false → (b < pa ∨ pa + w ≤ b) → Gives (.seqPut n) s fun t =>
        (∀ j, j < w → t.byte (pa + j) = BitVec.ofNat 8 ((if ePf e = 0 then lane else fconv (ePf e) false none (fdec 0 lane)) / 2 ^ (8 * j))) ∧
        (∀ y, (y < pa ∨ pa + w ≤ y) → y ≠ b → t.byte y = s.byte y) ∧ (t.byte b).getLsbD (k % 8) = false)) ∧
  (∀ (s : State) (n gd : Nat), SlAt s n (seqWord 2 gd) → gd < 32 → let x := s.slu n
    (x.grp = none → slStatusGate s n x = true → Gives (.seqDrop n) s fun t => SlFailed t n 7) ∧
    (∀ ks u, x.grp = some ks → slClear x.tptr ks s = .ok u → Gives (.seqDrop n) s fun t =>
      (t.slu n).grp = none ∧ (t.slu n).pc = x.pc + 4 ∧ (t.slu n).blocks = x.blocks ∧ Untouched t x.tptr ks ∧
      (s.flips = [] → ∀ a, (∀ k ∈ ks, a ≠ x.tptr + 0x40 + 8 * (k / 64) + k % 64 / 8) → t.byte a = s.byte a) ∧
      t.reg (rSLU_BLOCKS n) = s.reg (rSLU_BLOCKS n))) ∧
  (∀ (s : State) (n gd : Nat), SlAt s n (seqWord 3 gd) → gd < 32 → let x := s.slu n
    (x.grp ≠ none → slStatusGate s n x = true → Gives (.seqEnd n) s fun t => SlFailed t n 7) ∧
    (x.grp = none → hNtens x.hdr ≤ x.t + 1 → Gives (.seqEnd n) s fun t => t = s.setSlu n { x with ended := some 1 }) ∧
    (x.grp = none → ∀ u, x.t + 1 < hNtens x.hdr → x.abort = false → slEntry n (x.t + 1) false s = .ok (false, u) → Gives (.seqEnd n) s fun t =>
      (t.slu n).t = x.t + 1 ∧ (t.slu n).pc = 0 ∧ t.fld (rSLU_STAT n) SLU_STAT_TENSOR = (x.t + 1) % 4096 ∧ (t.slu n).grp = none)) ∧
  (∀ (s : State) (n w : Nat), SlAt s n w → bits w 6 0 ≠ 0x1E → let x := s.slu n
    let gd := bits w 31 27
    let ga := bits w 26 22
    let gb := bits w 21 17
    (∀ y, slScalar w x = some y → Gives (.sluiceProgramOp n) s fun t => t = s.setSlu n y) ∧
    (∀ y, slScalar w x = none → slVector w x = some y → Gives (.sluiceProgramOp n) s fun t => t = s.setSlu n { y with pc := x.pc + 4 }) ∧
    (slScalar w x = none → slVector w x = none → slStatusGate s n x = true → Gives (.sluiceProgramOp n) s fun t => SlFailed t n 1) ∧
    (bits w 6 0 = 1 → bits w 16 7 = 0 → Gives (.sluiceProgramOp n) s fun t =>
      (t.slu n).gr gd = (if gd = 0 then 0 else x.gr ga + x.gr gb) ∧ (∀ r, r ≠ gd → (t.slu n).gr r = x.gr r) ∧ (t.slu n).pc = x.pc + 4) ∧
    (bits w 6 0 = 0x16 → bits w 31 29 = 0 → Gives (.sluiceProgramOp n) s fun t =>
      ((t.slu n).pc : Int) = (if x.gr (bits w 28 24) = x.gr (bits w 23 19) then
        ((x.pc : Int) + 4 * sext 12 (bits w 18 7)) % (2 : Int) ^ 64 else (x.pc : Int) + 4)) ∧
    (bits w 6 0 = 0x30 → bits w 12 11 = 0 → bits w 10 7 ≤ 5 → Gives (.sluiceProgramOp n) s fun t =>
      (∀ i, i < 256 → el32 ((t.slu n).vr gd) i =
        if (x.pr (bits w 16 14)).getLsbD i = true then
          let a := (el32 (x.vr ga) i).toNat
          let b := (el32 (x.vr gb) i).toNat
          BitVec.ofNat 32 (match bits w 10 7 with
            | 0 => add32 a b | 1 => sub32 a b | 2 => mul32 a b | 3 => div32 a b | 4 => min32 a b | _ => max32 a b)
        else if bits w 13 13 = 1 then 0 else el32 (x.vr gd) i) ∧
      (∀ r, r ≠ gd → (t.slu n).vr r = x.vr r) ∧ (t.slu n).pc = x.pc + 4 ∧ t.mem = s.mem) ∧
    (9 < bits w 6 0 → bits w 6 0 < 0x16 → slStatusGate s n x = true → Gives (.sluiceProgramOp n) s fun t => SlFailed t n 1))

/-- R218 to R220: a rule operation writes its DST from its sources in every lane, in FP32, and counts; the interpreter loads a group into the u
registers, writes it back by WMASK after its last operation, and ends the entry when no block is left. -/
def Obligations.SluiceRules : Prop :=
  (∀ (s : State) (n w : Nat), SlRunning s n 1 → (s.slu n).grp ≠ none → (s.slu n).opi < bits ((s.slu n).prog.headD 0) 7 0 →
    (s.slu n).prog[4 + (s.slu n).opi]? = some w →
    let x := s.slu n
    let src := fun f i => if f < 16 then (el32 (tget 0 x.u f) i).toNat else hConst x.hdr (f - 16)
    let rule := fun (op : Nat) (i : Instr) (f : Nat → Nat → Nat → Int → Nat) => bits w 31 28 = op → Gives i s fun t =>
      (∀ j, j < 256 → el32 (tget 0 (t.slu n).u (bits w 27 24)) j =
        BitVec.ofNat 32 (f (src (bits w 23 19) j) (src (bits w 18 14) j) (src (bits w 13 9) j) (sext 9 (bits w 8 0)))) ∧
      (∀ r, r ≠ bits w 27 24 → tget 0 (t.slu n).u r = tget 0 x.u r) ∧ (t.slu n).opi = x.opi + 1 ∧
      t = s.setSlu n { x with u := (t.slu n).u, opi := x.opi + 1 }
    rule 0 (.ruleAdd n) (fun a b _ _ => add32 a b) ∧ rule 1 (.ruleMul n) (fun a b _ _ => mul32 a b) ∧
    rule 2 (.ruleFma n) (fun a b c _ => fma32 a b c) ∧ rule 3 (.ruleDiv n) (fun a b _ _ => div32 a b) ∧
    rule 4 (.ruleSqrt n) (fun a _ _ _ => sqrt32 a) ∧ rule 5 (.ruleRsqrt n) (fun a _ _ _ => fnEval Core.reset 6 0 a) ∧
    rule 6 (.ruleMax n) (fun a b _ _ => max32 a b) ∧ rule 7 (.ruleMin n) (fun a b _ _ => min32 a b) ∧
    rule 8 (.ruleSign n) (fun a _ _ _ => match fdec 0 a with
      | .nan => 0x7FC00000 | .fin _ 0 _ => a | _ => if a.testBit 31 then 0xBF800000 else 0x3F800000) ∧
    rule 9 (.ruleClip n) (fun a b c _ => min32 (max32 a b) c) ∧ rule 10 (.ruleLerp n) (fun a b c _ => fma32 c (sub32 b a) a) ∧
    rule 11 (.ruleScale n) (fun a _ _ i => fround 0 (fscale i (fdec 0 a)))) ∧
  (∀ (s : State) (n : Nat), SlRunning s n 1 → let x := s.slu n
    (x.grp = none → x.abort = true → slStatusGate s n x = true → Gives (.ruleGroup n) s fun t => SlFailed t n 10) ∧
    (x.grp = none → x.abort = false → x.mine = [] → hNtens x.hdr ≤ x.t + 1 → Gives (.ruleGroup n) s fun t =>
      t = s.setSlu n { x with ended := some 1 }) ∧
    (x.grp = none → x.abort = false → x.mine ≠ [] → ∀ vs ks u, loadGroup n s = .ok (vs, ks, u) → Gives (.ruleGroup n) s fun t =>
      (∀ i, i < vs.length → tget 0 (t.slu n).u i = vs.getD i 0) ∧ (∀ i, vs.length ≤ i → tget 0 (t.slu n).u i = 0) ∧
      (t.slu n).opi = 0 ∧ (t.slu n).grp = some ks ∧ (s.flips = [] → fget (s.gw (eTag x.ent) 0) gUSES = 0 → t.mem = s.mem)) ∧
    (∀ ks u, x.grp = some ks → bits (x.prog.headD 0) 7 0 ≤ x.opi →
      putGroup n (fun j => tget 0 x.u (1 + j)) (groupMask x.ent ks) (fun j => (x.prog.headD 0).testBit (16 + j)) s = .ok u →
      Gives (.ruleGroup n) s fun t => (t.slu n).grp = none ∧ (t.slu n).blocks = x.blocks + ks.length ∧ Untouched t x.tptr ks ∧
        t.reg (rSLU_BLOCKS n) = s.reg (rSLU_BLOCKS n) + BitVec.ofNat 64 ks.length))

/-! Hawser rings and collectives. -/

/-- R368 to R379, R381, R384, R386 to R390, R392 to R394: a doorbell queues a legal descriptor and fails an illegal one; a collective starts with its record
RUNNING; a frame that passes the checks is taken, acknowledged and handed on by its type, one that does not is counted, and answered
with LINK_NACK; HELLO brings a port UP; retries resend or fail the port; lost signal, training and DOWN take a port out of UP and fail
its groups; dimensions, groups and channels are written; the Spillway's switches move as commanded and close when forced. -/
def Obligations.RingsAndCollectives : Prop :=
  (∀ (s u : State) (o : Origin) (v : Word) (bs : List Byte), mayReg s o true rCAP_DOORBELL = true →
    let p := match o with | .core c => s.part c | _ => fget v CAP_DOORBELL_PART
    let a := fget v CAP_DOORBELL_DESC * 64
    let d := leNat bs
    let g := cGroup d
    capRead p 0 a 64 s = .ok (bs, u) →
    (cBad u p d = false → (u.grp g).queue.length < 8 → grpState u g ≠ cgFAILED → Gives (.capDoorbell o v) s fun t =>
      t.rsp = .ok 0 ∧ (t.grp g).queue = (s.grp g).queue ++ [(d, a)] ∧ (t.grp g).run = (s.grp g).run ∧ t.mem = u.mem) ∧
    (cBad u p d = true → Gives (.capDoorbell o v) s fun t =>
      t.rsp = .ok 0 ∧ t.grps = s.grps ∧ t.reg rCAP_FAILS = s.reg rCAP_FAILS + 1 ∧ (∃ r, capRecord t p (cSeq d) = some r ∧ r.st = 3)) ∧
    (cBad u p d = false → 8 ≤ (u.grp g).queue.length → Gives (.capDoorbell o v) s fun t => t.rsp = .err ∧ t.grps = s.grps ∧ t.mem = u.mem)) ∧
  (∀ (s u : State) (g d va : Nat) (r : List (Nat × Nat)) (c' : Coll), RingQuiet s → g < 256 → (s.grp g).queue = (d, va) :: r →
    grpState s g = cgOK → grpDims s g ≠ [] → (cStag d = 0 ∨ gaugeBad s (cStag d) = false) → (cDtag d = 0 ∨ gaugeBad s (cDtag d) = false) →
    let p := grpPart s g
    let snf := decide (cStag d ≠ 0) && fbit (s.gw (cStag d) 0) gNF
    let c : Coll := { d := d, va := va, part := p, sS := tagS s (cStag d), sD := tagS s (cDtag d), amax := 0, snf := snf, nf := snf,
                      sat := decide (cDtag d ≠ 0) && fbit (s.gw (cDtag d) 0) gSAT, sw := none, cp := 0, cm := 0, wait := [],
                      parts := List.replicate (grpDims s g).length { ph := 0, k := 0, gp := 0, gm := 0, ps := [] } }
    partsStart g (grpDims s g).length c ((setRec p (cSeq d) 1 false s).setGrp g { s.grp g with queue := r, run := some c }) = .ok (c', u) →
    Gives (.collectiveStart g) s fun t => (t.grp g).queue = r ∧ (t.grp g).run = some c' ∧ c'.d = d ∧ c'.wait = [] ∧
      capRecord t p (cSeq d) = some { c := cSeq d, st := 1, nf := false }) ∧
  (∀ (s : State) (k : Nat) (f : Frame), RingQuiet s →
    (FrameGood s k f 0 0 → Gives (.cdata k f) s fun t => FrameTaken s t k ∧
      (f.dmod = modId s → grpState s (bits f.w3 31 24) ≠ cgFAILED → (t.port k).rxbuf = [f] ∧ t.mem = s.mem ∧ t.grps = s.grps)) ∧
    (FrameGood s k f 2 0 → Gives (.sweep k f) s fun t => FrameTaken s t k ∧
      (f.dmod = modId s → grpState s (bits f.w3 23 16) ≠ cgFAILED → (t.port k).rxbuf = [f] ∧ t.mem = s.mem ∧ t.grps = s.grps)) ∧
    (FrameGood s k f 2 1 → Gives (.xhitch k f) s fun t => FrameTaken s t k ∧
      (∀ h gen i a b, f.dmod = modId s → let g := bits f.w3 23 16
        (s.grp g).xh = some (h, gen, i, a, b) → grpState s g ≠ cgFAILED → xhTurn s g k = true → bits f.w3 15 0 = gen →
        let a' := if k % 2 = 1 then a + 1 else a
        let b' := if k % 2 = 1 then b else b + 1
        ¬ (a' = dimN s (k / 2) / 2 ∧ b' = dimN s (k / 2) / 2) → (t.grp g).xh = some (h, gen, i, a', b') ∧ (t.port k).rxbuf = [])) ∧
    (FrameGood s k f 2 2 → Gives (.ddone k f) s fun t => FrameTaken s t k ∧
      (f.dmod = modId s → let ch := Chan.hc (bits f.w3 51 49) (bits f.w3 55 52)
        chState s ch = 1 → (s.chan ch).serial % 2 ^ 25 = bits f.w3 48 24 →
        (bits f.w3 23 20 = 0 → (t.chan ch).ddone = some (0, 0) ∧ chState t ch = 1) ∧
        (bits f.w3 23 20 ≠ 0 → chState t ch = 3 ∧ t.fld ch.rStat CV_STAT_CODE = bits f.w3 23 20 ∧
          t.fld ch.rErr CV_ERRADDR_ADDR = bits f.w4 47 0))) ∧
    (FrameGood s k f 2 3 → Gives (.gfail k f) s fun t => FrameTaken s t k ∧
      (f.dmod = modId s → grpState s (bits f.w3 23 16) = cgOK → GrpFailed t (bits f.w3 23 16) 5)) ∧
    (FrameGood s k f 1 0 → Gives (.ddata k f) s fun t => FrameTaken s t k ∧
      (∀ pa, f.dmod = modId s → f.tag = 0 → let va := bits f.w4 47 0
        let n := f.payload.length
        0 < n → va % 128 + n ≤ 128 → eGateV s f.part true va n = true →
        place s f.part true .store va = .mem pa → isCw pa = false → isLp pa = false → keyOk s f.part (pa / 128 * 128) = true →
        bankRetired s (pa / 128 * 128) = false →
        (eFaultV s f.part true .store va n = none → (∀ i, i < n → t.byte (pa + i) = f.payload.getD i 0) ∧
          (∀ a, a < pa ∨ pa + n ≤ a → t.byte a = s.byte a)) ∧
        (eFaultV s f.part true .store va n ≠ none → t.mem = s.mem))) ∧
    (k < 8 → frameLegal f = true → f.typ = 0 → f.unc = 0 → hwState s k = hwUP → atMark s k = false →
      (f.auth = false → Gives (.cdata k f) s fun t => t.reg (rHW_AUTH k) = s.reg (rHW_AUTH k) + 1 ∧ (t.port k).rx = (s.port k).rx ∧
        ∃ l, (t.port k).link = some l ∧ frSub l = 1 ∧ l.w4 = (s.port k).rx) ∧
      (f.auth = true → (s.fld (rHW_KEYS k) HW_KEYS_LOADED).testBit f.ksel = true → f.seq ≠ (s.port k).rx →
        Gives (.cdata k f) s fun t => t.fld (rHW_DROP k) HW_DROP_SEQ = min (s.fld (rHW_DROP k) HW_DROP_SEQ + 1) (2 ^ 32 - 1) ∧
          (t.port k).rx = (s.port k).rx ∧ (t.port k).rxbuf = [] ∧ t.mem = s.mem))) ∧
  (∀ (s t : State) (g j p : Nat) (f : Frame) (c c' : Coll), rsTake g j p f c s = .ok (c', t) →
    let cp := c.part' j
    let geom := stepGeom s (grpDims s g) (cLen c.d) j cp.k
    let got := if p % 2 = 1 then cp.gp else cp.gm
    let off := streamOff false (p % 2 == 1) geom.2.1 geom.2.2.1 geom.2.2.2.1 geom.2.2.2.2.1 geom.2.2.2.2.2 got
    let w := fmtWidth (cWf c.d) / 8
    let n := f.payload.length * 8 / fmtWidth (cWf c.d)
    ∀ xs u, localVals c cp off n s = .ok (xs, u) → got / geom.2.2.2.2.2 = geom.2.1 - 2 → j < c.parts.length →
      ∃ x ∈ (c'.part' j).ps, x.off = off ∧ x.vals.length = n ∧ (c'.nf = true ↔ c.nf = true ∨ x.nf = true) ∧
        ∀ i, i < n → x.vals.getD i 0 =
          fround 0 (fadd (fscale (-(sext 8 f.xs)) (fdec (cWf c.d) (leNat ((f.payload.drop (i * w)).take w)))) (fdec 0 (xs.getD i 0)))) ∧
  (∀ (s t : State) (g p : Nat) (f : Frame) (c c' : Coll), sweepTake g p f c s = (c', t) →
    c'.amax = amax32 c.amax (bits f.w4 63 32) ∧ c'.nf = (c.nf || f.w4.testBit 0 || f.nf) ∧ t.mem = s.mem) ∧
  (∀ (s : State) (k : Nat) (f : Frame), RingStill s → k < 8 → frameLegal f = true → f.typ = 3 → f.unc = 0 → f.auth = true →
    (s.fld (rHW_KEYS k) HW_KEYS_LOADED).testBit f.ksel = true →
    (frSub f = 2 → hwState s k = hwTRAINED → Gives (.hello k f) s fun t =>
      t.fld (rHW_STAT k) HW_STAT_NBR_MOD = bits f.w3 12 0 ∧ t.fld (rHW_STAT k) HW_STAT_NBR_PORT = bits f.w3 15 13 ∧
      (bits f.w3 12 0 = nbrId s k ∧ bits f.w3 15 13 = thru k → hwState t k = hwUP ∧ t.flag (rHW_STAT k) HW_STAT_NBR_OK = true ∧
        (t.port k).rx = f.w4) ∧
      (¬ (bits f.w3 12 0 = nbrId s k ∧ bits f.w3 15 13 = thru k) → hwState t k = hwTRAINED ∧ t.flag (rHW_STAT k) HW_STAT_NBR_OK = false ∧
        (t.port k).rx = (s.port k).rx)) ∧
    (∀ q m, hwState s k = hwUP → (s.port k).out = [] → (s.port k).retry = [(q, m)] → (s.port k).snd = q.seq + 1 → q.seq + 1 < 2 ^ 48 →
      (frSub f = 0 → f.ack = q.seq + 1 → Gives (.linkAck k f) s fun t => (t.port k).retry = [] ∧ hwState t k = hwUP ∧
        t.reg (rHW_RX k) = s.reg (rHW_RX k) + 1) ∧
      (frSub f = 1 → f.ack = q.seq → m ≤ s.fld (rHW_CTL k) HW_CTL_RETRY_MAX → Gives (.linkNack k f) s fun t =>
        (t.port k).retry = [(q, m + 1)] ∧ hwState t k = hwUP ∧ t.reg (rHW_RETX k) = s.reg (rHW_RETX k) + 1))) ∧
  (∀ (s : State) (k m : Nat) (q : Frame), RingStill s → k < 8 → hwState s k = hwUP → (s.port k).out = [] → (s.port k).retry = [(q, m)] →
    (s.port k).snd = q.seq + 1 →
    (m ≤ s.fld (rHW_CTL k) HW_CTL_RETRY_MAX → Gives (.retransmitTimeout k) s fun t =>
      (t.port k).retry = [(q, m + 1)] ∧ hwState t k = hwUP ∧ t.reg (rHW_RETX k) = s.reg (rHW_RETX k) + 1) ∧
    (s.fld (rHW_CTL k) HW_CTL_RETRY_MAX < m → Gives (.retransmitTimeout k) s fun t => hwState t k = hwFAILED ∧ (t.port k).retry = [])) ∧
  (∀ (s : State) (o : Origin) (k rx lanes : Nat), RingStill s → k < 8 →
    (hwState s k ≠ hwDOWN → dimEn s (k / 2) = true → Gives (.laneSignalLoss k) s fun t =>
      hwState t k = hwTRAINING ∧ t.flag (rHW_STAT k) HW_STAT_NBR_OK = false ∧ t.fld (rHW_STAT k) HW_STAT_RX_LANES = 0 ∧
      ∀ g, g < 256 → k / 2 ∈ grpDims s g → hwState s k = hwUP → grpState s g = cgOK → GrpFailed t g 2) ∧
    (hwState s k = hwTRAINING → atMark s k = false → Gives (.portTrained k rx) s fun t =>
      hwState t k = hwTRAINED ∧ t.fld (rHW_STAT k) HW_STAT_RX_LANES = rx % 256 ∧
      t.fld (rHW_STAT k) HW_STAT_TX_LANES = s.fld (rHW_CTL k) HW_CTL_LANE_EN ∧
      ∃ l, (t.port k).link = some l ∧ frSub l = 2 ∧ l.w4 = firstUna s k ∧ l.dmod = nbrId s k) ∧
    (mayReg s o true (rHW_CTL k) = true → s.flag (rHW_CTL k) HW_CTL_DOWN = false → s.flag (rHW_CTL k) HW_CTL_TRAIN = false →
      (dimEn s (k / 2) = true → Gives (.hwTrain o k) s fun t => t.rsp = .ok 0 ∧ hwState t k = hwTRAINING) ∧
      Gives (.hwDown o k) s (fun t => t.rsp = .ok 0 ∧ hwState t k = hwDOWN) ∧
      Gives (.laneEnWrite o k lanes) s (fun t => t.rsp = .ok 0 ∧ t.fld (rHW_CTL k) HW_CTL_LANE_EN = lanes % 256 ∧ hwState t k = hwState s k ∧
        (hwState s k = hwTRAINED ∨ hwState s k = hwUP → t.fld (rHW_STAT k) HW_STAT_TX_LANES = lanes % 256)))) ∧
  (∀ (s : State) (o : Origin) (g : Nat) (v : Word), g < 256 →
    ((s.grp g).run ≠ none → grpState s g = cgOK → Gives (.capstanTimeout g) s fun t => GrpFailed t g 4) ∧
    ((s.grp g).run = none → Gives (.capstanTimeout g) s fun t => t = s) ∧
    (mayReg s o true (rCAP_GRP g) = true → Gives (.capGrpWrite o g v) s fun t =>
      t.rsp = .ok 0 ∧ t.flag (rCAP_GRP g) CAP_GRP_EN = fbit v CAP_GRP_EN ∧ grpPart t g = fget v CAP_GRP_PART ∧
      t.fld (rCAP_GRP g) CAP_GRP_DIMS = fget v CAP_GRP_DIMS ∧
      grpState t g = (if s.flag (rCAP_GRP g) CAP_GRP_EN = fbit v CAP_GRP_EN then grpState s g else if fbit v CAP_GRP_EN then cgOK else 0))) ∧
  (∀ (s : State) (o : Origin) (d : Nat) (v : Word), RingStill s → d < 4 → mayReg s o true (rCAP_DIM d) = true →
    (capDimOk d v s = true → Gives (.capDimWrite o d v) s fun t =>
      t.rsp = .ok 0 ∧ dimEn t d = fbit v CAP_DIM_EN ∧ t.fld (rCAP_DIM d) CAP_DIM_SIZE = fget v CAP_DIM_SIZE ∧
      t.fld (rCAP_DIM d) CAP_DIM_POS = fget v CAP_DIM_POS ∧ t.fld rCAP_MODID CAP_MODID_ID = modId t % 2 ^ 13 ∧
      (dimEn s d = true → fbit v CAP_DIM_EN = false → hwState t (2 * d) = hwDOWN ∧ hwState t (2 * d + 1) = hwDOWN)) ∧
    ((∃ g, g < 256 ∧ s.flag (rCAP_GRP g) CAP_GRP_EN = true ∧ d ∈ grpDims s g) ∨
      (fbit v CAP_DIM_EN = true ∧ (s.fld rCAP_CTL CAP_CTL_DLIC ≤ d ∨ fget v CAP_DIM_SIZE < fget v CAP_DIM_POS ∨ fget v CAP_DIM_SIZE = 0)) →
      Gives (.capDimWrite o d v) s fun t => t.rsp = .err ∧ t.reg (rCAP_DIM d) = s.reg (rCAP_DIM d))) ∧
  (∀ (s : State) (o : Origin) (k n : Nat) (v : Word), k < 8 → n < 16 → mayReg s o true (rHC_HEAD k n) = true → fget v CV_HEAD_ADDR ≠ 0 →
    (chState s (.hc k n) = 0 → Gives (.hcHeadWrite o k n v) s fun t => t.rsp = .ok 0 ∧ chState t (.hc k n) = 1 ∧
      t.fld (rHC_HEAD k n) CV_HEAD_ADDR = fget v CV_HEAD_ADDR ∧ (t.chan (.hc k n)).cur = none ∧ t.mem = s.mem) ∧
    (chState s (.hc k n) = 1 → Gives (.hcHeadWrite o k n v) s fun t => t = { s with rsp := .err })) ∧
  (∀ (s : State) (o : Origin) (d : Nat), RingStill s → d < 4 →
    (mayReg s o true (rSPW d) = true →
      (spwPos s d = spOPEN → Gives (.spillwayClose o d) s fun t =>
        t.rsp = .ok 0 ∧ spwPos t d = spMOVING ∧ tget 0 t.spwTo d = spCLOSED ∧ t.fld (rSPW d) SPW_CAUSE = 7) ∧
      (spwMayOpen s d = true → spwPos s d = spCLOSED → Gives (.spillwayOpen o d) s fun t =>
        t.rsp = .ok 0 ∧ spwPos t d = spMOVING ∧ tget 0 t.spwTo d = spOPEN ∧ hwState t (2 * d) = hwTRAINING ∧
        hwState t (2 * d + 1) = hwTRAINING) ∧
      (s.flag (rSPW d) SPW_FORCE = true ∨ dimEn s d = false ∨ hwState s (2 * d) = hwFAILED → Gives (.spillwayOpen o d) s fun t =>
        t.rsp = .err ∧ spwPos t d = spwPos s d)) ∧
    (spwPos s d = spMOVING → tget 0 s.spwTo d < 4 → Gives (.spillwayMoveDone d) s fun t => spwPos t d = tget 0 s.spwTo d ∧
      ∀ a, a ≠ rSPW d → t.reg a = s.reg a) ∧
    (Gives (.bypassForceNLow false) s fun t => t.flag (rSPW d) SPW_FORCE = true ∧
      (spwPos s d = spOPEN → spwPos t d = spMOVING ∧ tget 0 t.spwTo d = spCLOSED ∧ t.fld (rSPW d) SPW_CAUSE = 4)) ∧
    (Gives (.bypassForceNLow true) s fun t => t.flag (rSPW d) SPW_FORCE = false ∧ spwPos t d = spwPos s d))

/-! The Tether. -/

/-- R396 to R422: training, DOWN and the sub-links' flits; the companion's requests are admitted by the Ledger and TT_PARTACC, answered with data, an
acknowledgement or ERR, and change the snoop filter and memory; snoops of companion lines are answered from the slice; answers end the
device's requests and snoops; an answer that does not come ends its request, and a snoop's loses the link; MSIs, windows, mailboxes and
register messages act. -/
def Obligations.TetherLink : Prop :=
  (∀ (s : State) (o : Origin), mayReg s o true rTT_CTL = true →
    (s.flag rTT_CTL TT_CTL_WRESET = false → AllQuiet s → s.cwReqs = [] →
      (s.flag rTT_CTL TT_CTL_DOWN = false → Gives (.ttTrain o) s fun t => t.rsp = .ok 0 ∧
        (∀ k, k < 2 → subState t k = if (s.hgx k).rom = true then slDOWN else slTRAINING) ∧
        t.flag rTT_STAT TT_STAT_LOST = false ∧ t.fld rTT_STAT TT_STAT_WIDTH = 0 ∧ t.mem = s.mem) ∧
      Gives (.ttDown o) s (fun t => t.rsp = .ok 0 ∧ subState t 0 = slDOWN ∧ subState t 1 = slDOWN ∧ t.mem = s.mem)) ∧
    (powered s = true → Gives (.ttWreset o) s fun t => t.rsp = .ok 0 ∧ t.boot = (if s.boot = 1 then 1 else 2) ∧ subState t 0 = slDOWN ∧
      subState t 1 = slDOWN ∧ t.mem = s.mem ∧ t.pending = s.pending ∧ ∀ c, c < 1024 → t.flag (rCORE_CTL c) CORE_CTL_RUN = false)) ∧
  (∀ (s : State) (k : Nat), k < 2 →
    (subState s k = slTRAINING → Gives (.sublinkLocked k) s fun t => (t.sub k).locked = true ∧ t.regs = s.regs ∧ t.mem = s.mem) ∧
    (subState s k = slTRAINING → subLine s k = false → Gives (.sublinkTrainTimeout k) s fun t => subState t k = slFAILED ∧ t.mem = s.mem) ∧
    (subState s k = slRETRAIN → subLine s k = true → AllQuiet s → s.cwReqs = [] → Gives (.sublinkTrainTimeout k) s fun t =>
      subState t k = slFAILED ∧ t.flag rTT_STAT TT_STAT_LOST = true ∧ t.fld rTT_STAT TT_STAT_WIDTH = 0 ∧ t.snoops = [] ∧ t.mem = s.mem) ∧
    (subState s k = slUP → Gives (.sublinkTrainTimeout k) s fun t => t = s)) ∧
  (∀ (s : State) (k : Nat) (f : Flit), k < 2 → s.flag rTT_STAT TT_STAT_LOST = false →
    (f.crc = true → subState s k = slTRAINING → (s.sub k).locked = true → Gives (.idleFlit k f) s fun t => subState t k = slUP ∧ t.mem = s.mem) ∧
    (subState s k = slUP →
      (f.crc = false → ∀ i ∈ [Instr.idleFlit k f, .msgFlit k f, .nak k f, .steer k f], Gives i s fun t =>
        t.fld rTT_CRC (if k = 0 then TT_CRC_SL0 else TT_CRC_SL1) = min (s.fld rTT_CRC (if k = 0 then TT_CRC_SL0 else TT_CRC_SL1) + 1) (2 ^ 32 - 1) ∧
        t.ttIn = s.ttIn ∧ t.tt = s.tt) ∧
      (f.crc = true →
        (∀ q m, (s.sub k).out = [] → (s.sub k).replay = [(q, m)] → q < 4096 → f.ack = (q + 1) % 4096 → Gives (.idleFlit k f) s fun t =>
          (t.sub k).replay = [] ∧ (t.sub k).tries = 0 ∧ (t.sub k).frx = (s.sub k).frx ∧
          ∀ i, i < 5 → tget 0 (t.sub k).credits (i + 1) = tget 0 (s.sub k).credits (i + 1) + f.cr.getD i 0) ∧
        (f.fseq = (s.sub k).frx →
          (msgSlots f.msg = some (f.nslot + 1) → (f.msg.cls = 5 ∨ (s.sub k).steered = true) → Gives (.msgFlit k f) s fun t =>
            t.ttIn = s.ttIn ++ [(k, f.msg)] ∧ (t.sub k).frx = ((s.sub k).frx + 1) % 4096 ∧ t.mem = s.mem) ∧
          (msgSlots f.msg ≠ some (f.nslot + 1) → Gives (.msgFlit k f) s fun t =>
            t.ttIn = s.ttIn ∧ (t.sub k).frx = ((s.sub k).frx + 1) % 4096 ∧ t.reg rTT_PROTO = s.reg rTT_PROTO + 1)) ∧
        (f.fseq ≠ (s.sub k).frx → ∀ i ∈ [Instr.msgFlit k f, .steer k f], Gives i s fun t =>
          t.ttIn = s.ttIn ∧ (t.sub k).frx = (s.sub k).frx ∧ t.fld rTT_STAT TT_STAT_WIDTH = s.fld rTT_STAT TT_STAT_WIDTH) ∧
        (∀ q m r, (s.sub k).replay = (q, m) :: r → q < 4096 → f.ack = q →
          ((s.sub k).tries < s.fld rTT_CTL TT_CTL_RETRY_MAX → Gives (.nak k f) s fun t =>
            subState t k = slUP ∧ (t.sub k).tries = (s.sub k).tries + 1 ∧ ∃ l, (t.sub k).replay = (q, m) :: r ++ l) ∧
          (s.fld rTT_CTL TT_CTL_RETRY_MAX ≤ (s.sub k).tries → Gives (.nak k f) s fun t =>
            subState t k = slRETRAIN ∧ (t.sub k).locked = false)) ∧
        (f.fseq = (s.sub k).frx → AllQuiet s → (f.width.testBit 0 = true → subState s 0 = slUP) →
          (f.width.testBit 1 = true → subState s 1 = slUP) → Gives (.steer k f) s fun t =>
            t.fld rTT_STAT TT_STAT_WIDTH = f.width % 4 ∧ (t.sub k).steered = true ∧ (t.sub k).frx = ((s.sub k).frx + 1) % 4096) ∧
        (f.fseq = (s.sub k).frx → (f.width.testBit 0 = true ∧ subState s 0 ≠ slUP) ∨ (f.width.testBit 1 = true ∧ subState s 1 ≠ slUP) → Gives (.steer k f) s fun t =>
          t.fld rTT_STAT TT_STAT_WIDTH = s.fld rTT_STAT TT_STAT_WIDTH ∧ t.reg rTT_PROTO = s.reg rTT_PROTO + 1)))) ∧
  (∀ (s : State) (k : Nat) (m : TMsg), let line := m.addr
    let e := s.le (frameOf (line * 128))
    let u := if e.v = true ∧ e.owner = m.part then touchEc (epTether 0 0) m.part (e.vpn * 2 ^ 21) s else s
    let data := fun (i : Instr) (st : Nat) (flt : Option Bool) => Gives i s fun t =>
      Replied t k { m with cls := 4, op := 0, status := 0, state := st, data := u.rdLine line, mask := 0 } ∧ filterOf t line = flt ∧ t.mem = s.mem
    let refused := fun (i : Instr) => Gives i s fun t =>
      Replied t k { m with cls := 3, op := 4, status := 2, state := 0, data := 0, mask := 0 } ∧ filterOf t line = filterOf s line ∧ t.mem = s.mem ∧
      t.fld rTT_ACCERR TT_ACCERR_COUNT = min (s.fld rTT_ACCERR TT_ACCERR_COUNT + 1) 65535 ∧ t.fld rTT_ACCERR TT_ACCERR_ADDR = line % 2 ^ 41
    let wrote := fun (i : Instr) (mask : BitVec 128) => Gives i s fun t =>
      Replied t k { m with cls := 3, op := 0, status := 0, state := 0, data := 0, mask := 0 } ∧ filterOf t line = none ∧
      (∀ j, j < 128 → t.byte (line * 128 + j) = if mask.getLsbD j then m.data.extractLsb' (8 * j) 8 else s.byte (line * 128 + j)) ∧
      ∀ a, a / 128 ≠ line → t.byte a = s.byte a
    (∀ own : Bool, MsgFront s k m 1 (if own then 1 else 0) → let i : Instr := if own then .rdOwn k m else .rdShared k m
      (ttAdmit s m own true = true → filterOf s line ≠ some true → homeFree u line false = true → filterRoom s line = true →
        LineHere u line m.part → data i (if own then 2 else 1) (some own)) ∧
      (ttAdmit s m own true = false → refused i) ∧
      (ttAdmit s m own true = true → filterOf s line = some true → Gives i s fun t => t.reg rTT_PROTO = s.reg rTT_PROTO + 1 ∧
        filterOf t line = some true ∧ (∀ j, t.sub j = if j = k then { u.sub k with freed := (t.sub k).freed } else u.sub j) ∧ t.mem = s.mem)) ∧
    (MsgFront s k m 1 2 →
      (ttAdmit s m false false = true → inTest u line = false → s.held = [] → LineHere u line m.part → data (.rdCur k m) 0 (filterOf s line)) ∧
      (ttAdmit s m false false = false → refused (.rdCur k m))) ∧
    (MsgFront s k m 1 3 →
      (filterOf s line = some false → ttAdmit s m false true = true → homeFree u line false = true → Gives (.upgrade k m) s fun t =>
        Replied t k { m with cls := 3, op := 1, status := 0, state := 2, data := 0, mask := 0 } ∧ filterOf t line = some true ∧ t.mem = s.mem) ∧
      (filterOf s line = some false → ttAdmit s m false true = false → refused (.upgrade k m)) ∧
      (filterOf s line = none → ttAdmit s m true true = true → homeFree u line false = true → filterRoom s line = true →
        LineHere u line m.part → data (.upgrade k m) 2 (some true))) ∧
    (MsgFront s k m 1 4 →
      (ttAdmit s m false false = true → Gives (.evict k m) s fun t =>
        Replied t k { m with cls := 3, op := 3, status := 0, state := 0, data := 0, mask := 0 } ∧
        filterOf t line = (if snoopOut s line = true then filterOf s line else none) ∧ t.mem = s.mem) ∧
      (ttAdmit s m false false = false → refused (.evict k m))) ∧
    (ttAdmit s m true false = true → homeFree u line true = true → LineHere u line m.part → m.tag = 0 →
      (MsgFront s k m 1 5 → wrote (.wrLine k m) (BitVec.allOnes 128)) ∧ (MsgFront s k m 1 6 → wrote (.wrPart k m) m.mask) ∧
      (MsgFront s k m 1 7 → s.snoops = [] → filterOf s line = some true → wrote (.wrBack k m) (BitVec.allOnes 128))) ∧
    (ttAdmit s m true false = false → (MsgFront s k m 1 5 → refused (.wrLine k m)) ∧ (MsgFront s k m 1 6 → refused (.wrPart k m))) ∧
    (∀ q, MsgFront s k m 1 7 → AllQuiet s → s.snoops = [q] → q.line = line → q.wbp = true → LineHere s line m.part → m.tag = 0 →
      wrote (.wrBack k m) (BitVec.allOnes 128)) ∧
    (∀ inv : Bool, MsgFront s k m 2 (if inv then 1 else 0) → s.cwReqs = [] → let i : Instr := if inv then .snpInv k m else .snpData k m
      let n := homeSlice s (line * 128)
      let left := if inv then 0 else 1
      (tget? line (s.slice n).comp = none → Gives i s fun t =>
        Replied t k { m with cls := 3, op := 2, status := 0, state := 0, data := 0, mask := 0 } ∧ t.slices = s.slices) ∧
      (∀ st d, tget? line (s.slice n).comp = some (st, d) → Gives i s fun t =>
        Replied t k { m with cls := if st = 3 then 4 else 3, op := if st = 3 then 1 else 2, status := 0, state := left,
                             data := if st = 3 then d else 0, mask := 0 } ∧
        tget? line (t.slice n).comp = (if inv then none else some (1, d)) ∧ t.mem = s.mem))) ∧
  (∀ (s : State) (k : Nat) (m : TMsg) (q : CwReq),
    (TtAnswer s k m 3 0 q → 5 ≤ q.op → Gives (.ttWrAck k m) s fun t => t.cwReqs = [] ∧ t.mem = s.mem ∧
      ∀ p, q.pkt = some p → ∃ r ∈ t.net, r.op = opWR_ACK ∧ r.dst = p.src ∧ r.txid = p.txid ∧ r.bad = 0) ∧
    (TtAnswer s k m 3 1 q → q.op = 3 → ∀ st d, tget? q.line (s.slice q.slice).comp = some (st, d) → Gives (.grant k m) s fun t =>
      t.cwReqs = [] ∧ tget? q.line (t.slice q.slice).comp = some (2, d) ∧ t.mem = s.mem) ∧
    (TtAnswer s k m 3 3 q → q.op = 4 → Gives (.evictAck k m) s fun t => t.cwReqs = [] ∧ t.slices = s.slices ∧ t.mem = s.mem) ∧
    (TtAnswer s k m 3 4 q →
      (q.op ≤ 3 → Gives (.ttErr k m) s fun t => t.cwReqs = [] ∧ tget? q.line t.cwBuf = some none ∧ t.mem = s.mem) ∧
      (∀ p, q.op = 5 → q.pkt = some p → Gives (.ttErr k m) s fun t => t.cwReqs = [] ∧
        ∃ r ∈ t.net, r.op = opWR_ACK ∧ r.dst = p.src ∧ r.txid = p.txid ∧ r.bad = 1)) ∧
    (TtAnswer s k m 4 0 q →
      (q.op = 2 → Gives (.ttRdData k m) s fun t => t.cwReqs = [] ∧ tget? q.line t.cwBuf = some (some m.data) ∧ t.mem = s.mem) ∧
      (q.op ≤ 1 → Gives (.ttRdData k m) s fun t => q ∉ t.cwReqs ∧ tget? q.line (t.slice q.slice).comp = some (m.state, m.data) ∧ t.mem = s.mem)) ∧
    (MsgFront s k m 3 0 → s.cwReqs = [] → Gives (.ttWrAck k m) s fun t =>
      t.reg rTT_PROTO = s.reg rTT_PROTO + 1 ∧ t.mem = s.mem)) ∧
  (∀ (s : State) (k : Nat) (m : TMsg) (q : Snoop), AllQuiet s → s.snoops = [q] → q.sub = k → q.txid = m.txid →
    let flt := if m.state = 1 ∧ q.inv = false then some false else none
    (MsgFront s k m 3 2 →
      (m.state ≠ 4 → Gives (.snpAck k m) s fun t => t.snoops = [] ∧ filterOf t q.line = flt ∧ t.mem = s.mem) ∧
      (m.state = 4 → Gives (.snpAck k m) s fun t => t.snoops = [{ q with wbp := true }] ∧ t.slices = s.slices ∧ t.mem = s.mem)) ∧
    (MsgFront s k m 4 1 → LineHere s q.line m.part → m.tag = 0 → Gives (.snpDataRsp k m) s fun t => t.snoops = [] ∧ filterOf t q.line = flt ∧
      (∀ j, j < 128 → t.byte (q.line * 128 + j) = m.data.extractLsb' (8 * j) 8) ∧ ∀ a, a / 128 ≠ q.line → t.byte a = s.byte a)) ∧
  (∀ (s : State) (k a i off : Nat) (m : TMsg) (b : Blk) (r : RegRow), mgmtAddr m = some a → blkOf a = some (b, i, off) →
    b ∈ [Blk.chip, .errlog, .weir, .canal] → regRow a = some r →
    let rsp := fun (t : State) (st : Nat) (v : Word) =>
      Replied t k { m with cls := 5, op := 2, status := st, state := 0, data := BitVec.ofNat 1024 v.toNat, mask := 0 }
    (MsgFront s k m 5 0 → mayReg s .comp false a = true → Gives (.regRd k m) s fun t => rsp t 0 (s.reg a &&& ~~~ BitVec.ofNat 64 r.wo) ∧
      t.reg a = s.reg a &&& ~~~ BitVec.ofNat 64 r.rc) ∧
    (MsgFront s k m 5 1 → mayReg s .comp true a = true → Gives (.regWr k m) s fun t => rsp t 0 0 ∧
      ∀ j, j < 64 → r.rw.testBit j = true → r.w1c.testBit j = false → (t.reg a).getLsbD j = m.data.getLsbD j)) ∧
  (∀ (s : State) (k a : Nat) (m : TMsg), mgmtAddr m = some a →
    let refused := fun (t : State) => Replied t k { m with cls := 5, op := 2, status := 3, state := 0, data := 0, mask := 0 } ∧ t.regs = s.regs
    (MsgFront s k m 5 0 → blkOf a = none → Gives (.regRd k m) s refused) ∧
    (MsgFront s k m 5 1 → (blkOf a = none ∨ ∃ i off, blkOf a = some (.fuse, i, off)) → Gives (.regWr k m) s refused)) ∧
  (∀ (s : State) (k x : Nat) (m : TMsg),
    (MsgFront s k m 5 2 → Gives (.regRsp k m) s fun t => t.reg rTT_PROTO = s.reg rTT_PROTO + 1 ∧ t.ttIn = s.ttIn.erase (k, m) ∧ t.mem = s.mem) ∧
    (MsgFront s k m 5 3 → Gives (.msi k m) s fun t => t.reg rTT_PROTO = s.reg rTT_PROTO + 1 ∧ t.ttIn = s.ttIn.erase (k, m) ∧ t.mem = s.mem) ∧
    (∀ q, AllQuiet s → s.cwReqs = [q] → q.sub = k → q.txid = x → q.dead = false → q.op ≤ 3 → Gives (.ttReqTimeout k x) s fun t =>
      t.cwReqs = [{ q with dead := true, pkt := none, eng := 0 }] ∧ tget? q.line t.cwBuf = some none ∧
      t.fld rTT_TMO TT_TMO_REQ = min (s.fld rTT_TMO TT_TMO_REQ + 1) (2 ^ 32 - 1) ∧ t.mem = s.mem) ∧
    (∀ q ∈ s.snoops, AllQuiet s → s.cwReqs = [] → q.sub = k → q.txid = x → q.wbp = false → Gives (.ttSnoopTimeout k x) s fun t =>
      t.flag rTT_STAT TT_STAT_LOST = true ∧ t.fld rTT_STAT TT_STAT_WIDTH = 0 ∧ t.snoops = [] ∧ t.ttIn = [] ∧ t.mem = s.mem)) ∧
  (∀ (s : State) (o : Origin) (p : Nat) (v : Word), p < 8 → mayReg s o true (rTT_MSI p) = true →
    let w := s.fld rTT_STAT TT_STAT_WIDTH
    let k := if w = 3 then (match o with | .core c => coreHalf c | .hg h => h | .comp => 0) else if w = 2 then 1 else 0
    (w ≠ 0 → Gives (.ttMsiWrite o p v) s fun t => t.rsp = .ok 0 ∧ t.reg rTT_MSIS = s.reg rTT_MSIS + 1 ∧
      Replied t k { tmsg0 with cls := 5, op := 3, part := p, addr := fget v TT_MSI_VECTOR }) ∧
    (w = 0 → Gives (.ttMsiWrite o p v) s fun t => t.rsp = .ok 0 ∧ t.reg rTT_PROTO = s.reg rTT_PROTO + 1 ∧ t.tt = s.tt)) ∧
  (∀ (s : State) (o : Origin) (w : Nat) (v : Word), w < 8 →
    (mayReg s o true (rTT_CWBASE w) = true →
      (cwOverlap w v (s.reg (rTT_CWSIZE w)) s = false → Gives (.ttCwWrite o false w v) s fun t => t.rsp = .ok 0 ∧
        t.fld (rTT_CWBASE w) TT_CWBASE_BASE = fget v TT_CWBASE_BASE ∧ t.flag (rTT_CWBASE w) TT_CWBASE_EN = fbit v TT_CWBASE_EN ∧
        t.flag (rTT_CWBASE w) TT_CWBASE_WR = fbit v TT_CWBASE_WR ∧ t.flag (rTT_CWBASE w) TT_CWBASE_CACHE = fbit v TT_CWBASE_CACHE) ∧
      (∀ q, q < 8 → q ≠ w → fbit v TT_CWBASE_EN = true → s.flag (rTT_CWBASE q) TT_CWBASE_EN = true →
        fget v TT_CWBASE_BASE < s.fld (rTT_CWBASE q) TT_CWBASE_BASE + s.fld (rTT_CWSIZE q) TT_CWSIZE_SIZE →
        s.fld (rTT_CWBASE q) TT_CWBASE_BASE < fget v TT_CWBASE_BASE + s.fld (rTT_CWSIZE w) TT_CWSIZE_SIZE →
        Gives (.ttCwWrite o false w v) s fun t => t = { s with rsp := .err })) ∧
    (mayReg s o true (rTT_CWSIZE w) = true → cwOverlap w (s.reg (rTT_CWBASE w)) v s = false → Gives (.ttCwWrite o true w v) s fun t =>
      t.rsp = .ok 0 ∧ t.fld (rTT_CWSIZE w) TT_CWSIZE_SIZE = fget v TT_CWSIZE_SIZE)) ∧
  (∀ (s : State) (h : Nat), h < 2 →
    (mayReg s .comp true (rMB_CTL h) = true → Gives (.mbInDoor h) s fun t =>
      t.rsp = .ok 0 ∧ t.flag (rMB_CTL h) MB_CTL_IN_FULL = true ∧ (t.reg (rHG_EVENT h)).getLsbD 1 = true ∧
      t.fld (rMB_CTL h) MB_CTL_OUT_VEC = s.fld (rMB_CTL h) MB_CTL_OUT_VEC) ∧
    (mayReg s (.hg h) true (rMB_CTL h) = true → Gives (.mbOutDoor h) s fun t =>
      t.rsp = .ok 0 ∧ t.flag (rMB_CTL h) MB_CTL_OUT_FULL = true ∧ t.reg rTT_MSIS = s.reg rTT_MSIS + 1 ∧
      Replied t h { tmsg0 with cls := 5, op := 3, part := 0, addr := s.fld (rMB_CTL h) MB_CTL_OUT_VEC }))

/-! The Logline, snapshots and the protection of stored data. -/

/-- R425 to R440, R442: a commit that passes the checks advances LOG_LAST and is mirrored, one that does not names its cause; TAKE, COMMIT, DROP and
the rollbacks act or wait, and are refused outside their states; the sweep sets S; a copy takes a place, and when it is done its frame
holds the page, its record is appended and S is 0; a copy migrates; a rollback restores; SN_CTL takes legal values only. -/
def Obligations.LoglineAndSnapshots : Prop :=
  (∀ (s : State) (o : Origin) (k : Nat) (v : Word), k < 8 → mayReg s o true (rLOG_COMMIT k) = true →
    let st := v.toNat
    let bad := fun (c : Nat) => Gives (.logCommit o k v) s fun t => t.rsp = .ok 0 ∧ t.fld (rLOG_STAT k) LOG_STAT_CAUSE = c ∧
      t.fld (rLOG_STAT k) LOG_STAT_REFUSED = min (s.fld (rLOG_STAT k) LOG_STAT_REFUSED + 1) (2 ^ 32 - 1) ∧ t.reg (rLOG_LAST k) = s.reg (rLOG_LAST k)
    let bound := st ≤ (s.reg (rSN_OLDSTEP k)).toNat + s.fld (rSN_CTL k) SN_CTL_N
    (snState s k = 0 → bad 6) ∧ (snState s k ≠ 0 → st ≠ (s.reg (rLOG_LAST k)).toNat + 1 → bad 1) ∧
    (snState s k ≠ 0 → st = (s.reg (rLOG_LAST k)).toNat + 1 →
      (¬ bound → bad 4) ∧ (bound → mirrorBehind s k st = true → bad 5) ∧
      (bound → mirrorBehind s k st = false →
        (∀ u, slotRead k st s = (none, u) → bad 7) ∧
        (∀ r u, slotRead k st s = (some r, u) →
          let fits := leNat ((r.drop 8).take 8) = st ∧ leNat (r.take 2) = 1 ∧ leNat ((r.drop 2).take 1) ≤ 19 ∧ leNat ((r.drop 3).take 1) = k ∧
            ∀ i b, r[i]? = some b → recReserved (leNat ((r.drop 2).take 1)) i = true → b = 0
          (¬ fits → bad 2) ∧ (fits → sha256 (r.take 0x3E0) ≠ r.drop 0x3E0 → bad 3) ∧
          (fits → sha256 (r.take 0x3E0) = r.drop 0x3E0 → Gives (.logCommit o k v) s fun t => t.rsp = .ok 0 ∧ t.reg (rLOG_LAST k) = v ∧
            t.mem = s.mem ∧ t.fld (rLOG_STAT k) LOG_STAT_REFUSED = s.fld (rLOG_STAT k) LOG_STAT_REFUSED ∧
            (t.snap k).mirC = (if s.flag (rLOG_MIRROR k) LOG_MIRROR_MIRC then (s.snap k).mirC ++ [st] else (s.snap k).mirC)))))) ∧
  (∀ (s u : State) (k st : Nat) (rest : List Nat) (r : List Byte), k < 8 → st < 2 ^ 64 →
    ((s.snap k).mirC = st :: rest →
      ((s.snap k).mirOut = true → (s.cwReqs.any fun q => q.eng == logEng k) = false → mirrorLost s (mirrorPa s k st) = [] →
        Gives (.logMirrorCompanion k) s fun t => (t.reg (rLOG_MIRC k)).toNat = st ∧ (t.snap k).mirC = rest ∧ (t.snap k).mirOut = false ∧ t.mem = s.mem) ∧
      ((s.snap k).mirOut = false → cwOpen s (mirrorPa s k st) true = true → gateAll (mirrorPa s k st / 128) true s 8 = true →
        slotRead k st s = (some r, u) → Gives (.logMirrorCompanion k) s fun t => (t.snap k).mirOut = true ∧ (t.snap k).mirC = st :: rest ∧
          t.reg (rLOG_MIRC k) = s.reg (rLOG_MIRC k)) ∧
      ((s.snap k).mirOut = false → cwOpen s (mirrorPa s k st) true = false → Gives (.logMirrorCompanion k) s fun t => t = s)) ∧
    ((s.snap k).mirF = st :: rest → s.flash.spare ≠ 0 → eGateV s k false (logSlot s k st) 1024 = true → let l := epLink (masterHg s)
      (l ∉ s.bgDefer → tget 0 s.bg l + 8 ≤ bgLimit l → slotRead k st (bgSpend l 8 s) = (some r, u) → st % 256 ≠ 0 →
        Gives (.logMirrorFlash k false) s fun t => (t.reg (rLOG_MIRF k)).toNat = st ∧ (t.snap k).mirF = rest ∧
          tget? (k * 262144 + st % 262144) t.flash.log = some r ∧ tget 0 t.bg l = tget 0 s.bg l + 8 ∧ t.mem = s.mem) ∧
      (l ∈ s.bgDefer ∨ bgLimit l < tget 0 s.bg l + 8 → Gives (.logMirrorFlash k false) s fun t =>
        l ∈ t.bgDefer ∧ t.snaps = s.snaps ∧ t.flash = s.flash ∧ t.regs = s.regs ∧ t.mem = s.mem))) ∧
  (∀ (s : State) (o : Origin) (k : Nat), k < 8 → mayReg s o true (rSN_CMD k) = true → (s.snap k).cmds = [] → (s.snap k).rollback = none →
    let st := snState s k
    let cmd := fun op : Nat => match op with
      | 1 => Instr.snTake o k | 2 => .snCommit o k | 3 => .snDrop o k | 4 => .snRollbackOld o k | _ => .snRollbackNew o k
    let arg := s.reg (rSN_ARG k)
    let ts := s.fld (rSN_STAT k) SN_STAT_TSEL
    (s.flag (rSN_STAT k) SN_STAT_BUSY = false → st ≠ 1 →
      (s.flag (rSN_CTL k) SN_CTL_EN = true → (st = 0 ∨ st = 3) → (s.flag (rLOG_STAT k) LOG_STAT_VALID = true → arg = s.reg (rLOG_LAST k)) →
        Gives (.snTake o k) s fun t => t.rsp = .ok 0 ∧ snState t k = 1 ∧ t.reg (rSN_NEWSTEP k) = arg ∧
          t.reg (rSN_OLDSTEP k) = (if st = 0 then arg else s.reg (rSN_OLDSTEP k)) ∧ t.reg (rLOG_LAST k) = arg ∧
          t.flag (rSN_STAT k) SN_STAT_BUSY = true ∧ t.fld (rSN_STAT k) SN_STAT_SWEEP = 0 ∧ t.mem = s.mem) ∧
      (st = 2 →
        Gives (.snCommit o k) s (fun t => t.rsp = .ok 0 ∧ snState t k = 3 ∧ t.reg (rSN_OLDSTEP k) = s.reg (rSN_NEWSTEP k) ∧
          t.fld (rSN_STAT k) SN_STAT_TSEL = 1 - ts ∧ t.fld (rSN_COUNT k) SN_COUNT_OLD = s.fld (rSN_COUNT k) SN_COUNT_NEW ∧
          t.fld (rSN_COUNT k) SN_COUNT_NEW = 0 ∧
          t.flag (rSN_STAT k) SN_STAT_BROKEN_OLD = s.flag (rSN_STAT k) SN_STAT_BROKEN_NEW ∧ t.flag (rSN_STAT k) SN_STAT_BROKEN_NEW = false) ∧
        Gives (.snDrop o k) s (fun t => t.rsp = .ok 0 ∧ snState t k = 3 ∧ t.reg (rSN_OLDSTEP k) = s.reg (rSN_OLDSTEP k) ∧
          t.fld (rSN_STAT k) SN_STAT_TSEL = ts ∧ t.fld (rSN_COUNT k) SN_COUNT_NEW = 0 ∧
          t.fld (rSN_COUNT k) SN_COUNT_OLD = s.fld (rSN_COUNT k) SN_COUNT_OLD ∧ t.flag (rSN_STAT k) SN_STAT_BROKEN_NEW = false) ∧
        Gives (.snRollbackNew o k) s (fun t => t.rsp = .ok 0 ∧ t.flag (rSN_STAT k) SN_STAT_BUSY = true ∧ (t.snap k).rollback = some true ∧
          t.mem = s.mem)) ∧
      (st = 2 ∨ st = 3 → Gives (.snRollbackOld o k) s fun t => t.rsp = .ok 0 ∧ t.flag (rSN_STAT k) SN_STAT_BUSY = true ∧
        (t.snap k).rollback = some false ∧ t.mem = s.mem) ∧
      (st ≠ 2 → ∀ op ∈ [2, 3, 5], Gives (cmd op) s fun t => t = { s with rsp := .err }) ∧
      (st = 0 → Gives (.snRollbackOld o k) s fun t => t = { s with rsp := .err }) ∧
      (st = 2 → Gives (.snTake o k) s fun t => t = { s with rsp := .err })) ∧
    (s.flag (rSN_STAT k) SN_STAT_BUSY = true → ∀ op ∈ [1, 2, 3, 4, 5], snOk k op s = true → Gives (cmd op) s fun t => t.rsp = .ok 0 ∧
      (t.snap k).cmds = [(op, arg)] ∧ t.regs = s.regs ∧ t.mem = s.mem)) ∧
  (∀ (s : State) (k : Nat), k < 8 → snState s k = 1 → (s.snap k).cmds = [] → Gives (.snapshotSweepEnd k) s fun t =>
    snState t k = (if (s.snap k).first then 3 else 2) ∧ t.flag (rSN_STAT k) SN_STAT_BUSY = false ∧ t.mem = s.mem ∧
    ∀ f, t.le f = if sweeps s k (s.le f) = true ∧ f ∉ (s.snap k).swept then { s.le f with s := true } else s.le f) ∧
  (∀ (s : State) (k f : Nat) (c : SnCopy), k < 8 → (s.snap k).copies = [c] → c.frame = f →
    (c.started = false → s.slices = [] → s.lcs = [] → Gives (.snapshotCopyStart k f) s fun t =>
      (t.snap k).copies = [{ c with copy := copyFrame s k f, started := true }] ∧ t.mem = s.mem ∧ t.ledger = s.ledger) ∧
    (c.started = true → AllQuiet s → s.lgops = [] → s.lgWait = [] → memWf s = true →
      (∀ d, c.copy = some d → d ≠ f → copyGate s f d frameLines = true → copyBad s f k frameLines = false →
        (c.tbl = none → Gives (.snapshotCopyDone k f) s fun t => (t.snap k).copies = [] ∧ (t.le f).s = false ∧
          (∀ i b, i < 2 ^ 21 → tget? (framePa f + i) s.mem = some b → t.byte (framePa d + i) = b) ∧
          (∀ a, a < framePa d ∨ framePa d + 2 ^ 21 ≤ a → t.byte a = s.byte a)) ∧
        (∀ tb, c.tbl = some tb → tb < 2 → eGateV s k true (recVa s k tb (snCount s k tb)) 16 = true → Gives (.snapshotCopyDone k f) s fun t =>
          (t.snap k).copies = [] ∧ (t.le f).s = false ∧ (t.le d).rsv = true ∧ snCount t k tb = (snCount s k tb + 1) % 2 ^ 32)) ∧
      (∀ tb, c.copy = none → c.tbl = some tb → tb < 2 → eGateV s k true (recVa s k tb (snCount s k tb)) 16 = true →
        Gives (.snapshotCopyDone k f) s fun t => (t.snap k).copies = [] ∧ (t.le f).s = false ∧
          t.flag (rSN_STAT k) (if s.fld (rSN_STAT k) SN_STAT_TSEL = tb then SN_STAT_BROKEN_OLD else SN_STAT_BROKEN_NEW) = true))) ∧
  (∀ (s : State) (k f d tb i : Nat) (r : CopyRec), k < 8 → s.flag (rSN_CTL k) SN_CTL_MIGEN = true → f < lpBase → (s.le f).rsv = true →
    (s.le f).chip = false → (s.le f).owner = k → findRec s k f = some (tb, i, r) →
    findFree s k (fun _ => true) lpBase (nFrames - lpBase) = some d → eGateV s k true (recVa s k tb i) 16 = true →
    copyGate s f d frameLines = true → copyBad s f k frameLines = false → memWf s = true → d ≠ f → Gives (.snapshotMigrate k f) s fun t =>
      (t.le f).rsv = false ∧ (t.le d).rsv = true ∧
      ∀ j b, j < 2 ^ 21 → tget? (framePa f + j) s.mem = some b →
        (∀ pa, place s k true .store (recVa s k tb i) = .mem pa → frameOf pa ≠ d) → t.byte (framePa d + j) = b) ∧
  (∀ (s : State) (k : Nat) (new : Bool), k < 8 → (s.snap k).rollback = some new → (s.snap k).cmds = [] → AllQuiet s →
    (rollPlan s k new = [] → (new = true ∨ snState s k ≠ 2) → Gives (.rollbackDone k) s fun t =>
      t.flag (rSN_STAT k) SN_STAT_BUSY = false ∧ (t.snap k).rollback = none ∧ snState t k = snState s k ∧ t.mem = s.mem) ∧
    (rollPlan s k new = [] → new = false → snState s k = 2 → Gives (.rollbackDone k) s fun t =>
      t.flag (rSN_STAT k) SN_STAT_BUSY = false ∧ (t.snap k).rollback = none ∧ snState t k = 3) ∧
    (∀ vpn cp f, rollPlan s k new = [(vpn, cp, false)] → walk s k vpn = .hit f → cp ≠ f → (new = true ∨ snState s k ≠ 2) → memWf s = true →
      rollGate s k [(vpn, cp, false)] = true → copyBad s cp k frameLines = false → Gives (.rollbackDone k) s fun t =>
        t.flag (rSN_STAT k) SN_STAT_BUSY = false ∧ (t.le f).s = false ∧
        (∀ i b, i < 2 ^ 21 → tget? (framePa cp + i) s.mem = some b → t.byte (framePa f + i) = b) ∧
        ∀ a, a < framePa f ∨ framePa f + 2 ^ 21 ≤ a → t.byte a = s.byte a)) ∧
  (∀ (s : State) (o : Origin) (k : Nat) (v : Word), k < 8 → mayReg s o true (rSN_CTL k) = true → let n := fget v SN_CTL_N
    (snState s k = 0 → n ≠ 0 → n ≤ 2 ^ s.fld (rLOG_RING k) LOG_RING_LSIZE - 1 → Gives (.snCtlWrite o k v) s fun t => t.rsp = .ok 0 ∧
      t.fld (rSN_CTL k) SN_CTL_N = n ∧ t.flag (rSN_CTL k) SN_CTL_EN = fbit v SN_CTL_EN ∧ t.flag (rSN_CTL k) SN_CTL_MIGEN = fbit v SN_CTL_MIGEN ∧
      t.flag (rSN_CTL k) SN_CTL_SKIPG = fbit v SN_CTL_SKIPG) ∧
    (snState s k ≠ 0 ∨ n = 0 ∨ 2 ^ s.fld (rLOG_RING k) LOG_RING_LSIZE ≤ n → Gives (.snCtlWrite o k v) s fun t => t = { s with rsp := .err }))

/-- R36 to R39, R446, R456 to R462, R467, R505: Dredge reads the next line or word of its walk within its budget, sends a correction for a corrected one,
records an uncorrectable one, lets a slice's copy restore memory; a correction is applied or dropped and counted; recalibration takes
the next channel; a region is tested and released, its faults repaired by spare columns; a bank is retired. -/
def Obligations.StoredData : Prop :=
  (∀ (s : State) (u cyc sev : Nat) (unc : Bool), 0x500 ≤ u → u < 0x520 → let i := (tget (0, 0) s.dredge u).1
    let line := lineAt s u i / 128
    let known := ∃ j, j < 32 ∧ line * 32 + j ∈ s.badw
    let goes := fun (P : State → Prop) => Gives (.dredgeScrub u cyc sev unc) s fun t => (tget (0, 0) t.dredge u).1 = i + 1 ∧
      tget 0 t.bg u = tget 0 s.bg u + cyc ∧ t.mem = s.mem ∧ P t
    (drgOn s u = false → Gives (.dredgeScrub u cyc sev unc) s fun t => t = s) ∧
    (drgOn s u = true → i + 1 < memLines u → bankRetired s (line * 128) = false → unitIdle s u = true → u ∉ s.bgDefer →
      (s.recal.any fun x => x.1 == u) = false →
      (bgLimit u < tget 0 s.bg u + cyc → Gives (.dredgeScrub u cyc sev unc) s fun t => t = { s with bgDefer := u :: s.bgDefer }) ∧
      (tget 0 s.bg u + cyc ≤ bgLimit u →
        (unc = false → sev = 0 → ¬ known → goes fun t => t.corr = s.corr ∧ t.badw = s.badw) ∧
        (unc = false → sev ≠ 0 → ¬ known → goes fun t => t.corr = s.corr ++ [(u, line, false, false)] ∧ t.badw = s.badw) ∧
        (unc = true → (isHbm (line * 128) = false ∨ resident s line = none) → goes fun t => (∀ j, j < 32 → line * 32 + j ∈ t.badw) ∧ t.corr = s.corr) ∧
        (∀ l, unc = true → ¬ known → isHbm (line * 128) = true → resident s line = some l → goes fun t =>
          (∃ m, resident t line = some m ∧ m.dirty = true) ∧ t.badw = s.badw)))) ∧
  (∀ (s : State) (c cyc sev : Nat) (unc : Bool), c < 1024 → drgOn s c = true → let i := (tget (0, 0) s.dredge c).1
    i * 16 < spadSize s (s.part c) → (c, i / 256) ∉ s.tbt → (∀ j, j < 4 → eccUnc (tget 0 (s.core c).flips (4 * i + j)) = false) →
    Gives (.dredgeScrub c cyc sev unc) s fun t => ∀ j, j < 4 → tget 0 (t.core c).flips (4 * i + j) = 0) ∧
  (∀ (s : State) (u line : Nat) (arr late : Bool) (rest : List (Nat × Nat × Bool × Bool)), 0x500 ≤ u → u < 0x510 →
    s.corr = (u, line, arr, late) :: rest → let r := rSC_DRG_CNT (u - 0x500)
    (late = false → (∀ l, resident s line = some l → l.dirty = false) →
      (arr = true ∨ tget 0 s.bg u + lineCycles u ≤ bgLimit u → Gives (.dredgeCorrection u line) s fun t => t.corr = rest ∧
        t.fld r SC_DRG_CNT_CE = min (s.fld r SC_DRG_CNT_CE + 1) (2 ^ 32 - 1) ∧ t.fld r SC_DRG_CNT_UE = s.fld r SC_DRG_CNT_UE ∧
        tget 0 t.bg u = tget 0 s.bg u + (if arr = true then 0 else lineCycles u)) ∧
      (arr = false → bgLimit u < tget 0 s.bg u + lineCycles u → Gives (.dredgeCorrection u line) s fun t =>
        t.corr = s.corr ∧ u ∈ t.bgDefer ∧ t.regs = s.regs ∧ t.mem = s.mem)) ∧
    (late = true ∨ (∃ l, isHbm (line * 128) = true ∧ resident s line = some l ∧ l.dirty = true) → Gives (.dredgeCorrection u line) s fun t =>
      t.corr = rest ∧ t.fld r SC_DRG_CNT_UE = min (s.fld r SC_DRG_CNT_UE + 1) (2 ^ 32 - 1) ∧ t.fld r SC_DRG_CNT_CE = s.fld r SC_DRG_CNT_CE ∧
      t.mem = s.mem ∧ t.flips = s.flips)) ∧
  (∀ (s : State) (u cyc : Nat), 0x500 ≤ u → u < 0x520 →
    (cyc ≤ 4096 → (∀ x ∈ s.recal, x.1 ≠ u) → (s.hgx (unitIsland u % 2)).swap = false →
      (tget 0 s.bg u + cyc ≤ bgLimit u → Gives (.recalStart u cyc) s fun t => (u, tget 0 s.recalNext u % nChans u) ∈ t.recal ∧
        tget 0 t.bg u = tget 0 s.bg u + cyc ∧ tget 0 t.recalNext u = (tget 0 s.recalNext u % nChans u + 1) % nChans u ∧ t.mem = s.mem) ∧
      (bgLimit u < tget 0 s.bg u + cyc → Gives (.recalStart u cyc) s fun t => u ∈ t.bgDefer ∧ t.recal = s.recal)) ∧
    (AllQuiet s → Gives (.recalEnd u) s fun t => (∀ x ∈ t.recal, x.1 ≠ u) ∧ (∀ x ∈ s.recal, x.1 ≠ u → x ∈ t.recal) ∧ t.mem = s.mem)) ∧
  (∀ (s : State) (u r : Nat), (coreIdOk u = true ∨ (0x400 ≤ u ∧ u < 0x500)) →
    (s.flag rEL_REPAIR EL_REPAIR_TBT = true → (∀ x ∈ s.tbt, x.1 ≠ u) → regionWanted s u (tget 0 s.tbtNext u) = false → Gives (.tbtRegionStart u) s fun t =>
      t = { s with tbt := s.tbt ++ [(u, tget 0 s.tbtNext u)] }) ∧
    (s.flag rEL_REPAIR EL_REPAIR_TBT = false → Gives (.tbtRegionStart u) s fun t => t = s) ∧
    (AllQuiet s → s.tbt = [(u, r)] →
      Gives (.tbtRegionEnd u []) s (fun t => t.tbt = [] ∧ tget 0 t.tbtNext u = (r + 1) % 256 ∧
        t.fld rEL_TBT EL_TBT_REGIONS = (s.fld rEL_TBT EL_TBT_REGIONS + 1) % 2 ^ 32 ∧ t.spares = s.spares) ∧
      (∀ m w, s.flag rEL_REPAIR EL_REPAIR_SOFT = true → tget 0 s.spares (u * 65536 + m) < 4 → Gives (.tbtRegionEnd u [(m, w)]) s fun t =>
        t.tbt = [] ∧ tget 0 t.spares (u * 65536 + m) = tget 0 s.spares (u * 65536 + m) + 1 ∧
        t.fld rEL_TBT EL_TBT_REPAIRED = min (s.fld rEL_TBT EL_TBT_REPAIRED + 1) (2 ^ 32 - 1)))) ∧
  (∀ (s : State) (o : Origin) (st k : Nat) (v : Word), st < 16 → k < 4 → mayReg s o true (rSC_BRET st k) = true →
    Gives (.bankRetire o st k v) s fun t => t.rsp = .ok 0 ∧ t.flag (rSC_BRET st k) SC_BRET_EN = fbit v SC_BRET_EN ∧
      t.fld (rSC_BRET st k) SC_BRET_PC = fget v SC_BRET_PC ∧ t.fld (rSC_BRET st k) SC_BRET_BANK = fget v SC_BRET_BANK ∧ t.mem = s.mem)

/-- R472 to R488: a write of CK_CMD starts a command, or is refused while one runs; what each command answers and changes when it
is done: VERIFY measures an image that passes and keeps its SVN, COMMIT_SVN raises the fuses, INSTALL keeps a licence or loads a key
and changes nothing running, ATTEST and AKCERT write the staging area, MEMKEY replaces a key, TRANSITION blows the fuses and resets,
UNLOCK sets the debug level, EXTEND measures; tamper events wipe, close and reset; licences expire; reservation marks rise. -/
def Obligations.TrustCommands : Prop :=
  (∀ (s : State) (o : Origin) (arg : Nat), ∀ x ∈ [(1, Instr.ckVerify o arg), (2, .ckCommitSvn o arg), (3, .ckInstall o arg),
      (4, .ckAttest o arg), (5, .ckMemkey o arg), (6, .ckTransition o arg), (7, .ckUnlock o arg), (8, .ckAkcert o arg), (9, .ckExtend o arg)],
    (mayReg s o true rCK_CMD = true → s.flag rCK_STAT CK_STAT_BUSY = false → Gives x.2 s fun t => t.rsp = .ok 0 ∧
      t.flag rCK_STAT CK_STAT_BUSY = true ∧ t.cleat.cmd = some (x.1, arg) ∧ CkNothing s t) ∧
    (mayReg s o true rCK_CMD = false ∨ s.flag rCK_STAT CK_STAT_BUSY = true → Gives x.2 s fun t => t = { s with rsp := .err })) ∧
  (∀ s : State, s.cleat.cmd = none → Gives .ckCmdDone s fun t => t = s) ∧
  (∀ (s : State) (op arg : Nat), s.cleat.cmd = some (op, arg) → lcState s = 5 → op ≠ 4 →
    Gives .ckCmdDone s fun t => CkEnded t 2 ∧ CkNothing s t) ∧
  (∀ (s : State) (arg : Nat), CkOp s 1 arg → let pa := s.fld rCK_ADDR CK_ADDR_ADDR
    (chipBytes s pa 1024 = none → Gives .ckCmdDone s fun t => CkEnded t 11 ∧ CkNothing s t) ∧
    (∀ h, chipBytes s pa 1024 = some h → let b := chipBytes s (pa + 1024) (min (imgLen h) (2 ^ 28))
      let k := num h 4 1
      (imageCheck s h b ≠ 0 → Gives .ckCmdDone s fun t => CkEnded t (imageCheck s h b) ∧ CkNothing s t ∧ t.cleat.svn = s.cleat.svn) ∧
      (imageCheck s h b = 0 → (∃ y, b = some y ∧ ImagePassed s h y) ∧ Gives .ckCmdDone s fun t => CkEnded t 0 ∧
        reg256 t (rMEAS (k + 1) 0) = sha256 (reg256 s (rMEAS (k + 1) 0) ++ sha256 (h.take 0x350)) ∧
        (∀ m, m < 8 → m ≠ k + 1 → reg256 t (rMEAS m 0) = reg256 s (rMEAS m 0)) ∧ tget? k t.cleat.svn = some (num h 6 1) ∧
        t.reg rFU_SVN = s.reg rFU_SVN))) ∧
  (∀ (s : State) (k : Nat), CkOp s 2 k →
    (3 < k → Gives .ckCmdDone s fun t => CkEnded t 1 ∧ CkNothing s t) ∧
    (k ≤ 3 → tget? k s.cleat.svn = none → Gives .ckCmdDone s fun t => CkEnded t 10 ∧ CkNothing s t) ∧
    (∀ v, k ≤ 3 → tget? k s.cleat.svn = some v → v < 256 → Gives .ckCmdDone s fun t => CkEnded t 0 ∧
      t.fld rFU_SVN (svnFld k) = max v (s.fld rFU_SVN (svnFld k)) ∧
      ∀ j, j ≤ 3 → j ≠ k → t.fld rFU_SVN (svnFld j) = s.fld rFU_SVN (svnFld j))) ∧
  (∀ (s : State) (arg : Nat), CkOp s 3 arg → let b := stagedObj s 0
    let o := objOf b
    (o.typ ≠ 1 → o.typ ≠ 2 → Gives .ckCmdDone s fun t => CkEnded t 1 ∧ CkNothing s t) ∧
    (o.typ = 1 → objCheck (calRead s) o ≠ 0 → Gives .ckCmdDone s fun t => CkEnded t (objCheck (calRead s) o) ∧ CkNothing s t) ∧
    (o.typ = 1 → objCheck (calRead s) o = 0 → s.cleat.lics.length < 8 → Gives .ckCmdDone s fun t => CkEnded t 0 ∧ licOf b ∈ t.cleat.lics ∧
      (∀ l ∈ s.cleat.lics, l.serial ≠ o.serial → l ∈ t.cleat.lics) ∧ t.flash.lics = t.cleat.lics.map (fun l => l.obj) ∧
      t.mem = s.mem ∧ t.cores = s.cores ∧ ∀ a, a ≠ rCK_STAT → t.reg a = s.reg a) ∧
    (o.typ = 2 → blobCheck (calRead s) b ≠ 0 → Gives .ckCmdDone s fun t => CkEnded t (blobCheck (calRead s) b) ∧ CkNothing s t) ∧
    (o.typ = 2 → blobCheck (calRead s) b = 0 → let k := num o.body 0 1
      Gives .ckCmdDone s fun t => CkEnded t 0 ∧ tget? k t.flash.blobs = some b ∧ t.cleat.lics = s.cleat.lics ∧
        ∀ p, p < 8 → (num o.body 1 1).testBit p = true →
          ((hwState s p = hwDOWN ∨ hwState s p = hwFAILED) → (t.fld (rHW_KEYS p) HW_KEYS_LOADED).testBit k = true) ∧
          (¬ (hwState s p = hwDOWN ∨ hwState s p = hwFAILED) → (t.port p).keyPend.testBit k = true ∧ t.reg (rHW_KEYS p) = s.reg (rHW_KEYS p)))) ∧
  (∀ (s : State) (arg : Nat), s.cleat.cmd = some (4, arg) →
    (lcState s < 2 ∨ (noId s = true ∧ lcState s ≠ 5) → Gives .ckCmdDone s fun t => CkEnded t 13 ∧ CkNothing s t ∧ t.cleat.reports = s.cleat.reports) ∧
    (2 ≤ lcState s → (noId s = false ∨ lcState s = 5) → Gives .ckCmdDone s fun t => CkEnded t 0 ∧ t.cleat.reports = s.cleat.reports + 1 ∧
      staged t 0x1000 7 = [0x53, 0x47, 0x41, 0x54, 1, 0, BitVec.ofNat 8 (lcState s)] ∧ staged t 0x1010 8 = leBytes 8 (s.cleat.reports + 1) ∧
      staged t 0x1020 32 = reg256 s (rDEV_ID 0) ∧ staged t 0x1040 32 = staged s 0 32 ∧
      (∀ m, m < 8 → staged t (0x1060 + 32 * m) 32 = reg256 s (rMEAS m 0)) ∧
      (lcState s = 5 → staged t 0x1200 384 = List.replicate 384 0))) ∧
  (∀ (s : State) (p : Nat), CkOp s 5 p →
    (8 ≤ p → Gives .ckCmdDone s fun t => CkEnded t 1 ∧ CkNothing s t) ∧
    (p < 8 → s.fld (rPT_STAT p) PT_STAT_STATE ≠ 0 → Gives .ckCmdDone s fun t => CkEnded t 10 ∧ CkNothing s t) ∧
    (p < 8 → s.fld (rPT_STAT p) PT_STAT_STATE = 0 → Gives .ckCmdDone s fun t => CkEnded t 0 ∧
      (t.fld rCK_KEYS CK_KEYS_MEM).testBit p = true ∧ t.memEpoch = s.memEpoch + 1 ∧
      ∀ a, let e := s.le (frameOf a)
        (e.owner = p → e.chip = false → tget? a t.mem = none) ∧ (e.owner ≠ p ∨ e.chip = true → tget? a t.mem = tget? a s.mem))) ∧
  (∀ (s : State) (x : Nat), CkOp s 6 x → let c := transCheck x (calRead s)
    (c ≠ 0 → Gives .ckCmdDone s fun t => CkEnded t c ∧ CkNothing s t) ∧
    (c = 0 → (x = 5 ∨ x = lcState s + 1) ∧ Gives .ckCmdDone s fun t => CkEnded t 0 ∧ lcState t = x ∧ t.fld rFU_LC FU_LC_BITS = lcBits x ∧
      t.cleat.lics = [] ∧ t.cleat.wiping = true ∧ t.flash.blobs = [] ∧ t.mem = [] ∧ t.boot = 1 ∧
      (x = 3 → reg256 t (rFU_OWNER 0) = sub (objOf (stagedObj s 0)).body 16 32))) ∧
  (∀ (s : State) (arg : Nat), CkOp s 7 arg → let o := objOf (stagedObj s 0)
    let c := objCheck (calRead s) o
    (lcState s < 2 → Gives .ckCmdDone s fun t => CkEnded t 0 ∧ t.fld rCK_DEBUG CK_DEBUG_LEVEL = 3) ∧
    (2 ≤ lcState s → o.typ ≠ 3 → Gives .ckCmdDone s fun t => CkEnded t 1 ∧ CkNothing s t) ∧
    (2 ≤ lcState s → o.typ = 3 → c ≠ 0 → Gives .ckCmdDone s fun t => CkEnded t c ∧ CkNothing s t) ∧
    (2 ≤ lcState s → o.typ = 3 → c = 0 → sub o.body 16 32 = reg256 s (rDBG_CHAL 0) ∧ Gives .ckCmdDone s fun t => CkEnded t 0 ∧
      t.fld rCK_DEBUG CK_DEBUG_LEVEL = num o.body 0 1 ∧ t.free = s.free + 4)) ∧
  (∀ (s : State) (arg : Nat), CkOp s 8 arg →
    (lcState s < 2 ∨ noId s = true → Gives .ckCmdDone s fun t => CkEnded t 13 ∧ CkNothing s t) ∧
    (2 ≤ lcState s → noId s = false → Gives .ckCmdDone s fun t => CkEnded t 0 ∧
      staged t 0x2000 8 = [0x53, 0x47, 0x53, 0x4F, 5, 5, 0x90, 1] ∧ staged t 0x2008 32 = reg256 s (rDEV_ID 0) ∧
      staged t 0x2040 384 = idkMod ∧ staged t 0x21D0 384 = akMod (lcState s))) ∧
  (∀ (s : State) (arg : Nat), CkOp s 9 arg → Gives .ckCmdDone s fun t => CkEnded t 0 ∧
    reg256 t (rMEAS 7 0) = sha256 (reg256 s (rMEAS 7 0) ++ staged s 0 32) ∧ ∀ m, m < 7 → reg256 t (rMEAS m 0) = reg256 s (rMEAS m 0)) ∧
  (∀ (s : State) (cause : Nat), cause < 6 → Gives (.tamper cause) s fun t =>
    t.flag rCK_STAT CK_STAT_TAMPER = true ∧ (t.fld rCK_TAMPER CK_TAMPER_CAUSE).testBit cause = true ∧ t.reg rCK_KEYS = 0 ∧
    t.cleat.lics = [] ∧ t.cleat.wiping = true ∧ t.cleat.cmd = none ∧ (∀ p, p < 8 → t.fld (rHW_KEYS p) HW_KEYS_LOADED = 0) ∧
    (∀ h, h < 2 → t.flag (rHG_EVENT h) HG_EVENT_TAMPER = true) ∧ (∀ m, m < 8 → reg256 t (rMEAS m 0) = reg256 s (rMEAS m 0)) ∧
    (∀ d, d < 4 → spwPos t d = spCLOSED ∨ (spwPos t d = spMOVING ∧ tget 0 t.spwTo d = spCLOSED)) ∧
    (s.cleat.cmd.isSome = true → t.fld rCK_STAT CK_STAT_RESULT = 12) ∧ (powered s = true → s.boot ≠ 1 → t.boot = 2 ∧ t.bootWarm = true)) ∧
  (∀ s : State, Gives .vaultWipeDone s fun t => t.cleat.wiping = false ∧ CkNothing s t) ∧
  (∀ (s : State) (l : Lic), (s.cleat.lics.find? fun l => n64 l.serial == s.reg rCK_LIC) = some l → s.reg rCK_LIC ≠ 0 →
    (l.notAfter ≠ 0xFFFFFFFFFF → l.notAfter ≤ calSec s → s.flag rCAL_CTL CAL_CTL_VALID = true → Gives .licenceExpiry s fun t =>
      t.flag rCK_STAT CK_STAT_LIC_EXP = true ∧ (∀ h, h < 2 → t.flag (rHG_EVENT h) HG_EVENT_LIC = true) ∧ t.cores = s.cores ∧ t.mem = s.mem ∧
      t.cleat = s.cleat) ∧
    (l.notAfter = 0xFFFFFFFFFF ∨ calSec s < l.notAfter → Gives .licenceExpiry s fun t => t = s)) ∧
  (∀ (s : State) (p dir k : Nat), p < 8 → dir < 2 → k < 2 → let key := 4 * p + 2 * dir + k
    (key ∉ s.flash.markOut → tget 0 s.flash.marks key ≤ markCounter s p dir k + 2 ^ 31 → Gives (.seqMarkWrite p dir k) s fun t =>
      key ∈ t.flash.markOut ∧ t.flash.marks = s.flash.marks ∧ ∀ a, t.reg a = s.reg a) ∧
    (markCounter s p dir k + 2 ^ 31 < tget 0 s.flash.marks key → Gives (.seqMarkWrite p dir k) s fun t => t = s) ∧
    (key ∈ s.flash.markOut → RingQuiet s → Gives (.seqMarkWritten p dir k) s fun t =>
      tget 0 t.flash.marks key = tget 0 s.flash.marks key + 2 ^ 32 ∧ key ∉ t.flash.markOut ∧
      ∀ j, j ≠ key → tget 0 t.flash.marks j = tget 0 s.flash.marks j))

/-- R511 to R527: what the supplies, the calendar, the throttle, the telemetry, the SMBus target and the JTAG port do.  The encoding
of LINEAR11 where the manual leaves a choice, and the placement of TRIM's ticks, are the model's (log 51). -/
def Obligations.PowerAndPins : Prop :=
  (∀ s : State,
    (s.board.vin = false → Gives .vin64Good s fun t => ColdReset s t ∧ t.board.vin = true ∧ (s.board.tripLow = true → t.board.trip = false)) ∧
    (s.board.vin = true → Gives .vin64Good s fun t => t = s) ∧
    (s.board.vin = true →
      (Gives .vin64Undervoltage s fun t => ColdReset s t ∧ powered t = false ∧ t.board.charged = false ∧ t.fld rPWR_HIST PWR_HIST_CAUSE = 1) ∧
      (Gives .vin64Overvoltage s fun t => ColdReset s t ∧ powered t = false ∧ t.fld rPWR_HIST PWR_HIST_CAUSE = 2) ∧
      Gives .inputCharged s fun t => t = { s with board := { s.board with charged := true } }) ∧
    (s.board.aux = false → Gives .aux3v3Good s fun t => t.board.aux = true ∧ t.board.ir = 1 ∧ t.board.aonCycle = 0 ∧
      t.reg rCYC_HG_W = 0 ∧ t.reg rCYC_HG_E = 0 ∧ (∀ a, a ≠ rCYC_HG_W → a ≠ rCYC_HG_E → t.reg a = s.reg a) ∧ t.mem = s.mem) ∧
    (s.board.aux = true → s.board.vin = true → Gives .aux3v3Loss s fun t => ColdReset s t ∧ powered t = false ∧
      t.fld rPWR_HIST PWR_HIST_CAUSE = 4) ∧
    (s.board.aux = true → s.board.vin = false → Gives .aux3v3Loss s fun t => t = { s with board := { s.board with aux := false } }) ∧
    (powered s = true → Gives .thermTrip s fun t => ColdReset s t ∧ t.board.trip = true ∧ powered t = false ∧ t.fld rPWR_HIST PWR_HIST_CAUSE = 3)) ∧
  (∀ s : State,
    (s.board.calLoad = true → Gives .calTick s fun t => t.reg rCAL_TIME = n64 (s.fld rCAL_SET CAL_SET_TIME) ∧
      t.flag rCAL_CTL CAL_CTL_VALID = true ∧ t.board.calLoad = false) ∧
    (s.board.calLoad = false → let x := sext 8 (s.fld rCAL_CTL CAL_CTL_TRIM)
      let goes := fun (d : Nat) => Gives .calTick s fun t => t.reg rCAL_TIME = n64 (((s.reg rCAL_TIME).toNat + d) % 2 ^ 55) ∧
        t.board.calN = (s.board.calN + 1) % 1048576 ∧ ∀ a, a ≠ rCAL_TIME → t.reg a = s.reg a
      (s.board.calN < 1048448 → goes 1) ∧ (0 ≤ x → s.board.calN = 1048575 → goes (1 + x.toNat)) ∧
      (x < 0 → 1048576 - (-x).toNat ≤ s.board.calN → goes 0)) ∧
    (∀ o, mayReg s o true rCAL_CTL = true → Gives (.calLoad o) s fun t => t.rsp = .ok 0 ∧ t.board.calLoad = true ∧ ∀ a, t.reg a = s.reg a) ∧
    (∀ o, mayReg s o true rCAL_CTL = false → Gives (.calLoad o) s fun t => t = { s with rsp := .err }) ∧
    (Gives .oscStop s fun t => t.flag rCAL_CTL CAL_CTL_OSC_STOP = true ∧ t.flag rCAL_CTL CAL_CTL_VALID = false ∧
      t.reg rCAL_TIME = s.reg rCAL_TIME ∧ t.mem = s.mem) ∧
    (s.board.aux = false → Gives .vbatLow s fun t => t.flag rCAL_CTL CAL_CTL_BATLOW = true ∧ t.mem = s.mem)) ∧
  (∀ (s : State) (h : Nat) (tj : Int) (mw ma : Nat), h < 2 → powered s = true → ThrOk s 0 → ThrOk s 1 →
    let x := tget Thr.reset s.thrs h
    let top := s.fld rTHR_CTL THR_CTL_MAXLVL
    let cap := (if s.fld rTHR_CTL THR_CTL_CAP_W = 0 then 1200 else s.fld rTHR_CTL THR_CTL_CAP_W) * 1000
    Gives (.throttleSample h tj mw ma) s fun t =>
      let y := fun (i : Nat) => tget Thr.reset t.thrs i
      LevelStep (1520 ≤ tj) (tj < 1472) 8 x.th x.thN (y h).th (y h).thN ∧
      (1680 ≤ tj → (y h).lim = true) ∧ (tj < 1600 → (y h).lim = false) ∧ (1600 ≤ tj → tj < 1680 → (y h).lim = x.lim) ∧
      (h = 0 → LevelStep (cap < mw) (100 * mw ≤ 95 * cap) top x.pw x.pwN (y 0).pw (y 0).pwN ∧
        LevelStep (20700 < ma) (ma ≤ 19700) 8 x.ic x.icN (y 0).ic (y 0).icN) ∧
      (h = 1 → y 0 = tget Thr.reset s.thrs 0) ∧
      (∀ i, i < 2 → t.fld rTHR_STAT (if i = 0 then THR_STAT_LVL_W else THR_STAT_LVL_E) =
        max (max (y i).th (if (y i).lim = true then 8 else 0)) (max (min (y 0).pw top) (y 0).ic)) ∧
      t.mem = s.mem ∧ ∀ a, a ≠ rTHR_STAT → t.reg a = s.reg a) ∧
  (∀ (s : State) (rails : List (Nat × Nat × Nat)) (tjw tje tmod : Int), s.board.aux = true → (∀ x ∈ rails, x.1 < 2 ^ 32 ∧ x.2.1 < 2 ^ 32 ∧ x.2.2 < 2 ^ 32) →
    -32768 ≤ tjw → tjw < 32768 → -32768 ≤ tje → tje < 32768 → -32768 ≤ tmod → tmod < 32768 →
    (powered s = true → (∃ h, h < 2 ∧ bgLimit (epLink h) < tget 0 s.bg (epLink h) + telemCost) → Gives (.telemUpdate rails tjw tje tmod) s fun t =>
      (∀ h, h < 2 → epLink h ∈ t.bgDefer) ∧ t.regs = s.regs ∧ t.board = s.board ∧ t.mem = s.mem) ∧
    ((powered s = false ∨ ∀ h, h < 2 → tget 0 s.bg (epLink h) + telemCost ≤ bgLimit (epLink h)) → Gives (.telemUpdate rails tjw tje tmod) s fun t =>
      (∀ h, h < 2 → tget 0 t.bg (epLink h) = tget 0 s.bg (epLink h) + (if powered s = true then telemCost else 0)) ∧
      sext 16 (t.fld rTEMP TEMP_TJ_W) = tjw ∧ sext 16 (t.fld rTEMP TEMP_TJ_E) = tje ∧ sext 16 (t.fld rTEMP TEMP_TMOD) = tmod ∧
      (∀ p, p < 9 → let r := if s.board.vin = false ∧ 1 ≤ p ∧ p ≤ 7 then (0, 0, 0) else rails.getD p (0, 0, 0)
        t.fld (rRAIL_VI p) RAIL_VI_MV = r.1 ∧ t.fld (rRAIL_VI p) RAIL_VI_MA = r.2.1 ∧ t.fld (rRAIL_P p) RAIL_P_MW = r.2.2 ∧
        t.fld (rRAIL_P p) RAIL_P_PEAK = max (s.fld (rRAIL_P p) RAIL_P_PEAK) r.2.2) ∧
      t.board.stat = s.board.stat ||| wordStatus t ∧ (∀ i, s.board.stat.testBit i = false → t.board.stat.testBit i = true → t.board.alert = true) ∧
      t.mem = s.mem)) ∧
  (∀ (s : State) (o : Origin) (v : Word), let ok := mayReg s o true rTHR_CTL = true ∧ fget v THR_CTL_CAP_W ≤ 1200 ∧ fget v THR_CTL_MAXLVL ≤ 8
    (ok → Gives (.thrCtlWrite o v) s fun t => t.rsp = .ok 0 ∧ t.fld rTHR_CTL THR_CTL_CAP_W = fget v THR_CTL_CAP_W ∧
      t.fld rTHR_CTL THR_CTL_MAXLVL = fget v THR_CTL_MAXLVL ∧ ∀ a, a ≠ rTHR_CTL → t.reg a = s.reg a) ∧
    (¬ ok → Gives (.thrCtlWrite o v) s fun t => t = { s with rsp := .err })) ∧
  (∀ (num : Int) (den : Nat), 0 < den → -1024 * (32768 * den : Nat) ≤ num → num < 1024 * (32768 * den : Nat) → Lin11Near (lin11 num den) num den) ∧
  (∀ (s : State) (pec : Bool) (w : Option Nat), s.board.aux = false ∨ pec = false →
    ∀ i ∈ [Instr.pmPage pec w, .pmClearFaults pec, .pmCapability pec, .pmVoutMode pec, .pmStatusWord pec, .pmStatusTemperature pec, .pmReadVin pec,
      .pmReadIin pec, .pmReadVout pec, .pmReadIout pec, .pmReadPout pec, .pmReadPin pec, .pmReadTemperature1 pec, .pmReadTemperature2 pec,
      .pmReadTemperature3 pec, .pmRevision pec, .pmMfrId pec, .pmMfrModel pec, .pmMfrPowerCap pec w], Answers i s none) ∧
  (∀ s : State, s.board.aux = true → let p := s.board.page
    let v := fun (num : Int) (den : Nat) => some (leBytes 2 (lin11 num den))
    let mv := s.fld (rRAIL_VI p) RAIL_VI_MV
    let ma := s.fld (rRAIL_VI p) RAIL_VI_MA
    let mw := s.fld (rRAIL_P p) RAIL_P_MW
    let b := s.board
    Answers (.pmPage true none) s (some (leBytes 1 p)) ∧
    (∀ n, n ≤ 8 → Gives (.pmPage true (some n)) s fun t => t = { s with board := { b with page := n, smb := some [] } }) ∧
    (∀ n, 8 < n → Answers (.pmPage true (some n)) s none) ∧
    (Gives (.pmClearFaults true) s fun t => t.board.smb = some [] ∧ t.board.stat = b.stat &&& wordStatus s ∧
      t.board.statT = b.statT &&& tempStatus s ∧ t.board.alert = (b.alert && !b.alertRead) ∧ t.regs = s.regs ∧ t.mem = s.mem) ∧
    Answers (.pmCapability true) s (some [0xD0]) ∧ Answers (.pmVoutMode true) s (some [0x14]) ∧
    Answers (.pmStatusWord true) s (some (leBytes 2 (if p = 0 then b.stat else 0))) ∧
    Answers (.pmStatusTemperature true) s (some (leBytes 1 (if p = 0 then b.statT else 0))) ∧
    Answers (.pmReadVin true) s (if p = 0 then v mv 1000 else none) ∧ Answers (.pmReadIin true) s (if p = 0 then v ma 1000 else none) ∧
    Answers (.pmReadPin true) s (if p = 0 then v mw 1000 else none) ∧
    Answers (.pmReadVout true) s (if 1 ≤ p then some (leBytes 2 (mv * 4096 / 1000)) else none) ∧
    Answers (.pmReadIout true) s (if 1 ≤ p then v ma 1000 else none) ∧ Answers (.pmReadPout true) s (if 1 ≤ p then v mw 1000 else none) ∧
    Answers (.pmReadTemperature1 true) s (v (sext 16 (s.fld rTEMP TEMP_TJ_W)) 16) ∧
    Answers (.pmReadTemperature2 true) s (v (sext 16 (s.fld rTEMP TEMP_TJ_E)) 16) ∧
    Answers (.pmReadTemperature3 true) s (v (sext 16 (s.fld rTEMP TEMP_TMOD)) 16) ∧
    Answers (.pmRevision true) s (some [0x33]) ∧ Answers (.pmMfrId true) s (some [7, 0x59, 0x55, 0x4E, 0x41, 0x4D, 0x41, 0x4E]) ∧
    Answers (.pmMfrModel true) s (some [6, 0x53, 0x47, 0x4E, 0x2D, 0x50, 0x31]) ∧
    Answers (.pmMfrPowerCap true none) s (v (s.fld rTHR_CTL THR_CTL_CAP_W) 1) ∧
    (∀ x, 0 ≤ ofLin11 x → ofLin11 x ≤ 1200 → Gives (.pmMfrPowerCap true (some x)) s fun t => t.board.smb = some [] ∧
      t.fld rTHR_CTL THR_CTL_CAP_W = (ofLin11 x).toNat ∧ ∀ a, a ≠ rTHR_CTL → t.reg a = s.reg a) ∧
    (∀ x, ofLin11 x < 0 ∨ 1200 < ofLin11 x → Answers (.pmMfrPowerCap true (some x)) s none) ∧
    (b.alert = true → Gives .pmAlertResponse s fun t => t.board.smb = some [0x94] ∧ t.board.alert = !b.cleared ∧ t.regs = s.regs) ∧
    (b.alert = false → Answers .pmAlertResponse s none)) ∧
  (∀ s : State, s.board.aux = true → let b := s.board
    (Gives .jtagBypass s fun t => t = { s with board := { b with ir := 0xFF, dr := 0 } }) ∧
    (Gives .jtagIdcode s fun t => t = { s with board := { b with ir := 0x01, dr := 0x05341A7F } }) ∧
    (∀ w, Gives (.jtagSamplePreload w) s fun t => t.board.ir = 0x02 ∧ t.board.bsr = w ∧ t.regs = s.regs ∧ t.mem = s.mem) ∧
    (powered s = true → Gives .jtagExtest s fun t => WarmReset s t ∧ t.board.ir = 0x00 ∧ heldInReset t = true) ∧
    (powered s = true → Gives .jtagExtestPulse s fun t => WarmReset s t ∧ t.board.ir = 0x0C ∧ heldInReset t = true) ∧
    (b.vin = false → Gives .jtagExtestPulse s fun t => t = { s with board := { b with ir := 0xFF } }) ∧
    (Gives .jtagDebug s fun t => t = { s with board := { b with ir := if s.fld rCK_DEBUG CK_DEBUG_LEVEL = 0 then 0xFF else 0x10 } }) ∧
    Gives .jtagTrstN s fun t => t = { s with board := { b with ir := 1 } })

/-- R489 to R508, R83: resets, the bring-up steps and what they leave, the lease and its claims, the sideband, the mailbox requests, core
firmware loads, core resets and spare swaps, Headgate and Sluice updates, and flash wear.  What the model chose where the manual leaves
a choice is logged (log 50). -/
def Obligations.BringupAndService : Prop :=
  (∀ (s : State), (powered s = true → Gives .modResetNLow s fun t => WarmReset s t ∧ t.board.modReset = true ∧ heldInReset t = true) ∧
    Gives .modResetNHigh s fun t => t = { s with board := { s.board with modReset := false } }) ∧
  (∀ (s : State) (o : Origin) (h : Nat), h < 2 →
    (mayReg s o true (rHG_RESET h) = true → (Gives (.coldReset o h) s fun t => ColdReset s t ∧ t.rsp = .ok 0) ∧
      (powered s = true → Gives (.warmReset o h) s fun t => WarmReset s t ∧ t.rsp = .ok 0)) ∧
    (mayReg s o true (rHG_RESET h) = false → (Gives (.coldReset o h) s fun t => t = { s with rsp := .err }) ∧
      Gives (.warmReset o h) s fun t => t = { s with rsp := .err })) ∧
  (∀ (s : State) (n : Nat) (ok : Bool) (faults : List (Nat × Nat × Nat)), 0 < n → n ≤ 14 →
    (n ≠ s.boot ∨ bootMay s = false → Gives (.bringupStepDone n ok faults) s fun t => t = s) ∧
    (n = s.boot → bootMay s = true →
      let goes := fun (P : State → Prop) => Gives (.bringupStepDone n ok faults) s fun t => P t
      let lics := topLic (validLics s)
      (goes fun t => t.boot = n + 1 ∧ ∀ h, h < 2 → t.fld (rHG_STAT h) HG_STAT_STEP = n) ∧
      (n = 2 → goes fun t => sbUp t = ok ∧ ∀ h, h < 2 → t.flag (rHG_STAT h) HG_STAT_SB = ok) ∧
      (n = 3 → sbUp s = true → s.flag (rHG_STAT 0) HG_STAT_PRIMARY = true → goes fun t => hgRole t 0 = 2 ∧ hgRole t 1 = 1 ∧
        epoch t 0 = 1 ∧ epoch t 1 = 1) ∧
      (n = 3 → sbUp s = false → goes fun t => hgRole t 0 = 3 ∧ hgRole t 1 = 3) ∧
      (n = 3 → goes fun t => ∀ h, h < 2 → t.reg (rHG_LEASE_CFG h) = s.flash.lease) ∧
      (n = 4 → ok = true → 2 ≤ lcState s → goes fun t => t.flag rCK_STAT CK_STAT_ID_OK = true ∧ t.flag rCK_KEYS CK_KEYS_CHIP = true ∧
        reg256 t (rDEV_ID 0) = sha256 idkMod ∧ (s.bootWarm = false → reg256 t (rMEAS 6 0) =
          sha256 (reg256 s (rMEAS 6 0) ++ (BitVec.ofNat 8 (lcState s) :: reg256 s (rFU_OWNER 0))))) ∧
      (n = 8 → goes fun t => t.flag rSP_STAT SP_STAT_CANAL_UP = ok ∧ t.flag rSP_STAT SP_STAT_WEIR_UP = ok ∧
        ∀ h, h < 2 → t.fld (rHG_DEGR h) HG_DEGR_STEP = (if ok = false ∧ s.fld (rHG_DEGR h) HG_DEGR_STEP = 0 then 8 else s.fld (rHG_DEGR h) HG_DEGR_STEP)) ∧
      (n = 9 → ok = false → goes fun t => ∀ h, h < 2 → t.flag (rHG_DEGR h) HG_DEGR_TOPOLOGY = true) ∧
      (n = 9 → coresShort s (match lics with | some l => l.cores | none => 0) = true → goes fun t => ∀ h, h < 2 → t.flag (rHG_DEGR h) HG_DEGR_CORES = true) ∧
      (n = 10 → let lg := s.fld rLG_BASE ⟨47, 24⟩ * 8
        let ga := (if s.fld rGAUGE_BASE GAUGE_BASE_BASE = 0 then 2 else s.fld rGAUGE_BASE GAUGE_BASE_BASE) * 4
        goes fun t => t.fld (rLC_INFO 0) LC_INFO_MTS = 9600 ∧
          ∀ f, (lg ≤ f ∧ f < lg + 8) ∨ (ga ≤ f ∧ f < ga + 4) → (t.le f).rsv = true ∧ (t.le f).chip = true ∧ (t.le f).v = false ∧
            ∀ a, frameOf a = f → tget? a t.mem = none) ∧
      (n = 11 → lcState s < 2 → goes fun t => t.fld rCHIP_INFO CHIP_INFO_ENABLED_CORES = (goodCores s).length ∧
        t.fld rCHIP_INFO CHIP_INFO_SPARE_CORES = 0 ∧ t.fld rCAP_CTL CAP_CTL_DLIC = 4) ∧
      (∀ l, n = 11 → 2 ≤ lcState s → lcState s ≠ 5 → lics = some l → goes fun t => t.reg rCK_LIC = n64 l.serial ∧
        t.fld rCHIP_INFO CHIP_INFO_ENABLED_CORES = min l.cores (goodCores s).length ∧ t.cleat.lics = validLics s) ∧
      (n = 11 → goes fun t => t.fld rTT_STAT TT_STAT_WIDTH = 0 ∧
        ∀ k, k < 2 → subState t k = if (s.hgx k).rom = true then slDOWN else slTRAINING) ∧
      (n = 11 → 2 ≤ lcState s → lics = none → goes fun t => (∀ h, h < 2 → t.flag (rHG_DEGR h) HG_DEGR_LICENCE = true) ∧
        t.fld rCHIP_INFO CHIP_INFO_ENABLED_CORES = 0) ∧
      (n = 14 → goes fun t => t.flag rGAUGE_CTL GAUGE_CTL_LOCK = true ∧ t.flag rLG_CTL LG_CTL_LOCK = true ∧ t.flag rWEIR_CTL WEIR_CTL_LOCK = true ∧
        t.flag rCN_CTL CN_CTL_LOCK = true ∧ t.flag rEL_REPAIR EL_REPAIR_LOCK = true ∧
        t.fld rCHIP_INFO CHIP_INFO_STATE = (if lcState s = 5 then s.fld rCHIP_INFO CHIP_INFO_STATE
          else if bootBad s = true ∨ s.flag rCK_STAT CK_STAT_TAMPER = true then 2 else 1))) ∧
    (n = s.boot → bootMay s = true → n ≠ 12 → n ≠ 13 → Gives (.bringupStepTimeout n) s fun t => t.boot = n + 1 ∧
      (∀ h, h < 2 → t.flag (rHG_DEGR h) HG_DEGR_TIMEOUT = true ∧
        (s.fld (rHG_DEGR h) HG_DEGR_STEP = 0 → t.fld (rHG_DEGR h) HG_DEGR_STEP = n)) ∧
      (n = 14 → lcState s ≠ 5 → t.fld rCHIP_INFO CHIP_INFO_STATE = 2))) ∧
  (∀ (s : State) (h : Nat), h < 2 → let cyc := hgCycle s h - (s.hgx h).renew
    (hgRole s h = 1 → hgRole s (1 - h) = 2 → sbUp s = true → Gives (.leaseRenewal h) s fun t => epoch t h = epoch s (1 - h) ∧
      t.fld (rHG_LEASE h) HG_LEASE_HOLDER = 2 - h ∧ (t.hgx h).renew = hgCycle s h) ∧
    (hgRole s h = 1 → sbUp s = true → (s.hgx h).swap = false →
      (s.fld (rHG_LEASE_CFG h) HG_LEASE_CFG_TIMEOUT ≤ cyc → epoch s h < 2 ^ 32 - 1 → Gives (.leaseTimeout h) s fun t =>
        hgRole t h = 2 ∧ epoch t h = epoch s h + 1 ∧ t.fld (rHG_LEASE h) HG_LEASE_HOLDER = h + 1 ∧
        (t.hgx (1 - h)).claims = (s.hgx (1 - h)).claims ++ [epoch s h + 1]) ∧
      (cyc < s.fld (rHG_LEASE_CFG h) HG_LEASE_CFG_TIMEOUT → Gives (.leaseTimeout h) s fun t => t = s)) ∧
    (∀ e r, (s.hgx h).claims = e :: r → e < 2 ^ 32 → let own := epoch s h
      let goes := fun (P : State → Prop) => Gives (.leaseClaim h) s fun t => (t.hgx h).claims = r ∧
        (∀ j, j < 2 → t.flag (rHG_EVENT j) HG_EVENT_CLAIM = true) ∧ P t
      (own < e ∨ (own = e ∧ h = 1) → goes fun t => hgRole t h = 1 ∧ epoch t h = e ∧ hgRole t (1 - h) = hgRole s (1 - h)) ∧
      (e < own ∨ (own = e ∧ h = 0 ∧ hgRole s h = 2) → goes fun t => hgRole t h = hgRole s h ∧ hgRole t (1 - h) = 1 ∧ epoch t (1 - h) = own)) ∧
    ((s.hgx h).claims = [] → Gives (.leaseClaim h) s fun t => t = s) ∧
    (hgRole s h = 2 → hgRole s (1 - h) = 1 → sbUp s = true → epoch s h < 2 ^ 32 - 1 → Gives (.leaseRelease (.hg h) h) s fun t => t.rsp = .ok 0 ∧
      hgRole t h = 1 ∧ hgRole t (1 - h) = 2 ∧ epoch t (1 - h) = epoch s h + 1) ∧
    (∀ o, o ≠ .hg h ∨ hgRole s h ≠ 2 → Gives (.leaseRelease o h) s fun t => t = { s with rsp := .err })) ∧
  (∀ s : State,
    (sbUp s = true → Gives .sidebandDown s fun t => sbUp t = false ∧ ∀ h, h < 2 → hgRole t h = 3 ∧ epoch t h = epoch s h ∧ (t.hgx h).old = hgRole s h) ∧
    (sbUp s = false → (∀ h, h < 2 → 1 ≤ hgRole s h) →
      let r := fun (h : Nat) => if hgRole s h ≠ 3 then hgRole s h else if (s.hgx h).old = 2 then 2 else 1
      let goes := fun (r0 r1 e0 e1 : Nat) => Gives .sidebandUp s fun t => sbUp t = true ∧ hgRole t 0 = r0 ∧ hgRole t 1 = r1 ∧ epoch t 0 = e0 ∧ epoch t 1 = e1
      let e := epoch s 0
      (epoch s 1 < e → goes (r 0) (3 - r 0) e e) ∧ (e < epoch s 1 → goes (3 - r 1) (r 1) (epoch s 1) (epoch s 1)) ∧
      (epoch s 1 = e → r 0 ≠ r 1 → goes (r 0) (r 1) e e) ∧ (epoch s 1 = e → r 0 = 2 → r 1 = 2 → goes 2 1 e e) ∧
      (epoch s 1 = e → r 0 = 1 → r 1 = 1 → s.flag (rHG_STAT 0) HG_STAT_PRIMARY = true → e < 2 ^ 32 - 1 → goes 2 1 (e + 1) e))) ∧
  (∀ (s : State) (h op : Nat) (ok : Bool), MbAsked s h op → let w := fun (i : Nat) => mbWord s h i
    let rows : List (Nat × Instr) := [(1, .mbStatus h), (2, .mbName h), (3, .mbFwStage h), (4, .mbFwActivate h ok), (5, .mbFwplace h), (6, .mbCoreSwap h), (7, .mbRing h)]
    (∀ x ∈ rows, (op = 0 ∨ 7 < op → Gives x.2 s fun t => MbReplied s t h 1) ∧ (0 < op → op ≤ 7 → op ≠ x.1 → Gives x.2 s fun t => t = s) ∧
      (op = x.1 → 3 ≤ op → hgRole s h ≠ 2 → Gives x.2 s fun t => MbReplied s t h 2 ∧ t.flash = s.flash ∧ t.cores = s.cores ∧ t.mem = s.mem)) ∧
    (op = 1 → Gives (.mbStatus h) s fun t => MbReplied s t h 0 ∧ t.reg (rMB_OUT h 1) = s.reg rCHIP_INFO ∧
      t.reg (rMB_OUT h 2) = s.reg (rHG_STAT h) ∧ t.reg (rMB_OUT h 3) = s.reg (rHG_DEGR h)) ∧
    (op = 2 → (w 1 = 1 ∨ w 1 = 2) → epoch s h < w 2 → w 2 < 2 ^ 32 → Gives (.mbName h) s fun t => MbReplied s t h 0 ∧ epoch t h = w 2 ∧
      hgRole t h = (if w 1 = h + 1 then 2 else 1)) ∧
    (op = 2 → w 2 ≤ epoch s h → Gives (.mbName h) s fun t => MbReplied s t h 5 ∧ epoch t h = epoch s h ∧ hgRole t h = hgRole s h) ∧
    (hgRole s h = 2 →
      (op = 3 → let kind := bits (w 3) 7 0
        let bank := bits (w 3) 8 8
        let pa := 0x400000000000 + w 1
        (2 < kind ∨ w 2 = 0 ∨ bankSize kind < w 2 → Gives (.mbFwStage h) s fun t => MbReplied s t h 5 ∧ t.flash = s.flash) ∧
        (∀ bs u, kind ≤ 2 → 0 < w 2 → w 2 ≤ bankSize kind → w 1 + w 2 ≤ 2 ^ 46 → cwOpen s pa false = true →
          gateAll (pa / 128) false s (lineSpan pa (w 2)) = true → engRead pa (w 2) 0 0 false false true s = (bs, none, u) →
          Gives (.mbFwStage h) s fun t => MbReplied u t h 0 ∧ tget? (2 * kind + bank) t.flash.img = some bs ∧ tget? kind t.flash.bank = some bank)) ∧
      (op = 4 → w 1 = 0 → w 2 < 2 → (s.hgx (w 2)).swap = false → Gives (.mbFwActivate h ok) s fun t => MbReplied s t h 0 ∧
        (t.hgx (w 2)).swap = true ∧ t.fld (rHG_FW (w 2)) HG_FW_NEXT = 1 - s.fld (rHG_STAT (w 2)) HG_STAT_BANK ∧ (w 2 = h → hgRole t h = 1)) ∧
      (op = 4 → w 1 = 1 → w 2 < 8 → s.flag (rPT_RANGE (w 2)) PT_RANGE_EN = true → let code := (activateCheck 1 ok s).1
        let gen := (s.fld (rHG_FW (masterHg s)) HG_FW_GEN + 1) % 256
        ((∃ c ∈ allCores, s.flag (rFwCore c) HG_FWCORE_ARM = true) → Gives (.mbFwActivate h ok) s fun t => MbReplied s t h 3 ∧ t.cores = s.cores) ∧
        ((∀ c ∈ allCores, s.flag (rFwCore c) HG_FWCORE_ARM = false) →
          (code ≠ 0 → Gives (.mbFwActivate h ok) s fun t => MbReplied s t h 4 ∧ t.reg (rMB_OUT h 1) = n64 code) ∧
          (code = 0 → Gives (.mbFwActivate h ok) s fun t => MbReplied s t h 0 ∧ t.fld (rHG_FW (masterHg s)) HG_FW_GEN = gen ∧
            ∀ c ∈ loadCores s (w 2), t.flag (rFwCore c) HG_FWCORE_ARM = true ∧ t.fld (rFwCore c) HG_FWCORE_GEN = gen))) ∧
      (op = 4 → w 1 = 2 → w 2 < 16 →
        (sluIdle s (w 2) = false → Gives (.mbFwActivate h ok) s fun t => MbReplied s t h 3) ∧
        (sluIdle s (w 2) = true → (activateCheck 2 ok s).1 = 0 → Gives (.mbFwActivate h ok) s fun t => MbReplied s t h 0 ∧
          t.flag (rSLU_CTL (w 2)) SLU_CTL_ENABLE = false ∧ w 2 ∈ t.slUpd)) ∧
      (op = 4 → 2 < w 1 → Gives (.mbFwActivate h ok) s fun t => MbReplied s t h 5) ∧
      (op = 5 → (coreImage s = none ∨ 8 ≤ w 1) → Gives (.mbFwplace h) s fun t => MbReplied s t h 5 ∧ t.mem = s.mem) ∧
      (∀ e res lib, op = 5 → coreImage s = some (e, res, lib) → w 1 < 8 → w 2 + lib.length < 2 ^ 48 → eFaultV s (w 1) true .store (w 2) lib.length = none →
        eGateV s (w 1) true (w 2) lib.length = true → Gives (.mbFwplace h) s fun t => t.flag (rMB_CTL h) MB_CTL_OUT_FULL = true ∧
          t.mem = (eWriteV (w 1) 0 0xF false 0 (w 2) lib s).mem) ∧
      (op = 6 → disableOk (.hg h) (w 1) s = false → Gives (.mbCoreSwap h) s fun t => MbReplied s t h 5 ∧ t.cores = s.cores) ∧
      (∀ d r, op = 6 → disableOk (.hg h) (w 1) s = true → sparesIn s (s.part (w 1)) = d :: r → Gives (.mbCoreSwap h) s fun t => MbReplied s t h 0 ∧
        t.reg (rMB_OUT h 1) = n64 d ∧ (t.core (w 1)).enabled = false ∧ (t.core (w 1)).dead = true ∧ (t.core d).enabled = true ∧
        t.part d = s.part (w 1) ∧ t.flag (rFwCore d) HG_FWCORE_ARM = true) ∧
      (op = 7 → Gives (.mbRing h) s fun t => MbReplied s t h 0 ∧ ∀ d, d < 4 → tget? d t.flash.ring = some (s.reg (rMB_IN h (d + 1)))))) ∧
  (∀ (s : State) (h : Nat), h < 2 →
    ((s.hgx h).events = [] → Gives (.mbEvent h) s fun t => t = s) ∧
    (∀ e r, (s.hgx h).events = e :: r → s.flag (rMB_CTL h) MB_CTL_OUT_FULL = false → (s.hgx h).swap = false → (s.hgx h).rom = false →
      Gives (.mbEvent h) s fun t => (t.hgx h).events = r ∧ t.flag (rMB_CTL h) MB_CTL_OUT_FULL = true ∧
        t.reg (rMB_OUT h 0) &&& 0xFFFFFFFFFFFF#64 = 0x80 ∧ t.reg (rMB_OUT h 1) = s.reg (rHG_EVENT h) ∧ t.reg (rMB_OUT h 2) = s.reg (rHG_HALT h))) ∧
  (∀ (s : State) (c : Nat) (p : Packet), c < 1024 → CleanWay p →
    (fwAccepts s c p = false ∨ p.bad ≠ 0 → Gives (.fwChunk c p) s fun t => t = s) ∧
    (fwAccepts s c p = true → p.bad = 0 → let ch := bits p.addr 15 5
      let fl := bits p.addr 4 0
      (ch < 224 → Gives (.fwChunk c p) s fun t => ch * 32 + fl ∈ (tget FwRx.reset t.fwrx c).got ∧
        (∀ i, i < 128 → spadByte t c (ch * 4096 + fl * 128 + i) = BitVec.extractLsb' (8 * i) 8 p.payload) ∧
        ∀ a, a < ch * 4096 + fl * 128 ∨ ch * 4096 + fl * 128 + 128 ≤ a → spadByte t c a = spadByte s c a) ∧
      (ch = 0x7FF → Gives (.fwChunk c p) s fun t => (tget FwRx.reset t.fwrx c).digest =
        some (leBytes 32 (bits p.payload.toNat 255 0), bits p.payload.toNat 287 256) ∧ t.cores = s.cores))) ∧
  (∀ (s : State) (c : Nat), c < 1024 → let a := rFwCore c
    let x := tget FwRx.reset s.fwrx c
    let rounds := s.fld a HG_FWCORE_ROUNDS
    let bad := fun (i : Instr) (m : Nat) =>
      (rounds < 3 → Gives i s fun t => t.fld a HG_FWCORE_ROUNDS = rounds + 1 ∧ t.fld a HG_FWCORE_MISSING = m ∧ t.flag a HG_FWCORE_ARM = true ∧
        t.cores = s.cores) ∧
      (3 ≤ rounds → Gives i s fun t => t.flag a HG_FWCORE_FAIL = true ∧ t.flag a HG_FWCORE_ARM = false ∧ t.fld a HG_FWCORE_MISSING = m ∧
        (t.core c).dead = true ∧ (t.core c).enabled = false)
    (s.flag a HG_FWCORE_ARM = false ∨ x.digest = none → Gives (.fwLoadReport c) s fun t => t = s) ∧
    (s.flag a HG_FWCORE_ARM = false → Gives (.fwReportTimeout c) s fun t => t = s) ∧
    (s.flag a HG_FWCORE_ARM = true → (s.fld (rHG_FWREP (masterHg s)) HG_FWREP_CHUNKS ≤ 224 →
        bad (.fwReportTimeout c) (s.fld (rHG_FWREP (masterHg s)) HG_FWREP_CHUNKS)) ∧
      ∀ d n, x.digest = some (d, n) → n ≤ 224 → let miss := fwMissing x n
        (miss ≠ [] → bad (.fwLoadReport c) miss.length) ∧
        (miss = [] → spadBad s c 0 (n * 4096) = none → sha256 (spadBytes s c 0 (n * 4096)) = d → Gives (.fwLoadReport c) s fun t =>
          t.flag a HG_FWCORE_DONE = true ∧ t.flag a HG_FWCORE_ARM = false ∧ t.fld a HG_FWCORE_MISSING = 0 ∧ t.cores = s.cores) ∧
        (miss = [] → spadBad s c 0 (n * 4096) ≠ none ∨ sha256 (spadBytes s c 0 (n * 4096)) ≠ d → bad (.fwLoadReport c) n))) ∧
  (∀ (s : State) (o : Origin) (h c : Nat), h < 2 → c < 1024 → let may := mayReg s o true (rHG_CORERST h)
    (may = true → coreIdOk c = true → (s.core c).rst = false → AllQuiet s → Gives (.coreReset o h c) s fun t => t.rsp = .ok 0 ∧
      (t.core c).ctxs = [] ∧ (t.core c).rgen = !(s.core c).rgen ∧ (t.core c).eng = Eng.clear) ∧
    (may = true → disableOk o c s = true → Gives (.coreDisable o h c) s fun t => t.rsp = .ok 0 ∧ (t.core c).enabled = false ∧
      (t.core c).dead = true ∧ c ∈ t.swapOut) ∧
    (may = false ∨ disableOk o c s = false → Gives (.coreDisable o h c) s fun t => t = { s with rsp := .err }) ∧
    (∀ p, may = true → spareOk o c s = true → colPart s c = some p → Gives (.spareEnable o h c) s fun t => t.rsp = .ok 0 ∧ (t.core c).enabled = true ∧
      t.part c = p ∧ t.flag (rFwCore c) HG_FWCORE_ARM = true ∧ (t.core c).spadEpoch = (s.core c).spadEpoch + 1) ∧
    (may = false ∨ spareOk o c s = false → Gives (.spareEnable o h c) s fun t => t = { s with rsp := .err })) ∧
  (∀ (s : State) (h : Nat) (ok : Bool), h < 2 →
    ((s.hgx h).swap = false → Gives (.hgSwapDone h ok) s fun t => t = s) ∧
    ((s.hgx h).swap = true → let b := s.fld (rHG_FW h) HG_FW_NEXT
      ((bootImage 0 b ok s).1.isSome = true → Gives (.hgSwapDone h ok) s fun t => (t.hgx h).swap = false ∧ (t.hgx h).rom = false ∧
        t.fld (rHG_STAT h) HG_STAT_BANK = b ∧ hgRole t h = 1 ∧ (sbUp s = true → epoch t h = epoch s (1 - h))) ∧
      ((bootImage 0 b ok s).1 = none → (bootImage 0 (1 - b) ok s).1 = none → Gives (.hgSwapDone h ok) s fun t => (t.hgx h).swap = false ∧
        (t.hgx h).rom = true ∧ hgRole t h = hgRole s h))) ∧
  (∀ (s : State) (n : Nat), n < 16 →
    (n ∈ s.slUpd → Gives (.sluiceUpdateDone n) s fun t => t.flag (rSLU_CTL n) SLU_CTL_ENABLE = true ∧ n ∉ t.slUpd ∧ t.mem = s.mem) ∧
    (n ∉ s.slUpd → Gives (.sluiceUpdateDone n) s fun t => t = s)) ∧
  (∀ (s : State) (b : Nat) (fail : Bool), b < 12672 → let l := epLink (masterHg s)
    l ∈ s.bgDefer ∨ bgLimit l < tget 0 s.bg l + 2048 → Gives (.flashRefresh b fail) s fun t =>
      l ∈ t.bgDefer ∧ t.flash = s.flash ∧ t.regs = s.regs ∧ t.mem = s.mem) ∧
  (∀ (s : State) (b : Nat) (fail : Bool), b < 12672 → let n := tget 0 s.flash.erases b + 1
    let l := epLink (masterHg s)
    l ∉ s.bgDefer → tget 0 s.bg l + 2048 ≤ bgLimit l →
    (fail = false → n < 100000 → Gives (.flashRefresh b fail) s fun t => t.flash = { s.flash with erases := tset b n s.flash.erases }) ∧
    ((fail = true ∨ 100000 ≤ n) → 0 < s.flash.spare → Gives (.flashRefresh b fail) s fun t => t.flash.retired = s.flash.retired + 1 ∧
      t.flash.spare = s.flash.spare - 1 ∧ tget 0 t.flash.erases b = 0 ∧
      (s.flash.spare = 1 → ∀ h, h < 2 → t.flag (rHG_DEGR h) HG_DEGR_FLASH = true)))
end

