-- ==== Sys2Proof/Laws/Tab.lean ====
section
/-! SUPPORT. Laws of the sparse tables: reading what was written, and that every operation keeps the canonical form. -/

namespace Sys2Proof.Machine

theorem tabove_mono {α : Type} {a b : Nat} (h : a ≤ b) : ∀ {t : Tab α}, tabove b t = true → tabove a t = true
  | [], _ => rfl
  | (k, _) :: r, ht => by
    simp only [tabove, Bool.and_eq_true, decide_eq_true_eq] at ht ⊢
    exact ⟨Nat.lt_of_le_of_lt h ht.1, ht.2⟩

theorem twf_of_tabove {α : Type} {b : Nat} : ∀ {t : Tab α}, tabove b t = true → twf t = true
  | [], _ => rfl
  | (k, _) :: r, ht => by
    simp only [tabove, Bool.and_eq_true, decide_eq_true_eq] at ht
    exact ht.2

/-- The value just written is read. -/
@[simp] theorem tget?_tset_self {α : Type} (k : Nat) (v : α) : ∀ t : Tab α, tget? k (tset k v t) = some v
  | [] => by simp [tset, tget?]
  | (k', v') :: r => by
    unfold tset
    split
    · simp [tget?]
    · split
      · simp [tget?]
      · rename_i h; simp [tget?, h, tget?_tset_self k v r]

/-- A write leaves every other key. -/
theorem tget?_tset_ne {α : Type} {k j : Nat} (v : α) (h : j ≠ k) : ∀ t : Tab α, tget? j (tset k v t) = tget? j t
  | [] => by simp [tset, tget?, Ne.symm h]
  | (k', v') :: r => by
    unfold tset
    split
    · simp [tget?, Ne.symm h]
    · split
      · rename_i hk; subst hk; simp [tget?, Ne.symm h]
      · simp only [tget?]; rw [tget?_tset_ne v h r]

/-- The later of two writes of one key stands. -/
@[simp] theorem tset_tset {α : Type} (k : Nat) (v w : α) : ∀ t : Tab α, tset k v (tset k w t) = tset k v t
  | [] => by simp [tset]
  | (k', v') :: r => by
    simp only [tset]
    split
    · simp [tset]
    · split
      · rename_i h1 h2; subst h2; simp [tset]
      · rename_i h1 h2; simp [tset, h1, h2, tset_tset k v w r]

@[simp] theorem tget_tset_self {α : Type} (d : α) (k : Nat) (v : α) (t : Tab α) : tget d (tset k v t) k = v := by
  simp [tget]

theorem tget_tset_ne {α : Type} (d : α) {k j : Nat} (v : α) (h : j ≠ k) (t : Tab α) : tget d (tset k v t) j = tget d t j := by
  simp [tget, tget?_tset_ne v h]

/-- Nothing is listed under a key taken out. -/
@[simp] theorem tget?_tdel_self {α : Type} (k : Nat) : ∀ t : Tab α, tget? k (tdel k t) = none
  | [] => rfl
  | (k', v') :: r => by
    unfold tdel
    split
    · exact tget?_tdel_self k r
    · rename_i h; simp [tget?, h, tget?_tdel_self k r]

/-- Taking a key out leaves every other key. -/
theorem tget?_tdel_ne {α : Type} {k j : Nat} (h : j ≠ k) : ∀ t : Tab α, tget? j (tdel k t) = tget? j t
  | [] => rfl
  | (k', v') :: r => by
    unfold tdel
    split
    · rename_i hk; subst hk; simp [tget?, Ne.symm h, tget?_tdel_ne h r]
    · simp only [tget?]; rw [tget?_tdel_ne h r]

theorem tabove_tset {α : Type} {b k : Nat} (v : α) (hb : b < k) : ∀ {t : Tab α}, tabove b t = true → tabove b (tset k v t) = true
  | [], _ => by simp [tset, tabove, hb]
  | (k', v') :: r, ht => by
    simp only [tabove, Bool.and_eq_true, decide_eq_true_eq] at ht
    unfold tset
    split
    · rename_i hk; simp [tabove, hb, hk, ht.2]
    · split
      · rename_i hk; subst hk; simp [tabove, hb, ht.2]
      · rename_i h1 h2
        simp only [tabove, Bool.and_eq_true, decide_eq_true_eq]
        exact ⟨ht.1, tabove_tset v (by omega) ht.2⟩

/-- A write keeps the canonical form. -/
theorem twf_tset {α : Type} (k : Nat) (v : α) : ∀ {t : Tab α}, twf t = true → twf (tset k v t) = true
  | [], _ => rfl
  | (k', v') :: r, ht => by
    unfold tset
    split
    · rename_i hk; simp only [twf] at ht; simp [twf, tabove, hk, ht]
    · split
      · rename_i hk; subst hk; exact ht
      · rename_i h1 h2; simp only [twf] at ht ⊢; exact tabove_tset v (by omega) ht

theorem tabove_tdel {α : Type} {b : Nat} (k : Nat) : ∀ {t : Tab α}, tabove b t = true → tabove b (tdel k t) = true
  | [], _ => rfl
  | (k', v') :: r, ht => by
    simp only [tabove, Bool.and_eq_true, decide_eq_true_eq] at ht
    unfold tdel
    split
    · exact tabove_tdel k (tabove_mono (Nat.le_of_lt ht.1) ht.2)
    · simp only [tabove, Bool.and_eq_true, decide_eq_true_eq]; exact ⟨ht.1, tabove_tdel k ht.2⟩

/-- Taking a key out keeps the canonical form. -/
theorem twf_tdel {α : Type} (k : Nat) : ∀ {t : Tab α}, twf t = true → twf (tdel k t) = true
  | [], _ => rfl
  | (k', v') :: r, ht => by
    simp only [twf] at ht
    unfold tdel
    split
    · exact twf_of_tabove (tabove_tdel k ht)
    · exact tabove_tdel k ht

theorem tabove_filter {α : Type} {b : Nat} (p : Nat × α → Bool) : ∀ {t : Tab α}, tabove b t = true → tabove b (t.filter p) = true
  | [], _ => rfl
  | (k', v') :: r, ht => by
    simp only [tabove, Bool.and_eq_true, decide_eq_true_eq] at ht
    rw [List.filter_cons]
    split
    · simp only [tabove, Bool.and_eq_true, decide_eq_true_eq]; exact ⟨ht.1, tabove_filter p ht.2⟩
    · exact tabove_filter p (tabove_mono (Nat.le_of_lt ht.1) ht.2)

/-- Keeping only some entries keeps the canonical form. -/
theorem twf_filter {α : Type} (p : Nat × α → Bool) : ∀ {t : Tab α}, twf t = true → twf (t.filter p) = true
  | [], _ => rfl
  | (k', v') :: r, ht => by
    simp only [twf] at ht
    rw [List.filter_cons]
    split
    · exact tabove_filter p ht
    · exact twf_of_tabove (tabove_filter p ht)

theorem tabove_map {α β : Type} {b : Nat} (f : Nat × α → β) : ∀ {t : Tab α}, tabove b t = true → tabove b (t.map fun x => (x.1, f x)) = true
  | [], _ => rfl
  | (k', v') :: r, ht => by
    simp only [tabove, Bool.and_eq_true, decide_eq_true_eq, List.map_cons] at ht ⊢
    exact ⟨ht.1, tabove_map f ht.2⟩

/-- Changing values only keeps the canonical form. -/
theorem twf_map {α β : Type} (f : Nat × α → β) : ∀ {t : Tab α}, twf t = true → twf (t.map fun x => (x.1, f x)) = true
  | [], _ => rfl
  | (k', v') :: r, ht => by simp only [twf, List.map_cons] at ht ⊢; exact tabove_map f ht

/-- A fold keeps what each of its steps keeps. -/
theorem each_keeps {α σ : Type} {P : σ → Prop} {f : α → σ → σ} (hf : ∀ a s, P s → P (f a s)) : ∀ {l : List α} {s : σ}, P s → P (each f l s)
  | [], _, h => h
  | _ :: r, _, h => each_keeps hf (l := r) (hf _ _ h)

/-- Counting up keeps what each of its steps keeps. -/
theorem upto_keeps {σ : Type} {P : σ → Prop} {f : Nat → σ → σ} (hf : ∀ a s, P s → P (f a s)) : ∀ {n : Nat} {s : σ}, P s → P (upto f n s)
  | 0, _, h => h
  | n + 1, _, h => hf n _ (upto_keeps hf (n := n) h)

/-- A left fold keeps what each of its steps keeps. -/
theorem foldl_keeps {α σ : Type} {P : σ → Prop} {f : σ → α → σ} (hf : ∀ s a, P s → P (f s a)) : ∀ {l : List α} {s : σ}, P s → P (l.foldl f s)
  | [], _, h => h
  | _ :: r, _, h => foldl_keeps hf (l := r) (hf _ _ h)

theorem lhas_ldrop {x f : Nat} : ∀ {l : List Nat}, lhas x (ldrop f l) = true → lhas x l = true
  | [], h => h
  | y :: r, h => by
    unfold ldrop at h
    split at h
    · simp only [lhas, Bool.or_eq_true]; exact .inr (lhas_ldrop h)
    · simp only [lhas, Bool.or_eq_true] at h ⊢; exact h.imp_right lhas_ldrop

end Sys2Proof.Machine
end

