-- ==== Sys2Proof/Laws/Keeps.lean ====
section
/-! SUPPORT. What every effect of the part keeps, whatever else it does: the queue of waiting commands, the canonical forms of
the memory and of the tables of registers, cores and Ledger entries, and the two counters that only rise. Every operation
has one lemma that says it keeps them, named after it. -/

namespace Sys2Proof.Machine

/-- From `s` to `t` the queue is the same, canonical forms stay canonical, and the model's counters do not fall. -/
structure Keeps (s t : State) : Prop where
  pending : t.pending = s.pending
  mem : memWf s = true → memWf t = true
  regs : twf s.regs = true → twf t.regs = true
  cores : twf s.cores = true → twf t.cores = true
  ledger : twf s.ledger = true → twf t.ledger = true
  free : s.free ≤ t.free
  epoch : s.memEpoch ≤ t.memEpoch

/-- The state of a pair's second part. -/
def KP (s0 : State) {α : Type} (x : α × State) : Prop := Keeps s0 x.2
def KSnd {α β : Type} (P : β → Prop) (x : α × β) : Prop := P x.2
def KFst {α β : Type} (P : α → Prop) (x : α × β) : Prop := P x.1

/-- What holds of a result when there is one. -/
def KOpt {α : Type} (P : α → Prop) (o : Option α) : Prop := ∀ a, o = some a → P a

def KExc {ε α : Type} (E : ε → Prop) (P : α → Prop) (x : Except ε α) : Prop := (∀ a, x = .ok a → P a) ∧ ∀ e, x = .error e → E e

/-- Nothing is asked of an error that holds no state. -/
def KAny {ε : Type} (_ : ε) : Prop := True

def KOut {σ φ ρ : Type} (P : σ → Prop) (x : Host.Outcome σ φ ρ) : Prop := ∀ a, x = .next a → P a

theorem KP.mk {s0 s : State} {α : Type} {a : α} (h : Keeps s0 s) : KP s0 (a, s) := h
theorem KP.snd {s0 : State} {α : Type} {p : α × State} (h : KP s0 p) : Keeps s0 p.2 := h
theorem KSnd.mk {α β : Type} {P : β → Prop} {a : α} {b : β} (h : P b) : KSnd P (a, b) := h
theorem KSnd.snd {α β : Type} {P : β → Prop} {p : α × β} (h : KSnd P p) : P p.2 := h
theorem KFst.mk {α β : Type} {P : α → Prop} {a : α} {b : β} (h : P a) : KFst P (a, b) := h
theorem KFst.fst {α β : Type} {P : α → Prop} {p : α × β} (h : KFst P p) : P p.1 := h
theorem KOpt.mk {α : Type} {P : α → Prop} {a : α} (h : P a) : KOpt P (some a) := fun _ e => Option.some.inj e ▸ h
theorem KOpt.non {α : Type} {P : α → Prop} : KOpt P none := nofun
theorem KOpt.of {α : Type} {P : α → Prop} {o : Option α} {a : α} (h : o = some a) (ho : KOpt P o) : P a := ho a h
theorem KOpt.get {α : Type} {P : α → Prop} {a : α} (h : KOpt P (some a)) : P a := h a rfl
theorem KP.get {s0 s : State} {α : Type} {a : α} (h : KP s0 (a, s)) : Keeps s0 s := h
theorem KSnd.get {α β : Type} {P : β → Prop} {a : α} {b : β} (h : KSnd P (a, b)) : P b := h
theorem KFst.get {α β : Type} {P : α → Prop} {a : α} {b : β} (h : KFst P (a, b)) : P a := h
theorem KExc.mk {ε α : Type} {E : ε → Prop} {P : α → Prop} {a : α} (h : P a) : KExc E P (.ok a : Except ε α) :=
  ⟨fun _ e => Except.ok.inj e ▸ h, nofun⟩
theorem KExc.err {ε α : Type} {E : ε → Prop} {P : α → Prop} {e : ε} (h : E e) : KExc E P (.error e) :=
  ⟨nofun, fun _ x => Except.error.inj x ▸ h⟩
theorem KExc.any {ε α : Type} {P : α → Prop} {e : ε} : KExc KAny P (.error e) := KExc.err trivial
theorem KExc.getOk {ε α : Type} {E : ε → Prop} {P : α → Prop} {a : α} (h : KExc E P (.ok a : Except ε α)) : P a := h.1 a rfl
theorem KExc.getErr {ε α : Type} {E : ε → Prop} {P : α → Prop} {e : ε} (h : KExc E P (.error e)) : E e := h.2 e rfl
theorem KOut.mk {σ φ ρ : Type} {P : σ → Prop} {a : σ} (h : P a) : KOut P (.next a : Host.Outcome σ φ ρ) :=
  fun _ e => Host.Outcome.next.inj e ▸ h
theorem KOut.stop {σ φ ρ : Type} {P : σ → Prop} {r : ρ} : KOut P (.refused r : Host.Outcome σ φ ρ) := nofun

theorem Keeps.refl (s : State) : Keeps s s := ⟨rfl, id, id, id, id, Nat.le_refl _, Nat.le_refl _⟩

theorem Keeps.trans {s t u : State} (h : Keeps s t) (k : Keeps t u) : Keeps s u :=
  ⟨k.pending.trans h.pending, k.mem ∘ h.mem, k.regs ∘ h.regs, k.cores ∘ h.cores, k.ledger ∘ h.ledger, Nat.le_trans h.free k.free,
    Nat.le_trans h.epoch k.epoch⟩

/-- An update of fields that `Keeps` does not speak of. -/
theorem Keeps.same {s t u : State} (h : Keeps s t) (hp : u.pending = t.pending) (hr : u.regs = t.regs) (hf : u.free = t.free)
    (hc : u.cores = t.cores) (hm : u.mem = t.mem) (he : u.memEpoch = t.memEpoch) (hl : u.ledger = t.ledger)
    (hz : u.zeroed = t.zeroed) : Keeps s u :=
  ⟨hp.trans h.pending, fun x => by have := h.mem x; unfold memWf at this ⊢; rw [hm, hz]; exact this,
    fun x => hr ▸ h.regs x, fun x => hc ▸ h.cores x, fun x => hl ▸ h.ledger x, hf ▸ h.free, he ▸ h.epoch⟩

/-- An update that takes free values. -/
theorem Keeps.freeUp {s t u : State} (h : Keeps s t) (hp : u.pending = t.pending) (hr : u.regs = t.regs)
    (hc : u.cores = t.cores) (hm : u.mem = t.mem) (he : u.memEpoch = t.memEpoch) (hl : u.ledger = t.ledger)
    (hz : u.zeroed = t.zeroed) (hf : t.free ≤ u.free) : Keeps s u :=
  ⟨hp.trans h.pending, fun x => by have := h.mem x; unfold memWf at this ⊢; rw [hm, hz]; exact this,
    fun x => hr ▸ h.regs x, fun x => hc ▸ h.cores x, fun x => hl ▸ h.ledger x, Nat.le_trans h.free hf, he ▸ h.epoch⟩

/-- An update of everything but the memory. -/
theorem Keeps.upd {s t u : State} (h : Keeps s t) (hp : u.pending = t.pending) (hm : u.mem = t.mem) (hz : u.zeroed = t.zeroed)
    (he : u.memEpoch = t.memEpoch) (hr : twf t.regs = true → twf u.regs = true) (hc : twf t.cores = true → twf u.cores = true)
    (hl : twf t.ledger = true → twf u.ledger = true) (hf : t.free ≤ u.free) : Keeps s u :=
  h.trans ⟨hp, fun x => by unfold memWf at x ⊢; rw [hm, hz]; exact x, hr, hc, hl, hf, Nat.le_of_eq he.symm⟩

/-- An update of the memory, its epoch and fields that `Keeps` does not speak of. -/
theorem Keeps.memUpd {s t u : State} (h : Keeps s t) (hp : u.pending = t.pending) (hr : u.regs = t.regs) (hf : u.free = t.free)
    (hc : u.cores = t.cores) (hl : u.ledger = t.ledger) (he : t.memEpoch ≤ u.memEpoch)
    (hm : memWf t = true → memWf u = true) : Keeps s u :=
  h.trans ⟨hp, hm, fun x => hr ▸ x, fun x => hc ▸ x, fun x => hl ▸ x, Nat.le_of_eq hf.symm, he⟩

theorem ite_keeps {α : Type} {P : α → Prop} {c : Prop} [Decidable c] {a b : α} (ha : P a) (hb : P b) : P (if c then a else b) := by
  split <;> assumption

theorem dite_keeps {α : Type} {P : α → Prop} {c : Prop} [Decidable c] {a : c → α} {b : ¬c → α} (ha : ∀ h, P (a h)) (hb : ∀ h, P (b h)) :
    P (dite c a b) := by
  split
  · exact ha _
  · exact hb _

theorem of_eq {α : Type} {P : α → Prop} {a b : α} (h : a = b) (ha : P a) : P b := h ▸ ha

theorem bind_keeps {ε α β : Type} {E : ε → Prop} {P : α → Prop} {Q : β → Prop} {x : Except ε α} {f : α → Except ε β}
    (hx : KExc E P x) (hf : ∀ a, P a → KExc E Q (f a)) : KExc E Q (x >>= f) := by
  cases x
  · exact .err hx.getErr
  · exact hf _ hx.getOk

/-- A canonical memory: the two parts of `memWf`. -/
theorem memWf_iff {s : State} : memWf s = true ↔ twf s.mem = true ∧ ∀ c ∈ s.mem, c.2 = 0 → lhas (frameOf c.1) s.zeroed = false := by
  unfold memWf
  simp only [Bool.and_eq_true, List.all_eq_true, Bool.not_eq_true', Bool.and_eq_false_imp, beq_iff_eq]

theorem mem_of_tset {α : Type} {k : Nat} {v : α} {c : Nat × α} : ∀ {t : Tab α}, c ∈ tset k v t → c = (k, v) ∨ c ∈ t
  | [], h => by simpa [tset] using h
  | (k', v') :: r, h => by
    unfold tset at h
    split at h
    · simpa using h
    · split at h
      · simp only [List.mem_cons] at h ⊢; exact h.imp_right .inr
      · simp only [List.mem_cons] at h ⊢
        rcases h with h | h
        · exact .inr (.inl h)
        · exact (mem_of_tset h).imp_right .inr

theorem mem_of_tdel {α : Type} {k : Nat} {c : Nat × α} : ∀ {t : Tab α}, c ∈ tdel k t → c ∈ t
  | [], h => h
  | (k', v') :: r, h => by
    unfold tdel at h
    split at h
    · exact List.mem_cons_of_mem _ (mem_of_tdel h)
    · simp only [List.mem_cons] at h ⊢; exact h.imp_right mem_of_tdel

/-- Writing a byte keeps the canonical form. -/
theorem memWf_setByte {s : State} (a : Nat) (b : Byte) (h : memWf s = true) : memWf (s.setByte a b) = true := by
  rw [memWf_iff] at h ⊢
  unfold State.setByte
  by_cases hz : (b = 0 && lhas (frameOf a) s.zeroed) = true
  · simp only [hz, if_true]
    exact ⟨twf_tdel _ h.1, fun c hc => h.2 c (mem_of_tdel hc)⟩
  · simp only [hz]
    refine ⟨twf_tset _ _ h.1, fun c hc h0 => ?_⟩
    rcases mem_of_tset hc with rfl | hc
    · simp only at h0; subst h0
      simpa using hz
    · exact h.2 c hc h0

/-- Keeping only some cells, with no frame newly zeroed, keeps the canonical form. -/
theorem memWf_filter {s t : State} (p : Host.Cell → Bool) (hm : t.mem = s.mem.filter p)
    (hz : ∀ f, lhas f t.zeroed = true → lhas f s.zeroed = true) (h : memWf s = true) : memWf t = true := by
  rw [memWf_iff] at h ⊢
  rw [hm]
  refine ⟨twf_filter p h.1, fun c hc h0 => ?_⟩
  have := h.2 c (List.mem_filter.mp hc |>.1) h0
  cases hl : lhas (frameOf c.1) t.zeroed
  · rfl
  · rw [hz _ hl] at this; exact this

theorem State.setByte_keeps {s0 s a b} (h : Keeps s0 s) : Keeps s0 (State.setByte s a b) :=
  h.memUpd rfl rfl rfl rfl rfl (Nat.le_refl _) (memWf_setByte a b)

theorem State.setReg_keeps {s0 s a v} (h : Keeps s0 s) : Keeps s0 (State.setReg s a v) :=
  h.upd rfl rfl rfl rfl (twf_tset a v) id id (Nat.le_refl _)

theorem State.resetReg_keeps {s0 s a} (h : Keeps s0 s) : Keeps s0 (State.resetReg s a) :=
  h.upd rfl rfl rfl rfl (twf_tdel a) id id (Nat.le_refl _)

theorem State.setCore_keeps {s0 s c k} (h : Keeps s0 s) : Keeps s0 (State.setCore s c k) :=
  h.upd rfl rfl rfl rfl id (twf_tset c k) id (Nat.le_refl _)

theorem State.setLe_keeps {s0 s f e} (h : Keeps s0 s) : Keeps s0 (State.setLe s f e) :=
  h.upd rfl rfl rfl rfl id id (twf_tset f e) (Nat.le_refl _)

theorem State.fresh_keeps {s0 s} (h : Keeps s0 s) : KP s0 (State.fresh s) :=
  h.upd rfl rfl rfl rfl id id id (Nat.le_succ _)

/-- Taking free values while a core changes. -/
theorem modFree_keeps {s0 s c k n} (h : Keeps s0 s) : Keeps s0 { s.setCore c k with free := s.free + n } :=
  (State.setCore_keeps h).upd rfl rfl rfl rfl id id id (Nat.le_add_right s.free n)

theorem freeUp_keeps {s0 s n} (h : Keeps s0 s) : Keeps s0 { s with free := s.free + n } :=
  h.upd rfl rfl rfl rfl id id id (Nat.le_add_right s.free n)

/-- Dropping cells of memory. -/
theorem memFilter_keeps {s0 s p} (h : Keeps s0 s) : Keeps s0 { s with mem := s.mem.filter p } :=
  h.memUpd rfl rfl rfl rfl rfl (Nat.le_refl _) (memWf_filter p rfl fun _ k => k)

/-- Returning registers to their reset values. -/
theorem regsFilter_keeps {s0 s p} (h : Keeps s0 s) : Keeps s0 { s with regs := s.regs.filter p } :=
  h.upd rfl rfl rfl rfl (twf_filter p) id id (Nat.le_refl _)

end Sys2Proof.Machine
end

