-- ==== Sys2Proof/Laws/KeepOps.lean ====
section
/-! SUPPORT. What the operations of Machine/Ops.lean keep (Laws/Keeps.lean). -/

namespace Sys2Proof.Machine

theorem State.setFld_keeps {s0 a1 a2 a3 a4} (k1 : Keeps s0 a1) : Keeps s0 (State.setFld a1 a2 a3 a4) := by
  unfold State.setFld
  exact (State.setReg_keeps k1)

theorem State.setFlag_keeps {s0 a1 a2 a3 a4} (k1 : Keeps s0 a1) : Keeps s0 (State.setFlag a1 a2 a3 a4) := by
  unfold State.setFlag
  exact (State.setReg_keeps k1)

theorem State.count_keeps {s0 a1 a2 a3} (k1 : Keeps s0 a1) : Keeps s0 (State.count a1 a2 a3) := by
  unfold State.count
  exact (State.setReg_keeps k1)

theorem State.countSat_keeps {s0 a1 a2 a3 a4} (k1 : Keeps s0 a1) : Keeps s0 (State.countSat a1 a2 a3 a4) := by
  unfold State.countSat
  exact (State.setReg_keeps k1)

theorem State.modCore_keeps {s0 a1 a2 a3} (k1 : Keeps s0 a1) : Keeps s0 (State.modCore a1 a2 a3) := by
  unfold State.modCore
  exact (State.setCore_keeps k1)

theorem State.modCtx_keeps {s0 a1 a2 a3 a4} (k1 : Keeps s0 a1) : Keeps s0 (State.modCtx a1 a2 a3 a4) := by
  unfold State.modCtx
  exact (State.modCore_keeps k1)

theorem State.modCur_keeps {s0 a1 a2 a3} (k1 : Keeps s0 a1) : Keeps s0 (State.modCur a1 a2 a3) := by
  unfold State.modCur
  exact (State.modCtx_keeps k1)

theorem State.retire_keeps {s0 a1 a2 a3} (k1 : Keeps s0 a1) : Keeps s0 (State.retire a1 a2 a3) := by
  unfold State.retire
  exact (State.count_keeps (State.modCur_keeps k1))

theorem State.retireG_keeps {s0 a1 a2 a3 a4 a5} (k1 : Keeps s0 a1) : Keeps s0 (State.retireG a1 a2 a3 a4 a5) := by
  unfold State.retireG
  exact (State.retire_keeps (State.modCur_keeps k1))

theorem State.jump_keeps {s0 a1 a2 a3} (k1 : Keeps s0 a1) : Keeps s0 (State.jump a1 a2 a3) := by
  unfold State.jump
  exact (State.count_keeps (State.modCur_keeps k1))

theorem State.ipend_keeps {s0 a1 a2 a3} (k1 : Keeps s0 a1) : Keeps s0 (State.ipend a1 a2 a3) := by
  unfold State.ipend
  exact (State.setReg_keeps k1)

theorem State.modHgx_keeps {s0 a1 a2 a3} (k1 : Keeps s0 a1) : Keeps s0 (State.modHgx a1 a2 a3) := by
  unfold State.modHgx
  exact (by exact Keeps.same k1 rfl rfl rfl rfl rfl rfl rfl rfl)

theorem State.hgEvent_keeps {s0 a1 a2 a3} (k1 : Keeps s0 a1) : Keeps s0 (State.hgEvent a1 a2 a3) := by
  unfold State.hgEvent
  exact (ite_keeps k1 (State.modHgx_keeps (State.setFlag_keeps k1)))

theorem State.hgEvents_keeps {s0 a1 a2} (k1 : Keeps s0 a1) : Keeps s0 (State.hgEvents a1 a2) := by
  unfold State.hgEvents
  exact (State.hgEvent_keeps (State.hgEvent_keeps k1))

theorem coreHalt_keeps {s0 a1 a2} (k2 : Keeps s0 a2) : Keeps s0 (coreHalt a1 a2) := by
  unfold coreHalt
  extract_lets -merge +onlyGivenNames h1
  try clear_value h1
  extract_lets -merge +onlyGivenNames s2
  have h2 : Keeps s0 s2 := (State.hgEvent_keeps k2)
  clear_value s2
  exact (State.setFld_keeps (State.countSat_keeps h2))

theorem switchIn_keeps {s0 a1 a2 a3} (k3 : Keeps s0 a3) : Keeps s0 (switchIn a1 a2 a3) := by
  unfold switchIn
  exact (State.modCore_keeps k3)

theorem haltCtx_keeps {s0 a1 a2 a3} (k3 : Keeps s0 a3) : Keeps s0 (haltCtx a1 a2 a3) := by
  unfold haltCtx
  extract_lets -merge +onlyGivenNames s1
  have h1 : Keeps s0 s1 := (coreHalt_keeps (State.modCtx_keeps k3))
  clear_value s1
  exact (ite_keeps (by
      split
      · exact (switchIn_keeps h1)
      · exact h1) h1)

theorem enterExc_keeps {s0 a1 a2 a3 a4 a5 a6} (k6 : Keeps s0 a6) : Keeps s0 (enterExc a1 a2 a3 a4 a5 a6) := by
  unfold enterExc
  extract_lets -merge +onlyGivenNames x1
  try clear_value x1
  exact (ite_keeps (haltCtx_keeps k6) (by
      extract_lets -merge +onlyGivenNames st2
      try clear_value st2
      extract_lets -merge +onlyGivenNames st3
      try clear_value st3
      extract_lets -merge +onlyGivenNames st4
      try clear_value st4
      extract_lets -merge +onlyGivenNames st5
      try clear_value st5
      extract_lets -merge +onlyGivenNames st6
      try clear_value st6
      extract_lets -merge +onlyGivenNames st7
      try clear_value st7
      exact (State.modCtx_keeps k6)))

theorem trap_keeps {s0 a1 a2 a3 a4} (k4 : Keeps s0 a4) : Keeps s0 (trap a1 a2 a3 a4) := by
  unfold trap
  exact (enterExc_keeps k4)

theorem leaveExc_keeps {s0 a1 a2} (k2 : Keeps s0 a2) : Keeps s0 (leaveExc a1 a2) := by
  unfold leaveExc
  extract_lets -merge +onlyGivenNames st1
  try clear_value st1
  extract_lets -merge +onlyGivenNames st2
  try clear_value st2
  extract_lets -merge +onlyGivenNames st3
  try clear_value st3
  extract_lets -merge +onlyGivenNames st4
  try clear_value st4
  exact (State.count_keeps (State.modCur_keeps k2))

theorem errRaise_keeps {s0 a1} (k1 : Keeps s0 a1) : Keeps s0 (errRaise a1) := by
  unfold errRaise
  extract_lets -merge +onlyGivenNames s1
  have h1 : Keeps s0 s1 := (ite_keeps (State.ipend_keeps k1) k1)
  clear_value s1
  exact (State.hgEvents_keeps h1)

theorem logErr_keeps {s0 a1 a2 a3 a4 a5 a6 a7 a8 a9} (k9 : Keeps s0 a9) : Keeps s0 (logErr a1 a2 a3 a4 a5 a6 a7 a8 a9) := by
  unfold logErr
  extract_lets -merge +onlyGivenNames head1
  try clear_value head1
  extract_lets -merge +onlyGivenNames cal2
  try clear_value cal2
  extract_lets -merge +onlyGivenNames s3
  have h3 : Keeps s0 s3 := (ite_keeps (State.count_keeps k9) (State.count_keeps k9))
  clear_value s3
  extract_lets -merge +onlyGivenNames fat4
  try clear_value fat4
  extract_lets -merge +onlyGivenNames s5
  have h5 : Keeps s0 s5 := (ite_keeps (State.setFlag_keeps h3) h3)
  clear_value s5
  extract_lets -merge +onlyGivenNames th6
  try clear_value th6
  split
  · rename_i y14 y15 e16
    have h14 : Keeps s0 y14 := (KFst.get (of_eq (P := KFst (Keeps s0)) e16 (by
        split
        · extract_lets -merge +onlyGivenNames w7
          try clear_value w7
          extract_lets -merge +onlyGivenNames n8
          try clear_value n8
          exact (KFst.mk (State.setReg_keeps (State.setReg_keeps h5)))
        · extract_lets -merge +onlyGivenNames e9
          try clear_value e9
          exact (ite_keeps (KFst.mk (State.countSat_keeps h5)) (by
              extract_lets -merge +onlyGivenNames s10
              have h10 : Keeps s0 s10 := (State.setReg_keeps h5)
              clear_value s10
              extract_lets -merge +onlyGivenNames s11
              have h11 : Keeps s0 s11 := (State.setReg_keeps h10)
              clear_value s11
              extract_lets -merge +onlyGivenNames s12
              have h12 : Keeps s0 s12 := (State.setReg_keeps h11)
              clear_value s12
              extract_lets -merge +onlyGivenNames s13
              have h13 : Keeps s0 s13 := (State.setReg_keeps h12)
              clear_value s13
              exact (KFst.mk (State.setFld_keeps h13)))))))
    extract_lets -merge +onlyGivenNames hard17
    try clear_value hard17
    extract_lets -merge +onlyGivenNames s18
    have h18 : Keeps s0 s18 := (ite_keeps (State.setFlag_keeps h14) h14)
    clear_value s18
    exact (ite_keeps (errRaise_keeps h18) h18)

theorem countWay.countCanal_keeps {s0 a1 a2} (k2 : Keeps s0 a2) : Keeps s0 (countWay.countCanal a1 a2) := by
  unfold countWay.countCanal
  split
  · exact (ite_keeps (State.count_keeps k2) k2)
  · exact k2

theorem countWay_keeps {s0 a1 a2} (k2 : Keeps s0 a2) : Keeps s0 (countWay a1 a2) := by
  unfold countWay
  exact (ite_keeps k2 (by
      split
      · exact (ite_keeps (countWay.countCanal_keeps k2) (ite_keeps k2 (State.count_keeps k2)))
      · exact (countWay.countCanal_keeps k2)))

theorem countLines_keeps {s0 a1 a2 a3 a4} (k4 : Keeps s0 a4) : Keeps s0 (countLines a1 a2 a3 a4) := by
  unfold countLines
  exact (each_keeps (P := Keeps s0) (fun _ _ h1 => (countWay_keeps (countWay_keeps h1))) k4)

theorem countFrame_keeps {s0 a1 a2 a3 a4} (k4 : Keeps s0 a4) : Keeps s0 (countFrame a1 a2 a3 a4) := by
  unfold countFrame
  exact (each_keeps (P := Keeps s0) (fun _ _ h1 => (countWay_keeps h1)) k4)

theorem State.send_keeps {s0 a1 a2} (k1 : Keeps s0 a1) : Keeps s0 (State.send a1 a2) := by
  unfold State.send
  extract_lets -merge +onlyGivenNames t1
  have h1 : Keeps s0 t1 := (countWay_keeps k1)
  clear_value t1
  exact (by exact Keeps.same h1 rfl rfl rfl rfl rfl rfl rfl rfl)

theorem countBcast_keeps {s0 a1} (k1 : Keeps s0 a1) : Keeps s0 (countBcast a1) := by
  unfold countBcast
  exact (State.count_keeps (State.count_keeps k1))

theorem State.unsend_keeps {s0 a1 a2} (k1 : Keeps s0 a1) : Keeps s0 (State.unsend a1 a2) := by
  unfold State.unsend
  exact (by exact Keeps.same k1 rfl rfl rfl rfl rfl rfl rfl rfl)

theorem wordFixed_keeps {s0 a1 a2} (k2 : Keeps s0 a2) : Keeps s0 (wordFixed a1 a2) := by
  unfold wordFixed
  exact (logErr_keeps (ite_keeps (State.countSat_keeps k2) k2))

theorem noDest_keeps {s0 a1 a2} (k2 : Keeps s0 a2) : Keeps s0 (noDest a1 a2) := by
  unfold noDest
  extract_lets -merge +onlyGivenNames s1
  have h1 : Keeps s0 s1 := (State.countSat_keeps (State.unsend_keeps k2))
  clear_value s1
  exact (ite_keeps h1 (State.send_keeps h1))

theorem delivered_keeps {s0 a1 a2 a3} (k2 : ∀ z1 z2, Keeps s0 z2 → Keeps s0 (a2 z1 z2)) (k3 : Keeps s0 a3) : Keeps s0 (delivered a1 a2 a3) := by
  unfold delivered
  extract_lets -merge +onlyGivenNames q1
  try clear_value q1
  extract_lets -merge +onlyGivenNames s2
  have h2 : Keeps s0 s2 := (each_keeps (P := Keeps s0) (fun _ _ h3 => (wordFixed_keeps h3)) k3)
  clear_value s2
  split
  · exact (logErr_keeps (State.unsend_keeps (ite_keeps (State.countSat_keeps h2) h2)))
  · exact (ite_keeps (noDest_keeps h2) (k2 _ _ h2))

end Sys2Proof.Machine
end

