-- ==== Sys2Proof/Laws/KeepAddrMap.lean ====
section
/-! SUPPORT. What the operations of Machine/AddrMap.lean keep (Laws/Keeps.lean). -/

namespace Sys2Proof.Machine

theorem State.setAnchor_keeps {s0 a1 a2 a3} (k1 : Keeps s0 a1) : Keeps s0 (State.setAnchor a1 a2 a3) := by
  unfold State.setAnchor
  exact (by exact Keeps.same k1 rfl rfl rfl rfl rfl rfl rfl rfl)

theorem countWalk_keeps {s0 a1 a2 a3} (k3 : Keeps s0 a3) : Keeps s0 (countWalk a1 a2 a3) := by
  unfold countWalk
  extract_lets -merge +onlyGivenNames s1
  have h1 : Keeps s0 s1 := (State.count_keeps k3)
  clear_value s1
  split
  · exact (State.countSat_keeps h1)
  · exact h1

end Sys2Proof.Machine
end

