-- ==== Sys2Proof/Laws/KeepLink.lean ====
section
/-! SUPPORT. What the operations of Machine/Link.lean keep (Laws/Keeps.lean). -/

namespace Sys2Proof.Machine

theorem State.setSub_keeps {s0 a1 a2 a3} (k1 : Keeps s0 a1) : Keeps s0 (State.setSub a1 a2 a3) := by
  unfold State.setSub
  exact (by exact Keeps.same k1 rfl rfl rfl rfl rfl rfl rfl rfl)

theorem pump_keeps {s0 a1 a2} (k2 : Keeps s0 a2) : Keeps s0 (pump a1 a2) := by
  unfold pump
  exact (ite_keeps (State.setSub_keeps k2) k2)

theorem ttSend_keeps {s0 a1 a2 a3} (k3 : Keeps s0 a3) : Keeps s0 (ttSend a1 a2 a3) := by
  unfold ttSend
  extract_lets -merge +onlyGivenNames t1
  try clear_value t1
  exact (pump_keeps (State.setSub_keeps k3))

theorem cwSend_keeps {s0 a1 a2 a3 a4 a5 a6} (k6 : Keeps s0 a6) : Keeps s0 (cwSend a1 a2 a3 a4 a5 a6) := by
  unfold cwSend
  extract_lets -merge +onlyGivenNames k1
  try clear_value k1
  exact (ite_keeps k6 (by
      split
      · exact k6
      · exact (ttSend_keeps (by exact Keeps.same k6 rfl rfl rfl rfl rfl rfl rfl rfl))))

theorem snoop_keeps {s0 a1 a2 a3 a4 a5 a6} (k6 : Keeps s0 a6) : Keeps s0 (snoop a1 a2 a3 a4 a5 a6) := by
  unfold snoop
  extract_lets -merge +onlyGivenNames k1
  try clear_value k1
  exact (ite_keeps k6 (by
      split
      · exact k6
      · extract_lets -merge +onlyGivenNames x2
        try clear_value x2
        extract_lets -merge +onlyGivenNames s3
        have h3 : Keeps s0 s3 := (ttSend_keeps (by exact Keeps.same k6 rfl rfl rfl rfl rfl rfl rfl rfl))
        clear_value s3
        exact (State.count_keeps (State.count_keeps h3))))

theorem ttMsi_keeps {s0 a1 a2 a3 a4} (k4 : Keeps s0 a4) : Keeps s0 (ttMsi a1 a2 a3 a4) := by
  unfold ttMsi
  exact (State.count_keeps (ttSend_keeps k4))

end Sys2Proof.Machine
end

