-- ==== Sys2Proof/Laws/KeepHome.lean ====
section
/-! SUPPORT. What the operations of Machine/Home.lean keep (Laws/Keeps.lean). -/

namespace Sys2Proof.Machine

theorem tagCheck_keeps {s0 a1 a2 a3} (k3 : Keeps s0 a3) : Keeps s0 (tagCheck a1 a2 a3) := by
  unfold tagCheck
  exact (ite_keeps k3 (State.setFld_keeps (State.countSat_keeps k3)))

theorem State.setSlice_keeps {s0 a1 a2 a3} (k1 : Keeps s0 a1) : Keeps s0 (State.setSlice a1 a2 a3) := by
  unfold State.setSlice
  exact (by exact Keeps.same k1 rfl rfl rfl rfl rfl rfl rfl rfl)

theorem keepAttr_keeps {s0 a1 a2 a3} (k3 : Keeps s0 a3) : Keeps s0 (keepAttr a1 a2 a3) := by
  unfold keepAttr
  exact (ite_keeps k3 (by
      extract_lets -merge +onlyGivenNames x1
      try clear_value x1
      split
      · exact (State.setSlice_keeps k3)))

theorem dropFlips_keeps {s0 a1 a2} (k2 : Keeps s0 a2) : Keeps s0 (dropFlips a1 a2) := by
  unfold dropFlips
  exact (by exact Keeps.same k2 rfl rfl rfl rfl rfl rfl rfl rfl)

theorem dropWrite_keeps {s0 a1 a2} (k2 : Keeps s0 a2) : Keeps s0 (dropWrite a1 a2) := by
  unfold dropWrite
  exact (ite_keeps (State.countSat_keeps k2) (State.countSat_keeps k2))

theorem evict_keeps {s0 a1 a2 a3} (k3 : Keeps s0 a3) : Keeps s0 (evict a1 a2 a3) := by
  unfold evict
  extract_lets -merge +onlyGivenNames x1
  try clear_value x1
  extract_lets -merge +onlyGivenNames s2
  have h2 : Keeps s0 s2 := (State.countSat_keeps k3)
  clear_value s2
  extract_lets -merge +onlyGivenNames rest3
  try clear_value rest3
  exact (ite_keeps (by
      extract_lets -merge +onlyGivenNames st4
      try clear_value st4
      extract_lets -merge +onlyGivenNames s5
      have h5 : Keeps s0 s5 := (State.setSlice_keeps h2)
      clear_value s5
      extract_lets -merge +onlyGivenNames s6
      have h6 : Keeps s0 s6 := (dropFlips_keeps h5)
      clear_value s6
      exact (ite_keeps (cwSend_keeps h6) (cwSend_keeps h6))) (by
      extract_lets -merge +onlyGivenNames pa7
      try clear_value pa7
      extract_lets -merge +onlyGivenNames s8
      have h8 : Keeps s0 s8 := (State.setSlice_keeps h2)
      clear_value s8
      extract_lets -merge +onlyGivenNames s9
      have h9 : Keeps s0 s9 := (dropFlips_keeps h8)
      clear_value s9
      exact (ite_keeps (dropWrite_keeps h9) h9)))

theorem makeRoom_keeps {s0 a1 a2 a3} (k3 : Keeps s0 a3) : Keeps s0 (makeRoom a1 a2 a3) := by
  unfold makeRoom
  extract_lets -merge +onlyGivenNames x1
  try clear_value x1
  extract_lets -merge +onlyGivenNames ls2
  try clear_value ls2
  split
  · exact k3
  · split
    · exact (evict_keeps k3)
    · exact k3

theorem fill_keeps {s0 a1 a2 a3 a4 a5 a6} (k6 : Keeps s0 a6) : Keeps s0 (fill a1 a2 a3 a4 a5 a6) := by
  unfold fill
  extract_lets -merge +onlyGivenNames s1
  have h1 : Keeps s0 s1 := (makeRoom_keeps k6)
  clear_value s1
  extract_lets -merge +onlyGivenNames x2
  try clear_value x2
  extract_lets -merge +onlyGivenNames set3
  try clear_value set3
  extract_lets -merge +onlyGivenNames ls4
  try clear_value ls4
  split
  · exact h1
  · split
    · extract_lets -merge +onlyGivenNames c5
      try clear_value c5
      exact (keepAttr_keeps (State.setSlice_keeps h1))

theorem modLine_keeps {s0 a1 a2 a3 a4} (k4 : Keeps s0 a4) : Keeps s0 (modLine a1 a2 a3 a4) := by
  unfold modLine
  extract_lets -merge +onlyGivenNames x1
  try clear_value x1
  exact (State.setSlice_keeps k4)

theorem touchLine_keeps {s0 a1 a2 a3 a4 a5} (k5 : Keeps s0 a5) : Keeps s0 (touchLine a1 a2 a3 a4 a5) := by
  unfold touchLine
  extract_lets -merge +onlyGivenNames x1
  try clear_value x1
  extract_lets -merge +onlyGivenNames s'2
  have h2 : Keeps s0 s'2 := (State.setSlice_keeps k5)
  clear_value s'2
  exact (ite_keeps (by
      split
      · extract_lets -merge +onlyGivenNames c3
        try clear_value c3
        exact (keepAttr_keeps (modLine_keeps h2))) (modLine_keeps h2))

theorem logWord_keeps {s0 a1 a2 a3 a4} (k4 : Keeps s0 a4) : Keeps s0 (logWord a1 a2 a3 a4) := by
  unfold logWord
  split
  · exact (logErr_keeps k4)

theorem logFixed_keeps {s0 a1 a2 a3} (k3 : Keeps s0 a3) : Keeps s0 (logFixed a1 a2 a3) := by
  induction a2 generalizing a1 a3 with
  | zero =>
    rw [logFixed.eq_1]
    exact k3
  | succ n ih =>
    rw [logFixed.eq_2]
    exact (ite_keeps (logWord_keeps (ih k3)) (ih k3))

theorem dropClean_keeps {s0 a1 a2 a3} (k3 : Keeps s0 a3) : Keeps s0 (dropClean a1 a2 a3) := by
  unfold dropClean
  extract_lets -merge +onlyGivenNames x1
  try clear_value x1
  exact (logErr_keeps (dropFlips_keeps (State.setSlice_keeps k3)))

theorem foundBad_keeps {s0 n l s} (h : Keeps s0 s) : Keeps s0 (foundBad n l s) := by
  unfold foundBad
  split
  · exact h
  · refine ite_keeps h (ite_keeps (dropClean_keeps h) (ite_keeps (modLine_keeps h) ?_))
    exact each_keeps (P := Keeps s0) (fun _ _ k => State.setByte_keeps k) (memFilter_keeps (dropFlips_keeps (State.setSlice_keeps (logErr_keeps h))))

theorem armFlip_keeps {s0 a1 a2 a3} (k3 : Keeps s0 a3) : Keeps s0 (armFlip a1 a2 a3) := by
  unfold armFlip
  extract_lets -merge +onlyGivenNames r1
  try clear_value r1
  exact (ite_keeps (by
      extract_lets -merge +onlyGivenNames w2
      try clear_value w2
      extract_lets -merge +onlyGivenNames x3
      have h3 : Keeps s0 x3 := (State.setFlag_keeps k3)
      clear_value x3
      exact (by exact Keeps.same h3 rfl rfl rfl rfl rfl rfl rfl rfl)) k3)

theorem storeCells_keeps {s0 a1 a2 a3} (k3 : Keeps s0 a3) : Keeps s0 (storeCells a1 a2 a3) := by
  unfold storeCells
  extract_lets -merge +onlyGivenNames full1
  try clear_value full1
  extract_lets -merge +onlyGivenNames s2
  have h2 : Keeps s0 s2 := (each_keeps (P := Keeps s0) (fun _ _ h3 => (State.setByte_keeps h3)) k3)
  clear_value s2
  exact (by exact Keeps.same h2 rfl rfl rfl rfl rfl rfl rfl rfl)

theorem gaugeErr_keeps {s0 a1 a2} (k2 : Keeps s0 a2) : Keeps s0 (gaugeErr a1 a2) := by
  unfold gaugeErr
  extract_lets -merge +onlyGivenNames s1
  have h1 : Keeps s0 s1 := by
    unfold s1
    split
    · exact (logWord_keeps k2)
    · exact k2
  clear_value s1
  exact (State.setFld_keeps (State.countSat_keeps h1))

theorem lineIn_keeps {s0 a1 a2 a3} (k3 : Keeps s0 a3) : Keeps s0 (lineIn a1 a2 a3) := by
  unfold lineIn
  extract_lets -merge +onlyGivenNames s1
  have h1 : Keeps s0 s1 := (logFixed_keeps k3)
  clear_value s1
  split
  · exact (State.count_keeps (touchLine_keeps h1))
  · extract_lets -merge +onlyGivenNames s2
    have h2 : Keeps s0 s2 := (State.count_keeps h1)
    clear_value s2
    exact (ite_keeps h2 (fill_keeps h2))

theorem chipLine_keeps {s0 a1 a2} (k2 : Keeps s0 a2) : Keeps s0 (chipLine a1 a2) := by
  unfold chipLine
  extract_lets -merge +onlyGivenNames n1
  try clear_value n1
  exact (lineIn_keeps (foundBad_keeps k2))

theorem ledgerLine_keeps {s0 a1 a2} (k2 : Keeps s0 a2) : Keeps s0 (ledgerLine a1 a2) := by
  unfold ledgerLine
  extract_lets -merge +onlyGivenNames n1
  try clear_value n1
  exact (lineIn_keeps (by
      split
      · exact (ite_keeps (dropClean_keeps k2) k2)
      · exact k2))

theorem gaugeLine_keeps {s0 a1 a2} (k2 : Keeps s0 a2) : Keeps s0 (gaugeLine a1 a2) := by
  unfold gaugeLine
  exact (chipLine_keeps k2)

theorem State.setGw_keeps {s0 a1 a2 a3 a4} (k1 : Keeps s0 a1) : Keeps s0 (State.setGw a1 a2 a3 a4) := by
  unfold State.setGw
  extract_lets -merge +onlyGivenNames n1
  try clear_value n1
  extract_lets -merge +onlyGivenNames line2
  try clear_value line2
  extract_lets -merge +onlyGivenNames cells3
  try clear_value cells3
  exact (storeCells_keeps (modLine_keeps k1))

theorem gaugeArm_keeps {s0 a1 a2} (k2 : Keeps s0 a2) : Keeps s0 (gaugeArm a1 a2) := by
  unfold gaugeArm
  exact (armFlip_keeps k2)

theorem mergeEntry_keeps {s0 a1 a2 a3 a4} (k4 : Keeps s0 a4) : Keeps s0 (mergeEntry a1 a2 a3 a4) := by
  unfold mergeEntry
  extract_lets -merge +onlyGivenNames s1
  have h1 : Keeps s0 s1 := (gaugeLine_keeps k4)
  clear_value s1
  exact (ite_keeps (gaugeErr_keeps h1) (by
      extract_lets -merge +onlyGivenNames up2
      try clear_value up2
      extract_lets -merge +onlyGivenNames on3
      try clear_value on3
      extract_lets -merge +onlyGivenNames s4
      have h4 : Keeps s0 s4 := (ite_keeps (State.setGw_keeps h1) h1)
      clear_value s4
      extract_lets -merge +onlyGivenNames s5
      have h5 : Keeps s0 s5 := (ite_keeps (State.setGw_keeps h4) h4)
      clear_value s5
      exact (ite_keeps (gaugeArm_keeps h5) h5)))

theorem mergeFrom_keeps {s0 a1 a2 a3 a4 a5 a6} (k6 : Keeps s0 a6) : Keeps s0 (mergeFrom a1 a2 a3 a4 a5 a6) := by
  unfold mergeFrom
  extract_lets -merge +onlyGivenNames h1
  try clear_value h1
  exact (ite_keeps (mergeEntry_keeps k6) (State.send_keeps k6))

theorem sendSpent_keeps {s0 a1 a2 a3} (k3 : Keeps s0 a3) : Keeps s0 (sendSpent a1 a2 a3) := by
  unfold sendSpent
  extract_lets -merge +onlyGivenNames h1
  try clear_value h1
  exact (upto_keeps (P := Keeps s0) (fun _ _ h2 => (State.send_keeps h2)) k3)

theorem consume_keeps {s0 a1 a2 a3} (k3 : Keeps s0 a3) : Keeps s0 (consume a1 a2 a3) := by
  unfold consume
  exact (ite_keeps k3 (by
      extract_lets -merge +onlyGivenNames s1
      have h1 : Keeps s0 s1 := (gaugeLine_keeps k3)
      clear_value s1
      exact (ite_keeps (gaugeErr_keeps h1) (by
          extract_lets -merge +onlyGivenNames u2
          try clear_value u2
          exact (ite_keeps h1 (by
              extract_lets -merge +onlyGivenNames s3
              have h3 : Keeps s0 s3 := (gaugeArm_keeps (State.setGw_keeps h1))
              clear_value s3
              exact (ite_keeps (sendSpent_keeps h3) h3)))))))

theorem nextLine_keeps {s0 a1 a2 a3 a4} (k4 : Keeps s0 a4) : Keeps s0 (nextLine a1 a2 a3 a4) := by
  unfold nextLine
  exact (ite_keeps k4 (by
      extract_lets -merge +onlyGivenNames other1
      try clear_value other1
      split
      · exact (State.countSat_keeps k4)
      · exact (State.send_keeps (State.count_keeps k4))))

theorem homeRead_keeps {s0 a1 a2 a3 a4 a5 a6 a7} (k7 : Keeps s0 a7) : KSnd (KP s0) (homeRead a1 a2 a3 a4 a5 a6 a7) := by
  unfold homeRead
  extract_lets -merge +onlyGivenNames pa1
  try clear_value pa1
  extract_lets -merge +onlyGivenNames s2
  have h2 : Keeps s0 s2 := (tagCheck_keeps k7)
  clear_value s2
  extract_lets -merge +onlyGivenNames tag3
  try clear_value tag3
  extract_lets -merge +onlyGivenNames s4
  have h4 : Keeps s0 s4 := (ite_keeps (consume_keeps h2) h2)
  clear_value s4
  exact (ite_keeps (by
      extract_lets -merge +onlyGivenNames lc5
      try clear_value lc5
      extract_lets -merge +onlyGivenNames s6
      have h6 : Keeps s0 s6 := (State.count_keeps h4)
      clear_value s6
      extract_lets -merge +onlyGivenNames b7
      try clear_value b7
      extract_lets -merge +onlyGivenNames s8
      have h8 : Keeps s0 s8 := (ite_keeps (logWord_keeps h6) h6)
      clear_value s8
      extract_lets -merge +onlyGivenNames d9
      try clear_value d9
      exact (ite_keeps (by
          extract_lets -merge +onlyGivenNames m10
          try clear_value m10
          extract_lets -merge +onlyGivenNames w11
          try clear_value w11
          extract_lets -merge +onlyGivenNames s12
          have h12 : Keeps s0 s12 := (State.setFlag_keeps h8)
          clear_value s12
          exact (ite_keeps (KSnd.mk (KP.mk (logErr_keeps h12))) (by
              extract_lets -merge +onlyGivenNames s13
              have h13 : Keeps s0 s13 := (ite_keeps (logErr_keeps h12) h12)
              clear_value s13
              exact (KSnd.mk (KP.mk h13))))) (KSnd.mk (KP.mk h8)))) (ite_keeps (by
      split
      · extract_lets -merge +onlyGivenNames n14
        try clear_value n14
        exact (KSnd.mk (KP.mk (touchLine_keeps (by exact Keeps.same h4 rfl rfl rfl rfl rfl rfl rfl rfl))))
      · exact (KSnd.mk (KP.mk (by exact Keeps.same h4 rfl rfl rfl rfl rfl rfl rfl rfl)))) (by
      extract_lets -merge +onlyGivenNames n15
      try clear_value n15
      extract_lets -merge +onlyGivenNames s16
      have h16 : Keeps s0 s16 := (foundBad_keeps h4)
      clear_value s16
      extract_lets -merge +onlyGivenNames b17
      try clear_value b17
      extract_lets -merge +onlyGivenNames s18
      have h18 : Keeps s0 s18 := (logFixed_keeps h16)
      clear_value s18
      extract_lets -merge +onlyGivenNames s19
      have h19 : Keeps s0 s19 := (ite_keeps (logWord_keeps h18) h18)
      clear_value s19
      extract_lets -merge +onlyGivenNames d20
      try clear_value d20
      split
      · exact (KSnd.mk (KP.mk (State.count_keeps (touchLine_keeps h19))))
      · extract_lets -merge +onlyGivenNames s21
        have h21 : Keeps s0 s21 := (State.count_keeps h19)
        clear_value s21
        extract_lets -merge +onlyGivenNames s22
        have h22 : Keeps s0 s22 := (ite_keeps (nextLine_keeps h21) h21)
        clear_value s22
        exact (KSnd.mk (KP.mk (ite_keeps (fill_keeps h22) h22))))))

theorem bitAct_keeps {s0 a1 a2 a3} (k3 : Keeps s0 a3) : Keeps s0 (bitAct a1 a2 a3) := by
  unfold bitAct
  extract_lets -merge +onlyGivenNames line1
  try clear_value line1
  extract_lets -merge +onlyGivenNames s2
  have h2 : Keeps s0 s2 := (chipLine_keeps k3)
  clear_value s2
  extract_lets -merge +onlyGivenNames cells3
  try clear_value cells3
  exact (storeCells_keeps (modLine_keeps h2))

theorem touchBit_keeps {s0 a1 a2 a3 a4} (k4 : Keeps s0 a4) : Keeps s0 (touchBit a1 a2 a3 a4) := by
  unfold touchBit
  extract_lets -merge +onlyGivenNames e1
  try clear_value e1
  exact (ite_keeps k4 (ite_keeps (gaugeErr_keeps k4) (by
      extract_lets -merge +onlyGivenNames sc2
      try clear_value sc2
      extract_lets -merge +onlyGivenNames w73
      try clear_value w73
      extract_lets -merge +onlyGivenNames tp4
      try clear_value tp4
      extract_lets -merge +onlyGivenNames oor5
      have h5 : Keeps s0 oor5 := (State.count_keeps k4)
      clear_value oor5
      exact (ite_keeps h5 (by
          extract_lets -merge +onlyGivenNames s6
          have h6 : Keeps s0 s6 := (chipLine_keeps k4)
          clear_value s6
          split
          · exact (logWord_keeps h6)
          · extract_lets -merge +onlyGivenNames oor7
            have h7 : Keeps s0 oor7 := (State.count_keeps h6)
            clear_value oor7
            extract_lets -merge +onlyGivenNames nblk8
            try clear_value nblk8
            extract_lets -merge +onlyGivenNames gbase9
            try clear_value gbase9
            extract_lets -merge +onlyGivenNames va10
            try clear_value va10
            exact (ite_keeps h7 (ite_keeps h7 (by
                extract_lets -merge +onlyGivenNames k11
                try clear_value k11
                extract_lets -merge +onlyGivenNames a12
                try clear_value a12
                extract_lets -merge +onlyGivenNames s13
                have h13 : Keeps s0 s13 := (chipLine_keeps h6)
                clear_value s13
                split
                · exact (logWord_keeps h13)
                · exact (bitAct_keeps h13)))))))))

theorem setT_keeps {s0 a1 a2} (k2 : Keeps s0 a2) : Keeps s0 (setT a1 a2) := by
  unfold setT
  exact (State.setLe_keeps k2)

theorem homeWrite_keeps {s0 a1 a2 a3 a4 a5 a6 a7 a8 a9 a10 a11} (k11 : Keeps s0 a11) : Keeps s0 (homeWrite a1 a2 a3 a4 a5 a6 a7 a8 a9 a10 a11) := by
  unfold homeWrite
  extract_lets -merge +onlyGivenNames pa1
  try clear_value pa1
  extract_lets -merge +onlyGivenNames whole2
  try clear_value whole2
  extract_lets -merge +onlyGivenNames s3
  have h3 : Keeps s0 s3 := (tagCheck_keeps k11)
  clear_value s3
  extract_lets -merge +onlyGivenNames tag4
  try clear_value tag4
  exact (ite_keeps (by
      extract_lets -merge +onlyGivenNames n5
      try clear_value n5
      extract_lets -merge +onlyGivenNames x6
      try clear_value x6
      extract_lets -merge +onlyGivenNames s7
      have h7 : Keeps s0 s7 := (ite_keeps (mergeFrom_keeps h3) h3)
      clear_value s7
      split
      · exact (touchLine_keeps (State.setSlice_keeps h7))
      · exact (cwSend_keeps h7)) (ite_keeps (dropWrite_keeps h3) (by
      extract_lets -merge +onlyGivenNames s8
      have h8 : Keeps s0 s8 := (ite_keeps h3 (touchBit_keeps (setT_keeps h3)))
      clear_value s8
      extract_lets -merge +onlyGivenNames s9
      have h9 : Keeps s0 s9 := (ite_keeps (by exact Keeps.same h8 rfl rfl rfl rfl rfl rfl rfl rfl) h8)
      clear_value s9
      extract_lets -merge +onlyGivenNames s10
      have h10 : Keeps s0 s10 := (ite_keeps (mergeFrom_keeps h9) h9)
      clear_value s10
      exact (ite_keeps (State.count_keeps (storeCells_keeps h10)) (by
          extract_lets -merge +onlyGivenNames n11
          try clear_value n11
          extract_lets -merge +onlyGivenNames s12
          have h12 : Keeps s0 s12 := (State.count_keeps h10)
          clear_value s12
          extract_lets -merge +onlyGivenNames s13
          have h13 : Keeps s0 s13 := (ite_keeps (State.count_keeps (touchLine_keeps h10)) (fill_keeps (ite_keeps h10 (ite_keeps (nextLine_keeps h12) h12))))
          clear_value s13
          extract_lets -merge +onlyGivenNames cells14
          try clear_value cells14
          extract_lets -merge +onlyGivenNames s15
          have h15 : Keeps s0 s15 := (modLine_keeps h13)
          clear_value s15
          extract_lets -merge +onlyGivenNames s16
          have h16 : Keeps s0 s16 := (storeCells_keeps h15)
          clear_value s16
          exact (ite_keeps (armFlip_keeps h16) h16))))))

theorem State.setSnap_keeps {s0 a1 a2 a3} (k1 : Keeps s0 a1) : Keeps s0 (State.setSnap a1 a2 a3) := by
  unfold State.setSnap
  exact (by exact Keeps.same k1 rfl rfl rfl rfl rfl rfl rfl rfl)

theorem sweepNow_keeps {s0 a1 a2} (k2 : Keeps s0 a2) : Keeps s0 (sweepNow a1 a2) := by
  unfold sweepNow
  exact (ite_keeps (by
      extract_lets -merge +onlyGivenNames e1
      try clear_value e1
      extract_lets -merge +onlyGivenNames x2
      try clear_value x2
      extract_lets -merge +onlyGivenNames s3
      have h3 : Keeps s0 s3 := (ite_keeps (State.setLe_keeps k2) k2)
      clear_value s3
      exact (State.setSnap_keeps h3)) k2)

theorem wantCopy_keeps {s0 a1 a2} (k2 : Keeps s0 a2) : Keeps s0 (wantCopy a1 a2) := by
  unfold wantCopy
  extract_lets -merge +onlyGivenNames s1
  have h1 : Keeps s0 s1 := (sweepNow_keeps k2)
  clear_value s1
  extract_lets -merge +onlyGivenNames p2
  try clear_value p2
  extract_lets -merge +onlyGivenNames x3
  try clear_value x3
  exact (ite_keeps h1 (State.setSnap_keeps h1))

theorem gatePrep_keeps {s0 a1 a2 a3 a4 a5 a6} (k6 : Keeps s0 a6) : Keeps s0 (gatePrep a1 a2 a3 a4 a5 a6) := by
  unfold gatePrep
  extract_lets -merge +onlyGivenNames pa1
  try clear_value pa1
  extract_lets -merge +onlyGivenNames n2
  try clear_value n2
  extract_lets -merge +onlyGivenNames x3
  try clear_value x3
  extract_lets -merge +onlyGivenNames m4
  try clear_value m4
  exact (ite_keeps (ite_keeps (ite_keeps (by
      extract_lets -merge +onlyGivenNames st5
      try clear_value st5
      exact (cwSend_keeps k6)) (ite_keeps k6 (cwSend_keeps k6))) k6) (by
      extract_lets -merge +onlyGivenNames f6
      try clear_value f6
      extract_lets -merge +onlyGivenNames s7
      have h7 : Keeps s0 s7 := (ite_keeps (wantCopy_keeps k6) k6)
      clear_value s7
      split
      · exact (ite_keeps (snoop_keeps h7) (ite_keeps (snoop_keeps h7) h7))
      · exact h7))

theorem prepAll_keeps {s0 a1 a2 a3 a4 a5} (k5 : Keeps s0 a5) : Keeps s0 (prepAll a1 a2 a3 a4 a5) := by
  induction a4 generalizing a1 a2 a3 a5 with
  | zero =>
    rw [prepAll.eq_1]
    exact k5
  | succ n ih =>
    rw [prepAll.eq_2]
    exact (ite_keeps (ih k5) (gatePrep_keeps (ih k5)))

theorem readLines_keeps {s0 a1 a2 a3 a4 a5 a6 a7 a8} (k8 : Keeps s0 a8) : Keeps s0 (readLines a1 a2 a3 a4 a5 a6 a7 a8) := by
  induction a7 generalizing a1 a2 a3 a4 a5 a6 a8 with
  | zero =>
    rw [readLines.eq_1]
    exact k8
  | succ n ih =>
    rw [readLines.eq_2]
    exact (KP.snd (KSnd.snd (homeRead_keeps (ih k8))))

theorem engRead_keeps {s0 a1 a2 a3 a4 a5 a6 a7 a8} (k8 : Keeps s0 a8) : KSnd (KP s0) (engRead a1 a2 a3 a4 a5 a6 a7 a8) := by
  unfold engRead
  exact (ite_keeps (by
      extract_lets -merge +onlyGivenNames l1
      try clear_value l1
      split
      · exact (KSnd.mk (KP.mk (readLines_keeps k8)))
      · extract_lets -merge +onlyGivenNames v2
        try clear_value v2
        exact (KSnd.mk (KP.mk (readLines_keeps k8)))) (KSnd.mk (KP.mk (readLines_keeps k8))))

theorem engWriteN_keeps {s0 a1 a2 a3 a4 a5 a6 a7 a8 a9 a10 a11} (k11 : Keeps s0 a11) : Keeps s0 (engWriteN a1 a2 a3 a4 a5 a6 a7 a8 a9 a10 a11) := by
  induction a8 generalizing a1 a2 a3 a4 a5 a6 a7 a9 a10 a11 with
  | zero =>
    rw [engWriteN.eq_1]
    exact k11
  | succ n ih =>
    rw [engWriteN.eq_2]
    exact (ite_keeps k11 (by
        extract_lets -merge +onlyGivenNames h1
        try clear_value h1
        exact (ih (homeWrite_keeps k11))))

theorem engWrite_keeps {s0 a1 a2 a3 a4 a5 a6 a7 a8 a9 a10} (k10 : Keeps s0 a10) : Keeps s0 (engWrite a1 a2 a3 a4 a5 a6 a7 a8 a9 a10) := by
  unfold engWrite
  exact (engWriteN_keeps k10)

end Sys2Proof.Machine
end

