-- ==== Sys2Proof/Laws/KeepCoreMem.lean ====
section
/-! SUPPORT. What the operations of Machine/CoreMem.lean keep (Laws/Keeps.lean). -/

namespace Sys2Proof.Machine

theorem walkLines_keeps {s0 a1 a2 a3} (k3 : Keeps s0 a3) : Keeps s0 (walkLines a1 a2 a3) := by
  unfold walkLines
  extract_lets -merge +onlyGivenNames b1
  try clear_value b1
  extract_lets -merge +onlyGivenNames h2
  try clear_value h2
  exact (each_keeps (P := Keeps s0) (fun _ _ h3 => (ledgerLine_keeps h3)) k3)

theorem touchTc_keeps {s0 a1 a2 a3 a4} (k4 : Keeps s0 a4) : Keeps s0 (touchTc a1 a2 a3 a4) := by
  unfold touchTc
  exact (ite_keeps k4 (by
      extract_lets -merge +onlyGivenNames vpn1
      try clear_value vpn1
      exact (ite_keeps k4 (by
          extract_lets -merge +onlyGivenNames w2
          try clear_value w2
          extract_lets -merge +onlyGivenNames s3
          have h3 : Keeps s0 s3 := (walkLines_keeps (countWalk_keeps k4))
          clear_value s3
          extract_lets -merge +onlyGivenNames k4
          try clear_value k4
          split
          · extract_lets -merge +onlyGivenNames tc5
            try clear_value tc5
            exact (State.setCore_keeps h3)
          · exact (State.countSat_keeps h3)))))

theorem touchTcN_keeps {s0 a1 a2 a3 a4 a5} (k5 : Keeps s0 a5) : Keeps s0 (touchTcN a1 a2 a3 a4 a5) := by
  unfold touchTcN
  exact (each_keeps (P := Keeps s0) (fun _ _ h1 => (touchTc_keeps h1)) k5)

theorem spadSeen_keeps {s0 a1 a2 a3 a4} (k4 : Keeps s0 a4) : Keeps s0 (spadSeen a1 a2 a3 a4) := by
  unfold spadSeen
  extract_lets -merge +onlyGivenNames ws1
  try clear_value ws1
  extract_lets -merge +onlyGivenNames m2
  try clear_value m2
  extract_lets -merge +onlyGivenNames s'3
  have h3 : Keeps s0 s'3 := (each_keeps (P := Keeps s0) (fun _ _ h4 => (ite_keeps (logErr_keeps h4) h4)) k4)
  clear_value s'3
  split
  · exact (logErr_keeps h3)
  · exact h3

theorem cmArm_keeps {s0 a1 a2 a3 a4} (k4 : Keeps s0 a4) : Keeps s0 (cmArm a1 a2 a3 a4) := by
  unfold cmArm
  extract_lets -merge +onlyGivenNames s1
  have h1 : Keeps s0 s1 := (State.modCore_keeps k4)
  clear_value s1
  extract_lets -merge +onlyGivenNames r2
  try clear_value r2
  exact (ite_keeps (by
      split
      · exact (State.modCore_keeps (State.setFlag_keeps h1))
      · exact h1) h1)

theorem spadPut_keeps {s0 a1 a2 a3 a4} (k4 : Keeps s0 a4) : Keeps s0 (spadPut a1 a2 a3 a4) := by
  induction a3 generalizing a1 a2 a4 with
  | nil =>
    rw [spadPut.eq_1]
    exact k4
  | cons x r ih =>
    rw [spadPut.eq_2]
    exact (ih (State.modCore_keeps k4))

theorem spadWrite_keeps {s0 a1 a2 a3 a4} (k4 : Keeps s0 a4) : Keeps s0 (spadWrite a1 a2 a3 a4) := by
  unfold spadWrite
  exact (cmArm_keeps (spadPut_keeps k4))

theorem l1Fill_keeps {s0 a1 a2 a3 a4 a5 a6} (k6 : Keeps s0 a6) : Keeps s0 (l1Fill a1 a2 a3 a4 a5 a6) := by
  unfold l1Fill
  extract_lets -merge +onlyGivenNames k1
  try clear_value k1
  extract_lets -merge +onlyGivenNames set2
  try clear_value set2
  extract_lets -merge +onlyGivenNames ls3
  try clear_value ls3
  extract_lets -merge +onlyGivenNames kept4
  try clear_value kept4
  extract_lets -merge +onlyGivenNames kept5
  try clear_value kept5
  exact (cmArm_keeps (State.setCore_keeps k6))

theorem l1Drop_keeps {s0 a1 a2 a3} (k3 : Keeps s0 a3) : Keeps s0 (l1Drop a1 a2 a3) := by
  unfold l1Drop
  exact (State.modCore_keeps k3)

theorem l1Touch_keeps {s0 a1 a2 a3} (k3 : Keeps s0 a3) : Keeps s0 (l1Touch a1 a2 a3) := by
  unfold l1Touch
  split
  · exact k3
  · split
    · extract_lets -merge +onlyGivenNames m1
      try clear_value m1
      extract_lets -merge +onlyGivenNames s2
      have h2 : Keeps s0 s2 := (each_keeps (P := Keeps s0) (fun _ _ h3 => (ite_keeps (logErr_keeps h3) h3)) k3)
      clear_value s2
      exact (State.modCore_keeps h2)
    · exact (logErr_keeps (l1Drop_keeps k3))

theorem l1Store_keeps {s0 a1 a2 a3 a4} (k4 : Keeps s0 a4) : Keeps s0 (l1Store a1 a2 a3 a4) := by
  unfold l1Store
  extract_lets -merge +onlyGivenNames s1
  have h1 : Keeps s0 s1 := (State.modCore_keeps k4)
  clear_value s1
  split
  · exact h1
  · extract_lets -merge +onlyGivenNames s2
    have h2 : Keeps s0 s2 := (State.modCore_keeps h1)
    clear_value s2
    exact (cmArm_keeps h2)

theorem acquire_keeps {s0 a1 a2} (k2 : Keeps s0 a2) : Keeps s0 (acquire a1 a2) := by
  unfold acquire
  exact (State.modCore_keeps k2)

theorem trapAcc_keeps {s0 a1 a2 a3 a4 a5} (k5 : Keeps s0 a5) : Keeps s0 (trapAcc a1 a2 a3 a4 a5) := by
  unfold trapAcc
  exact (trap_keeps (touchTcN_keeps k5))

theorem sendReq_keeps {s0 a1 a2 a3} (k3 : Keeps s0 a3) : Keeps s0 (sendReq a1 a2 a3) := by
  unfold sendReq
  extract_lets -merge +onlyGivenNames k1
  try clear_value k1
  exact (ite_keeps (by
      extract_lets -merge +onlyGivenNames u2
      try clear_value u2
      exact (ite_keeps (State.send_keeps (State.setCore_keeps k3)) (State.setCore_keeps k3))) (State.send_keeps k3))

theorem postWrite_keeps {s0 a1 a2 a3 a4 a5 a6 a7 a8 a9} (k9 : Keeps s0 a9) : KOpt (Keeps s0) (postWrite a1 a2 a3 a4 a5 a6 a7 a8 a9) := by
  unfold postWrite
  split
  · exact KOpt.non
  · extract_lets -merge +onlyGivenNames s1
    have h1 : Keeps s0 s1 := (ite_keeps k9 (l1Store_keeps k9))
    clear_value s1
    extract_lets -merge +onlyGivenNames s2
    have h2 : Keeps s0 s2 := (State.modCore_keeps h1)
    clear_value s2
    exact (KOpt.mk (sendReq_keeps h2))

theorem pfStep_keeps {s0 a1 a2 a3 a4} (k4 : Keeps s0 a4) : KP s0 (pfStep a1 a2 a3 a4) := by
  unfold pfStep
  extract_lets -merge +onlyGivenNames k1
  try clear_value k1
  split
  · extract_lets -merge +onlyGivenNames d2
    try clear_value d2
    extract_lets -merge +onlyGivenNames run'3
    try clear_value run'3
    extract_lets -merge +onlyGivenNames s4
    have h4 : Keeps s0 s4 := (State.setCore_keeps k4)
    clear_value s4
    extract_lets -merge +onlyGivenNames dist5
    try clear_value dist5
    exact (ite_keeps (KP.mk h4) (KP.mk h4))

theorem sendPf_keeps {s0 a1 a2 a3} (k3 : Keeps s0 a3) : Keeps s0 (sendPf a1 a2 a3) := by
  unfold sendPf
  exact (ite_keeps (State.modCore_keeps k3) (State.send_keeps k3))

theorem flushPf_keeps {s0 a1 a2 a3} (k3 : Keeps s0 a3) : Keeps s0 (flushPf a1 a2 a3) := by
  unfold flushPf
  extract_lets -merge +onlyGivenNames k1
  try clear_value k1
  exact (ite_keeps k3 (each_keeps (P := Keeps s0) (fun _ _ h2 => (State.send_keeps h2)) (State.setCore_keeps k3)))

theorem prefetch_keeps {s0 a1 a2 a3 a4 a5} (k5 : Keeps s0 a5) : Keeps s0 (prefetch a1 a2 a3 a4 a5) := by
  unfold prefetch
  extract_lets -merge +onlyGivenNames p1
  try clear_value p1
  extract_lets -merge +onlyGivenNames va2
  try clear_value va2
  extract_lets -merge +onlyGivenNames drop3
  have h3 : ∀ z1, Keeps s0 (drop3 z1) := (fun _ => (State.countSat_keeps k5))
  clear_value drop3
  exact (ite_keeps (h3 _) (by
      extract_lets -merge +onlyGivenNames s04
      have h4 : Keeps s0 s04 := (touchTc_keeps k5)
      clear_value s04
      split
      · extract_lets -merge +onlyGivenNames e5
        try clear_value e5
        exact (ite_keeps (State.countSat_keeps h4) (ite_keeps (State.countSat_keeps h4) (by
            extract_lets -merge +onlyGivenNames line6
            try clear_value line6
            extract_lets -merge +onlyGivenNames x7
            try clear_value x7
            extract_lets -merge +onlyGivenNames q8
            try clear_value q8
            exact (ite_keeps (sendPf_keeps h4) (ite_keeps h4 (sendPf_keeps (State.modCore_keeps h4)))))))
      · exact (State.countSat_keeps h4)))

theorem sendReads_keeps {s0 c i tag fmt ls outs got s} (h : Keeps s0 s) : KOpt (KSnd (KP s0)) (sendReads c i tag fmt ls outs got s) := by
  induction ls generalizing outs got s with
  | nil => exact KOpt.mk (KSnd.mk (KP.mk h))
  | cons x r ih =>
    obtain ⟨vl, line⟩ := x
    unfold sendReads
    extract_lets -merge +onlyGivenNames s1
    have h1 : Keeps s0 s1 := l1Touch_keeps h
    clear_value s1
    split
    · exact ih h1
    · split
      · exact KOpt.non
      · exact ih (each_keeps (P := Keeps s0) (fun _ _ k => prefetch_keeps k) (KP.snd (pfStep_keeps (sendReq_keeps h1))))

theorem corePrepAt_keeps {s0 a1 a2 a3 a4 a5 a6 a7 a8} (k8 : Keeps s0 a8) : Keeps s0 (corePrepAt a1 a2 a3 a4 a5 a6 a7 a8) := by
  unfold corePrepAt
  exact (each_keeps (P := Keeps s0) (fun _ _ h1 => (by
      split
      · exact (ite_keeps h1 (gatePrep_keeps h1))
      · exact h1)) k8)

theorem corePrep_keeps {s0 a1 a2 a3 a4 a5 a6 a7} (k7 : Keeps s0 a7) : Keeps s0 (corePrep a1 a2 a3 a4 a5 a6 a7) := by
  unfold corePrep
  exact (corePrepAt_keeps k7)

theorem coreReadL_keeps {s0 a1 a2 a3 a4 a5 a6 a7 a8} (k8 : Keeps s0 a8) : KSnd (KP s0) (coreReadL a1 a2 a3 a4 a5 a6 a7 a8) := by
  induction a7 generalizing a1 a2 a3 a4 a5 a6 a8 with
  | nil =>
    rw [coreReadL.eq_1]
    exact (KSnd.mk (KP.mk k8))
  | cons x r ih =>
    rw [coreReadL.eq_2]
    split
    · extract_lets -merge +onlyGivenNames bs1
      try clear_value bs1
      extract_lets -merge +onlyGivenNames bad2
      try clear_value bad2
      split
      · rename_i y3 y4 y5 e6
        have h5 : Keeps s0 y5 := (KP.get (KSnd.get (of_eq (P := KSnd (KP s0)) e6 (ih (spadSeen_keeps k8)))))
        exact (KSnd.mk (KP.mk h5))
    · extract_lets -merge +onlyGivenNames line7
      try clear_value line7
      extract_lets -merge +onlyGivenNames s8
      have h8 : Keeps s0 s8 := (ite_keeps (l1Touch_keeps k8) k8)
      clear_value s8
      split
      · extract_lets -merge +onlyGivenNames bs9
        try clear_value bs9
        split
        · rename_i y10 y11 y12 e13
          have h12 : Keeps s0 y12 := (KP.get (KSnd.get (of_eq (P := KSnd (KP s0)) e13 (ih h8))))
          exact (KSnd.mk (KP.mk h12))
      · split
        · rename_i y14 y15 y16 e17
          have h16 : Keeps s0 y16 := (KP.get (KSnd.get (of_eq (P := KSnd (KP s0)) e17 (homeRead_keeps h8))))
          extract_lets -merge +onlyGivenNames s18
          have h18 : Keeps s0 s18 := (ite_keeps (l1Fill_keeps h16) h16)
          clear_value s18
          extract_lets -merge +onlyGivenNames s19
          have h19 : Keeps s0 s19 := (ite_keeps (by
              split
              · rename_i y20 y21 e22
                have h21 : Keeps s0 y21 := (KP.get (of_eq (P := KP s0) e22 (pfStep_keeps h18)))
                exact (each_keeps (P := Keeps s0) (fun _ _ h23 => (prefetch_keeps h23)) h21)) h18)
          clear_value s19
          extract_lets -merge +onlyGivenNames bs24
          try clear_value bs24
          extract_lets -merge +onlyGivenNames bad25
          try clear_value bad25
          split
          · rename_i y26 y27 y28 e29
            have h28 : Keeps s0 y28 := (KP.get (KSnd.get (of_eq (P := KSnd (KP s0)) e29 (ih h19))))
            exact (KSnd.mk (KP.mk h28))
    · exact (KSnd.mk (KP.mk k8))

theorem coreRead_keeps {s0 a1 a2 a3 a4 a5 a6} (k6 : Keeps s0 a6) : KSnd (KP s0) (coreRead a1 a2 a3 a4 a5 a6) := by
  unfold coreRead
  exact (coreReadL_keeps (touchTcN_keeps k6))

theorem coreWriteL_keeps {s0 a1 a2 a3 a4 a5 a6 a7 a8 a9 a10} (k10 : Keeps s0 a10) : Keeps s0 (coreWriteL a1 a2 a3 a4 a5 a6 a7 a8 a9 a10) := by
  induction a9 generalizing a1 a2 a3 a4 a5 a6 a7 a8 a10 with
  | nil =>
    rw [coreWriteL.eq_1]
    exact k10
  | cons x r ih =>
    rw [coreWriteL.eq_2]
    exact (ih (by
        split
        · exact (spadWrite_keeps k10)
        · extract_lets -merge +onlyGivenNames cs1
          try clear_value cs1
          exact (homeWrite_keeps (ite_keeps (l1Store_keeps k10) k10))
        · exact k10))

theorem coreWrite_keeps {s0 a1 a2 a3 a4 a5 a6 a7 a8 a9} (k9 : Keeps s0 a9) : Keeps s0 (coreWrite a1 a2 a3 a4 a5 a6 a7 a8 a9) := by
  unfold coreWrite
  exact (coreWriteL_keeps (touchTcN_keeps k9))

theorem engError_keeps {s0 a1 a2 a3 a4 a5 a6 a7 a8} (k8 : Keeps s0 a8) : Keeps s0 (engError a1 a2 a3 a4 a5 a6 a7 a8) := by
  unfold engError
  exact (ite_keeps k8 (by
      extract_lets -merge +onlyGivenNames v1
      try clear_value v1
      exact (State.modCore_keeps (State.setReg_keeps k8))))

end Sys2Proof.Machine
end

