-- ==== Sys2Proof/Laws/KeepIssue.lean ====
section
/-! SUPPORT. What the operations of Machine/Issue.lean keep (Laws/Keeps.lean). -/

namespace Sys2Proof.Machine

theorem wakeWaiting_keeps {s0 a1 a2 a3} (k3 : Keeps s0 a3) : Keeps s0 (wakeWaiting a1 a2 a3) := by
  unfold wakeWaiting
  exact (State.modCtx_keeps k3)

theorem modeApply_keeps {s0 a1 a2 a3} (k3 : Keeps s0 a3) : Keeps s0 (modeApply a1 a2 a3) := by
  unfold modeApply
  extract_lets -merge +onlyGivenNames new1
  try clear_value new1
  extract_lets -merge +onlyGivenNames enter2
  try clear_value enter2
  exact (ite_keeps k3 (by
      extract_lets -merge +onlyGivenNames s3
      have h3 : Keeps s0 s3 := (State.setReg_keeps k3)
      clear_value s3
      exact (ite_keeps (by
          extract_lets -merge +onlyGivenNames s4
          have h4 : Keeps s0 s4 := (wakeWaiting_keeps (wakeWaiting_keeps (wakeWaiting_keeps (wakeWaiting_keeps h3))))
          clear_value s4
          extract_lets -merge +onlyGivenNames f5
          try clear_value f5
          extract_lets -merge +onlyGivenNames r6
          try clear_value r6
          exact (ite_keeps (switchIn_keeps (State.modCtx_keeps h4)) h4)) h3)))

theorem boundary_keeps {s0 a1 a2} (k2 : Keeps s0 a2) : Keeps s0 (boundary a1 a2) := by
  unfold boundary
  split
  · exact (ite_keeps (modeApply_keeps (State.modCore_keeps k2)) k2)
  · exact k2

theorem modeWrite_keeps {s0 a1 a2 a3} (k3 : Keeps s0 a3) : Keeps s0 (modeWrite a1 a2 a3) := by
  unfold modeWrite
  exact (ite_keeps (State.modCore_keeps k3) (modeApply_keeps k3))

theorem fetchSeen_keeps {s0 a1 a2} (k2 : Keeps s0 a2) : Keeps s0 (fetchSeen a1 a2) := by
  unfold fetchSeen
  split
  · exact (spadSeen_keeps k2)
  · exact k2

theorem fetched_keeps {s0 a1 a2} (k2 : Keeps s0 a2) : Keeps s0 (fetched a1 a2) := by
  unfold fetched
  extract_lets -merge +onlyGivenNames x1
  try clear_value x1
  split
  · extract_lets -merge +onlyGivenNames good2
    try clear_value good2
    exact (State.modCore_keeps (touchTc_keeps k2))
  · exact (spadSeen_keeps k2)
  · exact k2

theorem issue_keeps {s0 a1 a2 a3 a4 a5 a6 a7 a8 a9} (k8 : ∀ z1, Keeps s0 z1 → Keeps s0 (a8 z1)) (k9 : Keeps s0 a9) : Keeps s0 (issue a1 a2 a3 a4 a5 a6 a7 a8 a9) := by
  unfold issue
  extract_lets -merge +onlyGivenNames s1
  have h1 : Keeps s0 s1 := (boundary_keeps k9)
  clear_value s1
  exact (ite_keeps h1 (by
      extract_lets -merge +onlyGivenNames x2
      try clear_value x2
      split
      · exact (trap_keeps (fetchSeen_keeps (touchTc_keeps h1)))
      · extract_lets -merge +onlyGivenNames second3
        try clear_value second3
        extract_lets -merge +onlyGivenNames s4
        have h4 : Keeps s0 s4 := (fetched_keeps h1)
        clear_value s4
        exact (ite_keeps (trap_keeps h4) (ite_keeps (trap_keeps h4) (ite_keeps (trap_keeps h4) (k8 _ h4))))))

theorem issue4_keeps {s0 a1 a2 a3 a4 a5 a6 a7} (k6 : ∀ z1, Keeps s0 z1 → Keeps s0 (a6 z1)) (k7 : Keeps s0 a7) : Keeps s0 (issue4 a1 a2 a3 a4 a5 a6 a7) := by
  unfold issue4
  exact (issue_keeps k6 k7)

theorem simple_keeps {s0 a1 a2 a3 a4 a5 a6} (k6 : Keeps s0 a6) : Keeps s0 (simple a1 a2 a3 a4 a5 a6) := by
  unfold simple
  exact (issue4_keeps (fun _ h1 => (State.retireG_keeps h1)) k6)

theorem owned_keeps {s0 a1 a2 a3 a4} (k3 : ∀ z1, Keeps s0 z1 → Keeps s0 (a3 z1)) (k4 : Keeps s0 a4) : Keeps s0 (owned a1 a2 a3 a4) := by
  unfold owned
  extract_lets -merge +onlyGivenNames k1
  try clear_value k1
  exact (ite_keeps (State.setCore_keeps k4) (k3 _ k4))

theorem engTrap_keeps {s0 a1 a2} (k2 : Keeps s0 a2) : Keeps s0 (engTrap a1 a2) := by
  unfold engTrap
  exact (trap_keeps (State.modCore_keeps k2))

theorem engGuard_keeps {s0 a1 a2 a3 a4} (k3 : ∀ z1, Keeps s0 z1 → Keeps s0 (a3 z1)) (k4 : Keeps s0 a4) : Keeps s0 (engGuard a1 a2 a3 a4) := by
  unfold engGuard
  exact (ite_keeps (engTrap_keeps k4) (k3 _ k4))

end Sys2Proof.Machine
end

