-- ==== Sys2Proof/Laws/State.lean ====
section
/-! SUPPORT. What each update of State leaves in each field: one lemma per field per update, true by computation. -/

namespace Sys2Proof.Machine

@[simp] theorem State.setReg_regs (s : State) (a : Nat) (v : Word) : (s.setReg a v).regs = tset a v s.regs := rfl
@[simp] theorem State.setReg_pending (s : State) (a : Nat) (v : Word) : (s.setReg a v).pending = s.pending := rfl
@[simp] theorem State.setReg_rsp (s : State) (a : Nat) (v : Word) : (s.setReg a v).rsp = s.rsp := rfl
@[simp] theorem State.setReg_free (s : State) (a : Nat) (v : Word) : (s.setReg a v).free = s.free := rfl
@[simp] theorem State.setReg_net (s : State) (a : Nat) (v : Word) : (s.setReg a v).net = s.net := rfl
@[simp] theorem State.setReg_cores (s : State) (a : Nat) (v : Word) : (s.setReg a v).cores = s.cores := rfl
@[simp] theorem State.setReg_coreTick (s : State) (a : Nat) (v : Word) : (s.setReg a v).coreTick = s.coreTick := rfl
@[simp] theorem State.setReg_mem (s : State) (a : Nat) (v : Word) : (s.setReg a v).mem = s.mem := rfl
@[simp] theorem State.setReg_memEpoch (s : State) (a : Nat) (v : Word) : (s.setReg a v).memEpoch = s.memEpoch := rfl
@[simp] theorem State.setReg_badw (s : State) (a : Nat) (v : Word) : (s.setReg a v).badw = s.badw := rfl
@[simp] theorem State.setReg_flips (s : State) (a : Nat) (v : Word) : (s.setReg a v).flips = s.flips := rfl
@[simp] theorem State.setReg_ledger (s : State) (a : Nat) (v : Word) : (s.setReg a v).ledger = s.ledger := rfl
@[simp] theorem State.setReg_anchors (s : State) (a : Nat) (v : Word) : (s.setReg a v).anchors = s.anchors := rfl
@[simp] theorem State.setReg_zeroed (s : State) (a : Nat) (v : Word) : (s.setReg a v).zeroed = s.zeroed := rfl
@[simp] theorem State.setReg_slices (s : State) (a : Nat) (v : Word) : (s.setReg a v).slices = s.slices := rfl
@[simp] theorem State.setReg_lcs (s : State) (a : Nat) (v : Word) : (s.setReg a v).lcs = s.lcs := rfl
@[simp] theorem State.setReg_held (s : State) (a : Nat) (v : Word) : (s.setReg a v).held = s.held := rfl
@[simp] theorem State.setReg_lgops (s : State) (a : Nat) (v : Word) : (s.setReg a v).lgops = s.lgops := rfl
@[simp] theorem State.setReg_lgWait (s : State) (a : Nat) (v : Word) : (s.setReg a v).lgWait = s.lgWait := rfl
@[simp] theorem State.setReg_ecache (s : State) (a : Nat) (v : Word) : (s.setReg a v).ecache = s.ecache := rfl
@[simp] theorem State.setReg_recal (s : State) (a : Nat) (v : Word) : (s.setReg a v).recal = s.recal := rfl
@[simp] theorem State.setReg_tbt (s : State) (a : Nat) (v : Word) : (s.setReg a v).tbt = s.tbt := rfl
@[simp] theorem State.setReg_tbtNext (s : State) (a : Nat) (v : Word) : (s.setReg a v).tbtNext = s.tbtNext := rfl
@[simp] theorem State.setReg_spares (s : State) (a : Nat) (v : Word) : (s.setReg a v).spares = s.spares := rfl
@[simp] theorem State.setReg_waysOff (s : State) (a : Nat) (v : Word) : (s.setReg a v).waysOff = s.waysOff := rfl
@[simp] theorem State.setReg_recalNext (s : State) (a : Nat) (v : Word) : (s.setReg a v).recalNext = s.recalNext := rfl
@[simp] theorem State.setReg_dredge (s : State) (a : Nat) (v : Word) : (s.setReg a v).dredge = s.dredge := rfl
@[simp] theorem State.setReg_corr (s : State) (a : Nat) (v : Word) : (s.setReg a v).corr = s.corr := rfl
@[simp] theorem State.setReg_bg (s : State) (a : Nat) (v : Word) : (s.setReg a v).bg = s.bg := rfl
@[simp] theorem State.setReg_bgLast (s : State) (a : Nat) (v : Word) : (s.setReg a v).bgLast = s.bgLast := rfl
@[simp] theorem State.setReg_bgDefer (s : State) (a : Nat) (v : Word) : (s.setReg a v).bgDefer = s.bgDefer := rfl
@[simp] theorem State.setReg_tt (s : State) (a : Nat) (v : Word) : (s.setReg a v).tt = s.tt := rfl
@[simp] theorem State.setReg_ttIn (s : State) (a : Nat) (v : Word) : (s.setReg a v).ttIn = s.ttIn := rfl
@[simp] theorem State.setReg_snoops (s : State) (a : Nat) (v : Word) : (s.setReg a v).snoops = s.snoops := rfl
@[simp] theorem State.setReg_cwReqs (s : State) (a : Nat) (v : Word) : (s.setReg a v).cwReqs = s.cwReqs := rfl
@[simp] theorem State.setReg_cwBuf (s : State) (a : Nat) (v : Word) : (s.setReg a v).cwBuf = s.cwBuf := rfl
@[simp] theorem State.setReg_snaps (s : State) (a : Nat) (v : Word) : (s.setReg a v).snaps = s.snaps := rfl
@[simp] theorem State.setReg_kwaits (s : State) (a : Nat) (v : Word) : (s.setReg a v).kwaits = s.kwaits := rfl
@[simp] theorem State.setReg_harrs (s : State) (a : Nat) (v : Word) : (s.setReg a v).harrs = s.harrs := rfl
@[simp] theorem State.setReg_hheld (s : State) (a : Nat) (v : Word) : (s.setReg a v).hheld = s.hheld := rfl
@[simp] theorem State.setReg_hwaits (s : State) (a : Nat) (v : Word) : (s.setReg a v).hwaits = s.hwaits := rfl
@[simp] theorem State.setReg_xsent (s : State) (a : Nat) (v : Word) : (s.setReg a v).xsent = s.xsent := rfl
@[simp] theorem State.setReg_chans (s : State) (a : Nat) (v : Word) : (s.setReg a v).chans = s.chans := rfl
@[simp] theorem State.setReg_slus (s : State) (a : Nat) (v : Word) : (s.setReg a v).slus = s.slus := rfl
@[simp] theorem State.setReg_capRec (s : State) (a : Nat) (v : Word) : (s.setReg a v).capRec = s.capRec := rfl
@[simp] theorem State.setReg_capGone (s : State) (a : Nat) (v : Word) : (s.setReg a v).capGone = s.capGone := rfl
@[simp] theorem State.setReg_ports (s : State) (a : Nat) (v : Word) : (s.setReg a v).ports = s.ports := rfl
@[simp] theorem State.setReg_grps (s : State) (a : Nat) (v : Word) : (s.setReg a v).grps = s.grps := rfl
@[simp] theorem State.setReg_spwTo (s : State) (a : Nat) (v : Word) : (s.setReg a v).spwTo = s.spwTo := rfl
@[simp] theorem State.setReg_ddPend (s : State) (a : Nat) (v : Word) : (s.setReg a v).ddPend = s.ddPend := rfl
@[simp] theorem State.setReg_ciph (s : State) (a : Nat) (v : Word) : (s.setReg a v).ciph = s.ciph := rfl
@[simp] theorem State.setReg_cleat (s : State) (a : Nat) (v : Word) : (s.setReg a v).cleat = s.cleat := rfl
@[simp] theorem State.setReg_flash (s : State) (a : Nat) (v : Word) : (s.setReg a v).flash = s.flash := rfl
@[simp] theorem State.setReg_hgs (s : State) (a : Nat) (v : Word) : (s.setReg a v).hgs = s.hgs := rfl
@[simp] theorem State.setReg_fwrx (s : State) (a : Nat) (v : Word) : (s.setReg a v).fwrx = s.fwrx := rfl
@[simp] theorem State.setReg_swapOut (s : State) (a : Nat) (v : Word) : (s.setReg a v).swapOut = s.swapOut := rfl
@[simp] theorem State.setReg_slUpd (s : State) (a : Nat) (v : Word) : (s.setReg a v).slUpd = s.slUpd := rfl
@[simp] theorem State.setReg_thrs (s : State) (a : Nat) (v : Word) : (s.setReg a v).thrs = s.thrs := rfl
@[simp] theorem State.setReg_board (s : State) (a : Nat) (v : Word) : (s.setReg a v).board = s.board := rfl
@[simp] theorem State.setReg_boot (s : State) (a : Nat) (v : Word) : (s.setReg a v).boot = s.boot := rfl
@[simp] theorem State.setReg_bootWarm (s : State) (a : Nat) (v : Word) : (s.setReg a v).bootWarm = s.bootWarm := rfl
@[simp] theorem State.setReg_bootStart (s : State) (a : Nat) (v : Word) : (s.setReg a v).bootStart = s.bootStart := rfl
@[simp] theorem State.resetReg_regs (s : State) (a : Nat) : (s.resetReg a).regs = tdel a s.regs := rfl
@[simp] theorem State.resetReg_pending (s : State) (a : Nat) : (s.resetReg a).pending = s.pending := rfl
@[simp] theorem State.resetReg_rsp (s : State) (a : Nat) : (s.resetReg a).rsp = s.rsp := rfl
@[simp] theorem State.resetReg_free (s : State) (a : Nat) : (s.resetReg a).free = s.free := rfl
@[simp] theorem State.resetReg_net (s : State) (a : Nat) : (s.resetReg a).net = s.net := rfl
@[simp] theorem State.resetReg_cores (s : State) (a : Nat) : (s.resetReg a).cores = s.cores := rfl
@[simp] theorem State.resetReg_coreTick (s : State) (a : Nat) : (s.resetReg a).coreTick = s.coreTick := rfl
@[simp] theorem State.resetReg_mem (s : State) (a : Nat) : (s.resetReg a).mem = s.mem := rfl
@[simp] theorem State.resetReg_memEpoch (s : State) (a : Nat) : (s.resetReg a).memEpoch = s.memEpoch := rfl
@[simp] theorem State.resetReg_badw (s : State) (a : Nat) : (s.resetReg a).badw = s.badw := rfl
@[simp] theorem State.resetReg_flips (s : State) (a : Nat) : (s.resetReg a).flips = s.flips := rfl
@[simp] theorem State.resetReg_ledger (s : State) (a : Nat) : (s.resetReg a).ledger = s.ledger := rfl
@[simp] theorem State.resetReg_anchors (s : State) (a : Nat) : (s.resetReg a).anchors = s.anchors := rfl
@[simp] theorem State.resetReg_zeroed (s : State) (a : Nat) : (s.resetReg a).zeroed = s.zeroed := rfl
@[simp] theorem State.resetReg_slices (s : State) (a : Nat) : (s.resetReg a).slices = s.slices := rfl
@[simp] theorem State.resetReg_lcs (s : State) (a : Nat) : (s.resetReg a).lcs = s.lcs := rfl
@[simp] theorem State.resetReg_held (s : State) (a : Nat) : (s.resetReg a).held = s.held := rfl
@[simp] theorem State.resetReg_lgops (s : State) (a : Nat) : (s.resetReg a).lgops = s.lgops := rfl
@[simp] theorem State.resetReg_lgWait (s : State) (a : Nat) : (s.resetReg a).lgWait = s.lgWait := rfl
@[simp] theorem State.resetReg_ecache (s : State) (a : Nat) : (s.resetReg a).ecache = s.ecache := rfl
@[simp] theorem State.resetReg_recal (s : State) (a : Nat) : (s.resetReg a).recal = s.recal := rfl
@[simp] theorem State.resetReg_tbt (s : State) (a : Nat) : (s.resetReg a).tbt = s.tbt := rfl
@[simp] theorem State.resetReg_tbtNext (s : State) (a : Nat) : (s.resetReg a).tbtNext = s.tbtNext := rfl
@[simp] theorem State.resetReg_spares (s : State) (a : Nat) : (s.resetReg a).spares = s.spares := rfl
@[simp] theorem State.resetReg_waysOff (s : State) (a : Nat) : (s.resetReg a).waysOff = s.waysOff := rfl
@[simp] theorem State.resetReg_recalNext (s : State) (a : Nat) : (s.resetReg a).recalNext = s.recalNext := rfl
@[simp] theorem State.resetReg_dredge (s : State) (a : Nat) : (s.resetReg a).dredge = s.dredge := rfl
@[simp] theorem State.resetReg_corr (s : State) (a : Nat) : (s.resetReg a).corr = s.corr := rfl
@[simp] theorem State.resetReg_bg (s : State) (a : Nat) : (s.resetReg a).bg = s.bg := rfl
@[simp] theorem State.resetReg_bgLast (s : State) (a : Nat) : (s.resetReg a).bgLast = s.bgLast := rfl
@[simp] theorem State.resetReg_bgDefer (s : State) (a : Nat) : (s.resetReg a).bgDefer = s.bgDefer := rfl
@[simp] theorem State.resetReg_tt (s : State) (a : Nat) : (s.resetReg a).tt = s.tt := rfl
@[simp] theorem State.resetReg_ttIn (s : State) (a : Nat) : (s.resetReg a).ttIn = s.ttIn := rfl
@[simp] theorem State.resetReg_snoops (s : State) (a : Nat) : (s.resetReg a).snoops = s.snoops := rfl
@[simp] theorem State.resetReg_cwReqs (s : State) (a : Nat) : (s.resetReg a).cwReqs = s.cwReqs := rfl
@[simp] theorem State.resetReg_cwBuf (s : State) (a : Nat) : (s.resetReg a).cwBuf = s.cwBuf := rfl
@[simp] theorem State.resetReg_snaps (s : State) (a : Nat) : (s.resetReg a).snaps = s.snaps := rfl
@[simp] theorem State.resetReg_kwaits (s : State) (a : Nat) : (s.resetReg a).kwaits = s.kwaits := rfl
@[simp] theorem State.resetReg_harrs (s : State) (a : Nat) : (s.resetReg a).harrs = s.harrs := rfl
@[simp] theorem State.resetReg_hheld (s : State) (a : Nat) : (s.resetReg a).hheld = s.hheld := rfl
@[simp] theorem State.resetReg_hwaits (s : State) (a : Nat) : (s.resetReg a).hwaits = s.hwaits := rfl
@[simp] theorem State.resetReg_xsent (s : State) (a : Nat) : (s.resetReg a).xsent = s.xsent := rfl
@[simp] theorem State.resetReg_chans (s : State) (a : Nat) : (s.resetReg a).chans = s.chans := rfl
@[simp] theorem State.resetReg_slus (s : State) (a : Nat) : (s.resetReg a).slus = s.slus := rfl
@[simp] theorem State.resetReg_capRec (s : State) (a : Nat) : (s.resetReg a).capRec = s.capRec := rfl
@[simp] theorem State.resetReg_capGone (s : State) (a : Nat) : (s.resetReg a).capGone = s.capGone := rfl
@[simp] theorem State.resetReg_ports (s : State) (a : Nat) : (s.resetReg a).ports = s.ports := rfl
@[simp] theorem State.resetReg_grps (s : State) (a : Nat) : (s.resetReg a).grps = s.grps := rfl
@[simp] theorem State.resetReg_spwTo (s : State) (a : Nat) : (s.resetReg a).spwTo = s.spwTo := rfl
@[simp] theorem State.resetReg_ddPend (s : State) (a : Nat) : (s.resetReg a).ddPend = s.ddPend := rfl
@[simp] theorem State.resetReg_ciph (s : State) (a : Nat) : (s.resetReg a).ciph = s.ciph := rfl
@[simp] theorem State.resetReg_cleat (s : State) (a : Nat) : (s.resetReg a).cleat = s.cleat := rfl
@[simp] theorem State.resetReg_flash (s : State) (a : Nat) : (s.resetReg a).flash = s.flash := rfl
@[simp] theorem State.resetReg_hgs (s : State) (a : Nat) : (s.resetReg a).hgs = s.hgs := rfl
@[simp] theorem State.resetReg_fwrx (s : State) (a : Nat) : (s.resetReg a).fwrx = s.fwrx := rfl
@[simp] theorem State.resetReg_swapOut (s : State) (a : Nat) : (s.resetReg a).swapOut = s.swapOut := rfl
@[simp] theorem State.resetReg_slUpd (s : State) (a : Nat) : (s.resetReg a).slUpd = s.slUpd := rfl
@[simp] theorem State.resetReg_thrs (s : State) (a : Nat) : (s.resetReg a).thrs = s.thrs := rfl
@[simp] theorem State.resetReg_board (s : State) (a : Nat) : (s.resetReg a).board = s.board := rfl
@[simp] theorem State.resetReg_boot (s : State) (a : Nat) : (s.resetReg a).boot = s.boot := rfl
@[simp] theorem State.resetReg_bootWarm (s : State) (a : Nat) : (s.resetReg a).bootWarm = s.bootWarm := rfl
@[simp] theorem State.resetReg_bootStart (s : State) (a : Nat) : (s.resetReg a).bootStart = s.bootStart := rfl
@[simp] theorem State.setCore_cores (s : State) (c : Nat) (k : Core) : (s.setCore c k).cores = tset c k s.cores := rfl
@[simp] theorem State.setCore_pending (s : State) (c : Nat) (k : Core) : (s.setCore c k).pending = s.pending := rfl
@[simp] theorem State.setCore_regs (s : State) (c : Nat) (k : Core) : (s.setCore c k).regs = s.regs := rfl
@[simp] theorem State.setCore_rsp (s : State) (c : Nat) (k : Core) : (s.setCore c k).rsp = s.rsp := rfl
@[simp] theorem State.setCore_free (s : State) (c : Nat) (k : Core) : (s.setCore c k).free = s.free := rfl
@[simp] theorem State.setCore_net (s : State) (c : Nat) (k : Core) : (s.setCore c k).net = s.net := rfl
@[simp] theorem State.setCore_coreTick (s : State) (c : Nat) (k : Core) : (s.setCore c k).coreTick = s.coreTick := rfl
@[simp] theorem State.setCore_mem (s : State) (c : Nat) (k : Core) : (s.setCore c k).mem = s.mem := rfl
@[simp] theorem State.setCore_memEpoch (s : State) (c : Nat) (k : Core) : (s.setCore c k).memEpoch = s.memEpoch := rfl
@[simp] theorem State.setCore_badw (s : State) (c : Nat) (k : Core) : (s.setCore c k).badw = s.badw := rfl
@[simp] theorem State.setCore_flips (s : State) (c : Nat) (k : Core) : (s.setCore c k).flips = s.flips := rfl
@[simp] theorem State.setCore_ledger (s : State) (c : Nat) (k : Core) : (s.setCore c k).ledger = s.ledger := rfl
@[simp] theorem State.setCore_anchors (s : State) (c : Nat) (k : Core) : (s.setCore c k).anchors = s.anchors := rfl
@[simp] theorem State.setCore_zeroed (s : State) (c : Nat) (k : Core) : (s.setCore c k).zeroed = s.zeroed := rfl
@[simp] theorem State.setCore_slices (s : State) (c : Nat) (k : Core) : (s.setCore c k).slices = s.slices := rfl
@[simp] theorem State.setCore_lcs (s : State) (c : Nat) (k : Core) : (s.setCore c k).lcs = s.lcs := rfl
@[simp] theorem State.setCore_held (s : State) (c : Nat) (k : Core) : (s.setCore c k).held = s.held := rfl
@[simp] theorem State.setCore_lgops (s : State) (c : Nat) (k : Core) : (s.setCore c k).lgops = s.lgops := rfl
@[simp] theorem State.setCore_lgWait (s : State) (c : Nat) (k : Core) : (s.setCore c k).lgWait = s.lgWait := rfl
@[simp] theorem State.setCore_ecache (s : State) (c : Nat) (k : Core) : (s.setCore c k).ecache = s.ecache := rfl
@[simp] theorem State.setCore_recal (s : State) (c : Nat) (k : Core) : (s.setCore c k).recal = s.recal := rfl
@[simp] theorem State.setCore_tbt (s : State) (c : Nat) (k : Core) : (s.setCore c k).tbt = s.tbt := rfl
@[simp] theorem State.setCore_tbtNext (s : State) (c : Nat) (k : Core) : (s.setCore c k).tbtNext = s.tbtNext := rfl
@[simp] theorem State.setCore_spares (s : State) (c : Nat) (k : Core) : (s.setCore c k).spares = s.spares := rfl
@[simp] theorem State.setCore_waysOff (s : State) (c : Nat) (k : Core) : (s.setCore c k).waysOff = s.waysOff := rfl
@[simp] theorem State.setCore_recalNext (s : State) (c : Nat) (k : Core) : (s.setCore c k).recalNext = s.recalNext := rfl
@[simp] theorem State.setCore_dredge (s : State) (c : Nat) (k : Core) : (s.setCore c k).dredge = s.dredge := rfl
@[simp] theorem State.setCore_corr (s : State) (c : Nat) (k : Core) : (s.setCore c k).corr = s.corr := rfl
@[simp] theorem State.setCore_bg (s : State) (c : Nat) (k : Core) : (s.setCore c k).bg = s.bg := rfl
@[simp] theorem State.setCore_bgLast (s : State) (c : Nat) (k : Core) : (s.setCore c k).bgLast = s.bgLast := rfl
@[simp] theorem State.setCore_bgDefer (s : State) (c : Nat) (k : Core) : (s.setCore c k).bgDefer = s.bgDefer := rfl
@[simp] theorem State.setCore_tt (s : State) (c : Nat) (k : Core) : (s.setCore c k).tt = s.tt := rfl
@[simp] theorem State.setCore_ttIn (s : State) (c : Nat) (k : Core) : (s.setCore c k).ttIn = s.ttIn := rfl
@[simp] theorem State.setCore_snoops (s : State) (c : Nat) (k : Core) : (s.setCore c k).snoops = s.snoops := rfl
@[simp] theorem State.setCore_cwReqs (s : State) (c : Nat) (k : Core) : (s.setCore c k).cwReqs = s.cwReqs := rfl
@[simp] theorem State.setCore_cwBuf (s : State) (c : Nat) (k : Core) : (s.setCore c k).cwBuf = s.cwBuf := rfl
@[simp] theorem State.setCore_snaps (s : State) (c : Nat) (k : Core) : (s.setCore c k).snaps = s.snaps := rfl
@[simp] theorem State.setCore_kwaits (s : State) (c : Nat) (k : Core) : (s.setCore c k).kwaits = s.kwaits := rfl
@[simp] theorem State.setCore_harrs (s : State) (c : Nat) (k : Core) : (s.setCore c k).harrs = s.harrs := rfl
@[simp] theorem State.setCore_hheld (s : State) (c : Nat) (k : Core) : (s.setCore c k).hheld = s.hheld := rfl
@[simp] theorem State.setCore_hwaits (s : State) (c : Nat) (k : Core) : (s.setCore c k).hwaits = s.hwaits := rfl
@[simp] theorem State.setCore_xsent (s : State) (c : Nat) (k : Core) : (s.setCore c k).xsent = s.xsent := rfl
@[simp] theorem State.setCore_chans (s : State) (c : Nat) (k : Core) : (s.setCore c k).chans = s.chans := rfl
@[simp] theorem State.setCore_slus (s : State) (c : Nat) (k : Core) : (s.setCore c k).slus = s.slus := rfl
@[simp] theorem State.setCore_capRec (s : State) (c : Nat) (k : Core) : (s.setCore c k).capRec = s.capRec := rfl
@[simp] theorem State.setCore_capGone (s : State) (c : Nat) (k : Core) : (s.setCore c k).capGone = s.capGone := rfl
@[simp] theorem State.setCore_ports (s : State) (c : Nat) (k : Core) : (s.setCore c k).ports = s.ports := rfl
@[simp] theorem State.setCore_grps (s : State) (c : Nat) (k : Core) : (s.setCore c k).grps = s.grps := rfl
@[simp] theorem State.setCore_spwTo (s : State) (c : Nat) (k : Core) : (s.setCore c k).spwTo = s.spwTo := rfl
@[simp] theorem State.setCore_ddPend (s : State) (c : Nat) (k : Core) : (s.setCore c k).ddPend = s.ddPend := rfl
@[simp] theorem State.setCore_ciph (s : State) (c : Nat) (k : Core) : (s.setCore c k).ciph = s.ciph := rfl
@[simp] theorem State.setCore_cleat (s : State) (c : Nat) (k : Core) : (s.setCore c k).cleat = s.cleat := rfl
@[simp] theorem State.setCore_flash (s : State) (c : Nat) (k : Core) : (s.setCore c k).flash = s.flash := rfl
@[simp] theorem State.setCore_hgs (s : State) (c : Nat) (k : Core) : (s.setCore c k).hgs = s.hgs := rfl
@[simp] theorem State.setCore_fwrx (s : State) (c : Nat) (k : Core) : (s.setCore c k).fwrx = s.fwrx := rfl
@[simp] theorem State.setCore_swapOut (s : State) (c : Nat) (k : Core) : (s.setCore c k).swapOut = s.swapOut := rfl
@[simp] theorem State.setCore_slUpd (s : State) (c : Nat) (k : Core) : (s.setCore c k).slUpd = s.slUpd := rfl
@[simp] theorem State.setCore_thrs (s : State) (c : Nat) (k : Core) : (s.setCore c k).thrs = s.thrs := rfl
@[simp] theorem State.setCore_board (s : State) (c : Nat) (k : Core) : (s.setCore c k).board = s.board := rfl
@[simp] theorem State.setCore_boot (s : State) (c : Nat) (k : Core) : (s.setCore c k).boot = s.boot := rfl
@[simp] theorem State.setCore_bootWarm (s : State) (c : Nat) (k : Core) : (s.setCore c k).bootWarm = s.bootWarm := rfl
@[simp] theorem State.setCore_bootStart (s : State) (c : Nat) (k : Core) : (s.setCore c k).bootStart = s.bootStart := rfl
@[simp] theorem State.setByte_pending (s : State) (a : Nat) (b : Byte) : (s.setByte a b).pending = s.pending := rfl
@[simp] theorem State.setByte_regs (s : State) (a : Nat) (b : Byte) : (s.setByte a b).regs = s.regs := rfl
@[simp] theorem State.setByte_rsp (s : State) (a : Nat) (b : Byte) : (s.setByte a b).rsp = s.rsp := rfl
@[simp] theorem State.setByte_free (s : State) (a : Nat) (b : Byte) : (s.setByte a b).free = s.free := rfl
@[simp] theorem State.setByte_net (s : State) (a : Nat) (b : Byte) : (s.setByte a b).net = s.net := rfl
@[simp] theorem State.setByte_cores (s : State) (a : Nat) (b : Byte) : (s.setByte a b).cores = s.cores := rfl
@[simp] theorem State.setByte_coreTick (s : State) (a : Nat) (b : Byte) : (s.setByte a b).coreTick = s.coreTick := rfl
@[simp] theorem State.setByte_memEpoch (s : State) (a : Nat) (b : Byte) : (s.setByte a b).memEpoch = s.memEpoch := rfl
@[simp] theorem State.setByte_badw (s : State) (a : Nat) (b : Byte) : (s.setByte a b).badw = s.badw := rfl
@[simp] theorem State.setByte_flips (s : State) (a : Nat) (b : Byte) : (s.setByte a b).flips = s.flips := rfl
@[simp] theorem State.setByte_ledger (s : State) (a : Nat) (b : Byte) : (s.setByte a b).ledger = s.ledger := rfl
@[simp] theorem State.setByte_anchors (s : State) (a : Nat) (b : Byte) : (s.setByte a b).anchors = s.anchors := rfl
@[simp] theorem State.setByte_zeroed (s : State) (a : Nat) (b : Byte) : (s.setByte a b).zeroed = s.zeroed := rfl
@[simp] theorem State.setByte_slices (s : State) (a : Nat) (b : Byte) : (s.setByte a b).slices = s.slices := rfl
@[simp] theorem State.setByte_lcs (s : State) (a : Nat) (b : Byte) : (s.setByte a b).lcs = s.lcs := rfl
@[simp] theorem State.setByte_held (s : State) (a : Nat) (b : Byte) : (s.setByte a b).held = s.held := rfl
@[simp] theorem State.setByte_lgops (s : State) (a : Nat) (b : Byte) : (s.setByte a b).lgops = s.lgops := rfl
@[simp] theorem State.setByte_lgWait (s : State) (a : Nat) (b : Byte) : (s.setByte a b).lgWait = s.lgWait := rfl
@[simp] theorem State.setByte_ecache (s : State) (a : Nat) (b : Byte) : (s.setByte a b).ecache = s.ecache := rfl
@[simp] theorem State.setByte_recal (s : State) (a : Nat) (b : Byte) : (s.setByte a b).recal = s.recal := rfl
@[simp] theorem State.setByte_tbt (s : State) (a : Nat) (b : Byte) : (s.setByte a b).tbt = s.tbt := rfl
@[simp] theorem State.setByte_tbtNext (s : State) (a : Nat) (b : Byte) : (s.setByte a b).tbtNext = s.tbtNext := rfl
@[simp] theorem State.setByte_spares (s : State) (a : Nat) (b : Byte) : (s.setByte a b).spares = s.spares := rfl
@[simp] theorem State.setByte_waysOff (s : State) (a : Nat) (b : Byte) : (s.setByte a b).waysOff = s.waysOff := rfl
@[simp] theorem State.setByte_recalNext (s : State) (a : Nat) (b : Byte) : (s.setByte a b).recalNext = s.recalNext := rfl
@[simp] theorem State.setByte_dredge (s : State) (a : Nat) (b : Byte) : (s.setByte a b).dredge = s.dredge := rfl
@[simp] theorem State.setByte_corr (s : State) (a : Nat) (b : Byte) : (s.setByte a b).corr = s.corr := rfl
@[simp] theorem State.setByte_bg (s : State) (a : Nat) (b : Byte) : (s.setByte a b).bg = s.bg := rfl
@[simp] theorem State.setByte_bgLast (s : State) (a : Nat) (b : Byte) : (s.setByte a b).bgLast = s.bgLast := rfl
@[simp] theorem State.setByte_bgDefer (s : State) (a : Nat) (b : Byte) : (s.setByte a b).bgDefer = s.bgDefer := rfl
@[simp] theorem State.setByte_tt (s : State) (a : Nat) (b : Byte) : (s.setByte a b).tt = s.tt := rfl
@[simp] theorem State.setByte_ttIn (s : State) (a : Nat) (b : Byte) : (s.setByte a b).ttIn = s.ttIn := rfl
@[simp] theorem State.setByte_snoops (s : State) (a : Nat) (b : Byte) : (s.setByte a b).snoops = s.snoops := rfl
@[simp] theorem State.setByte_cwReqs (s : State) (a : Nat) (b : Byte) : (s.setByte a b).cwReqs = s.cwReqs := rfl
@[simp] theorem State.setByte_cwBuf (s : State) (a : Nat) (b : Byte) : (s.setByte a b).cwBuf = s.cwBuf := rfl
@[simp] theorem State.setByte_snaps (s : State) (a : Nat) (b : Byte) : (s.setByte a b).snaps = s.snaps := rfl
@[simp] theorem State.setByte_kwaits (s : State) (a : Nat) (b : Byte) : (s.setByte a b).kwaits = s.kwaits := rfl
@[simp] theorem State.setByte_harrs (s : State) (a : Nat) (b : Byte) : (s.setByte a b).harrs = s.harrs := rfl
@[simp] theorem State.setByte_hheld (s : State) (a : Nat) (b : Byte) : (s.setByte a b).hheld = s.hheld := rfl
@[simp] theorem State.setByte_hwaits (s : State) (a : Nat) (b : Byte) : (s.setByte a b).hwaits = s.hwaits := rfl
@[simp] theorem State.setByte_xsent (s : State) (a : Nat) (b : Byte) : (s.setByte a b).xsent = s.xsent := rfl
@[simp] theorem State.setByte_chans (s : State) (a : Nat) (b : Byte) : (s.setByte a b).chans = s.chans := rfl
@[simp] theorem State.setByte_slus (s : State) (a : Nat) (b : Byte) : (s.setByte a b).slus = s.slus := rfl
@[simp] theorem State.setByte_capRec (s : State) (a : Nat) (b : Byte) : (s.setByte a b).capRec = s.capRec := rfl
@[simp] theorem State.setByte_capGone (s : State) (a : Nat) (b : Byte) : (s.setByte a b).capGone = s.capGone := rfl
@[simp] theorem State.setByte_ports (s : State) (a : Nat) (b : Byte) : (s.setByte a b).ports = s.ports := rfl
@[simp] theorem State.setByte_grps (s : State) (a : Nat) (b : Byte) : (s.setByte a b).grps = s.grps := rfl
@[simp] theorem State.setByte_spwTo (s : State) (a : Nat) (b : Byte) : (s.setByte a b).spwTo = s.spwTo := rfl
@[simp] theorem State.setByte_ddPend (s : State) (a : Nat) (b : Byte) : (s.setByte a b).ddPend = s.ddPend := rfl
@[simp] theorem State.setByte_ciph (s : State) (a : Nat) (b : Byte) : (s.setByte a b).ciph = s.ciph := rfl
@[simp] theorem State.setByte_cleat (s : State) (a : Nat) (b : Byte) : (s.setByte a b).cleat = s.cleat := rfl
@[simp] theorem State.setByte_flash (s : State) (a : Nat) (b : Byte) : (s.setByte a b).flash = s.flash := rfl
@[simp] theorem State.setByte_hgs (s : State) (a : Nat) (b : Byte) : (s.setByte a b).hgs = s.hgs := rfl
@[simp] theorem State.setByte_fwrx (s : State) (a : Nat) (b : Byte) : (s.setByte a b).fwrx = s.fwrx := rfl
@[simp] theorem State.setByte_swapOut (s : State) (a : Nat) (b : Byte) : (s.setByte a b).swapOut = s.swapOut := rfl
@[simp] theorem State.setByte_slUpd (s : State) (a : Nat) (b : Byte) : (s.setByte a b).slUpd = s.slUpd := rfl
@[simp] theorem State.setByte_thrs (s : State) (a : Nat) (b : Byte) : (s.setByte a b).thrs = s.thrs := rfl
@[simp] theorem State.setByte_board (s : State) (a : Nat) (b : Byte) : (s.setByte a b).board = s.board := rfl
@[simp] theorem State.setByte_boot (s : State) (a : Nat) (b : Byte) : (s.setByte a b).boot = s.boot := rfl
@[simp] theorem State.setByte_bootWarm (s : State) (a : Nat) (b : Byte) : (s.setByte a b).bootWarm = s.bootWarm := rfl
@[simp] theorem State.setByte_bootStart (s : State) (a : Nat) (b : Byte) : (s.setByte a b).bootStart = s.bootStart := rfl
@[simp] theorem State.setLe_ledger (s : State) (f : Nat) (e : LEnt) : (s.setLe f e).ledger = tset f e s.ledger := rfl
@[simp] theorem State.setLe_pending (s : State) (f : Nat) (e : LEnt) : (s.setLe f e).pending = s.pending := rfl
@[simp] theorem State.setLe_regs (s : State) (f : Nat) (e : LEnt) : (s.setLe f e).regs = s.regs := rfl
@[simp] theorem State.setLe_rsp (s : State) (f : Nat) (e : LEnt) : (s.setLe f e).rsp = s.rsp := rfl
@[simp] theorem State.setLe_free (s : State) (f : Nat) (e : LEnt) : (s.setLe f e).free = s.free := rfl
@[simp] theorem State.setLe_net (s : State) (f : Nat) (e : LEnt) : (s.setLe f e).net = s.net := rfl
@[simp] theorem State.setLe_cores (s : State) (f : Nat) (e : LEnt) : (s.setLe f e).cores = s.cores := rfl
@[simp] theorem State.setLe_coreTick (s : State) (f : Nat) (e : LEnt) : (s.setLe f e).coreTick = s.coreTick := rfl
@[simp] theorem State.setLe_mem (s : State) (f : Nat) (e : LEnt) : (s.setLe f e).mem = s.mem := rfl
@[simp] theorem State.setLe_memEpoch (s : State) (f : Nat) (e : LEnt) : (s.setLe f e).memEpoch = s.memEpoch := rfl
@[simp] theorem State.setLe_badw (s : State) (f : Nat) (e : LEnt) : (s.setLe f e).badw = s.badw := rfl
@[simp] theorem State.setLe_flips (s : State) (f : Nat) (e : LEnt) : (s.setLe f e).flips = s.flips := rfl
@[simp] theorem State.setLe_anchors (s : State) (f : Nat) (e : LEnt) : (s.setLe f e).anchors = s.anchors := rfl
@[simp] theorem State.setLe_zeroed (s : State) (f : Nat) (e : LEnt) : (s.setLe f e).zeroed = s.zeroed := rfl
@[simp] theorem State.setLe_slices (s : State) (f : Nat) (e : LEnt) : (s.setLe f e).slices = s.slices := rfl
@[simp] theorem State.setLe_lcs (s : State) (f : Nat) (e : LEnt) : (s.setLe f e).lcs = s.lcs := rfl
@[simp] theorem State.setLe_held (s : State) (f : Nat) (e : LEnt) : (s.setLe f e).held = s.held := rfl
@[simp] theorem State.setLe_lgops (s : State) (f : Nat) (e : LEnt) : (s.setLe f e).lgops = s.lgops := rfl
@[simp] theorem State.setLe_lgWait (s : State) (f : Nat) (e : LEnt) : (s.setLe f e).lgWait = s.lgWait := rfl
@[simp] theorem State.setLe_ecache (s : State) (f : Nat) (e : LEnt) : (s.setLe f e).ecache = s.ecache := rfl
@[simp] theorem State.setLe_recal (s : State) (f : Nat) (e : LEnt) : (s.setLe f e).recal = s.recal := rfl
@[simp] theorem State.setLe_tbt (s : State) (f : Nat) (e : LEnt) : (s.setLe f e).tbt = s.tbt := rfl
@[simp] theorem State.setLe_tbtNext (s : State) (f : Nat) (e : LEnt) : (s.setLe f e).tbtNext = s.tbtNext := rfl
@[simp] theorem State.setLe_spares (s : State) (f : Nat) (e : LEnt) : (s.setLe f e).spares = s.spares := rfl
@[simp] theorem State.setLe_waysOff (s : State) (f : Nat) (e : LEnt) : (s.setLe f e).waysOff = s.waysOff := rfl
@[simp] theorem State.setLe_recalNext (s : State) (f : Nat) (e : LEnt) : (s.setLe f e).recalNext = s.recalNext := rfl
@[simp] theorem State.setLe_dredge (s : State) (f : Nat) (e : LEnt) : (s.setLe f e).dredge = s.dredge := rfl
@[simp] theorem State.setLe_corr (s : State) (f : Nat) (e : LEnt) : (s.setLe f e).corr = s.corr := rfl
@[simp] theorem State.setLe_bg (s : State) (f : Nat) (e : LEnt) : (s.setLe f e).bg = s.bg := rfl
@[simp] theorem State.setLe_bgLast (s : State) (f : Nat) (e : LEnt) : (s.setLe f e).bgLast = s.bgLast := rfl
@[simp] theorem State.setLe_bgDefer (s : State) (f : Nat) (e : LEnt) : (s.setLe f e).bgDefer = s.bgDefer := rfl
@[simp] theorem State.setLe_tt (s : State) (f : Nat) (e : LEnt) : (s.setLe f e).tt = s.tt := rfl
@[simp] theorem State.setLe_ttIn (s : State) (f : Nat) (e : LEnt) : (s.setLe f e).ttIn = s.ttIn := rfl
@[simp] theorem State.setLe_snoops (s : State) (f : Nat) (e : LEnt) : (s.setLe f e).snoops = s.snoops := rfl
@[simp] theorem State.setLe_cwReqs (s : State) (f : Nat) (e : LEnt) : (s.setLe f e).cwReqs = s.cwReqs := rfl
@[simp] theorem State.setLe_cwBuf (s : State) (f : Nat) (e : LEnt) : (s.setLe f e).cwBuf = s.cwBuf := rfl
@[simp] theorem State.setLe_snaps (s : State) (f : Nat) (e : LEnt) : (s.setLe f e).snaps = s.snaps := rfl
@[simp] theorem State.setLe_kwaits (s : State) (f : Nat) (e : LEnt) : (s.setLe f e).kwaits = s.kwaits := rfl
@[simp] theorem State.setLe_harrs (s : State) (f : Nat) (e : LEnt) : (s.setLe f e).harrs = s.harrs := rfl
@[simp] theorem State.setLe_hheld (s : State) (f : Nat) (e : LEnt) : (s.setLe f e).hheld = s.hheld := rfl
@[simp] theorem State.setLe_hwaits (s : State) (f : Nat) (e : LEnt) : (s.setLe f e).hwaits = s.hwaits := rfl
@[simp] theorem State.setLe_xsent (s : State) (f : Nat) (e : LEnt) : (s.setLe f e).xsent = s.xsent := rfl
@[simp] theorem State.setLe_chans (s : State) (f : Nat) (e : LEnt) : (s.setLe f e).chans = s.chans := rfl
@[simp] theorem State.setLe_slus (s : State) (f : Nat) (e : LEnt) : (s.setLe f e).slus = s.slus := rfl
@[simp] theorem State.setLe_capRec (s : State) (f : Nat) (e : LEnt) : (s.setLe f e).capRec = s.capRec := rfl
@[simp] theorem State.setLe_capGone (s : State) (f : Nat) (e : LEnt) : (s.setLe f e).capGone = s.capGone := rfl
@[simp] theorem State.setLe_ports (s : State) (f : Nat) (e : LEnt) : (s.setLe f e).ports = s.ports := rfl
@[simp] theorem State.setLe_grps (s : State) (f : Nat) (e : LEnt) : (s.setLe f e).grps = s.grps := rfl
@[simp] theorem State.setLe_spwTo (s : State) (f : Nat) (e : LEnt) : (s.setLe f e).spwTo = s.spwTo := rfl
@[simp] theorem State.setLe_ddPend (s : State) (f : Nat) (e : LEnt) : (s.setLe f e).ddPend = s.ddPend := rfl
@[simp] theorem State.setLe_ciph (s : State) (f : Nat) (e : LEnt) : (s.setLe f e).ciph = s.ciph := rfl
@[simp] theorem State.setLe_cleat (s : State) (f : Nat) (e : LEnt) : (s.setLe f e).cleat = s.cleat := rfl
@[simp] theorem State.setLe_flash (s : State) (f : Nat) (e : LEnt) : (s.setLe f e).flash = s.flash := rfl
@[simp] theorem State.setLe_hgs (s : State) (f : Nat) (e : LEnt) : (s.setLe f e).hgs = s.hgs := rfl
@[simp] theorem State.setLe_fwrx (s : State) (f : Nat) (e : LEnt) : (s.setLe f e).fwrx = s.fwrx := rfl
@[simp] theorem State.setLe_swapOut (s : State) (f : Nat) (e : LEnt) : (s.setLe f e).swapOut = s.swapOut := rfl
@[simp] theorem State.setLe_slUpd (s : State) (f : Nat) (e : LEnt) : (s.setLe f e).slUpd = s.slUpd := rfl
@[simp] theorem State.setLe_thrs (s : State) (f : Nat) (e : LEnt) : (s.setLe f e).thrs = s.thrs := rfl
@[simp] theorem State.setLe_board (s : State) (f : Nat) (e : LEnt) : (s.setLe f e).board = s.board := rfl
@[simp] theorem State.setLe_boot (s : State) (f : Nat) (e : LEnt) : (s.setLe f e).boot = s.boot := rfl
@[simp] theorem State.setLe_bootWarm (s : State) (f : Nat) (e : LEnt) : (s.setLe f e).bootWarm = s.bootWarm := rfl
@[simp] theorem State.setLe_bootStart (s : State) (f : Nat) (e : LEnt) : (s.setLe f e).bootStart = s.bootStart := rfl
@[simp] theorem State.setSlice_slices (s : State) (n : Nat) (x : Slice) : (s.setSlice n x).slices = tset n x s.slices := rfl
@[simp] theorem State.setSlice_pending (s : State) (n : Nat) (x : Slice) : (s.setSlice n x).pending = s.pending := rfl
@[simp] theorem State.setSlice_regs (s : State) (n : Nat) (x : Slice) : (s.setSlice n x).regs = s.regs := rfl
@[simp] theorem State.setSlice_rsp (s : State) (n : Nat) (x : Slice) : (s.setSlice n x).rsp = s.rsp := rfl
@[simp] theorem State.setSlice_free (s : State) (n : Nat) (x : Slice) : (s.setSlice n x).free = s.free := rfl
@[simp] theorem State.setSlice_net (s : State) (n : Nat) (x : Slice) : (s.setSlice n x).net = s.net := rfl
@[simp] theorem State.setSlice_cores (s : State) (n : Nat) (x : Slice) : (s.setSlice n x).cores = s.cores := rfl
@[simp] theorem State.setSlice_coreTick (s : State) (n : Nat) (x : Slice) : (s.setSlice n x).coreTick = s.coreTick := rfl
@[simp] theorem State.setSlice_mem (s : State) (n : Nat) (x : Slice) : (s.setSlice n x).mem = s.mem := rfl
@[simp] theorem State.setSlice_memEpoch (s : State) (n : Nat) (x : Slice) : (s.setSlice n x).memEpoch = s.memEpoch := rfl
@[simp] theorem State.setSlice_badw (s : State) (n : Nat) (x : Slice) : (s.setSlice n x).badw = s.badw := rfl
@[simp] theorem State.setSlice_flips (s : State) (n : Nat) (x : Slice) : (s.setSlice n x).flips = s.flips := rfl
@[simp] theorem State.setSlice_ledger (s : State) (n : Nat) (x : Slice) : (s.setSlice n x).ledger = s.ledger := rfl
@[simp] theorem State.setSlice_anchors (s : State) (n : Nat) (x : Slice) : (s.setSlice n x).anchors = s.anchors := rfl
@[simp] theorem State.setSlice_zeroed (s : State) (n : Nat) (x : Slice) : (s.setSlice n x).zeroed = s.zeroed := rfl
@[simp] theorem State.setSlice_lcs (s : State) (n : Nat) (x : Slice) : (s.setSlice n x).lcs = s.lcs := rfl
@[simp] theorem State.setSlice_held (s : State) (n : Nat) (x : Slice) : (s.setSlice n x).held = s.held := rfl
@[simp] theorem State.setSlice_lgops (s : State) (n : Nat) (x : Slice) : (s.setSlice n x).lgops = s.lgops := rfl
@[simp] theorem State.setSlice_lgWait (s : State) (n : Nat) (x : Slice) : (s.setSlice n x).lgWait = s.lgWait := rfl
@[simp] theorem State.setSlice_ecache (s : State) (n : Nat) (x : Slice) : (s.setSlice n x).ecache = s.ecache := rfl
@[simp] theorem State.setSlice_recal (s : State) (n : Nat) (x : Slice) : (s.setSlice n x).recal = s.recal := rfl
@[simp] theorem State.setSlice_tbt (s : State) (n : Nat) (x : Slice) : (s.setSlice n x).tbt = s.tbt := rfl
@[simp] theorem State.setSlice_tbtNext (s : State) (n : Nat) (x : Slice) : (s.setSlice n x).tbtNext = s.tbtNext := rfl
@[simp] theorem State.setSlice_spares (s : State) (n : Nat) (x : Slice) : (s.setSlice n x).spares = s.spares := rfl
@[simp] theorem State.setSlice_waysOff (s : State) (n : Nat) (x : Slice) : (s.setSlice n x).waysOff = s.waysOff := rfl
@[simp] theorem State.setSlice_recalNext (s : State) (n : Nat) (x : Slice) : (s.setSlice n x).recalNext = s.recalNext := rfl
@[simp] theorem State.setSlice_dredge (s : State) (n : Nat) (x : Slice) : (s.setSlice n x).dredge = s.dredge := rfl
@[simp] theorem State.setSlice_corr (s : State) (n : Nat) (x : Slice) : (s.setSlice n x).corr = s.corr := rfl
@[simp] theorem State.setSlice_bg (s : State) (n : Nat) (x : Slice) : (s.setSlice n x).bg = s.bg := rfl
@[simp] theorem State.setSlice_bgLast (s : State) (n : Nat) (x : Slice) : (s.setSlice n x).bgLast = s.bgLast := rfl
@[simp] theorem State.setSlice_bgDefer (s : State) (n : Nat) (x : Slice) : (s.setSlice n x).bgDefer = s.bgDefer := rfl
@[simp] theorem State.setSlice_tt (s : State) (n : Nat) (x : Slice) : (s.setSlice n x).tt = s.tt := rfl
@[simp] theorem State.setSlice_ttIn (s : State) (n : Nat) (x : Slice) : (s.setSlice n x).ttIn = s.ttIn := rfl
@[simp] theorem State.setSlice_snoops (s : State) (n : Nat) (x : Slice) : (s.setSlice n x).snoops = s.snoops := rfl
@[simp] theorem State.setSlice_cwReqs (s : State) (n : Nat) (x : Slice) : (s.setSlice n x).cwReqs = s.cwReqs := rfl
@[simp] theorem State.setSlice_cwBuf (s : State) (n : Nat) (x : Slice) : (s.setSlice n x).cwBuf = s.cwBuf := rfl
@[simp] theorem State.setSlice_snaps (s : State) (n : Nat) (x : Slice) : (s.setSlice n x).snaps = s.snaps := rfl
@[simp] theorem State.setSlice_kwaits (s : State) (n : Nat) (x : Slice) : (s.setSlice n x).kwaits = s.kwaits := rfl
@[simp] theorem State.setSlice_harrs (s : State) (n : Nat) (x : Slice) : (s.setSlice n x).harrs = s.harrs := rfl
@[simp] theorem State.setSlice_hheld (s : State) (n : Nat) (x : Slice) : (s.setSlice n x).hheld = s.hheld := rfl
@[simp] theorem State.setSlice_hwaits (s : State) (n : Nat) (x : Slice) : (s.setSlice n x).hwaits = s.hwaits := rfl
@[simp] theorem State.setSlice_xsent (s : State) (n : Nat) (x : Slice) : (s.setSlice n x).xsent = s.xsent := rfl
@[simp] theorem State.setSlice_chans (s : State) (n : Nat) (x : Slice) : (s.setSlice n x).chans = s.chans := rfl
@[simp] theorem State.setSlice_slus (s : State) (n : Nat) (x : Slice) : (s.setSlice n x).slus = s.slus := rfl
@[simp] theorem State.setSlice_capRec (s : State) (n : Nat) (x : Slice) : (s.setSlice n x).capRec = s.capRec := rfl
@[simp] theorem State.setSlice_capGone (s : State) (n : Nat) (x : Slice) : (s.setSlice n x).capGone = s.capGone := rfl
@[simp] theorem State.setSlice_ports (s : State) (n : Nat) (x : Slice) : (s.setSlice n x).ports = s.ports := rfl
@[simp] theorem State.setSlice_grps (s : State) (n : Nat) (x : Slice) : (s.setSlice n x).grps = s.grps := rfl
@[simp] theorem State.setSlice_spwTo (s : State) (n : Nat) (x : Slice) : (s.setSlice n x).spwTo = s.spwTo := rfl
@[simp] theorem State.setSlice_ddPend (s : State) (n : Nat) (x : Slice) : (s.setSlice n x).ddPend = s.ddPend := rfl
@[simp] theorem State.setSlice_ciph (s : State) (n : Nat) (x : Slice) : (s.setSlice n x).ciph = s.ciph := rfl
@[simp] theorem State.setSlice_cleat (s : State) (n : Nat) (x : Slice) : (s.setSlice n x).cleat = s.cleat := rfl
@[simp] theorem State.setSlice_flash (s : State) (n : Nat) (x : Slice) : (s.setSlice n x).flash = s.flash := rfl
@[simp] theorem State.setSlice_hgs (s : State) (n : Nat) (x : Slice) : (s.setSlice n x).hgs = s.hgs := rfl
@[simp] theorem State.setSlice_fwrx (s : State) (n : Nat) (x : Slice) : (s.setSlice n x).fwrx = s.fwrx := rfl
@[simp] theorem State.setSlice_swapOut (s : State) (n : Nat) (x : Slice) : (s.setSlice n x).swapOut = s.swapOut := rfl
@[simp] theorem State.setSlice_slUpd (s : State) (n : Nat) (x : Slice) : (s.setSlice n x).slUpd = s.slUpd := rfl
@[simp] theorem State.setSlice_thrs (s : State) (n : Nat) (x : Slice) : (s.setSlice n x).thrs = s.thrs := rfl
@[simp] theorem State.setSlice_board (s : State) (n : Nat) (x : Slice) : (s.setSlice n x).board = s.board := rfl
@[simp] theorem State.setSlice_boot (s : State) (n : Nat) (x : Slice) : (s.setSlice n x).boot = s.boot := rfl
@[simp] theorem State.setSlice_bootWarm (s : State) (n : Nat) (x : Slice) : (s.setSlice n x).bootWarm = s.bootWarm := rfl
@[simp] theorem State.setSlice_bootStart (s : State) (n : Nat) (x : Slice) : (s.setSlice n x).bootStart = s.bootStart := rfl
@[simp] theorem State.setPort_ports (s : State) (p : Nat) (x : Port) : (s.setPort p x).ports = tset p x s.ports := rfl
@[simp] theorem State.setPort_pending (s : State) (p : Nat) (x : Port) : (s.setPort p x).pending = s.pending := rfl
@[simp] theorem State.setPort_regs (s : State) (p : Nat) (x : Port) : (s.setPort p x).regs = s.regs := rfl
@[simp] theorem State.setPort_rsp (s : State) (p : Nat) (x : Port) : (s.setPort p x).rsp = s.rsp := rfl
@[simp] theorem State.setPort_free (s : State) (p : Nat) (x : Port) : (s.setPort p x).free = s.free := rfl
@[simp] theorem State.setPort_net (s : State) (p : Nat) (x : Port) : (s.setPort p x).net = s.net := rfl
@[simp] theorem State.setPort_cores (s : State) (p : Nat) (x : Port) : (s.setPort p x).cores = s.cores := rfl
@[simp] theorem State.setPort_coreTick (s : State) (p : Nat) (x : Port) : (s.setPort p x).coreTick = s.coreTick := rfl
@[simp] theorem State.setPort_mem (s : State) (p : Nat) (x : Port) : (s.setPort p x).mem = s.mem := rfl
@[simp] theorem State.setPort_memEpoch (s : State) (p : Nat) (x : Port) : (s.setPort p x).memEpoch = s.memEpoch := rfl
@[simp] theorem State.setPort_badw (s : State) (p : Nat) (x : Port) : (s.setPort p x).badw = s.badw := rfl
@[simp] theorem State.setPort_flips (s : State) (p : Nat) (x : Port) : (s.setPort p x).flips = s.flips := rfl
@[simp] theorem State.setPort_ledger (s : State) (p : Nat) (x : Port) : (s.setPort p x).ledger = s.ledger := rfl
@[simp] theorem State.setPort_anchors (s : State) (p : Nat) (x : Port) : (s.setPort p x).anchors = s.anchors := rfl
@[simp] theorem State.setPort_zeroed (s : State) (p : Nat) (x : Port) : (s.setPort p x).zeroed = s.zeroed := rfl
@[simp] theorem State.setPort_slices (s : State) (p : Nat) (x : Port) : (s.setPort p x).slices = s.slices := rfl
@[simp] theorem State.setPort_lcs (s : State) (p : Nat) (x : Port) : (s.setPort p x).lcs = s.lcs := rfl
@[simp] theorem State.setPort_held (s : State) (p : Nat) (x : Port) : (s.setPort p x).held = s.held := rfl
@[simp] theorem State.setPort_lgops (s : State) (p : Nat) (x : Port) : (s.setPort p x).lgops = s.lgops := rfl
@[simp] theorem State.setPort_lgWait (s : State) (p : Nat) (x : Port) : (s.setPort p x).lgWait = s.lgWait := rfl
@[simp] theorem State.setPort_ecache (s : State) (p : Nat) (x : Port) : (s.setPort p x).ecache = s.ecache := rfl
@[simp] theorem State.setPort_recal (s : State) (p : Nat) (x : Port) : (s.setPort p x).recal = s.recal := rfl
@[simp] theorem State.setPort_tbt (s : State) (p : Nat) (x : Port) : (s.setPort p x).tbt = s.tbt := rfl
@[simp] theorem State.setPort_tbtNext (s : State) (p : Nat) (x : Port) : (s.setPort p x).tbtNext = s.tbtNext := rfl
@[simp] theorem State.setPort_spares (s : State) (p : Nat) (x : Port) : (s.setPort p x).spares = s.spares := rfl
@[simp] theorem State.setPort_waysOff (s : State) (p : Nat) (x : Port) : (s.setPort p x).waysOff = s.waysOff := rfl
@[simp] theorem State.setPort_recalNext (s : State) (p : Nat) (x : Port) : (s.setPort p x).recalNext = s.recalNext := rfl
@[simp] theorem State.setPort_dredge (s : State) (p : Nat) (x : Port) : (s.setPort p x).dredge = s.dredge := rfl
@[simp] theorem State.setPort_corr (s : State) (p : Nat) (x : Port) : (s.setPort p x).corr = s.corr := rfl
@[simp] theorem State.setPort_bg (s : State) (p : Nat) (x : Port) : (s.setPort p x).bg = s.bg := rfl
@[simp] theorem State.setPort_bgLast (s : State) (p : Nat) (x : Port) : (s.setPort p x).bgLast = s.bgLast := rfl
@[simp] theorem State.setPort_bgDefer (s : State) (p : Nat) (x : Port) : (s.setPort p x).bgDefer = s.bgDefer := rfl
@[simp] theorem State.setPort_tt (s : State) (p : Nat) (x : Port) : (s.setPort p x).tt = s.tt := rfl
@[simp] theorem State.setPort_ttIn (s : State) (p : Nat) (x : Port) : (s.setPort p x).ttIn = s.ttIn := rfl
@[simp] theorem State.setPort_snoops (s : State) (p : Nat) (x : Port) : (s.setPort p x).snoops = s.snoops := rfl
@[simp] theorem State.setPort_cwReqs (s : State) (p : Nat) (x : Port) : (s.setPort p x).cwReqs = s.cwReqs := rfl
@[simp] theorem State.setPort_cwBuf (s : State) (p : Nat) (x : Port) : (s.setPort p x).cwBuf = s.cwBuf := rfl
@[simp] theorem State.setPort_snaps (s : State) (p : Nat) (x : Port) : (s.setPort p x).snaps = s.snaps := rfl
@[simp] theorem State.setPort_kwaits (s : State) (p : Nat) (x : Port) : (s.setPort p x).kwaits = s.kwaits := rfl
@[simp] theorem State.setPort_harrs (s : State) (p : Nat) (x : Port) : (s.setPort p x).harrs = s.harrs := rfl
@[simp] theorem State.setPort_hheld (s : State) (p : Nat) (x : Port) : (s.setPort p x).hheld = s.hheld := rfl
@[simp] theorem State.setPort_hwaits (s : State) (p : Nat) (x : Port) : (s.setPort p x).hwaits = s.hwaits := rfl
@[simp] theorem State.setPort_xsent (s : State) (p : Nat) (x : Port) : (s.setPort p x).xsent = s.xsent := rfl
@[simp] theorem State.setPort_chans (s : State) (p : Nat) (x : Port) : (s.setPort p x).chans = s.chans := rfl
@[simp] theorem State.setPort_slus (s : State) (p : Nat) (x : Port) : (s.setPort p x).slus = s.slus := rfl
@[simp] theorem State.setPort_capRec (s : State) (p : Nat) (x : Port) : (s.setPort p x).capRec = s.capRec := rfl
@[simp] theorem State.setPort_capGone (s : State) (p : Nat) (x : Port) : (s.setPort p x).capGone = s.capGone := rfl
@[simp] theorem State.setPort_grps (s : State) (p : Nat) (x : Port) : (s.setPort p x).grps = s.grps := rfl
@[simp] theorem State.setPort_spwTo (s : State) (p : Nat) (x : Port) : (s.setPort p x).spwTo = s.spwTo := rfl
@[simp] theorem State.setPort_ddPend (s : State) (p : Nat) (x : Port) : (s.setPort p x).ddPend = s.ddPend := rfl
@[simp] theorem State.setPort_ciph (s : State) (p : Nat) (x : Port) : (s.setPort p x).ciph = s.ciph := rfl
@[simp] theorem State.setPort_cleat (s : State) (p : Nat) (x : Port) : (s.setPort p x).cleat = s.cleat := rfl
@[simp] theorem State.setPort_flash (s : State) (p : Nat) (x : Port) : (s.setPort p x).flash = s.flash := rfl
@[simp] theorem State.setPort_hgs (s : State) (p : Nat) (x : Port) : (s.setPort p x).hgs = s.hgs := rfl
@[simp] theorem State.setPort_fwrx (s : State) (p : Nat) (x : Port) : (s.setPort p x).fwrx = s.fwrx := rfl
@[simp] theorem State.setPort_swapOut (s : State) (p : Nat) (x : Port) : (s.setPort p x).swapOut = s.swapOut := rfl
@[simp] theorem State.setPort_slUpd (s : State) (p : Nat) (x : Port) : (s.setPort p x).slUpd = s.slUpd := rfl
@[simp] theorem State.setPort_thrs (s : State) (p : Nat) (x : Port) : (s.setPort p x).thrs = s.thrs := rfl
@[simp] theorem State.setPort_board (s : State) (p : Nat) (x : Port) : (s.setPort p x).board = s.board := rfl
@[simp] theorem State.setPort_boot (s : State) (p : Nat) (x : Port) : (s.setPort p x).boot = s.boot := rfl
@[simp] theorem State.setPort_bootWarm (s : State) (p : Nat) (x : Port) : (s.setPort p x).bootWarm = s.bootWarm := rfl
@[simp] theorem State.setPort_bootStart (s : State) (p : Nat) (x : Port) : (s.setPort p x).bootStart = s.bootStart := rfl
@[simp] theorem State.setChan_chans (s : State) (ch : Chan) (x : Chn) : (s.setChan ch x).chans = tset ch.key x s.chans := rfl
@[simp] theorem State.setChan_pending (s : State) (ch : Chan) (x : Chn) : (s.setChan ch x).pending = s.pending := rfl
@[simp] theorem State.setChan_regs (s : State) (ch : Chan) (x : Chn) : (s.setChan ch x).regs = s.regs := rfl
@[simp] theorem State.setChan_rsp (s : State) (ch : Chan) (x : Chn) : (s.setChan ch x).rsp = s.rsp := rfl
@[simp] theorem State.setChan_free (s : State) (ch : Chan) (x : Chn) : (s.setChan ch x).free = s.free := rfl
@[simp] theorem State.setChan_net (s : State) (ch : Chan) (x : Chn) : (s.setChan ch x).net = s.net := rfl
@[simp] theorem State.setChan_cores (s : State) (ch : Chan) (x : Chn) : (s.setChan ch x).cores = s.cores := rfl
@[simp] theorem State.setChan_coreTick (s : State) (ch : Chan) (x : Chn) : (s.setChan ch x).coreTick = s.coreTick := rfl
@[simp] theorem State.setChan_mem (s : State) (ch : Chan) (x : Chn) : (s.setChan ch x).mem = s.mem := rfl
@[simp] theorem State.setChan_memEpoch (s : State) (ch : Chan) (x : Chn) : (s.setChan ch x).memEpoch = s.memEpoch := rfl
@[simp] theorem State.setChan_badw (s : State) (ch : Chan) (x : Chn) : (s.setChan ch x).badw = s.badw := rfl
@[simp] theorem State.setChan_flips (s : State) (ch : Chan) (x : Chn) : (s.setChan ch x).flips = s.flips := rfl
@[simp] theorem State.setChan_ledger (s : State) (ch : Chan) (x : Chn) : (s.setChan ch x).ledger = s.ledger := rfl
@[simp] theorem State.setChan_anchors (s : State) (ch : Chan) (x : Chn) : (s.setChan ch x).anchors = s.anchors := rfl
@[simp] theorem State.setChan_zeroed (s : State) (ch : Chan) (x : Chn) : (s.setChan ch x).zeroed = s.zeroed := rfl
@[simp] theorem State.setChan_slices (s : State) (ch : Chan) (x : Chn) : (s.setChan ch x).slices = s.slices := rfl
@[simp] theorem State.setChan_lcs (s : State) (ch : Chan) (x : Chn) : (s.setChan ch x).lcs = s.lcs := rfl
@[simp] theorem State.setChan_held (s : State) (ch : Chan) (x : Chn) : (s.setChan ch x).held = s.held := rfl
@[simp] theorem State.setChan_lgops (s : State) (ch : Chan) (x : Chn) : (s.setChan ch x).lgops = s.lgops := rfl
@[simp] theorem State.setChan_lgWait (s : State) (ch : Chan) (x : Chn) : (s.setChan ch x).lgWait = s.lgWait := rfl
@[simp] theorem State.setChan_ecache (s : State) (ch : Chan) (x : Chn) : (s.setChan ch x).ecache = s.ecache := rfl
@[simp] theorem State.setChan_recal (s : State) (ch : Chan) (x : Chn) : (s.setChan ch x).recal = s.recal := rfl
@[simp] theorem State.setChan_tbt (s : State) (ch : Chan) (x : Chn) : (s.setChan ch x).tbt = s.tbt := rfl
@[simp] theorem State.setChan_tbtNext (s : State) (ch : Chan) (x : Chn) : (s.setChan ch x).tbtNext = s.tbtNext := rfl
@[simp] theorem State.setChan_spares (s : State) (ch : Chan) (x : Chn) : (s.setChan ch x).spares = s.spares := rfl
@[simp] theorem State.setChan_waysOff (s : State) (ch : Chan) (x : Chn) : (s.setChan ch x).waysOff = s.waysOff := rfl
@[simp] theorem State.setChan_recalNext (s : State) (ch : Chan) (x : Chn) : (s.setChan ch x).recalNext = s.recalNext := rfl
@[simp] theorem State.setChan_dredge (s : State) (ch : Chan) (x : Chn) : (s.setChan ch x).dredge = s.dredge := rfl
@[simp] theorem State.setChan_corr (s : State) (ch : Chan) (x : Chn) : (s.setChan ch x).corr = s.corr := rfl
@[simp] theorem State.setChan_bg (s : State) (ch : Chan) (x : Chn) : (s.setChan ch x).bg = s.bg := rfl
@[simp] theorem State.setChan_bgLast (s : State) (ch : Chan) (x : Chn) : (s.setChan ch x).bgLast = s.bgLast := rfl
@[simp] theorem State.setChan_bgDefer (s : State) (ch : Chan) (x : Chn) : (s.setChan ch x).bgDefer = s.bgDefer := rfl
@[simp] theorem State.setChan_tt (s : State) (ch : Chan) (x : Chn) : (s.setChan ch x).tt = s.tt := rfl
@[simp] theorem State.setChan_ttIn (s : State) (ch : Chan) (x : Chn) : (s.setChan ch x).ttIn = s.ttIn := rfl
@[simp] theorem State.setChan_snoops (s : State) (ch : Chan) (x : Chn) : (s.setChan ch x).snoops = s.snoops := rfl
@[simp] theorem State.setChan_cwReqs (s : State) (ch : Chan) (x : Chn) : (s.setChan ch x).cwReqs = s.cwReqs := rfl
@[simp] theorem State.setChan_cwBuf (s : State) (ch : Chan) (x : Chn) : (s.setChan ch x).cwBuf = s.cwBuf := rfl
@[simp] theorem State.setChan_snaps (s : State) (ch : Chan) (x : Chn) : (s.setChan ch x).snaps = s.snaps := rfl
@[simp] theorem State.setChan_kwaits (s : State) (ch : Chan) (x : Chn) : (s.setChan ch x).kwaits = s.kwaits := rfl
@[simp] theorem State.setChan_harrs (s : State) (ch : Chan) (x : Chn) : (s.setChan ch x).harrs = s.harrs := rfl
@[simp] theorem State.setChan_hheld (s : State) (ch : Chan) (x : Chn) : (s.setChan ch x).hheld = s.hheld := rfl
@[simp] theorem State.setChan_hwaits (s : State) (ch : Chan) (x : Chn) : (s.setChan ch x).hwaits = s.hwaits := rfl
@[simp] theorem State.setChan_xsent (s : State) (ch : Chan) (x : Chn) : (s.setChan ch x).xsent = s.xsent := rfl
@[simp] theorem State.setChan_slus (s : State) (ch : Chan) (x : Chn) : (s.setChan ch x).slus = s.slus := rfl
@[simp] theorem State.setChan_capRec (s : State) (ch : Chan) (x : Chn) : (s.setChan ch x).capRec = s.capRec := rfl
@[simp] theorem State.setChan_capGone (s : State) (ch : Chan) (x : Chn) : (s.setChan ch x).capGone = s.capGone := rfl
@[simp] theorem State.setChan_ports (s : State) (ch : Chan) (x : Chn) : (s.setChan ch x).ports = s.ports := rfl
@[simp] theorem State.setChan_grps (s : State) (ch : Chan) (x : Chn) : (s.setChan ch x).grps = s.grps := rfl
@[simp] theorem State.setChan_spwTo (s : State) (ch : Chan) (x : Chn) : (s.setChan ch x).spwTo = s.spwTo := rfl
@[simp] theorem State.setChan_ddPend (s : State) (ch : Chan) (x : Chn) : (s.setChan ch x).ddPend = s.ddPend := rfl
@[simp] theorem State.setChan_ciph (s : State) (ch : Chan) (x : Chn) : (s.setChan ch x).ciph = s.ciph := rfl
@[simp] theorem State.setChan_cleat (s : State) (ch : Chan) (x : Chn) : (s.setChan ch x).cleat = s.cleat := rfl
@[simp] theorem State.setChan_flash (s : State) (ch : Chan) (x : Chn) : (s.setChan ch x).flash = s.flash := rfl
@[simp] theorem State.setChan_hgs (s : State) (ch : Chan) (x : Chn) : (s.setChan ch x).hgs = s.hgs := rfl
@[simp] theorem State.setChan_fwrx (s : State) (ch : Chan) (x : Chn) : (s.setChan ch x).fwrx = s.fwrx := rfl
@[simp] theorem State.setChan_swapOut (s : State) (ch : Chan) (x : Chn) : (s.setChan ch x).swapOut = s.swapOut := rfl
@[simp] theorem State.setChan_slUpd (s : State) (ch : Chan) (x : Chn) : (s.setChan ch x).slUpd = s.slUpd := rfl
@[simp] theorem State.setChan_thrs (s : State) (ch : Chan) (x : Chn) : (s.setChan ch x).thrs = s.thrs := rfl
@[simp] theorem State.setChan_board (s : State) (ch : Chan) (x : Chn) : (s.setChan ch x).board = s.board := rfl
@[simp] theorem State.setChan_boot (s : State) (ch : Chan) (x : Chn) : (s.setChan ch x).boot = s.boot := rfl
@[simp] theorem State.setChan_bootWarm (s : State) (ch : Chan) (x : Chn) : (s.setChan ch x).bootWarm = s.bootWarm := rfl
@[simp] theorem State.setChan_bootStart (s : State) (ch : Chan) (x : Chn) : (s.setChan ch x).bootStart = s.bootStart := rfl
@[simp] theorem State.setSub_tt (s : State) (k : Nat) (x : TtSub) : (s.setSub k x).tt = tset k x s.tt := rfl
@[simp] theorem State.setSub_pending (s : State) (k : Nat) (x : TtSub) : (s.setSub k x).pending = s.pending := rfl
@[simp] theorem State.setSub_regs (s : State) (k : Nat) (x : TtSub) : (s.setSub k x).regs = s.regs := rfl
@[simp] theorem State.setSub_rsp (s : State) (k : Nat) (x : TtSub) : (s.setSub k x).rsp = s.rsp := rfl
@[simp] theorem State.setSub_free (s : State) (k : Nat) (x : TtSub) : (s.setSub k x).free = s.free := rfl
@[simp] theorem State.setSub_net (s : State) (k : Nat) (x : TtSub) : (s.setSub k x).net = s.net := rfl
@[simp] theorem State.setSub_cores (s : State) (k : Nat) (x : TtSub) : (s.setSub k x).cores = s.cores := rfl
@[simp] theorem State.setSub_coreTick (s : State) (k : Nat) (x : TtSub) : (s.setSub k x).coreTick = s.coreTick := rfl
@[simp] theorem State.setSub_mem (s : State) (k : Nat) (x : TtSub) : (s.setSub k x).mem = s.mem := rfl
@[simp] theorem State.setSub_memEpoch (s : State) (k : Nat) (x : TtSub) : (s.setSub k x).memEpoch = s.memEpoch := rfl
@[simp] theorem State.setSub_badw (s : State) (k : Nat) (x : TtSub) : (s.setSub k x).badw = s.badw := rfl
@[simp] theorem State.setSub_flips (s : State) (k : Nat) (x : TtSub) : (s.setSub k x).flips = s.flips := rfl
@[simp] theorem State.setSub_ledger (s : State) (k : Nat) (x : TtSub) : (s.setSub k x).ledger = s.ledger := rfl
@[simp] theorem State.setSub_anchors (s : State) (k : Nat) (x : TtSub) : (s.setSub k x).anchors = s.anchors := rfl
@[simp] theorem State.setSub_zeroed (s : State) (k : Nat) (x : TtSub) : (s.setSub k x).zeroed = s.zeroed := rfl
@[simp] theorem State.setSub_slices (s : State) (k : Nat) (x : TtSub) : (s.setSub k x).slices = s.slices := rfl
@[simp] theorem State.setSub_lcs (s : State) (k : Nat) (x : TtSub) : (s.setSub k x).lcs = s.lcs := rfl
@[simp] theorem State.setSub_held (s : State) (k : Nat) (x : TtSub) : (s.setSub k x).held = s.held := rfl
@[simp] theorem State.setSub_lgops (s : State) (k : Nat) (x : TtSub) : (s.setSub k x).lgops = s.lgops := rfl
@[simp] theorem State.setSub_lgWait (s : State) (k : Nat) (x : TtSub) : (s.setSub k x).lgWait = s.lgWait := rfl
@[simp] theorem State.setSub_ecache (s : State) (k : Nat) (x : TtSub) : (s.setSub k x).ecache = s.ecache := rfl
@[simp] theorem State.setSub_recal (s : State) (k : Nat) (x : TtSub) : (s.setSub k x).recal = s.recal := rfl
@[simp] theorem State.setSub_tbt (s : State) (k : Nat) (x : TtSub) : (s.setSub k x).tbt = s.tbt := rfl
@[simp] theorem State.setSub_tbtNext (s : State) (k : Nat) (x : TtSub) : (s.setSub k x).tbtNext = s.tbtNext := rfl
@[simp] theorem State.setSub_spares (s : State) (k : Nat) (x : TtSub) : (s.setSub k x).spares = s.spares := rfl
@[simp] theorem State.setSub_waysOff (s : State) (k : Nat) (x : TtSub) : (s.setSub k x).waysOff = s.waysOff := rfl
@[simp] theorem State.setSub_recalNext (s : State) (k : Nat) (x : TtSub) : (s.setSub k x).recalNext = s.recalNext := rfl
@[simp] theorem State.setSub_dredge (s : State) (k : Nat) (x : TtSub) : (s.setSub k x).dredge = s.dredge := rfl
@[simp] theorem State.setSub_corr (s : State) (k : Nat) (x : TtSub) : (s.setSub k x).corr = s.corr := rfl
@[simp] theorem State.setSub_bg (s : State) (k : Nat) (x : TtSub) : (s.setSub k x).bg = s.bg := rfl
@[simp] theorem State.setSub_bgLast (s : State) (k : Nat) (x : TtSub) : (s.setSub k x).bgLast = s.bgLast := rfl
@[simp] theorem State.setSub_bgDefer (s : State) (k : Nat) (x : TtSub) : (s.setSub k x).bgDefer = s.bgDefer := rfl
@[simp] theorem State.setSub_ttIn (s : State) (k : Nat) (x : TtSub) : (s.setSub k x).ttIn = s.ttIn := rfl
@[simp] theorem State.setSub_snoops (s : State) (k : Nat) (x : TtSub) : (s.setSub k x).snoops = s.snoops := rfl
@[simp] theorem State.setSub_cwReqs (s : State) (k : Nat) (x : TtSub) : (s.setSub k x).cwReqs = s.cwReqs := rfl
@[simp] theorem State.setSub_cwBuf (s : State) (k : Nat) (x : TtSub) : (s.setSub k x).cwBuf = s.cwBuf := rfl
@[simp] theorem State.setSub_snaps (s : State) (k : Nat) (x : TtSub) : (s.setSub k x).snaps = s.snaps := rfl
@[simp] theorem State.setSub_kwaits (s : State) (k : Nat) (x : TtSub) : (s.setSub k x).kwaits = s.kwaits := rfl
@[simp] theorem State.setSub_harrs (s : State) (k : Nat) (x : TtSub) : (s.setSub k x).harrs = s.harrs := rfl
@[simp] theorem State.setSub_hheld (s : State) (k : Nat) (x : TtSub) : (s.setSub k x).hheld = s.hheld := rfl
@[simp] theorem State.setSub_hwaits (s : State) (k : Nat) (x : TtSub) : (s.setSub k x).hwaits = s.hwaits := rfl
@[simp] theorem State.setSub_xsent (s : State) (k : Nat) (x : TtSub) : (s.setSub k x).xsent = s.xsent := rfl
@[simp] theorem State.setSub_chans (s : State) (k : Nat) (x : TtSub) : (s.setSub k x).chans = s.chans := rfl
@[simp] theorem State.setSub_slus (s : State) (k : Nat) (x : TtSub) : (s.setSub k x).slus = s.slus := rfl
@[simp] theorem State.setSub_capRec (s : State) (k : Nat) (x : TtSub) : (s.setSub k x).capRec = s.capRec := rfl
@[simp] theorem State.setSub_capGone (s : State) (k : Nat) (x : TtSub) : (s.setSub k x).capGone = s.capGone := rfl
@[simp] theorem State.setSub_ports (s : State) (k : Nat) (x : TtSub) : (s.setSub k x).ports = s.ports := rfl
@[simp] theorem State.setSub_grps (s : State) (k : Nat) (x : TtSub) : (s.setSub k x).grps = s.grps := rfl
@[simp] theorem State.setSub_spwTo (s : State) (k : Nat) (x : TtSub) : (s.setSub k x).spwTo = s.spwTo := rfl
@[simp] theorem State.setSub_ddPend (s : State) (k : Nat) (x : TtSub) : (s.setSub k x).ddPend = s.ddPend := rfl
@[simp] theorem State.setSub_ciph (s : State) (k : Nat) (x : TtSub) : (s.setSub k x).ciph = s.ciph := rfl
@[simp] theorem State.setSub_cleat (s : State) (k : Nat) (x : TtSub) : (s.setSub k x).cleat = s.cleat := rfl
@[simp] theorem State.setSub_flash (s : State) (k : Nat) (x : TtSub) : (s.setSub k x).flash = s.flash := rfl
@[simp] theorem State.setSub_hgs (s : State) (k : Nat) (x : TtSub) : (s.setSub k x).hgs = s.hgs := rfl
@[simp] theorem State.setSub_fwrx (s : State) (k : Nat) (x : TtSub) : (s.setSub k x).fwrx = s.fwrx := rfl
@[simp] theorem State.setSub_swapOut (s : State) (k : Nat) (x : TtSub) : (s.setSub k x).swapOut = s.swapOut := rfl
@[simp] theorem State.setSub_slUpd (s : State) (k : Nat) (x : TtSub) : (s.setSub k x).slUpd = s.slUpd := rfl
@[simp] theorem State.setSub_thrs (s : State) (k : Nat) (x : TtSub) : (s.setSub k x).thrs = s.thrs := rfl
@[simp] theorem State.setSub_board (s : State) (k : Nat) (x : TtSub) : (s.setSub k x).board = s.board := rfl
@[simp] theorem State.setSub_boot (s : State) (k : Nat) (x : TtSub) : (s.setSub k x).boot = s.boot := rfl
@[simp] theorem State.setSub_bootWarm (s : State) (k : Nat) (x : TtSub) : (s.setSub k x).bootWarm = s.bootWarm := rfl
@[simp] theorem State.setSub_bootStart (s : State) (k : Nat) (x : TtSub) : (s.setSub k x).bootStart = s.bootStart := rfl
@[simp] theorem State.setLc_lcs (s : State) (n : Nat) (x : Lc) : (s.setLc n x).lcs = tset n x s.lcs := rfl
@[simp] theorem State.setLc_pending (s : State) (n : Nat) (x : Lc) : (s.setLc n x).pending = s.pending := rfl
@[simp] theorem State.setLc_regs (s : State) (n : Nat) (x : Lc) : (s.setLc n x).regs = s.regs := rfl
@[simp] theorem State.setLc_rsp (s : State) (n : Nat) (x : Lc) : (s.setLc n x).rsp = s.rsp := rfl
@[simp] theorem State.setLc_free (s : State) (n : Nat) (x : Lc) : (s.setLc n x).free = s.free := rfl
@[simp] theorem State.setLc_net (s : State) (n : Nat) (x : Lc) : (s.setLc n x).net = s.net := rfl
@[simp] theorem State.setLc_cores (s : State) (n : Nat) (x : Lc) : (s.setLc n x).cores = s.cores := rfl
@[simp] theorem State.setLc_coreTick (s : State) (n : Nat) (x : Lc) : (s.setLc n x).coreTick = s.coreTick := rfl
@[simp] theorem State.setLc_mem (s : State) (n : Nat) (x : Lc) : (s.setLc n x).mem = s.mem := rfl
@[simp] theorem State.setLc_memEpoch (s : State) (n : Nat) (x : Lc) : (s.setLc n x).memEpoch = s.memEpoch := rfl
@[simp] theorem State.setLc_badw (s : State) (n : Nat) (x : Lc) : (s.setLc n x).badw = s.badw := rfl
@[simp] theorem State.setLc_flips (s : State) (n : Nat) (x : Lc) : (s.setLc n x).flips = s.flips := rfl
@[simp] theorem State.setLc_ledger (s : State) (n : Nat) (x : Lc) : (s.setLc n x).ledger = s.ledger := rfl
@[simp] theorem State.setLc_anchors (s : State) (n : Nat) (x : Lc) : (s.setLc n x).anchors = s.anchors := rfl
@[simp] theorem State.setLc_zeroed (s : State) (n : Nat) (x : Lc) : (s.setLc n x).zeroed = s.zeroed := rfl
@[simp] theorem State.setLc_slices (s : State) (n : Nat) (x : Lc) : (s.setLc n x).slices = s.slices := rfl
@[simp] theorem State.setLc_held (s : State) (n : Nat) (x : Lc) : (s.setLc n x).held = s.held := rfl
@[simp] theorem State.setLc_lgops (s : State) (n : Nat) (x : Lc) : (s.setLc n x).lgops = s.lgops := rfl
@[simp] theorem State.setLc_lgWait (s : State) (n : Nat) (x : Lc) : (s.setLc n x).lgWait = s.lgWait := rfl
@[simp] theorem State.setLc_ecache (s : State) (n : Nat) (x : Lc) : (s.setLc n x).ecache = s.ecache := rfl
@[simp] theorem State.setLc_recal (s : State) (n : Nat) (x : Lc) : (s.setLc n x).recal = s.recal := rfl
@[simp] theorem State.setLc_tbt (s : State) (n : Nat) (x : Lc) : (s.setLc n x).tbt = s.tbt := rfl
@[simp] theorem State.setLc_tbtNext (s : State) (n : Nat) (x : Lc) : (s.setLc n x).tbtNext = s.tbtNext := rfl
@[simp] theorem State.setLc_spares (s : State) (n : Nat) (x : Lc) : (s.setLc n x).spares = s.spares := rfl
@[simp] theorem State.setLc_waysOff (s : State) (n : Nat) (x : Lc) : (s.setLc n x).waysOff = s.waysOff := rfl
@[simp] theorem State.setLc_recalNext (s : State) (n : Nat) (x : Lc) : (s.setLc n x).recalNext = s.recalNext := rfl
@[simp] theorem State.setLc_dredge (s : State) (n : Nat) (x : Lc) : (s.setLc n x).dredge = s.dredge := rfl
@[simp] theorem State.setLc_corr (s : State) (n : Nat) (x : Lc) : (s.setLc n x).corr = s.corr := rfl
@[simp] theorem State.setLc_bg (s : State) (n : Nat) (x : Lc) : (s.setLc n x).bg = s.bg := rfl
@[simp] theorem State.setLc_bgLast (s : State) (n : Nat) (x : Lc) : (s.setLc n x).bgLast = s.bgLast := rfl
@[simp] theorem State.setLc_bgDefer (s : State) (n : Nat) (x : Lc) : (s.setLc n x).bgDefer = s.bgDefer := rfl
@[simp] theorem State.setLc_tt (s : State) (n : Nat) (x : Lc) : (s.setLc n x).tt = s.tt := rfl
@[simp] theorem State.setLc_ttIn (s : State) (n : Nat) (x : Lc) : (s.setLc n x).ttIn = s.ttIn := rfl
@[simp] theorem State.setLc_snoops (s : State) (n : Nat) (x : Lc) : (s.setLc n x).snoops = s.snoops := rfl
@[simp] theorem State.setLc_cwReqs (s : State) (n : Nat) (x : Lc) : (s.setLc n x).cwReqs = s.cwReqs := rfl
@[simp] theorem State.setLc_cwBuf (s : State) (n : Nat) (x : Lc) : (s.setLc n x).cwBuf = s.cwBuf := rfl
@[simp] theorem State.setLc_snaps (s : State) (n : Nat) (x : Lc) : (s.setLc n x).snaps = s.snaps := rfl
@[simp] theorem State.setLc_kwaits (s : State) (n : Nat) (x : Lc) : (s.setLc n x).kwaits = s.kwaits := rfl
@[simp] theorem State.setLc_harrs (s : State) (n : Nat) (x : Lc) : (s.setLc n x).harrs = s.harrs := rfl
@[simp] theorem State.setLc_hheld (s : State) (n : Nat) (x : Lc) : (s.setLc n x).hheld = s.hheld := rfl
@[simp] theorem State.setLc_hwaits (s : State) (n : Nat) (x : Lc) : (s.setLc n x).hwaits = s.hwaits := rfl
@[simp] theorem State.setLc_xsent (s : State) (n : Nat) (x : Lc) : (s.setLc n x).xsent = s.xsent := rfl
@[simp] theorem State.setLc_chans (s : State) (n : Nat) (x : Lc) : (s.setLc n x).chans = s.chans := rfl
@[simp] theorem State.setLc_slus (s : State) (n : Nat) (x : Lc) : (s.setLc n x).slus = s.slus := rfl
@[simp] theorem State.setLc_capRec (s : State) (n : Nat) (x : Lc) : (s.setLc n x).capRec = s.capRec := rfl
@[simp] theorem State.setLc_capGone (s : State) (n : Nat) (x : Lc) : (s.setLc n x).capGone = s.capGone := rfl
@[simp] theorem State.setLc_ports (s : State) (n : Nat) (x : Lc) : (s.setLc n x).ports = s.ports := rfl
@[simp] theorem State.setLc_grps (s : State) (n : Nat) (x : Lc) : (s.setLc n x).grps = s.grps := rfl
@[simp] theorem State.setLc_spwTo (s : State) (n : Nat) (x : Lc) : (s.setLc n x).spwTo = s.spwTo := rfl
@[simp] theorem State.setLc_ddPend (s : State) (n : Nat) (x : Lc) : (s.setLc n x).ddPend = s.ddPend := rfl
@[simp] theorem State.setLc_ciph (s : State) (n : Nat) (x : Lc) : (s.setLc n x).ciph = s.ciph := rfl
@[simp] theorem State.setLc_cleat (s : State) (n : Nat) (x : Lc) : (s.setLc n x).cleat = s.cleat := rfl
@[simp] theorem State.setLc_flash (s : State) (n : Nat) (x : Lc) : (s.setLc n x).flash = s.flash := rfl
@[simp] theorem State.setLc_hgs (s : State) (n : Nat) (x : Lc) : (s.setLc n x).hgs = s.hgs := rfl
@[simp] theorem State.setLc_fwrx (s : State) (n : Nat) (x : Lc) : (s.setLc n x).fwrx = s.fwrx := rfl
@[simp] theorem State.setLc_swapOut (s : State) (n : Nat) (x : Lc) : (s.setLc n x).swapOut = s.swapOut := rfl
@[simp] theorem State.setLc_slUpd (s : State) (n : Nat) (x : Lc) : (s.setLc n x).slUpd = s.slUpd := rfl
@[simp] theorem State.setLc_thrs (s : State) (n : Nat) (x : Lc) : (s.setLc n x).thrs = s.thrs := rfl
@[simp] theorem State.setLc_board (s : State) (n : Nat) (x : Lc) : (s.setLc n x).board = s.board := rfl
@[simp] theorem State.setLc_boot (s : State) (n : Nat) (x : Lc) : (s.setLc n x).boot = s.boot := rfl
@[simp] theorem State.setLc_bootWarm (s : State) (n : Nat) (x : Lc) : (s.setLc n x).bootWarm = s.bootWarm := rfl
@[simp] theorem State.setLc_bootStart (s : State) (n : Nat) (x : Lc) : (s.setLc n x).bootStart = s.bootStart := rfl
@[simp] theorem State.setSnap_snaps (s : State) (p : Nat) (x : Snap) : (s.setSnap p x).snaps = tset p x s.snaps := rfl
@[simp] theorem State.setSnap_pending (s : State) (p : Nat) (x : Snap) : (s.setSnap p x).pending = s.pending := rfl
@[simp] theorem State.setSnap_regs (s : State) (p : Nat) (x : Snap) : (s.setSnap p x).regs = s.regs := rfl
@[simp] theorem State.setSnap_rsp (s : State) (p : Nat) (x : Snap) : (s.setSnap p x).rsp = s.rsp := rfl
@[simp] theorem State.setSnap_free (s : State) (p : Nat) (x : Snap) : (s.setSnap p x).free = s.free := rfl
@[simp] theorem State.setSnap_net (s : State) (p : Nat) (x : Snap) : (s.setSnap p x).net = s.net := rfl
@[simp] theorem State.setSnap_cores (s : State) (p : Nat) (x : Snap) : (s.setSnap p x).cores = s.cores := rfl
@[simp] theorem State.setSnap_coreTick (s : State) (p : Nat) (x : Snap) : (s.setSnap p x).coreTick = s.coreTick := rfl
@[simp] theorem State.setSnap_mem (s : State) (p : Nat) (x : Snap) : (s.setSnap p x).mem = s.mem := rfl
@[simp] theorem State.setSnap_memEpoch (s : State) (p : Nat) (x : Snap) : (s.setSnap p x).memEpoch = s.memEpoch := rfl
@[simp] theorem State.setSnap_badw (s : State) (p : Nat) (x : Snap) : (s.setSnap p x).badw = s.badw := rfl
@[simp] theorem State.setSnap_flips (s : State) (p : Nat) (x : Snap) : (s.setSnap p x).flips = s.flips := rfl
@[simp] theorem State.setSnap_ledger (s : State) (p : Nat) (x : Snap) : (s.setSnap p x).ledger = s.ledger := rfl
@[simp] theorem State.setSnap_anchors (s : State) (p : Nat) (x : Snap) : (s.setSnap p x).anchors = s.anchors := rfl
@[simp] theorem State.setSnap_zeroed (s : State) (p : Nat) (x : Snap) : (s.setSnap p x).zeroed = s.zeroed := rfl
@[simp] theorem State.setSnap_slices (s : State) (p : Nat) (x : Snap) : (s.setSnap p x).slices = s.slices := rfl
@[simp] theorem State.setSnap_lcs (s : State) (p : Nat) (x : Snap) : (s.setSnap p x).lcs = s.lcs := rfl
@[simp] theorem State.setSnap_held (s : State) (p : Nat) (x : Snap) : (s.setSnap p x).held = s.held := rfl
@[simp] theorem State.setSnap_lgops (s : State) (p : Nat) (x : Snap) : (s.setSnap p x).lgops = s.lgops := rfl
@[simp] theorem State.setSnap_lgWait (s : State) (p : Nat) (x : Snap) : (s.setSnap p x).lgWait = s.lgWait := rfl
@[simp] theorem State.setSnap_ecache (s : State) (p : Nat) (x : Snap) : (s.setSnap p x).ecache = s.ecache := rfl
@[simp] theorem State.setSnap_recal (s : State) (p : Nat) (x : Snap) : (s.setSnap p x).recal = s.recal := rfl
@[simp] theorem State.setSnap_tbt (s : State) (p : Nat) (x : Snap) : (s.setSnap p x).tbt = s.tbt := rfl
@[simp] theorem State.setSnap_tbtNext (s : State) (p : Nat) (x : Snap) : (s.setSnap p x).tbtNext = s.tbtNext := rfl
@[simp] theorem State.setSnap_spares (s : State) (p : Nat) (x : Snap) : (s.setSnap p x).spares = s.spares := rfl
@[simp] theorem State.setSnap_waysOff (s : State) (p : Nat) (x : Snap) : (s.setSnap p x).waysOff = s.waysOff := rfl
@[simp] theorem State.setSnap_recalNext (s : State) (p : Nat) (x : Snap) : (s.setSnap p x).recalNext = s.recalNext := rfl
@[simp] theorem State.setSnap_dredge (s : State) (p : Nat) (x : Snap) : (s.setSnap p x).dredge = s.dredge := rfl
@[simp] theorem State.setSnap_corr (s : State) (p : Nat) (x : Snap) : (s.setSnap p x).corr = s.corr := rfl
@[simp] theorem State.setSnap_bg (s : State) (p : Nat) (x : Snap) : (s.setSnap p x).bg = s.bg := rfl
@[simp] theorem State.setSnap_bgLast (s : State) (p : Nat) (x : Snap) : (s.setSnap p x).bgLast = s.bgLast := rfl
@[simp] theorem State.setSnap_bgDefer (s : State) (p : Nat) (x : Snap) : (s.setSnap p x).bgDefer = s.bgDefer := rfl
@[simp] theorem State.setSnap_tt (s : State) (p : Nat) (x : Snap) : (s.setSnap p x).tt = s.tt := rfl
@[simp] theorem State.setSnap_ttIn (s : State) (p : Nat) (x : Snap) : (s.setSnap p x).ttIn = s.ttIn := rfl
@[simp] theorem State.setSnap_snoops (s : State) (p : Nat) (x : Snap) : (s.setSnap p x).snoops = s.snoops := rfl
@[simp] theorem State.setSnap_cwReqs (s : State) (p : Nat) (x : Snap) : (s.setSnap p x).cwReqs = s.cwReqs := rfl
@[simp] theorem State.setSnap_cwBuf (s : State) (p : Nat) (x : Snap) : (s.setSnap p x).cwBuf = s.cwBuf := rfl
@[simp] theorem State.setSnap_kwaits (s : State) (p : Nat) (x : Snap) : (s.setSnap p x).kwaits = s.kwaits := rfl
@[simp] theorem State.setSnap_harrs (s : State) (p : Nat) (x : Snap) : (s.setSnap p x).harrs = s.harrs := rfl
@[simp] theorem State.setSnap_hheld (s : State) (p : Nat) (x : Snap) : (s.setSnap p x).hheld = s.hheld := rfl
@[simp] theorem State.setSnap_hwaits (s : State) (p : Nat) (x : Snap) : (s.setSnap p x).hwaits = s.hwaits := rfl
@[simp] theorem State.setSnap_xsent (s : State) (p : Nat) (x : Snap) : (s.setSnap p x).xsent = s.xsent := rfl
@[simp] theorem State.setSnap_chans (s : State) (p : Nat) (x : Snap) : (s.setSnap p x).chans = s.chans := rfl
@[simp] theorem State.setSnap_slus (s : State) (p : Nat) (x : Snap) : (s.setSnap p x).slus = s.slus := rfl
@[simp] theorem State.setSnap_capRec (s : State) (p : Nat) (x : Snap) : (s.setSnap p x).capRec = s.capRec := rfl
@[simp] theorem State.setSnap_capGone (s : State) (p : Nat) (x : Snap) : (s.setSnap p x).capGone = s.capGone := rfl
@[simp] theorem State.setSnap_ports (s : State) (p : Nat) (x : Snap) : (s.setSnap p x).ports = s.ports := rfl
@[simp] theorem State.setSnap_grps (s : State) (p : Nat) (x : Snap) : (s.setSnap p x).grps = s.grps := rfl
@[simp] theorem State.setSnap_spwTo (s : State) (p : Nat) (x : Snap) : (s.setSnap p x).spwTo = s.spwTo := rfl
@[simp] theorem State.setSnap_ddPend (s : State) (p : Nat) (x : Snap) : (s.setSnap p x).ddPend = s.ddPend := rfl
@[simp] theorem State.setSnap_ciph (s : State) (p : Nat) (x : Snap) : (s.setSnap p x).ciph = s.ciph := rfl
@[simp] theorem State.setSnap_cleat (s : State) (p : Nat) (x : Snap) : (s.setSnap p x).cleat = s.cleat := rfl
@[simp] theorem State.setSnap_flash (s : State) (p : Nat) (x : Snap) : (s.setSnap p x).flash = s.flash := rfl
@[simp] theorem State.setSnap_hgs (s : State) (p : Nat) (x : Snap) : (s.setSnap p x).hgs = s.hgs := rfl
@[simp] theorem State.setSnap_fwrx (s : State) (p : Nat) (x : Snap) : (s.setSnap p x).fwrx = s.fwrx := rfl
@[simp] theorem State.setSnap_swapOut (s : State) (p : Nat) (x : Snap) : (s.setSnap p x).swapOut = s.swapOut := rfl
@[simp] theorem State.setSnap_slUpd (s : State) (p : Nat) (x : Snap) : (s.setSnap p x).slUpd = s.slUpd := rfl
@[simp] theorem State.setSnap_thrs (s : State) (p : Nat) (x : Snap) : (s.setSnap p x).thrs = s.thrs := rfl
@[simp] theorem State.setSnap_board (s : State) (p : Nat) (x : Snap) : (s.setSnap p x).board = s.board := rfl
@[simp] theorem State.setSnap_boot (s : State) (p : Nat) (x : Snap) : (s.setSnap p x).boot = s.boot := rfl
@[simp] theorem State.setSnap_bootWarm (s : State) (p : Nat) (x : Snap) : (s.setSnap p x).bootWarm = s.bootWarm := rfl
@[simp] theorem State.setSnap_bootStart (s : State) (p : Nat) (x : Snap) : (s.setSnap p x).bootStart = s.bootStart := rfl
@[simp] theorem State.setSlu_slus (s : State) (n : Nat) (x : Slu) : (s.setSlu n x).slus = tset n x s.slus := rfl
@[simp] theorem State.setSlu_pending (s : State) (n : Nat) (x : Slu) : (s.setSlu n x).pending = s.pending := rfl
@[simp] theorem State.setSlu_regs (s : State) (n : Nat) (x : Slu) : (s.setSlu n x).regs = s.regs := rfl
@[simp] theorem State.setSlu_rsp (s : State) (n : Nat) (x : Slu) : (s.setSlu n x).rsp = s.rsp := rfl
@[simp] theorem State.setSlu_free (s : State) (n : Nat) (x : Slu) : (s.setSlu n x).free = s.free := rfl
@[simp] theorem State.setSlu_net (s : State) (n : Nat) (x : Slu) : (s.setSlu n x).net = s.net := rfl
@[simp] theorem State.setSlu_cores (s : State) (n : Nat) (x : Slu) : (s.setSlu n x).cores = s.cores := rfl
@[simp] theorem State.setSlu_coreTick (s : State) (n : Nat) (x : Slu) : (s.setSlu n x).coreTick = s.coreTick := rfl
@[simp] theorem State.setSlu_mem (s : State) (n : Nat) (x : Slu) : (s.setSlu n x).mem = s.mem := rfl
@[simp] theorem State.setSlu_memEpoch (s : State) (n : Nat) (x : Slu) : (s.setSlu n x).memEpoch = s.memEpoch := rfl
@[simp] theorem State.setSlu_badw (s : State) (n : Nat) (x : Slu) : (s.setSlu n x).badw = s.badw := rfl
@[simp] theorem State.setSlu_flips (s : State) (n : Nat) (x : Slu) : (s.setSlu n x).flips = s.flips := rfl
@[simp] theorem State.setSlu_ledger (s : State) (n : Nat) (x : Slu) : (s.setSlu n x).ledger = s.ledger := rfl
@[simp] theorem State.setSlu_anchors (s : State) (n : Nat) (x : Slu) : (s.setSlu n x).anchors = s.anchors := rfl
@[simp] theorem State.setSlu_zeroed (s : State) (n : Nat) (x : Slu) : (s.setSlu n x).zeroed = s.zeroed := rfl
@[simp] theorem State.setSlu_slices (s : State) (n : Nat) (x : Slu) : (s.setSlu n x).slices = s.slices := rfl
@[simp] theorem State.setSlu_lcs (s : State) (n : Nat) (x : Slu) : (s.setSlu n x).lcs = s.lcs := rfl
@[simp] theorem State.setSlu_held (s : State) (n : Nat) (x : Slu) : (s.setSlu n x).held = s.held := rfl
@[simp] theorem State.setSlu_lgops (s : State) (n : Nat) (x : Slu) : (s.setSlu n x).lgops = s.lgops := rfl
@[simp] theorem State.setSlu_lgWait (s : State) (n : Nat) (x : Slu) : (s.setSlu n x).lgWait = s.lgWait := rfl
@[simp] theorem State.setSlu_ecache (s : State) (n : Nat) (x : Slu) : (s.setSlu n x).ecache = s.ecache := rfl
@[simp] theorem State.setSlu_recal (s : State) (n : Nat) (x : Slu) : (s.setSlu n x).recal = s.recal := rfl
@[simp] theorem State.setSlu_tbt (s : State) (n : Nat) (x : Slu) : (s.setSlu n x).tbt = s.tbt := rfl
@[simp] theorem State.setSlu_tbtNext (s : State) (n : Nat) (x : Slu) : (s.setSlu n x).tbtNext = s.tbtNext := rfl
@[simp] theorem State.setSlu_spares (s : State) (n : Nat) (x : Slu) : (s.setSlu n x).spares = s.spares := rfl
@[simp] theorem State.setSlu_waysOff (s : State) (n : Nat) (x : Slu) : (s.setSlu n x).waysOff = s.waysOff := rfl
@[simp] theorem State.setSlu_recalNext (s : State) (n : Nat) (x : Slu) : (s.setSlu n x).recalNext = s.recalNext := rfl
@[simp] theorem State.setSlu_dredge (s : State) (n : Nat) (x : Slu) : (s.setSlu n x).dredge = s.dredge := rfl
@[simp] theorem State.setSlu_corr (s : State) (n : Nat) (x : Slu) : (s.setSlu n x).corr = s.corr := rfl
@[simp] theorem State.setSlu_bg (s : State) (n : Nat) (x : Slu) : (s.setSlu n x).bg = s.bg := rfl
@[simp] theorem State.setSlu_bgLast (s : State) (n : Nat) (x : Slu) : (s.setSlu n x).bgLast = s.bgLast := rfl
@[simp] theorem State.setSlu_bgDefer (s : State) (n : Nat) (x : Slu) : (s.setSlu n x).bgDefer = s.bgDefer := rfl
@[simp] theorem State.setSlu_tt (s : State) (n : Nat) (x : Slu) : (s.setSlu n x).tt = s.tt := rfl
@[simp] theorem State.setSlu_ttIn (s : State) (n : Nat) (x : Slu) : (s.setSlu n x).ttIn = s.ttIn := rfl
@[simp] theorem State.setSlu_snoops (s : State) (n : Nat) (x : Slu) : (s.setSlu n x).snoops = s.snoops := rfl
@[simp] theorem State.setSlu_cwReqs (s : State) (n : Nat) (x : Slu) : (s.setSlu n x).cwReqs = s.cwReqs := rfl
@[simp] theorem State.setSlu_cwBuf (s : State) (n : Nat) (x : Slu) : (s.setSlu n x).cwBuf = s.cwBuf := rfl
@[simp] theorem State.setSlu_snaps (s : State) (n : Nat) (x : Slu) : (s.setSlu n x).snaps = s.snaps := rfl
@[simp] theorem State.setSlu_kwaits (s : State) (n : Nat) (x : Slu) : (s.setSlu n x).kwaits = s.kwaits := rfl
@[simp] theorem State.setSlu_harrs (s : State) (n : Nat) (x : Slu) : (s.setSlu n x).harrs = s.harrs := rfl
@[simp] theorem State.setSlu_hheld (s : State) (n : Nat) (x : Slu) : (s.setSlu n x).hheld = s.hheld := rfl
@[simp] theorem State.setSlu_hwaits (s : State) (n : Nat) (x : Slu) : (s.setSlu n x).hwaits = s.hwaits := rfl
@[simp] theorem State.setSlu_xsent (s : State) (n : Nat) (x : Slu) : (s.setSlu n x).xsent = s.xsent := rfl
@[simp] theorem State.setSlu_chans (s : State) (n : Nat) (x : Slu) : (s.setSlu n x).chans = s.chans := rfl
@[simp] theorem State.setSlu_capRec (s : State) (n : Nat) (x : Slu) : (s.setSlu n x).capRec = s.capRec := rfl
@[simp] theorem State.setSlu_capGone (s : State) (n : Nat) (x : Slu) : (s.setSlu n x).capGone = s.capGone := rfl
@[simp] theorem State.setSlu_ports (s : State) (n : Nat) (x : Slu) : (s.setSlu n x).ports = s.ports := rfl
@[simp] theorem State.setSlu_grps (s : State) (n : Nat) (x : Slu) : (s.setSlu n x).grps = s.grps := rfl
@[simp] theorem State.setSlu_spwTo (s : State) (n : Nat) (x : Slu) : (s.setSlu n x).spwTo = s.spwTo := rfl
@[simp] theorem State.setSlu_ddPend (s : State) (n : Nat) (x : Slu) : (s.setSlu n x).ddPend = s.ddPend := rfl
@[simp] theorem State.setSlu_ciph (s : State) (n : Nat) (x : Slu) : (s.setSlu n x).ciph = s.ciph := rfl
@[simp] theorem State.setSlu_cleat (s : State) (n : Nat) (x : Slu) : (s.setSlu n x).cleat = s.cleat := rfl
@[simp] theorem State.setSlu_flash (s : State) (n : Nat) (x : Slu) : (s.setSlu n x).flash = s.flash := rfl
@[simp] theorem State.setSlu_hgs (s : State) (n : Nat) (x : Slu) : (s.setSlu n x).hgs = s.hgs := rfl
@[simp] theorem State.setSlu_fwrx (s : State) (n : Nat) (x : Slu) : (s.setSlu n x).fwrx = s.fwrx := rfl
@[simp] theorem State.setSlu_swapOut (s : State) (n : Nat) (x : Slu) : (s.setSlu n x).swapOut = s.swapOut := rfl
@[simp] theorem State.setSlu_slUpd (s : State) (n : Nat) (x : Slu) : (s.setSlu n x).slUpd = s.slUpd := rfl
@[simp] theorem State.setSlu_thrs (s : State) (n : Nat) (x : Slu) : (s.setSlu n x).thrs = s.thrs := rfl
@[simp] theorem State.setSlu_board (s : State) (n : Nat) (x : Slu) : (s.setSlu n x).board = s.board := rfl
@[simp] theorem State.setSlu_boot (s : State) (n : Nat) (x : Slu) : (s.setSlu n x).boot = s.boot := rfl
@[simp] theorem State.setSlu_bootWarm (s : State) (n : Nat) (x : Slu) : (s.setSlu n x).bootWarm = s.bootWarm := rfl
@[simp] theorem State.setSlu_bootStart (s : State) (n : Nat) (x : Slu) : (s.setSlu n x).bootStart = s.bootStart := rfl
@[simp] theorem State.setFld_pending (s : State) (a : Nat) (f : Fld) (x : Nat) : (s.setFld a f x).pending = s.pending := rfl
@[simp] theorem State.setFld_rsp (s : State) (a : Nat) (f : Fld) (x : Nat) : (s.setFld a f x).rsp = s.rsp := rfl
@[simp] theorem State.setFld_free (s : State) (a : Nat) (f : Fld) (x : Nat) : (s.setFld a f x).free = s.free := rfl
@[simp] theorem State.setFld_net (s : State) (a : Nat) (f : Fld) (x : Nat) : (s.setFld a f x).net = s.net := rfl
@[simp] theorem State.setFld_cores (s : State) (a : Nat) (f : Fld) (x : Nat) : (s.setFld a f x).cores = s.cores := rfl
@[simp] theorem State.setFld_mem (s : State) (a : Nat) (f : Fld) (x : Nat) : (s.setFld a f x).mem = s.mem := rfl
@[simp] theorem State.setFld_memEpoch (s : State) (a : Nat) (f : Fld) (x : Nat) : (s.setFld a f x).memEpoch = s.memEpoch := rfl
@[simp] theorem State.setFld_badw (s : State) (a : Nat) (f : Fld) (x : Nat) : (s.setFld a f x).badw = s.badw := rfl
@[simp] theorem State.setFld_flips (s : State) (a : Nat) (f : Fld) (x : Nat) : (s.setFld a f x).flips = s.flips := rfl
@[simp] theorem State.setFld_ledger (s : State) (a : Nat) (f : Fld) (x : Nat) : (s.setFld a f x).ledger = s.ledger := rfl
@[simp] theorem State.setFld_zeroed (s : State) (a : Nat) (f : Fld) (x : Nat) : (s.setFld a f x).zeroed = s.zeroed := rfl
@[simp] theorem State.setFld_slices (s : State) (a : Nat) (f : Fld) (x : Nat) : (s.setFld a f x).slices = s.slices := rfl
@[simp] theorem State.setFld_held (s : State) (a : Nat) (f : Fld) (x : Nat) : (s.setFld a f x).held = s.held := rfl
@[simp] theorem State.setFld_chans (s : State) (a : Nat) (f : Fld) (x : Nat) : (s.setFld a f x).chans = s.chans := rfl
@[simp] theorem State.setFld_slus (s : State) (a : Nat) (f : Fld) (x : Nat) : (s.setFld a f x).slus = s.slus := rfl
@[simp] theorem State.setFld_coreTick (s : State) (a : Nat) (f : Fld) (x : Nat) : (s.setFld a f x).coreTick = s.coreTick := rfl
@[simp] theorem State.setFlag_pending (s : State) (a : Nat) (f : Fld) (b : Bool) : (s.setFlag a f b).pending = s.pending := rfl
@[simp] theorem State.setFlag_rsp (s : State) (a : Nat) (f : Fld) (b : Bool) : (s.setFlag a f b).rsp = s.rsp := rfl
@[simp] theorem State.setFlag_free (s : State) (a : Nat) (f : Fld) (b : Bool) : (s.setFlag a f b).free = s.free := rfl
@[simp] theorem State.setFlag_net (s : State) (a : Nat) (f : Fld) (b : Bool) : (s.setFlag a f b).net = s.net := rfl
@[simp] theorem State.setFlag_cores (s : State) (a : Nat) (f : Fld) (b : Bool) : (s.setFlag a f b).cores = s.cores := rfl
@[simp] theorem State.setFlag_mem (s : State) (a : Nat) (f : Fld) (b : Bool) : (s.setFlag a f b).mem = s.mem := rfl
@[simp] theorem State.setFlag_memEpoch (s : State) (a : Nat) (f : Fld) (b : Bool) : (s.setFlag a f b).memEpoch = s.memEpoch := rfl
@[simp] theorem State.setFlag_badw (s : State) (a : Nat) (f : Fld) (b : Bool) : (s.setFlag a f b).badw = s.badw := rfl
@[simp] theorem State.setFlag_flips (s : State) (a : Nat) (f : Fld) (b : Bool) : (s.setFlag a f b).flips = s.flips := rfl
@[simp] theorem State.setFlag_ledger (s : State) (a : Nat) (f : Fld) (b : Bool) : (s.setFlag a f b).ledger = s.ledger := rfl
@[simp] theorem State.setFlag_zeroed (s : State) (a : Nat) (f : Fld) (b : Bool) : (s.setFlag a f b).zeroed = s.zeroed := rfl
@[simp] theorem State.setFlag_slices (s : State) (a : Nat) (f : Fld) (b : Bool) : (s.setFlag a f b).slices = s.slices := rfl
@[simp] theorem State.setFlag_held (s : State) (a : Nat) (f : Fld) (b : Bool) : (s.setFlag a f b).held = s.held := rfl
@[simp] theorem State.setFlag_chans (s : State) (a : Nat) (f : Fld) (b : Bool) : (s.setFlag a f b).chans = s.chans := rfl
@[simp] theorem State.setFlag_slus (s : State) (a : Nat) (f : Fld) (b : Bool) : (s.setFlag a f b).slus = s.slus := rfl
@[simp] theorem State.setFlag_coreTick (s : State) (a : Nat) (f : Fld) (b : Bool) : (s.setFlag a f b).coreTick = s.coreTick := rfl
@[simp] theorem State.count_pending (s : State) (a n : Nat) : (s.count a n).pending = s.pending := rfl
@[simp] theorem State.count_rsp (s : State) (a n : Nat) : (s.count a n).rsp = s.rsp := rfl
@[simp] theorem State.count_free (s : State) (a n : Nat) : (s.count a n).free = s.free := rfl
@[simp] theorem State.count_net (s : State) (a n : Nat) : (s.count a n).net = s.net := rfl
@[simp] theorem State.count_cores (s : State) (a n : Nat) : (s.count a n).cores = s.cores := rfl
@[simp] theorem State.count_mem (s : State) (a n : Nat) : (s.count a n).mem = s.mem := rfl
@[simp] theorem State.count_memEpoch (s : State) (a n : Nat) : (s.count a n).memEpoch = s.memEpoch := rfl
@[simp] theorem State.count_badw (s : State) (a n : Nat) : (s.count a n).badw = s.badw := rfl
@[simp] theorem State.count_flips (s : State) (a n : Nat) : (s.count a n).flips = s.flips := rfl
@[simp] theorem State.count_ledger (s : State) (a n : Nat) : (s.count a n).ledger = s.ledger := rfl
@[simp] theorem State.count_zeroed (s : State) (a n : Nat) : (s.count a n).zeroed = s.zeroed := rfl
@[simp] theorem State.count_slices (s : State) (a n : Nat) : (s.count a n).slices = s.slices := rfl
@[simp] theorem State.count_held (s : State) (a n : Nat) : (s.count a n).held = s.held := rfl
@[simp] theorem State.count_chans (s : State) (a n : Nat) : (s.count a n).chans = s.chans := rfl
@[simp] theorem State.count_slus (s : State) (a n : Nat) : (s.count a n).slus = s.slus := rfl
@[simp] theorem State.count_coreTick (s : State) (a n : Nat) : (s.count a n).coreTick = s.coreTick := rfl
@[simp] theorem State.countSat_pending (s : State) (a : Nat) (f : Fld) (n : Nat) : (s.countSat a f n).pending = s.pending := rfl
@[simp] theorem State.countSat_rsp (s : State) (a : Nat) (f : Fld) (n : Nat) : (s.countSat a f n).rsp = s.rsp := rfl
@[simp] theorem State.countSat_free (s : State) (a : Nat) (f : Fld) (n : Nat) : (s.countSat a f n).free = s.free := rfl
@[simp] theorem State.countSat_net (s : State) (a : Nat) (f : Fld) (n : Nat) : (s.countSat a f n).net = s.net := rfl
@[simp] theorem State.countSat_cores (s : State) (a : Nat) (f : Fld) (n : Nat) : (s.countSat a f n).cores = s.cores := rfl
@[simp] theorem State.countSat_mem (s : State) (a : Nat) (f : Fld) (n : Nat) : (s.countSat a f n).mem = s.mem := rfl
@[simp] theorem State.countSat_memEpoch (s : State) (a : Nat) (f : Fld) (n : Nat) : (s.countSat a f n).memEpoch = s.memEpoch := rfl
@[simp] theorem State.countSat_badw (s : State) (a : Nat) (f : Fld) (n : Nat) : (s.countSat a f n).badw = s.badw := rfl
@[simp] theorem State.countSat_flips (s : State) (a : Nat) (f : Fld) (n : Nat) : (s.countSat a f n).flips = s.flips := rfl
@[simp] theorem State.countSat_ledger (s : State) (a : Nat) (f : Fld) (n : Nat) : (s.countSat a f n).ledger = s.ledger := rfl
@[simp] theorem State.countSat_zeroed (s : State) (a : Nat) (f : Fld) (n : Nat) : (s.countSat a f n).zeroed = s.zeroed := rfl
@[simp] theorem State.countSat_slices (s : State) (a : Nat) (f : Fld) (n : Nat) : (s.countSat a f n).slices = s.slices := rfl
@[simp] theorem State.countSat_held (s : State) (a : Nat) (f : Fld) (n : Nat) : (s.countSat a f n).held = s.held := rfl
@[simp] theorem State.countSat_chans (s : State) (a : Nat) (f : Fld) (n : Nat) : (s.countSat a f n).chans = s.chans := rfl
@[simp] theorem State.countSat_slus (s : State) (a : Nat) (f : Fld) (n : Nat) : (s.countSat a f n).slus = s.slus := rfl
@[simp] theorem State.countSat_coreTick (s : State) (a : Nat) (f : Fld) (n : Nat) : (s.countSat a f n).coreTick = s.coreTick := rfl
@[simp] theorem State.modCore_pending (s : State) (c : Nat) (f : Core → Core) : (s.modCore c f).pending = s.pending := rfl
@[simp] theorem State.modCore_regs (s : State) (c : Nat) (f : Core → Core) : (s.modCore c f).regs = s.regs := rfl
@[simp] theorem State.modCore_rsp (s : State) (c : Nat) (f : Core → Core) : (s.modCore c f).rsp = s.rsp := rfl
@[simp] theorem State.modCore_free (s : State) (c : Nat) (f : Core → Core) : (s.modCore c f).free = s.free := rfl
@[simp] theorem State.modCore_net (s : State) (c : Nat) (f : Core → Core) : (s.modCore c f).net = s.net := rfl
@[simp] theorem State.modCore_mem (s : State) (c : Nat) (f : Core → Core) : (s.modCore c f).mem = s.mem := rfl
@[simp] theorem State.modCore_memEpoch (s : State) (c : Nat) (f : Core → Core) : (s.modCore c f).memEpoch = s.memEpoch := rfl
@[simp] theorem State.modCore_badw (s : State) (c : Nat) (f : Core → Core) : (s.modCore c f).badw = s.badw := rfl
@[simp] theorem State.modCore_flips (s : State) (c : Nat) (f : Core → Core) : (s.modCore c f).flips = s.flips := rfl
@[simp] theorem State.modCore_ledger (s : State) (c : Nat) (f : Core → Core) : (s.modCore c f).ledger = s.ledger := rfl
@[simp] theorem State.modCore_zeroed (s : State) (c : Nat) (f : Core → Core) : (s.modCore c f).zeroed = s.zeroed := rfl
@[simp] theorem State.modCore_slices (s : State) (c : Nat) (f : Core → Core) : (s.modCore c f).slices = s.slices := rfl
@[simp] theorem State.modCore_held (s : State) (c : Nat) (f : Core → Core) : (s.modCore c f).held = s.held := rfl
@[simp] theorem State.modCore_chans (s : State) (c : Nat) (f : Core → Core) : (s.modCore c f).chans = s.chans := rfl
@[simp] theorem State.modCore_slus (s : State) (c : Nat) (f : Core → Core) : (s.modCore c f).slus = s.slus := rfl
@[simp] theorem State.modCore_coreTick (s : State) (c : Nat) (f : Core → Core) : (s.modCore c f).coreTick = s.coreTick := rfl
@[simp] theorem State.modCtx_pending (s : State) (c i : Nat) (f : Ctx → Ctx) : (s.modCtx c i f).pending = s.pending := rfl
@[simp] theorem State.modCtx_regs (s : State) (c i : Nat) (f : Ctx → Ctx) : (s.modCtx c i f).regs = s.regs := rfl
@[simp] theorem State.modCtx_rsp (s : State) (c i : Nat) (f : Ctx → Ctx) : (s.modCtx c i f).rsp = s.rsp := rfl
@[simp] theorem State.modCtx_free (s : State) (c i : Nat) (f : Ctx → Ctx) : (s.modCtx c i f).free = s.free := rfl
@[simp] theorem State.modCtx_net (s : State) (c i : Nat) (f : Ctx → Ctx) : (s.modCtx c i f).net = s.net := rfl
@[simp] theorem State.modCtx_mem (s : State) (c i : Nat) (f : Ctx → Ctx) : (s.modCtx c i f).mem = s.mem := rfl
@[simp] theorem State.modCtx_memEpoch (s : State) (c i : Nat) (f : Ctx → Ctx) : (s.modCtx c i f).memEpoch = s.memEpoch := rfl
@[simp] theorem State.modCtx_badw (s : State) (c i : Nat) (f : Ctx → Ctx) : (s.modCtx c i f).badw = s.badw := rfl
@[simp] theorem State.modCtx_flips (s : State) (c i : Nat) (f : Ctx → Ctx) : (s.modCtx c i f).flips = s.flips := rfl
@[simp] theorem State.modCtx_ledger (s : State) (c i : Nat) (f : Ctx → Ctx) : (s.modCtx c i f).ledger = s.ledger := rfl
@[simp] theorem State.modCtx_zeroed (s : State) (c i : Nat) (f : Ctx → Ctx) : (s.modCtx c i f).zeroed = s.zeroed := rfl
@[simp] theorem State.modCtx_slices (s : State) (c i : Nat) (f : Ctx → Ctx) : (s.modCtx c i f).slices = s.slices := rfl
@[simp] theorem State.modCtx_held (s : State) (c i : Nat) (f : Ctx → Ctx) : (s.modCtx c i f).held = s.held := rfl
@[simp] theorem State.modCtx_chans (s : State) (c i : Nat) (f : Ctx → Ctx) : (s.modCtx c i f).chans = s.chans := rfl
@[simp] theorem State.modCtx_slus (s : State) (c i : Nat) (f : Ctx → Ctx) : (s.modCtx c i f).slus = s.slus := rfl
@[simp] theorem State.modCtx_coreTick (s : State) (c i : Nat) (f : Ctx → Ctx) : (s.modCtx c i f).coreTick = s.coreTick := rfl
@[simp] theorem State.modCur_pending (s : State) (c : Nat) (f : Ctx → Ctx) : (s.modCur c f).pending = s.pending := rfl
@[simp] theorem State.modCur_regs (s : State) (c : Nat) (f : Ctx → Ctx) : (s.modCur c f).regs = s.regs := rfl
@[simp] theorem State.modCur_rsp (s : State) (c : Nat) (f : Ctx → Ctx) : (s.modCur c f).rsp = s.rsp := rfl
@[simp] theorem State.modCur_free (s : State) (c : Nat) (f : Ctx → Ctx) : (s.modCur c f).free = s.free := rfl
@[simp] theorem State.modCur_net (s : State) (c : Nat) (f : Ctx → Ctx) : (s.modCur c f).net = s.net := rfl
@[simp] theorem State.modCur_mem (s : State) (c : Nat) (f : Ctx → Ctx) : (s.modCur c f).mem = s.mem := rfl
@[simp] theorem State.modCur_memEpoch (s : State) (c : Nat) (f : Ctx → Ctx) : (s.modCur c f).memEpoch = s.memEpoch := rfl
@[simp] theorem State.modCur_badw (s : State) (c : Nat) (f : Ctx → Ctx) : (s.modCur c f).badw = s.badw := rfl
@[simp] theorem State.modCur_flips (s : State) (c : Nat) (f : Ctx → Ctx) : (s.modCur c f).flips = s.flips := rfl
@[simp] theorem State.modCur_ledger (s : State) (c : Nat) (f : Ctx → Ctx) : (s.modCur c f).ledger = s.ledger := rfl
@[simp] theorem State.modCur_zeroed (s : State) (c : Nat) (f : Ctx → Ctx) : (s.modCur c f).zeroed = s.zeroed := rfl
@[simp] theorem State.modCur_slices (s : State) (c : Nat) (f : Ctx → Ctx) : (s.modCur c f).slices = s.slices := rfl
@[simp] theorem State.modCur_held (s : State) (c : Nat) (f : Ctx → Ctx) : (s.modCur c f).held = s.held := rfl
@[simp] theorem State.modCur_chans (s : State) (c : Nat) (f : Ctx → Ctx) : (s.modCur c f).chans = s.chans := rfl
@[simp] theorem State.modCur_slus (s : State) (c : Nat) (f : Ctx → Ctx) : (s.modCur c f).slus = s.slus := rfl
@[simp] theorem State.modCur_coreTick (s : State) (c : Nat) (f : Ctx → Ctx) : (s.modCur c f).coreTick = s.coreTick := rfl
@[simp] theorem State.modEng_pending (s : State) (c : Nat) (f : Eng → Eng) : (s.modEng c f).pending = s.pending := rfl
@[simp] theorem State.modEng_regs (s : State) (c : Nat) (f : Eng → Eng) : (s.modEng c f).regs = s.regs := rfl
@[simp] theorem State.modEng_rsp (s : State) (c : Nat) (f : Eng → Eng) : (s.modEng c f).rsp = s.rsp := rfl
@[simp] theorem State.modEng_free (s : State) (c : Nat) (f : Eng → Eng) : (s.modEng c f).free = s.free := rfl
@[simp] theorem State.modEng_net (s : State) (c : Nat) (f : Eng → Eng) : (s.modEng c f).net = s.net := rfl
@[simp] theorem State.modEng_mem (s : State) (c : Nat) (f : Eng → Eng) : (s.modEng c f).mem = s.mem := rfl
@[simp] theorem State.modEng_memEpoch (s : State) (c : Nat) (f : Eng → Eng) : (s.modEng c f).memEpoch = s.memEpoch := rfl
@[simp] theorem State.modEng_badw (s : State) (c : Nat) (f : Eng → Eng) : (s.modEng c f).badw = s.badw := rfl
@[simp] theorem State.modEng_flips (s : State) (c : Nat) (f : Eng → Eng) : (s.modEng c f).flips = s.flips := rfl
@[simp] theorem State.modEng_ledger (s : State) (c : Nat) (f : Eng → Eng) : (s.modEng c f).ledger = s.ledger := rfl
@[simp] theorem State.modEng_zeroed (s : State) (c : Nat) (f : Eng → Eng) : (s.modEng c f).zeroed = s.zeroed := rfl
@[simp] theorem State.modEng_slices (s : State) (c : Nat) (f : Eng → Eng) : (s.modEng c f).slices = s.slices := rfl
@[simp] theorem State.modEng_held (s : State) (c : Nat) (f : Eng → Eng) : (s.modEng c f).held = s.held := rfl
@[simp] theorem State.modEng_chans (s : State) (c : Nat) (f : Eng → Eng) : (s.modEng c f).chans = s.chans := rfl
@[simp] theorem State.modEng_slus (s : State) (c : Nat) (f : Eng → Eng) : (s.modEng c f).slus = s.slus := rfl
@[simp] theorem State.modEng_coreTick (s : State) (c : Nat) (f : Eng → Eng) : (s.modEng c f).coreTick = s.coreTick := rfl
@[simp] theorem State.retire_pending (s : State) (c n : Nat) : (s.retire c n).pending = s.pending := rfl
@[simp] theorem State.retire_rsp (s : State) (c n : Nat) : (s.retire c n).rsp = s.rsp := rfl
@[simp] theorem State.retire_free (s : State) (c n : Nat) : (s.retire c n).free = s.free := rfl
@[simp] theorem State.retire_net (s : State) (c n : Nat) : (s.retire c n).net = s.net := rfl
@[simp] theorem State.retire_mem (s : State) (c n : Nat) : (s.retire c n).mem = s.mem := rfl
@[simp] theorem State.retire_memEpoch (s : State) (c n : Nat) : (s.retire c n).memEpoch = s.memEpoch := rfl
@[simp] theorem State.retire_badw (s : State) (c n : Nat) : (s.retire c n).badw = s.badw := rfl
@[simp] theorem State.retire_flips (s : State) (c n : Nat) : (s.retire c n).flips = s.flips := rfl
@[simp] theorem State.retire_ledger (s : State) (c n : Nat) : (s.retire c n).ledger = s.ledger := rfl
@[simp] theorem State.retire_zeroed (s : State) (c n : Nat) : (s.retire c n).zeroed = s.zeroed := rfl
@[simp] theorem State.retire_slices (s : State) (c n : Nat) : (s.retire c n).slices = s.slices := rfl
@[simp] theorem State.retire_held (s : State) (c n : Nat) : (s.retire c n).held = s.held := rfl
@[simp] theorem State.retire_chans (s : State) (c n : Nat) : (s.retire c n).chans = s.chans := rfl
@[simp] theorem State.retire_slus (s : State) (c n : Nat) : (s.retire c n).slus = s.slus := rfl
@[simp] theorem State.retire_coreTick (s : State) (c n : Nat) : (s.retire c n).coreTick = s.coreTick := rfl
@[simp] theorem State.retireG_pending (s : State) (c r : Nat) (v : Word) (n : Nat) : (s.retireG c r v n).pending = s.pending := rfl
@[simp] theorem State.retireG_rsp (s : State) (c r : Nat) (v : Word) (n : Nat) : (s.retireG c r v n).rsp = s.rsp := rfl
@[simp] theorem State.retireG_free (s : State) (c r : Nat) (v : Word) (n : Nat) : (s.retireG c r v n).free = s.free := rfl
@[simp] theorem State.retireG_net (s : State) (c r : Nat) (v : Word) (n : Nat) : (s.retireG c r v n).net = s.net := rfl
@[simp] theorem State.retireG_mem (s : State) (c r : Nat) (v : Word) (n : Nat) : (s.retireG c r v n).mem = s.mem := rfl
@[simp] theorem State.retireG_memEpoch (s : State) (c r : Nat) (v : Word) (n : Nat) : (s.retireG c r v n).memEpoch = s.memEpoch := rfl
@[simp] theorem State.retireG_badw (s : State) (c r : Nat) (v : Word) (n : Nat) : (s.retireG c r v n).badw = s.badw := rfl
@[simp] theorem State.retireG_flips (s : State) (c r : Nat) (v : Word) (n : Nat) : (s.retireG c r v n).flips = s.flips := rfl
@[simp] theorem State.retireG_ledger (s : State) (c r : Nat) (v : Word) (n : Nat) : (s.retireG c r v n).ledger = s.ledger := rfl
@[simp] theorem State.retireG_zeroed (s : State) (c r : Nat) (v : Word) (n : Nat) : (s.retireG c r v n).zeroed = s.zeroed := rfl
@[simp] theorem State.retireG_slices (s : State) (c r : Nat) (v : Word) (n : Nat) : (s.retireG c r v n).slices = s.slices := rfl
@[simp] theorem State.retireG_held (s : State) (c r : Nat) (v : Word) (n : Nat) : (s.retireG c r v n).held = s.held := rfl
@[simp] theorem State.retireG_chans (s : State) (c r : Nat) (v : Word) (n : Nat) : (s.retireG c r v n).chans = s.chans := rfl
@[simp] theorem State.retireG_slus (s : State) (c r : Nat) (v : Word) (n : Nat) : (s.retireG c r v n).slus = s.slus := rfl
@[simp] theorem State.retireG_coreTick (s : State) (c r : Nat) (v : Word) (n : Nat) : (s.retireG c r v n).coreTick = s.coreTick := rfl
@[simp] theorem State.jump_pending (s : State) (c : Nat) (v : Word) : (s.jump c v).pending = s.pending := rfl
@[simp] theorem State.jump_rsp (s : State) (c : Nat) (v : Word) : (s.jump c v).rsp = s.rsp := rfl
@[simp] theorem State.jump_free (s : State) (c : Nat) (v : Word) : (s.jump c v).free = s.free := rfl
@[simp] theorem State.jump_net (s : State) (c : Nat) (v : Word) : (s.jump c v).net = s.net := rfl
@[simp] theorem State.jump_mem (s : State) (c : Nat) (v : Word) : (s.jump c v).mem = s.mem := rfl
@[simp] theorem State.jump_memEpoch (s : State) (c : Nat) (v : Word) : (s.jump c v).memEpoch = s.memEpoch := rfl
@[simp] theorem State.jump_badw (s : State) (c : Nat) (v : Word) : (s.jump c v).badw = s.badw := rfl
@[simp] theorem State.jump_flips (s : State) (c : Nat) (v : Word) : (s.jump c v).flips = s.flips := rfl
@[simp] theorem State.jump_ledger (s : State) (c : Nat) (v : Word) : (s.jump c v).ledger = s.ledger := rfl
@[simp] theorem State.jump_zeroed (s : State) (c : Nat) (v : Word) : (s.jump c v).zeroed = s.zeroed := rfl
@[simp] theorem State.jump_slices (s : State) (c : Nat) (v : Word) : (s.jump c v).slices = s.slices := rfl
@[simp] theorem State.jump_held (s : State) (c : Nat) (v : Word) : (s.jump c v).held = s.held := rfl
@[simp] theorem State.jump_chans (s : State) (c : Nat) (v : Word) : (s.jump c v).chans = s.chans := rfl
@[simp] theorem State.jump_slus (s : State) (c : Nat) (v : Word) : (s.jump c v).slus = s.slus := rfl
@[simp] theorem State.jump_coreTick (s : State) (c : Nat) (v : Word) : (s.jump c v).coreTick = s.coreTick := rfl
@[simp] theorem State.ipend_pending (s : State) (c b : Nat) : (s.ipend c b).pending = s.pending := rfl
@[simp] theorem State.ipend_rsp (s : State) (c b : Nat) : (s.ipend c b).rsp = s.rsp := rfl
@[simp] theorem State.ipend_free (s : State) (c b : Nat) : (s.ipend c b).free = s.free := rfl
@[simp] theorem State.ipend_net (s : State) (c b : Nat) : (s.ipend c b).net = s.net := rfl
@[simp] theorem State.ipend_cores (s : State) (c b : Nat) : (s.ipend c b).cores = s.cores := rfl
@[simp] theorem State.ipend_mem (s : State) (c b : Nat) : (s.ipend c b).mem = s.mem := rfl
@[simp] theorem State.ipend_memEpoch (s : State) (c b : Nat) : (s.ipend c b).memEpoch = s.memEpoch := rfl
@[simp] theorem State.ipend_badw (s : State) (c b : Nat) : (s.ipend c b).badw = s.badw := rfl
@[simp] theorem State.ipend_flips (s : State) (c b : Nat) : (s.ipend c b).flips = s.flips := rfl
@[simp] theorem State.ipend_ledger (s : State) (c b : Nat) : (s.ipend c b).ledger = s.ledger := rfl
@[simp] theorem State.ipend_zeroed (s : State) (c b : Nat) : (s.ipend c b).zeroed = s.zeroed := rfl
@[simp] theorem State.ipend_slices (s : State) (c b : Nat) : (s.ipend c b).slices = s.slices := rfl
@[simp] theorem State.ipend_held (s : State) (c b : Nat) : (s.ipend c b).held = s.held := rfl
@[simp] theorem State.ipend_chans (s : State) (c b : Nat) : (s.ipend c b).chans = s.chans := rfl
@[simp] theorem State.ipend_slus (s : State) (c b : Nat) : (s.ipend c b).slus = s.slus := rfl
@[simp] theorem State.ipend_coreTick (s : State) (c b : Nat) : (s.ipend c b).coreTick = s.coreTick := rfl

end Sys2Proof.Machine
end

