-- ==== Sys2Proof/Laws/Ops.lean ====
section
/-! SUPPORT. Laws of the shared operations: a register, a core, a context and a g register read back what was written and leave
every other one alone. -/

namespace Sys2Proof.Machine

@[simp] theorem State.reg_setReg_self (s : State) (a : Nat) (v : Word) : (s.setReg a v).reg a = v := by
  simp [State.reg, State.setReg]

theorem State.reg_setReg_ne (s : State) {a b : Nat} (v : Word) (h : b ≠ a) : (s.setReg a v).reg b = s.reg b := by
  simp [State.reg, State.setReg, tget?_tset_ne v h]

@[simp] theorem State.reg_resetReg_self (s : State) (a : Nat) : (s.resetReg a).reg a = resetOf a := by
  simp [State.reg, State.resetReg]

theorem State.reg_resetReg_ne (s : State) {a b : Nat} (h : b ≠ a) : (s.resetReg a).reg b = s.reg b := by
  simp [State.reg, State.resetReg, tget?_tdel_ne h]

@[simp] theorem State.reg_count_self (s : State) (a n : Nat) : (s.count a n).reg a = s.reg a + n64 n := by
  simp [State.count]

theorem State.reg_count_ne (s : State) {a b : Nat} (n : Nat) (h : b ≠ a) : (s.count a n).reg b = s.reg b :=
  State.reg_setReg_ne s _ h

theorem State.reg_setFld_ne (s : State) {a b : Nat} (f : Fld) (n : Nat) (h : b ≠ a) : (s.setFld a f n).reg b = s.reg b :=
  State.reg_setReg_ne s _ h

/-- Two states with the same register table read the same. -/
theorem State.reg_congr {s t : State} (h : t.regs = s.regs) (a : Nat) : t.reg a = s.reg a := by simp [State.reg, h]

theorem State.core_congr {s t : State} (h : t.cores = s.cores) (c : Nat) : t.core c = s.core c := by simp [State.core, h]

theorem State.cur_congr {s t : State} (h : t.cores = s.cores) (c : Nat) : t.cur c = s.cur c := by
  simp [State.cur, State.core_congr h]

theorem State.g_congr {s t : State} (h : t.cores = s.cores) (c r : Nat) : t.g c r = s.g c r := by
  simp [State.g, State.cur_congr h]

@[simp] theorem State.core_setCore_self (s : State) (c : Nat) (k : Core) : (s.setCore c k).core c = k := by
  simp [State.core, State.setCore]

theorem State.core_setCore_ne (s : State) {c d : Nat} (k : Core) (h : d ≠ c) : (s.setCore c k).core d = s.core d := by
  simp [State.core, State.setCore, tget_tset_ne _ _ h]

@[simp] theorem State.core_modCore_self (s : State) (c : Nat) (f : Core → Core) : (s.modCore c f).core c = f (s.core c) := by
  simp [State.modCore]

theorem State.core_modCore_ne (s : State) {c d : Nat} (f : Core → Core) (h : d ≠ c) : (s.modCore c f).core d = s.core d :=
  State.core_setCore_ne s _ h

@[simp] theorem Core.ctx_setCtx_self (k : Core) (i : Nat) (x : Ctx) : (k.setCtx i x).ctx i = x := by
  simp [Core.ctx, Core.setCtx]

theorem Core.ctx_setCtx_ne (k : Core) {i j : Nat} (x : Ctx) (h : j ≠ i) : (k.setCtx i x).ctx j = k.ctx j := by
  simp [Core.ctx, Core.setCtx, tget_tset_ne _ _ h]

@[simp] theorem Core.setCtx_run (k : Core) (i : Nat) (x : Ctx) : (k.setCtx i x).run = k.run := rfl

@[simp] theorem State.run_modCtx (s : State) (c i : Nat) (f : Ctx → Ctx) : ((s.modCtx c i f).core c).run = (s.core c).run := by
  simp [State.modCtx]

@[simp] theorem State.run_modCur (s : State) (c : Nat) (f : Ctx → Ctx) : ((s.modCur c f).core c).run = (s.core c).run := by
  simp [State.modCur]

@[simp] theorem State.ctx_modCtx_self (s : State) (c i : Nat) (f : Ctx → Ctx) :
    ((s.modCtx c i f).core c).ctx i = f ((s.core c).ctx i) := by simp [State.modCtx]

theorem State.ctx_modCtx_ne (s : State) (c : Nat) {i j : Nat} (f : Ctx → Ctx) (h : j ≠ i) :
    ((s.modCtx c i f).core c).ctx j = (s.core c).ctx j := by simp [State.modCtx, Core.ctx_setCtx_ne _ _ h]

/-- The running context after a change of it. -/
@[simp] theorem State.cur_modCur (s : State) (c : Nat) (f : Ctx → Ctx) : (s.modCur c f).cur c = f (s.cur c) := by
  simp [State.cur, State.modCur]

/-- Two changes of one core are one. -/
theorem State.setCore_setCore (s : State) (c : Nat) (k l : Core) : (s.setCore c k).setCore c l = s.setCore c l := by
  simp [State.setCore]

theorem State.modCore_modCore (s : State) (c : Nat) (f g : Core → Core) :
    (s.modCore c f).modCore c g = s.modCore c fun k => g (f k) := by
  rw [State.modCore, State.core_modCore_self, State.modCore, State.setCore_setCore]; rfl

theorem Core.setCtx_setCtx (k : Core) (i : Nat) (x y : Ctx) : (k.setCtx i x).setCtx i y = k.setCtx i y := by
  simp [Core.setCtx]

theorem State.modCtx_modCtx (s : State) (c i : Nat) (f g : Ctx → Ctx) :
    (s.modCtx c i f).modCtx c i g = s.modCtx c i fun x => g (f x) := by
  rw [State.modCtx, State.modCtx, State.modCore_modCore, State.modCtx]
  congr 1; funext k
  rw [Core.setCtx_setCtx, Core.ctx_setCtx_self]

theorem State.modCur_modCur (s : State) (c : Nat) (f g : Ctx → Ctx) :
    (s.modCur c f).modCur c g = s.modCur c fun x => g (f x) := by
  rw [State.modCur, State.run_modCur, State.modCur, State.modCtx_modCtx]; rfl

@[simp] theorem State.cur_setReg (s : State) (c a : Nat) (v : Word) : (s.setReg a v).cur c = s.cur c := rfl
@[simp] theorem State.cur_count (s : State) (c a n : Nat) : (s.count a n).cur c = s.cur c := rfl
@[simp] theorem State.core_setReg (s : State) (c a : Nat) (v : Word) : (s.setReg a v).core c = s.core c := rfl
@[simp] theorem State.core_count (s : State) (c a n : Nat) : (s.count a n).core c = s.core c := rfl
@[simp] theorem State.core_setFld (s : State) (c a : Nat) (f : Fld) (n : Nat) : (s.setFld a f n).core c = s.core c := rfl
@[simp] theorem State.core_setFlag (s : State) (c a : Nat) (f : Fld) (b : Bool) : (s.setFlag a f b).core c = s.core c := rfl
@[simp] theorem State.core_countSat (s : State) (c a : Nat) (f : Fld) (n : Nat) : (s.countSat a f n).core c = s.core c := rfl
@[simp] theorem State.reg_modCore (s : State) (c a : Nat) (f : Core → Core) : (s.modCore c f).reg a = s.reg a := rfl
@[simp] theorem State.reg_modCur (s : State) (c a : Nat) (f : Ctx → Ctx) : (s.modCur c f).reg a = s.reg a := rfl

@[simp] theorem Ctx.gr_zero (x : Ctx) : x.gr 0 = 0 := rfl

/-- A g register reads what was written; g0 reads 0 (R42). -/
@[simp] theorem Ctx.gr_setG_self (x : Ctx) (r : Nat) (v : Word) : (x.setG r v).gr r = if r = 0 then 0 else v := by
  unfold Ctx.gr Ctx.setG
  split <;> simp_all

theorem Ctx.gr_setG_ne (x : Ctx) {r q : Nat} (v : Word) (h : q ≠ r) : (x.setG r v).gr q = x.gr q := by
  unfold Ctx.gr Ctx.setG
  split
  · rfl
  · split <;> simp [tget_tset_ne _ _ h]

@[simp] theorem Ctx.setG_pc (x : Ctx) (r : Nat) (v : Word) : (x.setG r v).pc = x.pc := by unfold Ctx.setG; split <;> rfl
@[simp] theorem Ctx.setG_mstatus (x : Ctx) (r : Nat) (v : Word) : (x.setG r v).mstatus = x.mstatus := by unfold Ctx.setG; split <;> rfl
@[simp] theorem Ctx.setG_epc (x : Ctx) (r : Nat) (v : Word) : (x.setG r v).epc = x.epc := by unfold Ctx.setG; split <;> rfl
@[simp] theorem Ctx.setG_ecause (x : Ctx) (r : Nat) (v : Word) : (x.setG r v).ecause = x.ecause := by unfold Ctx.setG; split <;> rfl
@[simp] theorem Ctx.setG_eval (x : Ctx) (r : Nat) (v : Word) : (x.setG r v).eval = x.eval := by unfold Ctx.setG; split <;> rfl
@[simp] theorem Ctx.setG_escratch (x : Ctx) (r : Nat) (v : Word) : (x.setG r v).escratch = x.escratch := by
  unfold Ctx.setG; split <;> rfl
@[simp] theorem Ctx.setG_tstart (x : Ctx) (r : Nat) (v : Word) : (x.setG r v).tstart = x.tstart := by unfold Ctx.setG; split <;> rfl
@[simp] theorem Ctx.setG_st (x : Ctx) (r : Nat) (v : Word) : (x.setG r v).st = x.st := by unfold Ctx.setG; split <;> rfl
@[simp] theorem Ctx.setG_wait (x : Ctx) (r : Nat) (v : Word) : (x.setG r v).wait = x.wait := by unfold Ctx.setG; split <;> rfl

/-- A retired instruction moves the PC past itself (R82). -/
@[simp] theorem State.cur_retire (s : State) (c n : Nat) :
    (s.retire c n).cur c = { s.cur c with pc := (s.cur c).pc + n64 n, wait := .none } := by
  simp [State.retire]

@[simp] theorem State.cur_retireG (s : State) (c r : Nat) (v : Word) (n : Nat) :
    (s.retireG c r v n).cur c = { (s.cur c).setG r v with pc := (s.cur c).pc + n64 n, wait := .none } := by
  simp [State.retireG]

@[simp] theorem State.cur_jump (s : State) (c : Nat) (v : Word) :
    (s.jump c v).cur c = { s.cur c with pc := v &&& ~~~ 3#64, wait := .none } := by
  simp [State.jump]

/-- The error log, the interrupts and the events change no core. -/
@[simp] theorem State.hgEvent_cores (s : State) (h : Nat) (f : Fld) : (s.hgEvent h f).cores = s.cores := by
  unfold State.hgEvent; split <;> rfl

@[simp] theorem State.hgEvents_cores (s : State) (f : Fld) : (s.hgEvents f).cores = s.cores := by simp [State.hgEvents]

theorem errRaise_cores (s : State) : (errRaise s).cores = s.cores := by
  unfold errRaise; simp only [State.hgEvents_cores]; split <;> rfl

end Sys2Proof.Machine
end

