-- ==== Sys2Proof/Laws/Quiet.lean ====
section
/-! SUPPORT. The quiet operations: they write only registers, Headgate events, the translation and instruction caches of the
cores, and what a table walk changes. Fetching an instruction and logging an error are quiet. -/

namespace Sys2Proof.Machine

theorem Walked.trans {s t u : State} (h : Walked s t) (k : Walked t u) : Walked s u := by
  unfold Walked at *
  rw [k, h]

/-- From `s` to `t` nothing changes but what a table walk changes, and of the cores only their translation and instruction caches. -/
structure Quiet (s t : State) : Prop where
  rest : Walked s t
  core : ∀ d, t.core d = { s.core d with tc := (t.core d).tc, icache := (t.core d).icache }

theorem Quiet.refl (s : State) : Quiet s s := ⟨rfl, fun _ => rfl⟩

theorem Quiet.trans {s t u : State} (h : Quiet s t) (k : Quiet t u) : Quiet s u := by
  obtain ⟨h1, h2⟩ := h
  obtain ⟨k1, k2⟩ := k
  refine ⟨Walked.trans h1 k1, fun d => ?_⟩
  rw [k2 d, h2 d]

/-- The running context and its bank after a quiet operation. -/
theorem Quiet.cur {s t : State} (h : Quiet s t) (c : Nat) : t.cur c = s.cur c := by
  unfold State.cur; rw [h.core c]; rfl

theorem Quiet.g {s t : State} (h : Quiet s t) (c r : Nat) : t.g c r = s.g c r := by
  unfold State.g; rw [h.cur c]

theorem Quiet.run {s t : State} (h : Quiet s t) (c : Nat) : (t.core c).run = (s.core c).run := by rw [h.core c]

theorem Quiet.mem {s t : State} (h : Quiet s t) : t.mem = s.mem := by rw [h.rest]

/-- From `s` to `t` nothing changes but what a table walk changes outside the cores. -/
structure Hush (s t : State) : Prop where
  rest : Walked s t
  cores : t.cores = s.cores

theorem Hush.refl (s : State) : Hush s s := ⟨rfl, rfl⟩
theorem Hush.trans {s t u : State} (h : Hush s t) (k : Hush t u) : Hush s u := ⟨Walked.trans h.rest k.rest, k.cores.trans h.cores⟩

theorem Hush.quiet {s t : State} (h : Hush s t) : Quiet s t := ⟨h.rest, fun d => by rw [State.core_congr h.cores]⟩

/-- What a change that touches no core leaves. -/
theorem Hush.same {s t u : State} (h : Hush s t)
    (e : u = { t with regs := u.regs, hgs := u.hgs, slices := u.slices, flips := u.flips, cwReqs := u.cwReqs, tt := u.tt }) : Hush s u :=
  h.trans ⟨by unfold Walked; rw [e], by rw [e]⟩

theorem State.setReg_hush {s0 s a v} (h : Hush s0 s) : Hush s0 (State.setReg s a v) := h.same rfl

/-- A change of one core's translation and instruction caches. -/
theorem setCore_quiet {s0 s c k} (h : Quiet s0 s) (e : k = { s.core c with tc := k.tc, icache := k.icache }) :
    Quiet s0 (State.setCore s c k) := by
  refine h.trans ⟨rfl, fun d => ?_⟩
  by_cases hd : d = c
  · subst hd; rw [State.core_setCore_self]; exact e
  · rw [State.core_setCore_ne _ _ hd]

theorem State.setFld_hush {s0 a1 a2 a3 a4} (k1 : Hush s0 a1) : Hush s0 (State.setFld a1 a2 a3 a4) := by
  unfold State.setFld
  exact (State.setReg_hush k1)

theorem State.setFlag_hush {s0 a1 a2 a3 a4} (k1 : Hush s0 a1) : Hush s0 (State.setFlag a1 a2 a3 a4) := by
  unfold State.setFlag
  exact (State.setReg_hush k1)

theorem State.count_hush {s0 a1 a2 a3} (k1 : Hush s0 a1) : Hush s0 (State.count a1 a2 a3) := by
  unfold State.count
  exact (State.setReg_hush k1)

theorem State.countSat_hush {s0 a1 a2 a3 a4} (k1 : Hush s0 a1) : Hush s0 (State.countSat a1 a2 a3 a4) := by
  unfold State.countSat
  exact (State.setReg_hush k1)

theorem State.ipend_hush {s0 a1 a2 a3} (k1 : Hush s0 a1) : Hush s0 (State.ipend a1 a2 a3) := by
  unfold State.ipend
  exact (State.setReg_hush k1)

theorem State.modHgx_hush {s0 s h f} (k : Hush s0 s) : Hush s0 (State.modHgx s h f) := k.same rfl

theorem State.hgEvent_hush {s0 a1 a2 a3} (k1 : Hush s0 a1) : Hush s0 (State.hgEvent a1 a2 a3) := by
  unfold State.hgEvent
  exact (ite_keeps k1 (State.modHgx_hush (State.setFlag_hush k1)))

theorem State.hgEvents_hush {s0 a1 a2} (k1 : Hush s0 a1) : Hush s0 (State.hgEvents a1 a2) := by
  unfold State.hgEvents
  exact (State.hgEvent_hush (State.hgEvent_hush k1))

theorem errRaise_hush {s0 a1} (k1 : Hush s0 a1) : Hush s0 (errRaise a1) := by
  unfold errRaise
  extract_lets -merge +onlyGivenNames s1
  have h1 : Hush s0 s1 := (ite_keeps (State.ipend_hush k1) k1)
  clear_value s1
  exact (State.hgEvents_hush h1)

theorem logErr_hush {s0 a1 a2 a3 a4 a5 a6 a7 a8 a9} (k9 : Hush s0 a9) : Hush s0 (logErr a1 a2 a3 a4 a5 a6 a7 a8 a9) := by
  unfold logErr
  extract_lets -merge +onlyGivenNames head1
  try clear_value head1
  extract_lets -merge +onlyGivenNames cal2
  try clear_value cal2
  extract_lets -merge +onlyGivenNames s3
  have h3 : Hush s0 s3 := (ite_keeps (State.count_hush k9) (State.count_hush k9))
  clear_value s3
  extract_lets -merge +onlyGivenNames fat4
  try clear_value fat4
  extract_lets -merge +onlyGivenNames s5
  have h5 : Hush s0 s5 := (ite_keeps (State.setFlag_hush h3) h3)
  clear_value s5
  extract_lets -merge +onlyGivenNames th6
  try clear_value th6
  split
  · rename_i y14 y15 e16
    have h14 : Hush s0 y14 := (KFst.get (of_eq (P := KFst (Hush s0)) e16 (by
        split
        · extract_lets -merge +onlyGivenNames w7
          try clear_value w7
          extract_lets -merge +onlyGivenNames n8
          try clear_value n8
          exact (KFst.mk (State.setReg_hush (State.setReg_hush h5)))
        · extract_lets -merge +onlyGivenNames e9
          try clear_value e9
          exact (ite_keeps (KFst.mk (State.countSat_hush h5)) (by
              extract_lets -merge +onlyGivenNames s10
              have h10 : Hush s0 s10 := (State.setReg_hush h5)
              clear_value s10
              extract_lets -merge +onlyGivenNames s11
              have h11 : Hush s0 s11 := (State.setReg_hush h10)
              clear_value s11
              extract_lets -merge +onlyGivenNames s12
              have h12 : Hush s0 s12 := (State.setReg_hush h11)
              clear_value s12
              extract_lets -merge +onlyGivenNames s13
              have h13 : Hush s0 s13 := (State.setReg_hush h12)
              clear_value s13
              exact (KFst.mk (State.setFld_hush h13)))))))
    extract_lets -merge +onlyGivenNames hard17
    try clear_value hard17
    extract_lets -merge +onlyGivenNames s18
    have h18 : Hush s0 s18 := (ite_keeps (State.setFlag_hush h14) h14)
    clear_value s18
    exact (ite_keeps (errRaise_hush h18) h18)

theorem spadSeen_hush {s0 a1 a2 a3 a4} (k4 : Hush s0 a4) : Hush s0 (spadSeen a1 a2 a3 a4) := by
  unfold spadSeen
  extract_lets -merge +onlyGivenNames ws1
  try clear_value ws1
  extract_lets -merge +onlyGivenNames m2
  try clear_value m2
  extract_lets -merge +onlyGivenNames s'3
  have h3 : Hush s0 s'3 := (each_keeps (P := Hush s0) (fun _ _ h4 => (ite_keeps (logErr_hush h4) h4)) k4)
  clear_value s'3
  split
  · exact (logErr_hush h3)
  · exact h3

theorem countWalk_hush {s0 a1 a2 a3} (k3 : Hush s0 a3) : Hush s0 (countWalk a1 a2 a3) := by
  unfold countWalk
  extract_lets -merge +onlyGivenNames s1
  have h1 : Hush s0 s1 := (State.count_hush k3)
  clear_value s1
  split
  · exact (State.countSat_hush h1)
  · exact h1

theorem State.setSub_hush {s0 s k t} (h : Hush s0 s) : Hush s0 (State.setSub s k t) := h.same rfl

theorem State.setSlice_hush {s0 s n x} (h : Hush s0 s) : Hush s0 (State.setSlice s n x) := h.same rfl

theorem pump_hush {s0 a1 a2} (k2 : Hush s0 a2) : Hush s0 (pump a1 a2) := by
  unfold pump
  exact (ite_keeps (State.setSub_hush k2) k2)

theorem ttSend_hush {s0 a1 a2 a3} (k3 : Hush s0 a3) : Hush s0 (ttSend a1 a2 a3) := by
  unfold ttSend
  extract_lets -merge +onlyGivenNames t1
  try clear_value t1
  exact (pump_hush (State.setSub_hush k3))

theorem cwSend_hush {s0 a1 a2 a3 a4 a5 a6} (k6 : Hush s0 a6) : Hush s0 (cwSend a1 a2 a3 a4 a5 a6) := by
  unfold cwSend
  extract_lets -merge +onlyGivenNames k1
  try clear_value k1
  exact (ite_keeps k6 (by
      split
      · exact k6
      · exact (ttSend_hush (by exact Hush.same k6 rfl))))

theorem dropFlips_hush {s0 a1 a2} (k2 : Hush s0 a2) : Hush s0 (dropFlips a1 a2) := by
  unfold dropFlips
  exact (by exact Hush.same k2 rfl)

theorem dropWrite_hush {s0 a1 a2} (k2 : Hush s0 a2) : Hush s0 (dropWrite a1 a2) := by
  unfold dropWrite
  exact (ite_keeps (State.countSat_hush k2) (State.countSat_hush k2))

theorem evict_hush {s0 a1 a2 a3} (k3 : Hush s0 a3) : Hush s0 (evict a1 a2 a3) := by
  unfold evict
  extract_lets -merge +onlyGivenNames x1
  try clear_value x1
  extract_lets -merge +onlyGivenNames s2
  have h2 : Hush s0 s2 := (State.countSat_hush k3)
  clear_value s2
  extract_lets -merge +onlyGivenNames rest3
  try clear_value rest3
  exact (ite_keeps (by
      extract_lets -merge +onlyGivenNames st4
      try clear_value st4
      extract_lets -merge +onlyGivenNames s5
      have h5 : Hush s0 s5 := (State.setSlice_hush h2)
      clear_value s5
      extract_lets -merge +onlyGivenNames s6
      have h6 : Hush s0 s6 := (dropFlips_hush h5)
      clear_value s6
      exact (ite_keeps (cwSend_hush h6) (cwSend_hush h6))) (by
      extract_lets -merge +onlyGivenNames pa7
      try clear_value pa7
      extract_lets -merge +onlyGivenNames s8
      have h8 : Hush s0 s8 := (State.setSlice_hush h2)
      clear_value s8
      extract_lets -merge +onlyGivenNames s9
      have h9 : Hush s0 s9 := (dropFlips_hush h8)
      clear_value s9
      exact (ite_keeps (dropWrite_hush h9) h9)))

theorem makeRoom_hush {s0 a1 a2 a3} (k3 : Hush s0 a3) : Hush s0 (makeRoom a1 a2 a3) := by
  unfold makeRoom
  extract_lets -merge +onlyGivenNames x1
  try clear_value x1
  extract_lets -merge +onlyGivenNames ls2
  try clear_value ls2
  split
  · exact k3
  · split
    · exact (evict_hush k3)
    · exact k3

theorem keepAttr_hush {s0 a1 a2 a3} (k3 : Hush s0 a3) : Hush s0 (keepAttr a1 a2 a3) := by
  unfold keepAttr
  exact (ite_keeps k3 (by
      extract_lets -merge +onlyGivenNames x1
      try clear_value x1
      split
      · exact (State.setSlice_hush k3)))

theorem fill_hush {s0 a1 a2 a3 a4 a5 a6} (k6 : Hush s0 a6) : Hush s0 (fill a1 a2 a3 a4 a5 a6) := by
  unfold fill
  extract_lets -merge +onlyGivenNames s1
  have h1 : Hush s0 s1 := (makeRoom_hush k6)
  clear_value s1
  extract_lets -merge +onlyGivenNames x2
  try clear_value x2
  extract_lets -merge +onlyGivenNames set3
  try clear_value set3
  extract_lets -merge +onlyGivenNames ls4
  try clear_value ls4
  split
  · exact h1
  · split
    · extract_lets -merge +onlyGivenNames c5
      try clear_value c5
      exact (keepAttr_hush (State.setSlice_hush h1))

theorem modLine_hush {s0 a1 a2 a3 a4} (k4 : Hush s0 a4) : Hush s0 (modLine a1 a2 a3 a4) := by
  unfold modLine
  extract_lets -merge +onlyGivenNames x1
  try clear_value x1
  exact (State.setSlice_hush k4)

theorem touchLine_hush {s0 a1 a2 a3 a4 a5} (k5 : Hush s0 a5) : Hush s0 (touchLine a1 a2 a3 a4 a5) := by
  unfold touchLine
  extract_lets -merge +onlyGivenNames x1
  try clear_value x1
  extract_lets -merge +onlyGivenNames s'2
  have h2 : Hush s0 s'2 := (State.setSlice_hush k5)
  clear_value s'2
  exact (ite_keeps (by
      split
      · extract_lets -merge +onlyGivenNames c3
        try clear_value c3
        exact (keepAttr_hush (modLine_hush h2))) (modLine_hush h2))

theorem logWord_hush {s0 a1 a2 a3 a4} (k4 : Hush s0 a4) : Hush s0 (logWord a1 a2 a3 a4) := by
  unfold logWord
  split
  · exact (logErr_hush k4)

theorem logFixed_hush {s0 a1 a2 a3} (k3 : Hush s0 a3) : Hush s0 (logFixed a1 a2 a3) := by
  induction a2 generalizing a1 a3 with
  | zero =>
    rw [logFixed.eq_1]
    exact k3
  | succ n ih =>
    rw [logFixed.eq_2]
    exact (ite_keeps (logWord_hush (ih k3)) (ih k3))

theorem dropClean_hush {s0 a1 a2 a3} (k3 : Hush s0 a3) : Hush s0 (dropClean a1 a2 a3) := by
  unfold dropClean
  extract_lets -merge +onlyGivenNames x1
  try clear_value x1
  exact (logErr_hush (dropFlips_hush (State.setSlice_hush k3)))

theorem lineIn_hush {s0 a1 a2 a3} (k3 : Hush s0 a3) : Hush s0 (lineIn a1 a2 a3) := by
  unfold lineIn
  extract_lets -merge +onlyGivenNames s1
  have h1 : Hush s0 s1 := (logFixed_hush k3)
  clear_value s1
  split
  · exact (State.count_hush (touchLine_hush h1))
  · extract_lets -merge +onlyGivenNames s2
    have h2 : Hush s0 s2 := (State.count_hush h1)
    clear_value s2
    exact (ite_keeps h2 (fill_hush h2))

theorem ledgerLine_hush {s0 a1 a2} (k2 : Hush s0 a2) : Hush s0 (ledgerLine a1 a2) := by
  unfold ledgerLine
  extract_lets -merge +onlyGivenNames n1
  try clear_value n1
  exact (lineIn_hush (by
      split
      · exact (ite_keeps (dropClean_hush k2) k2)
      · exact k2))

theorem walkLines_hush {s0 a1 a2 a3} (k3 : Hush s0 a3) : Hush s0 (walkLines a1 a2 a3) := by
  unfold walkLines
  extract_lets -merge +onlyGivenNames b1
  try clear_value b1
  extract_lets -merge +onlyGivenNames h2
  try clear_value h2
  exact (each_keeps (P := Hush s0) (fun _ _ h3 => (ledgerLine_hush h3)) k3)

theorem touchTc_quiet {s0 c p va s} (h : Quiet s0 s) : Quiet s0 (touchTc c p va s) := by
  unfold touchTc
  refine ite_keeps h (ite_keeps h ?_)
  extract_lets -merge +onlyGivenNames w s1
  have h4 : Hush s s1 := walkLines_hush (countWalk_hush (Hush.refl s))
  clear_value s1 w
  split
  · exact h.trans (setCore_quiet h4.quiet rfl)
  · exact h.trans (State.countSat_hush h4).quiet

theorem spadSeen_quiet {s0 c off n s} (h : Quiet s0 s) : Quiet s0 (spadSeen c off n s) := h.trans (spadSeen_hush (Hush.refl s)).quiet

theorem touchTcN_quiet {s0 a1 a2 a3 a4 a5} (k5 : Quiet s0 a5) : Quiet s0 (touchTcN a1 a2 a3 a4 a5) := by
  unfold touchTcN
  exact (each_keeps (P := Quiet s0) (fun _ _ h1 => (touchTc_quiet h1)) k5)

theorem fetchSeen_quiet {s0 a1 a2} (k2 : Quiet s0 a2) : Quiet s0 (fetchSeen a1 a2) := by
  unfold fetchSeen
  split
  · exact (spadSeen_quiet k2)
  · exact k2

theorem fetched_quiet {s0 c s} (h : Quiet s0 s) : Quiet s0 (fetched c s) := by
  unfold fetched
  extract_lets -merge +onlyGivenNames x
  clear_value x
  split
  · extract_lets -merge +onlyGivenNames good
    clear_value good
    exact setCore_quiet (touchTc_quiet h) (by dsimp only; split <;> rfl)
  · exact spadSeen_quiet h
  · exact h

end Sys2Proof.Machine
end

