-- ==== Sys2Proof/Laws/Issue.lean ====
section
/-! SUPPORT. What issuing does, case by case (R48, R50, R60, R66, R73-R76). -/

namespace Sys2Proof.Machine

theorem boundary_none {s : State} {c : Nat} (h : (s.core c).modePend = none) : boundary c s = s := by
  simp [boundary, h]

theorem mayIssue_mono {s : State} {c : Nat} {again : Wait → Bool} (h : mayIssue s c fresh0 = true) : mayIssue s c again = true := by
  simp only [mayIssue, fresh0, Bool.and_eq_true, Bool.or_false] at h ⊢
  exact ⟨h.1, by simp [h.2]⟩

/-- A legal instruction at its privilege, issued by a ready core, has its effect on the state after the fetch. -/
theorem issue_ready {s : State} {c len w : Nat} {rs : List Nat} {legal priv : Bool} {again : Wait → Bool} {body : State → State}
    (h : Ready s c rs) (hl : legal = true) (ha : len ≠ 8 ∨ (s.cur c).pc.toNat % 8 = 0 ∧ fetchSecond s c = none) (hp : priv = false ∨ (s.cur c).isM = true) :
    issue c len w rs legal priv again body s = body (fetched c s) := by
  obtain ⟨-, h1, h2, h3, h4⟩ := h
  unfold issue
  rw [boundary_none h1]
  simp only [mayIssue_mono h2, h3, h4, hl, Bool.not_true, Bool.false_or, Bool.or_self]
  have e2 : (priv && !(s.cur c).isM) = false := by rcases hp with hp | hp <;> simp [hp]
  rcases ha with ha | ⟨ha, hb⟩
  · simp [e2, ha]
  · simp [e2, ha, hb]

/-- An instruction of 32 bits that any privilege may execute. -/
theorem issue4_ready {s : State} {c w : Nat} {rs : List Nat} {legal : Bool} {body : State → State} (h : Ready s c rs) (hl : legal = true) :
    issue4 c w rs legal false body s = body (fetched c s) := issue_ready h hl (.inl (by decide)) (.inl rfl)

/-- A privileged instruction of 32 bits at privilege M. -/
theorem issue4_priv {s : State} {c w : Nat} {rs : List Nat} {legal : Bool} {body : State → State} (h : Ready s c rs) (hl : legal = true)
    (hm : (s.cur c).isM = true) : issue4 c w rs legal true body s = body (fetched c s) :=
  issue_ready h hl (.inl (by decide)) (.inr hm)

/-- A reserved encoding raises ILLEGAL (R50). -/
theorem issue_illegal {s : State} {c len w : Nat} {rs : List Nat} {priv : Bool} {again : Wait → Bool} {body : State → State}
    (h : Ready s c rs) (ha : len ≠ 8 ∨ (s.cur c).pc.toNat % 8 ≠ 0 ∨ fetchSecond s c = none) :
    issue c len w rs false priv again body s = trap c .illegal (n64 w) (fetched c s) := by
  obtain ⟨-, h1, h2, h3, h4⟩ := h
  unfold issue
  rw [boundary_none h1]
  rcases ha with ha | ha | ha <;> simp [mayIssue_mono h2, h3, h4, ha]

/-- An instruction of 64 bits whose second word lies in bad storage raises DATA_ERR (R76). -/
theorem issue_second {s : State} {c w : Nat} {rs : List Nat} {legal priv : Bool} {again : Wait → Bool} {body : State → State}
    (h : Ready s c rs) (ha : (s.cur c).pc.toNat % 8 = 0) (hb : (fetchSecond s c).isSome = true) :
    issue c 8 w rs legal priv again body s = trap c .dataErr ((s.cur c).pc + 4) (fetched c s) := by
  obtain ⟨-, h1, h2, h3, h4⟩ := h
  unfold issue
  rw [boundary_none h1]
  simp [mayIssue_mono h2, h3, h4, ha, hb]

/-- A privileged instruction at privilege T raises PRIV (R60). -/
theorem issue4_user {s : State} {c w : Nat} {rs : List Nat} {body : State → State} (h : Ready s c rs) (hm : (s.cur c).isM = false) :
    issue4 c w rs true true body s = trap c .priv (n64 w) (fetched c s) := by
  obtain ⟨-, h1, h2, h3, h4⟩ := h
  unfold issue4 issue
  rw [boundary_none h1]
  simp [mayIssue_mono h2, h3, h4, hm]

/-- A fetch with a fault raises its exception with the PC (R76). -/
theorem issue_fetch {s : State} {c len w : Nat} {rs : List Nat} {legal priv : Bool} {again : Wait → Bool} {body : State → State} {e : Exc}
    (h1 : (s.core c).modePend = none) (h2 : mayIssue s c fresh0 = true) (h3 : regBusy s c rs = false) (h4 : fetchFault s c = some e) :
    issue c len w rs legal priv again body s =
      trap c e (s.cur c).pc (fetchSeen c (touchTc c (s.part c) (s.cur c).pc.toNat s)) := by
  unfold issue
  rw [boundary_none h1]
  simp [mayIssue_mono h2, h3, h4]

/-- A core that cannot issue leaves the state after its boundary as it is (log 8). -/
theorem issue_held {s : State} {c len w : Nat} {rs : List Nat} {legal priv : Bool} {again : Wait → Bool} {body : State → State}
    (h : mayIssue (boundary c s) c again = false) : issue c len w rs legal priv again body s = boundary c s := by
  unfold issue
  simp [h]

/-- The fetch leaves the banks as they are. -/
theorem fetched_is_quiet (s : State) (c : Nat) : Quiet s (fetched c s) := fetched_quiet (Quiet.refl s)

@[simp] theorem fetched_cur (s : State) (c d : Nat) : (fetched c s).cur d = s.cur d := (fetched_is_quiet s c).cur d
@[simp] theorem fetched_g (s : State) (c d r : Nat) : (fetched c s).g d r = s.g d r := (fetched_is_quiet s c).g d r

end Sys2Proof.Machine
end

