-- ==== Sys2Proof/Laws/KeepCoreRegs.lean ====
section
/-! SUPPORT. What the operations of Machine/CoreRegs.lean keep (Laws/Keeps.lean). -/

namespace Sys2Proof.Machine

theorem coreRegRead_keeps {s0 a1 a2 a3 a4} (k4 : Keeps s0 a4) : KOpt (KP s0) (coreRegRead a1 a2 a3 a4) := by
  unfold coreRegRead
  split
  · exact KOpt.non
  · exact (KOpt.mk (KP.mk (ite_keeps (State.setReg_keeps k4) k4)))

theorem tcfgSet_keeps {s0 a1 a2 a3 a4} (k4 : Keeps s0 a4) : Keeps s0 (tcfgSet a1 a2 a3 a4) := by
  unfold tcfgSet
  exact (State.modCore_keeps k4)

theorem tcfgMapped_keeps {s0 a1 a2 a3 a4} (k4 : Keeps s0 a4) : Keeps s0 (tcfgMapped a1 a2 a3 a4) := by
  unfold tcfgMapped
  extract_lets -merge +onlyGivenNames k1
  try clear_value k1
  exact (ite_keeps (State.setCore_keeps k4) (ite_keeps (tcfgSet_keeps k4) (State.setCore_keeps k4)))

theorem mcfgMapped_keeps {s0 a1 a2 a3} (k3 : Keeps s0 a3) : Keeps s0 (mcfgMapped a1 a2 a3) := by
  unfold mcfgMapped
  extract_lets -merge +onlyGivenNames k1
  try clear_value k1
  exact (ite_keeps (State.setCore_keeps k3) (ite_keeps (State.setCore_keeps k3) (State.setCore_keeps k3)))

theorem cycSet_keeps {s0 a1 a2} (k2 : Keeps s0 a2) : Keeps s0 (cycSet a1 a2) := by
  unfold cycSet
  extract_lets -merge +onlyGivenNames m1
  try clear_value m1
  exact (ite_keeps (State.ipend_keeps k2) k2)

theorem ctxStateSet_keeps {s0 a1 a2 a3 a4} (k4 : Keeps s0 a4) : Keeps s0 (ctxStateSet a1 a2 a3 a4) := by
  unfold ctxStateSet
  exact (State.modCtx_keeps k4)

theorem ctxStateWrite_keeps {s0 a1 a2 a3} (k3 : Keeps s0 a3) : Keeps s0 (ctxStateWrite a1 a2 a3) := by
  unfold ctxStateWrite
  exact (ctxStateSet_keeps (ctxStateSet_keeps (ctxStateSet_keeps (ctxStateSet_keeps k3))))

theorem coreRelease_keeps {s0 a1 a2} (k2 : Keeps s0 a2) : Keeps s0 (coreRelease a1 a2) := by
  unfold coreRelease
  exact (State.modCore_keeps (State.modCtx_keeps k2))

theorem coreRunWrite_keeps {s0 a1 a2 a3} (k3 : Keeps s0 a3) : Keeps s0 (coreRunWrite a1 a2 a3) := by
  unfold coreRunWrite
  extract_lets -merge +onlyGivenNames was1
  try clear_value was1
  extract_lets -merge +onlyGivenNames now2
  try clear_value now2
  extract_lets -merge +onlyGivenNames s3
  have h3 : Keeps s0 s3 := (State.setFlag_keeps k3)
  clear_value s3
  extract_lets -merge +onlyGivenNames st4
  try clear_value st4
  extract_lets -merge +onlyGivenNames s5
  have h5 : Keeps s0 s5 := (ite_keeps (State.setFld_keeps h3) h3)
  clear_value s5
  exact (ite_keeps (coreRelease_keeps h5) (ite_keeps (State.modCur_keeps h5) h5))

theorem engErrClear_keeps {s0 a1 a2} (k2 : Keeps s0 a2) : Keeps s0 (engErrClear a1 a2) := by
  unfold engErrClear
  exact (State.modCore_keeps (State.setFlag_keeps k2))

theorem isoftWrite_keeps {s0 a1 a2 a3} (k3 : Keeps s0 a3) : Keeps s0 (isoftWrite a1 a2 a3) := by
  unfold isoftWrite
  exact (ite_keeps (State.ipend_keeps k3) k3)

theorem coreRegWrite_keeps {s0 a1 a2 a3 a4 a5} (k5 : Keeps s0 a5) : KOpt (Keeps s0) (coreRegWrite a1 a2 a3 a4 a5) := by
  unfold coreRegWrite
  extract_lets -merge +onlyGivenNames a1
  try clear_value a1
  extract_lets -merge +onlyGivenNames mask2
  try clear_value mask2
  extract_lets -merge +onlyGivenNames run3
  try clear_value run3
  split
  · exact KOpt.non
  · exact (ite_keeps (ite_keeps KOpt.non (KOpt.mk (modeWrite_keeps k5))) (ite_keeps (KOpt.mk (ctxStateWrite_keeps k5)) (ite_keeps (KOpt.mk (State.modCtx_keeps k5)) (ite_keeps (KOpt.mk (State.modCtx_keeps k5)) (ite_keeps (KOpt.mk (State.modCtx_keeps k5)) (ite_keeps (KOpt.mk (State.modCtx_keeps k5)) (ite_keeps (KOpt.mk (State.modCtx_keeps k5)) (ite_keeps (KOpt.mk (cycSet_keeps (State.setReg_keeps k5))) (ite_keeps (KOpt.mk (isoftWrite_keeps k5)) (ite_keeps (KOpt.mk (ite_keeps (engErrClear_keeps k5) k5)) (ite_keeps (ite_keeps KOpt.non (KOpt.mk (coreRunWrite_keeps k5))) (ite_keeps (ite_keeps KOpt.non (KOpt.mk (tcfgMapped_keeps k5))) (ite_keeps (KOpt.mk (State.modCtx_keeps k5)) (ite_keeps (ite_keeps KOpt.non (KOpt.mk (mcfgMapped_keeps k5))) (ite_keeps (ite_keeps KOpt.non (KOpt.mk (State.modCore_keeps k5))) (by
        split
        · exact (KOpt.mk (State.setReg_keeps k5))
        · exact KOpt.non))))))))))))))))

end Sys2Proof.Machine
end

