-- ==== Sys2Proof/Laws/KeepSystem.lean ====
section
/-! SUPPORT. What the operations of Machine/System.lean keep (Laws/Keeps.lean). -/

namespace Sys2Proof.Machine

/-- What an attempt keeps: the state it holds, if any. -/
inductive KTried (s0 : State) : Tried → Prop
  | wait {s} (h : Keeps s0 s) : KTried s0 (.wait s)
  | done {s} (h : Keeps s0 s) : KTried s0 (.done s)
  | fault {e a} : KTried s0 (.fault e a)

theorem KTried.getWait {s0 s} : KTried s0 (.wait s) → Keeps s0 s | .wait h => h
theorem KTried.getDone {s0 s} : KTried s0 (.done s) → Keeps s0 s | .done h => h

theorem State.answer_keeps {s0 a1 a2} (k1 : Keeps s0 a1) (k2 : KOpt (Keeps s0) a2) : Keeps s0 (State.answer a1 a2) := by
  unfold State.answer
  split
  · rename_i y1
    have h1 : Keeps s0 y1 := (KOpt.get k2)
    exact (by exact Keeps.same h1 rfl rfl rfl rfl rfl rfl rfl rfl)
  · exact (by exact Keeps.same k1 rfl rfl rfl rfl rfl rfl rfl rfl)

theorem writeParts_keeps {s0 a1 a2 a3 a4} (k4 : Keeps s0 a4) : KTried s0 (writeParts a1 a2 a3 a4) := by
  unfold writeParts
  split
  · exact KTried.fault
  · exact (ite_keeps (KTried.done (each_keeps (P := Keeps s0) (fun _ _ h1 => (coreWrite_keeps h1)) k4)) (KTried.wait (each_keeps (P := Keeps s0) (fun _ _ h2 => (corePrep_keeps h2)) k4)))

theorem readHeader_keeps {s0 a1 a2 a3} (k3 : Keeps s0 a3) : KExc (KTried s0) (KP s0) (readHeader a1 a2 a3) := by
  unfold readHeader
  split
  · exact (KExc.err KTried.fault)
  · exact (ite_keeps (by
        split
        · rename_i y1 y2 e3
          have h2 : Keeps s0 y2 := (KP.get (KSnd.get (of_eq (P := KSnd (KP s0)) e3 (coreRead_keeps k3))))
          exact (KExc.mk (KP.mk h2))
        · rename_i y4 y5 y6 e7
          have h6 : Keeps s0 y6 := (KP.get (KSnd.get (of_eq (P := KSnd (KP s0)) e7 (coreRead_keeps k3))))
          exact (KExc.err KTried.fault)) (KExc.err (KTried.wait (corePrep_keeps k3))))

theorem saveEngine_keeps {s0 a1 a2} (k2 : Keeps s0 a2) : KTried s0 (saveEngine a1 a2) := by
  unfold saveEngine
  extract_lets -merge +onlyGivenNames k1
  try clear_value k1
  extract_lets -merge +onlyGivenNames base2
  try clear_value base2
  split
  · rename_i y3 e4
    have h3 : KTried s0 y3 := (KExc.getErr (of_eq (P := KExc (KTried s0) (KP s0)) e4 (readHeader_keeps k2)))
    exact h3
  · rename_i y5 y6 e7
    have h6 : Keeps s0 y6 := (KP.get (KExc.getOk (of_eq (P := KExc (KTried s0) (KP s0)) e7 (readHeader_keeps k2))))
    exact (writeParts_keeps h6)

theorem readArea_keeps {s0 a1 a2 a3 a4} (k4 : Keeps s0 a4) : KExc (KTried s0) (KP s0) (readArea a1 a2 a3 a4) := by
  unfold readArea
  split
  · exact (KExc.err KTried.fault)
  · exact (ite_keeps (by
        split
        · rename_i y1 y2 e3
          have h2 : Keeps s0 y2 := (KP.get (KSnd.get (of_eq (P := KSnd (KP s0)) e3 (coreRead_keeps k4))))
          exact (KExc.mk (KP.mk h2))
        · rename_i y4 y5 y6 e7
          have h6 : Keeps s0 y6 := (KP.get (KSnd.get (of_eq (P := KSnd (KP s0)) e7 (coreRead_keeps k4))))
          exact (KExc.err KTried.fault)) (KExc.err (KTried.wait (corePrep_keeps k4))))

theorem loadEngine_keeps {s0 a1 a2 a3} (k3 : Keeps s0 a3) : KTried s0 (loadEngine a1 a2 a3) := by
  unfold loadEngine
  extract_lets -merge +onlyGivenNames base1
  try clear_value base1
  split
  · rename_i y2 e3
    have h2 : KTried s0 y2 := (KExc.getErr (of_eq (P := KExc (KTried s0) (KP s0)) e3 (readHeader_keeps k3)))
    exact h2
  · rename_i y4 y5 e6
    have h5 : Keeps s0 y5 := (KP.get (KExc.getOk (of_eq (P := KExc (KTried s0) (KP s0)) e6 (readHeader_keeps k3))))
    exact (ite_keeps (by
        split
        · rename_i y7 e8
          have h7 : KTried s0 y7 := (KExc.getErr (of_eq (P := KExc (KTried s0) (KP s0)) e8 (readArea_keeps h5)))
          exact h7
        · rename_i y9 y10 e11
          have h10 : Keeps s0 y10 := (KP.get (KExc.getOk (of_eq (P := KExc (KTried s0) (KP s0)) e11 (readArea_keeps h5))))
          exact (KTried.done (State.modCore_keeps h10))) (KTried.done (State.modCore_keeps h5)))

theorem moveEngine_keeps {s0 a1 a2 a3} (k3 : Keeps s0 a3) : KTried s0 (moveEngine a1 a2 a3) := by
  unfold moveEngine
  exact (ite_keeps (KTried.wait k3) (ite_keeps (KTried.done k3) (by
      split
      · rename_i y1 e2
        have h1 : Keeps s0 y1 := (KTried.getDone (of_eq (P := KTried s0) e2 (saveEngine_keeps k3)))
        exact (loadEngine_keeps h1)
      · rename_i y3 e4
        have h3 : Keeps s0 y3 := (KTried.getWait (of_eq (P := KTried s0) e4 (saveEngine_keeps k3)))
        exact (KTried.wait h3)
      · exact KTried.fault)))

theorem tried_keeps {s0 a1 a2 a3 a4} (k2 : Keeps s0 a2) (k3 : KTried s0 a3) (k4 : ∀ z1, Keeps s0 z1 → Keeps s0 (a4 z1)) : Keeps s0 (tried a1 a2 a3 a4) := by
  unfold tried
  split
  · rename_i y1
    have h1 : Keeps s0 y1 := (KTried.getWait k3)
    exact h1
  · exact (trapAcc_keeps k2)
  · rename_i y4
    have h4 : Keeps s0 y4 := (KTried.getDone k3)
    exact (k4 _ h4)

theorem opEcall_keeps {s0 a1 a2 a3 a4 a5} (k5 : Keeps s0 a5) : Keeps s0 (opEcall a1 a2 a3 a4 a5) := by
  unfold opEcall
  exact (issue4_keeps (fun _ h1 => (trap_keeps h1)) k5)

theorem opBreak_keeps {s0 a1 a2 a3 a4 a5} (k5 : Keeps s0 a5) : Keeps s0 (opBreak a1 a2 a3 a4 a5) := by
  unfold opBreak
  exact (issue4_keeps (fun _ h1 => (trap_keeps h1)) k5)

theorem opMret_keeps {s0 a1 a2 a3 a4 a5} (k5 : Keeps s0 a5) : Keeps s0 (opMret a1 a2 a3 a4 a5) := by
  unfold opMret
  exact (issue4_keeps (fun _ h1 => (leaveExc_keeps h1)) k5)

theorem opWfi_keeps {s0 a1 a2 a3 a4 a5} (k5 : Keeps s0 a5) : Keeps s0 (opWfi a1 a2 a3 a4 a5) := by
  unfold opWfi
  exact (issue_keeps (fun _ h1 => (ite_keeps (State.retire_keeps h1) (State.modCur_keeps h1))) k5)

theorem fenceBody_keeps {s0 a1 a2 a3} (k2 : ∀ z1, Keeps s0 z1 → Keeps s0 (a2 z1)) (k3 : Keeps s0 a3) : Keeps s0 (fenceBody a1 a2 a3) := by
  unfold fenceBody
  exact (engGuard_keeps (fun _ h1 => (ite_keeps h1 (k2 _ h1))) k3)

theorem opFence_keeps {s0 a1 a2 a3 a4 a5} (k5 : Keeps s0 a5) : Keeps s0 (opFence a1 a2 a3 a4 a5) := by
  unfold opFence
  exact (issue4_keeps (fun _ h1 => (fenceBody_keeps (fun _ h2 => (State.retire_keeps h2)) h1)) k5)

theorem opFenceI_keeps {s0 a1 a2 a3 a4 a5} (k5 : Keeps s0 a5) : Keeps s0 (opFenceI a1 a2 a3 a4 a5) := by
  unfold opFenceI
  exact (issue4_keeps (fun _ h1 => (fenceBody_keeps (fun _ h2 => (State.retire_keeps (State.modCore_keeps h2))) h1)) k5)

theorem opTswitch_keeps {s0 a1 a2 a3 a4 a5} (k5 : Keeps s0 a5) : Keeps s0 (opTswitch a1 a2 a3 a4 a5) := by
  unfold opTswitch
  exact (issue4_keeps (fun _ h1 => (by
      extract_lets -merge +onlyGivenNames i2
      try clear_value i2
      extract_lets -merge +onlyGivenNames k3
      try clear_value k3
      extract_lets -merge +onlyGivenNames st4
      try clear_value st4
      exact (ite_keeps (State.retire_keeps h1) (ite_keeps (trap_keeps h1) (by
          extract_lets -merge +onlyGivenNames s5
          have h5 : Keeps s0 s5 := (State.retire_keeps h1)
          clear_value s5
          extract_lets -merge +onlyGivenNames s6
          have h6 : Keeps s0 s6 := (State.modCtx_keeps h5)
          clear_value s6
          extract_lets -merge +onlyGivenNames s7
          have h7 : Keeps s0 s7 := (ite_keeps h6 (State.setFld_keeps h6))
          clear_value s7
          exact (switchIn_keeps h7)))))) k5)

theorem opCtxsave_keeps {s0 a1 a2 a3 a4 a5} (k5 : Keeps s0 a5) : Keeps s0 (opCtxsave a1 a2 a3 a4 a5) := by
  unfold opCtxsave
  exact (issue4_keeps (fun _ h1 => (engGuard_keeps (fun _ h2 => (by
      extract_lets -merge +onlyGivenNames i3
      try clear_value i3
      extract_lets -merge +onlyGivenNames k4
      try clear_value k4
      extract_lets -merge +onlyGivenNames x5
      try clear_value x5
      extract_lets -merge +onlyGivenNames x6
      try clear_value x6
      extract_lets -merge +onlyGivenNames base7
      try clear_value base7
      exact (ite_keeps h2 (tried_keeps h2 (by
          split
          · rename_i y8 e9
            have h8 : KTried s0 y8 := (KExc.getErr (of_eq (P := KExc (KTried s0) (KP s0)) e9 (readHeader_keeps h2)))
            exact h8
          · rename_i y10 y11 e12
            have h11 : Keeps s0 y11 := (KP.get (KExc.getOk (of_eq (P := KExc (KTried s0) (KP s0)) e12 (readHeader_keeps h2))))
            extract_lets -merge +onlyGivenNames eng13
            try clear_value eng13
            extract_lets -merge +onlyGivenNames hd14
            try clear_value hd14
            exact (writeParts_keeps h11)) (fun _ h15 => (State.retire_keeps h15)))))) h1)) k5)

theorem opCtxload_keeps {s0 a1 a2 a3 a4 a5} (k5 : Keeps s0 a5) : Keeps s0 (opCtxload a1 a2 a3 a4 a5) := by
  unfold opCtxload
  exact (issue4_keeps (fun _ h1 => (by
      extract_lets -merge +onlyGivenNames i2
      try clear_value i2
      extract_lets -merge +onlyGivenNames base3
      try clear_value base3
      exact (ite_keeps (trap_keeps h1) (tried_keeps h1 (by
          split
          · rename_i y4 e5
            have h4 : KTried s0 y4 := (KExc.getErr (of_eq (P := KExc (KTried s0) (KP s0)) e5 (readArea_keeps h1)))
            exact h4
          · rename_i y6 y7 e8
            have h7 : Keeps s0 y7 := (KP.get (KExc.getOk (of_eq (P := KExc (KTried s0) (KP s0)) e8 (readArea_keeps h1))))
            extract_lets -merge +onlyGivenNames bank9
            try clear_value bank9
            extract_lets -merge +onlyGivenNames t10
            have h10 : KTried s0 t10 := (ite_keeps (ite_keeps (KTried.wait h7) (by
                split
                · rename_i y11 e12
                  have h11 : Keeps s0 y11 := (KTried.getDone (of_eq (P := KTried s0) e12 (saveEngine_keeps h7)))
                  exact (loadEngine_keeps h11)
                · rename_i y13 e14
                  have h13 : Keeps s0 y13 := (KTried.getWait (of_eq (P := KTried s0) e14 (saveEngine_keeps h7)))
                  exact (KTried.wait h13)
                · exact KTried.fault)) (KTried.done h7))
            clear_value t10
            split
            · rename_i y17
              have h17 : Keeps s0 y17 := (KTried.getDone h10)
              exact (KTried.done (State.modCtx_keeps h17))
            · rename_i y18
              have h18 : Keeps s0 y18 := (KTried.getWait h10)
              exact (KTried.wait h18)
            · exact KTried.fault) (fun _ h21 => (State.retire_keeps h21)))))) k5)

theorem tcfgBarrier_keeps {s0 a1 a2 a3 a4 a5} (k5 : Keeps s0 a5) : Keeps s0 (tcfgBarrier a1 a2 a3 a4 a5) := by
  unfold tcfgBarrier
  exact (State.modCore_keeps k5)

theorem mcfgBarrier_keeps {s0 a1 a2 a3 a4} (k4 : Keeps s0 a4) : Keeps s0 (mcfgBarrier a1 a2 a3 a4) := by
  unfold mcfgBarrier
  exact (State.modCore_keeps k4)

theorem csrDo_keeps {s0 a1 a2 a3 a4 a5 a6 a7 a8} (k8 : Keeps s0 a8) : Keeps s0 (csrDo a1 a2 a3 a4 a5 a6 a7 a8) := by
  unfold csrDo
  extract_lets -merge +onlyGivenNames k1
  try clear_value k1
  extract_lets -merge +onlyGivenNames i2
  try clear_value i2
  split
  · exact (trap_keeps k8)
  · extract_lets -merge +onlyGivenNames new3
    try clear_value new3
    extract_lets -merge +onlyGivenNames back4
    try clear_value back4
    exact (ite_keeps (ite_keeps k8 (ite_keeps (trap_keeps k8) (State.retire_keeps (tcfgBarrier_keeps k8)))) (ite_keeps (ite_keeps k8 (ite_keeps (trap_keeps k8) (State.retire_keeps (mcfgBarrier_keeps k8)))) (ite_keeps (ite_keeps (trap_keeps k8) (State.retireG_keeps (State.modCore_keeps k8))) (by
        split
        · exact (trap_keeps k8)
        · rename_i y6 y7 e8
          have h7 : Keeps s0 y7 := (KP.get (KOpt.get (of_eq (P := KOpt (KP s0)) e8 (coreRegRead_keeps k8))))
          exact (ite_keeps (State.retireG_keeps h7) (ite_keeps (trap_keeps k8) (by
              split
              · rename_i y9 e10
                have h9 : Keeps s0 y9 := (KOpt.get (of_eq (P := KOpt (Keeps s0)) e10 (coreRegWrite_keeps (State.retireG_keeps h7))))
                exact h9
              · exact (trap_keeps k8))))))))

theorem csrOp_keeps {s0 a1 a2 a3 a4 a5 a6 a7 a8} (k8 : Keeps s0 a8) : Keeps s0 (csrOp a1 a2 a3 a4 a5 a6 a7 a8) := by
  unfold csrOp
  extract_lets -merge +onlyGivenNames off1
  try clear_value off1
  extract_lets -merge +onlyGivenNames write2
  try clear_value write2
  extract_lets -merge +onlyGivenNames w3
  try clear_value w3
  exact (issue4_keeps (fun _ h4 => (ite_keeps (owned_keeps (fun _ h5 => (csrDo_keeps h5)) h4) (csrDo_keeps h4))) k8)

theorem contextSwitchDone_keeps {s0 a1 a2} (k2 : Keeps s0 a2) : Keeps s0 (contextSwitchDone a1 a2) := by
  unfold contextSwitchDone
  exact (State.modCore_keeps k2)

theorem cycleCmpMatch_keeps {s0 a1 a2} (k2 : Keeps s0 a2) : Keeps s0 (cycleCmpMatch a1 a2) := by
  unfold cycleCmpMatch
  exact (cycSet_keeps k2)

end Sys2Proof.Machine
end

