-- ==== Sys2Proof/Laws/KeepTiles.lean ====
section
/-! SUPPORT. What the operations of Machine/Tiles.lean keep (Laws/Keeps.lean). -/

namespace Sys2Proof.Machine

theorem State.modEng_keeps {s0 a1 a2 a3} (k1 : Keeps s0 a1) : Keeps s0 (State.modEng a1 a2 a3) := by
  unfold State.modEng
  exact (State.modCore_keeps k1)

theorem tileRow_keeps {s0 c t r v s} (h : Keeps s0 s) : Keeps s0 (tileRow c t r v s) := by
  unfold tileRow
  exact modFree_keeps h

theorem tileNf_keeps {s0 a1 a2 a3 a4} (k4 : Keeps s0 a4) : Keeps s0 (tileNf a1 a2 a3 a4) := by
  unfold tileNf
  exact (State.modEng_keeps k4)

theorem shapeTrap_keeps {s0 a1 a2 a3} (k3 : Keeps s0 a3) : Keeps s0 (shapeTrap a1 a2 a3) := by
  unfold shapeTrap
  exact (trap_keeps k3)

theorem touchRows_keeps {s0 a1 a2 a3 a4 a5 a6 a7} (k7 : Keeps s0 a7) : Keeps s0 (touchRows a1 a2 a3 a4 a5 a6 a7) := by
  unfold touchRows
  extract_lets -merge +onlyGivenNames s1
  have h1 : Keeps s0 s1 := (each_keeps (P := Keeps s0) (fun _ _ h2 => (touchTcN_keeps h2)) k7)
  clear_value s1
  split
  · exact (ite_keeps h1 (touchTcN_keeps h1))
  · exact h1

theorem tloadEnd_keeps {s0 c t bad s} (h : Keeps s0 s) : Keeps s0 (tloadEnd c t bad s) := by
  unfold tloadEnd
  split
  · exact State.retire_keeps (State.modCur_keeps (ite_keeps h (tileRow_keeps h)))
  · exact enterExc_keeps (State.modCur_keeps (modFree_keeps h))

theorem opTload_keeps {s0 a1 a2 a3 a4 a5 a6 a7} (k7 : Keeps s0 a7) : Keeps s0 (opTload a1 a2 a3 a4 a5 a6 a7) := by
  unfold opTload
  exact (issue4_keeps (fun _ h1 => (owned_keeps (fun _ h2 => (by
      extract_lets -merge +onlyGivenNames k3
      try clear_value k3
      exact (ite_keeps h2 (ite_keeps (shapeTrap_keeps h2) (by
          extract_lets -merge +onlyGivenNames st4
          try clear_value st4
          extract_lets -merge +onlyGivenNames n5
          try clear_value n5
          split
          · extract_lets -merge +onlyGivenNames s6
            have h6 : Keeps s0 s6 := (touchRows_keeps h2)
            clear_value s6
            exact (ite_keeps (tloadEnd_keeps h6) (State.modCur_keeps h6))))))) h1)) k7)

theorem tloadRow_keeps {s0 a1 a2 a3 a4} (k4 : Keeps s0 a4) : Keeps s0 (tloadRow a1 a2 a3 a4) := by
  unfold tloadRow
  split
  · split
    · exact k4
    · extract_lets -merge +onlyGivenNames k1
      try clear_value k1
      extract_lets -merge +onlyGivenNames rb2
      try clear_value rb2
      extract_lets -merge +onlyGivenNames pl3
      try clear_value pl3
      exact (ite_keeps (corePrepAt_keeps k4) (by
          split
          · rename_i y4 y5 y6 e7
            have h6 : Keeps s0 y6 := (KP.get (KSnd.get (of_eq (P := KSnd (KP s0)) e7 (coreReadL_keeps k4))))
            extract_lets -merge +onlyGivenNames rest8
            try clear_value rest8
            split
            · rename_i y9 y10 y11 e12
              have h11 : Keeps s0 y11 := (KP.get (KSnd.get (of_eq (P := KSnd (KP s0)) e12 (by
                  split
                  · exact (KSnd.mk (KP.mk h6))
                  · exact (KSnd.mk (KP.mk (State.count_keeps (tileNf_keeps (tileRow_keeps h6)))))))))
              exact (ite_keeps (tloadEnd_keeps h11) (State.modCur_keeps h11))))
  · exact k4

theorem postBytes_keeps {s0 a1 a2 a3 a4 a5 a6 a7 a8 a9 a10} (k10 : Keeps s0 a10) : KOpt (Keeps s0) (postBytes a1 a2 a3 a4 a5 a6 a7 a8 a9 a10) := by
  induction a9 generalizing a1 a2 a3 a4 a5 a6 a7 a8 a10 with
  | nil =>
    rw [postBytes.eq_1]
    exact (KOpt.mk k10)
  | cons x r ih =>
    rw [postBytes.eq_2]
    split
    · split
      · exact (ih (spadWrite_keeps k10))
      · split
        · rename_i y1 e2
          have h1 : Keeps s0 y1 := (KOpt.get (of_eq (P := KOpt (Keeps s0)) e2 (postWrite_keeps k10)))
          exact (ih h1)
        · exact KOpt.non
      · exact (ih k10)

theorem postRow_keeps {s0 a1 a2 a3 a4 a5 a6} (k6 : Keeps s0 a6) : KOpt (Keeps s0) (postRow a1 a2 a3 a4 a5 a6) := by
  unfold postRow
  extract_lets -merge +onlyGivenNames k1
  try clear_value k1
  extract_lets -merge +onlyGivenNames bs2
  try clear_value bs2
  exact (postBytes_keeps k6)

theorem tstoreEnd_keeps {s0 a1 a2 a3 a4} (k4 : Keeps s0 a4) : Keeps s0 (tstoreEnd a1 a2 a3 a4) := by
  unfold tstoreEnd
  split
  · exact (State.count_keeps (State.modCtx_keeps k4))
  · exact (enterExc_keeps (State.modCtx_keeps k4))

theorem tstoreRows_keeps {s0 a1 a2 a3 a4 a5 a6} (k6 : Keeps s0 a6) : Keeps s0 (tstoreRows a1 a2 a3 a4 a5 a6) := by
  induction a5 generalizing a1 a2 a3 a4 a6 with
  | nil =>
    rw [tstoreRows.eq_1]
    exact (tstoreEnd_keeps k6)
  | cons x r ih =>
    rw [tstoreRows.eq_2]
    exact (ite_keeps (State.modCtx_keeps k6) (by
        split
        · exact (State.modCtx_keeps k6)
        · rename_i y2 e3
          have h2 : Keeps s0 y2 := (KOpt.get (of_eq (P := KOpt (Keeps s0)) e3 (postRow_keeps k6)))
          exact (ite_keeps (State.modCtx_keeps h2) (ih (State.count_keeps h2)))))

theorem tstoreNext_keeps {s0 a1 a2 a3} (k3 : Keeps s0 a3) : Keeps s0 (tstoreNext a1 a2 a3) := by
  unfold tstoreNext
  split
  · exact (ite_keeps k3 (tstoreRows_keeps (State.count_keeps k3)))
  · exact k3

theorem opTstore_keeps {s0 a1 a2 a3 a4 a5 a6 a7} (k7 : Keeps s0 a7) : Keeps s0 (opTstore a1 a2 a3 a4 a5 a6 a7) := by
  unfold opTstore
  exact (issue_keeps (fun _ h1 => (owned_keeps (fun _ h2 => (by
      extract_lets -merge +onlyGivenNames k3
      try clear_value k3
      split
      · exact (tstoreRows_keeps h2)
      · exact (ite_keeps h2 (ite_keeps (shapeTrap_keeps h2) (ite_keeps (trap_keeps h2) (engGuard_keeps (fun _ h4 => (by
            extract_lets -merge +onlyGivenNames st5
            try clear_value st5
            split
            · exact (tstoreRows_keeps (touchRows_keeps h4)))) h2)))))) h1)) k7)

theorem opTzero_keeps {s0 a1 a2 a3 a4 a5} (k5 : Keeps s0 a5) : Keeps s0 (opTzero a1 a2 a3 a4 a5) := by
  unfold opTzero
  exact (issue4_keeps (fun _ h1 => (owned_keeps (fun _ h2 => (by
      extract_lets -merge +onlyGivenNames k3
      try clear_value k3
      exact (ite_keeps h2 (ite_keeps (shapeTrap_keeps h2) (State.retire_keeps (State.modEng_keeps h2)))))) h1)) k5)

theorem opTrel_keeps {s0 a1 a2 a3 a4 a5} (k5 : Keeps s0 a5) : Keeps s0 (opTrel a1 a2 a3 a4 a5) := by
  unfold opTrel
  exact (issue4_keeps (fun _ h1 => (owned_keeps (fun _ h2 => (ite_keeps h2 (ite_keeps (State.retire_keeps h2) (State.retire_keeps (State.modCore_keeps h2))))) h1)) k5)

theorem trelApply_keeps {s0 a1 a2} (k2 : Keeps s0 a2) : Keeps s0 (trelApply a1 a2) := by
  unfold trelApply
  extract_lets -merge +onlyGivenNames k1
  try clear_value k1
  split
  · exact k2
  · exact (ite_keeps k2 (State.setCore_keeps k2))

theorem opTconf_keeps {s0 a1 a2 a3 a4 a5 a6} (k6 : Keeps s0 a6) : Keeps s0 (opTconf a1 a2 a3 a4 a5 a6) := by
  unfold opTconf
  extract_lets -merge +onlyGivenNames w1
  try clear_value w1
  exact (issue4_keeps (fun _ h2 => (owned_keeps (fun _ h3 => (ite_keeps h3 (ite_keeps (trap_keeps h3) (State.retire_keeps (tcfgBarrier_keeps h3))))) h2)) k6)

theorem csrBackWrite_keeps {s0 a1 a2 a3 a4} (k4 : Keeps s0 a4) : Keeps s0 (csrBackWrite a1 a2 a3 a4) := by
  unfold csrBackWrite
  exact (State.modCore_keeps (State.modCtx_keeps k4))

theorem tcfgBarrierApply_keeps {s0 a1 a2} (k2 : Keeps s0 a2) : Keeps s0 (tcfgBarrierApply a1 a2) := by
  unfold tcfgBarrierApply
  extract_lets -merge +onlyGivenNames k1
  try clear_value k1
  split
  · exact k2
  · exact (ite_keeps k2 (by
        extract_lets -merge +onlyGivenNames old2
        try clear_value old2
        extract_lets -merge +onlyGivenNames s3
        have h3 : Keeps s0 s3 := (State.setCore_keeps k2)
        clear_value s3
        split
        · exact (tcfgSet_keeps h3)
        · exact (csrBackWrite_keeps (tcfgSet_keeps h3))))

end Sys2Proof.Machine
end

