-- ==== Sys2Proof/Laws/KeepFlume.lean ====
section
/-! SUPPORT. What the operations of Machine/Flume.lean keep (Laws/Keeps.lean). -/

namespace Sys2Proof.Machine

theorem State.setFl_keeps {s0 a1 a2 a3 a4} (k1 : Keeps s0 a1) : Keeps s0 (State.setFl a1 a2 a3 a4) := by
  unfold State.setFl
  exact (State.modCore_keeps k1)

theorem flSync_keeps {s0 a1 a2 a3} (k3 : Keeps s0 a3) : Keeps s0 (flSync a1 a2 a3) := by
  unfold flSync
  extract_lets -merge +onlyGivenNames x1
  try clear_value x1
  extract_lets -merge +onlyGivenNames b2
  try clear_value b2
  exact (State.setFld_keeps (State.setFld_keeps k3))

theorem flFault_keeps {s0 a1 a2 a3 a4 a5 a6} (k6 : Keeps s0 a6) : Keeps s0 (flFault a1 a2 a3 a4 a5 a6) := by
  unfold flFault
  extract_lets -merge +onlyGivenNames s1
  have h1 : Keeps s0 s1 := (State.setFld_keeps (State.setFld_keeps k6))
  clear_value s1
  exact (State.setFl_keeps h1)

theorem missRecord_keeps {s0 a1 a2 a3 a4 a5 a6 a7} (k7 : Keeps s0 a7) : Keeps s0 (missRecord a1 a2 a3 a4 a5 a6 a7) := by
  unfold missRecord
  extract_lets -merge +onlyGivenNames r1
  try clear_value r1
  exact (ite_keeps k7 (by
      extract_lets -merge +onlyGivenNames x2
      try clear_value x2
      extract_lets -merge +onlyGivenNames slot3
      try clear_value slot3
      extract_lets -merge +onlyGivenNames va4
      try clear_value va4
      extract_lets -merge +onlyGivenNames bs5
      try clear_value bs5
      split
      · exact (engError_keeps (State.setFld_keeps (touchTcN_keeps k7)))
      · extract_lets -merge +onlyGivenNames s6
        have h6 : Keeps s0 s6 := (State.setFld_keeps k7)
        clear_value s6
        split
        · rename_i y7 e8
          have h7 : Keeps s0 y7 := (KOpt.get (of_eq (P := KOpt (Keeps s0)) e8 (postBytes_keeps h6)))
          exact h7
        · exact (coreWrite_keeps h6)))

theorem flushMiss_keeps {s0 a1 a2 a3 a4 a5 a6} (k6 : Keeps s0 a6) : Keeps s0 (flushMiss a1 a2 a3 a4 a5 a6) := by
  unfold flushMiss
  extract_lets -merge +onlyGivenNames x1
  try clear_value x1
  extract_lets -merge +onlyGivenNames s2
  have h2 : Keeps s0 s2 := (each_keeps (P := Keeps s0) (fun _ _ h3 => (ite_keeps (missRecord_keeps h3) h3)) k6)
  clear_value s2
  exact (State.setFl_keeps h2)

theorem swaitsEnd_keeps {s0 a1 a2 a3} (k3 : Keeps s0 a3) : Keeps s0 (swaitsEnd a1 a2 a3) := by
  unfold swaitsEnd
  exact (upto_keeps (P := Keeps s0) (fun _ _ h1 => (by
      split
      · exact (ite_keeps (enterExc_keeps (State.setFld_keeps h1)) h1)
      · exact h1)) k3)

theorem flStop_keeps {s0 a1 a2 a3} (k3 : Keeps s0 a3) : Keeps s0 (flStop a1 a2 a3) := by
  unfold flStop
  extract_lets -merge +onlyGivenNames s1
  have h1 : Keeps s0 s1 := (flushMiss_keeps k3)
  clear_value s1
  extract_lets -merge +onlyGivenNames s2
  have h2 : Keeps s0 s2 := (State.setFld_keeps h1)
  clear_value s2
  exact (swaitsEnd_keeps (flSync_keeps (State.setFl_keeps h2)))

theorem flIns_keeps {s0 a1 a2 a3 a4 a5 a6 a7 a8} (k7 : ∀ z1 z2, Keeps s0 z2 → Keeps s0 (a7 z1 z2)) (k8 : Keeps s0 a8) : Keeps s0 (flIns a1 a2 a3 a4 a5 a6 a7 a8) := by
  unfold flIns
  extract_lets -merge +onlyGivenNames w1
  try clear_value w1
  exact (issue_keeps (fun _ h2 => (ite_keeps (k7 _ _ h2) (trap_keeps h2))) k8)

theorem opSarm_keeps {s0 a1 a2 a3 a4 a5} (k5 : Keeps s0 a5) : Keeps s0 (opSarm a1 a2 a3 a4 a5) := by
  unfold opSarm
  exact (flIns_keeps (fun _ _ h1 => (by
      extract_lets -merge +onlyGivenNames cfg2
      try clear_value cfg2
      extract_lets -merge +onlyGivenNames st3
      try clear_value st3
      extract_lets -merge +onlyGivenNames per4
      try clear_value per4
      extract_lets -merge +onlyGivenNames bud5
      try clear_value bud5
      exact (ite_keeps (State.retireG_keeps h1) (ite_keeps (State.retireG_keeps h1) (ite_keeps h1 (by
          extract_lets -merge +onlyGivenNames s6
          have h6 : Keeps s0 s6 := (ite_keeps h1 (flStop_keeps h1))
          clear_value s6
          extract_lets -merge +onlyGivenNames s7
          have h7 : Keeps s0 s7 := (State.setFld_keeps (State.setReg_keeps h6))
          clear_value s7
          extract_lets -merge +onlyGivenNames s8
          have h8 : Keeps s0 s8 := (State.setReg_keeps h7)
          clear_value s8
          extract_lets -merge +onlyGivenNames s9
          have h9 : Keeps s0 s9 := (State.setFld_keeps h8)
          clear_value s9
          extract_lets -merge +onlyGivenNames x10
          try clear_value x10
          extract_lets -merge +onlyGivenNames s11
          have h11 : Keeps s0 s11 := (State.setFl_keeps h9)
          clear_value s11
          exact (State.retireG_keeps h11))))))) k5)

theorem streamTrap_keeps {s0 a1 a2 a3 a4} (k4 : Keeps s0 a4) : Keeps s0 (streamTrap a1 a2 a3 a4) := by
  unfold streamTrap
  exact (trap_keeps (State.setFld_keeps k4))

theorem opSwait_keeps {s0 a1 a2 a3 a4 a5} (k5 : Keeps s0 a5) : Keeps s0 (opSwait a1 a2 a3 a4 a5) := by
  unfold opSwait
  exact (flIns_keeps (fun _ _ h1 => (by
      extract_lets -merge +onlyGivenNames x2
      try clear_value x2
      exact (ite_keeps (streamTrap_keeps h1) (ite_keeps (streamTrap_keeps h1) (by
          split
          · extract_lets -merge +onlyGivenNames s3
            have h3 : Keeps s0 s3 := (State.setFl_keeps h1)
            clear_value s3
            exact (acquire_keeps (State.retireG_keeps (flSync_keeps h3)))
          · exact (ite_keeps (acquire_keeps (State.retireG_keeps h1)) (by
                split
                · exact (streamTrap_keeps h1)
                · exact (ite_keeps (streamTrap_keeps h1) (State.modCur_keeps h1))))))))) k5)

theorem opSfree_keeps {s0 a1 a2 a3 a4 a5} (k5 : Keeps s0 a5) : Keeps s0 (opSfree a1 a2 a3 a4 a5) := by
  unfold opSfree
  exact (flIns_keeps (fun _ _ h1 => (by
      extract_lets -merge +onlyGivenNames x2
      try clear_value x2
      exact (ite_keeps (streamTrap_keeps h1) (ite_keeps (streamTrap_keeps h1) (by
          split
          · exact (streamTrap_keeps h1)
          · exact (State.retireG_keeps (flSync_keeps (State.setFl_keeps h1)))))))) k5)

theorem opSstop_keeps {s0 a1 a2 a3 a4 a5} (k5 : Keeps s0 a5) : Keeps s0 (opSstop a1 a2 a3 a4 a5) := by
  unfold opSstop
  exact (flIns_keeps (fun _ _ h1 => (ite_keeps h1 (State.retireG_keeps (ite_keeps h1 (flStop_keeps h1))))) k5)

theorem opSstat_keeps {s0 a1 a2 a3 a4 a5} (k5 : Keeps s0 a5) : Keeps s0 (opSstat a1 a2 a3 a4 a5) := by
  unfold opSstat
  exact (flIns_keeps (fun _ _ h1 => (State.retireG_keeps h1)) k5)

theorem readEnt_keeps {s0 a1 a2 a3 a4 a5} (k5 : Keeps s0 a5) : KP s0 (readEnt a1 a2 a3 a4 a5) := by
  unfold readEnt
  extract_lets -merge +onlyGivenNames va1
  try clear_value va1
  split
  · exact (KP.mk (touchTcN_keeps k5))
  · split
    · rename_i y2 y3 y4 e5
      have h4 : Keeps s0 y4 := (KP.get (KSnd.get (of_eq (P := KSnd (KP s0)) e5 (coreRead_keeps k5))))
      exact (KP.mk h4)
    · rename_i y6 y7 e8
      have h7 : Keeps s0 y7 := (KP.get (KSnd.get (of_eq (P := KSnd (KP s0)) e8 (coreRead_keeps k5))))
      extract_lets -merge +onlyGivenNames w09
      try clear_value w09
      extract_lets -merge +onlyGivenNames w110
      try clear_value w110
      exact (ite_keeps (KP.mk h7) (KP.mk h7))

theorem gather_keeps {s0 c n p k j last acc s} (h : Keeps s0 s) : KSnd (KSnd (KP s0)) (gather c n p k j last acc s) := by
  induction k generalizing j last acc s with
  | zero => exact KSnd.mk (KSnd.mk (KP.mk h))
  | succ k ih =>
    unfold gather
    refine ite_keeps (KSnd.mk (KSnd.mk (KP.mk h))) (ite_keeps (KSnd.mk (KSnd.mk (KP.mk h))) ?_)
    split
    · exact KSnd.mk (KSnd.mk (KP.mk h))
    · rename_i y1 y2 e
      have h2 : Keeps s0 y2 := KP.get (of_eq (P := KP s0) e (readEnt_keeps h))
      exact ite_keeps (ih h2) (KSnd.mk (KSnd.mk (KP.mk h)))

theorem runAhead_keeps {s0 c n p lo k u j b s} (h : Keeps s0 s) : KP s0 (runAhead c n p lo k u j b s) := by
  induction k generalizing u j b s with
  | zero => exact KP.mk h
  | succ k ih =>
    cases u with
    | zero => exact KP.mk h
    | succ u =>
      unfold runAhead
      split
      · exact ih h
      · rename_i es next e
        have h2 : Keeps s0 (if (es.all fun e => blkKind s c n e == .staged) && decide (lo ≤ b) then
            each (fun (e : ListEnt) s => each (fun vl s => prefetch true c (s.core c).run vl s) (vlines e.addr e.len) s) es s else s) :=
          ite_keeps (each_keeps (P := Keeps s0) (fun _ _ k => each_keeps (P := Keeps s0) (fun _ _ k => prefetch_keeps k) k) h) h
        exact ite_keeps (KP.mk h2) (ih h2)

theorem runAheadNow_keeps {s0 a1 a2 a3} (k3 : Keeps s0 a3) : Keeps s0 (runAheadNow a1 a2 a3) := by
  unfold runAheadNow
  extract_lets -merge +onlyGivenNames x1
  try clear_value x1
  split
  · exact (ite_keeps k3 (by
        split
        · rename_i y2 y3 e4
          have h3 : Keeps s0 y3 := (KP.get (of_eq (P := KP s0) e4 (runAhead_keeps k3)))
          exact (State.setFl_keeps h3)))
  · exact k3

theorem unitArrives_keeps {s0 a1 a2 a3 a4 a5 a6 a7} (k7 : Keeps s0 a7) : Keeps s0 (unitArrives a1 a2 a3 a4 a5 a6 a7) := by
  unfold unitArrives
  extract_lets -merge +onlyGivenNames x1
  try clear_value x1
  extract_lets -merge +onlyGivenNames now2
  try clear_value now2
  extract_lets -merge +onlyGivenNames m3
  try clear_value m3
  extract_lets -merge +onlyGivenNames ended4
  try clear_value ended4
  extract_lets -merge +onlyGivenNames x'5
  try clear_value x'5
  extract_lets -merge +onlyGivenNames s6
  have h6 : Keeps s0 s6 := (State.setFl_keeps k7)
  clear_value s6
  extract_lets -merge +onlyGivenNames s7
  have h7 : Keeps s0 s7 := (ite_keeps (State.setFld_keeps h6) h6)
  clear_value s7
  exact (flSync_keeps (flushMiss_keeps h7))

theorem unitFails_keeps {s0 a1 a2 a3 a4 a5} (k5 : Keeps s0 a5) : Keeps s0 (unitFails a1 a2 a3 a4 a5) := by
  unfold unitFails
  extract_lets -merge +onlyGivenNames x1
  try clear_value x1
  exact (flSync_keeps (flushMiss_keeps (flFault_keeps k5)))

theorem feedSlot_keeps {s0 a1 a2 a3} (k3 : Keeps s0 a3) : Keeps s0 (feedSlot a1 a2 a3) := by
  unfold feedSlot
  extract_lets -merge +onlyGivenNames k1
  try clear_value k1
  extract_lets -merge +onlyGivenNames x2
  try clear_value x2
  split
  · exact k3
  · extract_lets -merge +onlyGivenNames off3
    try clear_value off3
    extract_lets -merge +onlyGivenNames cut4
    try clear_value cut4
    exact (ite_keeps k3 (ite_keeps k3 (by
        extract_lets -merge +onlyGivenNames bad5
        try clear_value bad5
        extract_lets -merge +onlyGivenNames seen6
        have h6 : Keeps s0 seen6 := (each_keeps (P := Keeps s0) (fun _ _ h7 => (each_keeps (P := Keeps s0) (fun _ _ h8 => (spadSeen_keeps h8)) h7)) k3)
        clear_value seen6
        split
        · exact (flSync_keeps (flushMiss_keeps (flFault_keeps (State.setFl_keeps h6))))
        · extract_lets -merge +onlyGivenNames bs9
          try clear_value bs9
          split
          · exact (flSync_keeps (State.setFl_keeps h6)))))

theorem feedFill_keeps {s0 a1 a2 a3} (k3 : Keeps s0 a3) : Keeps s0 (feedFill a1 a2 a3) := by
  unfold feedFill
  exact (ite_keeps (feedSlot_keeps (feedSlot_keeps (feedSlot_keeps (feedSlot_keeps k3)))) k3)

theorem flumeUnitArrival_keeps {s0 a1 a2 a3 a4} (k4 : Keeps s0 a4) : Keeps s0 (flumeUnitArrival a1 a2 a3 a4) := by
  unfold flumeUnitArrival
  extract_lets -merge +onlyGivenNames x1
  try clear_value x1
  split
  · exact k4
  · exact (ite_keeps k4 (ite_keeps (corePrep_keeps k4) (by
        split
        · rename_i y2 e3
          have h2 : Keeps s0 y2 := (KP.get (of_eq (P := KP s0) e3 (readEnt_keeps k4)))
          exact (unitFails_keeps h2)
        · rename_i y4 y5 e6
          have h5 : Keeps s0 y5 := (KP.get (of_eq (P := KP s0) e6 (readEnt_keeps k4)))
          extract_lets -merge +onlyGivenNames next7
          try clear_value next7
          split
          · exact (unitFails_keeps h5)
          · exact (feedFill_keeps (runAheadNow_keeps (unitArrives_keeps h5)))
          · split
            · rename_i y8 y9 y10 y11 e12
              have h11 : Keeps s0 y11 := (KP.get (KSnd.get (KSnd.get (of_eq (P := KSnd (KSnd (KP s0))) e12 (ite_keeps (gather_keeps h5) (KSnd.mk (KSnd.mk (KP.mk h5))))))))
              extract_lets -merge +onlyGivenNames tot13
              try clear_value tot13
              extract_lets -merge +onlyGivenNames tag14
              try clear_value tag14
              exact (ite_keeps (corePrep_keeps k4) (by
                  split
                  · exact (unitFails_keeps (touchTcN_keeps h11))
                  · exact (ite_keeps (unitFails_keeps h11) (ite_keeps (corePrep_keeps k4) (by
                        split
                        · rename_i y15 y16 y17 e18
                          have h17 : Keeps s0 y17 := (KP.get (KSnd.get (of_eq (P := KSnd (KP s0)) e18 (coreRead_keeps h11))))
                          extract_lets -merge +onlyGivenNames s19
                          have h19 : Keeps s0 s19 := (State.count_keeps (State.count_keeps h17))
                          clear_value s19
                          split
                          · extract_lets -merge +onlyGivenNames pa20
                            try clear_value pa20
                            exact (unitFails_keeps h19)
                          · extract_lets -merge +onlyGivenNames b21
                            try clear_value b21
                            extract_lets -merge +onlyGivenNames s22
                            have h22 : Keeps s0 s22 := (spadWrite_keeps h19)
                            clear_value s22
                            extract_lets -merge +onlyGivenNames x23
                            try clear_value x23
                            extract_lets -merge +onlyGivenNames s24
                            have h24 : Keeps s0 s24 := (State.setFl_keeps h22)
                            clear_value s24
                            exact (feedFill_keeps (runAheadNow_keeps (unitArrives_keeps h24)))))))))))

theorem deadlineCheck_keeps {s0 a1 a2 a3} (k3 : Keeps s0 a3) : Keeps s0 (deadlineCheck a1 a2 a3) := by
  unfold deadlineCheck
  extract_lets -merge +onlyGivenNames x1
  try clear_value x1
  extract_lets -merge +onlyGivenNames i2
  try clear_value i2
  extract_lets -merge +onlyGivenNames cl3
  try clear_value cl3
  exact (ite_keeps k3 (by
      extract_lets -merge +onlyGivenNames late4
      try clear_value late4
      extract_lets -merge +onlyGivenNames stamp5
      try clear_value stamp5
      extract_lets -merge +onlyGivenNames s6
      have h6 : Keeps s0 s6 := (State.setFl_keeps k3)
      clear_value s6
      exact (ite_keeps h6 (by
          extract_lets -merge +onlyGivenNames s7
          have h7 : Keeps s0 s7 := (State.countSat_keeps h6)
          clear_value s7
          exact (ite_keeps h7 (by
              extract_lets -merge +onlyGivenNames s8
              have h8 : Keeps s0 s8 := (ite_keeps (State.ipend_keeps h7) h7)
              clear_value s8
              extract_lets -merge +onlyGivenNames held9
              try clear_value held9
              split
              · exact (missRecord_keeps h8)
              · exact (ite_keeps (missRecord_keeps h8) (State.setFl_keeps h8))))))))

theorem takeSlot_keeps {s0 a1 a2 a3} (k3 : Keeps s0 a3) : KP s0 (takeSlot a1 a2 a3) := by
  unfold takeSlot
  extract_lets -merge +onlyGivenNames x1
  try clear_value x1
  split
  · exact (KP.mk k3)
  · exact (KP.mk (State.setFl_keeps k3))

end Sys2Proof.Machine
end

