-- ==== Sys2Proof/Laws/KeepMatrix.lean ====
section
/-! SUPPORT. What the operations of Machine/Matrix.lean keep (Laws/Keeps.lean). -/

namespace Sys2Proof.Machine

theorem feedSrc_keeps {s0 a1 a2 a3} (k3 : Keeps s0 a3) : Keeps s0 (feedSrc a1 a2 a3) := by
  unfold feedSrc
  split
  · exact (feedFill_keeps k3)
  · exact k3

theorem opMma_keeps {s0 a1 a2 a3 a4 a5 a6 a7 a8 a9 a10 a11 a12 a13 a14 a15 a16 a17 a18} (k18 : Keeps s0 a18) : Keeps s0 (opMma a1 a2 a3 a4 a5 a6 a7 a8 a9 a10 a11 a12 a13 a14 a15 a16 a17 a18) := by
  unfold opMma
  exact (issue_keeps (fun _ h1 => (owned_keeps (fun _ h2 => (by
      extract_lets -merge +onlyGivenNames k3
      try clear_value k3
      extract_lets -merge +onlyGivenNames f4
      try clear_value f4
      extract_lets -merge +onlyGivenNames a5
      try clear_value a5
      extract_lets -merge +onlyGivenNames b6
      try clear_value b6
      extract_lets -merge +onlyGivenNames src7
      try clear_value src7
      exact (ite_keeps h2 (by
          split
          · exact (ite_keeps (shapeTrap_keeps h2) (ite_keeps h2 (by
                split
                · exact (trap_keeps h2)
                · exact (engGuard_keeps (fun _ h8 => (ite_keeps h8 (by
                      split
                      · split
                        · extract_lets -merge +onlyGivenNames p9
                          try clear_value p9
                          extract_lets -merge +onlyGivenNames m10
                          try clear_value m10
                          extract_lets -merge +onlyGivenNames widths11
                          try clear_value widths11
                          extract_lets -merge +onlyGivenNames tags12
                          try clear_value tags12
                          extract_lets -merge +onlyGivenNames x13
                          try clear_value x13
                          extract_lets -merge +onlyGivenNames e14
                          try clear_value e14
                          exact (feedSrc_keeps (feedSrc_keeps (State.retire_keeps (State.setCore_keeps h8))))))) h2)))))))) h1)) k18)

theorem setEnt_keeps {s0 a1 a2 a3 a4} (k4 : Keeps s0 a4) : Keeps s0 (setEnt a1 a2 a3 a4) := by
  unfold setEnt
  exact (State.modCore_keeps k4)

theorem dropEnt_keeps {s0 a1 a2 a3} (k3 : Keeps s0 a3) : Keeps s0 (dropEnt a1 a2 a3) := by
  unfold dropEnt
  exact (State.modCore_keeps k3)

theorem cutSlots_keeps {s0 a1 a2 a3 a4} (k4 : Keeps s0 a4) : Keeps s0 (cutSlots a1 a2 a3 a4) := by
  unfold cutSlots
  split
  · exact (State.setFl_keeps k4)
  · exact k4

theorem dropSlots_keeps {s0 a1 a2 a3} (k3 : Keeps s0 a3) : Keeps s0 (dropSlots a1 a2 a3) := by
  unfold dropSlots
  exact (ite_keeps k3 (by
      extract_lets -merge +onlyGivenNames n1
      try clear_value n1
      exact (cutSlots_keeps (cutSlots_keeps k3))))

theorem arrError_keeps {s0 c j code addr kind num s} (h : Keeps s0 s) : Keeps s0 (arrError c j code addr kind num s) := by
  unfold arrError
  split
  · exact h
  · exact engError_keeps (modFree_keeps (dropSlots_keeps (dropEnt_keeps h)))

theorem mmaSteps_keeps {s0 a1 a2 a3 a4 a5 a6 a7 a8} (k8 : Keeps s0 a8) : Keeps s0 (mmaSteps a1 a2 a3 a4 a5 a6 a7 a8) := by
  unfold mmaSteps
  extract_lets -merge +onlyGivenNames k1
  try clear_value k1
  extract_lets -merge +onlyGivenNames rows2
  try clear_value rows2
  extract_lets -merge +onlyGivenNames pair3
  try clear_value pair3
  extract_lets -merge +onlyGivenNames elA4
  try clear_value elA4
  extract_lets -merge +onlyGivenNames elB5
  try clear_value elB5
  extract_lets -merge +onlyGivenNames cell6
  try clear_value cell6
  extract_lets -merge +onlyGivenNames old7
  try clear_value old7
  extract_lets -merge +onlyGivenNames width8
  try clear_value width8
  extract_lets -merge +onlyGivenNames live9
  try clear_value live9
  extract_lets -merge +onlyGivenNames newRow10
  try clear_value newRow10
  extract_lets -merge +onlyGivenNames nf11
  try clear_value nf11
  exact (State.modEng_keeps k8)

theorem slotBytes_keeps {s0 a1 a2 a3} (k3 : Keeps s0 a3) : KP s0 (slotBytes a1 a2 a3) := by
  unfold slotBytes
  split
  · exact (KP.mk k3)
  · split
    · rename_i y1 y2 e3
      have h2 : Keeps s0 y2 := (KP.get (of_eq (P := KP s0) e3 (takeSlot_keeps k3)))
      exact (KP.mk h2)
    · rename_i y4 e5
      have h4 : Keeps s0 y4 := (KP.get (of_eq (P := KP s0) e5 (takeSlot_keeps k3)))
      exact (KP.mk h4)

theorem slotFill_keeps {s0 a1 a2 a3} (k3 : Keeps s0 a3) : Keeps s0 (slotFill a1 a2 a3) := by
  unfold slotFill
  split
  · exact k3
  · exact (feedFill_keeps k3)

theorem feederSlotRelease_keeps {s0 a1 a2} (k2 : Keeps s0 a2) : Keeps s0 (feederSlotRelease a1 a2) := by
  unfold feederSlotRelease
  extract_lets -merge +onlyGivenNames k1
  try clear_value k1
  split
  · exact k2
  · extract_lets -merge +onlyGivenNames held2
    try clear_value held2
    exact (ite_keeps k2 (by
        extract_lets -merge +onlyGivenNames n3
        try clear_value n3
        split
        · exact (arrError_keeps (gaugeErr_keeps k2))
        · extract_lets -merge +onlyGivenNames s4
          have h4 : Keeps s0 s4 := (slotFill_keeps (slotFill_keeps k2))
          clear_value s4
          exact (ite_keeps h4 (by
              split
              · rename_i y5 y6 e7
                have h6 : Keeps s0 y6 := (KP.get (of_eq (P := KP s0) e7 (slotBytes_keeps h4)))
                split
                · exact (arrError_keeps h6)
                · exact h6
              · rename_i y8 y9 y10 e11
                have h10 : Keeps s0 y10 := (KP.get (of_eq (P := KP s0) e11 (slotBytes_keeps h4)))
                split
                · rename_i y12 y13 e14
                  have h13 : Keeps s0 y13 := (KP.get (of_eq (P := KP s0) e14 (slotBytes_keeps h10)))
                  split
                  · exact (arrError_keeps h4)
                  · exact h4
                · rename_i y15 y16 y17 e18
                  have h17 : Keeps s0 y17 := (KP.get (of_eq (P := KP s0) e18 (slotBytes_keeps h10)))
                  extract_lets -merge +onlyGivenNames first19
                  try clear_value first19
                  extract_lets -merge +onlyGivenNames s20
                  have h20 : Keeps s0 s20 := (ite_keeps (State.modEng_keeps h17) h17)
                  clear_value s20
                  extract_lets -merge +onlyGivenNames s21
                  have h21 : Keeps s0 s21 := (State.modEng_keeps h20)
                  clear_value s21
                  extract_lets -merge +onlyGivenNames s22
                  have h22 : Keeps s0 s22 := (mmaSteps_keeps h21)
                  clear_value s22
                  exact (slotFill_keeps (slotFill_keeps (setEnt_keeps h22)))))))

theorem mmaComplete_keeps {s0 a1 a2} (k2 : Keeps s0 a2) : Keeps s0 (mmaComplete a1 a2) := by
  unfold mmaComplete
  split
  · exact (ite_keeps (State.count_keeps (dropEnt_keeps k2)) k2)
  · exact k2

theorem opMdrain_keeps {s0 a1 a2 a3 a4 a5 a6 a7 a8 a9 a10 a11 a12 a13 a14 a15 a16} (k16 : Keeps s0 a16) : Keeps s0 (opMdrain a1 a2 a3 a4 a5 a6 a7 a8 a9 a10 a11 a12 a13 a14 a15 a16) := by
  unfold opMdrain
  exact (issue_keeps (fun _ h1 => (owned_keeps (fun _ h2 => (by
      extract_lets -merge +onlyGivenNames k3
      try clear_value k3
      extract_lets -merge +onlyGivenNames f4
      try clear_value f4
      extract_lets -merge +onlyGivenNames rows5
      try clear_value rows5
      extract_lets -merge +onlyGivenNames cols6
      try clear_value cols6
      extract_lets -merge +onlyGivenNames x7
      try clear_value x7
      extract_lets -merge +onlyGivenNames e8
      try clear_value e8
      extract_lets -merge +onlyGivenNames go9
      have h9 : ∀ z1 z2, Keeps s0 z2 → Keeps s0 (go9 z1 z2) := (fun _ _ h10 => (engGuard_keeps (fun _ h11 => (ite_keeps h11 (State.retire_keeps (State.setCore_keeps h11)))) h10))
      clear_value go9
      exact (ite_keeps h2 (ite_keeps (by
          extract_lets -merge +onlyGivenNames cf12
          try clear_value cf12
          exact (ite_keeps (shapeTrap_keeps h2) (h9 _ _ h2))) (by
          extract_lets -merge +onlyGivenNames a13
          try clear_value a13
          extract_lets -merge +onlyGivenNames b14
          try clear_value b14
          extract_lets -merge +onlyGivenNames p15
          try clear_value p15
          exact (ite_keeps (shapeTrap_keeps h2) (ite_keeps (trap_keeps h2) (ite_keeps (trap_keeps h2) (by
              split
              · exact (trap_keeps h2)
              · exact (h9 _ _ h2)))))))))) h1)) k16)

theorem drainLost_keeps {s0 c e s} (h : Keeps s0 s) : Keeps s0 (drainLost c e s) := by
  unfold drainLost
  exact ite_keeps (upto_keeps (P := Keeps s0) (fun _ _ k => spadWrite_keeps (freeUp_keeps k)) h) (tileRow_keeps (modFree_keeps h))

theorem mdrainReadEnd_keeps {s0 a1 a2} (k2 : Keeps s0 a2) : Keeps s0 (mdrainReadEnd a1 a2) := by
  unfold mdrainReadEnd
  extract_lets -merge +onlyGivenNames k1
  try clear_value k1
  split
  · exact k2
  · exact (ite_keeps k2 (by
        extract_lets -merge +onlyGivenNames p2
        try clear_value p2
        extract_lets -merge +onlyGivenNames s3
        have h3 : Keeps s0 s3 := (tagCheck_keeps k2)
        clear_value s3
        extract_lets -merge +onlyGivenNames tag4
        try clear_value tag4
        exact (ite_keeps (by
            split
            · exact (drainLost_keeps (arrError_keeps (gaugeErr_keeps h3)))) (by
            extract_lets -merge +onlyGivenNames sc5
            try clear_value sc5
            extract_lets -merge +onlyGivenNames sat6
            try clear_value sat6
            extract_lets -merge +onlyGivenNames d07
            try clear_value d07
            split
            · exact (setEnt_keeps (State.modCore_keeps h3))))))

theorem mdrainWritten_keeps {s0 a1 a2} (k2 : Keeps s0 a2) : Keeps s0 (mdrainWritten a1 a2) := by
  unfold mdrainWritten
  extract_lets -merge +onlyGivenNames k1
  try clear_value k1
  split
  · exact k2
  · extract_lets -merge +onlyGivenNames busy2
    try clear_value busy2
    extract_lets -merge +onlyGivenNames tx3
    try clear_value tx3
    exact (ite_keeps k2 (by
        extract_lets -merge +onlyGivenNames s4
        have h4 : Keeps s0 s4 := (each_keeps (P := Keeps s0) (fun _ _ h5 => (ite_keeps (spadWrite_keeps h5) (tileRow_keeps h5))) k2)
        clear_value s4
        extract_lets -merge +onlyGivenNames s6
        have h6 : Keeps s0 s6 := (ite_keeps h4 (tileNf_keeps h4))
        clear_value s6
        exact (ite_keeps (State.count_keeps (dropEnt_keeps h6)) (by
            extract_lets -merge +onlyGivenNames x7
            try clear_value x7
            extract_lets -merge +onlyGivenNames s8
            have h8 : Keeps s0 s8 := (setEnt_keeps (State.modCore_keeps h6))
            clear_value s8
            extract_lets -merge +onlyGivenNames s9
            have h9 : Keeps s0 s9 := (State.modCore_keeps h8)
            clear_value s9
            exact (sendReq_keeps h9)))))

theorem mdrainComplete_keeps {s0 a1 a2} (k2 : Keeps s0 a2) : Keeps s0 (mdrainComplete a1 a2) := by
  unfold mdrainComplete
  extract_lets -merge +onlyGivenNames k1
  try clear_value k1
  split
  · exact k2
  · exact (ite_keeps k2 (State.count_keeps (dropEnt_keeps k2)))

theorem opMcfg_keeps {s0 a1 a2 a3 a4 a5 a6 a7} (k7 : Keeps s0 a7) : Keeps s0 (opMcfg a1 a2 a3 a4 a5 a6 a7) := by
  unfold opMcfg
  extract_lets -merge +onlyGivenNames w1
  try clear_value w1
  exact (issue4_keeps (fun _ h2 => (owned_keeps (fun _ h3 => (ite_keeps h3 (ite_keeps (trap_keeps h3) (State.retire_keeps (mcfgBarrier_keeps h3))))) h2)) k7)

theorem mcfgBarrierApply_keeps {s0 a1 a2} (k2 : Keeps s0 a2) : Keeps s0 (mcfgBarrierApply a1 a2) := by
  unfold mcfgBarrierApply
  extract_lets -merge +onlyGivenNames k1
  try clear_value k1
  split
  · exact k2
  · exact (ite_keeps k2 (by
        extract_lets -merge +onlyGivenNames old2
        try clear_value old2
        extract_lets -merge +onlyGivenNames s3
        have h3 : Keeps s0 s3 := (State.setCore_keeps k2)
        clear_value s3
        split
        · exact (State.modEng_keeps h3)
        · exact (csrBackWrite_keeps (State.modEng_keeps h3))))

end Sys2Proof.Machine
end

