-- ==== Sys2Proof/Laws/KeepAccess.lean ====
section
/-! SUPPORT. What the operations of Machine/Access.lean keep (Laws/Keeps.lean). -/

namespace Sys2Proof.Machine

theorem retireCtx_keeps {s0 a1 a2 a3 a4} (k4 : Keeps s0 a4) : Keeps s0 (retireCtx a1 a2 a3 a4) := by
  unfold retireCtx
  exact (State.count_keeps (State.modCtx_keeps k4))

theorem vldWrite_keeps {s0 a1 a2 a3 a4 a5 a6} (k6 : Keeps s0 a6) : Keeps s0 (vldWrite a1 a2 a3 a4 a5 a6) := by
  unfold vldWrite
  exact (State.modEng_keeps k6)

theorem memFinish_keeps {s0 a1 a2 a3} (k3 : Keeps s0 a3) : Keeps s0 (memFinish a1 a2 a3) := by
  unfold memFinish
  split
  · split
    · exact (enterExc_keeps k3)
    · split
      · exact (retireCtx_keeps (State.modCtx_keeps k3))
      · exact (retireCtx_keeps (State.count_keeps (vldWrite_keeps k3)))
      · extract_lets -merge +onlyGivenNames sz1
        try clear_value sz1
        exact (retireCtx_keeps (State.modCtx_keeps k3))
  · exact k3

theorem memGot_keeps {s0 a1 a2 a3 a4 a5 a6 a7 a8} (k8 : Keeps s0 a8) : Keeps s0 (memGot a1 a2 a3 a4 a5 a6 a7 a8) := by
  unfold memGot
  exact (memFinish_keeps (State.modCtx_keeps k8))

theorem staleRsp_keeps {s0 a1 a2} (k2 : Keeps s0 a2) : Keeps s0 (staleRsp a1 a2) := by
  unfold staleRsp
  exact (State.countSat_keeps k2)

theorem lateRsp_keeps {s0 a1 a2 a3} (k3 : Keeps s0 a3) : Keeps s0 (lateRsp a1 a2 a3) := by
  unfold lateRsp
  exact (State.modCore_keeps k3)

theorem coreRdData_keeps {s0 a1 a2 a3} (k3 : Keeps s0 a3) : Keeps s0 (coreRdData a1 a2 a3) := by
  unfold coreRdData
  exact (ite_keeps (staleRsp_keeps k3) (ite_keeps (by
      extract_lets -merge +onlyGivenNames line1
      try clear_value line1
      exact (ite_keeps (l1Fill_keeps (State.modCore_keeps k3)) k3)) (by
      split
      · exact (lateRsp_keeps k3)
      · split
        · extract_lets -merge +onlyGivenNames atomic2
          try clear_value atomic2
          extract_lets -merge +onlyGivenNames s3
          have h3 : Keeps s0 s3 := (ite_keeps (l1Fill_keeps k3) k3)
          clear_value s3
          extract_lets -merge +onlyGivenNames bad4
          try clear_value bad4
          exact (memGot_keeps h3)
        · exact k3)))

theorem storeNext_keeps {s0 a1 a2 a3} (k3 : Keeps s0 a3) : Keeps s0 (storeNext a1 a2 a3) := by
  unfold storeNext
  split
  · exact (ite_keeps k3 (by
        split
        · exact (enterExc_keeps k3)
        · exact (retireCtx_keeps (ite_keeps (State.count_keeps k3) k3))))
  · exact (tstoreNext_keeps k3)

theorem coreFail_keeps {s0 a1 a2 a3 a4 a5} (k5 : Keeps s0 a5) : Keeps s0 (coreFail a1 a2 a3 a4 a5) := by
  unfold coreFail
  split
  · split
    · exact (memGot_keeps k5)
    · exact k5
  · split
    · extract_lets -merge +onlyGivenNames s1
      have h1 : Keeps s0 s1 := (State.modCore_keeps k5)
      clear_value s1
      exact (ite_keeps (enterExc_keeps h1) (by
          extract_lets -merge +onlyGivenNames s2
          have h2 : Keeps s0 s2 := by
            unfold s2
            split
            · exact (l1Drop_keeps h1)
            · exact h1
          clear_value s2
          exact (storeNext_keeps (State.modCtx_keeps h2))))
    · exact (State.modCore_keeps k5)

theorem coreWrAck_keeps {s0 a1 a2 a3} (k3 : Keeps s0 a3) : Keeps s0 (coreWrAck a1 a2 a3) := by
  unfold coreWrAck
  exact (ite_keeps (staleRsp_keeps k3) (ite_keeps (coreFail_keeps (lateRsp_keeps k3)) (by
      extract_lets -merge +onlyGivenNames s1
      have h1 : Keeps s0 s1 := (lateRsp_keeps k3)
      clear_value s1
      extract_lets -merge +onlyGivenNames s2
      have h2 : Keeps s0 s2 := (State.modCore_keeps h1)
      clear_value s2
      exact (storeNext_keeps (storeNext_keeps (storeNext_keeps (storeNext_keeps h2)))))))

end Sys2Proof.Machine
end

