-- ==== Sys2Proof/Laws/KeepVector.lean ====
section
/-! SUPPORT. What the operations of Machine/Vector.lean keep (Laws/Keeps.lean). -/

namespace Sys2Proof.Machine

theorem vecGo_keeps {s0 a1 a2 a3 a4} (k3 : ∀ z1, Keeps s0 z1 → Keeps s0 (a3 z1)) (k4 : Keeps s0 a4) : Keeps s0 (vecGo a1 a2 a3 a4) := by
  unfold vecGo
  exact (engGuard_keeps k3 k4)

theorem vecEnd_keeps {s0 a1 a2} (k2 : Keeps s0 a2) : Keeps s0 (vecEnd a1 a2) := by
  unfold vecEnd
  exact (State.retire_keeps (State.count_keeps k2))

theorem vecOp_keeps {s0 a1 a2 a3 a4 a5 a6 a7 a8 a9 a10 a11 a12 a13} (k13 : Keeps s0 a13) : Keeps s0 (vecOp a1 a2 a3 a4 a5 a6 a7 a8 a9 a10 a11 a12 a13) := by
  unfold vecOp
  exact (issue4_keeps (fun _ h1 => (owned_keeps (fun _ h2 => (vecGo_keeps (fun _ h3 => (vecEnd_keeps (State.modEng_keeps h3))) h2)) h1)) k13)

theorem varith2_keeps {s0 a1 a2 a3 a4 a5 a6 a7 a8 a9 a10 a11} (k11 : Keeps s0 a11) : Keeps s0 (varith2 a1 a2 a3 a4 a5 a6 a7 a8 a9 a10 a11) := by
  unfold varith2
  exact (vecOp_keeps k11)

theorem varith1_keeps {s0 a1 a2 a3 a4 a5 a6 a7 a8 a9 a10 a11} (k11 : Keeps s0 a11) : Keeps s0 (varith1 a1 a2 a3 a4 a5 a6 a7 a8 a9 a10 a11) := by
  unfold varith1
  exact (vecOp_keeps k11)

theorem opVarithAdd_keeps {s0 a1 a2 a3 a4 a5 a6 a7 a8 a9} (k9 : Keeps s0 a9) : Keeps s0 (opVarithAdd a1 a2 a3 a4 a5 a6 a7 a8 a9) := by
  unfold opVarithAdd
  exact (varith2_keeps k9)

theorem opVarithSub_keeps {s0 a1 a2 a3 a4 a5 a6 a7 a8 a9} (k9 : Keeps s0 a9) : Keeps s0 (opVarithSub a1 a2 a3 a4 a5 a6 a7 a8 a9) := by
  unfold opVarithSub
  exact (varith2_keeps k9)

theorem opVarithMul_keeps {s0 a1 a2 a3 a4 a5 a6 a7 a8 a9} (k9 : Keeps s0 a9) : Keeps s0 (opVarithMul a1 a2 a3 a4 a5 a6 a7 a8 a9) := by
  unfold opVarithMul
  exact (varith2_keeps k9)

theorem opVarithDiv_keeps {s0 a1 a2 a3 a4 a5 a6 a7 a8 a9} (k9 : Keeps s0 a9) : Keeps s0 (opVarithDiv a1 a2 a3 a4 a5 a6 a7 a8 a9) := by
  unfold opVarithDiv
  exact (varith2_keeps k9)

theorem opVarithMin_keeps {s0 a1 a2 a3 a4 a5 a6 a7 a8 a9} (k9 : Keeps s0 a9) : Keeps s0 (opVarithMin a1 a2 a3 a4 a5 a6 a7 a8 a9) := by
  unfold opVarithMin
  exact (varith2_keeps k9)

theorem opVarithMax_keeps {s0 a1 a2 a3 a4 a5 a6 a7 a8 a9} (k9 : Keeps s0 a9) : Keeps s0 (opVarithMax a1 a2 a3 a4 a5 a6 a7 a8 a9) := by
  unfold opVarithMax
  exact (varith2_keeps k9)

theorem opVarithAbs_keeps {s0 a1 a2 a3 a4 a5 a6 a7 a8 a9} (k9 : Keeps s0 a9) : Keeps s0 (opVarithAbs a1 a2 a3 a4 a5 a6 a7 a8 a9) := by
  unfold opVarithAbs
  exact (varith1_keeps k9)

theorem opVarithNeg_keeps {s0 a1 a2 a3 a4 a5 a6 a7 a8 a9} (k9 : Keeps s0 a9) : Keeps s0 (opVarithNeg a1 a2 a3 a4 a5 a6 a7 a8 a9) := by
  unfold opVarithNeg
  exact (varith1_keeps k9)

theorem opVarithSqrt_keeps {s0 a1 a2 a3 a4 a5 a6 a7 a8 a9} (k9 : Keeps s0 a9) : Keeps s0 (opVarithSqrt a1 a2 a3 a4 a5 a6 a7 a8 a9) := by
  unfold opVarithSqrt
  exact (varith1_keeps k9)

theorem opCvtfi_keeps {s0 a1 a2 a3 a4 a5 a6 a7 a8 a9} (k9 : Keeps s0 a9) : Keeps s0 (opCvtfi a1 a2 a3 a4 a5 a6 a7 a8 a9) := by
  unfold opCvtfi
  exact (vecOp_keeps k9)

theorem opCvtif_keeps {s0 a1 a2 a3 a4 a5 a6 a7 a8 a9} (k9 : Keeps s0 a9) : Keeps s0 (opCvtif a1 a2 a3 a4 a5 a6 a7 a8 a9) := by
  unfold opCvtif
  exact (vecOp_keeps k9)

theorem opScaleb_keeps {s0 a1 a2 a3 a4 a5 a6 a7 a8 a9} (k9 : Keeps s0 a9) : Keeps s0 (opScaleb a1 a2 a3 a4 a5 a6 a7 a8 a9) := by
  unfold opScaleb
  exact (vecOp_keeps k9)

theorem opVarithMov_keeps {s0 a1 a2 a3 a4 a5 a6 a7 a8 a9} (k9 : Keeps s0 a9) : Keeps s0 (opVarithMov a1 a2 a3 a4 a5 a6 a7 a8 a9) := by
  unfold opVarithMov
  exact (vecOp_keeps k9)

theorem opVarithSel_keeps {s0 a1 a2 a3 a4 a5 a6 a7 a8 a9} (k9 : Keeps s0 a9) : Keeps s0 (opVarithSel a1 a2 a3 a4 a5 a6 a7 a8 a9) := by
  unfold opVarithSel
  exact (issue4_keeps (fun _ h1 => (owned_keeps (fun _ h2 => (vecGo_keeps (fun _ h3 => (vecEnd_keeps (State.modEng_keeps h3))) h2)) h1)) k9)

theorem vint_keeps {s0 a1 a2 a3 a4 a5 a6 a7 a8 a9 a10 a11} (k11 : Keeps s0 a11) : Keeps s0 (vint a1 a2 a3 a4 a5 a6 a7 a8 a9 a10 a11) := by
  unfold vint
  exact (vecOp_keeps k11)

theorem opVintAdd_keeps {s0 a1 a2 a3 a4 a5 a6 a7 a8 a9} (k9 : Keeps s0 a9) : Keeps s0 (opVintAdd a1 a2 a3 a4 a5 a6 a7 a8 a9) := by
  unfold opVintAdd
  exact (vint_keeps k9)

theorem opVintSub_keeps {s0 a1 a2 a3 a4 a5 a6 a7 a8 a9} (k9 : Keeps s0 a9) : Keeps s0 (opVintSub a1 a2 a3 a4 a5 a6 a7 a8 a9) := by
  unfold opVintSub
  exact (vint_keeps k9)

theorem opVintMul_keeps {s0 a1 a2 a3 a4 a5 a6 a7 a8 a9} (k9 : Keeps s0 a9) : Keeps s0 (opVintMul a1 a2 a3 a4 a5 a6 a7 a8 a9) := by
  unfold opVintMul
  exact (vint_keeps k9)

theorem opVintAnd_keeps {s0 a1 a2 a3 a4 a5 a6 a7 a8 a9} (k9 : Keeps s0 a9) : Keeps s0 (opVintAnd a1 a2 a3 a4 a5 a6 a7 a8 a9) := by
  unfold opVintAnd
  exact (vint_keeps k9)

theorem opVintOr_keeps {s0 a1 a2 a3 a4 a5 a6 a7 a8 a9} (k9 : Keeps s0 a9) : Keeps s0 (opVintOr a1 a2 a3 a4 a5 a6 a7 a8 a9) := by
  unfold opVintOr
  exact (vint_keeps k9)

theorem opVintXor_keeps {s0 a1 a2 a3 a4 a5 a6 a7 a8 a9} (k9 : Keeps s0 a9) : Keeps s0 (opVintXor a1 a2 a3 a4 a5 a6 a7 a8 a9) := by
  unfold opVintXor
  exact (vint_keeps k9)

theorem opVintSll_keeps {s0 a1 a2 a3 a4 a5 a6 a7 a8 a9} (k9 : Keeps s0 a9) : Keeps s0 (opVintSll a1 a2 a3 a4 a5 a6 a7 a8 a9) := by
  unfold opVintSll
  exact (vint_keeps k9)

theorem opVintSrl_keeps {s0 a1 a2 a3 a4 a5 a6 a7 a8 a9} (k9 : Keeps s0 a9) : Keeps s0 (opVintSrl a1 a2 a3 a4 a5 a6 a7 a8 a9) := by
  unfold opVintSrl
  exact (vint_keeps k9)

theorem opVintSra_keeps {s0 a1 a2 a3 a4 a5 a6 a7 a8 a9} (k9 : Keeps s0 a9) : Keeps s0 (opVintSra a1 a2 a3 a4 a5 a6 a7 a8 a9) := by
  unfold opVintSra
  exact (vint_keeps k9)

theorem opVintMin_keeps {s0 a1 a2 a3 a4 a5 a6 a7 a8 a9} (k9 : Keeps s0 a9) : Keeps s0 (opVintMin a1 a2 a3 a4 a5 a6 a7 a8 a9) := by
  unfold opVintMin
  exact (vint_keeps k9)

theorem opVintMax_keeps {s0 a1 a2 a3 a4 a5 a6 a7 a8 a9} (k9 : Keeps s0 a9) : Keeps s0 (opVintMax a1 a2 a3 a4 a5 a6 a7 a8 a9) := by
  unfold opVintMax
  exact (vint_keeps k9)

theorem vfma_keeps {s0 a1 a2 a3 a4 a5 a6 a7 a8 a9 a10 a11 a12} (k12 : Keeps s0 a12) : Keeps s0 (vfma a1 a2 a3 a4 a5 a6 a7 a8 a9 a10 a11 a12) := by
  unfold vfma
  exact (vecOp_keeps k12)

theorem opVfma_keeps {s0 a1 a2 a3 a4 a5 a6 a7 a8 a9} (k9 : Keeps s0 a9) : Keeps s0 (opVfma a1 a2 a3 a4 a5 a6 a7 a8 a9) := by
  unfold opVfma
  exact (vfma_keeps k9)

theorem opVfmaSub_keeps {s0 a1 a2 a3 a4 a5 a6 a7 a8 a9} (k9 : Keeps s0 a9) : Keeps s0 (opVfmaSub a1 a2 a3 a4 a5 a6 a7 a8 a9) := by
  unfold opVfmaSub
  exact (vfma_keeps k9)

theorem opVfmaNeg_keeps {s0 a1 a2 a3 a4 a5 a6 a7 a8 a9} (k9 : Keeps s0 a9) : Keeps s0 (opVfmaNeg a1 a2 a3 a4 a5 a6 a7 a8 a9) := by
  unfold opVfmaNeg
  exact (vfma_keeps k9)

theorem vscal_keeps {s0 a1 a2 a3 a4 a5 a6 a7 a8 a9 a10 a11} (k11 : Keeps s0 a11) : Keeps s0 (vscal a1 a2 a3 a4 a5 a6 a7 a8 a9 a10 a11) := by
  unfold vscal
  exact (vecOp_keeps k11)

theorem opVscalAdd_keeps {s0 a1 a2 a3 a4 a5 a6 a7 a8 a9} (k9 : Keeps s0 a9) : Keeps s0 (opVscalAdd a1 a2 a3 a4 a5 a6 a7 a8 a9) := by
  unfold opVscalAdd
  exact (vscal_keeps k9)

theorem opVscalSub_keeps {s0 a1 a2 a3 a4 a5 a6 a7 a8 a9} (k9 : Keeps s0 a9) : Keeps s0 (opVscalSub a1 a2 a3 a4 a5 a6 a7 a8 a9) := by
  unfold opVscalSub
  exact (vscal_keeps k9)

theorem opVscalMul_keeps {s0 a1 a2 a3 a4 a5 a6 a7 a8 a9} (k9 : Keeps s0 a9) : Keeps s0 (opVscalMul a1 a2 a3 a4 a5 a6 a7 a8 a9) := by
  unfold opVscalMul
  exact (vscal_keeps k9)

theorem opVscalDiv_keeps {s0 a1 a2 a3 a4 a5 a6 a7 a8 a9} (k9 : Keeps s0 a9) : Keeps s0 (opVscalDiv a1 a2 a3 a4 a5 a6 a7 a8 a9) := by
  unfold opVscalDiv
  exact (vscal_keeps k9)

theorem opVscalMin_keeps {s0 a1 a2 a3 a4 a5 a6 a7 a8 a9} (k9 : Keeps s0 a9) : Keeps s0 (opVscalMin a1 a2 a3 a4 a5 a6 a7 a8 a9) := by
  unfold opVscalMin
  exact (vscal_keeps k9)

theorem opVscalMax_keeps {s0 a1 a2 a3 a4 a5 a6 a7 a8 a9} (k9 : Keeps s0 a9) : Keeps s0 (opVscalMax a1 a2 a3 a4 a5 a6 a7 a8 a9) := by
  unfold opVscalMax
  exact (vscal_keeps k9)

theorem vcmp_keeps {s0 a1 a2 a3 a4 a5 a6 a7 a8 a9 a10 a11} (k11 : Keeps s0 a11) : Keeps s0 (vcmp a1 a2 a3 a4 a5 a6 a7 a8 a9 a10 a11) := by
  unfold vcmp
  exact (issue4_keeps (fun _ h1 => (owned_keeps (fun _ h2 => (vecGo_keeps (fun _ h3 => (vecEnd_keeps (State.modEng_keeps h3))) h2)) h1)) k11)

theorem opVcmpEq_keeps {s0 a1 a2 a3 a4 a5 a6 a7 a8 a9} (k9 : Keeps s0 a9) : Keeps s0 (opVcmpEq a1 a2 a3 a4 a5 a6 a7 a8 a9) := by
  unfold opVcmpEq
  exact (vcmp_keeps k9)

theorem opVcmpNe_keeps {s0 a1 a2 a3 a4 a5 a6 a7 a8 a9} (k9 : Keeps s0 a9) : Keeps s0 (opVcmpNe a1 a2 a3 a4 a5 a6 a7 a8 a9) := by
  unfold opVcmpNe
  exact (vcmp_keeps k9)

theorem opVcmpLt_keeps {s0 a1 a2 a3 a4 a5 a6 a7 a8 a9} (k9 : Keeps s0 a9) : Keeps s0 (opVcmpLt a1 a2 a3 a4 a5 a6 a7 a8 a9) := by
  unfold opVcmpLt
  exact (vcmp_keeps k9)

theorem opVcmpLe_keeps {s0 a1 a2 a3 a4 a5 a6 a7 a8 a9} (k9 : Keeps s0 a9) : Keeps s0 (opVcmpLe a1 a2 a3 a4 a5 a6 a7 a8 a9) := by
  unfold opVcmpLe
  exact (vcmp_keeps k9)

theorem opVcmpGt_keeps {s0 a1 a2 a3 a4 a5 a6 a7 a8 a9} (k9 : Keeps s0 a9) : Keeps s0 (opVcmpGt a1 a2 a3 a4 a5 a6 a7 a8 a9) := by
  unfold opVcmpGt
  exact (vcmp_keeps k9)

theorem opVcmpGe_keeps {s0 a1 a2 a3 a4 a5 a6 a7 a8 a9} (k9 : Keeps s0 a9) : Keeps s0 (opVcmpGe a1 a2 a3 a4 a5 a6 a7 a8 a9) := by
  unfold opVcmpGe
  exact (vcmp_keeps k9)

theorem opVcmpUnord_keeps {s0 a1 a2 a3 a4 a5 a6 a7 a8 a9} (k9 : Keeps s0 a9) : Keeps s0 (opVcmpUnord a1 a2 a3 a4 a5 a6 a7 a8 a9) := by
  unfold opVcmpUnord
  exact (vcmp_keeps k9)

theorem vpred_keeps {s0 a1 a2 a3 a4 a5 a6 a7 a8 a9 a10 a11} (k11 : Keeps s0 a11) : Keeps s0 (vpred a1 a2 a3 a4 a5 a6 a7 a8 a9 a10 a11) := by
  unfold vpred
  exact (issue4_keeps (fun _ h1 => (owned_keeps (fun _ h2 => (vecGo_keeps (fun _ h3 => (vecEnd_keeps (State.modEng_keeps h3))) h2)) h1)) k11)

theorem opVpredAnd_keeps {s0 a1 a2 a3 a4 a5 a6 a7 a8 a9} (k9 : Keeps s0 a9) : Keeps s0 (opVpredAnd a1 a2 a3 a4 a5 a6 a7 a8 a9) := by
  unfold opVpredAnd
  exact (vpred_keeps k9)

theorem opVpredOr_keeps {s0 a1 a2 a3 a4 a5 a6 a7 a8 a9} (k9 : Keeps s0 a9) : Keeps s0 (opVpredOr a1 a2 a3 a4 a5 a6 a7 a8 a9) := by
  unfold opVpredOr
  exact (vpred_keeps k9)

theorem opVpredXor_keeps {s0 a1 a2 a3 a4 a5 a6 a7 a8 a9} (k9 : Keeps s0 a9) : Keeps s0 (opVpredXor a1 a2 a3 a4 a5 a6 a7 a8 a9) := by
  unfold opVpredXor
  exact (vpred_keeps k9)

theorem opVpredAndn_keeps {s0 a1 a2 a3 a4 a5 a6 a7 a8 a9} (k9 : Keeps s0 a9) : Keeps s0 (opVpredAndn a1 a2 a3 a4 a5 a6 a7 a8 a9) := by
  unfold opVpredAndn
  exact (vpred_keeps k9)

theorem opFromg_keeps {s0 a1 a2 a3 a4 a5 a6 a7 a8 a9} (k9 : Keeps s0 a9) : Keeps s0 (opFromg a1 a2 a3 a4 a5 a6 a7 a8 a9) := by
  unfold opFromg
  exact (issue4_keeps (fun _ h1 => (owned_keeps (fun _ h2 => (vecGo_keeps (fun _ h3 => (by
      extract_lets -merge +onlyGivenNames v4
      try clear_value v4
      exact (vecEnd_keeps (State.modEng_keeps h3)))) h2)) h1)) k9)

theorem opTog_keeps {s0 a1 a2 a3 a4 a5 a6 a7 a8 a9} (k9 : Keeps s0 a9) : Keeps s0 (opTog a1 a2 a3 a4 a5 a6 a7 a8 a9) := by
  unfold opTog
  exact (issue4_keeps (fun _ h1 => (owned_keeps (fun _ h2 => (vecGo_keeps (fun _ h3 => (by
      extract_lets -merge +onlyGivenNames v4
      try clear_value v4
      exact (vecEnd_keeps (State.modCur_keeps h3)))) h2)) h1)) k9)

theorem opBcast_keeps {s0 a1 a2 a3 a4 a5 a6 a7 a8 a9} (k9 : Keeps s0 a9) : Keeps s0 (opBcast a1 a2 a3 a4 a5 a6 a7 a8 a9) := by
  unfold opBcast
  extract_lets -merge +onlyGivenNames w41
  try clear_value w41
  exact (issue4_keeps (fun _ h2 => (owned_keeps (fun _ h3 => (by
      extract_lets -merge +onlyGivenNames n4
      try clear_value n4
      exact (ite_keeps (trap_keeps h3) (vecGo_keeps (fun _ h5 => (vecEnd_keeps (State.modEng_keeps h5))) h3)))) h2)) k9)

theorem opVext_keeps {s0 a1 a2 a3 a4 a5 a6 a7 a8 a9} (k9 : Keeps s0 a9) : Keeps s0 (opVext a1 a2 a3 a4 a5 a6 a7 a8 a9) := by
  unfold opVext
  extract_lets -merge +onlyGivenNames w41
  try clear_value w41
  exact (issue4_keeps (fun _ h2 => (owned_keeps (fun _ h3 => (by
      extract_lets -merge +onlyGivenNames n4
      try clear_value n4
      exact (ite_keeps (trap_keeps h3) (vecGo_keeps (fun _ h5 => (by
          extract_lets -merge +onlyGivenNames v6
          try clear_value v6
          exact (vecEnd_keeps (State.modCur_keeps h5)))) h3)))) h2)) k9)

theorem opVins_keeps {s0 a1 a2 a3 a4 a5 a6 a7 a8 a9} (k9 : Keeps s0 a9) : Keeps s0 (opVins a1 a2 a3 a4 a5 a6 a7 a8 a9) := by
  unfold opVins
  extract_lets -merge +onlyGivenNames w41
  try clear_value w41
  exact (issue4_keeps (fun _ h2 => (owned_keeps (fun _ h3 => (by
      extract_lets -merge +onlyGivenNames n4
      try clear_value n4
      extract_lets -merge +onlyGivenNames x5
      try clear_value x5
      exact (ite_keeps (trap_keeps h3) (vecGo_keeps (fun _ h6 => (vecEnd_keeps (State.modEng_keeps h6))) h3)))) h2)) k9)

theorem opRot_keeps {s0 a1 a2 a3 a4 a5 a6 a7 a8 a9} (k9 : Keeps s0 a9) : Keeps s0 (opRot a1 a2 a3 a4 a5 a6 a7 a8 a9) := by
  unfold opRot
  exact (issue4_keeps (fun _ h1 => (owned_keeps (fun _ h2 => (vecGo_keeps (fun _ h3 => (by
      extract_lets -merge +onlyGivenNames n4
      try clear_value n4
      exact (vecEnd_keeps (State.modEng_keeps h3)))) h2)) h1)) k9)

theorem vecStop_keeps {s0 c vd tag s} (h : Keeps s0 s) : Keeps s0 (vecStop c vd tag s) := by
  unfold vecStop
  extract_lets -merge +onlyGivenNames run s1
  have h1 : Keeps s0 s1 := gaugeErr_keeps h
  clear_value s1
  extract_lets -merge +onlyGivenNames r x s2
  have h2 : Keeps s0 s2 := modFree_keeps h1
  clear_value s2
  exact State.retire_keeps (engError_keeps h2)

theorem opVcvtWiden_keeps {s0 a1 a2 a3 a4 a5 a6 a7 a8 a9 a10} (k10 : Keeps s0 a10) : Keeps s0 (opVcvtWiden a1 a2 a3 a4 a5 a6 a7 a8 a9 a10) := by
  unfold opVcvtWiden
  exact (issue4_keeps (fun _ h1 => (owned_keeps (fun _ h2 => (vecGo_keeps (fun _ h3 => (by
      extract_lets -merge +onlyGivenNames raw4
      try clear_value raw4
      extract_lets -merge +onlyGivenNames s5
      have h5 : Keeps s0 s5 := (tagCheck_keeps h3)
      clear_value s5
      extract_lets -merge +onlyGivenNames tag6
      try clear_value tag6
      exact (ite_keeps (vecStop_keeps h5) (by
          extract_lets -merge +onlyGivenNames sc7
          try clear_value sc7
          exact (vecEnd_keeps (State.modEng_keeps h5)))))) h2)) h1)) k10)

theorem opVcvtNarrow_keeps {s0 a1 a2 a3 a4 a5 a6 a7 a8 a9 a10} (k10 : Keeps s0 a10) : Keeps s0 (opVcvtNarrow a1 a2 a3 a4 a5 a6 a7 a8 a9 a10) := by
  unfold opVcvtNarrow
  exact (issue4_keeps (fun _ h1 => (owned_keeps (fun _ h2 => (vecGo_keeps (fun _ h3 => (by
      extract_lets -merge +onlyGivenNames raw4
      try clear_value raw4
      extract_lets -merge +onlyGivenNames s05
      have h5 : Keeps s0 s05 := h3
      clear_value s05
      extract_lets -merge +onlyGivenNames s6
      have h6 : Keeps s0 s6 := (tagCheck_keeps h3)
      clear_value s6
      extract_lets -merge +onlyGivenNames tag7
      try clear_value tag7
      exact (ite_keeps (vecStop_keeps h6) (by
          split
          · exact h5
          · extract_lets -merge +onlyGivenNames k8
            try clear_value k8
            extract_lets -merge +onlyGivenNames sc9
            try clear_value sc9
            extract_lets -merge +onlyGivenNames sat10
            try clear_value sat10
            split
            · extract_lets -merge +onlyGivenNames nb11
              try clear_value nb11
              extract_lets -merge +onlyGivenNames old12
              try clear_value old12
              extract_lets -merge +onlyGivenNames new13
              try clear_value new13
              extract_lets -merge +onlyGivenNames s14
              have h14 : Keeps s0 s14 := (State.modCore_keeps h6)
              clear_value s14
              extract_lets -merge +onlyGivenNames s15
              have h15 : Keeps s0 s15 := (State.modCore_keeps h14)
              clear_value s15
              extract_lets -merge +onlyGivenNames x16
              try clear_value x16
              extract_lets -merge +onlyGivenNames s17
              have h17 : Keeps s0 s17 := (ite_keeps h14 (sendReq_keeps h15))
              clear_value s17
              exact (vecEnd_keeps h17))))) h2)) h1)) k10)

theorem opVcfg_keeps {s0 a1 a2 a3 a4 a5 a6} (k6 : Keeps s0 a6) : Keeps s0 (opVcfg a1 a2 a3 a4 a5 a6) := by
  unfold opVcfg
  extract_lets -merge +onlyGivenNames w41
  try clear_value w41
  exact (issue4_keeps (fun _ h2 => (owned_keeps (fun _ h3 => (by
      extract_lets -merge +onlyGivenNames v4
      try clear_value v4
      exact (ite_keeps (trap_keeps h3) (vecGo_keeps (fun _ h5 => (vecEnd_keeps (State.modEng_keeps h5))) h3)))) h2)) k6)

theorem opVld_keeps {s0 a1 a2 a3 a4 a5 a6 a7} (k7 : Keeps s0 a7) : Keeps s0 (opVld a1 a2 a3 a4 a5 a6 a7) := by
  unfold opVld
  exact (issue4_keeps (fun _ h1 => (owned_keeps (fun _ h2 => (by
      extract_lets -merge +onlyGivenNames va3
      try clear_value va3
      extract_lets -merge +onlyGivenNames e4
      try clear_value e4
      extract_lets -merge +onlyGivenNames p5
      try clear_value p5
      exact (ite_keeps (trap_keeps h2) (by
          split
          · exact (trapAcc_keeps h2)
          · exact (vecGo_keeps (fun _ h6 => (ite_keeps (by
                extract_lets -merge +onlyGivenNames off7
                try clear_value off7
                exact (ite_keeps h6 (by
                    split
                    · exact (trap_keeps (spadSeen_keeps h6))
                    · extract_lets -merge +onlyGivenNames bs8
                      try clear_value bs8
                      exact (vecEnd_keeps (vldWrite_keeps (each_keeps (P := Keeps s0) (fun _ _ h9 => (spadSeen_keeps h9)) h6)))))) (by
                extract_lets -merge +onlyGivenNames lines10
                try clear_value lines10
                extract_lets -merge +onlyGivenNames s011
                have h11 : Keeps s0 s011 := h6
                clear_value s011
                extract_lets -merge +onlyGivenNames s12
                have h12 : Keeps s0 s12 := (each_keeps (P := Keeps s0) (fun _ _ h13 => (touchTc_keeps h13)) h6)
                clear_value s12
                split
                · exact h11
                · rename_i y15 y16 y17 e18
                  have h17 : Keeps s0 y17 := (KP.get (KSnd.get (KOpt.get (of_eq (P := KOpt (KSnd (KP s0))) e18 (sendReads_keeps h12)))))
                  exact (memFinish_keeps (State.modCur_keeps h17))))) h2))))) h1)) k7)

theorem vstPost_keeps {s0 a1 a2 a3 a4 a5 a6 a7 a8 a9} (k9 : Keeps s0 a9) : KOpt (Keeps s0) (vstPost a1 a2 a3 a4 a5 a6 a7 a8 a9) := by
  induction a8 generalizing a1 a2 a3 a4 a5 a6 a7 a9 with
  | nil =>
    rw [vstPost.eq_1]
    exact (KOpt.mk k9)
  | cons x r ih =>
    rw [vstPost.eq_2]
    split
    · split
      · rename_i y1 e2
        have h1 : Keeps s0 y1 := (KOpt.get (of_eq (P := KOpt (Keeps s0)) e2 (postWrite_keeps k9)))
        exact (ih h1)
      · exact KOpt.non
    · exact (ih k9)

theorem opVst_keeps {s0 a1 a2 a3 a4 a5 a6 a7} (k7 : Keeps s0 a7) : Keeps s0 (opVst a1 a2 a3 a4 a5 a6 a7) := by
  unfold opVst
  exact (issue4_keeps (fun _ h1 => (owned_keeps (fun _ h2 => (by
      extract_lets -merge +onlyGivenNames va3
      try clear_value va3
      extract_lets -merge +onlyGivenNames e4
      try clear_value e4
      extract_lets -merge +onlyGivenNames p5
      try clear_value p5
      exact (ite_keeps (trap_keeps h2) (by
          split
          · exact (trapAcc_keeps h2)
          · exact (vecGo_keeps (fun _ h6 => (by
                extract_lets -merge +onlyGivenNames bs7
                try clear_value bs7
                exact (ite_keeps (ite_keeps h6 (vecEnd_keeps (each_keeps (P := Keeps s0) (fun _ _ h8 => (spadWrite_keeps h8)) h6))) (by
                    split
                    · rename_i y10 e11
                      have h10 : Keeps s0 y10 := (KOpt.get (of_eq (P := KOpt (Keeps s0)) e11 (vstPost_keeps (each_keeps (P := Keeps s0) (fun _ _ h9 => (touchTc_keeps h9)) h6))))
                      exact (ite_keeps (vecEnd_keeps h10) (State.modCur_keeps h10))
                    · exact h6)))) h2))))) h1)) k7)

theorem opVtr_keeps {s0 a1 a2 a3 a4 a5 a6 a7 a8} (k8 : Keeps s0 a8) : Keeps s0 (opVtr a1 a2 a3 a4 a5 a6 a7 a8) := by
  unfold opVtr
  exact (issue4_keeps (fun _ h1 => (owned_keeps (fun _ h2 => (by
      extract_lets -merge +onlyGivenNames k3
      try clear_value k3
      extract_lets -merge +onlyGivenNames n4
      try clear_value n4
      exact (ite_keeps h2 (ite_keeps (shapeTrap_keeps h2) (ite_keeps (trap_keeps h2) (vecGo_keeps (fun _ h5 => (by
          extract_lets -merge +onlyGivenNames b6
          try clear_value b6
          extract_lets -merge +onlyGivenNames v7
          try clear_value v7
          exact (vecEnd_keeps (State.modEng_keeps h5)))) h2)))))) h1)) k8)

theorem opVtw_keeps {s0 a1 a2 a3 a4 a5 a6 a7 a8} (k8 : Keeps s0 a8) : Keeps s0 (opVtw a1 a2 a3 a4 a5 a6 a7 a8) := by
  unfold opVtw
  exact (issue4_keeps (fun _ h1 => (owned_keeps (fun _ h2 => (by
      extract_lets -merge +onlyGivenNames k3
      try clear_value k3
      extract_lets -merge +onlyGivenNames n4
      try clear_value n4
      exact (ite_keeps h2 (ite_keeps (shapeTrap_keeps h2) (vecGo_keeps (fun _ h5 => (by
          extract_lets -merge +onlyGivenNames e6
          try clear_value e6
          exact (vecEnd_keeps (tileNf_keeps (tileRow_keeps h5))))) h2))))) h1)) k8)

theorem vredPut_keeps {s0 a1 a2 a3 a4 a5 a6 a7} (k7 : Keeps s0 a7) : Keeps s0 (vredPut a1 a2 a3 a4 a5 a6 a7) := by
  unfold vredPut
  exact (vecEnd_keeps (State.modEng_keeps k7))

theorem vred_keeps {s0 a1 a2 a3 a4 a5 a6 a7 a8 a9 a10 a11} (k11 : Keeps s0 a11) : Keeps s0 (vred a1 a2 a3 a4 a5 a6 a7 a8 a9 a10 a11) := by
  unfold vred
  exact (issue4_keeps (fun _ h1 => (owned_keeps (fun _ h2 => (by
      extract_lets -merge +onlyGivenNames k3
      try clear_value k3
      exact (ite_keeps (by
          extract_lets -merge +onlyGivenNames n4
          try clear_value n4
          extract_lets -merge +onlyGivenNames srcs5
          try clear_value srcs5
          exact (vecGo_keeps (fun _ h6 => (by
              extract_lets -merge +onlyGivenNames e7
              try clear_value e7
              exact (vredPut_keeps h6))) h2)) (by
          extract_lets -merge +onlyGivenNames n8
          try clear_value n8
          exact (ite_keeps h2 (ite_keeps (shapeTrap_keeps h2) (ite_keeps (trap_keeps h2) (vecGo_keeps (fun _ h9 => (by
              extract_lets -merge +onlyGivenNames raw10
              try clear_value raw10
              extract_lets -merge +onlyGivenNames s11
              have h11 : Keeps s0 s11 := (tagCheck_keeps h9)
              clear_value s11
              extract_lets -merge +onlyGivenNames tag12
              try clear_value tag12
              exact (ite_keeps (vecStop_keeps h11) (by
                  extract_lets -merge +onlyGivenNames sc13
                  try clear_value sc13
                  extract_lets -merge +onlyGivenNames f14
                  try clear_value f14
                  extract_lets -merge +onlyGivenNames xs15
                  try clear_value xs15
                  exact (vredPut_keeps h11))))) h2)))))))) h1)) k11)

theorem opVredSum_keeps {s0 a1 a2 a3 a4 a5 a6 a7 a8 a9 a10} (k10 : Keeps s0 a10) : Keeps s0 (opVredSum a1 a2 a3 a4 a5 a6 a7 a8 a9 a10) := by
  unfold opVredSum
  exact (vred_keeps k10)

theorem opVredMax_keeps {s0 a1 a2 a3 a4 a5 a6 a7 a8 a9 a10} (k10 : Keeps s0 a10) : Keeps s0 (opVredMax a1 a2 a3 a4 a5 a6 a7 a8 a9 a10) := by
  unfold opVredMax
  exact (vred_keeps k10)

theorem opVredSumsq_keeps {s0 a1 a2 a3 a4 a5 a6 a7 a8 a9 a10} (k10 : Keeps s0 a10) : Keeps s0 (opVredSumsq a1 a2 a3 a4 a5 a6 a7 a8 a9 a10) := by
  unfold opVredSumsq
  exact (vred_keeps k10)

theorem opVredDot_keeps {s0 a1 a2 a3 a4 a5 a6 a7 a8 a9 a10} (k10 : Keeps s0 a10) : Keeps s0 (opVredDot a1 a2 a3 a4 a5 a6 a7 a8 a9 a10) := by
  unfold opVredDot
  exact (vred_keeps k10)

theorem opVfun_keeps {s0 a1 a2 a3 a4 a5 a6 a7 a8 a9 a10 a11} (k11 : Keeps s0 a11) : Keeps s0 (opVfun a1 a2 a3 a4 a5 a6 a7 a8 a9 a10 a11) := by
  unfold opVfun
  extract_lets -merge +onlyGivenNames w41
  try clear_value w41
  exact (issue4_keeps (fun _ h2 => (owned_keeps (fun _ h3 => (ite_keeps (trap_keeps h3) (vecGo_keeps (fun _ h4 => (by
      extract_lets -merge +onlyGivenNames k5
      try clear_value k5
      extract_lets -merge +onlyGivenNames f6
      try clear_value f6
      exact (vecEnd_keeps (State.modEng_keeps h4)))) h3))) h2)) k11)

theorem setSlotValid_keeps {s0 a1 a2 a3 a4} (k4 : Keeps s0 a4) : Keeps s0 (setSlotValid a1 a2 a3 a4) := by
  unfold setSlotValid
  extract_lets -merge +onlyGivenNames r1
  try clear_value r1
  exact (State.setReg_keeps k4)

theorem opVfload_keeps {s0 a1 a2 a3 a4 a5 a6} (k6 : Keeps s0 a6) : Keeps s0 (opVfload a1 a2 a3 a4 a5 a6) := by
  unfold opVfload
  exact (issue4_keeps (fun _ h1 => (by
      extract_lets -merge +onlyGivenNames va2
      try clear_value va2
      extract_lets -merge +onlyGivenNames s3
      have h3 : Keeps s0 s3 := (setSlotValid_keeps h1)
      clear_value s3
      exact (ite_keeps (trap_keeps h3) (by
          split
          · exact (trapAcc_keeps h3)
          · exact (State.modCur_keeps h3))))) k6)

theorem vfloadDone_keeps {s0 a1 a2} (k2 : Keeps s0 a2) : Keeps s0 (vfloadDone a1 a2) := by
  unfold vfloadDone
  split
  · exact (ite_keeps (corePrep_keeps k2) (by
        split
        · rename_i y1 y2 y3 e4
          have h3 : Keeps s0 y3 := (KP.get (KSnd.get (of_eq (P := KSnd (KP s0)) e4 (coreRead_keeps k2))))
          exact (trap_keeps h3)
        · rename_i y5 y6 e7
          have h6 : Keeps s0 y6 := (KP.get (KSnd.get (of_eq (P := KSnd (KP s0)) e7 (coreRead_keeps k2))))
          extract_lets -merge +onlyGivenNames img8
          try clear_value img8
          extract_lets -merge +onlyGivenNames s9
          have h9 : Keeps s0 s9 := (State.modCore_keeps h6)
          clear_value s9
          exact (vecEnd_keeps (setSlotValid_keeps h9))))
  · exact k2

theorem opVmxs_keeps {s0 a1 a2 a3 a4 a5 a6 a7 a8} (k8 : Keeps s0 a8) : Keeps s0 (opVmxs a1 a2 a3 a4 a5 a6 a7 a8) := by
  unfold opVmxs
  extract_lets -merge +onlyGivenNames blocks1
  try clear_value blocks1
  exact (issue4_keeps (fun _ h2 => (owned_keeps (fun _ h3 => (vecGo_keeps (fun _ h4 => (vecEnd_keeps (State.modEng_keeps h4))) h3)) h2)) k8)

theorem cornerPut_keeps {s0 a1 a2 a3 a4 a5} (k5 : Keeps s0 a5) : Keeps s0 (cornerPut a1 a2 a3 a4 a5) := by
  unfold cornerPut
  exact (each_keeps (P := Keeps s0) (fun _ _ h1 => (by
      extract_lets -merge +onlyGivenNames old2
      try clear_value old2
      exact (tileRow_keeps h1))) k5)

theorem opVfact_keeps {s0 a1 a2 a3 a4 a5 a6 a7 a8} (k8 : Keeps s0 a8) : Keeps s0 (opVfact a1 a2 a3 a4 a5 a6 a7 a8) := by
  unfold opVfact
  extract_lets -merge +onlyGivenNames w41
  try clear_value w41
  exact (issue4_keeps (fun _ h2 => (owned_keeps (fun _ h3 => (by
      extract_lets -merge +onlyGivenNames k4
      try clear_value k4
      extract_lets -merge +onlyGivenNames n5
      try clear_value n5
      extract_lets -merge +onlyGivenNames tau6
      try clear_value tau6
      extract_lets -merge +onlyGivenNames tabs7
      try clear_value tabs7
      extract_lets -merge +onlyGivenNames zero8
      try clear_value zero8
      extract_lets -merge +onlyGivenNames bad9
      try clear_value bad9
      exact (ite_keeps (trap_keeps h3) (ite_keeps h3 (ite_keeps (shapeTrap_keeps h3) (ite_keeps (trap_keeps h3) (vecGo_keeps (fun _ h10 => (by
          extract_lets -merge +onlyGivenNames a11
          try clear_value a11
          exact (ite_keeps (by
              extract_lets -merge +onlyGivenNames s12
              have h12 : Keeps s0 s12 := (cornerPut_keeps h10)
              clear_value s12
              exact (vecEnd_keeps (State.modEng_keeps (tileNf_keeps h12)))) (by
              extract_lets -merge +onlyGivenNames dmax13
              try clear_value dmax13
              extract_lets -merge +onlyGivenNames fl14
              try clear_value fl14
              extract_lets -merge +onlyGivenNames fl15
              try clear_value fl15
              extract_lets -merge +onlyGivenNames st16
              try clear_value st16
              extract_lets -merge +onlyGivenNames out17
              try clear_value out17
              extract_lets -merge +onlyGivenNames nf18
              try clear_value nf18
              extract_lets -merge +onlyGivenNames s19
              have h19 : Keeps s0 s19 := (tileNf_keeps (cornerPut_keeps h10))
              clear_value s19
              exact (vecEnd_keeps (State.modEng_keeps h19)))))) h3))))))) h2)) k8)

theorem opVsolve_keeps {s0 a1 a2 a3 a4 a5 a6 a7 a8} (k8 : Keeps s0 a8) : Keeps s0 (opVsolve a1 a2 a3 a4 a5 a6 a7 a8) := by
  unfold opVsolve
  extract_lets -merge +onlyGivenNames w41
  try clear_value w41
  exact (issue4_keeps (fun _ h2 => (owned_keeps (fun _ h3 => (by
      extract_lets -merge +onlyGivenNames k4
      try clear_value k4
      extract_lets -merge +onlyGivenNames n5
      try clear_value n5
      exact (ite_keeps (trap_keeps h3) (ite_keeps h3 (ite_keeps (shapeTrap_keeps h3) (ite_keeps (trap_keeps h3) (vecGo_keeps (fun _ h6 => (by
          extract_lets -merge +onlyGivenNames l7
          try clear_value l7
          extract_lets -merge +onlyGivenNames b8
          try clear_value b8
          extract_lets -merge +onlyGivenNames z9
          try clear_value z9
          extract_lets -merge +onlyGivenNames x10
          try clear_value x10
          extract_lets -merge +onlyGivenNames f11
          try clear_value f11
          exact (vecEnd_keeps (State.modEng_keeps h6)))) h3))))))) h2)) k8)

end Sys2Proof.Machine
end

