-- ==== Sys2Proof/Laws/KeepRights.lean ====
section
/-! SUPPORT. What the operations of Machine/Rights.lean keep (Laws/Keeps.lean). -/

namespace Sys2Proof.Machine

theorem typedWrite_keeps {s0 a1 a2 a3} (k1 : Keeps s0 a1) : Keeps s0 (typedWrite a1 a2 a3) := by
  unfold typedWrite
  split
  · exact k1
  · extract_lets -merge +onlyGivenNames m1
    try clear_value m1
    exact (State.setReg_keeps k1)

theorem readClear_keeps {s0 a1 a2} (k1 : Keeps s0 a1) : Keeps s0 (readClear a1 a2) := by
  unfold readClear
  split
  · exact (ite_keeps k1 (State.setReg_keeps k1))
  · exact k1

theorem gateNack_keeps {s0 a1 a2 a3} (k3 : Keeps s0 a3) : Keeps s0 (gateNack a1 a2 a3) := by
  unfold gateNack
  split
  · exact (ite_keeps (State.countSat_keeps k3) k3)
  · exact k3

theorem regWrite_keeps {s0 a1 a2 a3 a4 a5} (k4 : ∀ z1, Keeps s0 z1 → Keeps s0 (a4 z1)) (k5 : Keeps s0 a5) : Keeps s0 (regWrite a1 a2 a3 a4 a5) := by
  unfold regWrite
  exact (ite_keeps (by
      extract_lets -merge +onlyGivenNames x1
      have h1 : Keeps s0 x1 := (k4 _ k5)
      clear_value x1
      exact (by exact Keeps.same h1 rfl rfl rfl rfl rfl rfl rfl rfl)) (by
      extract_lets -merge +onlyGivenNames x2
      have h2 : Keeps s0 x2 := (gateNack_keeps k5)
      clear_value x2
      exact (by exact Keeps.same h2 rfl rfl rfl rfl rfl rfl rfl rfl)))

end Sys2Proof.Machine
end

