-- ==== Sys2Proof/Laws/KeepGauge.lean ====
section
/-! SUPPORT. What the operations of Machine/Gauge.lean keep (Laws/Keeps.lean). -/

namespace Sys2Proof.Machine

theorem setHist_keeps {s0 a1 a2 a3 a4} (k4 : Keeps s0 a4) : Keeps s0 (setHist a1 a2 a3 a4) := by
  unfold setHist
  exact (State.setGw_keeps k4)

theorem rollEntry_keeps {s0 a1 a2} (k2 : Keeps s0 a2) : Keeps s0 (rollEntry a1 a2) := by
  unfold rollEntry
  extract_lets -merge +onlyGivenNames w01
  try clear_value w01
  extract_lets -merge +onlyGivenNames fmt2
  try clear_value fmt2
  extract_lets -merge +onlyGivenNames sc3
  try clear_value sc3
  extract_lets -merge +onlyGivenNames am4
  try clear_value am4
  extract_lets -merge +onlyGivenNames nf5
  try clear_value nf5
  split
  · extract_lets -merge +onlyGivenNames back6
    try clear_value back6
    split
    · rename_i y7 y8 e9
      have h8 : Keeps s0 y8 := (KP.get (of_eq (P := KP s0) e9 (by
          split
          · exact (KP.mk k2)
          · exact (KP.mk (by exact Keeps.freeUp k2 rfl rfl rfl rfl rfl rfl rfl (Nat.le_add_right _ _))))))
      extract_lets -merge +onlyGivenNames s10
      have h10 : Keeps s0 s10 := (ite_keeps (State.setGw_keeps h8) h8)
      clear_value s10
      extract_lets -merge +onlyGivenNames tooBig11
      try clear_value tooBig11
      extract_lets -merge +onlyGivenNames s12
      have h12 : Keeps s0 s12 := (ite_keeps (State.setGw_keeps h10) h10)
      clear_value s12
      extract_lets -merge +onlyGivenNames hp13
      try clear_value hp13
      extract_lets -merge +onlyGivenNames s14
      have h14 : Keeps s0 s14 := (setHist_keeps h12)
      clear_value s14
      extract_lets -merge +onlyGivenNames hp15
      try clear_value hp15
      extract_lets -merge +onlyGivenNames h16
      try clear_value h16
      extract_lets -merge +onlyGivenNames mg17
      try clear_value mg17
      extract_lets -merge +onlyGivenNames ns18
      try clear_value ns18
      extract_lets -merge +onlyGivenNames s19
      have h19 : Keeps s0 s19 := (State.setGw_keeps h14)
      clear_value s19
      exact (gaugeArm_keeps (State.setGw_keeps h19))

theorem opGroll_keeps {s0 a1 a2 a3 a4 a5 a6} (k6 : Keeps s0 a6) : Keeps s0 (opGroll a1 a2 a3 a4 a5 a6) := by
  unfold opGroll
  extract_lets -merge +onlyGivenNames w1
  try clear_value w1
  exact (issue4_keeps (fun _ h2 => (by
      extract_lets -merge +onlyGivenNames a3
      try clear_value a3
      extract_lets -merge +onlyGivenNames b4
      try clear_value b4
      exact (ite_keeps (trap_keeps h2) (by
          extract_lets -merge +onlyGivenNames k5
          try clear_value k5
          extract_lets -merge +onlyGivenNames r6
          try clear_value r6
          exact (State.retire_keeps (State.setCore_keeps h2)))))) k6)

theorem rollTag_keeps {s0 a1 a2 a3} (k3 : Keeps s0 a3) : KP s0 (rollTag a1 a2 a3) := by
  unfold rollTag
  exact (ite_keeps (KP.mk (State.countSat_keeps k3)) (by
      extract_lets -merge +onlyGivenNames s1
      have h1 : Keeps s0 s1 := (gaugeLine_keeps k3)
      clear_value s1
      exact (ite_keeps (KP.mk (State.countSat_keeps (gaugeErr_keeps h1))) (KP.mk (State.countSat_keeps (rollEntry_keeps h1))))))

theorem rollTags_keeps {s0 a1 a2 a3} (k3 : Keeps s0 a3) : KP s0 (rollTags a1 a2 a3) := by
  induction a2 generalizing a1 a3 with
  | nil =>
    rw [rollTags.eq_1]
    exact (KP.mk k3)
  | cons x r ih =>
    rw [rollTags.eq_2]
    split
    · rename_i y1 y2 e3
      have h2 : Keeps s0 y2 := (KP.get (of_eq (P := KP s0) e3 (rollTag_keeps k3)))
      split
      · rename_i y4 y5 e6
        have h5 : Keeps s0 y5 := (KP.get (of_eq (P := KP s0) e6 (ih h2)))
        exact (KP.mk h5)

theorem grollSlice_keeps {s0 a1 a2 a3} (k3 : Keeps s0 a3) : Keeps s0 (grollSlice a1 a2 a3) := by
  unfold grollSlice
  split
  · exact k3
  · split
    · exact k3
    · extract_lets -merge +onlyGivenNames tags1
      try clear_value tags1
      split
      · rename_i y2 y3 e4
        have h3 : Keeps s0 y3 := (KP.get (of_eq (P := KP s0) e4 (rollTags_keeps k3)))
        exact (State.modCore_keeps h3)

theorem grollComplete_keeps {s0 a1 a2} (k2 : Keeps s0 a2) : Keeps s0 (grollComplete a1 a2) := by
  unfold grollComplete
  split
  · exact k2
  · exact (ite_keeps k2 (by
        extract_lets -merge +onlyGivenNames s1
        have h1 : Keeps s0 s1 := (State.modCore_keeps k2)
        clear_value s1
        exact (State.modCtx_keeps h1)))

theorem windowRead_keeps {s0 a1 a2} (k2 : Keeps s0 a2) : Keeps s0 (windowRead a1 a2) := by
  unfold windowRead
  extract_lets -merge +onlyGivenNames tag1
  try clear_value tag1
  exact (ite_keeps (State.setFlag_keeps k2) (by
      extract_lets -merge +onlyGivenNames s2
      have h2 : Keeps s0 s2 := (gaugeLine_keeps k2)
      clear_value s2
      exact (ite_keeps (State.setFlag_keeps (gaugeErr_keeps h2)) (upto_keeps (P := Keeps s0) (fun _ _ h3 => (State.setReg_keeps h3)) h2))))

theorem gaugeHeal_keeps {s0 a1 a2} (k2 : Keeps s0 a2) : Keeps s0 (gaugeHeal a1 a2) := by
  unfold gaugeHeal
  extract_lets -merge +onlyGivenNames w01
  try clear_value w01
  exact (by exact Keeps.same k2 rfl rfl rfl rfl rfl rfl rfl rfl)

theorem windowWrite_keeps {s0 a1 a2 a3} (k3 : Keeps s0 a3) : Keeps s0 (windowWrite a1 a2 a3) := by
  unfold windowWrite
  extract_lets -merge +onlyGivenNames tag1
  try clear_value tag1
  extract_lets -merge +onlyGivenNames fail2
  have h2 : ∀ z1, Keeps s0 z1 → Keeps s0 (fail2 z1) := (fun _ h3 => (State.setFlag_keeps h3))
  clear_value fail2
  exact (ite_keeps (h2 _ k3) (by
      extract_lets -merge +onlyGivenNames s4
      have h4 : Keeps s0 s4 := (gaugeLine_keeps (ite_keeps (gaugeHeal_keeps k3) k3))
      clear_value s4
      exact (ite_keeps (h2 _ (gaugeErr_keeps h4)) (by
          extract_lets -merge +onlyGivenNames s5
          have h5 : Keeps s0 s5 := (upto_keeps (P := Keeps s0) (fun _ _ h6 => (ite_keeps (State.setGw_keeps h6) h6)) h4)
          clear_value s5
          extract_lets -merge +onlyGivenNames s7
          have h7 : Keeps s0 s7 := (ite_keeps h5 (fill_keeps h5))
          clear_value s7
          extract_lets -merge +onlyGivenNames s8
          have h8 : Keeps s0 s8 := (ite_keeps h7 (gaugeArm_keeps h7))
          clear_value s8
          exact (ite_keeps (by exact Keeps.same h8 rfl rfl rfl rfl rfl rfl rfl rfl) h8)))))

theorem geCmd_keeps {s0 a1 a2 a3} (k3 : Keeps s0 a3) : Keeps s0 (geCmd a1 a2 a3) := by
  unfold geCmd
  split
  · exact (windowRead_keeps k3)
  · exact (windowWrite_keeps k3)
  · exact k3

theorem srSeedWrite_keeps {s0 a1 a2 a3 a4} (k4 : Keeps s0 a4) : Keeps s0 (srSeedWrite a1 a2 a3 a4) := by
  unfold srSeedWrite
  split
  · exact (each_keeps (P := Keeps s0) (fun _ _ h1 => (State.modCore_keeps h1)) k4)

theorem seedApply_keeps {s0 a1 a2} (k2 : Keeps s0 a2) : Keeps s0 (seedApply a1 a2) := by
  unfold seedApply
  exact (State.modCore_keeps k2)

theorem opWindowRead_keeps {s0 a1 a2 a3} (k3 : Keeps s0 a3) : Keeps s0 (opWindowRead a1 a2 a3) := by
  unfold opWindowRead
  exact (regWrite_keeps (fun _ h1 => (windowRead_keeps h1)) k3)

theorem opWindowWrite_keeps {s0 a1 a2 a3 a4} (k4 : Keeps s0 a4) : Keeps s0 (opWindowWrite a1 a2 a3 a4) := by
  unfold opWindowWrite
  exact (regWrite_keeps (fun _ h1 => (windowWrite_keeps h1)) k4)

theorem opSrSeed_keeps {s0 a1 a2 a3 a4} (k4 : Keeps s0 a4) : Keeps s0 (opSrSeed a1 a2 a3 a4) := by
  unfold opSrSeed
  exact (regWrite_keeps (fun _ h1 => (srSeedWrite_keeps h1)) k4)

theorem opGrange_keeps {s0 a1 a2 a3 a4} (k4 : Keeps s0 a4) : Keeps s0 (opGrange a1 a2 a3 a4) := by
  unfold opGrange
  exact (regWrite_keeps (fun _ h1 => (typedWrite_keeps h1)) k4)

end Sys2Proof.Machine
end

