-- ==== Sys2Proof/Laws/KeepMemory.lean ====
section
/-! SUPPORT. What the operations of Machine/Memory.lean keep (Laws/Keeps.lean). -/

namespace Sys2Proof.Machine

theorem giveCredit_keeps {s0 a1 a2} (k2 : Keeps s0 a2) : Keeps s0 (giveCredit a1 a2) := by
  unfold giveCredit
  exact (ite_keeps (State.send_keeps k2) k2)

theorem serveRd_keeps {s0 a1 a2} (k2 : Keeps s0 a2) : Keeps s0 (serveRd a1 a2) := by
  unfold serveRd
  extract_lets -merge +onlyGivenNames line1
  try clear_value line1
  split
  · rename_i y2 y3 y4 e5
    have h4 : Keeps s0 y4 := (KP.get (KSnd.get (of_eq (P := KSnd (KP s0)) e5 (homeRead_keeps k2))))
    extract_lets -merge +onlyGivenNames tag6
    try clear_value tag6
    exact (State.send_keeps h4)

theorem serveWr_keeps {s0 a1 a2} (k2 : Keeps s0 a2) : Keeps s0 (serveWr a1 a2) := by
  unfold serveWr
  extract_lets -merge +onlyGivenNames line1
  try clear_value line1
  exact (ite_keeps (logErr_keeps (State.send_keeps k2)) (by
      extract_lets -merge +onlyGivenNames outside2
      try clear_value outside2
      exact (ite_keeps (State.send_keeps (by exact Keeps.same k2 rfl rfl rfl rfl rfl rfl rfl rfl)) (by
          extract_lets -merge +onlyGivenNames s3
          have h3 : Keeps s0 s3 := (homeWrite_keeps k2)
          clear_value s3
          exact (ite_keeps h3 (State.send_keeps h3))))))

theorem serveAtom_keeps {s0 a1 a2} (k2 : Keeps s0 a2) : Keeps s0 (serveAtom a1 a2) := by
  unfold serveAtom
  extract_lets -merge +onlyGivenNames sz1
  try clear_value sz1
  extract_lets -merge +onlyGivenNames line2
  try clear_value line2
  extract_lets -merge +onlyGivenNames bad3
  try clear_value bad3
  extract_lets -merge +onlyGivenNames old4
  try clear_value old4
  split
  · rename_i y5 y6 y7 e8
    have h7 : Keeps s0 y7 := (KP.get (KSnd.get (of_eq (P := KSnd (KP s0)) e8 (homeRead_keeps k2))))
    extract_lets -merge +onlyGivenNames new9
    try clear_value new9
    extract_lets -merge +onlyGivenNames s10
    have h10 : Keeps s0 s10 := (ite_keeps h7 (homeWrite_keeps h7))
    clear_value s10
    exact (State.send_keeps h10)

theorem serveReq_keeps {s0 a1 a2} (k2 : Keeps s0 a2) : Keeps s0 (serveReq a1 a2) := by
  unfold serveReq
  extract_lets -merge +onlyGivenNames s1
  have h1 : Keeps s0 s1 := (giveCredit_keeps k2)
  clear_value s1
  exact (ite_keeps (serveWr_keeps h1) (ite_keeps (serveAtom_keeps h1) (serveRd_keeps h1)))

theorem serveOrHold_keeps {s0 a1 a2} (k2 : Keeps s0 a2) : Keeps s0 (serveOrHold a1 a2) := by
  unfold serveOrHold
  extract_lets -merge +onlyGivenNames line1
  try clear_value line1
  exact (ite_keeps (serveReq_keeps k2) (by
      extract_lets -merge +onlyGivenNames s2
      have h2 : Keeps s0 s2 := (gatePrep_keeps k2)
      clear_value s2
      exact (by exact Keeps.same h2 rfl rfl rfl rfl rfl rfl rfl rfl)))

theorem bufPeak_keeps {s0 a1 a2} (k1 : Keeps s0 a1) : Keeps s0 (bufPeak a1 a2) := by
  unfold bufPeak
  exact (ite_keeps (by
      extract_lets -merge +onlyGivenNames n1
      try clear_value n1
      exact (State.setReg_keeps k1)) k1)

theorem bufferReq_keeps {s0 a1 a2 a3} (k3 : Keeps s0 a3) : Keeps s0 (bufferReq a1 a2 a3) := by
  unfold bufferReq
  extract_lets -merge +onlyGivenNames x1
  try clear_value x1
  extract_lets -merge +onlyGivenNames wait2
  try clear_value wait2
  extract_lets -merge +onlyGivenNames s3
  have h3 : Keeps s0 s3 := (State.setSlice_keeps k3)
  clear_value s3
  exact (bufPeak_keeps (ite_keeps (State.count_keeps h3) h3))

theorem capWaits_keeps {s0 a1 a2} (k2 : Keeps s0 a2) : Keeps s0 (capWaits a1 a2) := by
  unfold capWaits
  extract_lets -merge +onlyGivenNames x1
  try clear_value x1
  extract_lets -merge +onlyGivenNames late2
  try clear_value late2
  exact (State.count_keeps (State.setSlice_keeps k2))

theorem sliceMissAdmit_keeps {s0 a1 a2} (k2 : Keeps s0 a2) : Keeps s0 (sliceMissAdmit a1 a2) := by
  unfold sliceMissAdmit
  extract_lets -merge +onlyGivenNames x1
  try clear_value x1
  split
  · exact k2
  · exact (capWaits_keeps (State.setSlice_keeps k2))

theorem State.setLc_keeps {s0 a1 a2 a3} (k1 : Keeps s0 a1) : Keeps s0 (State.setLc a1 a2 a3) := by
  unfold State.setLc
  exact (by exact Keeps.same k1 rfl rfl rfl rfl rfl rfl rfl rfl)

theorem lcQueue_keeps {s0 a1 a2 a3} (k3 : Keeps s0 a3) : Keeps s0 (lcQueue a1 a2 a3) := by
  unfold lcQueue
  extract_lets -merge +onlyGivenNames x1
  try clear_value x1
  exact (ite_keeps (State.setLc_keeps k3) (State.count_keeps (State.setLc_keeps k3)))

theorem lcQueueAdmit_keeps {s0 a1 a2} (k2 : Keeps s0 a2) : Keeps s0 (lcQueueAdmit a1 a2) := by
  unfold lcQueueAdmit
  extract_lets -merge +onlyGivenNames x1
  try clear_value x1
  split
  · exact k2
  · exact (State.setLc_keeps k2)

theorem homeAccept_keeps {s0 a1 a2} (k2 : Keeps s0 a2) : Keeps s0 (homeAccept a1 a2) := by
  unfold homeAccept
  extract_lets -merge +onlyGivenNames line1
  try clear_value line1
  extract_lets -merge +onlyGivenNames pa2
  try clear_value pa2
  exact (ite_keeps (bufPeak_keeps (by exact Keeps.same k2 rfl rfl rfl rfl rfl rfl rfl rfl)) (ite_keeps (bufPeak_keeps (gatePrep_keeps (by exact Keeps.same k2 rfl rfl rfl rfl rfl rfl rfl rfl))) (ite_keeps (ite_keeps (serveReq_keeps k2) (lcQueue_keeps k2)) (ite_keeps (serveReq_keeps k2) (by
      extract_lets -merge +onlyGivenNames n3
      try clear_value n3
      exact (ite_keeps (bufferReq_keeps k2) (ite_keeps (bufferReq_keeps k2) (serveReq_keeps k2))))))))

theorem releaseHeld_keeps {s0 a1} (k1 : Keeps s0 a1) : Keeps s0 (releaseHeld a1) := by
  unfold releaseHeld
  exact (each_keeps (P := Keeps s0) (fun _ _ h1 => (homeAccept_keeps h1)) (by exact Keeps.same k1 rfl rfl rfl rfl rfl rfl rfl rfl))

theorem request_keeps {s0 a1 a2 a3} (k3 : Keeps s0 a3) : Keeps s0 (request a1 a2 a3) := by
  unfold request
  exact (ite_keeps k3 (homeAccept_keeps (State.unsend_keeps k3)))

theorem readReport_keeps {s0 a1 a2 a3 a4 a5} (k5 : Keeps s0 a5) : Keeps s0 (readReport a1 a2 a3 a4 a5) := by
  unfold readReport
  exact (ite_keeps (by exact Keeps.same k5 rfl rfl rfl rfl rfl rfl rfl rfl) (ite_keeps (logWord_keeps k5) k5))

theorem memoryReadDone_keeps {s0 a1 a2 a3 a4 a5} (k5 : Keeps s0 a5) : Keeps s0 (memoryReadDone a1 a2 a3 a4 a5) := by
  unfold memoryReadDone
  exact (ite_keeps k5 (ite_keeps (by
      extract_lets -merge +onlyGivenNames n1
      try clear_value n1
      extract_lets -merge +onlyGivenNames x2
      try clear_value x2
      exact (ite_keeps (by
          extract_lets -merge +onlyGivenNames mine3
          try clear_value mine3
          extract_lets -merge +onlyGivenNames s4
          have h4 : Keeps s0 s4 := (State.setSlice_keeps k5)
          clear_value s4
          exact (each_keeps (P := Keeps s0) (fun _ _ h5 => (serveOrHold_keeps h5)) (readReport_keeps h4))) k5)) (by
      extract_lets -merge +onlyGivenNames n6
      try clear_value n6
      extract_lets -merge +onlyGivenNames x7
      try clear_value x7
      exact (ite_keeps (by
          extract_lets -merge +onlyGivenNames mine8
          try clear_value mine8
          extract_lets -merge +onlyGivenNames s9
          have h9 : Keeps s0 s9 := (State.setLc_keeps k5)
          clear_value s9
          exact (each_keeps (P := Keeps s0) (fun _ _ h10 => (serveOrHold_keeps h10)) (readReport_keeps h9))) k5))))

theorem writeBackDone_keeps {s0 a1 a2 a3} (k3 : Keeps s0 a3) : Keeps s0 (writeBackDone a1 a2 a3) := by
  unfold writeBackDone
  extract_lets -merge +onlyGivenNames x1
  try clear_value x1
  exact (ite_keeps k3 (State.setSlice_keeps k3))

theorem pfRead_keeps {s0 a1 a2} (k2 : Keeps s0 a2) : Keeps s0 (pfRead a1 a2) := by
  unfold pfRead
  extract_lets -merge +onlyGivenNames s1
  have h1 : Keeps s0 s1 := (State.unsend_keeps k2)
  clear_value s1
  extract_lets -merge +onlyGivenNames line2
  try clear_value line2
  exact (ite_keeps h1 (ite_keeps k2 (ite_keeps (ite_keeps h1 (State.count_keeps h1)) (ite_keeps h1 (by
      extract_lets -merge +onlyGivenNames s3
      have h3 : Keeps s0 s3 := (ite_keeps (State.count_keeps h1) (ite_keeps h1 (fill_keeps h1)))
      clear_value s3
      exact (ite_keeps (State.send_keeps h3) h3))))))

theorem mergeArrive_keeps {s0 a1 a2} (k2 : Keeps s0 a2) : Keeps s0 (mergeArrive a1 a2) := by
  unfold mergeArrive
  exact (ite_keeps k2 (by
      extract_lets -merge +onlyGivenNames s1
      have h1 : Keeps s0 s1 := (tagCheck_keeps (State.unsend_keeps k2))
      clear_value s1
      extract_lets -merge +onlyGivenNames tag2
      try clear_value tag2
      extract_lets -merge +onlyGivenNames s3
      have h3 : Keeps s0 s3 := (ite_keeps h1 (mergeEntry_keeps h1))
      clear_value s3
      exact (ite_keeps (State.send_keeps (giveCredit_keeps h3)) h3)))

theorem spentArrive_keeps {s0 a1 a2} (k2 : Keeps s0 a2) : Keeps s0 (spentArrive a1 a2) := by
  unfold spentArrive
  exact (ite_keeps k2 (by
      extract_lets -merge +onlyGivenNames n1
      try clear_value n1
      extract_lets -merge +onlyGivenNames s2
      have h2 : Keeps s0 s2 := (State.unsend_keeps k2)
      clear_value s2
      extract_lets -merge +onlyGivenNames x3
      try clear_value x3
      exact (State.setSlice_keeps h2)))

theorem dropShut_keeps {s0 a1 a2 a3} (k3 : Keeps s0 a3) : Keeps s0 (dropShut a1 a2 a3) := by
  unfold dropShut
  exact (State.modCore_keeps (State.countSat_keeps k3))

theorem response_keeps {s0 a1 a2 a3 a4} (k3 : ∀ z1, Keeps s0 z1 → Keeps s0 (a3 z1)) (k4 : Keeps s0 a4) : Keeps s0 (response a1 a2 a3 a4) := by
  unfold response
  exact (ite_keeps (by
      extract_lets -merge +onlyGivenNames s1
      have h1 : Keeps s0 s1 := (State.unsend_keeps k4)
      clear_value s1
      exact (ite_keeps (dropShut_keeps h1) (ite_keeps (State.countSat_keeps h1) (ite_keeps (State.countSat_keeps h1) (k3 _ h1))))) k4)

theorem nack_keeps {s0 a1 a2 a3} (k3 : Keeps s0 a3) : Keeps s0 (nack a1 a2 a3) := by
  unfold nack
  exact (State.send_keeps k3)

theorem ejectReq_keeps {s0 a1 a2 a3} (k2 : ∀ z1, Keeps s0 z1 → Keeps s0 (a2 z1)) (k3 : Keeps s0 a3) : Keeps s0 (ejectReq a1 a2 a3) := by
  unfold ejectReq
  extract_lets -merge +onlyGivenNames c1
  try clear_value c1
  extract_lets -merge +onlyGivenNames mg2
  try clear_value mg2
  exact (ite_keeps (nack_keeps (State.countSat_keeps k3)) (ite_keeps (nack_keeps (State.countSat_keeps k3)) (ite_keeps (nack_keeps (State.countSat_keeps k3)) (k2 _ k3))))

theorem creditArrive_keeps {s0 a1 a2 a3} (k3 : Keeps s0 a3) : Keeps s0 (creditArrive a1 a2 a3) := by
  unfold creditArrive
  extract_lets -merge +onlyGivenNames k1
  try clear_value k1
  extract_lets -merge +onlyGivenNames u2
  try clear_value u2
  split
  · exact (flushPf_keeps (State.send_keeps (State.setCore_keeps k3)))
  · exact (State.setCore_keeps k3)

theorem creditRow_keeps {s0 a1 a2} (k2 : Keeps s0 a2) : Keeps s0 (creditRow a1 a2) := by
  unfold creditRow
  exact (ite_keeps (by
      extract_lets -merge +onlyGivenNames s1
      have h1 : Keeps s0 s1 := (State.unsend_keeps k2)
      clear_value s1
      exact (ite_keeps (State.countSat_keeps h1) (creditArrive_keeps h1))) k2)

theorem reservedOp_keeps {s0 a1 a2} (k2 : Keeps s0 a2) : Keeps s0 (reservedOp a1 a2) := by
  unfold reservedOp
  exact (ite_keeps k2 (State.countSat_keeps (State.unsend_keeps k2)))

theorem msgArrive_keeps {s0 a1 a2} (k2 : Keeps s0 a2) : Keeps s0 (msgArrive a1 a2) := by
  unfold msgArrive
  exact (ite_keeps k2 (ejectReq_keeps (fun _ h1 => (State.ipend_keeps h1)) (State.unsend_keeps k2)))

theorem cmemWrite_keeps {s0 a1 a2 a3} (k3 : Keeps s0 a3) : Keeps s0 (cmemWrite a1 a2 a3) := by
  unfold cmemWrite
  extract_lets -merge +onlyGivenNames s1
  have h1 : Keeps s0 s1 := (typedWrite_keeps k3)
  clear_value s1
  exact (each_keeps (P := Keeps s0) (fun _ _ h2 => (State.modCore_keeps h2)) h1)

theorem opCmem_keeps {s0 a1 a2 a3 a4} (k4 : Keeps s0 a4) : Keeps s0 (opCmem a1 a2 a3 a4) := by
  unfold opCmem
  exact (regWrite_keeps (fun _ h1 => (cmemWrite_keeps h1)) k4)

theorem memLimit_keeps {s0 a1 a2 a3} (k3 : Keeps s0 a3) : Keeps s0 (memLimit a1 a2 a3) := by
  unfold memLimit
  exact (ite_keeps k3 (by
      extract_lets -merge +onlyGivenNames pk1
      try clear_value pk1
      extract_lets -merge +onlyGivenNames pa2
      try clear_value pa2
      extract_lets -merge +onlyGivenNames addr3
      try clear_value addr3
      extract_lets -merge +onlyGivenNames s4
      have h4 : Keeps s0 s4 := by
        unfold s4
        split
        · exact (ite_keeps (creditArrive_keeps k3) k3)
        · exact k3
      clear_value s4
      extract_lets -merge +onlyGivenNames s5
      have h5 : Keeps s0 s5 := (State.modCore_keeps h4)
      clear_value s5
      exact (logErr_keeps (coreFail_keeps h5))))

end Sys2Proof.Machine
end

