-- ==== Sys2Proof/Laws/KeepLedger.lean ====
section
/-! SUPPORT. What the operations of Machine/Ledger.lean keep (Laws/Keeps.lean). -/

namespace Sys2Proof.Machine

theorem lgFail_keeps {s0 a1 a2 a3} (k3 : Keeps s0 a3) : Keeps s0 (lgFail a1 a2 a3) := by
  unfold lgFail
  exact (State.setFld_keeps (State.setFlag_keeps k3))

theorem lgWalk_keeps {s0 a1 a2 a3} (k3 : Keeps s0 a3) : KP s0 (lgWalk a1 a2 a3) := by
  unfold lgWalk
  exact (ite_keeps (KP.mk (walkLines_keeps (State.count_keeps k3))) (by
      extract_lets -merge +onlyGivenNames w1
      try clear_value w1
      exact (KP.mk (walkLines_keeps (countWalk_keeps k3)))))

theorem relink_keeps {s0 a1 a2 a3} (k3 : Keeps s0 a3) : Keeps s0 (relink a1 a2 a3) := by
  unfold relink
  extract_lets -merge +onlyGivenNames e1
  try clear_value e1
  extract_lets -merge +onlyGivenNames h2
  try clear_value h2
  extract_lets -merge +onlyGivenNames nxt3
  try clear_value nxt3
  exact (ite_keeps (State.setAnchor_keeps k3) (by
      split
      · exact (State.setLe_keeps k3)
      · exact k3))

theorem touchEc_keeps {s0 a1 a2 a3 a4} (k4 : Keeps s0 a4) : Keeps s0 (touchEc a1 a2 a3 a4) := by
  unfold touchEc
  exact (ite_keeps k4 (by
      extract_lets -merge +onlyGivenNames vpn1
      try clear_value vpn1
      extract_lets -merge +onlyGivenNames l2
      try clear_value l2
      exact (ite_keeps k4 (by
          extract_lets -merge +onlyGivenNames w3
          try clear_value w3
          extract_lets -merge +onlyGivenNames s4
          have h4 : Keeps s0 s4 := (walkLines_keeps (countWalk_keeps k4))
          clear_value s4
          split
          · extract_lets -merge +onlyGivenNames l5
            try clear_value l5
            exact (by exact Keeps.same h4 rfl rfl rfl rfl rfl rfl rfl rfl)
          · exact (State.countSat_keeps h4)))))

theorem touchEcN_keeps {s0 a1 a2 a3 a4 a5} (k5 : Keeps s0 a5) : Keeps s0 (touchEcN a1 a2 a3 a4 a5) := by
  unfold touchEcN
  exact (each_keeps (P := Keeps s0) (fun _ _ h1 => (touchEc_keeps h1)) k5)

theorem lgEnd_keeps {s0 a1 a2} (k2 : Keeps s0 a2) : Keeps s0 (lgEnd a1 a2) := by
  unfold lgEnd
  exact (State.setFlag_keeps (by exact Keeps.same k2 rfl rfl rfl rfl rfl rfl rfl rfl))

theorem shootStart_keeps {s0 a1 a2 a3 a4 a5} (k5 : Keeps s0 a5) : Keeps s0 (shootStart a1 a2 a3 a4 a5) := by
  unfold shootStart
  extract_lets -merge +onlyGivenNames s1
  have h1 : Keeps s0 s1 := (State.setFlag_keeps k5)
  clear_value s1
  exact (by exact Keeps.same h1 rfl rfl rfl rfl rfl rfl rfl rfl)

theorem doUnmap_keeps {s0 a1 a2 a3} (k3 : Keeps s0 a3) : Keeps s0 (doUnmap a1 a2 a3) := by
  unfold doUnmap
  extract_lets -merge +onlyGivenNames e1
  try clear_value e1
  extract_lets -merge +onlyGivenNames s2
  have h2 : Keeps s0 s2 := (relink_keeps k3)
  clear_value s2
  exact (shootStart_keeps (State.setLe_keeps h2))

theorem lgData_keeps {s0 a1 a2 a3} (k3 : Keeps s0 a3) : Keeps s0 (lgData a1 a2 a3) := by
  unfold lgData
  extract_lets -merge +onlyGivenNames b1
  try clear_value b1
  exact (State.setReg_keeps (State.setReg_keeps k3))

theorem lgRead_keeps {s0 a1 a2} (k2 : Keeps s0 a2) : Keeps s0 (lgRead a1 a2) := by
  unfold lgRead
  extract_lets -merge +onlyGivenNames f1
  try clear_value f1
  exact (ite_keeps (lgFail_keeps k2) (ite_keeps (lgFail_keeps k2) (ite_keeps (lgFail_keeps k2) (lgData_keeps k2))))

theorem lgFind_keeps {s0 a1 a2} (k2 : Keeps s0 a2) : Keeps s0 (lgFind a1 a2) := by
  unfold lgFind
  split
  · rename_i y1 y2 e3
    have h2 : Keeps s0 y2 := (KP.get (of_eq (P := KP s0) e3 (lgWalk_keeps k2)))
    split
    · exact (lgFail_keeps h2)
    · exact (lgData_keeps (State.setFld_keeps h2))
    · exact (lgFail_keeps h2)

theorem linkNew_keeps {s0 a1 a2 a3 a4 a5 a6 a7 a8} (k8 : Keeps s0 a8) : Keeps s0 (linkNew a1 a2 a3 a4 a5 a6 a7 a8) := by
  unfold linkNew
  extract_lets -merge +onlyGivenNames h1
  try clear_value h1
  extract_lets -merge +onlyGivenNames e2
  try clear_value e2
  exact (State.setAnchor_keeps (State.setLe_keeps k8))

theorem lgMap_keeps {s0 a1 a2} (k2 : Keeps s0 a2) : Keeps s0 (lgMap a1 a2) := by
  unfold lgMap
  extract_lets -merge +onlyGivenNames p1
  try clear_value p1
  extract_lets -merge +onlyGivenNames f2
  try clear_value f2
  exact (ite_keeps (lgFail_keeps k2) (ite_keeps (lgFail_keeps k2) (by
      split
      · rename_i y3 y4 e5
        have h4 : Keeps s0 y4 := (KP.get (of_eq (P := KP s0) e5 (lgWalk_keeps k2)))
        split
        · exact (lgFail_keeps h4)
        · exact (lgFail_keeps h4)
        · exact (ite_keeps (lgFail_keeps h4) (by
              extract_lets -merge +onlyGivenNames pick6
              try clear_value pick6
              split
              · exact (lgFail_keeps h4)
              · exact (ite_keeps (lgFail_keeps h4) (by
                    extract_lets -merge +onlyGivenNames s7
                    have h7 : Keeps s0 s7 := (linkNew_keeps h4)
                    clear_value s7
                    extract_lets -merge +onlyGivenNames s8
                    have h8 : Keeps s0 s8 := (ite_keeps (State.count_keeps h7) h7)
                    clear_value s8
                    exact (shootStart_keeps (State.setFld_keeps h8)))))))))

theorem lgUnmap_keeps {s0 a1 a2} (k2 : Keeps s0 a2) : Keeps s0 (lgUnmap a1 a2) := by
  unfold lgUnmap
  split
  · rename_i y1 y2 e3
    have h2 : Keeps s0 y2 := (KP.get (of_eq (P := KP s0) e3 (lgWalk_keeps k2)))
    split
    · exact (lgFail_keeps h2)
    · exact (ite_keeps (lgFail_keeps h2) (ite_keeps (by
          extract_lets -merge +onlyGivenNames s4
          have h4 : Keeps s0 s4 := (wantCopy_keeps h2)
          clear_value s4
          extract_lets -merge +onlyGivenNames s5
          have h5 : Keeps s0 s5 := (by exact Keeps.same h4 rfl rfl rfl rfl rfl rfl rfl rfl)
          clear_value s5
          exact (State.setFlag_keeps h5)) (doUnmap_keeps h2)))
    · exact (lgFail_keeps h2)

theorem lgSetClr_keeps {s0 a1 a2 a3} (k3 : Keeps s0 a3) : Keeps s0 (lgSetClr a1 a2 a3) := by
  unfold lgSetClr
  extract_lets -merge +onlyGivenNames f1
  try clear_value f1
  exact (ite_keeps (lgFail_keeps k3) (ite_keeps (lgFail_keeps k3) (ite_keeps (lgFail_keeps k3) (by
      extract_lets -merge +onlyGivenNames e2
      try clear_value e2
      exact (ite_keeps (lgFail_keeps k3) (ite_keeps (lgFail_keeps k3) (by
          extract_lets -merge +onlyGivenNames e'3
          try clear_value e'3
          extract_lets -merge +onlyGivenNames s4
          have h4 : Keeps s0 s4 := (State.setLe_keeps k3)
          clear_value s4
          exact (ite_keeps (shootStart_keeps h4) h4))))))))

theorem rekey_keeps {s0 f k s} (h : Keeps s0 s) : Keeps s0 (rekey f k s) := by
  unfold rekey
  refine ite_keeps h (each_keeps (P := Keeps s0) (fun _ _ k => State.setByte_keeps k) ?_)
  exact h.memUpd rfl rfl rfl rfl rfl (Nat.le_succ _) (memWf_filter _ rfl fun _ => lhas_ldrop)

theorem lgGive_keeps {s0 a1 a2} (k2 : Keeps s0 a2) : Keeps s0 (lgGive a1 a2) := by
  unfold lgGive
  extract_lets -merge +onlyGivenNames f1
  try clear_value f1
  exact (ite_keeps (lgFail_keeps k2) (ite_keeps (lgFail_keeps k2) (ite_keeps (lgFail_keeps k2) (by
      extract_lets -merge +onlyGivenNames e2
      try clear_value e2
      exact (ite_keeps (lgFail_keeps k2) (ite_keeps (lgFail_keeps k2) (by
          extract_lets -merge +onlyGivenNames rsv3
          try clear_value rsv3
          extract_lets -merge +onlyGivenNames s4
          have h4 : Keeps s0 s4 := (State.setLe_keeps (rekey_keeps k2))
          clear_value s4
          exact (shootStart_keeps h4))))))))

theorem markOld_keeps {s0 a1 a2} (k2 : Keeps s0 a2) : Keeps s0 (markOld a1 a2) := by
  unfold markOld
  extract_lets -merge +onlyGivenNames mark1
  try clear_value mark1
  exact (by exact Keeps.same k2 rfl rfl rfl rfl rfl rfl rfl rfl)

theorem lgMigrate_keeps {s0 a1 a2} (k2 : Keeps s0 a2) : Keeps s0 (lgMigrate a1 a2) := by
  unfold lgMigrate
  extract_lets -merge +onlyGivenNames f1
  try clear_value f1
  extract_lets -merge +onlyGivenNames d2
  try clear_value d2
  exact (ite_keeps (lgFail_keeps k2) (ite_keeps (lgFail_keeps k2) (by
      extract_lets -merge +onlyGivenNames e3
      try clear_value e3
      exact (ite_keeps (lgFail_keeps k2) (ite_keeps (lgFail_keeps k2) (by
          extract_lets -merge +onlyGivenNames pick4
          try clear_value pick4
          split
          · exact (lgFail_keeps k2)
          · extract_lets -merge +onlyGivenNames s5
            have h5 : Keeps s0 s5 := (markOld_keeps (State.setLe_keeps k2))
            clear_value s5
            extract_lets -merge +onlyGivenNames s6
            have h6 : Keeps s0 s6 := (State.setFld_keeps h5)
            clear_value s6
            extract_lets -merge +onlyGivenNames s7
            have h7 : Keeps s0 s7 := (State.setFlag_keeps h6)
            clear_value s7
            exact (by exact Keeps.same h7 rfl rfl rfl rfl rfl rfl rfl rfl)))))))

theorem lgRun_keeps {s0 a1 a2} (k2 : Keeps s0 a2) : Keeps s0 (lgRun a1 a2) := by
  unfold lgRun
  split
  · exact (lgRead_keeps k2)
  · exact (lgFind_keeps k2)
  · exact (lgMap_keeps k2)
  · exact (lgUnmap_keeps k2)
  · exact (lgSetClr_keeps k2)
  · exact (lgSetClr_keeps k2)
  · exact (lgMigrate_keeps k2)
  · exact (lgGive_keeps k2)

theorem lgDrain_keeps {s0 a1 a2} (k2 : Keeps s0 a2) : Keeps s0 (lgDrain a1 a2) := by
  induction a1 generalizing a2 with
  | nil =>
    rw [lgDrain.eq_1]
    exact (by exact Keeps.same k2 rfl rfl rfl rfl rfl rfl rfl rfl)
  | cons x r ih =>
    rw [lgDrain.eq_2]
    exact (ite_keeps (ih (lgRun_keeps (State.setFlag_keeps k2))) (by exact Keeps.same k2 rfl rfl rfl rfl rfl rfl rfl rfl))

theorem lgNext_keeps {s0 a1} (k1 : Keeps s0 a1) : Keeps s0 (lgNext a1) := by
  unfold lgNext
  exact (lgDrain_keeps k1)

theorem ledgerCmd_keeps {s0 a1 a2 a3} (k3 : Keeps s0 a3) : Keeps s0 (ledgerCmd a1 a2 a3) := by
  unfold ledgerCmd
  exact (ite_keeps k3 (ite_keeps (lgFail_keeps k3) (by
      extract_lets -merge +onlyGivenNames fr1
      try clear_value fr1
      extract_lets -merge +onlyGivenNames vp2
      try clear_value vp2
      extract_lets -merge +onlyGivenNames ar3
      try clear_value ar3
      exact (ite_keeps (lgRun_keeps k3) (by
          extract_lets -merge +onlyGivenNames s4
          have h4 : Keeps s0 s4 := (State.setFlag_keeps k3)
          clear_value s4
          exact (by exact Keeps.same h4 rfl rfl rfl rfl rfl rfl rfl rfl))))))

theorem opLedger_keeps {s0 a1 a2 a3 a4} (k4 : Keeps s0 a4) : Keeps s0 (opLedger a1 a2 a3 a4) := by
  unfold opLedger
  exact (regWrite_keeps (fun _ h1 => (ledgerCmd_keeps h1)) k4)

theorem lgResume_keeps {s0 a1 a2} (k2 : Keeps s0 a2) : Keeps s0 (lgResume a1 a2) := by
  unfold lgResume
  split
  · exact (doUnmap_keeps k2)
  · exact k2

theorem shootdownAt_keeps {s0 a1 a2 a3} (k3 : Keeps s0 a3) : Keeps s0 (shootdownAt a1 a2 a3) := by
  unfold shootdownAt
  split
  · exact (ite_keeps k3 (by
        extract_lets -merge +onlyGivenNames s1
        have h1 : Keeps s0 s1 := (ite_keeps (State.modCore_keeps k3) (by exact Keeps.same k3 rfl rfl rfl rfl rfl rfl rfl rfl))
        clear_value s1
        exact (by exact Keeps.same h1 rfl rfl rfl rfl rfl rfl rfl rfl)))
  · exact k3

theorem shootdownDone_keeps {s0 a1 a2} (k2 : Keeps s0 a2) : Keeps s0 (shootdownDone a1 a2) := by
  unfold shootdownDone
  split
  · exact (ite_keeps (lgNext_keeps (lgEnd_keeps k2)) k2)
  · exact k2

theorem migrateStart_keeps {s0 a1 a2} (k2 : Keeps s0 a2) : Keeps s0 (migrateStart a1 a2) := by
  unfold migrateStart
  split
  · extract_lets -merge +onlyGivenNames wr1
    try clear_value wr1
    exact (ite_keeps k2 (by exact Keeps.same k2 rfl rfl rfl rfl rfl rfl rfl rfl))
  · exact k2

theorem countCopy_keeps {s0 a1 a2 a3 a4} (k4 : Keeps s0 a4) : Keeps s0 (countCopy a1 a2 a3 a4) := by
  unfold countCopy
  extract_lets -merge +onlyGivenNames s1
  have h1 : Keeps s0 s1 := (ite_keeps (State.count_keeps k4) k4)
  clear_value s1
  exact (ite_keeps (State.count_keeps h1) h1)

theorem copyLines_keeps {s0 f d ls s} (h : Keeps s0 s) : Keeps s0 (copyLines f d ls s) := by
  unfold copyLines
  have h1 : Keeps s0 (each (countCopy f d) ls s) := each_keeps (P := Keeps s0) (fun _ _ k => countCopy_keeps k) h
  extract_lets -merge +onlyGivenNames fl dl mine from' s1
  have h1 : Keeps s0 s1 := h1
  clear_value s1
  refine each_keeps (P := Keeps s0) (fun _ _ k => State.setByte_keeps k) ?_
  exact h1.memUpd rfl rfl rfl rfl rfl (Nat.le_refl _) (memWf_filter _ rfl fun _ k => k)

theorem copyPrep_keeps {s0 a1 a2 a3 a4 a5} (k5 : Keeps s0 a5) : Keeps s0 (copyPrep a1 a2 a3 a4 a5) := by
  unfold copyPrep
  exact (each_keeps (P := Keeps s0) (fun _ _ h1 => (gatePrep_keeps (gatePrep_keeps h1))) k5)

theorem countShare_keeps {s0 a1 a2} (k2 : Keeps s0 a2) : Keeps s0 (countShare a1 a2) := by
  unfold countShare
  exact (ite_keeps (State.count_keeps k2) (State.count_keeps k2))

theorem returnHeld_keeps {s0 a1 a2 a3} (k3 : Keeps s0 a3) : Keeps s0 (returnHeld a1 a2 a3) := by
  unfold returnHeld
  extract_lets -merge +onlyGivenNames mine1
  try clear_value mine1
  extract_lets -merge +onlyGivenNames back2
  try clear_value back2
  exact (each_keeps (P := Keeps s0) (fun _ _ h3 => (by
      extract_lets -merge +onlyGivenNames pa4
      try clear_value pa4
      exact (State.send_keeps h3))) (by exact Keeps.same k3 rfl rfl rfl rfl rfl rfl rfl rfl))

theorem migrateFinish_keeps {s0 a1 a2 a3 a4} (k4 : Keeps s0 a4) : Keeps s0 (migrateFinish a1 a2 a3 a4) := by
  unfold migrateFinish
  extract_lets -merge +onlyGivenNames e1
  try clear_value e1
  extract_lets -merge +onlyGivenNames t2
  try clear_value t2
  extract_lets -merge +onlyGivenNames s3
  have h3 : Keeps s0 s3 := (relink_keeps k4)
  clear_value s3
  extract_lets -merge +onlyGivenNames x4
  try clear_value x4
  extract_lets -merge +onlyGivenNames s5
  have h5 : Keeps s0 s5 := (State.setLe_keeps h3)
  clear_value s5
  extract_lets -merge +onlyGivenNames x6
  try clear_value x6
  extract_lets -merge +onlyGivenNames s7
  have h7 : Keeps s0 s7 := (State.setLe_keeps h5)
  clear_value s7
  extract_lets -merge +onlyGivenNames x8
  try clear_value x8
  extract_lets -merge +onlyGivenNames s9
  have h9 : Keeps s0 s9 := (State.setSnap_keeps h7)
  clear_value s9
  exact (releaseHeld_keeps (shootStart_keeps (returnHeld_keeps h9)))

theorem migrateShare_keeps {s0 a1 a2 a3} (k3 : Keeps s0 a3) : Keeps s0 (migrateShare a1 a2 a3) := by
  unfold migrateShare
  split
  · exact (ite_keeps k3 (by
        extract_lets -merge +onlyGivenNames p1
        try clear_value p1
        extract_lets -merge +onlyGivenNames ls2
        try clear_value ls2
        exact (ite_keeps (copyPrep_keeps k3) (ite_keeps (by
            extract_lets -merge +onlyGivenNames x3
            try clear_value x3
            extract_lets -merge +onlyGivenNames s4
            have h4 : Keeps s0 s4 := (State.setLe_keeps k3)
            clear_value s4
            exact (lgNext_keeps (releaseHeld_keeps (lgEnd_keeps (lgFail_keeps h4))))) (by
            extract_lets -merge +onlyGivenNames s5
            have h5 : Keeps s0 s5 := (countShare_keeps (copyLines_keeps k3))
            clear_value s5
            extract_lets -merge +onlyGivenNames left6
            try clear_value left6
            exact (ite_keeps (migrateFinish_keeps h5) (by exact Keeps.same h5 rfl rfl rfl rfl rfl rfl rfl rfl)))))))
  · exact k3

end Sys2Proof.Machine
end

