-- ==== Sys2Proof/Laws/KeepKnots.lean ====
section
/-! SUPPORT. What the operations of Machine/Knots.lean keep (Laws/Keeps.lean). -/

namespace Sys2Proof.Machine

theorem setCount_keeps {s0 a1 a2 a3} (k3 : Keeps s0 a3) : Keeps s0 (setCount a1 a2 a3) := by
  unfold setCount
  exact (State.setFld_keeps k3)

theorem knotFault_keeps {s0 a1 a2 a3 a4 a5 a6} (k6 : Keeps s0 a6) : Keeps s0 (knotFault a1 a2 a3 a4 a5 a6) := by
  unfold knotFault
  exact (ite_keeps (enterExc_keeps k6) (by
      extract_lets -merge +onlyGivenNames s1
      have h1 : Keeps s0 s1 := (State.setFld_keeps (State.setFld_keeps k6))
      clear_value s1
      exact (enterExc_keeps h1)))

theorem knotDone_keeps {s0 a1 a2 a3 a4 a5 a6} (k6 : Keeps s0 a6) : Keeps s0 (knotDone a1 a2 a3 a4 a5 a6) := by
  unfold knotDone
  extract_lets -merge +onlyGivenNames s1
  have h1 : Keeps s0 s1 := (ite_keeps (acquire_keeps k6) k6)
  clear_value s1
  exact (retireCtx_keeps (State.modCtx_keeps h1))

theorem giveGrant_keeps {s0 a1 a2 a3} (k3 : Keeps s0 a3) : Keeps s0 (giveGrant a1 a2 a3) := by
  unfold giveGrant
  split
  · split
    · split
      · exact (knotDone_keeps k3)
      · exact k3
    · exact (State.send_keeps k3)

theorem release_keeps {s0 a1 a2 a3} (k3 : Keeps s0 a3) : Keeps s0 (release a1 a2 a3) := by
  unfold release
  split
  · extract_lets -merge +onlyGivenNames s1
    have h1 : Keeps s0 s1 := (setCount_keeps (by exact Keeps.same k3 rfl rfl rfl rfl rfl rfl rfl rfl))
    clear_value s1
    exact (each_keeps (P := Keeps s0) (fun _ _ h2 => (giveGrant_keeps h2)) h1)

theorem signalIrq_keeps {s0 a1 a2} (k2 : Keeps s0 a2) : Keeps s0 (signalIrq a1 a2) := by
  unfold signalIrq
  extract_lets -merge +onlyGivenNames c1
  try clear_value c1
  exact (ite_keeps (State.setFld_keeps (State.countSat_keeps (State.ipend_keeps k2))) k2)

theorem doSignal_keeps {s0 a1 a2 a3} (k3 : Keeps s0 a3) : KP s0 (doSignal a1 a2 a3) := by
  unfold doSignal
  extract_lets -merge +onlyGivenNames w1
  try clear_value w1
  extract_lets -merge +onlyGivenNames cnt2
  try clear_value cnt2
  extract_lets -merge +onlyGivenNames c'3
  try clear_value c'3
  exact (ite_keeps (KP.mk (signalIrq_keeps k3)) (ite_keeps (KP.mk (signalIrq_keeps (setCount_keeps k3))) (ite_keeps (KP.mk k3) (by
      extract_lets -merge +onlyGivenNames c'4
      try clear_value c'4
      extract_lets -merge +onlyGivenNames left5
      try clear_value left5
      exact (ite_keeps (KP.mk k3) (KP.mk (signalIrq_keeps (ite_keeps (setCount_keeps k3) (release_keeps k3)))))))))

theorem countOp_keeps {s0 a1 a2} (k2 : Keeps s0 a2) : Keeps s0 (countOp a1 a2) := by
  unfold countOp
  exact (ite_keeps (State.count_keeps k2) k2)

theorem knotOp_keeps {s0 a1 a2 a3 a4 a5 a6} (k6 : Keeps s0 a6) : KP s0 (knotOp a1 a2 a3 a4 a5 a6) := by
  unfold knotOp
  extract_lets -merge +onlyGivenNames s1
  have h1 : Keeps s0 s1 := (countOp_keeps k6)
  clear_value s1
  split
  · exact (KP.mk h1)
  · extract_lets -merge +onlyGivenNames cnt2
    try clear_value cnt2
    split
    · exact (doSignal_keeps h1)
    · exact (KP.mk (release_keeps h1))
    · exact (KP.mk h1)

theorem knotWaitOp_keeps {s0 a1 a2 a3 a4} (k4 : Keeps s0 a4) : KP s0 (knotWaitOp a1 a2 a3 a4) := by
  unfold knotWaitOp
  extract_lets -merge +onlyGivenNames s1
  have h1 : Keeps s0 s1 := (countOp_keeps k4)
  clear_value s1
  split
  · exact (KP.mk h1)
  · extract_lets -merge +onlyGivenNames cnt2
    try clear_value cnt2
    exact (ite_keeps (KP.mk (setCount_keeps h1)) (KP.mk (by exact Keeps.same h1 rfl rfl rfl rfl rfl rfl rfl rfl)))

theorem knotErr_keeps {s0 a1 a2 a3 a4} (k4 : Keeps s0 a4) : Keeps s0 (knotErr a1 a2 a3 a4) := by
  unfold knotErr
  extract_lets -merge +onlyGivenNames c1
  try clear_value c1
  exact (ite_keeps (by
      extract_lets -merge +onlyGivenNames s2
      have h2 : Keeps s0 s2 := (State.countSat_keeps (State.ipend_keeps k4))
      clear_value s2
      split
      · rename_i y3 y4 e5
        have h4 : Keeps s0 y4 := (KP.get (of_eq (P := KP s0) e5 (State.fresh_keeps h2)))
        extract_lets -merge +onlyGivenNames s6
        have h6 : Keeps s0 s6 := (ite_keeps (State.setFld_keeps h2) (State.setFld_keeps h4))
        clear_value s6
        exact (State.setFld_keeps (State.setFld_keeps h6))) k4)

theorem engSignal_keeps {s0 a1 a2 a3 a4 a5} (k5 : Keeps s0 a5) : Keeps s0 (engSignal a1 a2 a3 a4 a5) := by
  unfold engSignal
  split
  · rename_i y1 y2 e3
    have h2 : Keeps s0 y2 := (KP.get (of_eq (P := KP s0) e3 (knotOp_keeps k5)))
    exact (knotErr_keeps h2)
  · rename_i y4 y5 e6
    have h5 : Keeps s0 y5 := (KP.get (of_eq (P := KP s0) e6 (knotOp_keeps k5)))
    exact h5

theorem sendSignal_keeps {s0 a1 a2 a3 a4 a5 a6} (k6 : Keeps s0 a6) : Keeps s0 (sendSignal a1 a2 a3 a4 a5 a6) := by
  unfold sendSignal
  exact (State.send_keeps k6)

theorem sendKnot_keeps {s0 a1 a2 a3 a4 a5 a6 a7 a8} (k8 : Keeps s0 a8) : Keeps s0 (sendKnot a1 a2 a3 a4 a5 a6 a7 a8) := by
  unfold sendKnot
  split
  · exact k8
  · exact (State.send_keeps (State.modCur_keeps k8))

theorem knotBody_keeps {s0 a1 a2 a3 a4 a5 a6 a7} (k7 : Keeps s0 a7) : Keeps s0 (knotBody a1 a2 a3 a4 a5 a6 a7) := by
  unfold knotBody
  extract_lets -merge +onlyGivenNames name1
  try clear_value name1
  extract_lets -merge +onlyGivenNames b2
  try clear_value b2
  extract_lets -merge +onlyGivenNames i3
  try clear_value i3
  exact (ite_keeps (trap_keeps k7) (by
      extract_lets -merge +onlyGivenNames key4
      try clear_value key4
      extract_lets -merge +onlyGivenNames m5
      try clear_value m5
      exact (ite_keeps (knotFault_keeps k7) (ite_keeps (by
          split
          · rename_i y6 y7 e8
            have h7 : Keeps s0 y7 := (KP.get (of_eq (P := KP s0) e8 (knotOp_keeps k7)))
            exact (knotFault_keeps h7)
          · rename_i y9 y10 e11
            have h10 : Keeps s0 y10 := (KP.get (of_eq (P := KP s0) e11 (knotOp_keeps k7)))
            exact (knotDone_keeps h10)) (sendKnot_keeps k7)))))

theorem releaseOrder_keeps {s0 a1 a2 a3} (k2 : ∀ z1, Keeps s0 z1 → Keeps s0 (a2 z1)) (k3 : Keeps s0 a3) : Keeps s0 (releaseOrder a1 a2 a3) := by
  unfold releaseOrder
  exact (engGuard_keeps (fun _ h1 => (ite_keeps h1 (k2 _ h1))) k3)

theorem opKsig_keeps {s0 a1 a2 a3 a4 a5} (k5 : Keeps s0 a5) : Keeps s0 (opKsig a1 a2 a3 a4 a5) := by
  unfold opKsig
  extract_lets -merge +onlyGivenNames w1
  try clear_value w1
  exact (issue4_keeps (fun _ h2 => (releaseOrder_keeps (fun _ h3 => (knotBody_keeps h3)) h2)) k5)

theorem opKpeek_keeps {s0 a1 a2 a3 a4 a5} (k5 : Keeps s0 a5) : Keeps s0 (opKpeek a1 a2 a3 a4 a5) := by
  unfold opKpeek
  extract_lets -merge +onlyGivenNames w1
  try clear_value w1
  exact (issue4_keeps (fun _ h2 => (knotBody_keeps h2)) k5)

theorem opKset_keeps {s0 a1 a2 a3 a4 a5} (k5 : Keeps s0 a5) : Keeps s0 (opKset a1 a2 a3 a4 a5) := by
  unfold opKset
  extract_lets -merge +onlyGivenNames w1
  try clear_value w1
  exact (issue4_keeps (fun _ h2 => (knotBody_keeps h2)) k5)

theorem opKwait_keeps {s0 a1 a2 a3 a4 a5} (k5 : Keeps s0 a5) : Keeps s0 (opKwait a1 a2 a3 a4 a5) := by
  unfold opKwait
  extract_lets -merge +onlyGivenNames w1
  try clear_value w1
  exact (issue4_keeps (fun _ h2 => (by
      extract_lets -merge +onlyGivenNames name3
      try clear_value name3
      extract_lets -merge +onlyGivenNames b4
      try clear_value b4
      extract_lets -merge +onlyGivenNames i5
      try clear_value i5
      exact (ite_keeps (trap_keeps h2) (by
          extract_lets -merge +onlyGivenNames key6
          try clear_value key6
          exact (ite_keeps (knotFault_keeps h2) (ite_keeps (sendKnot_keeps h2) (by
              split
              · rename_i y7 y8 e9
                have h8 : Keeps s0 y8 := (KP.get (of_eq (P := KP s0) e9 (knotWaitOp_keeps h2)))
                exact (knotFault_keeps h8)
              · rename_i y10 y11 e12
                have h11 : Keeps s0 y11 := (KP.get (of_eq (P := KP s0) e12 (knotWaitOp_keeps h2)))
                exact (knotDone_keeps h11)
              · rename_i y13 e14
                have h13 : Keeps s0 y13 := (KP.get (of_eq (P := KP s0) e14 (knotWaitOp_keeps h2)))
                exact (State.modCur_keeps h13)))))))) k5)

theorem hitchBody_keeps {s0 a1 a2 a3 a4 a5 a6 a7} (k7 : Keeps s0 a7) : Keeps s0 (hitchBody a1 a2 a3 a4 a5 a6 a7) := by
  unfold hitchBody
  extract_lets -merge +onlyGivenNames h1
  try clear_value h1
  extract_lets -merge +onlyGivenNames g2
  try clear_value g2
  exact (ite_keeps (trap_keeps k7) (sendKnot_keeps k7))

theorem opHarr_keeps {s0 a1 a2 a3 a4 a5} (k5 : Keeps s0 a5) : Keeps s0 (opHarr a1 a2 a3 a4 a5) := by
  unfold opHarr
  extract_lets -merge +onlyGivenNames w1
  try clear_value w1
  exact (issue4_keeps (fun _ h2 => (releaseOrder_keeps (fun _ h3 => (hitchBody_keeps h3)) h2)) k5)

theorem opHwait_keeps {s0 a1 a2 a3 a4 a5} (k5 : Keeps s0 a5) : Keeps s0 (opHwait a1 a2 a3 a4 a5) := by
  unfold opHwait
  extract_lets -merge +onlyGivenNames w1
  try clear_value w1
  exact (issue4_keeps (fun _ h2 => (hitchBody_keeps h2)) k5)

theorem opHpeek_keeps {s0 a1 a2 a3 a4 a5} (k5 : Keeps s0 a5) : Keeps s0 (opHpeek a1 a2 a3 a4 a5) := by
  unfold opHpeek
  extract_lets -merge +onlyGivenNames w1
  try clear_value w1
  exact (issue4_keeps (fun _ h2 => (hitchBody_keeps h2)) k5)

theorem takeInt_keeps {s0 a1 a2} (k2 : Keeps s0 a2) : Keeps s0 (takeInt a1 a2) := by
  unfold takeInt
  split
  · rename_i y1 y2 e3
    have h2 : Keeps s0 y2 := (KP.get (of_eq (P := KP s0) e3 (State.fresh_keeps k2)))
    exact (enterExc_keeps h2)

theorem atRow_keeps {s0 a1 a2 a3} (k3 : Keeps s0 a3) : Keeps s0 (atRow a1 a2 a3) := by
  unfold atRow
  split
  · exact k3
  · exact (State.modCur_keeps k3)

theorem maintAway_keeps {s0 a1 a2} (k2 : Keeps s0 a2) : Keeps s0 (maintAway a1 a2) := by
  unfold maintAway
  extract_lets -merge +onlyGivenNames k1
  try clear_value k1
  split
  · exact k2
  · exact (switchIn_keeps (State.count_keeps (State.modCtx_keeps k2)))

theorem afterAbandon_keeps {s0 a1 a2 a3} (k3 : Keeps s0 a3) : Keeps s0 (afterAbandon a1 a2 a3) := by
  unfold afterAbandon
  exact (ite_keeps (takeInt_keeps k3) (ite_keeps (maintAway_keeps k3) k3))

theorem keepTx_keeps {s0 a1 a2 a3} (k3 : Keeps s0 a3) : Keeps s0 (keepTx a1 a2 a3) := by
  unfold keepTx
  exact (ite_keeps (State.modCore_keeps k3) k3)

theorem portRemove_keeps {s0 a1 a2 a3 a4} (k4 : Keeps s0 a4) : Keeps s0 (portRemove a1 a2 a3 a4) := by
  unfold portRemove
  extract_lets -merge +onlyGivenNames stay1
  try clear_value stay1
  exact (release_keeps (by exact Keeps.same k4 rfl rfl rfl rfl rfl rfl rfl rfl))

theorem abandonWait_keeps {s0 a1 a2 a3} (k3 : Keeps s0 a3) : Keeps s0 (abandonWait a1 a2 a3) := by
  unfold abandonWait
  extract_lets -merge +onlyGivenNames i1
  try clear_value i1
  extract_lets -merge +onlyGivenNames off2
  have h2 : ∀ z1, Keeps s0 z1 → Keeps s0 (off2 z1) := (fun _ h3 => (afterAbandon_keeps (State.modCtx_keeps h3)))
  clear_value off2
  split
  · exact (h2 _ k3)
  · exact (h2 _ k3)
  · exact (h2 _ (portRemove_keeps (State.modCtx_keeps k3)))
  · exact (State.send_keeps (State.modCtx_keeps k3))
  · exact (h2 _ (State.send_keeps (keepTx_keeps k3)))
  · exact k3

theorem interruptTaken_keeps {s0 a1 a2} (k2 : Keeps s0 a2) : Keeps s0 (interruptTaken a1 a2) := by
  unfold interruptTaken
  extract_lets -merge +onlyGivenNames s1
  have h1 : Keeps s0 s1 := (boundary_keeps k2)
  clear_value s1
  extract_lets -merge +onlyGivenNames k2
  try clear_value k2
  exact (ite_keeps h1 (by
      split
      · exact (takeInt_keeps h1)
      · exact (takeInt_keeps (atRow_keeps h1))
      · exact (takeInt_keeps (atRow_keeps h1))
      · exact (abandonWait_keeps h1)))

theorem maintSwitch_keeps {s0 a1 a2 a3} (k3 : Keeps s0 a3) : Keeps s0 (maintSwitch a1 a2 a3) := by
  unfold maintSwitch
  extract_lets -merge +onlyGivenNames k1
  try clear_value k1
  extract_lets -merge +onlyGivenNames th2
  try clear_value th2
  extract_lets -merge +onlyGivenNames due3
  try clear_value due3
  exact (ite_keeps k3 (ite_keeps (abandonWait_keeps k3) (by
      split
      · exact (ite_keeps (abandonWait_keeps k3) k3)
      · exact (ite_keeps (abandonWait_keeps k3) k3)
      · exact (ite_keeps (abandonWait_keeps k3) k3)
      · exact (ite_keeps (abandonWait_keeps k3) k3)
      · exact k3)))

theorem knotRsp_keeps {s0 a1 a2 a3} (k3 : Keeps s0 a3) : Keeps s0 (knotRsp a1 a2 a3) := by
  unfold knotRsp
  exact (ite_keeps (staleRsp_keeps k3) (by
      split
      · exact (lateRsp_keeps k3)
      · extract_lets -merge +onlyGivenNames v1
        try clear_value v1
        split
        · exact (ite_keeps k3 (ite_keeps (afterAbandon_keeps (State.modCtx_keeps k3)) (ite_keeps (knotFault_keeps k3) (knotDone_keeps k3))))
        · exact (ite_keeps (knotFault_keeps k3) (knotDone_keeps k3))
        · exact (ite_keeps (knotFault_keeps k3) (knotDone_keeps k3))
        · exact (ite_keeps (knotFault_keeps k3) (knotDone_keeps k3))
        · exact k3))

theorem nackArrive_keeps {s0 a1 a2 a3} (k3 : Keeps s0 a3) : Keeps s0 (nackArrive a1 a2 a3) := by
  unfold nackArrive
  exact (ite_keeps (staleRsp_keeps k3) (by
      split
      · exact (knotRsp_keeps k3)
      · exact (ite_keeps (coreFail_keeps k3) (lateRsp_keeps k3))))

theorem knotReply_keeps {s0 a1 a2 a3 a4} (k4 : Keeps s0 a4) : Keeps s0 (knotReply a1 a2 a3 a4) := by
  unfold knotReply
  exact (State.send_keeps k4)

theorem knotArrive_keeps {s0 a1 a2} (k2 : Keeps s0 a2) : Keeps s0 (knotArrive a1 a2) := by
  unfold knotArrive
  exact (ite_keeps k2 (by
      extract_lets -merge +onlyGivenNames key1
      try clear_value key1
      extract_lets -merge +onlyGivenNames s2
      have h2 : Keeps s0 s2 := (State.unsend_keeps k2)
      clear_value s2
      extract_lets -merge +onlyGivenNames n3
      try clear_value n3
      extract_lets -merge +onlyGivenNames fn4
      try clear_value fn4
      extract_lets -merge +onlyGivenNames work5
      have h5 : ∀ z1, Keeps s0 z1 → Keeps s0 (work5 z1) := (fun _ h6 => (ite_keeps (engSignal_keeps h6) (ite_keeps (ite_keeps (nack_keeps h6) (by
          split
          · rename_i y7 y8 e9
            have h8 : Keeps s0 y8 := (KP.get (of_eq (P := KP s0) e9 (knotWaitOp_keeps h6)))
            exact (knotReply_keeps h8)
          · rename_i y10 y11 e12
            have h11 : Keeps s0 y11 := (KP.get (of_eq (P := KP s0) e12 (knotWaitOp_keeps h6)))
            exact (knotReply_keeps h11)
          · rename_i y13 e14
            have h13 : Keeps s0 y13 := (KP.get (of_eq (P := KP s0) e14 (knotWaitOp_keeps h6)))
            exact h13)) (by
          split
          · rename_i y15 y16 e17
            have h16 : Keeps s0 y16 := (KP.get (of_eq (P := KP s0) e17 (knotOp_keeps h6)))
            exact (knotReply_keeps h16)
          · rename_i y18 y19 e20
            have h19 : Keeps s0 y19 := (KP.get (of_eq (P := KP s0) e20 (knotOp_keeps h6)))
            exact (knotReply_keeps h19)))))
      clear_value work5
      exact (ite_keeps (h5 _ h2) (ejectReq_keeps h5 h2))))

theorem withdrawArrive_keeps {s0 a1 a2} (k2 : Keeps s0 a2) : Keeps s0 (withdrawArrive a1 a2) := by
  unfold withdrawArrive
  exact (ite_keeps k2 (by
      extract_lets -merge +onlyGivenNames s1
      have h1 : Keeps s0 s1 := (State.unsend_keeps k2)
      clear_value s1
      exact (ite_keeps (by
          extract_lets -merge +onlyGivenNames h2
          try clear_value h2
          extract_lets -merge +onlyGivenNames stay3
          try clear_value stay3
          exact (State.setFld_keeps (by exact Keeps.same h1 rfl rfl rfl rfl rfl rfl rfl rfl))) (ite_keeps (nack_keeps h1) (by
          extract_lets -merge +onlyGivenNames key4
          try clear_value key4
          extract_lets -merge +onlyGivenNames s5
          have h5 : Keeps s0 s5 := (countOp_keeps h1)
          clear_value s5
          extract_lets -merge +onlyGivenNames mine6
          try clear_value mine6
          exact (ite_keeps (by
              extract_lets -merge +onlyGivenNames s7
              have h7 : Keeps s0 s7 := (by exact Keeps.same h5 rfl rfl rfl rfl rfl rfl rfl rfl)
              clear_value s7
              exact (knotReply_keeps (release_keeps h7))) (knotReply_keeps h5)))))))

theorem hitchRefuse_keeps {s0 a1 a2 a3} (k3 : Keeps s0 a3) : Keeps s0 (hitchRefuse a1 a2 a3) := by
  unfold hitchRefuse
  exact (knotReply_keeps (State.countSat_keeps k3))

theorem setHwaits_keeps {s0 a1 a2 a3} (k3 : Keeps s0 a3) : Keeps s0 (setHwaits a1 a2 a3) := by
  unfold setHwaits
  exact (State.setFld_keeps (by exact Keeps.same k3 rfl rfl rfl rfl rfl rfl rfl rfl))

theorem hitchComplete_keeps {s0 a1 a2} (k2 : Keeps s0 a2) : Keeps s0 (hitchComplete a1 a2) := by
  unfold hitchComplete
  extract_lets -merge +onlyGivenNames g1
  try clear_value g1
  extract_lets -merge +onlyGivenNames p2
  try clear_value p2
  extract_lets -merge +onlyGivenNames irq3
  try clear_value irq3
  extract_lets -merge +onlyGivenNames s4
  have h4 : Keeps s0 s4 := (State.setFld_keeps k2)
  clear_value s4
  extract_lets -merge +onlyGivenNames s5
  have h5 : Keeps s0 s5 := (State.setFld_keeps (by exact Keeps.same h4 rfl rfl rfl rfl rfl rfl rfl rfl))
  clear_value s5
  extract_lets -merge +onlyGivenNames s6
  have h6 : Keeps s0 s6 := (State.setFld_keeps h5)
  clear_value s6
  extract_lets -merge +onlyGivenNames s7
  have h7 : Keeps s0 s7 := (setHwaits_keeps (countBcast_keeps (State.count_keeps h6)))
  clear_value s7
  extract_lets -merge +onlyGivenNames s8
  have h8 : Keeps s0 s8 := (each_keeps (P := Keeps s0) (fun _ _ h9 => (State.send_keeps h9)) h7)
  clear_value s8
  exact (ite_keeps (sendSignal_keeps h8) h8)

theorem hitchFail_keeps {s0 a1 a2} (k2 : Keeps s0 a2) : Keeps s0 (hitchFail a1 a2) := by
  unfold hitchFail
  extract_lets -merge +onlyGivenNames ws1
  try clear_value ws1
  extract_lets -merge +onlyGivenNames s2
  have h2 : Keeps s0 s2 := (State.setFld_keeps (setHwaits_keeps k2))
  clear_value s2
  extract_lets -merge +onlyGivenNames s3
  have h3 : Keeps s0 s3 := (State.setFld_keeps (by exact Keeps.same h2 rfl rfl rfl rfl rfl rfl rfl rfl))
  clear_value s3
  exact (each_keeps (P := Keeps s0) (fun _ _ h4 => (hitchRefuse_keeps h4)) (by exact Keeps.same h3 rfl rfl rfl rfl rfl rfl rfl rfl))

theorem hitchFull_keeps {s0 a1 a2} (k2 : Keeps s0 a2) : Keeps s0 (hitchFull a1 a2) := by
  unfold hitchFull
  exact (ite_keeps (by
      extract_lets -merge +onlyGivenNames xg1
      try clear_value xg1
      extract_lets -merge +onlyGivenNames s2
      have h2 : Keeps s0 s2 := (State.setFld_keeps k2)
      clear_value s2
      exact (ite_keeps (hitchFail_keeps h2) (by exact Keeps.same h2 rfl rfl rfl rfl rfl rfl rfl rfl))) (hitchComplete_keeps k2))

theorem hitchArrival_keeps {s0 a1 a2 a3} (k3 : Keeps s0 a3) : Keeps s0 (hitchArrival a1 a2 a3) := by
  unfold hitchArrival
  extract_lets -merge +onlyGivenNames q1
  try clear_value q1
  extract_lets -merge +onlyGivenNames st2
  try clear_value st2
  exact (ite_keeps (hitchRefuse_keeps k3) (ite_keeps (hitchRefuse_keeps k3) (ite_keeps (hitchRefuse_keeps k3) (ite_keeps (hitchRefuse_keeps k3) (ite_keeps (by exact Keeps.same k3 rfl rfl rfl rfl rfl rfl rfl rfl) (ite_keeps (hitchRefuse_keeps k3) (by
      extract_lets -merge +onlyGivenNames a3
      try clear_value a3
      extract_lets -merge +onlyGivenNames s4
      have h4 : Keeps s0 s4 := (State.setFld_keeps (by exact Keeps.same k3 rfl rfl rfl rfl rfl rfl rfl rfl))
      clear_value s4
      extract_lets -merge +onlyGivenNames s5
      have h5 : Keeps s0 s5 := (knotReply_keeps h4)
      clear_value s5
      exact (ite_keeps (hitchFull_keeps h5) h5))))))))

theorem hitchXdone_keeps {s0 a1 a2} (k2 : Keeps s0 a2) : Keeps s0 (hitchXdone a1 a2) := by
  unfold hitchXdone
  exact (ite_keeps k2 (by
      extract_lets -merge +onlyGivenNames held1
      try clear_value held1
      exact (each_keeps (P := Keeps s0) (fun _ _ h2 => (hitchArrival_keeps h2)) (hitchComplete_keeps (by exact Keeps.same k2 rfl rfl rfl rfl rfl rfl rfl rfl)))))

theorem hitchWait_keeps {s0 a1 a2 a3} (k3 : Keeps s0 a3) : Keeps s0 (hitchWait a1 a2 a3) := by
  unfold hitchWait
  extract_lets -merge +onlyGivenNames st1
  try clear_value st1
  extract_lets -merge +onlyGivenNames g2
  try clear_value g2
  exact (ite_keeps (hitchRefuse_keeps k3) (ite_keeps (hitchRefuse_keeps k3) (ite_keeps (hitchRefuse_keeps k3) (ite_keeps (knotReply_keeps k3) (setHwaits_keeps k3)))))

theorem hitchArrive_keeps {s0 a1 a2} (k2 : Keeps s0 a2) : Keeps s0 (hitchArrive a1 a2) := by
  unfold hitchArrive
  exact (ite_keeps k2 (by
      extract_lets -merge +onlyGivenNames s1
      have h1 : Keeps s0 s1 := (State.unsend_keeps k2)
      clear_value s1
      split
      · exact (hitchArrival_keeps h1)
      · exact (hitchWait_keeps h1)
      · exact (knotReply_keeps h1)))

theorem hitchWake_keeps {s0 a1 a2 a3 a4 a5} (k5 : Keeps s0 a5) : Keeps s0 (hitchWake a1 a2 a3 a4 a5) := by
  induction a4 generalizing a1 a2 a3 a5 with
  | zero =>
    rw [hitchWake.eq_1]
    exact k5
  | succ n ih =>
    rw [hitchWake.eq_2]
    split
    · exact (ite_keeps (knotDone_keeps (keepTx_keeps (ih k5))) (ih k5))
    · exact (ih k5)

theorem hitchDone_keeps {s0 a1 a2} (k2 : Keeps s0 a2) : Keeps s0 (hitchDone a1 a2) := by
  unfold hitchDone
  exact (ite_keeps k2 (by
      extract_lets -merge +onlyGivenNames c1
      try clear_value c1
      extract_lets -merge +onlyGivenNames s2
      have h2 : Keeps s0 s2 := (State.unsend_keeps k2)
      clear_value s2
      exact (ite_keeps (State.countSat_keeps h2) (ite_keeps (State.countSat_keeps h2) (ite_keeps (State.countSat_keeps h2) (by
          extract_lets -merge +onlyGivenNames s3
          have h3 : Keeps s0 s3 := (hitchWake_keeps h2)
          clear_value s3
          exact (ite_keeps (State.ipend_keeps h3) h3)))))))

theorem knotWordSet_keeps {s0 a1 a2 a3} (k3 : Keeps s0 a3) : Keeps s0 (knotWordSet a1 a2 a3) := by
  unfold knotWordSet
  extract_lets -merge +onlyGivenNames old1
  try clear_value old1
  extract_lets -merge +onlyGivenNames s2
  have h2 : Keeps s0 s2 := (countOp_keeps (State.setReg_keeps k3))
  clear_value s2
  exact (ite_keeps (by
      extract_lets -merge +onlyGivenNames n3
      try clear_value n3
      exact (State.setFld_keeps h2)) h2)

theorem opKnotWord_keeps {s0 a1 a2 a3 a4} (k4 : Keeps s0 a4) : Keeps s0 (opKnotWord a1 a2 a3 a4) := by
  unfold opKnotWord
  exact (regWrite_keeps (fun _ h1 => (knotWordSet_keeps h1)) k4)

theorem htCfgSet_keeps {s0 a1 a2 a3} (k3 : Keeps s0 a3) : Keeps s0 (htCfgSet a1 a2 a3) := by
  unfold htCfgSet
  extract_lets -merge +onlyGivenNames s1
  have h1 : Keeps s0 s1 := (typedWrite_keeps k3)
  clear_value s1
  extract_lets -merge +onlyGivenNames s2
  have h2 : Keeps s0 s2 := (by exact Keeps.same h1 rfl rfl rfl rfl rfl rfl rfl rfl)
  clear_value s2
  exact (State.setFld_keeps h2)

theorem opHtCfg_keeps {s0 a1 a2 a3 a4} (k4 : Keeps s0 a4) : Keeps s0 (opHtCfg a1 a2 a3 a4) := by
  unfold opHtCfg
  exact (regWrite_keeps (fun _ h1 => (htCfgSet_keeps h1)) k4)

theorem opHitchMask_keeps {s0 a1 a2 a3 a4 a5} (k5 : Keeps s0 a5) : Keeps s0 (opHitchMask a1 a2 a3 a4 a5) := by
  unfold opHitchMask
  exact (regWrite_keeps (fun _ h1 => (typedWrite_keeps h1)) k5)

theorem knotReset_keeps {s0 a1 a2} (k2 : Keeps s0 a2) : Keeps s0 (knotReset a1 a2) := by
  unfold knotReset
  extract_lets -merge +onlyGivenNames s1
  have h1 : Keeps s0 s1 := (upto_keeps (P := Keeps s0) (fun _ _ h2 => (State.resetReg_keeps h2)) k2)
  clear_value s1
  extract_lets -merge +onlyGivenNames s3
  have h3 : Keeps s0 s3 := (State.resetReg_keeps (State.resetReg_keeps (State.resetReg_keeps h1)))
  clear_value s3
  extract_lets -merge +onlyGivenNames s4
  have h4 : Keeps s0 s4 := (by exact Keeps.same h3 rfl rfl rfl rfl rfl rfl rfl rfl)
  clear_value s4
  extract_lets -merge +onlyGivenNames s5
  have h5 : Keeps s0 s5 := (each_keeps (P := Keeps s0) (fun _ _ h6 => (by
      extract_lets -merge +onlyGivenNames key7
      try clear_value key7
      extract_lets -merge +onlyGivenNames mine8
      try clear_value mine8
      exact (ite_keeps h6 (by
          extract_lets -merge +onlyGivenNames s9
          have h9 : Keeps s0 s9 := (by exact Keeps.same h6 rfl rfl rfl rfl rfl rfl rfl rfl)
          clear_value s9
          extract_lets -merge +onlyGivenNames s10
          have h10 : Keeps s0 s10 := (each_keeps (P := Keeps s0) (fun _ _ h11 => (State.send_keeps h11)) h9)
          clear_value s10
          exact (release_keeps h10))))) h4)
  clear_value s5
  extract_lets -merge +onlyGivenNames s12
  have h12 : Keeps s0 s12 := (upto_keeps (P := Keeps s0) (fun _ _ h13 => (by
      extract_lets -merge +onlyGivenNames l14
      try clear_value l14
      exact (ite_keeps (State.setFld_keeps (by exact Keeps.same h13 rfl rfl rfl rfl rfl rfl rfl rfl)) h13))) h5)
  clear_value s12
  exact (upto_keeps (P := Keeps s0) (fun _ _ h15 => (by
      extract_lets -merge +onlyGivenNames l16
      try clear_value l16
      exact (ite_keeps (setHwaits_keeps h15) h15))) h12)

theorem hitchReset_keeps {s0 a1 a2} (k2 : Keeps s0 a2) : Keeps s0 (hitchReset a1 a2) := by
  unfold hitchReset
  exact (upto_keeps (P := Keeps s0) (fun _ _ h1 => (ite_keeps (by
      extract_lets -merge +onlyGivenNames s2
      have h2 : Keeps s0 s2 := (State.setFld_keeps (State.setFlag_keeps h1))
      clear_value s2
      extract_lets -merge +onlyGivenNames s3
      have h3 : Keeps s0 s3 := (State.setFld_keeps (by exact Keeps.same h2 rfl rfl rfl rfl rfl rfl rfl rfl))
      clear_value s3
      exact (setHwaits_keeps h3)) h1)) k2)

end Sys2Proof.Machine
end

