-- ==== Sys2Proof/Laws/KeepEngine.lean ====
section
/-! SUPPORT. What the operations of Machine/Engine.lean keep (Laws/Keeps.lean). -/

namespace Sys2Proof.Machine

theorem ePrepV_keeps {s0 a1 a2 a3 a4 a5 a6 a7} (k7 : Keeps s0 a7) : Keeps s0 (ePrepV a1 a2 a3 a4 a5 a6 a7) := by
  unfold ePrepV
  exact (each_keeps (P := Keeps s0) (fun _ _ h1 => (by
      split
      · exact (ite_keeps h1 (gatePrep_keeps h1))
      · exact h1)) k7)

theorem eReadLV_keeps {s0 a1 a2 a3 a4 a5 a6 a7 a8} (k8 : Keeps s0 a8) : KSnd (KP s0) (eReadLV a1 a2 a3 a4 a5 a6 a7 a8) := by
  induction a7 generalizing a1 a2 a3 a4 a5 a6 a8 with
  | nil =>
    rw [eReadLV.eq_1]
    exact (KSnd.mk (KP.mk k8))
  | cons x r ih =>
    rw [eReadLV.eq_2]
    split
    · split
      · rename_i y1 y2 y3 e4
        have h3 : Keeps s0 y3 := (KP.get (KSnd.get (of_eq (P := KSnd (KP s0)) e4 (engRead_keeps k8))))
        extract_lets -merge +onlyGivenNames bad5
        try clear_value bad5
        split
        · rename_i y6 y7 y8 e9
          have h8 : Keeps s0 y8 := (KP.get (KSnd.get (of_eq (P := KSnd (KP s0)) e9 (ih h3))))
          exact (KSnd.mk (KP.mk h8))
    · exact (KSnd.mk (KP.mk k8))

theorem eReadV_keeps {s0 a1 a2 a3 a4 a5 a6 a7} (k7 : Keeps s0 a7) : KSnd (KP s0) (eReadV a1 a2 a3 a4 a5 a6 a7) := by
  unfold eReadV
  exact (eReadLV_keeps k7)

theorem eWriteLV_keeps {s0 a1 a2 a3 a4 a5 a6 a7 a8 a9} (k9 : Keeps s0 a9) : Keeps s0 (eWriteLV a1 a2 a3 a4 a5 a6 a7 a8 a9) := by
  induction a8 generalizing a1 a2 a3 a4 a5 a6 a7 a9 with
  | nil =>
    rw [eWriteLV.eq_1]
    exact k9
  | cons x r ih =>
    rw [eWriteLV.eq_2]
    exact (ih (by
        split
        · exact (engWrite_keeps k9)
        · exact k9))

theorem eWriteV_keeps {s0 a1 a2 a3 a4 a5 a6 a7 a8} (k8 : Keeps s0 a8) : Keeps s0 (eWriteV a1 a2 a3 a4 a5 a6 a7 a8) := by
  unfold eWriteV
  exact (eWriteLV_keeps k8)

theorem eWay_keeps {s0 a1 a2 a3 a4 a5} (k5 : Keeps s0 a5) : Keeps s0 (eWay a1 a2 a3 a4 a5) := by
  unfold eWay
  exact (each_keeps (P := Keeps s0) (fun _ _ h1 => (by
      split
      · exact (countLines_keeps h1)
      · exact h1)) k5)

theorem dropLostV_keeps {s0 a1 a2 a3 a4} (k4 : Keeps s0 a4) : Keeps s0 (dropLostV a1 a2 a3 a4) := by
  unfold dropLostV
  exact (each_keeps (P := Keeps s0) (fun _ _ h1 => (by
      split
      · exact (ite_keeps (by exact Keeps.same h1 rfl rfl rfl rfl rfl rfl rfl rfl) h1)
      · exact h1)) k4)

end Sys2Proof.Machine
end

