-- ==== Sys2Proof/Laws/KeepCulvert.lean ====
section
/-! SUPPORT. What the operations of Machine/Culvert.lean keep (Laws/Keeps.lean). -/

namespace Sys2Proof.Machine

/-- What a stop of this kind keeps: its preparation keeps what its argument keeps, and the state it holds is kept. -/
inductive KChStop (s0 : State) : ChStop → Prop
  | wait {f} (h : ∀ s, Keeps s0 s → Keeps s0 (f s)) : KChStop s0 (.wait f)
  | fail {c a s} (h : Keeps s0 s) : KChStop s0 (.fail c a s)

theorem KChStop.getWait {s0 f} : KChStop s0 (.wait f) → ∀ s, Keeps s0 s → Keeps s0 (f s) | .wait h => h
theorem KChStop.get {s0 c a s} : KChStop s0 (.fail c a s) → Keeps s0 s | .fail h => h

theorem State.setChan_keeps {s0 a1 a2 a3} (k1 : Keeps s0 a1) : Keeps s0 (State.setChan a1 a2 a3) := by
  unfold State.setChan
  exact (by exact Keeps.same k1 rfl rfl rfl rfl rfl rfl rfl rfl)

theorem chTouch_keeps {s0 a1 a2 a3 a4} (k4 : Keeps s0 a4) : Keeps s0 (chTouch a1 a2 a3 a4) := by
  unfold chTouch
  split
  · exact (touchTcN_keeps k4)
  · exact (touchEcN_keeps k4)

theorem chRead_keeps {s0 a1 a2 a3 a4 a5 a6} (k6 : Keeps s0 a6) : KExc (KChStop s0) (KP s0) (chRead a1 a2 a3 a4 a5 a6) := by
  unfold chRead
  split
  · exact (KExc.err (KChStop.fail (chTouch_keeps k6)))
  · extract_lets -merge +onlyGivenNames s1
    have h1 : Keeps s0 s1 := (chTouch_keeps k6)
    clear_value s1
    split
    · exact (ite_keeps (KExc.err (KChStop.wait (fun _ h2 => (corePrep_keeps h2)))) (by
          split
          · rename_i y3 y4 e5
            have h4 : Keeps s0 y4 := (KP.get (KSnd.get (of_eq (P := KSnd (KP s0)) e5 (coreRead_keeps h1))))
            exact (KExc.mk (KP.mk h4))
          · rename_i y6 y7 y8 e9
            have h8 : Keeps s0 y8 := (KP.get (KSnd.get (of_eq (P := KSnd (KP s0)) e9 (coreRead_keeps h1))))
            exact (KExc.err (KChStop.fail h8))))
    · extract_lets -merge +onlyGivenNames p10
      try clear_value p10
      exact (ite_keeps (KExc.err (KChStop.wait (fun _ h11 => (ePrepV_keeps h11)))) (by
          split
          · rename_i y12 y13 e14
            have h13 : Keeps s0 y13 := (KP.get (KSnd.get (of_eq (P := KSnd (KP s0)) e14 (eReadV_keeps (eWay_keeps h1)))))
            exact (KExc.mk (KP.mk h13))
          · rename_i y15 y16 y17 e18
            have h17 : Keeps s0 y17 := (KP.get (KSnd.get (of_eq (P := KSnd (KP s0)) e18 (eReadV_keeps (eWay_keeps h1)))))
            exact (KExc.err (KChStop.fail h17))))

theorem chWritable_keeps {s0 a1 a2 a3 a4 a5 a6} (k6 : Keeps s0 a6) : KExc (KChStop s0) (Keeps s0) (chWritable a1 a2 a3 a4 a5 a6) := by
  unfold chWritable
  split
  · exact (KExc.err (KChStop.fail (chTouch_keeps k6)))
  · extract_lets -merge +onlyGivenNames s1
    have h1 : Keeps s0 s1 := (chTouch_keeps k6)
    clear_value s1
    split
    · exact (KExc.err (KChStop.fail (dropLostV_keeps h1)))
    · split
      · exact (ite_keeps (KExc.mk h1) (KExc.err (KChStop.wait (fun _ h2 => (corePrep_keeps h2)))))
      · exact (ite_keeps (KExc.mk h1) (KExc.err (KChStop.wait (fun _ h3 => (ePrepV_keeps h3)))))

theorem chWritables_keeps {s0 a1 a2 a3 a4 a5} (k5 : Keeps s0 a5) : KExc (KChStop s0) (Keeps s0) (chWritables a1 a2 a3 a4 a5) := by
  induction a4 generalizing a1 a2 a3 a5 with
  | nil =>
    rw [chWritables.eq_1]
    exact (KExc.mk k5)
  | cons x r ih =>
    rw [chWritables.eq_2]
    split
    · rename_i y1 e2
      have h1 : KChStop s0 y1 := (KExc.getErr (of_eq (P := KExc (KChStop s0) (Keeps s0)) e2 (chWritable_keeps k5)))
      exact (KExc.err h1)
    · rename_i y3 e4
      have h3 : Keeps s0 y3 := (KExc.getOk (of_eq (P := KExc (KChStop s0) (Keeps s0)) e4 (chWritable_keeps k5)))
      exact (ih h3)

theorem chWrite_keeps {s0 a1 a2 a3 a4 a5 a6 a7} (k7 : Keeps s0 a7) : Keeps s0 (chWrite a1 a2 a3 a4 a5 a6 a7) := by
  unfold chWrite
  split
  · exact (coreWrite_keeps k7)
  · exact (eWriteV_keeps (eWay_keeps k7))

theorem unbraidRead_keeps {s0 a1 a2 a3 a4 a5} (k5 : Keeps s0 a5) : KExc (KChStop s0) (KP s0) (unbraidRead a1 a2 a3 a4 a5) := by
  induction a4 generalizing a1 a2 a3 a5 with
  | zero =>
    rw [unbraidRead.eq_1]
    exact (KExc.mk (KP.mk k5))
  | succ n ih =>
    rw [unbraidRead.eq_2]
    split
    · rename_i y1 e2
      have h1 : KChStop s0 y1 := (KExc.getErr (of_eq (P := KExc (KChStop s0) (KP s0)) e2 (chRead_keeps k5)))
      exact (KExc.err h1)
    · rename_i y3 y4 e5
      have h4 : Keeps s0 y4 := (KP.get (KExc.getOk (of_eq (P := KExc (KChStop s0) (KP s0)) e5 (chRead_keeps k5))))
      extract_lets -merge +onlyGivenNames h6
      try clear_value h6
      exact (ite_keeps (KExc.err (KChStop.fail h4)) (by
          extract_lets -merge +onlyGivenNames l7
          try clear_value l7
          extract_lets -merge +onlyGivenNames a8
          try clear_value a8
          split
          · rename_i y9 e10
            have h9 : KChStop s0 y9 := (KExc.getErr (of_eq (P := KExc (KChStop s0) (KP s0)) e10 (ite_keeps (KExc.mk (KP.mk h4)) (chRead_keeps h4))))
            exact (KExc.err h9)
          · rename_i y11 y12 e13
            have h12 : Keeps s0 y12 := (KP.get (KExc.getOk (of_eq (P := KExc (KChStop s0) (KP s0)) e13 (ite_keeps (KExc.mk (KP.mk h4)) (chRead_keeps h4)))))
            split
            · exact (KExc.err (KChStop.fail h12))
            · split
              · rename_i y14 e15
                have h14 : KChStop s0 y14 := (KExc.getErr (of_eq (P := KExc (KChStop s0) (KP s0)) e15 (ih h12)))
                exact (KExc.err h14)
              · rename_i y16 y17 e18
                have h17 : Keeps s0 y17 := (KP.get (KExc.getOk (of_eq (P := KExc (KChStop s0) (KP s0)) e18 (ih h12))))
                exact (KExc.mk (KP.mk h17))))

theorem elemRead_keeps {s0 a1 a2 a3 a4} (k4 : Keeps s0 a4) : KExc (KChStop s0) (KP s0) (elemRead a1 a2 a3 a4) := by
  unfold elemRead
  extract_lets -merge +onlyGivenNames es1
  try clear_value es1
  extract_lets -merge +onlyGivenNames n2
  try clear_value n2
  extract_lets -merge +onlyGivenNames off3
  try clear_value off3
  exact (ite_keeps (by
      split
      · rename_i y4 e5
        have h4 : KChStop s0 y4 := (KExc.getErr (of_eq (P := KExc (KChStop s0) (KP s0)) e5 (unbraidRead_keeps k4)))
        exact (KExc.err h4)
      · rename_i y6 y7 e8
        have h7 : Keeps s0 y7 := (KP.get (KExc.getOk (of_eq (P := KExc (KChStop s0) (KP s0)) e8 (unbraidRead_keeps k4))))
        exact (KExc.mk (KP.mk h7))) (by
      extract_lets -merge +onlyGivenNames ix9
      have h9 : KExc (KChStop s0) (KP s0) ix9 := (ite_keeps (KExc.mk (KP.mk k4)) (by
          split
          · rename_i y10 e11
            have h10 : KChStop s0 y10 := (KExc.getErr (of_eq (P := KExc (KChStop s0) (KP s0)) e11 (chRead_keeps k4)))
            exact (KExc.err h10)
          · rename_i y12 y13 e14
            have h13 : Keeps s0 y13 := (KP.get (KExc.getOk (of_eq (P := KExc (KChStop s0) (KP s0)) e14 (chRead_keeps k4))))
            exact (KExc.mk (KP.mk h13))))
      clear_value ix9
      split
      · rename_i y15
        have h15 : KChStop s0 y15 := (KExc.getErr h9)
        exact (KExc.err h15)
      · rename_i y16 y17
        have h17 : Keeps s0 y17 := (KP.get (KExc.getOk h9))
        extract_lets -merge +onlyGivenNames src18
        try clear_value src18
        extract_lets -merge +onlyGivenNames dst19
        try clear_value dst19
        split
        · rename_i y20 e21
          have h20 : KChStop s0 y20 := (KExc.getErr (of_eq (P := KExc (KChStop s0) (KP s0)) e21 (chRead_keeps h17)))
          exact (KExc.err h20)
        · rename_i y22 y23 e24
          have h23 : Keeps s0 y23 := (KP.get (KExc.getOk (of_eq (P := KExc (KChStop s0) (KP s0)) e24 (chRead_keeps h17))))
          exact (ite_keeps (by
              split
              · extract_lets -merge +onlyGivenNames j25
                try clear_value j25
                exact (KExc.mk (KP.mk h23))) (KExc.mk (KP.mk h23)))))

theorem chIrq_keeps {s0 a1 a2 a3} (k3 : Keeps s0 a3) : Keeps s0 (chIrq a1 a2 a3) := by
  unfold chIrq
  split
  · extract_lets -merge +onlyGivenNames s1
    have h1 : Keeps s0 s1 := (State.setReg_keeps k3)
    clear_value s1
    exact (State.ipend_keeps h1)
  · extract_lets -merge +onlyGivenNames s2
    have h2 : Keeps s0 s2 := (State.setReg_keeps k3)
    clear_value s2
    extract_lets -merge +onlyGivenNames c3
    try clear_value c3
    exact (ite_keeps (State.ipend_keeps h2) h2)

theorem chError_keeps {s0 a1 a2 a3 a4} (k4 : Keeps s0 a4) : Keeps s0 (chError a1 a2 a3 a4) := by
  unfold chError
  extract_lets -merge +onlyGivenNames s1
  have h1 : Keeps s0 s1 := (State.setFld_keeps k4)
  clear_value s1
  extract_lets -merge +onlyGivenNames s2
  have h2 : Keeps s0 s2 := (State.setFld_keeps (State.setFld_keeps h1))
  clear_value s2
  extract_lets -merge +onlyGivenNames s3
  have h3 : Keeps s0 s3 := (chIrq_keeps h2)
  clear_value s3
  split
  · exact (ite_keeps (engError_keeps h3) h3)
  · exact h3

theorem chStop_keeps {s0 a1 a2 a3} (k2 : Keeps s0 a2) (k3 : KChStop s0 a3) : Keeps s0 (chStop a1 a2 a3) := by
  unfold chStop
  split
  · rename_i y1
    have h1 : ∀ z, Keeps s0 z → Keeps s0 (y1 z) := (KChStop.getWait k3)
    exact (h1 _ k2)
  · rename_i y2 y3 y4
    have h4 : Keeps s0 y4 := (KChStop.get k3)
    exact (chError_keeps h4)

theorem chStart_keeps {s0 a1 a2 a3 a4 a5} (k5 : Keeps s0 a5) : KP s0 (chStart a1 a2 a3 a4 a5) := by
  unfold chStart
  extract_lets -merge +onlyGivenNames st1
  try clear_value st1
  exact (ite_keeps (ite_keeps (KP.mk k5) (by
      extract_lets -merge +onlyGivenNames s2
      have h2 : Keeps s0 s2 := (State.setReg_keeps k5)
      clear_value s2
      extract_lets -merge +onlyGivenNames s3
      have h3 : Keeps s0 s3 := (State.setReg_keeps h2)
      clear_value s3
      exact (KP.mk (State.setChan_keeps h3)))) (ite_keeps (by
      extract_lets -merge +onlyGivenNames x4
      try clear_value x4
      extract_lets -merge +onlyGivenNames restart5
      try clear_value restart5
      extract_lets -merge +onlyGivenNames s6
      have h6 : Keeps s0 s6 := (State.setFld_keeps k5)
      clear_value s6
      extract_lets -merge +onlyGivenNames s7
      have h7 : Keeps s0 s7 := (ite_keeps (State.setFld_keeps h6) h6)
      clear_value s7
      exact (KP.mk (State.setChan_keeps h7))) (KP.mk k5)))

theorem opCstart_keeps {s0 a1 a2 a3 a4 a5} (k5 : Keeps s0 a5) : Keeps s0 (opCstart a1 a2 a3 a4 a5) := by
  unfold opCstart
  extract_lets -merge +onlyGivenNames w1
  try clear_value w1
  exact (issue4_keeps (fun _ h2 => (releaseOrder_keeps (fun _ h3 => (ite_keeps (trap_keeps h3) (by
      split
      · rename_i y4 y5 e6
        have h5 : Keeps s0 y5 := (KP.get (of_eq (P := KP s0) e6 (chStart_keeps h3)))
        exact (State.retireG_keeps h5)))) h2)) k5)

theorem chHalt_keeps {s0 a1 a2} (k2 : Keeps s0 a2) : Keeps s0 (chHalt a1 a2) := by
  unfold chHalt
  exact (ite_keeps (State.setFld_keeps k2) k2)

theorem opCstop_keeps {s0 a1 a2 a3 a4 a5} (k5 : Keeps s0 a5) : Keeps s0 (opCstop a1 a2 a3 a4 a5) := by
  unfold opCstop
  extract_lets -merge +onlyGivenNames w1
  try clear_value w1
  exact (issue4_keeps (fun _ h2 => (ite_keeps (trap_keeps h2) (State.retireG_keeps (chHalt_keeps h2)))) k5)

theorem opCstat_keeps {s0 a1 a2 a3 a4 a5} (k5 : Keeps s0 a5) : Keeps s0 (opCstat a1 a2 a3 a4 a5) := by
  unfold opCstat
  extract_lets -merge +onlyGivenNames w1
  try clear_value w1
  exact (issue4_keeps (fun _ h2 => (ite_keeps (trap_keeps h2) (State.retireG_keeps h2))) k5)

theorem descFetch_keeps {s0 a1 a2} (k2 : Keeps s0 a2) : Keeps s0 (descFetch a1 a2) := by
  unfold descFetch
  extract_lets -merge +onlyGivenNames x1
  try clear_value x1
  exact (ite_keeps k2 (by
      split
      · extract_lets -merge +onlyGivenNames a2
        try clear_value a2
        split
        · rename_i y3 e4
          have h3 : KChStop s0 y3 := (KExc.getErr (of_eq (P := KExc (KChStop s0) (KP s0)) e4 (chRead_keeps k2)))
          exact (chStop_keeps k2 h3)
        · rename_i y5 y6 e7
          have h6 : Keeps s0 y6 := (KP.get (KExc.getOk (of_eq (P := KExc (KChStop s0) (KP s0)) e7 (chRead_keeps k2))))
          extract_lets -merge +onlyGivenNames d8
          try clear_value d8
          exact (ite_keeps (chError_keeps h6) (by
              split
              · exact (chError_keeps h6)
              · exact (State.setChan_keeps h6)))
      · split
        · split
          · rename_i y9 e10
            have h9 : ∀ z, Keeps s0 z → Keeps s0 (y9 z) := (KChStop.getWait (KExc.getErr (of_eq (P := KExc (KChStop s0) (KP s0)) e10 (chRead_keeps k2))))
            exact (h9 _ k2)
          · rename_i y11 y12 y13 e14
            have h13 : Keeps s0 y13 := (KChStop.get (KExc.getErr (of_eq (P := KExc (KChStop s0) (KP s0)) e14 (chRead_keeps k2))))
            exact k2
          · rename_i y15 y16 e17
            have h16 : Keeps s0 y16 := (KP.get (KExc.getOk (of_eq (P := KExc (KChStop s0) (KP s0)) e17 (chRead_keeps k2))))
            extract_lets -merge +onlyGivenNames n18
            try clear_value n18
            exact (ite_keeps k2 (State.setChan_keeps h16))
        · exact k2))

theorem culvertElement_keeps {s0 a1 a2 a3 a4} (k4 : Keeps s0 a4) : Keeps s0 (culvertElement a1 a2 a3 a4) := by
  unfold culvertElement
  extract_lets -merge +onlyGivenNames ch1
  try clear_value ch1
  extract_lets -merge +onlyGivenNames k2
  try clear_value k2
  split
  · exact k4
  · exact (ite_keeps k4 (by
        split
        · rename_i y3 e4
          have h3 : KChStop s0 y3 := (KExc.getErr (of_eq (P := KExc (KChStop s0) (KP s0)) e4 (elemRead_keeps k4)))
          exact (chStop_keeps k4 h3)
        · rename_i y5 y6 e7
          have h6 : Keeps s0 y6 := (KP.get (KExc.getOk (of_eq (P := KExc (KChStop s0) (KP s0)) e7 (elemRead_keeps k4))))
          split
          · rename_i y8 e9
            have h8 : KChStop s0 y8 := (KExc.getErr (of_eq (P := KExc (KChStop s0) (Keeps s0)) e9 (chWritables_keeps h6)))
            exact (chStop_keeps k4 h8)
          · rename_i y10 e11
            have h10 : Keeps s0 y10 := (KExc.getOk (of_eq (P := KExc (KChStop s0) (Keeps s0)) e11 (chWritables_keeps h6)))
            extract_lets -merge +onlyGivenNames s12
            have h12 : Keeps s0 s12 := (chWrite_keeps h10)
            clear_value s12
            extract_lets -merge +onlyGivenNames s13
            have h13 : Keeps s0 s13 := (each_keeps (P := Keeps s0) (fun _ _ h14 => (chWrite_keeps h14)) h12)
            clear_value s13
            extract_lets -merge +onlyGivenNames s15
            have h15 : Keeps s0 s15 := (State.setFld_keeps (State.count_keeps h13))
            clear_value s15
            extract_lets -merge +onlyGivenNames x16
            try clear_value x16
            exact (State.setChan_keeps h15)))

theorem chCount_keeps {s0 a1 a2 a3} (k3 : Keeps s0 a3) : Keeps s0 (chCount a1 a2 a3) := by
  unfold chCount
  extract_lets -merge +onlyGivenNames cur1
  try clear_value cur1
  extract_lets -merge +onlyGivenNames rel2
  try clear_value rel2
  extract_lets -merge +onlyGivenNames hit3
  try clear_value hit3
  extract_lets -merge +onlyGivenNames s4
  have h4 : Keeps s0 s4 := (State.setFld_keeps k3)
  clear_value s4
  extract_lets -merge +onlyGivenNames s5
  have h5 : Keeps s0 s5 := (State.count_keeps h4)
  clear_value s5
  exact (ite_keeps (chIrq_keeps h5) h5)

theorem bstatAdd_keeps {s0 a1 a2 a3 a4} (k4 : Keeps s0 a4) : Keeps s0 (bstatAdd a1 a2 a3 a4) := by
  unfold bstatAdd
  extract_lets -merge +onlyGivenNames p1
  try clear_value p1
  exact (ite_keeps (State.count_keeps (touchTc_keeps k4)) (by
      split
      · rename_i y2 y3 e4
        have h3 : Keeps s0 y3 := (KP.get (KSnd.get (of_eq (P := KSnd (KP s0)) e4 (coreRead_keeps k4))))
        exact (coreWrite_keeps h3)
      · rename_i y5 y6 y7 e8
        have h7 : Keeps s0 y7 := (KP.get (KSnd.get (of_eq (P := KSnd (KP s0)) e8 (coreRead_keeps k4))))
        exact h7))

theorem bstat_keeps {s0 a1 a2 a3 a4} (k4 : Keeps s0 a4) : Keeps s0 (bstat a1 a2 a3 a4) := by
  unfold bstat
  exact (ite_keeps (by
      extract_lets -merge +onlyGivenNames a1
      try clear_value a1
      exact (bstatAdd_keeps (bstatAdd_keeps k4))) k4)

theorem chNext_keeps {s0 a1 a2 a3} (k3 : Keeps s0 a3) : Keeps s0 (chNext a1 a2 a3) := by
  unfold chNext
  extract_lets -merge +onlyGivenNames x1
  try clear_value x1
  split
  · extract_lets -merge +onlyGivenNames s2
    have h2 : Keeps s0 s2 := (State.setFld_keeps (State.setReg_keeps k3))
    clear_value s2
    exact (State.setChan_keeps h2)
  · exact (State.setChan_keeps (State.setFld_keeps k3))

theorem chWord_keeps {s0 a1 a2 a3} (k3 : Keeps s0 a3) : KExc (KChStop s0) (Keeps s0) (chWord a1 a2 a3) := by
  unfold chWord
  exact (ite_keeps (KExc.mk k3) (by
      extract_lets -merge +onlyGivenNames a1
      try clear_value a1
      split
      · rename_i y2 e3
        have h2 : KChStop s0 y2 := (KExc.getErr (of_eq (P := KExc (KChStop s0) (Keeps s0)) e3 (chWritable_keeps k3)))
        exact (KExc.err h2)
      · rename_i y4 e5
        have h4 : Keeps s0 y4 := (KExc.getOk (of_eq (P := KExc (KChStop s0) (Keeps s0)) e5 (chWritable_keeps k3)))
        extract_lets -merge +onlyGivenNames s6
        have h6 : Keeps s0 s6 := (chWrite_keeps h4)
        clear_value s6
        exact (KExc.mk (State.setChan_keeps h6))))

theorem culvertComplete_keeps {s0 a1 a2 a3} (k3 : Keeps s0 a3) : Keeps s0 (culvertComplete a1 a2 a3) := by
  unfold culvertComplete
  extract_lets -merge +onlyGivenNames ch1
  try clear_value ch1
  split
  · exact k3
  · extract_lets -merge +onlyGivenNames stat2
    try clear_value stat2
    extract_lets -merge +onlyGivenNames waitStat3
    try clear_value waitStat3
    exact (ite_keeps k3 (ite_keeps (corePrep_keeps k3) (by
        split
        · rename_i y4 e5
          have h4 : KChStop s0 y4 := (KExc.getErr (of_eq (P := KExc (KChStop s0) (Keeps s0)) e5 (chWord_keeps k3)))
          exact (chStop_keeps k3 h4)
        · rename_i y6 e7
          have h6 : Keeps s0 y6 := (KExc.getOk (of_eq (P := KExc (KChStop s0) (Keeps s0)) e7 (chWord_keeps k3)))
          exact (ite_keeps h6 (by
              extract_lets -merge +onlyGivenNames s8
              have h8 : Keeps s0 s8 := (chCount_keeps h6)
              clear_value s8
              extract_lets -merge +onlyGivenNames s9
              have h9 : Keeps s0 s9 := (bstat_keeps h8)
              clear_value s9
              extract_lets -merge +onlyGivenNames s10
              have h10 : Keeps s0 s10 := (ite_keeps (engSignal_keeps h9) h9)
              clear_value s10
              exact (chNext_keeps h10))))))

theorem chCountWrite_keeps {s0 a1 a2 a3} (k3 : Keeps s0 a3) : Keeps s0 (chCountWrite a1 a2 a3) := by
  unfold chCountWrite
  exact (State.setFld_keeps (typedWrite_keeps k3))

theorem opCvCount_keeps {s0 a1 a2 a3 a4 a5} (k5 : Keeps s0 a5) : Keeps s0 (opCvCount a1 a2 a3 a4 a5) := by
  unfold opCvCount
  exact (regWrite_keeps (fun _ h1 => (chCountWrite_keeps h1)) k5)

theorem culvertReset_keeps {s0 a1 a2} (k2 : Keeps s0 a2) : Keeps s0 (culvertReset a1 a2) := by
  unfold culvertReset
  extract_lets -merge +onlyGivenNames s1
  have h1 : Keeps s0 s1 := (upto_keeps (P := Keeps s0) (fun _ _ h2 => (by exact Keeps.same h2 rfl rfl rfl rfl rfl rfl rfl rfl)) k2)
  clear_value s1
  extract_lets -merge +onlyGivenNames s3
  have h3 : Keeps s0 s3 := (upto_keeps (P := Keeps s0) (fun _ _ h4 => (upto_keeps (P := Keeps s0) (fun _ _ h5 => (State.resetReg_keeps h5)) h4)) h1)
  clear_value s3
  exact (State.resetReg_keeps (State.resetReg_keeps (State.resetReg_keeps h3)))

end Sys2Proof.Machine
end

