-- ==== Sys2Proof/Laws/KeepScalar.lean ====
section
/-! SUPPORT. What the operations of Machine/Scalar.lean keep (Laws/Keeps.lean). -/

namespace Sys2Proof.Machine

theorem alu_keeps {s0 a1 a2 a3 a4 a5 a6 a7} (k7 : Keeps s0 a7) : Keeps s0 (alu a1 a2 a3 a4 a5 a6 a7) := by
  unfold alu
  exact (simple_keeps k7)

theorem opAdd_keeps {s0 a1 a2 a3 a4 a5} (k5 : Keeps s0 a5) : Keeps s0 (opAdd a1 a2 a3 a4 a5) := by
  unfold opAdd
  exact (alu_keeps k5)

theorem opSub_keeps {s0 a1 a2 a3 a4 a5} (k5 : Keeps s0 a5) : Keeps s0 (opSub a1 a2 a3 a4 a5) := by
  unfold opSub
  exact (alu_keeps k5)

theorem opAnd_keeps {s0 a1 a2 a3 a4 a5} (k5 : Keeps s0 a5) : Keeps s0 (opAnd a1 a2 a3 a4 a5) := by
  unfold opAnd
  exact (alu_keeps k5)

theorem opOr_keeps {s0 a1 a2 a3 a4 a5} (k5 : Keeps s0 a5) : Keeps s0 (opOr a1 a2 a3 a4 a5) := by
  unfold opOr
  exact (alu_keeps k5)

theorem opXor_keeps {s0 a1 a2 a3 a4 a5} (k5 : Keeps s0 a5) : Keeps s0 (opXor a1 a2 a3 a4 a5) := by
  unfold opXor
  exact (alu_keeps k5)

theorem opSll_keeps {s0 a1 a2 a3 a4 a5} (k5 : Keeps s0 a5) : Keeps s0 (opSll a1 a2 a3 a4 a5) := by
  unfold opSll
  exact (alu_keeps k5)

theorem opSrl_keeps {s0 a1 a2 a3 a4 a5} (k5 : Keeps s0 a5) : Keeps s0 (opSrl a1 a2 a3 a4 a5) := by
  unfold opSrl
  exact (alu_keeps k5)

theorem opSra_keeps {s0 a1 a2 a3 a4 a5} (k5 : Keeps s0 a5) : Keeps s0 (opSra a1 a2 a3 a4 a5) := by
  unfold opSra
  exact (alu_keeps k5)

theorem opSlt_keeps {s0 a1 a2 a3 a4 a5} (k5 : Keeps s0 a5) : Keeps s0 (opSlt a1 a2 a3 a4 a5) := by
  unfold opSlt
  exact (alu_keeps k5)

theorem opSltu_keeps {s0 a1 a2 a3 a4 a5} (k5 : Keeps s0 a5) : Keeps s0 (opSltu a1 a2 a3 a4 a5) := by
  unfold opSltu
  exact (alu_keeps k5)

theorem opMin_keeps {s0 a1 a2 a3 a4 a5} (k5 : Keeps s0 a5) : Keeps s0 (opMin a1 a2 a3 a4 a5) := by
  unfold opMin
  exact (alu_keeps k5)

theorem opMax_keeps {s0 a1 a2 a3 a4 a5} (k5 : Keeps s0 a5) : Keeps s0 (opMax a1 a2 a3 a4 a5) := by
  unfold opMax
  exact (alu_keeps k5)

theorem opMinu_keeps {s0 a1 a2 a3 a4 a5} (k5 : Keeps s0 a5) : Keeps s0 (opMinu a1 a2 a3 a4 a5) := by
  unfold opMinu
  exact (alu_keeps k5)

theorem opMaxu_keeps {s0 a1 a2 a3 a4 a5} (k5 : Keeps s0 a5) : Keeps s0 (opMaxu a1 a2 a3 a4 a5) := by
  unfold opMaxu
  exact (alu_keeps k5)

theorem opClz_keeps {s0 a1 a2 a3 a4 a5} (k5 : Keeps s0 a5) : Keeps s0 (opClz a1 a2 a3 a4 a5) := by
  unfold opClz
  exact (alu_keeps k5)

theorem opCtz_keeps {s0 a1 a2 a3 a4 a5} (k5 : Keeps s0 a5) : Keeps s0 (opCtz a1 a2 a3 a4 a5) := by
  unfold opCtz
  exact (alu_keeps k5)

theorem opPopc_keeps {s0 a1 a2 a3 a4 a5} (k5 : Keeps s0 a5) : Keeps s0 (opPopc a1 a2 a3 a4 a5) := by
  unfold opPopc
  exact (alu_keeps k5)

theorem opAndn_keeps {s0 a1 a2 a3 a4 a5} (k5 : Keeps s0 a5) : Keeps s0 (opAndn a1 a2 a3 a4 a5) := by
  unfold opAndn
  exact (alu_keeps k5)

theorem aluI_keeps {s0 a1 a2 a3 a4 a5 a6 a7} (k7 : Keeps s0 a7) : Keeps s0 (aluI a1 a2 a3 a4 a5 a6 a7) := by
  unfold aluI
  exact (simple_keeps k7)

theorem opAddi_keeps {s0 a1 a2 a3 a4 a5} (k5 : Keeps s0 a5) : Keeps s0 (opAddi a1 a2 a3 a4 a5) := by
  unfold opAddi
  exact (aluI_keeps k5)

theorem opAndi_keeps {s0 a1 a2 a3 a4 a5} (k5 : Keeps s0 a5) : Keeps s0 (opAndi a1 a2 a3 a4 a5) := by
  unfold opAndi
  exact (aluI_keeps k5)

theorem opOri_keeps {s0 a1 a2 a3 a4 a5} (k5 : Keeps s0 a5) : Keeps s0 (opOri a1 a2 a3 a4 a5) := by
  unfold opOri
  exact (aluI_keeps k5)

theorem opXori_keeps {s0 a1 a2 a3 a4 a5} (k5 : Keeps s0 a5) : Keeps s0 (opXori a1 a2 a3 a4 a5) := by
  unfold opXori
  exact (aluI_keeps k5)

theorem opSlti_keeps {s0 a1 a2 a3 a4 a5} (k5 : Keeps s0 a5) : Keeps s0 (opSlti a1 a2 a3 a4 a5) := by
  unfold opSlti
  exact (aluI_keeps k5)

theorem opSltiu_keeps {s0 a1 a2 a3 a4 a5} (k5 : Keeps s0 a5) : Keeps s0 (opSltiu a1 a2 a3 a4 a5) := by
  unfold opSltiu
  exact (aluI_keeps k5)

theorem opShi_keeps {s0 a1 a2 a3 a4 a5} (k5 : Keeps s0 a5) : Keeps s0 (opShi a1 a2 a3 a4 a5) := by
  unfold opShi
  exact (issue4_keeps (fun _ h1 => (State.retireG_keeps h1)) k5)

theorem opLih_keeps {s0 a1 a2 a3 a4} (k4 : Keeps s0 a4) : Keeps s0 (opLih a1 a2 a3 a4) := by
  unfold opLih
  exact (simple_keeps k4)

theorem opLiw_keeps {s0 a1 a2 a3 a4 a5} (k5 : Keeps s0 a5) : Keeps s0 (opLiw a1 a2 a3 a4 a5) := by
  unfold opLiw
  exact (issue_keeps (fun _ h1 => (State.retireG_keeps h1)) k5)

theorem mulDiv_keeps {s0 a1 a2 a3 a4 a5 a6 a7} (k7 : Keeps s0 a7) : Keeps s0 (mulDiv a1 a2 a3 a4 a5 a6 a7) := by
  unfold mulDiv
  exact (simple_keeps k7)

theorem opMul_keeps {s0 a1 a2 a3 a4 a5} (k5 : Keeps s0 a5) : Keeps s0 (opMul a1 a2 a3 a4 a5) := by
  unfold opMul
  exact (mulDiv_keeps k5)

theorem opMulh_keeps {s0 a1 a2 a3 a4 a5} (k5 : Keeps s0 a5) : Keeps s0 (opMulh a1 a2 a3 a4 a5) := by
  unfold opMulh
  exact (mulDiv_keeps k5)

theorem opMulhu_keeps {s0 a1 a2 a3 a4 a5} (k5 : Keeps s0 a5) : Keeps s0 (opMulhu a1 a2 a3 a4 a5) := by
  unfold opMulhu
  exact (mulDiv_keeps k5)

theorem opDiv_keeps {s0 a1 a2 a3 a4 a5} (k5 : Keeps s0 a5) : Keeps s0 (opDiv a1 a2 a3 a4 a5) := by
  unfold opDiv
  exact (mulDiv_keeps k5)

theorem opDivu_keeps {s0 a1 a2 a3 a4 a5} (k5 : Keeps s0 a5) : Keeps s0 (opDivu a1 a2 a3 a4 a5) := by
  unfold opDivu
  exact (mulDiv_keeps k5)

theorem opRem_keeps {s0 a1 a2 a3 a4 a5} (k5 : Keeps s0 a5) : Keeps s0 (opRem a1 a2 a3 a4 a5) := by
  unfold opRem
  exact (mulDiv_keeps k5)

theorem opRemu_keeps {s0 a1 a2 a3 a4 a5} (k5 : Keeps s0 a5) : Keeps s0 (opRemu a1 a2 a3 a4 a5) := by
  unfold opRemu
  exact (mulDiv_keeps k5)

theorem branch_keeps {s0 a1 a2 a3 a4 a5 a6 a7} (k7 : Keeps s0 a7) : Keeps s0 (branch a1 a2 a3 a4 a5 a6 a7) := by
  unfold branch
  exact (issue4_keeps (fun _ h1 => (ite_keeps (State.jump_keeps h1) (State.retire_keeps h1))) k7)

theorem opBeq_keeps {s0 a1 a2 a3 a4 a5} (k5 : Keeps s0 a5) : Keeps s0 (opBeq a1 a2 a3 a4 a5) := by
  unfold opBeq
  exact (branch_keeps k5)

theorem opBne_keeps {s0 a1 a2 a3 a4 a5} (k5 : Keeps s0 a5) : Keeps s0 (opBne a1 a2 a3 a4 a5) := by
  unfold opBne
  exact (branch_keeps k5)

theorem opBlt_keeps {s0 a1 a2 a3 a4 a5} (k5 : Keeps s0 a5) : Keeps s0 (opBlt a1 a2 a3 a4 a5) := by
  unfold opBlt
  exact (branch_keeps k5)

theorem opBge_keeps {s0 a1 a2 a3 a4 a5} (k5 : Keeps s0 a5) : Keeps s0 (opBge a1 a2 a3 a4 a5) := by
  unfold opBge
  exact (branch_keeps k5)

theorem opBltu_keeps {s0 a1 a2 a3 a4 a5} (k5 : Keeps s0 a5) : Keeps s0 (opBltu a1 a2 a3 a4 a5) := by
  unfold opBltu
  exact (branch_keeps k5)

theorem opBgeu_keeps {s0 a1 a2 a3 a4 a5} (k5 : Keeps s0 a5) : Keeps s0 (opBgeu a1 a2 a3 a4 a5) := by
  unfold opBgeu
  exact (branch_keeps k5)

theorem opJal_keeps {s0 a1 a2 a3 a4} (k4 : Keeps s0 a4) : Keeps s0 (opJal a1 a2 a3 a4) := by
  unfold opJal
  exact (issue4_keeps (fun _ h1 => (by
      extract_lets -merge +onlyGivenNames pc2
      try clear_value pc2
      exact (State.jump_keeps (State.modCur_keeps h1)))) k4)

theorem opJalr_keeps {s0 a1 a2 a3 a4 a5} (k5 : Keeps s0 a5) : Keeps s0 (opJalr a1 a2 a3 a4 a5) := by
  unfold opJalr
  exact (issue4_keeps (fun _ h1 => (by
      extract_lets -merge +onlyGivenNames t2
      try clear_value t2
      exact (State.jump_keeps (State.modCur_keeps h1)))) k5)

end Sys2Proof.Machine
end

