-- ==== Sys2Proof/Laws/KeepSluice.lean ====
section
/-! SUPPORT. What the operations of Machine/Sluice.lean keep (Laws/Keeps.lean). -/

namespace Sys2Proof.Machine

/-- What a stop of this kind keeps: its preparation keeps what its argument keeps, and the state it holds is kept. -/
inductive KSlStop (s0 : State) : SlStop → Prop
  | wait {f} (h : ∀ s, Keeps s0 s → Keeps s0 (f s)) : KSlStop s0 (.wait f)
  | stop {c b s} (h : Keeps s0 s) : KSlStop s0 (.stop c b s)

theorem KSlStop.getWait {s0 f} : KSlStop s0 (.wait f) → ∀ s, Keeps s0 s → Keeps s0 (f s) | .wait h => h
theorem KSlStop.get {s0 c b s} : KSlStop s0 (.stop c b s) → Keeps s0 s | .stop h => h

theorem State.setSlu_keeps {s0 a1 a2 a3} (k1 : Keeps s0 a1) : Keeps s0 (State.setSlu a1 a2 a3) := by
  unfold State.setSlu
  exact (by exact Keeps.same k1 rfl rfl rfl rfl rfl rfl rfl rfl)

theorem State.modSlu_keeps {s0 a1 a2 a3} (k1 : Keeps s0 a1) : Keeps s0 (State.modSlu a1 a2 a3) := by
  unfold State.modSlu
  exact (State.setSlu_keeps k1)

theorem slSet_keeps {s0 a1 a2 a3} (k3 : Keeps s0 a3) : Keeps s0 (slSet a1 a2 a3) := by
  unfold slSet
  exact (State.setFld_keeps k3)

theorem slRemote_keeps {s0 a1 a2 a3 a4 a5} (k5 : Keeps s0 a5) : Keeps s0 (slRemote a1 a2 a3 a4 a5) := by
  unfold slRemote
  exact (each_keeps (P := Keeps s0) (fun _ _ h1 => (by
      split
      · exact (ite_keeps h1 (State.count_keeps h1))
      · exact h1)) k5)

theorem slRead_keeps {s0 a1 a2 a3 a4 a5 a6 a7 a8} (k8 : Keeps s0 a8) : KExc (KSlStop s0) (KP s0) (slRead a1 a2 a3 a4 a5 a6 a7 a8) := by
  unfold slRead
  split
  · exact (KExc.err (KSlStop.stop (touchEcN_keeps k8)))
  · extract_lets -merge +onlyGivenNames s1
    have h1 : Keeps s0 s1 := (touchEcN_keeps k8)
    clear_value s1
    exact (ite_keeps (KExc.err (KSlStop.wait (fun _ h2 => (ePrepV_keeps h2)))) (by
        split
        · rename_i y3 y4 e5
          have h4 : Keeps s0 y4 := (KP.get (KSnd.get (of_eq (P := KSnd (KP s0)) e5 (eReadV_keeps h1))))
          exact (KExc.mk (KP.mk (ite_keeps (slRemote_keeps h4) h4)))
        · rename_i y6 y7 y8 e9
          have h8 : Keeps s0 y8 := (KP.get (KSnd.get (of_eq (P := KSnd (KP s0)) e9 (eReadV_keeps h1))))
          exact (KExc.err (KSlStop.stop h8))))

theorem slWritable_keeps {s0 a1 a2 a3 a4} (k4 : Keeps s0 a4) : KExc (KSlStop s0) (Keeps s0) (slWritable a1 a2 a3 a4) := by
  induction a3 generalizing a1 a2 a4 with
  | nil =>
    rw [slWritable.eq_1]
    exact (KExc.mk k4)
  | cons x r ih =>
    rw [slWritable.eq_2]
    split
    · exact (KExc.err (KSlStop.stop (touchEcN_keeps k4)))
    · extract_lets -merge +onlyGivenNames s1
      have h1 : Keeps s0 s1 := (touchEcN_keeps k4)
      clear_value s1
      exact (ite_keeps (KExc.err (KSlStop.stop (dropLostV_keeps h1))) (ite_keeps (KExc.err (KSlStop.wait (fun _ h2 => (ePrepV_keeps h2)))) (ih h1)))

theorem slStatus_keeps {s0 a1 a2 a3} (k3 : Keeps s0 a3) : Keeps s0 (slStatus a1 a2 a3) := by
  unfold slStatus
  split
  · extract_lets -merge +onlyGivenNames a1
    try clear_value a1
    extract_lets -merge +onlyGivenNames t2
    have h2 : Keeps s0 t2 := (touchEc_keeps k3)
    clear_value t2
    exact (ite_keeps h2 (eWriteV_keeps h2))
  · exact k3

theorem slSignal_keeps {s0 a1 a2} (k2 : Keeps s0 a2) : Keeps s0 (slSignal a1 a2) := by
  unfold slSignal
  extract_lets -merge +onlyGivenNames x1
  try clear_value x1
  exact (ite_keeps k2 (sendSignal_keeps k2))

theorem slError_keeps {s0 a1 a2 a3 a4 a5} (k5 : Keeps s0 a5) : Keeps s0 (slError a1 a2 a3 a4 a5) := by
  unfold slError
  extract_lets -merge +onlyGivenNames x1
  try clear_value x1
  extract_lets -merge +onlyGivenNames t2
  try clear_value t2
  extract_lets -merge +onlyGivenNames s3
  have h3 : Keeps s0 s3 := (slStatus_keeps k5)
  clear_value s3
  extract_lets -merge +onlyGivenNames s4
  have h4 : Keeps s0 s4 := (State.setReg_keeps h3)
  clear_value s4
  extract_lets -merge +onlyGivenNames s5
  have h5 : Keeps s0 s5 := (ite_keeps (slSignal_keeps h4) h4)
  clear_value s5
  extract_lets -merge +onlyGivenNames s6
  have h6 : Keeps s0 s6 := (State.hgEvent_keeps h5)
  clear_value s6
  exact (slSet_keeps (State.modSlu_keeps h6))

theorem slEnd_keeps {s0 a1 a2 a3} (k2 : Keeps s0 a2) (k3 : KSlStop s0 a3) : Keeps s0 (slEnd a1 a2 a3) := by
  unfold slEnd
  split
  · rename_i y1
    have h1 : ∀ z, Keeps s0 z → Keeps s0 (y1 z) := (KSlStop.getWait k3)
    exact (h1 _ k2)
  · rename_i y2 y3 y4
    have h4 : Keeps s0 y4 := (KSlStop.get k3)
    exact (ite_keeps (slError_keeps h4) (by
        split
        · exact (ePrepV_keeps k2)
        · exact k2))

theorem slQueueStat_keeps {s0 a1 a2} (k2 : Keeps s0 a2) : Keeps s0 (slQueueStat a1 a2) := by
  unfold slQueueStat
  exact (State.setFld_keeps k2)

theorem slQueue_keeps {s0 a1 a2 a3 a4} (k4 : Keeps s0 a4) : Keeps s0 (slQueue a1 a2 a3 a4) := by
  unfold slQueue
  exact (slQueueStat_keeps (State.modSlu_keeps k4))

theorem opSluDoorbell_keeps {s0 a1 a2 a3 a4} (k4 : Keeps s0 a4) : Keeps s0 (opSluDoorbell a1 a2 a3 a4) := by
  unfold opSluDoorbell
  exact (regWrite_keeps (fun _ h1 => (slQueue_keeps h1)) k4)

theorem opSluBcast_keeps {s0 a1 a2 a3 a4} (k4 : Keeps s0 a4) : Keeps s0 (opSluBcast a1 a2 a3 a4) := by
  unfold opSluBcast
  exact (regWrite_keeps (fun _ h1 => (by
      extract_lets -merge +onlyGivenNames p2
      try clear_value p2
      exact (upto_keeps (P := Keeps s0) (fun _ _ h3 => (slQueue_keeps h3)) h1))) k4)

theorem slFetch_keeps {s0 a1 a2 a3 a4} (k4 : Keeps s0 a4) : KExc (KSlStop s0) (Keeps s0) (slFetch a1 a2 a3 a4) := by
  unfold slFetch
  split
  · rename_i y1 e2
    have h1 : KSlStop s0 y1 := (KExc.getErr (of_eq (P := KExc (KSlStop s0) (KP s0)) e2 (slRead_keeps k4)))
    exact (KExc.err h1)
  · rename_i y3 y4 e5
    have h4 : Keeps s0 y4 := (KP.get (KExc.getOk (of_eq (P := KExc (KSlStop s0) (KP s0)) e5 (slRead_keeps k4))))
    extract_lets -merge +onlyGivenNames h6
    try clear_value h6
    extract_lets -merge +onlyGivenNames s7
    have h7 : Keeps s0 s7 := (State.modSlu_keeps h4)
    clear_value s7
    exact (ite_keeps (KExc.err (KSlStop.stop h7)) (ite_keeps (KExc.err (KSlStop.stop h7)) (by
        split
        · rename_i y8 e9
          have h8 : KSlStop s0 y8 := (KExc.getErr (of_eq (P := KExc (KSlStop s0) (KP s0)) e9 (slRead_keeps h7)))
          exact (KExc.err h8)
        · rename_i y10 y11 e12
          have h11 : Keeps s0 y11 := (KP.get (KExc.getOk (of_eq (P := KExc (KSlStop s0) (KP s0)) e12 (slRead_keeps h7))))
          extract_lets -merge +onlyGivenNames len13
          try clear_value len13
          split
          · rename_i y14 e15
            have h14 : KSlStop s0 y14 := (KExc.getErr (of_eq (P := KExc (KSlStop s0) (KP s0)) e15 (slRead_keeps h11)))
            exact (KExc.err h14)
          · rename_i y16 y17 e18
            have h17 : Keeps s0 y17 := (KP.get (KExc.getOk (of_eq (P := KExc (KSlStop s0) (KP s0)) e18 (slRead_keeps h11))))
            exact (ite_keeps (KExc.err (KSlStop.stop h17)) (KExc.mk (State.modSlu_keeps h17))))))

theorem slTake_keeps {s0 a1 a2} (k2 : Keeps s0 a2) : Keeps s0 (slTake a1 a2) := by
  unfold slTake
  extract_lets -merge +onlyGivenNames x1
  try clear_value x1
  split
  · exact k2
  · extract_lets -merge +onlyGivenNames s2
    have h2 : Keeps s0 s2 := (State.setSlu_keeps k2)
    clear_value s2
    exact (slSet_keeps (State.setFld_keeps (slQueueStat_keeps h2)))

theorem sluJobLoad_keeps {s0 a1 a2} (k2 : Keeps s0 a2) : Keeps s0 (sluJobLoad a1 a2) := by
  unfold sluJobLoad
  extract_lets -merge +onlyGivenNames s1
  have h1 : Keeps s0 s1 := (ite_keeps (slTake_keeps k2) k2)
  clear_value s1
  exact (ite_keeps h1 (by
      split
      · exact h1
      · split
        · rename_i y2 e3
          have h2 : Keeps s0 y2 := (KExc.getOk (of_eq (P := KExc (KSlStop s0) (Keeps s0)) e3 (slFetch_keeps h1)))
          exact (slSet_keeps h2)
        · rename_i y4 e5
          have h4 : KSlStop s0 y4 := (KExc.getErr (of_eq (P := KExc (KSlStop s0) (Keeps s0)) e5 (slFetch_keeps h1)))
          exact (slEnd_keeps h1 h4)))

theorem slClear_keeps {s0 a1 a2 a3} (k3 : Keeps s0 a3) : KExc (KSlStop s0) (Keeps s0) (slClear a1 a2 a3) := by
  induction a2 generalizing a1 a3 with
  | nil =>
    rw [slClear.eq_1]
    exact (KExc.mk k3)
  | cons x r ih =>
    rw [slClear.eq_2]
    exact (ite_keeps (KExc.err (KSlStop.wait (fun _ h1 => (gatePrep_keeps h1)))) (ih (bitAct_keeps k3)))

theorem slBits_keeps {s0 a1 a2 a3 a4} (k4 : Keeps s0 a4) : KExc (KSlStop s0) (KP s0) (slBits a1 a2 a3 a4) := by
  unfold slBits
  exact (ite_keeps (KExc.err (KSlStop.wait (fun _ h1 => (prepAll_keeps h1)))) (by
      split
      · rename_i y2 y3 e4
        have h3 : Keeps s0 y3 := (KP.get (KSnd.get (of_eq (P := KSnd (KP s0)) e4 (engRead_keeps k4))))
        exact (KExc.mk (KP.mk h3))
      · rename_i y5 y6 y7 e8
        have h7 : Keeps s0 y7 := (KP.get (KSnd.get (of_eq (P := KSnd (KP s0)) e8 (engRead_keeps k4))))
        exact (KExc.err (KSlStop.stop h7))))

theorem slShare_keeps {s0 a1 a2 a3 a4 a5} (k5 : Keeps s0 a5) : KExc (KSlStop s0) (KP s0) (slShare a1 a2 a3 a4 a5) := by
  induction a4 generalizing a1 a2 a3 a5 with
  | nil =>
    rw [slShare.eq_1]
    exact (KExc.mk (KP.mk k5))
  | cons x r ih =>
    rw [slShare.eq_2]
    split
    · exact (ite_keeps (KExc.err (KSlStop.stop (touchEc_keeps k5))) (by
          split
          · rename_i y1 e2
            have h1 : KSlStop s0 y1 := (KExc.getErr (of_eq (P := KExc (KSlStop s0) (KP s0)) e2 (ih (touchEc_keeps k5))))
            exact (KExc.err h1)
          · rename_i y3 y4 e5
            have h4 : Keeps s0 y4 := (KP.get (KExc.getOk (of_eq (P := KExc (KSlStop s0) (KP s0)) e5 (ih (touchEc_keeps k5)))))
            exact (KExc.mk (KP.mk h4))))
    · exact (KExc.err (KSlStop.stop (touchEc_keeps k5)))

theorem slEntry_keeps {s0 a1 a2 a3 a4} (k4 : Keeps s0 a4) : KExc (KSlStop s0) (KP s0) (slEntry a1 a2 a3 a4) := by
  unfold slEntry
  extract_lets -merge +onlyGivenNames s1
  have h1 : Keeps s0 s1 := (State.setFld_keeps (State.modSlu_keeps k4))
  clear_value s1
  extract_lets -merge +onlyGivenNames x2
  try clear_value x2
  extract_lets -merge +onlyGivenNames e3
  try clear_value e3
  extract_lets -merge +onlyGivenNames p4
  try clear_value p4
  extract_lets -merge +onlyGivenNames tag5
  try clear_value tag5
  exact (ite_keeps (KExc.err (KSlStop.stop h1)) (ite_keeps (KExc.err (KSlStop.stop h1)) (by
      extract_lets -merge +onlyGivenNames s6
      have h6 : Keeps s0 s6 := (gaugeLine_keeps h1)
      clear_value s6
      exact (ite_keeps (KExc.err (KSlStop.stop (gaugeErr_keeps h6))) (by
          extract_lets -merge +onlyGivenNames w07
          try clear_value w07
          extract_lets -merge +onlyGivenNames frozen8
          try clear_value frozen8
          exact (ite_keeps (KExc.err (KSlStop.stop h6)) (by
              extract_lets -merge +onlyGivenNames ptr9
              try clear_value ptr9
              exact (ite_keeps (KExc.err (KSlStop.stop h6)) (by
                  split
                  · rename_i y10 e11
                    have h10 : KSlStop s0 y10 := (KExc.getErr (of_eq (P := KExc (KSlStop s0) (KP s0)) e11 (slBits_keeps h6)))
                    exact (KExc.err h10)
                  · rename_i y12 y13 e14
                    have h13 : Keeps s0 y13 := (KP.get (KExc.getOk (of_eq (P := KExc (KSlStop s0) (KP s0)) e14 (slBits_keeps h6))))
                    extract_lets -merge +onlyGivenNames nblk15
                    try clear_value nblk15
                    extract_lets -merge +onlyGivenNames nw16
                    try clear_value nw16
                    exact (ite_keeps (KExc.err (KSlStop.stop h13)) (by
                        split
                        · rename_i y17 e18
                          have h17 : KSlStop s0 y17 := (KExc.getErr (of_eq (P := KExc (KSlStop s0) (KP s0)) e18 (slBits_keeps h13)))
                          exact (KExc.err h17)
                        · rename_i y19 y20 e21
                          have h20 : Keeps s0 y20 := (KP.get (KExc.getOk (of_eq (P := KExc (KSlStop s0) (KP s0)) e21 (slBits_keeps h13))))
                          extract_lets -merge +onlyGivenNames gbase22
                          try clear_value gbase22
                          extract_lets -merge +onlyGivenNames m23
                          try clear_value m23
                          split
                          · rename_i y24 e25
                            have h24 : KSlStop s0 y24 := (KExc.getErr (of_eq (P := KExc (KSlStop s0) (KP s0)) e25 (slShare_keeps h20)))
                            exact (KExc.err h24)
                          · rename_i y26 y27 e28
                            have h27 : Keeps s0 y27 := (KP.get (KExc.getOk (of_eq (P := KExc (KSlStop s0) (KP s0)) e28 (slShare_keeps h20))))
                            exact (KExc.mk (KP.mk (State.modSlu_keeps h27))))))))))))))

theorem slRegs_keeps {s0 a1 a2} (k2 : Keeps s0 a2) : Keeps s0 (slRegs a1 a2) := by
  unfold slRegs
  exact (State.modSlu_keeps k2)

theorem slFrom_keeps {s0 a1 a2 a3 a4} (k4 : Keeps s0 a4) : KExc (KSlStop s0) (Keeps s0) (slFrom a1 a2 a3 a4) := by
  induction a2 generalizing a1 a3 a4 with
  | zero =>
    rw [slFrom.eq_1]
    exact (KExc.mk k4)
  | succ n ih =>
    rw [slFrom.eq_2]
    exact (ite_keeps (KExc.mk (State.modSlu_keeps k4)) (ite_keeps (KExc.err (KSlStop.stop (State.setFld_keeps k4))) (by
        split
        · rename_i y1 e2
          have h1 : KSlStop s0 y1 := (KExc.getErr (of_eq (P := KExc (KSlStop s0) (KP s0)) e2 (slEntry_keeps k4)))
          exact (KExc.err h1)
        · rename_i y3 e4
          have h3 : Keeps s0 y3 := (KP.get (KExc.getOk (of_eq (P := KExc (KSlStop s0) (KP s0)) e4 (slEntry_keeps k4))))
          extract_lets -merge +onlyGivenNames x5
          try clear_value x5
          split
          · rename_i y6 e7
            have h6 : KSlStop s0 y6 := (KExc.getErr (of_eq (P := KExc (KSlStop s0) (Keeps s0)) e7 (slClear_keeps h3)))
            exact (KExc.err h6)
          · rename_i y8 e9
            have h8 : Keeps s0 y8 := (KExc.getOk (of_eq (P := KExc (KSlStop s0) (Keeps s0)) e9 (slClear_keeps h3)))
            exact (ih (State.count_keeps h8))
        · rename_i y10 e11
          have h10 : Keeps s0 y10 := (KP.get (KExc.getOk (of_eq (P := KExc (KSlStop s0) (KP s0)) e11 (slEntry_keeps k4))))
          extract_lets -merge +onlyGivenNames x12
          try clear_value x12
          exact (ite_keeps (KExc.err (KSlStop.stop h10)) (KExc.mk (slRegs_keeps h10))))))

theorem slSkip_keeps {s0 a1 a2 a3} (k3 : Keeps s0 a3) : KExc (KSlStop s0) (Keeps s0) (slSkip a1 a2 a3) := by
  induction a2 generalizing a1 a3 with
  | zero =>
    rw [slSkip.eq_1]
    exact (KExc.mk k3)
  | succ n ih =>
    rw [slSkip.eq_2]
    split
    · rename_i y1 e2
      have h1 : KSlStop s0 y1 := (KExc.getErr (of_eq (P := KExc (KSlStop s0) (Keeps s0)) e2 (ih k3)))
      exact (KExc.err h1)
    · rename_i y3 e4
      have h3 : Keeps s0 y3 := (KExc.getOk (of_eq (P := KExc (KSlStop s0) (Keeps s0)) e4 (ih k3)))
      split
      · rename_i y5 y6 e7
        have h6 : Keeps s0 y6 := (KP.get (KExc.getOk (of_eq (P := KExc (KSlStop s0) (KP s0)) e7 (slEntry_keeps h3))))
        extract_lets -merge +onlyGivenNames x8
        try clear_value x8
        exact (slClear_keeps h6)
      · rename_i y9 y10 y11 e12
        have h11 : Keeps s0 y11 := (KSlStop.get (KExc.getErr (of_eq (P := KExc (KSlStop s0) (KP s0)) e12 (slEntry_keeps h3))))
        exact (KExc.mk h11)
      · rename_i y13 e14
        have h13 : ∀ z, Keeps s0 z → Keeps s0 (y13 z) := (KSlStop.getWait (KExc.getErr (of_eq (P := KExc (KSlStop s0) (KP s0)) e14 (slEntry_keeps h3))))
        exact (KExc.err (KSlStop.wait h13))

theorem sluJobStart_keeps {s0 a1 a2} (k2 : Keeps s0 a2) : Keeps s0 (sluJobStart a1 a2) := by
  unfold sluJobStart
  extract_lets -merge +onlyGivenNames x1
  try clear_value x1
  exact (ite_keeps k2 (by
      extract_lets -merge +onlyGivenNames h2
      try clear_value h2
      extract_lets -merge +onlyGivenNames p3
      try clear_value p3
      extract_lets -merge +onlyGivenNames fo4
      try clear_value fo4
      extract_lets -merge +onlyGivenNames seqs5
      try clear_value seqs5
      exact (ite_keeps (slEnd_keeps k2 (KSlStop.stop k2)) (ite_keeps (slEnd_keeps k2 (KSlStop.stop k2)) (by
          extract_lets -merge +onlyGivenNames s6
          have h6 : Keeps s0 s6 := (ite_keeps (State.modSlu_keeps (knotErr_keeps k2)) k2)
          clear_value s6
          exact (ite_keeps h6 (by
              split
              · rename_i y7 y8 e9
                have h8 : Keeps s0 y8 := (KP.get (of_eq (P := KP s0) e9 (by
                    split
                    · exact (KP.mk h6)
                    · exact (State.fresh_keeps h6))))
                extract_lets -merge +onlyGivenNames s110
                have h10 : Keeps s0 s110 := (slSet_keeps (State.modSlu_keeps h8))
                clear_value s110
                extract_lets -merge +onlyGivenNames nf11
                try clear_value nf11
                exact (ite_keeps (by
                    split
                    · rename_i y12 e13
                      have h12 : Keeps s0 y12 := (KExc.getOk (of_eq (P := KExc (KSlStop s0) (Keeps s0)) e13 (slSkip_keeps h10)))
                      exact (State.modSlu_keeps (State.count_keeps h12))
                    · rename_i y14 e15
                      have h14 : KSlStop s0 y14 := (KExc.getErr (of_eq (P := KExc (KSlStop s0) (Keeps s0)) e15 (slSkip_keeps h10)))
                      exact (slEnd_keeps h6 h14)) (by
                    split
                    · rename_i y16 e17
                      have h16 : Keeps s0 y16 := (KExc.getOk (of_eq (P := KExc (KSlStop s0) (Keeps s0)) e17 (slFrom_keeps h10)))
                      exact h16
                    · rename_i y18 e19
                      have h18 : KSlStop s0 y18 := (KExc.getErr (of_eq (P := KExc (KSlStop s0) (Keeps s0)) e19 (slFrom_keeps h10)))
                      exact (slEnd_keeps h6 h18))))))))))

theorem sluJobDone_keeps {s0 a1 a2} (k2 : Keeps s0 a2) : Keeps s0 (sluJobDone a1 a2) := by
  unfold sluJobDone
  extract_lets -merge +onlyGivenNames x1
  try clear_value x1
  split
  · exact (ite_keeps (ePrepV_keeps k2) (by
        extract_lets -merge +onlyGivenNames s2
        have h2 : Keeps s0 s2 := (slSignal_keeps (slStatus_keeps k2))
        clear_value s2
        exact (slSet_keeps (State.modSlu_keeps h2))))
  · exact k2

theorem sluAbort_keeps {s0 a1 a2} (k2 : Keeps s0 a2) : Keeps s0 (sluAbort a1 a2) := by
  unfold sluAbort
  exact (State.modSlu_keeps k2)

theorem opSluAbort_keeps {s0 a1 a2 a3} (k3 : Keeps s0 a3) : Keeps s0 (opSluAbort a1 a2 a3) := by
  unfold opSluAbort
  exact (regWrite_keeps (fun _ h1 => (sluAbort_keeps h1)) k3)

theorem sluErrClear_keeps {s0 a1 a2} (k2 : Keeps s0 a2) : Keeps s0 (sluErrClear a1 a2) := by
  unfold sluErrClear
  exact (ite_keeps (by
      extract_lets -merge +onlyGivenNames s1
      have h1 : Keeps s0 s1 := (State.setFlag_keeps k2)
      clear_value s1
      exact (ite_keeps (slSet_keeps h1) h1)) k2)

theorem opSluErrClear_keeps {s0 a1 a2 a3} (k3 : Keeps s0 a3) : Keeps s0 (opSluErrClear a1 a2 a3) := by
  unfold opSluErrClear
  exact (regWrite_keeps (fun _ h1 => (sluErrClear_keeps h1)) k3)

theorem readRegion_keeps {s0 a1 a2 a3 a4 a5 a6} (k6 : Keeps s0 a6) : KExc (KSlStop s0) (KP s0) (readRegion a1 a2 a3 a4 a5 a6) := by
  induction a5 generalizing a1 a2 a3 a4 a6 with
  | nil =>
    rw [readRegion.eq_1]
    exact (KExc.mk (KP.mk k6))
  | cons x r ih =>
    rw [readRegion.eq_2]
    split
    · split
      · rename_i y1 e2
        have h1 : KSlStop s0 y1 := (KExc.getErr (of_eq (P := KExc (KSlStop s0) (KP s0)) e2 (slRead_keeps k6)))
        exact (KExc.err h1)
      · rename_i y3 y4 e5
        have h4 : Keeps s0 y4 := (KP.get (KExc.getOk (of_eq (P := KExc (KSlStop s0) (KP s0)) e5 (slRead_keeps k6))))
        split
        · rename_i y6 e7
          have h6 : KSlStop s0 y6 := (KExc.getErr (of_eq (P := KExc (KSlStop s0) (KP s0)) e7 (ih h4)))
          exact (KExc.err h6)
        · rename_i y8 y9 e10
          have h9 : Keeps s0 y9 := (KP.get (KExc.getOk (of_eq (P := KExc (KSlStop s0) (KP s0)) e10 (ih h4))))
          exact (KExc.mk (KP.mk h9))

theorem readRegions_keeps {s0 a1 a2 a3 a4 a5 a6} (k6 : Keeps s0 a6) : KExc (KSlStop s0) (KP s0) (readRegions a1 a2 a3 a4 a5 a6) := by
  induction a5 generalizing a1 a2 a3 a4 a6 with
  | zero =>
    rw [readRegions.eq_1]
    exact (KExc.mk (KP.mk k6))
  | succ n ih =>
    rw [readRegions.eq_2]
    split
    · rename_i y1 e2
      have h1 : KSlStop s0 y1 := (KExc.getErr (of_eq (P := KExc (KSlStop s0) (KP s0)) e2 (ih k6)))
      exact (KExc.err h1)
    · rename_i y3 y4 e5
      have h4 : Keeps s0 y4 := (KP.get (KExc.getOk (of_eq (P := KExc (KSlStop s0) (KP s0)) e5 (ih k6))))
      split
      · rename_i y6 e7
        have h6 : KSlStop s0 y6 := (KExc.getErr (of_eq (P := KExc (KSlStop s0) (KP s0)) e7 (readRegion_keeps h4)))
        exact (KExc.err h6)
      · rename_i y8 y9 e10
        have h9 : Keeps s0 y9 := (KP.get (KExc.getOk (of_eq (P := KExc (KSlStop s0) (KP s0)) e10 (readRegion_keeps h4))))
        exact (KExc.mk (KP.mk h9))

theorem readGrad_keeps {s0 a1 a2 a3 a4 a5 a6 a7} (k7 : Keeps s0 a7) : KExc (KSlStop s0) (KP s0) (readGrad a1 a2 a3 a4 a5 a6 a7) := by
  induction a6 generalizing a1 a2 a3 a4 a5 a7 with
  | nil =>
    rw [readGrad.eq_1]
    exact (KExc.mk (KP.mk k7))
  | cons x r ih =>
    rw [readGrad.eq_2]
    split
    · rename_i y1 e2
      have h1 : KSlStop s0 y1 := (KExc.getErr (of_eq (P := KExc (KSlStop s0) (KP s0)) e2 (slRead_keeps k7)))
      exact (KExc.err h1)
    · rename_i y3 y4 e5
      have h4 : Keeps s0 y4 := (KP.get (KExc.getOk (of_eq (P := KExc (KSlStop s0) (KP s0)) e5 (slRead_keeps k7))))
      split
      · rename_i y6 e7
        have h6 : KSlStop s0 y6 := (KExc.getErr (of_eq (P := KExc (KSlStop s0) (KP s0)) e7 (ih h4)))
        exact (KExc.err h6)
      · rename_i y8 y9 e10
        have h9 : Keeps s0 y9 := (KP.get (KExc.getOk (of_eq (P := KExc (KSlStop s0) (KP s0)) e10 (ih h4))))
        exact (KExc.mk (KP.mk h9))

theorem loadGroup_keeps {s0 a1 a2} (k2 : Keeps s0 a2) : KExc (KSlStop s0) (KSnd (KP s0)) (loadGroup a1 a2) := by
  unfold loadGroup
  extract_lets -merge +onlyGivenNames x1
  try clear_value x1
  extract_lets -merge +onlyGivenNames e2
  try clear_value e2
  extract_lets -merge +onlyGivenNames ks3
  try clear_value ks3
  split
  · rename_i y4 e5
    have h4 : KSlStop s0 y4 := (KExc.getErr (of_eq (P := KExc (KSlStop s0) (KP s0)) e5 (readGrad_keeps k2)))
    exact (KExc.err h4)
  · rename_i y6 y7 e8
    have h7 : Keeps s0 y7 := (KP.get (KExc.getOk (of_eq (P := KExc (KSlStop s0) (KP s0)) e8 (readGrad_keeps k2))))
    split
    · rename_i y9 e10
      have h9 : KSlStop s0 y9 := (KExc.getErr (of_eq (P := KExc (KSlStop s0) (KP s0)) e10 (readRegions_keeps h7)))
      exact (KExc.err h9)
    · rename_i y11 y12 e13
      have h12 : Keeps s0 y12 := (KP.get (KExc.getOk (of_eq (P := KExc (KSlStop s0) (KP s0)) e13 (readRegions_keeps h7))))
      exact (KExc.mk (KSnd.mk (KP.mk (State.modSlu_keeps h12))))

theorem putGroup_keeps {s0 a1 a2 a3 a4 a5} (k5 : Keeps s0 a5) : KExc (KSlStop s0) (Keeps s0) (putGroup a1 a2 a3 a4 a5) := by
  unfold putGroup
  extract_lets -merge +onlyGivenNames x1
  try clear_value x1
  extract_lets -merge +onlyGivenNames e2
  try clear_value e2
  split
  · exact (KExc.err (KSlStop.stop k5))
  · split
    · split
      · rename_i y3 e4
        have h3 : KSlStop s0 y3 := (KExc.getErr (of_eq (P := KExc (KSlStop s0) (Keeps s0)) e4 (slWritable_keeps k5)))
        exact (KExc.err h3)
      · rename_i y5 e6
        have h5 : Keeps s0 y5 := (KExc.getOk (of_eq (P := KExc (KSlStop s0) (Keeps s0)) e6 (slWritable_keeps k5)))
        extract_lets -merge +onlyGivenNames s7
        have h7 : Keeps s0 s7 := (each_keeps (P := Keeps s0) (fun _ _ h8 => (eWriteV_keeps h8)) h5)
        clear_value s7
        extract_lets -merge +onlyGivenNames s9
        have h9 : Keeps s0 s9 := (each_keeps (P := Keeps s0) (fun _ _ h10 => (slRemote_keeps h10)) h7)
        clear_value s9
        split
        · rename_i y11 e12
          have h11 : KSlStop s0 y11 := (KExc.getErr (of_eq (P := KExc (KSlStop s0) (Keeps s0)) e12 (slClear_keeps h9)))
          exact (KExc.err h11)
        · rename_i y13 e14
          have h13 : Keeps s0 y13 := (KExc.getOk (of_eq (P := KExc (KSlStop s0) (Keeps s0)) e14 (slClear_keeps h9)))
          extract_lets -merge +onlyGivenNames s15
          have h15 : Keeps s0 s15 := (State.count_keeps h13)
          clear_value s15
          exact (KExc.mk (State.modSlu_keeps h15))

theorem seqOp_keeps {s0 a1 a2 a3 a4} (k3 : ∀ z1 z2, Keeps s0 z2 → KExc (KSlStop s0) (Keeps s0) (a3 z1 z2)) (k4 : Keeps s0 a4) : Keeps s0 (seqOp a1 a2 a3 a4) := by
  unfold seqOp
  split
  · exact (ite_keeps (by
        split
        · rename_i y1 e2
          have h1 : Keeps s0 y1 := (KExc.getOk (of_eq (P := KExc (KSlStop s0) (Keeps s0)) e2 (k3 _ _ k4)))
          exact h1
        · rename_i y3 e4
          have h3 : KSlStop s0 y3 := (KExc.getErr (of_eq (P := KExc (KSlStop s0) (Keeps s0)) e4 (k3 _ _ k4)))
          exact (slEnd_keeps k4 h3)) k4)
  · exact k4

theorem slNextPc_keeps {s0 a1 a2} (k2 : Keeps s0 a2) : Keeps s0 (slNextPc a1 a2) := by
  unfold slNextPc
  exact (State.modSlu_keeps k2)

theorem seqNext_keeps {s0 a1 a2} (k2 : Keeps s0 a2) : Keeps s0 (seqNext a1 a2) := by
  unfold seqNext
  exact (seqOp_keeps (fun _ _ h1 => (by
      extract_lets -merge +onlyGivenNames x2
      try clear_value x2
      extract_lets -merge +onlyGivenNames gd3
      try clear_value gd3
      exact (ite_keeps (KExc.err (KSlStop.stop h1)) (ite_keeps (KExc.err (KSlStop.stop h1)) (ite_keeps (KExc.mk (slNextPc_keeps (State.modSlu_keeps h1))) (by
          split
          · rename_i y4 e5
            have h4 : KSlStop s0 y4 := (KExc.getErr (of_eq (P := KExc (KSlStop s0) (KSnd (KP s0))) e5 (loadGroup_keeps h1)))
            exact (KExc.err h4)
          · rename_i y6 y7 y8 e9
            have h8 : Keeps s0 y8 := (KP.get (KSnd.get (KExc.getOk (of_eq (P := KExc (KSlStop s0) (KSnd (KP s0))) e9 (loadGroup_keeps h1)))))
            exact (KExc.mk (slNextPc_keeps (State.modSlu_keeps h8))))))))) k2)

theorem seqPut_keeps {s0 a1 a2} (k2 : Keeps s0 a2) : Keeps s0 (seqPut a1 a2) := by
  unfold seqPut
  exact (seqOp_keeps (fun _ _ h1 => (by
      extract_lets -merge +onlyGivenNames x2
      try clear_value x2
      split
      · rename_i y3 e4
        have h3 : KSlStop s0 y3 := (KExc.getErr (of_eq (P := KExc (KSlStop s0) (Keeps s0)) e4 (putGroup_keeps h1)))
        exact (KExc.err h3)
      · rename_i y5 e6
        have h5 : Keeps s0 y5 := (KExc.getOk (of_eq (P := KExc (KSlStop s0) (Keeps s0)) e6 (putGroup_keeps h1)))
        exact (KExc.mk (slNextPc_keeps h5)))) k2)

theorem seqDrop_keeps {s0 a1 a2} (k2 : Keeps s0 a2) : Keeps s0 (seqDrop a1 a2) := by
  unfold seqDrop
  exact (seqOp_keeps (fun _ _ h1 => (by
      extract_lets -merge +onlyGivenNames x2
      try clear_value x2
      split
      · exact (KExc.err (KSlStop.stop h1))
      · split
        · rename_i y3 e4
          have h3 : KSlStop s0 y3 := (KExc.getErr (of_eq (P := KExc (KSlStop s0) (Keeps s0)) e4 (slClear_keeps h1)))
          exact (KExc.err h3)
        · rename_i y5 e6
          have h5 : Keeps s0 y5 := (KExc.getOk (of_eq (P := KExc (KSlStop s0) (Keeps s0)) e6 (slClear_keeps h1)))
          exact (KExc.mk (slNextPc_keeps (State.modSlu_keeps h5))))) k2)

theorem seqEnd_keeps {s0 a1 a2} (k2 : Keeps s0 a2) : Keeps s0 (seqEnd a1 a2) := by
  unfold seqEnd
  exact (seqOp_keeps (fun _ _ h1 => (by
      extract_lets -merge +onlyGivenNames x2
      try clear_value x2
      exact (ite_keeps (KExc.err (KSlStop.stop h1)) (slFrom_keeps h1)))) k2)

theorem sluProgramOp_keeps {s0 a1 a2} (k2 : Keeps s0 a2) : Keeps s0 (sluProgramOp a1 a2) := by
  unfold sluProgramOp
  extract_lets -merge +onlyGivenNames x1
  try clear_value x1
  exact (ite_keeps k2 (by
      split
      · exact (slEnd_keeps k2 (KSlStop.stop k2))
      · exact (ite_keeps k2 (by
            split
            · exact (State.setSlu_keeps k2)
            · split
              · exact (State.setSlu_keeps k2)
              · exact (slEnd_keeps k2 (KSlStop.stop k2))))))

theorem ruleOp_keeps {s0 a1 a2 a3 a4} (k4 : Keeps s0 a4) : Keeps s0 (ruleOp a1 a2 a3 a4) := by
  unfold ruleOp
  split
  · exact (ite_keeps (State.modSlu_keeps k4) k4)
  · exact k4

theorem ruleAdd_keeps {s0 a1 a2} (k2 : Keeps s0 a2) : Keeps s0 (ruleAdd a1 a2) := by
  unfold ruleAdd
  exact (ruleOp_keeps k2)

theorem ruleMul_keeps {s0 a1 a2} (k2 : Keeps s0 a2) : Keeps s0 (ruleMul a1 a2) := by
  unfold ruleMul
  exact (ruleOp_keeps k2)

theorem ruleFma_keeps {s0 a1 a2} (k2 : Keeps s0 a2) : Keeps s0 (ruleFma a1 a2) := by
  unfold ruleFma
  exact (ruleOp_keeps k2)

theorem ruleDiv_keeps {s0 a1 a2} (k2 : Keeps s0 a2) : Keeps s0 (ruleDiv a1 a2) := by
  unfold ruleDiv
  exact (ruleOp_keeps k2)

theorem ruleSqrt_keeps {s0 a1 a2} (k2 : Keeps s0 a2) : Keeps s0 (ruleSqrt a1 a2) := by
  unfold ruleSqrt
  exact (ruleOp_keeps k2)

theorem ruleRsqrt_keeps {s0 a1 a2} (k2 : Keeps s0 a2) : Keeps s0 (ruleRsqrt a1 a2) := by
  unfold ruleRsqrt
  exact (ruleOp_keeps k2)

theorem ruleMax_keeps {s0 a1 a2} (k2 : Keeps s0 a2) : Keeps s0 (ruleMax a1 a2) := by
  unfold ruleMax
  exact (ruleOp_keeps k2)

theorem ruleMin_keeps {s0 a1 a2} (k2 : Keeps s0 a2) : Keeps s0 (ruleMin a1 a2) := by
  unfold ruleMin
  exact (ruleOp_keeps k2)

theorem ruleSign_keeps {s0 a1 a2} (k2 : Keeps s0 a2) : Keeps s0 (ruleSign a1 a2) := by
  unfold ruleSign
  exact (ruleOp_keeps k2)

theorem ruleClip_keeps {s0 a1 a2} (k2 : Keeps s0 a2) : Keeps s0 (ruleClip a1 a2) := by
  unfold ruleClip
  exact (ruleOp_keeps k2)

theorem ruleLerp_keeps {s0 a1 a2} (k2 : Keeps s0 a2) : Keeps s0 (ruleLerp a1 a2) := by
  unfold ruleLerp
  exact (ruleOp_keeps k2)

theorem ruleScale_keeps {s0 a1 a2} (k2 : Keeps s0 a2) : Keeps s0 (ruleScale a1 a2) := by
  unfold ruleScale
  exact (ruleOp_keeps k2)

theorem ruleGroup_keeps {s0 a1 a2} (k2 : Keeps s0 a2) : Keeps s0 (ruleGroup a1 a2) := by
  unfold ruleGroup
  extract_lets -merge +onlyGivenNames x1
  try clear_value x1
  exact (ite_keeps k2 (by
      extract_lets -merge +onlyGivenNames r2
      have h2 : KExc (KSlStop s0) (Keeps s0) r2 := (ite_keeps (ite_keeps (KExc.mk k2) (putGroup_keeps k2)) (ite_keeps (KExc.err (KSlStop.stop k2)) (ite_keeps (slFrom_keeps k2) (by
          split
          · rename_i y3 e4
            have h3 : KSlStop s0 y3 := (KExc.getErr (of_eq (P := KExc (KSlStop s0) (KSnd (KP s0))) e4 (loadGroup_keeps k2)))
            exact (KExc.err h3)
          · rename_i y5 y6 y7 e8
            have h7 : Keeps s0 y7 := (KP.get (KSnd.get (KExc.getOk (of_eq (P := KExc (KSlStop s0) (KSnd (KP s0))) e8 (loadGroup_keeps k2)))))
            exact (KExc.mk (State.modSlu_keeps h7))))))
      clear_value r2
      split
      · rename_i y9
        have h9 : Keeps s0 y9 := (KExc.getOk h2)
        exact h9
      · rename_i y10
        have h10 : KSlStop s0 y10 := (KExc.getErr h2)
        exact (slEnd_keeps k2 h10)))

theorem sluReset_keeps {s0 a1 a2} (k2 : Keeps s0 a2) : Keeps s0 (sluReset a1 a2) := by
  unfold sluReset
  exact (upto_keeps (P := Keeps s0) (fun _ _ h1 => (by
      extract_lets -merge +onlyGivenNames s2
      have h2 : Keeps s0 s2 := (slQueueStat_keeps (State.modSlu_keeps h1))
      clear_value s2
      extract_lets -merge +onlyGivenNames x3
      try clear_value x3
      exact (ite_keeps (slError_keeps h2) h2))) k2)

end Sys2Proof.Machine
end

