-- ==== Sys2Proof/Laws/KeepHawser.lean ====
section
/-! SUPPORT. What the operations of Machine/Hawser.lean keep (Laws/Keeps.lean). -/

namespace Sys2Proof.Machine

theorem State.setPort_keeps {s0 a1 a2 a3} (k1 : Keeps s0 a1) : Keeps s0 (State.setPort a1 a2 a3) := by
  unfold State.setPort
  exact (by exact Keeps.same k1 rfl rfl rfl rfl rfl rfl rfl rfl)

theorem State.modPort_keeps {s0 a1 a2 a3} (k1 : Keeps s0 a1) : Keeps s0 (State.modPort a1 a2 a3) := by
  unfold State.modPort
  exact (State.setPort_keeps k1)

theorem linkSend_keeps {s0 a1 a2 a3 a4 a5} (k5 : Keeps s0 a5) : Keeps s0 (linkSend a1 a2 a3 a4 a5) := by
  unfold linkSend
  exact (ite_keeps k5 (by
      extract_lets -merge +onlyGivenNames x1
      try clear_value x1
      extract_lets -merge +onlyGivenNames x2
      try clear_value x2
      extract_lets -merge +onlyGivenNames f3
      try clear_value f3
      exact (State.count_keeps (State.setPort_keeps k5))))

theorem sendOut_keeps {s0 a1 a2 a3} (k3 : Keeps s0 a3) : Keeps s0 (sendOut a1 a2 a3) := by
  induction a2 generalizing a1 a3 with
  | nil =>
    rw [sendOut.eq_1]
    exact (State.modPort_keeps k3)
  | cons x r ih =>
    rw [sendOut.eq_2]
    exact (ite_keeps (by
        extract_lets -merge +onlyGivenNames f1
        try clear_value f1
        extract_lets -merge +onlyGivenNames s2
        have h2 : Keeps s0 s2 := (State.setPort_keeps k3)
        clear_value s2
        exact (ih (State.count_keeps (State.count_keeps h2)))) (State.setPort_keeps k3))

theorem portSend_keeps {s0 a1 a2} (k2 : Keeps s0 a2) : Keeps s0 (portSend a1 a2) := by
  unfold portSend
  exact (ite_keeps k2 (by
      extract_lets -merge +onlyGivenNames x1
      try clear_value x1
      split
      · extract_lets -merge +onlyGivenNames s2
        have h2 : Keeps s0 s2 := (State.count_keeps (State.setPort_keeps k2))
        clear_value s2
        exact (sendOut_keeps h2)))

theorem sendFrame_keeps {s0 a1 a2 a3} (k3 : Keeps s0 a3) : Keeps s0 (sendFrame a1 a2 a3) := by
  unfold sendFrame
  exact (portSend_keeps (State.modPort_keeps k3))

theorem capFrame_keeps {s0 a1 a2 a3} (k3 : Keeps s0 a3) : Keeps s0 (capFrame a1 a2 a3) := by
  unfold capFrame
  extract_lets -merge +onlyGivenNames r1
  try clear_value r1
  exact (sendFrame_keeps (countFrame_keeps (State.modPort_keeps k3)))

theorem dimSend_keeps {s0 a1 a2 a3} (k3 : Keeps s0 a3) : Keeps s0 (dimSend a1 a2 a3) := by
  unfold dimSend
  exact (State.count_keeps (sendFrame_keeps k3))

theorem takeAck_keeps {s0 a1 a2 a3} (k3 : Keeps s0 a3) : Keeps s0 (takeAck a1 a2 a3) := by
  unfold takeAck
  extract_lets -merge +onlyGivenNames x1
  try clear_value x1
  extract_lets -merge +onlyGivenNames dc2
  try clear_value dc2
  extract_lets -merge +onlyGivenNames cred3
  try clear_value cred3
  extract_lets -merge +onlyGivenNames u4
  try clear_value u4
  extract_lets -merge +onlyGivenNames da5
  try clear_value da5
  extract_lets -merge +onlyGivenNames retry6
  try clear_value retry6
  exact (portSend_keeps (State.setPort_keeps k3))

theorem freeBuf_keeps {s0 a1 a2 a3} (k3 : Keeps s0 a3) : Keeps s0 (freeBuf a1 a2 a3) := by
  unfold freeBuf
  exact (State.modPort_keeps k3)

theorem frameCheck_keeps {s0 a1 a2 a3} (k3 : Keeps s0 a3) : KP s0 (frameCheck a1 a2 a3) := by
  unfold frameCheck
  extract_lets -merge +onlyGivenNames nack1
  have h1 : ∀ z1, Keeps s0 z1 → Keeps s0 (nack1 z1) := (fun _ h2 => (ite_keeps (linkSend_keeps h2) h2))
  clear_value nack1
  extract_lets -merge +onlyGivenNames s3
  have h3 : Keeps s0 s3 := (State.countSat_keeps k3)
  clear_value s3
  exact (ite_keeps (KP.mk (h1 _ (State.countSat_keeps h3))) (ite_keeps (KP.mk (h1 _ (State.count_keeps h3))) (ite_keeps (KP.mk (State.count_keeps h3)) (ite_keeps (KP.mk (h1 _ (State.countSat_keeps h3))) (by
      extract_lets -merge +onlyGivenNames s4
      have h4 : Keeps s0 s4 := (State.count_keeps (State.modPort_keeps h3))
      clear_value s4
      exact (KP.mk (linkSend_keeps (takeAck_keeps h4))))))))

end Sys2Proof.Machine
end

