-- ==== Sys2Proof/Laws/KeepCapstan.lean ====
section
/-! SUPPORT. What the operations of Machine/Capstan.lean keep (Laws/Keeps.lean). -/

namespace Sys2Proof.Machine

/-- What a stop of this kind keeps: its preparation keeps what its argument keeps, and the state it holds is kept. -/
inductive KCapStop (s0 : State) : CapStop → Prop
  | wait {f} (h : ∀ s, Keeps s0 s → Keeps s0 (f s)) : KCapStop s0 (.wait f)
  | fail {c s} (h : Keeps s0 s) : KCapStop s0 (.fail c s)

theorem KCapStop.getWait {s0 f} : KCapStop s0 (.wait f) → ∀ s, Keeps s0 s → Keeps s0 (f s) | .wait h => h
theorem KCapStop.get {s0 c s} : KCapStop s0 (.fail c s) → Keeps s0 s | .fail h => h

theorem State.setGrp_keeps {s0 a1 a2 a3} (k1 : Keeps s0 a1) : Keeps s0 (State.setGrp a1 a2 a3) := by
  unfold State.setGrp
  exact (State.setFld_keeps (by exact Keeps.same k1 rfl rfl rfl rfl rfl rfl rfl rfl))

theorem State.setRun_keeps {s0 a1 a2 a3} (k1 : Keeps s0 a1) : Keeps s0 (State.setRun a1 a2 a3) := by
  unfold State.setRun
  exact (State.setGrp_keeps k1)

theorem capRead_keeps {s0 a1 a2 a3 a4 a5} (k5 : Keeps s0 a5) : KExc (KCapStop s0) (KP s0) (capRead a1 a2 a3 a4 a5) := by
  unfold capRead
  split
  · exact (KExc.err (KCapStop.fail (touchEcN_keeps k5)))
  · extract_lets -merge +onlyGivenNames s1
    have h1 : Keeps s0 s1 := (touchEcN_keeps k5)
    clear_value s1
    exact (ite_keeps (KExc.err (KCapStop.wait (fun _ h2 => (ePrepV_keeps h2)))) (by
        split
        · rename_i y3 y4 e5
          have h4 : Keeps s0 y4 := (KP.get (KSnd.get (of_eq (P := KSnd (KP s0)) e5 (eReadV_keeps h1))))
          exact (KExc.mk (KP.mk h4))
        · rename_i y6 y7 y8 e9
          have h8 : Keeps s0 y8 := (KP.get (KSnd.get (of_eq (P := KSnd (KP s0)) e9 (eReadV_keeps h1))))
          exact (KExc.err (KCapStop.fail h8))))

theorem capWrite_keeps {s0 a1 a2 a3 a4 a5 a6 a7} (k7 : Keeps s0 a7) : KExc (KCapStop s0) (Keeps s0) (capWrite a1 a2 a3 a4 a5 a6 a7) := by
  unfold capWrite
  split
  · exact (KExc.err (KCapStop.fail (touchEcN_keeps k7)))
  · extract_lets -merge +onlyGivenNames s1
    have h1 : Keeps s0 s1 := (touchEcN_keeps k7)
    clear_value s1
    exact (ite_keeps (KExc.err (KCapStop.fail (dropLostV_keeps h1))) (ite_keeps (KExc.err (KCapStop.wait (fun _ h2 => (ePrepV_keeps h2)))) (KExc.mk (eWriteV_keeps h1))))

theorem capStatus_keeps {s0 a1 a2 a3 a4} (k4 : Keeps s0 a4) : Keeps s0 (capStatus a1 a2 a3 a4) := by
  unfold capStatus
  extract_lets -merge +onlyGivenNames a1
  try clear_value a1
  extract_lets -merge +onlyGivenNames s2
  have h2 : Keeps s0 s2 := (touchEc_keeps k4)
  clear_value s2
  split
  · exact h2
  · exact (ite_keeps (eWriteV_keeps h2) (by
        extract_lets -merge +onlyGivenNames pa3
        try clear_value pa3
        extract_lets -merge +onlyGivenNames cs4
        try clear_value cs4
        exact (State.send_keeps h2)))

theorem setRec_keeps {s0 a1 a2 a3 a4 a5} (k5 : Keeps s0 a5) : Keeps s0 (setRec a1 a2 a3 a4 a5) := by
  unfold setRec
  extract_lets -merge +onlyGivenNames k1
  try clear_value k1
  extract_lets -merge +onlyGivenNames gone2
  try clear_value gone2
  exact (by exact Keeps.same k5 rfl rfl rfl rfl rfl rfl rfl rfl)

theorem capFailed_keeps {s0 a1 a2 a3 a4} (k4 : Keeps s0 a4) : Keeps s0 (capFailed a1 a2 a3 a4) := by
  unfold capFailed
  extract_lets -merge +onlyGivenNames s1
  have h1 : Keeps s0 s1 := (capStatus_keeps k4)
  clear_value s1
  exact (State.count_keeps (setRec_keeps h1))

theorem purgeGrp_keeps {s0 a1 a2} (k2 : Keeps s0 a2) : Keeps s0 (purgeGrp a1 a2) := by
  unfold purgeGrp
  exact (upto_keeps (P := Keeps s0) (fun _ _ h1 => (by
      extract_lets -merge +onlyGivenNames x2
      try clear_value x2
      extract_lets -merge +onlyGivenNames mine3
      try clear_value mine3
      exact (State.setPort_keeps h1))) k2)

theorem ctrlSend_keeps {s0 a1 a2 a3 a4 a5 a6} (k6 : Keeps s0 a6) : Keeps s0 (ctrlSend a1 a2 a3 a4 a5 a6) := by
  unfold ctrlSend
  exact (capFrame_keeps k6)

theorem sendGfail_keeps {s0 a1 a2 a3} (k3 : Keeps s0 a3) : Keeps s0 (sendGfail a1 a2 a3) := by
  unfold sendGfail
  exact (each_keeps (P := Keeps s0) (fun _ _ h1 => (each_keeps (P := Keeps s0) (fun _ _ h2 => (ite_keeps (ctrlSend_keeps h2) h2)) h1)) k3)

theorem groupFail_keeps {s0 a1 a2 a3} (k3 : Keeps s0 a3) : Keeps s0 (groupFail a1 a2 a3) := by
  unfold groupFail
  exact (ite_keeps k3 (by
      extract_lets -merge +onlyGivenNames x1
      try clear_value x1
      extract_lets -merge +onlyGivenNames part2
      try clear_value part2
      extract_lets -merge +onlyGivenNames cseq3
      try clear_value cseq3
      extract_lets -merge +onlyGivenNames s4
      have h4 : Keeps s0 s4 := (State.setFld_keeps (State.setFld_keeps k3))
      clear_value s4
      extract_lets -merge +onlyGivenNames s5
      have h5 : Keeps s0 s5 := by
        unfold s5
        split
        · exact (capFailed_keeps h4)
        · exact h4
      clear_value s5
      extract_lets -merge +onlyGivenNames s6
      have h6 : Keeps s0 s6 := (each_keeps (P := Keeps s0) (fun _ _ h7 => (capFailed_keeps h7)) h5)
      clear_value s6
      extract_lets -merge +onlyGivenNames s8
      have h8 : Keeps s0 s8 := by
        unfold s8
        split
        · exact (hitchFail_keeps (by exact Keeps.same h6 rfl rfl rfl rfl rfl rfl rfl rfl))
        · exact h6
      clear_value s8
      exact (sendGfail_keeps (purgeGrp_keeps (State.setGrp_keeps h8)))))

theorem localVals_keeps {s0 a1 a2 a3 a4 a5} (k5 : Keeps s0 a5) : KExc (KCapStop s0) (KP s0) (localVals a1 a2 a3 a4 a5) := by
  unfold localVals
  exact (ite_keeps (by
      split
      · rename_i y1 e2
        have h1 : KCapStop s0 y1 := (KExc.getErr (of_eq (P := KExc (KCapStop s0) (KP s0)) e2 (capRead_keeps k5)))
        exact (KExc.err h1)
      · rename_i y3 y4 e5
        have h4 : Keeps s0 y4 := (KP.get (KExc.getOk (of_eq (P := KExc (KCapStop s0) (KP s0)) e5 (capRead_keeps k5))))
        exact (KExc.mk (KP.mk h4))) (by
      split
      · exact (KExc.mk (KP.mk k5))
      · exact (KExc.mk (KP.mk k5))))

theorem cdataSend_keeps {s0 a1 a2 a3 a4 a5 a6 a7 a8 a9 a10} (k10 : Keeps s0 a10) : Keeps s0 (cdataSend a1 a2 a3 a4 a5 a6 a7 a8 a9 a10) := by
  unfold cdataSend
  exact (capFrame_keeps (State.count_keeps k10))

theorem rsSendRun_keeps {s0 a1 a2 a3 a4 a5 a6 a7 a8 a9} (k9 : Keeps s0 a9) : KExc (KCapStop s0) (KP s0) (rsSendRun a1 a2 a3 a4 a5 a6 a7 a8 a9) := by
  induction a6 generalizing a1 a2 a3 a4 a5 a7 a8 a9 with
  | zero =>
    rw [rsSendRun.eq_1]
    exact (KExc.mk (KP.mk k9))
  | succ n ih =>
    rw [rsSendRun.eq_2]
    exact (ite_keeps (KExc.mk (KP.mk k9)) (by
        extract_lets -merge +onlyGivenNames m1
        try clear_value m1
        split
        · rename_i y2 e3
          have h2 : KCapStop s0 y2 := (KExc.getErr (of_eq (P := KExc (KCapStop s0) (KP s0)) e3 (localVals_keeps k9)))
          exact (KExc.err h2)
        · rename_i y4 y5 e6
          have h5 : Keeps s0 y5 := (KP.get (KExc.getOk (of_eq (P := KExc (KCapStop s0) (KP s0)) e6 (localVals_keeps k9))))
          extract_lets -merge +onlyGivenNames nf7
          try clear_value nf7
          extract_lets -merge +onlyGivenNames xs8
          try clear_value xs8
          extract_lets -merge +onlyGivenNames s9
          have h9 : Keeps s0 s9 := (cdataSend_keeps h5)
          clear_value s9
          split
          · rename_i y10 e11
            have h10 : KCapStop s0 y10 := (KExc.getErr (of_eq (P := KExc (KCapStop s0) (KP s0)) e11 (ih h9)))
            exact (KExc.err h10)
          · rename_i y12 y13 e14
            have h13 : Keeps s0 y13 := (KP.get (KExc.getOk (of_eq (P := KExc (KCapStop s0) (KP s0)) e14 (ih h9))))
            exact (KExc.mk (KP.mk h13))))

theorem rsStart_keeps {s0 a1 a2 a3 a4 a5} (k5 : Keeps s0 a5) : KExc (KCapStop s0) (KP s0) (rsStart a1 a2 a3 a4 a5) := by
  unfold rsStart
  split
  · extract_lets -merge +onlyGivenNames e1
    try clear_value e1
    split
    · rename_i y2 e3
      have h2 : KCapStop s0 y2 := (KExc.getErr (of_eq (P := KExc (KCapStop s0) (KP s0)) e3 (rsSendRun_keeps k5)))
      exact (KExc.err h2)
    · rename_i y4 y5 e6
      have h5 : Keeps s0 y5 := (KP.get (KExc.getOk (of_eq (P := KExc (KCapStop s0) (KP s0)) e6 (rsSendRun_keeps k5))))
      split
      · rename_i y7 e8
        have h7 : KCapStop s0 y7 := (KExc.getErr (of_eq (P := KExc (KCapStop s0) (KP s0)) e8 (rsSendRun_keeps h5)))
        exact (KExc.err h7)
      · rename_i y9 y10 e11
        have h10 : Keeps s0 y10 := (KP.get (KExc.getOk (of_eq (P := KExc (KCapStop s0) (KP s0)) e11 (rsSendRun_keeps h5))))
        exact (KExc.mk (KP.mk h10))

theorem agStart_keeps {s0 a1 a2 a3 a4 a5} (k5 : Keeps s0 a5) : Keeps s0 (agStart a1 a2 a3 a4 a5) := by
  unfold agStart
  split
  · extract_lets -merge +onlyGivenNames mid1
    try clear_value mid1
    exact (each_keeps (P := Keeps s0) (fun _ _ h2 => (cdataSend_keeps h2)) k5)

theorem putDst_keeps {s0 a1 a2 a3 a4 a5 a6} (k6 : Keeps s0 a6) : KExc (KCapStop s0) (KP s0) (putDst a1 a2 a3 a4 a5 a6) := by
  unfold putDst
  split
  · split
    · rename_i y1 e2
      have h1 : KCapStop s0 y1 := (KExc.getErr (of_eq (P := KExc (KCapStop s0) (Keeps s0)) e2 (capWrite_keeps k6)))
      exact (KExc.err h1)
    · rename_i y3 e4
      have h3 : Keeps s0 y3 := (KExc.getOk (of_eq (P := KExc (KCapStop s0) (Keeps s0)) e4 (capWrite_keeps k6)))
      exact (KExc.mk (KP.mk h3))

theorem agBegin_keeps {s0 a1 a2 a3 a4 a5 a6 a7} (k7 : Keeps s0 a7) : KP s0 (agBegin a1 a2 a3 a4 a5 a6 a7) := by
  unfold agBegin
  extract_lets -merge +onlyGivenNames cp1
  try clear_value cp1
  exact (KP.mk (agStart_keeps k7))

theorem rsFinish_keeps {s0 a1 a2 a3 a4} (k4 : Keeps s0 a4) : KExc (KCapStop s0) (KP s0) (rsFinish a1 a2 a3 a4) := by
  unfold rsFinish
  extract_lets -merge +onlyGivenNames cp1
  try clear_value cp1
  extract_lets -merge +onlyGivenNames off2
  try clear_value off2
  extract_lets -merge +onlyGivenNames vs3
  try clear_value vs3
  extract_lets -merge +onlyGivenNames nf4
  try clear_value nf4
  extract_lets -merge +onlyGivenNames bs5
  try clear_value bs5
  split
  · rename_i y6 e7
    have h6 : KCapStop s0 y6 := (KExc.getErr (of_eq (P := KExc (KCapStop s0) (KP s0)) e7 (putDst_keeps k4)))
    exact (KExc.err h6)
  · rename_i y8 y9 e10
    have h9 : Keeps s0 y9 := (KP.get (KExc.getOk (of_eq (P := KExc (KCapStop s0) (KP s0)) e10 (putDst_keeps k4))))
    exact (ite_keeps (KExc.mk (KP.mk h9)) (KExc.mk (agBegin_keeps h9)))

theorem rsTake_keeps {s0 a1 a2 a3 a4 a5 a6} (k6 : Keeps s0 a6) : KExc (KCapStop s0) (KP s0) (rsTake a1 a2 a3 a4 a5 a6) := by
  unfold rsTake
  extract_lets -merge +onlyGivenNames cp1
  try clear_value cp1
  split
  · extract_lets -merge +onlyGivenNames plus2
    try clear_value plus2
    extract_lets -merge +onlyGivenNames got3
    try clear_value got3
    extract_lets -merge +onlyGivenNames off4
    try clear_value off4
    extract_lets -merge +onlyGivenNames wf5
    try clear_value wf5
    extract_lets -merge +onlyGivenNames ne6
    try clear_value ne6
    split
    · rename_i y7 e8
      have h7 : KCapStop s0 y7 := (KExc.getErr (of_eq (P := KExc (KCapStop s0) (KP s0)) e8 (localVals_keeps k6)))
      exact (KExc.err h7)
    · rename_i y9 y10 e11
      have h10 : Keeps s0 y10 := (KP.get (KExc.getOk (of_eq (P := KExc (KCapStop s0) (KP s0)) e11 (localVals_keeps k6))))
      extract_lets -merge +onlyGivenNames w12
      try clear_value w12
      extract_lets -merge +onlyGivenNames sx13
      try clear_value sx13
      extract_lets -merge +onlyGivenNames sums14
      try clear_value sums14
      extract_lets -merge +onlyGivenNames nf15
      try clear_value nf15
      extract_lets -merge +onlyGivenNames last16
      try clear_value last16
      extract_lets -merge +onlyGivenNames got17
      try clear_value got17
      extract_lets -merge +onlyGivenNames x18
      try clear_value x18
      extract_lets -merge +onlyGivenNames s19
      have h19 : Keeps s0 s19 := (ite_keeps h10 (cdataSend_keeps h10))
      clear_value s19
      extract_lets -merge +onlyGivenNames cp20
      try clear_value cp20
      extract_lets -merge +onlyGivenNames c21
      try clear_value c21
      exact (KExc.mk (KP.mk h19))

theorem agTake_keeps {s0 a1 a2 a3 a4 a5 a6} (k6 : Keeps s0 a6) : KExc (KCapStop s0) (KP s0) (agTake a1 a2 a3 a4 a5 a6) := by
  unfold agTake
  extract_lets -merge +onlyGivenNames cp1
  try clear_value cp1
  split
  · extract_lets -merge +onlyGivenNames plus2
    try clear_value plus2
    extract_lets -merge +onlyGivenNames got3
    try clear_value got3
    extract_lets -merge +onlyGivenNames off4
    try clear_value off4
    extract_lets -merge +onlyGivenNames nf5
    try clear_value nf5
    split
    · rename_i y6 e7
      have h6 : KCapStop s0 y6 := (KExc.getErr (of_eq (P := KExc (KCapStop s0) (KP s0)) e7 (putDst_keeps k6)))
      exact (KExc.err h6)
    · rename_i y8 y9 e10
      have h9 : Keeps s0 y9 := (KP.get (KExc.getOk (of_eq (P := KExc (KCapStop s0) (KP s0)) e10 (putDst_keeps k6))))
      extract_lets -merge +onlyGivenNames s11
      have h11 : Keeps s0 s11 := (ite_keeps h9 (State.count_keeps h9))
      clear_value s11
      extract_lets -merge +onlyGivenNames s12
      have h12 : Keeps s0 s12 := (ite_keeps h11 (cdataSend_keeps h11))
      clear_value s12
      extract_lets -merge +onlyGivenNames got13
      try clear_value got13
      extract_lets -merge +onlyGivenNames cp14
      try clear_value cp14
      exact (KExc.mk (KP.mk h12))

theorem stepEnd_keeps {s0 a1 a2 a3 a4} (k4 : Keeps s0 a4) : KExc (KCapStop s0) (KP s0) (stepEnd a1 a2 a3 a4) := by
  unfold stepEnd
  extract_lets -merge +onlyGivenNames cp1
  try clear_value cp1
  extract_lets -merge +onlyGivenNames q2
  try clear_value q2
  split
  · exact (ite_keeps (KExc.mk (KP.mk k4)) (ite_keeps (by
        extract_lets -merge +onlyGivenNames ps3
        try clear_value ps3
        extract_lets -merge +onlyGivenNames cp4
        try clear_value cp4
        extract_lets -merge +onlyGivenNames c5
        try clear_value c5
        exact (ite_keeps (KExc.mk (KP.mk k4)) (by
            split
            · rename_i y6 e7
              have h6 : KCapStop s0 y6 := (KExc.getErr (of_eq (P := KExc (KCapStop s0) (KP s0)) e7 (rsStart_keeps k4)))
              exact (KExc.err h6)
            · rename_i y8 y9 e10
              have h9 : Keeps s0 y9 := (KP.get (KExc.getOk (of_eq (P := KExc (KCapStop s0) (KP s0)) e10 (rsStart_keeps k4))))
              exact (KExc.mk (KP.mk h9))))) (ite_keeps (KExc.mk (KP.mk k4)) (by
        extract_lets -merge +onlyGivenNames cp11
        try clear_value cp11
        exact (KExc.mk (KP.mk (agStart_keeps k4)))))))

theorem sweepSend_keeps {s0 a1 a2 a3 a4} (k4 : Keeps s0 a4) : Keeps s0 (sweepSend a1 a2 a3 a4) := by
  unfold sweepSend
  exact (each_keeps (P := Keeps s0) (fun _ _ h1 => (ctrlSend_keeps h1)) k4)

theorem sweepBegin_keeps {s0 a1 a2 a3 a4} (k4 : Keeps s0 a4) : KP s0 (sweepBegin a1 a2 a3 a4) := by
  unfold sweepBegin
  extract_lets -merge +onlyGivenNames c1
  try clear_value c1
  split
  · exact (KP.mk (sweepSend_keeps k4))
  · exact (KP.mk k4)

theorem sweepTake_keeps {s0 a1 a2 a3 a4 a5} (k5 : Keeps s0 a5) : KP s0 (sweepTake a1 a2 a3 a4 a5) := by
  unfold sweepTake
  extract_lets -merge +onlyGivenNames d1
  try clear_value d1
  extract_lets -merge +onlyGivenNames h2
  try clear_value h2
  extract_lets -merge +onlyGivenNames c3
  try clear_value c3
  extract_lets -merge +onlyGivenNames plus4
  try clear_value plus4
  extract_lets -merge +onlyGivenNames c5
  try clear_value c5
  extract_lets -merge +onlyGivenNames s6
  have h6 : Keeps s0 s6 := (ite_keeps (ctrlSend_keeps k5) k5)
  clear_value s6
  exact (ite_keeps (by
      split
      · exact (sweepBegin_keeps h6)
      · exact (KP.mk h6)) (KP.mk h6))

theorem collDone_keeps {s0 a1 a2 a3} (k3 : Keeps s0 a3) : Keeps s0 (collDone a1 a2 a3) := by
  unfold collDone
  extract_lets -merge +onlyGivenNames dt1
  try clear_value dt1
  extract_lets -merge +onlyGivenNames s2
  have h2 : Keeps s0 s2 := (ite_keeps k3 (mergeFrom_keeps k3))
  clear_value s2
  extract_lets -merge +onlyGivenNames s3
  have h3 : Keeps s0 s3 := (capStatus_keeps h2)
  clear_value s3
  extract_lets -merge +onlyGivenNames s4
  have h4 : Keeps s0 s4 := (setRec_keeps h3)
  clear_value s4
  extract_lets -merge +onlyGivenNames s5
  have h5 : Keeps s0 s5 := (State.count_keeps (State.count_keeps h4))
  clear_value s5
  extract_lets -merge +onlyGivenNames s6
  have h6 : Keeps s0 s6 := (ite_keeps (sendSignal_keeps h5) h5)
  clear_value s6
  exact (State.setGrp_keeps h6)

theorem capStop_keeps {s0 a1 a2 a3} (k2 : Keeps s0 a2) (k3 : KCapStop s0 a3) : Keeps s0 (capStop a1 a2 a3) := by
  unfold capStop
  split
  · rename_i y1
    have h1 : ∀ z, Keeps s0 z → Keeps s0 (y1 z) := (KCapStop.getWait k3)
    exact (h1 _ k2)
  · rename_i y2 y3
    have h3 : Keeps s0 y3 := (KCapStop.get k3)
    exact (groupFail_keeps h3)

theorem sweepIf_keeps {s0 a1 a2 a3} (k3 : Keeps s0 a3) : Keeps s0 (sweepIf a1 a2 a3) := by
  unfold sweepIf
  exact (ite_keeps (by
      split
      · rename_i y1 y2 e3
        have h2 : Keeps s0 y2 := (KP.get (of_eq (P := KP s0) e3 (sweepBegin_keeps k3)))
        exact (State.setRun_keeps h2)) (State.setRun_keeps k3))

theorem collStep_keeps {s0 a1 a2} (k2 : Keeps s0 a2) : Keeps s0 (collStep a1 a2) := by
  unfold collStep
  split
  · exact k2
  · extract_lets -merge +onlyGivenNames q1
    try clear_value q1
    exact (ite_keeps (ite_keeps k2 (collDone_keeps k2)) (by
        split
        · split
          · rename_i y2 e3
            have h2 : KCapStop s0 y2 := (KExc.getErr (of_eq (P := KExc (KCapStop s0) (KP s0)) e3 (rsFinish_keeps k2)))
            exact (capStop_keeps k2 h2)
          · rename_i y4 y5 e6
            have h5 : Keeps s0 y5 := (KP.get (KExc.getOk (of_eq (P := KExc (KCapStop s0) (KP s0)) e6 (rsFinish_keeps k2))))
            exact (sweepIf_keeps h5)
        · extract_lets -merge +onlyGivenNames turn7
          try clear_value turn7
          split
          · exact k2
          · exact (ite_keeps (groupFail_keeps k2) (by
                extract_lets -merge +onlyGivenNames c8
                try clear_value c8
                exact (ite_keeps (by
                    split
                    · rename_i y9 y10 e11
                      have h10 : Keeps s0 y10 := (KP.get (of_eq (P := KP s0) e11 (sweepTake_keeps k2)))
                      exact (State.setRun_keeps h10)) (by
                    extract_lets -merge +onlyGivenNames j12
                    try clear_value j12
                    split
                    · rename_i y13 e14
                      have h13 : KCapStop s0 y13 := (KExc.getErr (of_eq (P := KExc (KCapStop s0) (KP s0)) e14 (ite_keeps (rsTake_keeps k2) (agTake_keeps k2))))
                      exact (capStop_keeps k2 h13)
                    · rename_i y15 y16 e17
                      have h16 : Keeps s0 y16 := (KP.get (KExc.getOk (of_eq (P := KExc (KCapStop s0) (KP s0)) e17 (ite_keeps (rsTake_keeps k2) (agTake_keeps k2)))))
                      split
                      · rename_i y18 e19
                        have h18 : KCapStop s0 y18 := (KExc.getErr (of_eq (P := KExc (KCapStop s0) (KP s0)) e19 (stepEnd_keeps h16)))
                        exact (capStop_keeps h16 h18)
                      · rename_i y20 y21 e22
                        have h21 : Keeps s0 y21 := (KP.get (KExc.getOk (of_eq (P := KExc (KCapStop s0) (KP s0)) e22 (stepEnd_keeps h16))))
                        exact (sweepIf_keeps h21)))))))

theorem collPump_keeps {s0 a1 a2} (k2 : Keeps s0 a2) : Keeps s0 (collPump a1 a2) := by
  unfold collPump
  split
  · exact k2
  · exact (upto_keeps (P := Keeps s0) (fun _ _ h1 => (collStep_keeps h1)) k2)

theorem xhSend_keeps {s0 a1 a2 a3 a4} (k4 : Keeps s0 a4) : Keeps s0 (xhSend a1 a2 a3 a4) := by
  unfold xhSend
  exact (each_keeps (P := Keeps s0) (fun _ _ h1 => (ctrlSend_keeps h1)) k4)

theorem xhBegin_keeps {s0 a1 a2 a3 a4 a5} (k5 : Keeps s0 a5) : Keeps s0 (xhBegin a1 a2 a3 a4 a5) := by
  unfold xhBegin
  split
  · exact (xhSend_keeps (State.setGrp_keeps k5))
  · exact (hitchXdone_keeps (by
        extract_lets -merge +onlyGivenNames x1
        try clear_value x1
        extract_lets -merge +onlyGivenNames x2
        have h2 : Keeps s0 x2 := (State.setGrp_keeps k5)
        clear_value x2
        exact (by exact Keeps.same h2 rfl rfl rfl rfl rfl rfl rfl rfl)))

theorem xhStart_keeps {s0 a1} (k1 : Keeps s0 a1) : Keeps s0 (xhStart a1) := by
  unfold xhStart
  exact (each_keeps (P := Keeps s0) (fun _ _ h1 => (ite_keeps h1 (xhBegin_keeps h1))) k1)

theorem xhTake_keeps {s0 a1 a2 a3 a4} (k4 : Keeps s0 a4) : Keeps s0 (xhTake a1 a2 a3 a4) := by
  unfold xhTake
  split
  · exact k4
  · exact (ite_keeps (hitchFail_keeps (by
        extract_lets -merge +onlyGivenNames x1
        try clear_value x1
        extract_lets -merge +onlyGivenNames x2
        have h2 : Keeps s0 x2 := (State.setGrp_keeps k4)
        clear_value x2
        exact (by exact Keeps.same h2 rfl rfl rfl rfl rfl rfl rfl rfl))) (by
        extract_lets -merge +onlyGivenNames plus3
        try clear_value plus3
        extract_lets -merge +onlyGivenNames n4
        try clear_value n4
        extract_lets -merge +onlyGivenNames a5
        try clear_value a5
        extract_lets -merge +onlyGivenNames b6
        try clear_value b6
        extract_lets -merge +onlyGivenNames x7
        try clear_value x7
        extract_lets -merge +onlyGivenNames s8
        have h8 : Keeps s0 s8 := (State.setGrp_keeps k4)
        clear_value s8
        extract_lets -merge +onlyGivenNames s9
        have h9 : Keeps s0 s9 := (ite_keeps (ctrlSend_keeps h8) h8)
        clear_value s9
        exact (ite_keeps (xhBegin_keeps h9) h9)))

theorem opCapDoorbell_keeps {s0 a1 a2 a3} (k3 : Keeps s0 a3) : Keeps s0 (opCapDoorbell a1 a2 a3) := by
  unfold opCapDoorbell
  exact (ite_keeps (by exact Keeps.same k3 rfl rfl rfl rfl rfl rfl rfl rfl) (by
      extract_lets -merge +onlyGivenNames part1
      try clear_value part1
      split
      · rename_i y2 e3
        have h2 : ∀ z, Keeps s0 z → Keeps s0 (y2 z) := (KCapStop.getWait (KExc.getErr (of_eq (P := KExc (KCapStop s0) (KP s0)) e3 (capRead_keeps k3))))
        exact (h2 _ k3)
      · rename_i y4 y5 e6
        have h5 : Keeps s0 y5 := (KCapStop.get (KExc.getErr (of_eq (P := KExc (KCapStop s0) (KP s0)) e6 (capRead_keeps k3))))
        extract_lets -merge +onlyGivenNames x7
        have h7 : Keeps s0 x7 := (State.count_keeps h5)
        clear_value x7
        exact (by exact Keeps.same h7 rfl rfl rfl rfl rfl rfl rfl rfl)
      · rename_i y8 y9 e10
        have h9 : Keeps s0 y9 := (KP.get (KExc.getOk (of_eq (P := KExc (KCapStop s0) (KP s0)) e10 (capRead_keeps k3))))
        extract_lets -merge +onlyGivenNames d11
        try clear_value d11
        extract_lets -merge +onlyGivenNames g12
        try clear_value g12
        extract_lets -merge +onlyGivenNames x13
        try clear_value x13
        exact (ite_keeps (by
            extract_lets -merge +onlyGivenNames x14
            have h14 : Keeps s0 x14 := (capFailed_keeps h9)
            clear_value x14
            exact (by exact Keeps.same h14 rfl rfl rfl rfl rfl rfl rfl rfl)) (ite_keeps (by exact Keeps.same h9 rfl rfl rfl rfl rfl rfl rfl rfl) (ite_keeps (by
            extract_lets -merge +onlyGivenNames x15
            have h15 : Keeps s0 x15 := (capFailed_keeps h9)
            clear_value x15
            exact (by exact Keeps.same h15 rfl rfl rfl rfl rfl rfl rfl rfl)) (by
            extract_lets -merge +onlyGivenNames x16
            have h16 : Keeps s0 x16 := (State.setGrp_keeps h9)
            clear_value x16
            exact (by exact Keeps.same h16 rfl rfl rfl rfl rfl rfl rfl rfl)))))))

theorem agFirst_keeps {s0 a1 a2 a3 a4} (k4 : Keeps s0 a4) : KExc (KCapStop s0) (KP s0) (agFirst a1 a2 a3 a4) := by
  unfold agFirst
  split
  · split
    · rename_i y1 e2
      have h1 : KCapStop s0 y1 := (KExc.getErr (of_eq (P := KExc (KCapStop s0) (KP s0)) e2 (capRead_keeps k4)))
      exact (KExc.err h1)
    · rename_i y3 y4 e5
      have h4 : Keeps s0 y4 := (KP.get (KExc.getOk (of_eq (P := KExc (KCapStop s0) (KP s0)) e5 (capRead_keeps k4))))
      split
      · rename_i y6 e7
        have h6 : KCapStop s0 y6 := (KExc.getErr (of_eq (P := KExc (KCapStop s0) (KP s0)) e7 (putDst_keeps h4)))
        exact (KExc.err h6)
      · rename_i y8 y9 e10
        have h9 : Keeps s0 y9 := (KP.get (KExc.getOk (of_eq (P := KExc (KCapStop s0) (KP s0)) e10 (putDst_keeps h4))))
        exact (KExc.mk (agBegin_keeps h9))

theorem partsStart_keeps {s0 a1 a2 a3 a4} (k4 : Keeps s0 a4) : KExc (KCapStop s0) (KP s0) (partsStart a1 a2 a3 a4) := by
  induction a2 generalizing a1 a3 a4 with
  | zero =>
    rw [partsStart.eq_1]
    exact (KExc.mk (KP.mk k4))
  | succ n ih =>
    rw [partsStart.eq_2]
    split
    · rename_i y1 e2
      have h1 : KCapStop s0 y1 := (KExc.getErr (of_eq (P := KExc (KCapStop s0) (KP s0)) e2 (ih k4)))
      exact (KExc.err h1)
    · rename_i y3 y4 e5
      have h4 : Keeps s0 y4 := (KP.get (KExc.getOk (of_eq (P := KExc (KCapStop s0) (KP s0)) e5 (ih k4))))
      exact (ite_keeps (agFirst_keeps h4) (by
          split
          · rename_i y6 e7
            have h6 : KCapStop s0 y6 := (KExc.getErr (of_eq (P := KExc (KCapStop s0) (KP s0)) e7 (rsStart_keeps h4)))
            exact (KExc.err h6)
          · rename_i y8 y9 e10
            have h9 : Keeps s0 y9 := (KP.get (KExc.getOk (of_eq (P := KExc (KCapStop s0) (KP s0)) e10 (rsStart_keeps h4))))
            exact (KExc.mk (KP.mk h9))))

theorem collectiveStart_keeps {s0 a1 a2} (k2 : Keeps s0 a2) : Keeps s0 (collectiveStart a1 a2) := by
  unfold collectiveStart
  extract_lets -merge +onlyGivenNames x1
  try clear_value x1
  split
  · exact (ite_keeps k2 (by
        extract_lets -merge +onlyGivenNames q2
        try clear_value q2
        extract_lets -merge +onlyGivenNames part3
        try clear_value part3
        extract_lets -merge +onlyGivenNames st4
        try clear_value st4
        extract_lets -merge +onlyGivenNames dt5
        try clear_value dt5
        extract_lets -merge +onlyGivenNames c6
        try clear_value c6
        extract_lets -merge +onlyGivenNames s17
        have h7 : Keeps s0 s17 := (State.setGrp_keeps (setRec_keeps k2))
        clear_value s17
        extract_lets -merge +onlyGivenNames bad8
        try clear_value bad8
        exact (ite_keeps (groupFail_keeps (each_keeps (P := Keeps s0) (fun _ _ h9 => (gaugeErr_keeps h9)) h7)) (by
            split
            · rename_i y10 e11
              have h10 : ∀ z, Keeps s0 z → Keeps s0 (y10 z) := (KCapStop.getWait (KExc.getErr (of_eq (P := KExc (KCapStop s0) (KP s0)) e11 (partsStart_keeps h7))))
              exact (h10 _ k2)
            · rename_i y12 y13 e14
              have h13 : Keeps s0 y13 := (KCapStop.get (KExc.getErr (of_eq (P := KExc (KCapStop s0) (KP s0)) e14 (partsStart_keeps h7))))
              exact (groupFail_keeps h7)
            · rename_i y15 y16 e17
              have h16 : Keeps s0 y16 := (KP.get (KExc.getOk (of_eq (P := KExc (KCapStop s0) (KP s0)) e17 (partsStart_keeps h7))))
              exact (sweepIf_keeps h16)))))
  · exact k2

theorem capstanTimeout_keeps {s0 a1 a2} (k2 : Keeps s0 a2) : Keeps s0 (capstanTimeout a1 a2) := by
  unfold capstanTimeout
  exact (ite_keeps (groupFail_keeps k2) k2)

theorem opCapGrp_keeps {s0 a1 a2 a3 a4} (k4 : Keeps s0 a4) : Keeps s0 (opCapGrp a1 a2 a3 a4) := by
  unfold opCapGrp
  exact (regWrite_keeps (fun _ h1 => (by
      extract_lets -merge +onlyGivenNames was2
      try clear_value was2
      extract_lets -merge +onlyGivenNames en3
      try clear_value en3
      extract_lets -merge +onlyGivenNames x4
      try clear_value x4
      extract_lets -merge +onlyGivenNames s5
      have h5 : Keeps s0 s5 := (ite_keeps (groupFail_keeps h1) h1)
      clear_value s5
      extract_lets -merge +onlyGivenNames s6
      have h6 : Keeps s0 s6 := (typedWrite_keeps h5)
      clear_value s6
      exact (ite_keeps h6 (State.setFld_keeps h6)))) k4)

theorem capstanReset_keeps {s0 a1 a2} (k2 : Keeps s0 a2) : Keeps s0 (capstanReset a1 a2) := by
  unfold capstanReset
  exact (each_keeps (P := Keeps s0) (fun _ _ h1 => (ite_keeps (groupFail_keeps h1) h1)) k2)

end Sys2Proof.Machine
end

