-- ==== Sys2Proof/Laws/KeepRing.lean ====
section
/-! SUPPORT. What the operations of Machine/Ring.lean keep (Laws/Keeps.lean). -/

namespace Sys2Proof.Machine

theorem ddoneSend_keeps {s0 a1 a2 a3 a4} (k4 : Keeps s0 a4) : Keeps s0 (ddoneSend a1 a2 a3 a4) := by
  unfold ddoneSend
  split
  · exact k4
  · exact (ite_keeps k4 (sendFrame_keeps k4))

theorem ddoneTake_keeps {s0 a1 a2} (k2 : Keeps s0 a2) : Keeps s0 (ddoneTake a1 a2) := by
  unfold ddoneTake
  extract_lets -merge +onlyGivenNames p1
  try clear_value p1
  extract_lets -merge +onlyGivenNames n2
  try clear_value n2
  extract_lets -merge +onlyGivenNames ch3
  try clear_value ch3
  extract_lets -merge +onlyGivenNames x4
  try clear_value x4
  extract_lets -merge +onlyGivenNames code5
  try clear_value code5
  extract_lets -merge +onlyGivenNames addr6
  try clear_value addr6
  exact (ite_keeps k2 (ite_keeps (State.setChan_keeps k2) (by
      extract_lets -merge +onlyGivenNames s7
      have h7 : Keeps s0 s7 := by
        unfold s7
        split
        · extract_lets -merge +onlyGivenNames k8
          try clear_value k8
          exact (State.setFld_keeps k2)
        · exact k2
      clear_value s7
      exact (chError_keeps h7))))

theorem frameStuck_keeps {s0 a1 a2} (k2 : Keeps s0 a2) : Keeps s0 (frameStuck a1 a2) := by
  unfold frameStuck
  exact (ite_keeps k2 (ite_keeps (ddoneTake_keeps k2) (ddoneSend_keeps k2)))

theorem forward_keeps {s0 a1 a2} (k2 : Keeps s0 a2) : Keeps s0 (forward a1 a2) := by
  unfold forward
  split
  · exact (frameStuck_keeps k2)
  · exact (ite_keeps (dimSend_keeps k2) (frameStuck_keeps k2))

theorem hcLocal_keeps {s0 a1 a2 a3 a4 a5} (k5 : Keeps s0 a5) : KExc (KChStop s0) (Keeps s0) (hcLocal a1 a2 a3 a4 a5) := by
  unfold hcLocal
  split
  · rename_i y1 e2
    have h1 : KChStop s0 y1 := (KExc.getErr (of_eq (P := KExc (KChStop s0) (Keeps s0)) e2 (chWritables_keeps k5)))
    exact (KExc.err h1)
  · rename_i y3 e4
    have h3 : Keeps s0 y3 := (KExc.getOk (of_eq (P := KExc (KChStop s0) (Keeps s0)) e4 (chWritables_keeps k5)))
    extract_lets -merge +onlyGivenNames s5
    have h5 : Keeps s0 s5 := (chWrite_keeps h3)
    clear_value s5
    exact (KExc.mk (each_keeps (P := Keeps s0) (fun _ _ h6 => (chWrite_keeps h6)) h5))

theorem hcRemote_keeps {s0 a1 a2 a3 a4 a5 a6 a7} (k7 : Keeps s0 a7) : KExc (KChStop s0) (Keeps s0) (hcRemote a1 a2 a3 a4 a5 a6 a7) := by
  unfold hcRemote
  extract_lets -merge +onlyGivenNames ch1
  try clear_value ch1
  extract_lets -merge +onlyGivenNames dm2
  try clear_value dm2
  split
  · rename_i y3 e4
    have h3 : KChStop s0 y3 := (KExc.getErr (of_eq (P := KExc (KChStop s0) (Keeps s0)) e4 (chWritables_keeps k7)))
    exact (KExc.err h3)
  · rename_i y5 e6
    have h5 : Keeps s0 y5 := (KExc.getOk (of_eq (P := KExc (KChStop s0) (Keeps s0)) e6 (chWritables_keeps k7)))
    split
    · exact (KExc.err (KChStop.fail h5))
    · exact (ite_keeps (KExc.err (KChStop.fail h5)) (by
          extract_lets -merge +onlyGivenNames s7
          have h7 : Keeps s0 s7 := (each_keeps (P := Keeps s0) (fun _ _ h8 => (chWrite_keeps h8)) h5)
          clear_value s7
          exact (KExc.mk (sendFrame_keeps h7))))

theorem hcElement_keeps {s0 a1 a2 a3 a4} (k4 : Keeps s0 a4) : Keeps s0 (hcElement a1 a2 a3 a4) := by
  unfold hcElement
  extract_lets -merge +onlyGivenNames ch1
  try clear_value ch1
  extract_lets -merge +onlyGivenNames k2
  try clear_value k2
  split
  · exact k4
  · exact (ite_keeps k4 (by
        split
        · rename_i y3 e4
          have h3 : KChStop s0 y3 := (KExc.getErr (of_eq (P := KExc (KChStop s0) (KP s0)) e4 (elemRead_keeps k4)))
          exact (chStop_keeps k4 h3)
        · rename_i y5 y6 e7
          have h6 : Keeps s0 y6 := (KP.get (KExc.getOk (of_eq (P := KExc (KChStop s0) (KP s0)) e7 (elemRead_keeps k4))))
          split
          · rename_i y8 e9
            have h8 : KChStop s0 y8 := (KExc.getErr (of_eq (P := KExc (KChStop s0) (Keeps s0)) e9 (ite_keeps (hcLocal_keeps h6) (hcRemote_keeps h6))))
            exact (chStop_keeps k4 h8)
          · rename_i y10 e11
            have h10 : Keeps s0 y10 := (KExc.getOk (of_eq (P := KExc (KChStop s0) (Keeps s0)) e11 (ite_keeps (hcLocal_keeps h6) (hcRemote_keeps h6))))
            extract_lets -merge +onlyGivenNames s12
            have h12 : Keeps s0 s12 := (State.setFld_keeps (State.count_keeps h10))
            clear_value s12
            extract_lets -merge +onlyGivenNames x13
            try clear_value x13
            exact (State.setChan_keeps h12)))

theorem hcComplete_keeps {s0 a1 a2 a3} (k3 : Keeps s0 a3) : Keeps s0 (hcComplete a1 a2 a3) := by
  unfold hcComplete
  extract_lets -merge +onlyGivenNames ch1
  try clear_value ch1
  split
  · exact k3
  · extract_lets -merge +onlyGivenNames away2
    try clear_value away2
    exact (ite_keeps k3 (by
        split
        · rename_i y3 e4
          have h3 : KChStop s0 y3 := (KExc.getErr (of_eq (P := KExc (KChStop s0) (Keeps s0)) e4 (chWord_keeps k3)))
          exact (chStop_keeps k3 h3)
        · rename_i y5 e6
          have h5 : Keeps s0 y5 := (KExc.getOk (of_eq (P := KExc (KChStop s0) (Keeps s0)) e6 (chWord_keeps k3)))
          exact (ite_keeps h5 (chNext_keeps (chCount_keeps h5)))))

theorem opElement_keeps {s0 a1 a2 a3 a4 a5} (k5 : Keeps s0 a5) : Keeps s0 (opElement a1 a2 a3 a4 a5) := by
  unfold opElement
  exact (ite_keeps (hcElement_keeps k5) (culvertElement_keeps k5))

theorem opComplete_keeps {s0 a1 a2 a3 a4} (k4 : Keeps s0 a4) : Keeps s0 (opComplete a1 a2 a3 a4) := by
  unfold opComplete
  exact (ite_keeps (hcComplete_keeps k4) (culvertComplete_keeps k4))

theorem opDescFetch_keeps {s0 a1 a2 a3 a4} (k4 : Keeps s0 a4) : Keeps s0 (opDescFetch a1 a2 a3 a4) := by
  unfold opDescFetch
  exact (descFetch_keeps k4)

theorem opHcHead_keeps {s0 a1 a2 a3 a4 a5} (k5 : Keeps s0 a5) : Keeps s0 (opHcHead a1 a2 a3 a4 a5) := by
  unfold opHcHead
  extract_lets -merge +onlyGivenNames ch1
  try clear_value ch1
  exact (regWrite_keeps (fun _ h2 => (KP.snd (chStart_keeps h2))) k5)

theorem ddTake_keeps {s0 a1 a2 a3} (k3 : Keeps s0 a3) : Keeps s0 (ddTake a1 a2 a3) := by
  unfold ddTake
  extract_lets -merge +onlyGivenNames va1
  try clear_value va1
  split
  · exact (ddoneSend_keeps (touchEcN_keeps k3))
  · extract_lets -merge +onlyGivenNames s2
    have h2 : Keeps s0 s2 := (touchEcN_keeps k3)
    clear_value s2
    split
    · exact (ddoneSend_keeps (dropLostV_keeps h2))
    · extract_lets -merge +onlyGivenNames s3
      have h3 : Keeps s0 s3 := (eWay_keeps h2)
      clear_value s3
      extract_lets -merge +onlyGivenNames s4
      have h4 : Keeps s0 s4 := (eWriteV_keeps h3)
      clear_value s4
      exact (ite_keeps h4 (ite_keeps (by exact Keeps.same h4 rfl rfl rfl rfl rfl rfl rfl rfl) (ddoneSend_keeps h4)))

theorem ddPump_keeps {s0 a1} (k1 : Keeps s0 a1) : Keeps s0 (ddPump a1) := by
  unfold ddPump
  exact (each_keeps (P := Keeps s0) (fun _ _ h1 => (ite_keeps h1 (ddoneSend_keeps (by exact Keeps.same h1 rfl rfl rfl rfl rfl rfl rfl rfl)))) k1)

theorem collFrame_keeps {s0 a1 a2 a3 a4 a5} (k5 : Keeps s0 a5) : Keeps s0 (collFrame a1 a2 a3 a4 a5) := by
  unfold collFrame
  extract_lets -merge +onlyGivenNames s1
  have h1 : Keeps s0 s1 := (countFrame_keeps k5)
  clear_value s1
  split
  · exact h1
  · exact (ite_keeps (groupFail_keeps h1) (collPump_keeps (State.setRun_keeps h1)))

theorem frameTake_keeps {s0 a1 a2 a3} (k3 : Keeps s0 a3) : Keeps s0 (frameTake a1 a2 a3) := by
  unfold frameTake
  exact (ite_keeps (forward_keeps k3) (by
      split
      · exact (collFrame_keeps k3)
      · exact (ddTake_keeps k3)
      · split
        · exact (collFrame_keeps k3)
        · exact (xhTake_keeps k3)
        · exact (ddoneTake_keeps k3)
        · exact (groupFail_keeps k3)
        · exact k3))

theorem rxPump_keeps {s0 a1 a2} (k2 : Keeps s0 a2) : Keeps s0 (rxPump a1 a2) := by
  unfold rxPump
  extract_lets -merge +onlyGivenNames s1
  have h1 : Keeps s0 s1 := (upto_keeps (P := Keeps s0) (fun _ _ h2 => (by
      split
      · exact h2
      · exact (frameTake_keeps (freeBuf_keeps h2)))) k2)
  clear_value s1
  split
  · exact (ite_keeps h1 (ePrepV_keeps h1))
  · exact h1

theorem ringPump_keeps {s0 a1} (k1 : Keeps s0 a1) : Keeps s0 (ringPump a1) := by
  unfold ringPump
  extract_lets -merge +onlyGivenNames s1
  have h1 : Keeps s0 s1 := (xhStart_keeps k1)
  clear_value s1
  extract_lets -merge +onlyGivenNames s2
  have h2 : Keeps s0 s2 := (upto_keeps (P := Keeps s0) (fun _ _ h3 => (rxPump_keeps h3)) h1)
  clear_value s2
  extract_lets -merge +onlyGivenNames s4
  have h4 : Keeps s0 s4 := (each_keeps (P := Keeps s0) (fun _ _ h5 => (ite_keeps (collPump_keeps h5) h5)) h2)
  clear_value s4
  exact (ddPump_keeps (upto_keeps (P := Keeps s0) (fun _ _ h6 => (portSend_keeps h6)) h4))

theorem frameArrive_keeps {s0 a1 a2 a3 a4 a5} (k5 : Keeps s0 a5) : Keeps s0 (frameArrive a1 a2 a3 a4 a5) := by
  unfold frameArrive
  exact (ite_keeps k5 (ringPump_keeps (KP.snd (frameCheck_keeps k5))))

theorem linkArrive_keeps {s0 a1 a2 a3 a4 a5} (k4 : ∀ z1, Keeps s0 z1 → Keeps s0 (a4 z1)) (k5 : Keeps s0 a5) : Keeps s0 (linkArrive a1 a2 a3 a4 a5) := by
  unfold linkArrive
  exact (ite_keeps k5 (by
      split
      · rename_i y1 y2 e3
        have h2 : Keeps s0 y2 := (KP.get (of_eq (P := KP s0) e3 (frameCheck_keeps k5)))
        exact (ringPump_keeps (ite_keeps (k4 _ h2) h2))))

theorem portLeave_keeps {s0 a1 a2 a3} (k3 : Keeps s0 a3) : Keeps s0 (portLeave a1 a2 a3) := by
  unfold portLeave
  extract_lets -merge +onlyGivenNames was1
  try clear_value was1
  extract_lets -merge +onlyGivenNames x2
  try clear_value x2
  extract_lets -merge +onlyGivenNames s3
  have h3 : Keeps s0 s3 := (State.setFlag_keeps (State.setFld_keeps k3))
  clear_value s3
  extract_lets -merge +onlyGivenNames s4
  have h4 : Keeps s0 s4 := (ite_keeps (State.hgEvent_keeps h3) h3)
  clear_value s4
  extract_lets -merge +onlyGivenNames s5
  have h5 : Keeps s0 s5 := (ite_keeps h4 (State.setFld_keeps (State.setFld_keeps h4)))
  clear_value s5
  extract_lets -merge +onlyGivenNames s6
  have h6 : Keeps s0 s6 := (State.setPort_keeps h5)
  clear_value s6
  exact (ite_keeps h6 (by
      extract_lets -merge +onlyGivenNames s7
      have h7 : Keeps s0 s7 := (upto_keeps (P := Keeps s0) (fun _ _ h8 => (ite_keeps (groupFail_keeps h8) h8)) h6)
      clear_value s7
      extract_lets -merge +onlyGivenNames own9
      try clear_value own9
      exact (each_keeps (P := Keeps s0) (fun _ _ h10 => (frameStuck_keeps h10)) h7)))

theorem portTrain_keeps {s0 a1 a2} (k2 : Keeps s0 a2) : Keeps s0 (portTrain a1 a2) := by
  unfold portTrain
  exact (ite_keeps k2 (by
      extract_lets -merge +onlyGivenNames s1
      have h1 : Keeps s0 s1 := (portLeave_keeps k2)
      clear_value s1
      extract_lets -merge +onlyGivenNames x2
      try clear_value x2
      exact (State.setPort_keeps (State.setFld_keeps h1))))

theorem portLoss_keeps {s0 a1 a2} (k2 : Keeps s0 a2) : Keeps s0 (portLoss a1 a2) := by
  unfold portLoss
  exact (ite_keeps k2 (portTrain_keeps k2))

theorem laneSignalLoss_keeps {s0 a1 a2} (k2 : Keeps s0 a2) : Keeps s0 (laneSignalLoss a1 a2) := by
  unfold laneSignalLoss
  exact (ringPump_keeps (portLoss_keeps k2))

theorem portDown_keeps {s0 a1 a2} (k2 : Keeps s0 a2) : Keeps s0 (portDown a1 a2) := by
  unfold portDown
  exact (portLeave_keeps k2)

theorem hwCtlSet_keeps {s0 a1 a2 a3} (k3 : Keeps s0 a3) : Keeps s0 (hwCtlSet a1 a2 a3) := by
  unfold hwCtlSet
  extract_lets -merge +onlyGivenNames s1
  have h1 : Keeps s0 s1 := (typedWrite_keeps k3)
  clear_value s1
  extract_lets -merge +onlyGivenNames s2
  have h2 : Keeps s0 s2 := (ite_keeps (portDown_keeps h1) (ite_keeps (portTrain_keeps h1) h1))
  clear_value s2
  exact (ite_keeps (State.setFld_keeps h2) h2)

theorem opHwCtl_keeps {s0 a1 a2 a3 a4} (k4 : Keeps s0 a4) : Keeps s0 (opHwCtl a1 a2 a3 a4) := by
  unfold opHwCtl
  exact (ringPump_keeps (regWrite_keeps (fun _ h1 => (hwCtlSet_keeps h1)) k4))

theorem opHwTrain_keeps {s0 a1 a2 a3} (k3 : Keeps s0 a3) : Keeps s0 (opHwTrain a1 a2 a3) := by
  unfold opHwTrain
  exact (opHwCtl_keeps k3)

theorem opHwDown_keeps {s0 a1 a2 a3} (k3 : Keeps s0 a3) : Keeps s0 (opHwDown a1 a2 a3) := by
  unfold opHwDown
  exact (opHwCtl_keeps k3)

theorem opLaneEn_keeps {s0 a1 a2 a3 a4} (k4 : Keeps s0 a4) : Keeps s0 (opLaneEn a1 a2 a3 a4) := by
  unfold opLaneEn
  exact (opHwCtl_keeps k4)

theorem portTrained_keeps {s0 a1 a2 a3} (k3 : Keeps s0 a3) : Keeps s0 (portTrained a1 a2 a3) := by
  unfold portTrained
  extract_lets -merge +onlyGivenNames st1
  try clear_value st1
  exact (ite_keeps k3 (by
      extract_lets -merge +onlyGivenNames en2
      try clear_value en2
      extract_lets -merge +onlyGivenNames s3
      have h3 : Keeps s0 s3 := (State.setFld_keeps (State.setFld_keeps k3))
      clear_value s3
      exact (ite_keeps h3 (by
          extract_lets -merge +onlyGivenNames u4
          try clear_value u4
          extract_lets -merge +onlyGivenNames s5
          have h5 : Keeps s0 s5 := (State.setFld_keeps h3)
          clear_value s5
          extract_lets -merge +onlyGivenNames s6
          have h6 : Keeps s0 s6 := (State.modPort_keeps h5)
          clear_value s6
          exact (linkSend_keeps h6)))))

theorem helloTake_keeps {s0 a1 a2 a3} (k3 : Keeps s0 a3) : Keeps s0 (helloTake a1 a2 a3) := by
  unfold helloTake
  exact (ite_keeps k3 (by
      extract_lets -merge +onlyGivenNames m1
      try clear_value m1
      extract_lets -merge +onlyGivenNames q2
      try clear_value q2
      extract_lets -merge +onlyGivenNames s3
      have h3 : Keeps s0 s3 := (State.setFld_keeps (State.setFld_keeps k3))
      clear_value s3
      exact (ite_keeps (by
          extract_lets -merge +onlyGivenNames s4
          have h4 : Keeps s0 s4 := (State.setFld_keeps (State.setFlag_keeps h3))
          clear_value s4
          exact (State.modPort_keeps h4)) (State.countSat_keeps (State.setFlag_keeps h3)))))

theorem hello_keeps {s0 a1 a2 a3} (k3 : Keeps s0 a3) : Keeps s0 (hello a1 a2 a3) := by
  unfold hello
  exact (linkArrive_keeps (fun _ h1 => (helloTake_keeps h1)) k3)

theorem linkAck_keeps {s0 a1 a2 a3} (k3 : Keeps s0 a3) : Keeps s0 (linkAck a1 a2 a3) := by
  unfold linkAck
  exact (linkArrive_keeps (fun _ h1 => (takeAck_keeps h1)) k3)

theorem resendAll_keeps {s0 a1 a2} (k2 : Keeps s0 a2) : Keeps s0 (resendAll a1 a2) := by
  unfold resendAll
  extract_lets -merge +onlyGivenNames x1
  try clear_value x1
  split
  · exact k2
  · exact (ite_keeps k2 (ite_keeps (portLeave_keeps k2) (by
        extract_lets -merge +onlyGivenNames n2
        try clear_value n2
        exact (State.count_keeps (State.setPort_keeps k2)))))

theorem linkNack_keeps {s0 a1 a2 a3} (k3 : Keeps s0 a3) : Keeps s0 (linkNack a1 a2 a3) := by
  unfold linkNack
  exact (linkArrive_keeps (fun _ h1 => (resendAll_keeps (takeAck_keeps h1))) k3)

theorem retransmitTimeout_keeps {s0 a1 a2} (k2 : Keeps s0 a2) : Keeps s0 (retransmitTimeout a1 a2) := by
  unfold retransmitTimeout
  exact (ringPump_keeps (resendAll_keeps k2))

theorem cdata_keeps {s0 a1 a2 a3} (k3 : Keeps s0 a3) : Keeps s0 (cdata a1 a2 a3) := by
  unfold cdata
  exact (frameArrive_keeps k3)

theorem ddata_keeps {s0 a1 a2 a3} (k3 : Keeps s0 a3) : Keeps s0 (ddata a1 a2 a3) := by
  unfold ddata
  exact (frameArrive_keeps k3)

theorem sweep_keeps {s0 a1 a2 a3} (k3 : Keeps s0 a3) : Keeps s0 (sweep a1 a2 a3) := by
  unfold sweep
  exact (frameArrive_keeps k3)

theorem xhitch_keeps {s0 a1 a2 a3} (k3 : Keeps s0 a3) : Keeps s0 (xhitch a1 a2 a3) := by
  unfold xhitch
  exact (frameArrive_keeps k3)

theorem ddone_keeps {s0 a1 a2 a3} (k3 : Keeps s0 a3) : Keeps s0 (ddone a1 a2 a3) := by
  unfold ddone
  exact (frameArrive_keeps k3)

theorem gfail_keeps {s0 a1 a2 a3} (k3 : Keeps s0 a3) : Keeps s0 (gfail a1 a2 a3) := by
  unfold gfail
  exact (frameArrive_keeps k3)

theorem hitchRow_keeps {s0 a1 a2} (k2 : Keeps s0 a2) : Keeps s0 (hitchRow a1 a2) := by
  unfold hitchRow
  exact (ringPump_keeps (hitchArrive_keeps k2))

theorem collectiveStartRow_keeps {s0 a1 a2} (k2 : Keeps s0 a2) : Keeps s0 (collectiveStartRow a1 a2) := by
  unfold collectiveStartRow
  exact (ringPump_keeps (collectiveStart_keeps k2))

theorem spwMove_keeps {s0 a1 a2 a3} (k3 : Keeps s0 a3) : Keeps s0 (spwMove a1 a2 a3) := by
  unfold spwMove
  extract_lets -merge +onlyGivenNames s1
  have h1 : Keeps s0 s1 := (State.countSat_keeps (State.setFld_keeps k3))
  clear_value s1
  exact (portLoss_keeps (portLoss_keeps (by exact Keeps.same h1 rfl rfl rfl rfl rfl rfl rfl rfl)))

theorem spwClose_keeps {s0 a1 a2 a3} (k3 : Keeps s0 a3) : Keeps s0 (spwClose a1 a2 a3) := by
  unfold spwClose
  exact (ite_keeps k3 (by
      extract_lets -merge +onlyGivenNames s1
      have h1 : Keeps s0 s1 := (State.setFld_keeps k3)
      clear_value s1
      exact (ite_keeps (by exact Keeps.same h1 rfl rfl rfl rfl rfl rfl rfl rfl) (spwMove_keeps h1))))

theorem spwCloseAll_keeps {s0 a1 a2} (k2 : Keeps s0 a2) : Keeps s0 (spwCloseAll a1 a2) := by
  unfold spwCloseAll
  exact (upto_keeps (P := Keeps s0) (fun _ _ h1 => (spwClose_keeps h1)) k2)

theorem opSpw_keeps {s0 a1 a2 a3 a4} (k4 : Keeps s0 a4) : Keeps s0 (opSpw a1 a2 a3 a4) := by
  unfold opSpw
  extract_lets -merge +onlyGivenNames cmd1
  try clear_value cmd1
  exact (ringPump_keeps (regWrite_keeps (fun _ h2 => (ite_keeps (spwClose_keeps h2) (ite_keeps (ite_keeps (spwMove_keeps h2) h2) h2))) k4))

theorem spillwayClose_keeps {s0 a1 a2 a3} (k3 : Keeps s0 a3) : Keeps s0 (spillwayClose a1 a2 a3) := by
  unfold spillwayClose
  exact (opSpw_keeps k3)

theorem spillwayOpen_keeps {s0 a1 a2 a3} (k3 : Keeps s0 a3) : Keeps s0 (spillwayOpen a1 a2 a3) := by
  unfold spillwayOpen
  exact (opSpw_keeps k3)

theorem spillwayMoveDone_keeps {s0 a1 a2} (k2 : Keeps s0 a2) : Keeps s0 (spillwayMoveDone a1 a2) := by
  unfold spillwayMoveDone
  exact (ite_keeps (State.setFld_keeps k2) k2)

theorem bypassForce_keeps {s0 a1 a2} (k2 : Keeps s0 a2) : Keeps s0 (bypassForce a1 a2) := by
  unfold bypassForce
  extract_lets -merge +onlyGivenNames s1
  have h1 : Keeps s0 s1 := (upto_keeps (P := Keeps s0) (fun _ _ h2 => (State.setFlag_keeps h2)) k2)
  clear_value s1
  exact (ite_keeps h1 (ringPump_keeps (spwCloseAll_keeps h1)))

theorem opCapDim_keeps {s0 a1 a2 a3 a4} (k4 : Keeps s0 a4) : Keeps s0 (opCapDim a1 a2 a3 a4) := by
  unfold opCapDim
  exact (ringPump_keeps (regWrite_keeps (fun _ h1 => (by
      extract_lets -merge +onlyGivenNames was2
      try clear_value was2
      extract_lets -merge +onlyGivenNames s3
      have h3 : Keeps s0 s3 := (typedWrite_keeps h1)
      clear_value s3
      extract_lets -merge +onlyGivenNames s4
      have h4 : Keeps s0 s4 := (ite_keeps (portDown_keeps (portDown_keeps (spwClose_keeps h3))) h3)
      clear_value s4
      exact (State.setFld_keeps h4))) k4))

theorem hcReset_keeps {s0 a1 a2} (k2 : Keeps s0 a2) : Keeps s0 (hcReset a1 a2) := by
  unfold hcReset
  exact (upto_keeps (P := Keeps s0) (fun _ _ h1 => (upto_keeps (P := Keeps s0) (fun _ _ h2 => (ite_keeps (by
      extract_lets -merge +onlyGivenNames ch3
      try clear_value ch3
      extract_lets -merge +onlyGivenNames x4
      try clear_value x4
      extract_lets -merge +onlyGivenNames s5
      have h5 : Keeps s0 s5 := (State.setChan_keeps (State.setFld_keeps h2))
      clear_value s5
      exact (State.setFld_keeps h5)) h2)) h1)) k2)

end Sys2Proof.Machine
end

