-- ==== Sys2Proof/Laws/KeepReset.lean ====
section
/-! SUPPORT. What the operations of Machine/Reset.lean keep (Laws/Keeps.lean). -/

namespace Sys2Proof.Machine

theorem opCoreReg_keeps {s0 a1 a2 a3 a4 a5} (k5 : Keeps s0 a5) : Keeps s0 (opCoreReg a1 a2 a3 a4 a5) := by
  unfold opCoreReg
  extract_lets -merge +onlyGivenNames a1
  try clear_value a1
  exact (ite_keeps (State.answer_keeps k5 (coreRegWrite_keeps k5)) (by
      extract_lets -merge +onlyGivenNames x2
      have h2 : Keeps s0 x2 := (gateNack_keeps k5)
      clear_value x2
      exact (by exact Keeps.same h2 rfl rfl rfl rfl rfl rfl rfl rfl)))

theorem opMaintSwitch_keeps {s0 a1 a2} (k2 : Keeps s0 a2) : Keeps s0 (opMaintSwitch a1 a2) := by
  unfold opMaintSwitch
  exact (maintSwitch_keeps k2)

theorem coreClear_keeps {s0 c s} (h : Keeps s0 s) : Keeps s0 (coreClear c s) := by
  unfold coreClear
  exact State.modCore_keeps (State.setFlag_keeps (State.setReg_keeps (regsFilter_keeps (knotReset_keeps (culvertReset_keeps h)))))

theorem coreResetEnd_keeps {s0 a1 a2} (k2 : Keeps s0 a2) : Keeps s0 (coreResetEnd a1 a2) := by
  unfold coreResetEnd
  exact (State.modCore_keeps k2)

theorem coreReset_keeps {s0 a1 a2} (k2 : Keeps s0 a2) : Keeps s0 (coreReset a1 a2) := by
  unfold coreReset
  exact (coreResetEnd_keeps (coreClear_keeps k2))

theorem ptRangeSet_keeps {s0 a1 a2 a3} (k3 : Keeps s0 a3) : Keeps s0 (ptRangeSet a1 a2 a3) := by
  unfold ptRangeSet
  extract_lets -merge +onlyGivenNames was1
  try clear_value was1
  extract_lets -merge +onlyGivenNames en2
  try clear_value en2
  extract_lets -merge +onlyGivenNames s3
  have h3 : Keeps s0 s3 := (typedWrite_keeps k3)
  clear_value s3
  extract_lets -merge +onlyGivenNames s4
  have h4 : Keeps s0 s4 := (ite_keeps (each_keeps (P := Keeps s0) (fun _ _ h5 => (ite_keeps h5 (State.modCore_keeps (State.setFld_keeps h5)))) h3) h3)
  clear_value s4
  exact (ite_keeps (State.setFld_keeps h4) (ite_keeps h4 (State.setFld_keeps h4)))

theorem opPtRange_keeps {s0 a1 a2 a3 a4} (k4 : Keeps s0 a4) : Keeps s0 (opPtRange a1 a2 a3 a4) := by
  unfold opPtRange
  exact (regWrite_keeps (fun _ h1 => (ptRangeSet_keeps h1)) k4)

theorem ptResetStart_keeps {s0 a1 a2} (k2 : Keeps s0 a2) : Keeps s0 (ptResetStart a1 a2) := by
  unfold ptResetStart
  extract_lets -merge +onlyGivenNames st1
  try clear_value st1
  exact (ite_keeps k2 (by
      extract_lets -merge +onlyGivenNames s2
      have h2 : Keeps s0 s2 := (State.setFld_keeps k2)
      clear_value s2
      extract_lets -merge +onlyGivenNames s3
      have h3 : Keeps s0 s3 := (each_keeps (P := Keeps s0) (fun _ _ h4 => (by
          extract_lets -merge +onlyGivenNames k5
          try clear_value k5
          extract_lets -merge +onlyGivenNames unsent6
          try clear_value unsent6
          extract_lets -merge +onlyGivenNames tx7
          try clear_value tx7
          exact (State.modCore_keeps (coreClear_keeps h4)))) h2)
      clear_value s3
      exact (ringPump_keeps (hcReset_keeps (capstanReset_keeps (sluReset_keeps (hitchReset_keeps h3)))))))

theorem opPtReset_keeps {s0 a1 a2 a3} (k3 : Keeps s0 a3) : Keeps s0 (opPtReset a1 a2 a3) := by
  unfold opPtReset
  exact (regWrite_keeps (fun _ h1 => (ptResetStart_keeps h1)) k3)

theorem ptDrainDone_keeps {s0 a1 a2} (k2 : Keeps s0 a2) : Keeps s0 (ptDrainDone a1 a2) := by
  unfold ptDrainDone
  exact (ite_keeps (State.setFld_keeps (each_keeps (P := Keeps s0) (fun _ _ h1 => (coreResetEnd_keeps h1)) k2)) k2)

theorem rtBusyWindow_keeps {s0 a1 a2} (k2 : Keeps s0 a2) : Keeps s0 (rtBusyWindow a1 a2) := by
  unfold rtBusyWindow
  exact (upto_keeps (P := Keeps s0) (fun _ _ h1 => (State.setReg_keeps h1)) k2)

theorem requestLimit_keeps {s0 a1 a2 a3} (k3 : Keeps s0 a3) : Keeps s0 (requestLimit a1 a2 a3) := by
  unfold requestLimit
  extract_lets -merge +onlyGivenNames k1
  try clear_value k1
  exact (ite_keeps (ite_keeps (logErr_keeps (State.setCore_keeps k3)) k3) (by
      split
      · extract_lets -merge +onlyGivenNames name2
        try clear_value name2
        extract_lets -merge +onlyGivenNames s3
        have h3 : Keeps s0 s3 := (State.modCore_keeps k3)
        clear_value s3
        exact (logErr_keeps (enterExc_keeps h3))
      · exact (memLimit_keeps k3)))

end Sys2Proof.Machine
end

