-- ==== Sys2Proof/Laws/KeepTether.lean ====
section
/-! SUPPORT. What the operations of Machine/Tether.lean keep (Laws/Keeps.lean). -/

namespace Sys2Proof.Machine

theorem setSubState_keeps {s0 a1 a2 a3} (k3 : Keeps s0 a3) : Keeps s0 (setSubState a1 a2 a3) := by
  unfold setSubState
  exact (State.setFld_keeps k3)

theorem ttProto_keeps {s0 a1} (k1 : Keeps s0 a1) : Keeps s0 (ttProto a1) := by
  unfold ttProto
  exact (State.count_keeps k1)

theorem State.modSub_keeps {s0 a1 a2 a3} (k1 : Keeps s0 a1) : Keeps s0 (State.modSub a1 a2 a3) := by
  unfold State.modSub
  exact (State.setSub_keeps k1)

theorem engFailed_keeps {s0 a1 a2 a3} (k3 : Keeps s0 a3) : Keeps s0 (engFailed a1 a2 a3) := by
  unfold engFailed
  exact (ite_keeps (by
      split
      · exact (ddoneSend_keeps (by exact Keeps.same k3 rfl rfl rfl rfl rfl rfl rfl rfl))
      · exact k3) (ite_keeps (groupFail_keeps k3) (ite_keeps (by
      extract_lets -merge +onlyGivenNames ch1
      try clear_value ch1
      exact (ite_keeps (chError_keeps k3) k3)) k3)))

theorem cwFail_keeps {s0 a1 a2} (k2 : Keeps s0 a2) : Keeps s0 (cwFail a1 a2) := by
  unfold cwFail
  exact (ite_keeps (by exact Keeps.same k2 rfl rfl rfl rfl rfl rfl rfl rfl) (ite_keeps (by
      split
      · exact (State.send_keeps k2)
      · exact (engFailed_keeps k2)) k2))

theorem dropCw_keeps {s0 a1 a2} (k2 : Keeps s0 a2) : Keeps s0 (dropCw a1 a2) := by
  unfold dropCw
  exact (by exact Keeps.same k2 rfl rfl rfl rfl rfl rfl rfl rfl)

theorem wake_keeps {s0 a1} (k1 : Keeps s0 a1) : Keeps s0 (wake a1) := by
  unfold wake
  exact (ringPump_keeps (releaseHeld_keeps k1))

theorem ttReqTimeout_keeps {s0 a1 a2 a3} (k3 : Keeps s0 a3) : Keeps s0 (ttReqTimeout a1 a2 a3) := by
  unfold ttReqTimeout
  split
  · exact k3
  · extract_lets -merge +onlyGivenNames s1
    have h1 : Keeps s0 s1 := (by exact Keeps.same k3 rfl rfl rfl rfl rfl rfl rfl rfl)
    clear_value s1
    exact (wake_keeps (cwFail_keeps (State.countSat_keeps h1)))

theorem lostLine_keeps {s0 a1 a2} (k2 : Keeps s0 a2) : Keeps s0 (lostLine a1 a2) := by
  unfold lostLine
  exact (State.setFld_keeps (State.count_keeps k2))

theorem lossSlice_keeps {s0 a1 a2} (k2 : Keeps s0 a2) : Keeps s0 (lossSlice a1 a2) := by
  unfold lossSlice
  extract_lets -merge +onlyGivenNames x1
  try clear_value x1
  extract_lets -merge +onlyGivenNames s2
  have h2 : Keeps s0 s2 := (each_keeps (P := Keeps s0) (fun _ _ h3 => (ite_keeps (lostLine_keeps h3) h3)) k2)
  clear_value s2
  extract_lets -merge +onlyGivenNames s4
  have h4 : Keeps s0 s4 := (each_keeps (P := Keeps s0) (fun _ _ h5 => (ite_keeps (lostLine_keeps h5) h5)) h2)
  clear_value s4
  exact (State.setSlice_keeps h4)

theorem linkLoss_keeps {s0 a1} (k1 : Keeps s0 a1) : Keeps s0 (linkLoss a1) := by
  unfold linkLoss
  extract_lets -merge +onlyGivenNames s1
  have h1 : Keeps s0 s1 := (State.setFld_keeps (State.setFlag_keeps k1))
  clear_value s1
  extract_lets -merge +onlyGivenNames s2
  have h2 : Keeps s0 s2 := (upto_keeps (P := Keeps s0) (fun _ _ h3 => (State.modSub_keeps h3)) h1)
  clear_value s2
  extract_lets -merge +onlyGivenNames s4
  have h4 : Keeps s0 s4 := (by exact Keeps.same h2 rfl rfl rfl rfl rfl rfl rfl rfl)
  clear_value s4
  extract_lets -merge +onlyGivenNames s5
  have h5 : Keeps s0 s5 := (each_keeps (P := Keeps s0) (fun _ _ h6 => (ite_keeps h6 (cwFail_keeps (State.countSat_keeps h6)))) h4)
  clear_value s5
  extract_lets -merge +onlyGivenNames s7
  have h7 : Keeps s0 s7 := (upto_keeps (P := Keeps s0) (fun _ _ h8 => (lossSlice_keeps h8)) (by exact Keeps.same h5 rfl rfl rfl rfl rfl rfl rfl rfl))
  clear_value s7
  exact (wake_keeps (State.hgEvents_keeps h7))

theorem ttSnoopTimeout_keeps {s0 a1 a2 a3} (k3 : Keeps s0 a3) : Keeps s0 (ttSnoopTimeout a1 a2 a3) := by
  unfold ttSnoopTimeout
  exact (ite_keeps (linkLoss_keeps k3) k3)

theorem subFail_keeps {s0 a1 a2} (k2 : Keeps s0 a2) : Keeps s0 (subFail a1 a2) := by
  unfold subFail
  extract_lets -merge +onlyGivenNames line1
  try clear_value line1
  extract_lets -merge +onlyGivenNames s2
  have h2 : Keeps s0 s2 := (setSubState_keeps k2)
  clear_value s2
  exact (ite_keeps (linkLoss_keeps h2) h2)

theorem ttTrain_keeps {s0 a1} (k1 : Keeps s0 a1) : Keeps s0 (ttTrain a1) := by
  unfold ttTrain
  extract_lets -merge +onlyGivenNames s1
  have h1 : Keeps s0 s1 := (ite_keeps (linkLoss_keeps k1) k1)
  clear_value s1
  extract_lets -merge +onlyGivenNames s2
  have h2 : Keeps s0 s2 := (State.setFlag_keeps h1)
  clear_value s2
  exact (upto_keeps (P := Keeps s0) (fun _ _ h3 => (setSubState_keeps (State.setSub_keeps h3))) h2)

theorem ttDown_keeps {s0 a1} (k1 : Keeps s0 a1) : Keeps s0 (ttDown a1) := by
  unfold ttDown
  extract_lets -merge +onlyGivenNames s1
  have h1 : Keeps s0 s1 := (upto_keeps (P := Keeps s0) (fun _ _ h2 => (setSubState_keeps h2)) k1)
  clear_value s1
  extract_lets -merge +onlyGivenNames live3
  try clear_value live3
  extract_lets -merge +onlyGivenNames s4
  have h4 : Keeps s0 s4 := (by exact Keeps.same h1 rfl rfl rfl rfl rfl rfl rfl rfl)
  clear_value s4
  exact (wake_keeps (each_keeps (P := Keeps s0) (fun _ _ h5 => (cwFail_keeps (State.countSat_keeps h5))) h4))

theorem sublinkLocked_keeps {s0 a1 a2} (k2 : Keeps s0 a2) : Keeps s0 (sublinkLocked a1 a2) := by
  unfold sublinkLocked
  exact (ite_keeps (State.modSub_keeps k2) k2)

theorem sublinkTrainTimeout_keeps {s0 a1 a2} (k2 : Keeps s0 a2) : Keeps s0 (sublinkTrainTimeout a1 a2) := by
  unfold sublinkTrainTimeout
  exact (ite_keeps (subFail_keeps k2) k2)

theorem flitBad_keeps {s0 a1 a2} (k2 : Keeps s0 a2) : Keeps s0 (flitBad a1 a2) := by
  unfold flitBad
  exact (State.countSat_keeps k2)

theorem takeFlit_keeps {s0 a1 a2 a3} (k3 : Keeps s0 a3) : Keeps s0 (takeFlit a1 a2 a3) := by
  unfold takeFlit
  extract_lets -merge +onlyGivenNames t1
  try clear_value t1
  extract_lets -merge +onlyGivenNames d2
  try clear_value d2
  extract_lets -merge +onlyGivenNames n3
  try clear_value n3
  extract_lets -merge +onlyGivenNames cr4
  try clear_value cr4
  exact (pump_keeps (State.setSub_keeps k3))

theorem idleFlit_keeps {s0 a1 a2 a3} (k3 : Keeps s0 a3) : Keeps s0 (idleFlit a1 a2 a3) := by
  unfold idleFlit
  extract_lets -merge +onlyGivenNames st1
  try clear_value st1
  exact (ite_keeps k3 (ite_keeps (flitBad_keeps k3) (ite_keeps (takeFlit_keeps k3) (ite_keeps (takeFlit_keeps (setSubState_keeps (State.modSub_keeps k3))) k3))))

theorem msgFlit_keeps {s0 a1 a2 a3} (k3 : Keeps s0 a3) : Keeps s0 (msgFlit a1 a2 a3) := by
  unfold msgFlit
  exact (ite_keeps k3 (ite_keeps (flitBad_keeps k3) (by
      extract_lets -merge +onlyGivenNames s1
      have h1 : Keeps s0 s1 := (takeFlit_keeps (State.modSub_keeps k3))
      clear_value s1
      extract_lets -merge +onlyGivenNames bad2
      try clear_value bad2
      exact (ite_keeps (ttProto_keeps (State.modSub_keeps h1)) (by exact Keeps.same h1 rfl rfl rfl rfl rfl rfl rfl rfl)))))

theorem nakFlit_keeps {s0 a1 a2 a3} (k3 : Keeps s0 a3) : Keeps s0 (nakFlit a1 a2 a3) := by
  unfold nakFlit
  exact (ite_keeps k3 (ite_keeps (flitBad_keeps k3) (by
      extract_lets -merge +onlyGivenNames s1
      have h1 : Keeps s0 s1 := (takeFlit_keeps k3)
      clear_value s1
      extract_lets -merge +onlyGivenNames t2
      try clear_value t2
      exact (ite_keeps h1 (ite_keeps (by
          extract_lets -merge +onlyGivenNames s3
          have h3 : Keeps s0 s3 := (State.countSat_keeps h1)
          clear_value s3
          exact (setSubState_keeps (State.setSub_keeps h3))) (State.setSub_keeps h1))))))

theorem steerFlit_keeps {s0 a1 a2 a3} (k3 : Keeps s0 a3) : Keeps s0 (steerFlit a1 a2 a3) := by
  unfold steerFlit
  exact (ite_keeps k3 (ite_keeps (flitBad_keeps k3) (by
      extract_lets -merge +onlyGivenNames s1
      have h1 : Keeps s0 s1 := (takeFlit_keeps (State.modSub_keeps k3))
      clear_value s1
      extract_lets -merge +onlyGivenNames w2
      try clear_value w2
      exact (ite_keeps (ttProto_keeps h1) (wake_keeps (State.setFld_keeps (State.modSub_keeps h1)))))))

theorem takeMsg_keeps {s0 a1 a2 a3} (k3 : Keeps s0 a3) : Keeps s0 (takeMsg a1 a2 a3) := by
  unfold takeMsg
  exact (State.modSub_keeps (by exact Keeps.same k3 rfl rfl rfl rfl rfl rfl rfl rfl))

theorem onMsg_keeps {s0 a1 a2 a3 a4 a5 a6} (k5 : ∀ z1, Keeps s0 z1 → Keeps s0 (a5 z1)) (k6 : Keeps s0 a6) : Keeps s0 (onMsg a1 a2 a3 a4 a5 a6) := by
  unfold onMsg
  exact (ite_keeps (k5 _ k6) k6)

theorem ttReply_keeps {s0 a1 a2 a3 a4 a5 a6 a7 a8} (k8 : Keeps s0 a8) : Keeps s0 (ttReply a1 a2 a3 a4 a5 a6 a7 a8) := by
  unfold ttReply
  exact (ttSend_keeps k8)

theorem ttRefuse_keeps {s0 a1 a2 a3} (k3 : Keeps s0 a3) : Keeps s0 (ttRefuse a1 a2 a3) := by
  unfold ttRefuse
  extract_lets -merge +onlyGivenNames s1
  have h1 : Keeps s0 s1 := (State.setFld_keeps (State.countSat_keeps k3))
  clear_value s1
  exact (ttReply_keeps (takeMsg_keeps h1))

theorem ttChecked_keeps {s0 a1 a2 a3 a4 a5 a6} (k5 : ∀ z1, Keeps s0 z1 → Keeps s0 (a5 z1)) (k6 : Keeps s0 a6) : Keeps s0 (ttChecked a1 a2 a3 a4 a5 a6) := by
  unfold ttChecked
  extract_lets -merge +onlyGivenNames e1
  try clear_value e1
  extract_lets -merge +onlyGivenNames s2
  have h2 : Keeps s0 s2 := (ite_keeps (touchEc_keeps k6) k6)
  clear_value s2
  exact (ite_keeps (k5 _ h2) (ttRefuse_keeps h2))

theorem setFilter_keeps {s0 a1 a2 a3} (k3 : Keeps s0 a3) : Keeps s0 (setFilter a1 a2 a3) := by
  unfold setFilter
  extract_lets -merge +onlyGivenNames n1
  try clear_value n1
  extract_lets -merge +onlyGivenNames x2
  try clear_value x2
  split
  · exact (State.setSlice_keeps k3)
  · exact (State.setSlice_keeps k3)

theorem backInv_keeps {s0 a1 a2 a3} (k3 : Keeps s0 a3) : Keeps s0 (backInv a1 a2 a3) := by
  unfold backInv
  extract_lets -merge +onlyGivenNames n1
  try clear_value n1
  extract_lets -merge +onlyGivenNames l2
  try clear_value l2
  exact (ite_keeps k3 (by
      split
      · exact (snoop_keeps k3)
      · exact k3))

theorem homePrep_keeps {s0 a1 a2 a3} (k3 : Keeps s0 a3) : Keeps s0 (homePrep a1 a2 a3) := by
  unfold homePrep
  extract_lets -merge +onlyGivenNames f1
  try clear_value f1
  exact (ite_keeps (wantCopy_keeps k3) k3)

theorem ttRead_keeps {s0 a1 a2 a3 a4 a5} (k4 : ∀ z1, Keeps s0 z1 → Keeps s0 (a4 z1)) (k5 : Keeps s0 a5) : Keeps s0 (ttRead a1 a2 a3 a4 a5) := by
  unfold ttRead
  extract_lets -merge +onlyGivenNames s1
  have h1 : Keeps s0 s1 := (takeMsg_keeps k5)
  clear_value s1
  split
  · rename_i y2 y3 y4 e5
    have h4 : Keeps s0 y4 := (KP.get (KSnd.get (of_eq (P := KSnd (KP s0)) e5 (homeRead_keeps h1))))
    exact (ite_keeps (ttReply_keeps h4) (ttReply_keeps (k4 _ h4)))

theorem ttCache_keeps {s0 a1 a2 a3 a4} (k4 : Keeps s0 a4) : Keeps s0 (ttCache a1 a2 a3 a4) := by
  unfold ttCache
  exact (ttChecked_keeps (fun _ h1 => (ite_keeps (ttProto_keeps (takeMsg_keeps h1)) (ite_keeps h1 (ite_keeps (backInv_keeps h1) (ttRead_keeps (fun _ h2 => (setFilter_keeps h2)) h1))))) k4)

theorem rdShared_keeps {s0 a1 a2 a3} (k3 : Keeps s0 a3) : Keeps s0 (rdShared a1 a2 a3) := by
  unfold rdShared
  exact (onMsg_keeps (fun _ h1 => (ttCache_keeps h1)) k3)

theorem rdOwn_keeps {s0 a1 a2 a3} (k3 : Keeps s0 a3) : Keeps s0 (rdOwn a1 a2 a3) := by
  unfold rdOwn
  exact (onMsg_keeps (fun _ h1 => (ttCache_keeps h1)) k3)

theorem rdCur_keeps {s0 k m s} (h : Keeps s0 s) : Keeps s0 (rdCur k m s) := by
  unfold rdCur
  exact onMsg_keeps (fun _ h1 => ttChecked_keeps (fun _ h2 => ite_keeps h2 (ttRead_keeps (fun _ h => h) h2)) h1) h

theorem upgrade_keeps {s0 a1 a2 a3} (k3 : Keeps s0 a3) : Keeps s0 (upgrade a1 a2 a3) := by
  unfold upgrade
  exact (onMsg_keeps (fun _ h1 => (ite_keeps (ttCache_keeps h1) (ttChecked_keeps (fun _ h2 => (ite_keeps h2 (ttReply_keeps (setFilter_keeps (takeMsg_keeps h2))))) h1))) k3)

theorem evictReq_keeps {s0 a1 a2 a3} (k3 : Keeps s0 a3) : Keeps s0 (evictReq a1 a2 a3) := by
  unfold evictReq
  exact (onMsg_keeps (fun _ h1 => (ttChecked_keeps (fun _ h2 => (by
      extract_lets -merge +onlyGivenNames s3
      have h3 : Keeps s0 s3 := (takeMsg_keeps h2)
      clear_value s3
      extract_lets -merge +onlyGivenNames s4
      have h4 : Keeps s0 s4 := (ite_keeps h3 (setFilter_keeps h3))
      clear_value s4
      exact (ttReply_keeps h4))) h1)) k3)

theorem ttWrite_keeps {s0 a1 a2 a3} (k3 : Keeps s0 a3) : Keeps s0 (ttWrite a1 a2 a3) := by
  unfold ttWrite
  exact (ttChecked_keeps (fun _ h1 => (ite_keeps (homePrep_keeps h1) (by
      extract_lets -merge +onlyGivenNames s2
      have h2 : Keeps s0 s2 := (setFilter_keeps (takeMsg_keeps h1))
      clear_value s2
      exact (ttReply_keeps (homeWrite_keeps h2))))) k3)

theorem wrLine_keeps {s0 a1 a2 a3} (k3 : Keeps s0 a3) : Keeps s0 (wrLine a1 a2 a3) := by
  unfold wrLine
  exact (onMsg_keeps (fun _ h1 => (ttWrite_keeps h1)) k3)

theorem wrPart_keeps {s0 a1 a2 a3} (k3 : Keeps s0 a3) : Keeps s0 (wrPart a1 a2 a3) := by
  unfold wrPart
  exact (onMsg_keeps (fun _ h1 => (ttWrite_keeps h1)) k3)

theorem returned_keeps {s0 a1 a2 a3} (k3 : Keeps s0 a3) : Keeps s0 (returned a1 a2 a3) := by
  unfold returned
  exact (homeWrite_keeps k3)

theorem wrBack_keeps {s0 a1 a2 a3} (k3 : Keeps s0 a3) : Keeps s0 (wrBack a1 a2 a3) := by
  unfold wrBack
  exact (onMsg_keeps (fun _ h1 => (by
      split
      · extract_lets -merge +onlyGivenNames s2
        have h2 : Keeps s0 s2 := (setFilter_keeps (returned_keeps (takeMsg_keeps (by exact Keeps.same h1 rfl rfl rfl rfl rfl rfl rfl rfl))))
        clear_value s2
        exact (wake_keeps (ttReply_keeps h2))
      · exact (ite_keeps h1 (ite_keeps (ttProto_keeps (takeMsg_keeps h1)) (ttChecked_keeps (fun _ h3 => (ite_keeps (homePrep_keeps h3) (ttReply_keeps (setFilter_keeps (returned_keeps (takeMsg_keeps h3)))))) h1))))) k3)

theorem snooped_keeps {s0 a1 a2 a3 a4} (k4 : Keeps s0 a4) : Keeps s0 (snooped a1 a2 a3 a4) := by
  unfold snooped
  extract_lets -merge +onlyGivenNames line1
  try clear_value line1
  extract_lets -merge +onlyGivenNames n2
  try clear_value n2
  extract_lets -merge +onlyGivenNames x3
  try clear_value x3
  extract_lets -merge +onlyGivenNames out4
  try clear_value out4
  extract_lets -merge +onlyGivenNames op5
  try clear_value op5
  exact (ite_keeps k4 (by
      extract_lets -merge +onlyGivenNames s6
      have h6 : Keeps s0 s6 := (takeMsg_keeps k4)
      clear_value s6
      extract_lets -merge +onlyGivenNames drop7
      have h7 : ∀ z1, Keeps s0 z1 → Keeps s0 (drop7 z1) := (fun _ h8 => (State.setSlice_keeps h8))
      clear_value drop7
      exact (ite_keeps (ttReply_keeps h6) (ite_keeps (ttReply_keeps h6) (by
          split
          · exact (ttReply_keeps h6)
          · extract_lets -merge +onlyGivenNames s9
            have h9 : Keeps s0 s9 := (ite_keeps (h7 _ h6) (State.setSlice_keeps h6))
            clear_value s9
            extract_lets -merge +onlyGivenNames left10
            try clear_value left10
            exact (ite_keeps (ttReply_keeps h9) (ttReply_keeps h9)))))))

theorem snpData_keeps {s0 a1 a2 a3} (k3 : Keeps s0 a3) : Keeps s0 (snpData a1 a2 a3) := by
  unfold snpData
  exact (onMsg_keeps (fun _ h1 => (snooped_keeps h1)) k3)

theorem snpInv_keeps {s0 a1 a2 a3} (k3 : Keeps s0 a3) : Keeps s0 (snpInv a1 a2 a3) := by
  unfold snpInv
  exact (onMsg_keeps (fun _ h1 => (snooped_keeps h1)) k3)

theorem onReply_keeps {s0 a1 a2 a3 a4 a5} (k4 : ∀ z1 z2, Keeps s0 z2 → Keeps s0 (a4 z1 z2)) (k5 : Keeps s0 a5) : Keeps s0 (onReply a1 a2 a3 a4 a5) := by
  unfold onReply
  extract_lets -merge +onlyGivenNames s1
  have h1 : Keeps s0 s1 := (takeMsg_keeps k5)
  clear_value s1
  split
  · exact (ttProto_keeps h1)
  · exact (ite_keeps (wake_keeps (dropCw_keeps (State.countSat_keeps h1))) (ite_keeps (ttProto_keeps h1) (wake_keeps (k4 _ _ (dropCw_keeps h1)))))

theorem ttWrAck_keeps {s0 a1 a2 a3} (k3 : Keeps s0 a3) : Keeps s0 (ttWrAck a1 a2 a3) := by
  unfold ttWrAck
  exact (onMsg_keeps (fun _ h1 => (onReply_keeps (fun _ _ h2 => (by
      split
      · exact (State.send_keeps h2)
      · exact h2)) h1)) k3)

theorem grant_keeps {s0 a1 a2 a3} (k3 : Keeps s0 a3) : Keeps s0 (grant a1 a2 a3) := by
  unfold grant
  exact (onMsg_keeps (fun _ h1 => (onReply_keeps (fun _ _ h2 => (by
      extract_lets -merge +onlyGivenNames x3
      try clear_value x3
      split
      · exact (State.setSlice_keeps h2)
      · exact h2)) h1)) k3)

theorem evictAck_keeps {s0 a1 a2 a3} (k3 : Keeps s0 a3) : Keeps s0 (evictAck a1 a2 a3) := by
  unfold evictAck
  exact (onMsg_keeps (fun _ h1 => (onReply_keeps (fun _ _ h2 => h2) h1)) k3)

theorem ttErr_keeps {s0 a1 a2 a3} (k3 : Keeps s0 a3) : Keeps s0 (ttErr a1 a2 a3) := by
  unfold ttErr
  exact (onMsg_keeps (fun _ h1 => (onReply_keeps (fun _ _ h2 => (cwFail_keeps h2)) h1)) k3)

theorem ttRdData_keeps {s0 a1 a2 a3} (k3 : Keeps s0 a3) : Keeps s0 (ttRdData a1 a2 a3) := by
  unfold ttRdData
  exact (onMsg_keeps (fun _ h1 => (onReply_keeps (fun _ _ h2 => (ite_keeps (by exact Keeps.same h2 rfl rfl rfl rfl rfl rfl rfl rfl) (by
      extract_lets -merge +onlyGivenNames s3
      have h3 : Keeps s0 s3 := (ite_keeps h2 (fill_keeps h2))
      clear_value s3
      extract_lets -merge +onlyGivenNames x4
      try clear_value x4
      exact (State.setSlice_keeps h3)))) h1)) k3)

theorem onSnoop_keeps {s0 a1 a2 a3 a4} (k3 : ∀ z1 z2, Keeps s0 z2 → Keeps s0 (a3 z1 z2)) (k4 : Keeps s0 a4) : Keeps s0 (onSnoop a1 a2 a3 a4) := by
  unfold onSnoop
  extract_lets -merge +onlyGivenNames s1
  have h1 : Keeps s0 s1 := (takeMsg_keeps k4)
  clear_value s1
  split
  · exact (ttProto_keeps h1)
  · exact (k3 _ _ h1)

theorem snpAck_keeps {s0 a1 a2 a3} (k3 : Keeps s0 a3) : Keeps s0 (snpAck a1 a2 a3) := by
  unfold snpAck
  exact (onMsg_keeps (fun _ h1 => (onSnoop_keeps (fun _ _ h2 => (ite_keeps (by exact Keeps.same h2 rfl rfl rfl rfl rfl rfl rfl rfl) (by
      extract_lets -merge +onlyGivenNames s3
      have h3 : Keeps s0 s3 := (by exact Keeps.same h2 rfl rfl rfl rfl rfl rfl rfl rfl)
      clear_value s3
      exact (wake_keeps (setFilter_keeps h3))))) h1)) k3)

theorem snpDataRsp_keeps {s0 a1 a2 a3} (k3 : Keeps s0 a3) : Keeps s0 (snpDataRsp a1 a2 a3) := by
  unfold snpDataRsp
  exact (onMsg_keeps (fun _ h1 => (onSnoop_keeps (fun _ _ h2 => (by
      extract_lets -merge +onlyGivenNames s3
      have h3 : Keeps s0 s3 := (returned_keeps (by exact Keeps.same h2 rfl rfl rfl rfl rfl rfl rfl rfl))
      clear_value s3
      exact (wake_keeps (setFilter_keeps h3)))) h1)) k3)

theorem ttStray_keeps {s0 a1 a2 a3 a4} (k4 : Keeps s0 a4) : Keeps s0 (ttStray a1 a2 a3 a4) := by
  unfold ttStray
  exact (onMsg_keeps (fun _ h1 => (ttProto_keeps (takeMsg_keeps h1))) k4)

theorem opTtMsi_keeps {s0 a1 a2 a3 a4} (k4 : Keeps s0 a4) : Keeps s0 (opTtMsi a1 a2 a3 a4) := by
  unfold opTtMsi
  exact (regWrite_keeps (fun _ h1 => (by
      extract_lets -merge +onlyGivenNames w2
      try clear_value w2
      exact (ite_keeps (ttProto_keeps h1) (ttMsi_keeps h1)))) k4)

theorem opTtCw_keeps {s0 a1 a2 a3 a4 a5} (k5 : Keeps s0 a5) : Keeps s0 (opTtCw a1 a2 a3 a4 a5) := by
  unfold opTtCw
  extract_lets -merge +onlyGivenNames a1
  try clear_value a1
  exact (regWrite_keeps (fun _ h2 => (typedWrite_keeps h2)) k5)

theorem opMbCtl_keeps {s0 a1 a2 a3 a4} (k4 : Keeps s0 a4) : Keeps s0 (opMbCtl a1 a2 a3 a4) := by
  unfold opMbCtl
  exact (regWrite_keeps (fun _ h1 => (by
      extract_lets -merge +onlyGivenNames s2
      have h2 : Keeps s0 s2 := (typedWrite_keeps h1)
      clear_value s2
      extract_lets -merge +onlyGivenNames s3
      have h3 : Keeps s0 s3 := (ite_keeps (State.hgEvent_keeps (State.setFlag_keeps h2)) h2)
      clear_value s3
      exact (ite_keeps (ttMsi_keeps (State.setFlag_keeps h3)) h3))) k4)

theorem mbInDoor_keeps {s0 a1 a2} (k2 : Keeps s0 a2) : Keeps s0 (mbInDoor a1 a2) := by
  unfold mbInDoor
  exact (opMbCtl_keeps k2)

theorem mbOutDoor_keeps {s0 a1 a2} (k2 : Keeps s0 a2) : Keeps s0 (mbOutDoor a1 a2) := by
  unfold mbOutDoor
  exact (opMbCtl_keeps k2)

end Sys2Proof.Machine
end

