-- ==== Sys2Proof/Laws/KeepLogline.lean ====
section
/-! SUPPORT. What the operations of Machine/Logline.lean keep (Laws/Keeps.lean). -/

namespace Sys2Proof.Machine

theorem slotRead_keeps {s0 a1 a2 a3} (k3 : Keeps s0 a3) : KP s0 (slotRead a1 a2 a3) := by
  unfold slotRead
  split
  · exact (KP.mk k3)
  · split
    · rename_i y1 y2 e3
      have h2 : Keeps s0 y2 := (KP.get (KSnd.get (of_eq (P := KSnd (KP s0)) e3 (eReadV_keeps k3))))
      exact (KP.mk h2)
    · rename_i y4 y5 y6 e7
      have h6 : Keeps s0 y6 := (KP.get (KSnd.get (of_eq (P := KSnd (KP s0)) e7 (eReadV_keeps k3))))
      exact (KP.mk h6)

theorem commitCause_keeps {s0 a1 a2 a3} (k3 : Keeps s0 a3) : KP s0 (commitCause a1 a2 a3) := by
  unfold commitCause
  extract_lets -merge +onlyGivenNames last1
  try clear_value last1
  exact (ite_keeps (KP.mk k3) (ite_keeps (KP.mk k3) (ite_keeps (KP.mk k3) (ite_keeps (KP.mk k3) (by
      split
      · rename_i y2 e3
        have h2 : Keeps s0 y2 := (KP.get (of_eq (P := KP s0) e3 (slotRead_keeps k3)))
        exact (KP.mk h2)
      · rename_i y4 y5 e6
        have h5 : Keeps s0 y5 := (KP.get (of_eq (P := KP s0) e6 (slotRead_keeps k3)))
        exact (KP.mk h5))))))

theorem logCommit_keeps {s0 a1 a2 a3} (k3 : Keeps s0 a3) : Keeps s0 (logCommit a1 a2 a3) := by
  unfold logCommit
  split
  · rename_i y1 y2 e3
    have h2 : Keeps s0 y2 := (KP.get (of_eq (P := KP s0) e3 (commitCause_keeps k3)))
    exact (ite_keeps (by
        extract_lets -merge +onlyGivenNames s4
        have h4 : Keeps s0 s4 := (State.setReg_keeps h2)
        clear_value s4
        extract_lets -merge +onlyGivenNames x5
        try clear_value x5
        exact (State.setSnap_keeps h4)) (State.countSat_keeps (State.setFld_keeps h2)))

theorem opLogCommit_keeps {s0 a1 a2 a3 a4} (k4 : Keeps s0 a4) : Keeps s0 (opLogCommit a1 a2 a3 a4) := by
  unfold opLogCommit
  exact (regWrite_keeps (fun _ h1 => (logCommit_keeps h1)) k4)

theorem mirrorCompanion_keeps {s0 a1 a2} (k2 : Keeps s0 a2) : Keeps s0 (mirrorCompanion a1 a2) := by
  unfold mirrorCompanion
  extract_lets -merge +onlyGivenNames x1
  try clear_value x1
  split
  · exact k2
  · extract_lets -merge +onlyGivenNames pa2
    try clear_value pa2
    extract_lets -merge +onlyGivenNames busy3
    try clear_value busy3
    exact (ite_keeps (ite_keeps k2 (by
        split
        · exact (State.setSnap_keeps (State.setReg_keeps k2))
        · extract_lets -merge +onlyGivenNames x4
          have h4 : Keeps s0 x4 := (State.setSnap_keeps k2)
          clear_value x4
          exact (by exact Keeps.same h4 rfl rfl rfl rfl rfl rfl rfl rfl))) (ite_keeps k2 (ite_keeps (prepAll_keeps k2) (by
        split
        · rename_i y5 e6
          have h5 : Keeps s0 y5 := (KP.get (of_eq (P := KP s0) e6 (slotRead_keeps k2)))
          exact h5
        · rename_i y7 y8 e9
          have h8 : Keeps s0 y8 := (KP.get (of_eq (P := KP s0) e9 (slotRead_keeps k2)))
          exact (State.setSnap_keeps (engWrite_keeps h8))))))

theorem writeRec_keeps {s0 a1 a2 a3 a4 a5} (k5 : Keeps s0 a5) : Keeps s0 (writeRec a1 a2 a3 a4 a5) := by
  unfold writeRec
  split
  · exact k5
  · exact (eWriteV_keeps k5)

theorem unreserve_keeps {s0 a1 a2 a3} (k3 : Keeps s0 a3) : Keeps s0 (unreserve a1 a2 a3) := by
  unfold unreserve
  extract_lets -merge +onlyGivenNames e1
  try clear_value e1
  exact (ite_keeps (State.setLe_keeps k3) k3)

theorem clearTable_keeps {s0 a1 a2 a3} (k3 : Keeps s0 a3) : Keeps s0 (clearTable a1 a2 a3) := by
  unfold clearTable
  extract_lets -merge +onlyGivenNames n1
  try clear_value n1
  extract_lets -merge +onlyGivenNames s2
  have h2 : Keeps s0 s2 := (each_keeps (P := Keeps s0) (fun _ _ h3 => (ite_keeps h3 (unreserve_keeps h3))) k3)
  clear_value s2
  extract_lets -merge +onlyGivenNames s4
  have h4 : Keeps s0 s4 := (upto_keeps (P := Keeps s0) (fun _ _ h5 => (writeRec_keeps h5)) h2)
  clear_value s4
  extract_lets -merge +onlyGivenNames s6
  have h6 : Keeps s0 s6 := (State.setFld_keeps h4)
  clear_value s6
  extract_lets -merge +onlyGivenNames x7
  try clear_value x7
  exact (State.setSnap_keeps h6)

theorem snSet_keeps {s0 a1 a2 a3} (k3 : Keeps s0 a3) : Keeps s0 (snSet a1 a2 a3) := by
  unfold snSet
  exact (State.setFld_keeps k3)

theorem snTake_keeps {s0 a1 a2 a3} (k3 : Keeps s0 a3) : Keeps s0 (snTake a1 a2 a3) := by
  unfold snTake
  extract_lets -merge +onlyGivenNames first1
  try clear_value first1
  extract_lets -merge +onlyGivenNames s2
  have h2 : Keeps s0 s2 := (ite_keeps k3 (State.setFlag_keeps (State.setReg_keeps k3)))
  clear_value s2
  extract_lets -merge +onlyGivenNames s3
  have h3 : Keeps s0 s3 := (State.setReg_keeps (snSet_keeps h2))
  clear_value s3
  extract_lets -merge +onlyGivenNames s4
  have h4 : Keeps s0 s4 := (ite_keeps (State.setReg_keeps h3) h3)
  clear_value s4
  extract_lets -merge +onlyGivenNames s5
  have h5 : Keeps s0 s5 := (State.setFld_keeps (State.setFlag_keeps h4))
  clear_value s5
  exact (State.setSnap_keeps h5)

theorem snCommit_keeps {s0 a1 a2} (k2 : Keeps s0 a2) : Keeps s0 (snCommit a1 a2) := by
  unfold snCommit
  extract_lets -merge +onlyGivenNames o1
  try clear_value o1
  extract_lets -merge +onlyGivenNames s2
  have h2 : Keeps s0 s2 := (clearTable_keeps k2)
  clear_value s2
  extract_lets -merge +onlyGivenNames n3
  try clear_value n3
  extract_lets -merge +onlyGivenNames s4
  have h4 : Keeps s0 s4 := (State.setFld_keeps (State.setFld_keeps h2))
  clear_value s4
  extract_lets -merge +onlyGivenNames b5
  try clear_value b5
  extract_lets -merge +onlyGivenNames s6
  have h6 : Keeps s0 s6 := (State.setFlag_keeps (State.setFlag_keeps h4))
  clear_value s6
  extract_lets -merge +onlyGivenNames s7
  have h7 : Keeps s0 s7 := (State.setReg_keeps h6)
  clear_value s7
  exact (snSet_keeps (State.setFld_keeps h7))

theorem snDrop_keeps {s0 a1 a2} (k2 : Keeps s0 a2) : Keeps s0 (snDrop a1 a2) := by
  unfold snDrop
  extract_lets -merge +onlyGivenNames s1
  have h1 : Keeps s0 s1 := (clearTable_keeps k2)
  clear_value s1
  exact (snSet_keeps (State.setFlag_keeps h1))

theorem snRollback_keeps {s0 a1 a2 a3} (k3 : Keeps s0 a3) : Keeps s0 (snRollback a1 a2 a3) := by
  unfold snRollback
  exact (State.setSnap_keeps (State.setFlag_keeps k3))

theorem snRun_keeps {s0 a1 a2 a3 a4} (k4 : Keeps s0 a4) : Keeps s0 (snRun a1 a2 a3 a4) := by
  unfold snRun
  split
  · exact (snTake_keeps k4)
  · exact (snCommit_keeps k4)
  · exact (snDrop_keeps k4)
  · exact (snRollback_keeps k4)
  · exact (snRollback_keeps k4)

theorem opSnCmd_keeps {s0 a1 a2 a3 a4} (k4 : Keeps s0 a4) : Keeps s0 (opSnCmd a1 a2 a3 a4) := by
  unfold opSnCmd
  exact (regWrite_keeps (fun _ h1 => (ite_keeps h1 (by
      extract_lets -merge +onlyGivenNames x2
      try clear_value x2
      exact (ite_keeps (State.setSnap_keeps h1) (snRun_keeps h1))))) k4)

theorem snIdle_keeps {s0 a1 a2 a3} (k3 : Keeps s0 a3) : Keeps s0 (snIdle a1 a2 a3) := by
  induction a2 generalizing a1 a3 with
  | nil =>
    rw [snIdle.eq_1]
    exact (State.setSnap_keeps k3)
  | cons x r ih =>
    rw [snIdle.eq_2]
    exact (ite_keeps (State.setSnap_keeps k3) (ih (snRun_keeps k3)))

theorem snDone_keeps {s0 a1 a2} (k2 : Keeps s0 a2) : Keeps s0 (snDone a1 a2) := by
  unfold snDone
  exact (snIdle_keeps (State.setFlag_keeps k2))

theorem snapshotSweepEnd_keeps {s0 a1 a2} (k2 : Keeps s0 a2) : Keeps s0 (snapshotSweepEnd a1 a2) := by
  unfold snapshotSweepEnd
  exact (ite_keeps k2 (by
      extract_lets -merge +onlyGivenNames x1
      try clear_value x1
      extract_lets -merge +onlyGivenNames fs2
      try clear_value fs2
      extract_lets -merge +onlyGivenNames s3
      have h3 : Keeps s0 s3 := (each_keeps (P := Keeps s0) (fun _ _ h4 => (by
          extract_lets -merge +onlyGivenNames e5
          try clear_value e5
          exact (ite_keeps (State.setLe_keeps h4) h4))) k2)
      clear_value s3
      extract_lets -merge +onlyGivenNames s6
      have h6 : Keeps s0 s6 := (State.setFld_keeps (snSet_keeps h3))
      clear_value s6
      exact (snDone_keeps (State.setSnap_keeps h6))))

theorem snapshotCopyStart_keeps {s0 a1 a2 a3} (k3 : Keeps s0 a3) : Keeps s0 (snapshotCopyStart a1 a2 a3) := by
  unfold snapshotCopyStart
  extract_lets -merge +onlyGivenNames x1
  try clear_value x1
  extract_lets -merge +onlyGivenNames wr2
  try clear_value wr2
  exact (ite_keeps k3 (by
      extract_lets -merge +onlyGivenNames d3
      try clear_value d3
      extract_lets -merge +onlyGivenNames s4
      have h4 : Keeps s0 s4 := by
        unfold s4
        split
        · exact (ite_keeps (State.countSat_keeps k3) k3)
        · exact k3
      clear_value s4
      exact (State.setSnap_keeps h4)))

theorem appendRec_keeps {s0 a1 a2 a3 a4} (k4 : Keeps s0 a4) : Keeps s0 (appendRec a1 a2 a3 a4) := by
  unfold appendRec
  extract_lets -merge +onlyGivenNames n1
  try clear_value n1
  extract_lets -merge +onlyGivenNames s2
  have h2 : Keeps s0 s2 := (writeRec_keeps k4)
  clear_value s2
  exact (State.setFld_keeps h2)

theorem setBroken_keeps {s0 a1 a2 a3} (k3 : Keeps s0 a3) : Keeps s0 (setBroken a1 a2 a3) := by
  unfold setBroken
  exact (State.setFlag_keeps k3)

theorem copyRecord_keeps {s0 a1 a2 a3 a4 a5 a6} (k6 : Keeps s0 a6) : Keeps s0 (copyRecord a1 a2 a3 a4 a5 a6) := by
  unfold copyRecord
  extract_lets -merge +onlyGivenNames e1
  try clear_value e1
  extract_lets -merge +onlyGivenNames r2
  try clear_value r2
  split
  · extract_lets -merge +onlyGivenNames s3
    have h3 : Keeps s0 s3 := (appendRec_keeps k6)
    clear_value s3
    exact (ite_keeps (State.setLe_keeps h3) h3)
  · split
    · rename_i y4 y5 e6
      have h5 : Keeps s0 y5 := (KP.get (of_eq (P := KP s0) e6 (State.fresh_keeps k6)))
      exact (appendRec_keeps h5)

theorem snapshotCopyDone_keeps {s0 a1 a2 a3} (k3 : Keeps s0 a3) : Keeps s0 (snapshotCopyDone a1 a2 a3) := by
  unfold snapshotCopyDone
  extract_lets -merge +onlyGivenNames x1
  try clear_value x1
  split
  · exact k3
  · extract_lets -merge +onlyGivenNames va2
    try clear_value va2
    exact (ite_keeps (ePrepV_keeps k3) (ite_keeps (by
        split
        · exact (copyPrep_keeps k3)
        · exact k3) (by
        extract_lets -merge +onlyGivenNames good3
        try clear_value good3
        extract_lets -merge +onlyGivenNames s4
        have h4 : Keeps s0 s4 := by
          unfold s4
          split
          · exact (ite_keeps (each_keeps (P := Keeps s0) (fun _ _ h5 => (countShare_keeps h5)) (copyLines_keeps k3)) k3)
          · exact k3
        clear_value s4
        extract_lets -merge +onlyGivenNames s6
        have h6 : Keeps s0 s6 := by
          unfold s6
          split
          · extract_lets -merge +onlyGivenNames s7
            have h7 : Keeps s0 s7 := (copyRecord_keeps h4)
            clear_value s7
            exact (ite_keeps h7 (State.countSat_keeps (setBroken_keeps h7)))
          · exact h4
        clear_value s6
        extract_lets -merge +onlyGivenNames x8
        try clear_value x8
        extract_lets -merge +onlyGivenNames s9
        have h9 : Keeps s0 s9 := (State.setLe_keeps h6)
        clear_value s9
        extract_lets -merge +onlyGivenNames x10
        try clear_value x10
        extract_lets -merge +onlyGivenNames s11
        have h11 : Keeps s0 s11 := (State.setSnap_keeps h9)
        clear_value s11
        exact (wake_keeps (lgNext_keeps (lgResume_keeps h11))))))

theorem snapshotMigrate_keeps {s0 a1 a2 a3} (k3 : Keeps s0 a3) : Keeps s0 (snapshotMigrate a1 a2 a3) := by
  unfold snapshotMigrate
  extract_lets -merge +onlyGivenNames e1
  try clear_value e1
  exact (ite_keeps k3 (by
      split
      · exact (ite_keeps (ePrepV_keeps k3) (ite_keeps (copyPrep_keeps k3) (ite_keeps k3 (by
            extract_lets -merge +onlyGivenNames s2
            have h2 : Keeps s0 s2 := (each_keeps (P := Keeps s0) (fun _ _ h3 => (countShare_keeps h3)) (copyLines_keeps k3))
            clear_value s2
            extract_lets -merge +onlyGivenNames s4
            have h4 : Keeps s0 s4 := (writeRec_keeps h2)
            clear_value s4
            extract_lets -merge +onlyGivenNames x5
            try clear_value x5
            extract_lets -merge +onlyGivenNames s6
            have h6 : Keeps s0 s6 := (State.setLe_keeps h4)
            clear_value s6
            exact (State.setLe_keeps h6)))))
      · exact k3))

theorem rollTarget_keeps {s0 a1 a2 a3} (k3 : Keeps s0 a3) : KP s0 (rollTarget a1 a2 a3) := by
  unfold rollTarget
  split
  · exact (KP.mk k3)
  · exact (ite_keeps (KP.mk k3) (by
        split
        · exact (KP.mk k3)
        · exact (KP.mk (linkNew_keeps k3))))

theorem rollPage_keeps {s0 a1 a2 a3 a4} (k4 : Keeps s0 a4) : Keeps s0 (rollPage a1 a2 a3 a4) := by
  unfold rollPage
  split
  · rename_i y1 e2
    have h1 : Keeps s0 y1 := (KP.get (of_eq (P := KP s0) e2 (rollTarget_keeps k4)))
    exact (setBroken_keeps h1)
  · rename_i y3 y4 e5
    have h4 : Keeps s0 y4 := (KP.get (of_eq (P := KP s0) e5 (rollTarget_keeps k4)))
    exact (ite_keeps (setBroken_keeps h4) (by
        extract_lets -merge +onlyGivenNames s6
        have h6 : Keeps s0 s6 := (each_keeps (P := Keeps s0) (fun _ _ h7 => (countShare_keeps h7)) (copyLines_keeps h4))
        clear_value s6
        extract_lets -merge +onlyGivenNames x8
        try clear_value x8
        extract_lets -merge +onlyGivenNames s9
        have h9 : Keeps s0 s9 := (State.setLe_keeps h6)
        clear_value s9
        exact (ite_keeps (unreserve_keeps h9) h9)))

theorem rollbackDone_keeps {s0 a1 a2} (k2 : Keeps s0 a2) : Keeps s0 (rollbackDone a1 a2) := by
  unfold rollbackDone
  split
  · exact k2
  · extract_lets -merge +onlyGivenNames plan1
    try clear_value plan1
    exact (ite_keeps (each_keeps (P := Keeps s0) (fun _ _ h2 => (by
        split
        · exact (copyPrep_keeps h2)
        · exact h2)) k2) (by
        extract_lets -merge +onlyGivenNames o3
        try clear_value o3
        extract_lets -merge +onlyGivenNames s4
        have h4 : Keeps s0 s4 := (each_keeps (P := Keeps s0) (fun _ _ h5 => (rollPage_keeps h5)) k2)
        clear_value s4
        extract_lets -merge +onlyGivenNames s6
        have h6 : Keeps s0 s6 := (ite_keeps (snDrop_keeps h4) h4)
        clear_value s6
        exact (wake_keeps (snDone_keeps (State.setSnap_keeps h6)))))

theorem opSnCtl_keeps {s0 a1 a2 a3 a4} (k4 : Keeps s0 a4) : Keeps s0 (opSnCtl a1 a2 a3 a4) := by
  unfold opSnCtl
  extract_lets -merge +onlyGivenNames n1
  try clear_value n1
  exact (regWrite_keeps (fun _ h2 => (typedWrite_keeps h2)) k4)

theorem opSnGuarded_keeps {s0 a1 a2 a3 a4 a5} (k5 : Keeps s0 a5) : Keeps s0 (opSnGuarded a1 a2 a3 a4 a5) := by
  unfold opSnGuarded
  extract_lets -merge +onlyGivenNames l1
  try clear_value l1
  exact (regWrite_keeps (fun _ h2 => (typedWrite_keeps h2)) k5)

end Sys2Proof.Machine
end

