-- ==== Sys2Proof/Laws/KeepProtect.lean ====
section
/-! SUPPORT. What the operations of Machine/Protect.lean keep (Laws/Keeps.lean). -/

namespace Sys2Proof.Machine

theorem bgSpend_keeps {s0 a1 a2 a3} (k3 : Keeps s0 a3) : Keeps s0 (bgSpend a1 a2 a3) := by
  unfold bgSpend
  exact (by exact Keeps.same k3 rfl rfl rfl rfl rfl rfl rfl rfl)

theorem bgWait_keeps {s0 a1 a2} (k2 : Keeps s0 a2) : Keeps s0 (bgWait a1 a2) := by
  unfold bgWait
  exact (by exact Keeps.same k2 rfl rfl rfl rfl rfl rfl rfl rfl)

theorem onLink_keeps {s0 a1 a2 a3 a4 a5} (k4 : ∀ z1, Keeps s0 z1 → Keeps s0 (a4 z1)) (k5 : Keeps s0 a5) : Keeps s0 (onLink a1 a2 a3 a4 a5) := by
  unfold onLink
  exact (ite_keeps (bgWait_keeps k5) (k4 _ (bgSpend_keeps k5)))

theorem bgWindowEnd_keeps {s0 a1 a2} (k2 : Keeps s0 a2) : Keeps s0 (bgWindowEnd a1 a2) := by
  unfold bgWindowEnd
  extract_lets -merge +onlyGivenNames mine1
  try clear_value mine1
  extract_lets -merge +onlyGivenNames links2
  try clear_value links2
  extract_lets -merge +onlyGivenNames last3
  try clear_value last3
  extract_lets -merge +onlyGivenNames peak4
  try clear_value peak4
  extract_lets -merge +onlyGivenNames d5
  try clear_value d5
  extract_lets -merge +onlyGivenNames s6
  have h6 : Keeps s0 s6 := (State.setFld_keeps k2)
  clear_value s6
  extract_lets -merge +onlyGivenNames s7
  have h7 : Keeps s0 s7 := (State.setFld_keeps h6)
  clear_value s7
  extract_lets -merge +onlyGivenNames s8
  have h8 : Keeps s0 s8 := (ite_keeps (State.setReg_keeps h7) h7)
  clear_value s8
  extract_lets -merge +onlyGivenNames s9
  have h9 : Keeps s0 s9 := (ite_keeps (State.setReg_keeps h8) h8)
  clear_value s9
  exact (by exact Keeps.same h9 rfl rfl rfl rfl rfl rfl rfl rfl)

theorem recalStart_keeps {s0 a1 a2 a3} (k3 : Keeps s0 a3) : Keeps s0 (recalStart a1 a2 a3) := by
  unfold recalStart
  exact (ite_keeps k3 (ite_keeps (bgWait_keeps k3) (by
      extract_lets -merge +onlyGivenNames ch1
      try clear_value ch1
      extract_lets -merge +onlyGivenNames x2
      have h2 : Keeps s0 x2 := (bgSpend_keeps k3)
      clear_value x2
      exact (by exact Keeps.same h2 rfl rfl rfl rfl rfl rfl rfl rfl))))

theorem recalEnd_keeps {s0 a1 a2} (k2 : Keeps s0 a2) : Keeps s0 (recalEnd a1 a2) := by
  unfold recalEnd
  exact (wake_keeps (by exact Keeps.same k2 rfl rfl rfl rfl rfl rfl rfl rfl))

theorem drgCount_keeps {s0 a1 a2 a3} (k3 : Keeps s0 a3) : Keeps s0 (drgCount a1 a2 a3) := by
  unfold drgCount
  exact (ite_keeps k3 (ite_keeps (State.countSat_keeps k3) (State.countSat_keeps k3)))

theorem drgAdvance_keeps {s0 a1 a2} (k2 : Keeps s0 a2) : Keeps s0 (drgAdvance a1 a2) := by
  unfold drgAdvance
  split
  · extract_lets -merge +onlyGivenNames now1
    try clear_value now1
    exact (ite_keeps (by
        extract_lets -merge +onlyGivenNames s2
        have h2 : Keeps s0 s2 := (by exact Keeps.same k2 rfl rfl rfl rfl rfl rfl rfl rfl)
        clear_value s2
        extract_lets -merge +onlyGivenNames l3
        try clear_value l3
        exact (ite_keeps h2 (ite_keeps (State.setFld_keeps h2) (State.setFld_keeps h2)))) (by
        extract_lets -merge +onlyGivenNames s4
        have h4 : Keeps s0 s4 := (by exact Keeps.same k2 rfl rfl rfl rfl rfl rfl rfl rfl)
        clear_value s4
        exact (ite_keeps (State.setReg_keeps h4) (ite_keeps (by
            extract_lets -merge +onlyGivenNames n5
            try clear_value n5
            exact (State.setFld_keeps (State.countSat_keeps (State.setReg_keeps h4)))) (by
            extract_lets -merge +onlyGivenNames n6
            try clear_value n6
            exact (State.setFld_keeps (State.countSat_keeps (State.setReg_keeps h4))))))))

theorem fixWord_keeps {s0 a1 a2} (k2 : Keeps s0 a2) : Keeps s0 (fixWord a1 a2) := by
  unfold fixWord
  extract_lets -merge +onlyGivenNames m1
  try clear_value m1
  exact (ite_keeps k2 (by
      extract_lets -merge +onlyGivenNames bs2
      try clear_value bs2
      extract_lets -merge +onlyGivenNames s3
      have h3 : Keeps s0 s3 := (by exact Keeps.same k2 rfl rfl rfl rfl rfl rfl rfl rfl)
      clear_value s3
      exact (ite_keeps h3 (each_keeps (P := Keeps s0) (fun _ _ h4 => (State.setByte_keeps h4)) h3))))

theorem fixCore_keeps {s0 a1 a2 a3} (k3 : Keeps s0 a3) : Keeps s0 (fixCore a1 a2 a3) := by
  unfold fixCore
  extract_lets -merge +onlyGivenNames m1
  try clear_value m1
  exact (ite_keeps k3 (by
      extract_lets -merge +onlyGivenNames bs2
      try clear_value bs2
      extract_lets -merge +onlyGivenNames s3
      have h3 : Keeps s0 s3 := (State.modCore_keeps k3)
      clear_value s3
      exact (ite_keeps h3 (ite_keeps (spadPut_keeps h3) (by
          extract_lets -merge +onlyGivenNames line4
          try clear_value line4
          extract_lets -merge +onlyGivenNames w5
          try clear_value w5
          exact (State.modCore_keeps h3))))))

theorem logCore_keeps {s0 a1 a2 a3} (k3 : Keeps s0 a3) : Keeps s0 (logCore a1 a2 a3) := by
  unfold logCore
  extract_lets -merge +onlyGivenNames m1
  try clear_value m1
  exact (ite_keeps k3 (ite_keeps (logErr_keeps k3) (ite_keeps (logErr_keeps k3) k3)))

theorem drgCore_keeps {s0 a1 a2 a3} (k3 : Keeps s0 a3) : Keeps s0 (drgCore a1 a2 a3) := by
  unfold drgCore
  exact (each_keeps (P := Keeps s0) (fun _ _ h1 => (fixCore_keeps (logCore_keeps h1))) k3)

theorem drgSend_keeps {s0 a1 a2 a3 a4} (k4 : Keeps s0 a4) : Keeps s0 (drgSend a1 a2 a3 a4) := by
  unfold drgSend
  exact (by exact Keeps.same k4 rfl rfl rfl rfl rfl rfl rfl rfl)

theorem drgLine_keeps {s0 a1 a2 a3 a4 a5} (k5 : Keeps s0 a5) : Keeps s0 (drgLine a1 a2 a3 a4 a5) := by
  unfold drgLine
  extract_lets -merge +onlyGivenNames pa1
  try clear_value pa1
  extract_lets -merge +onlyGivenNames known2
  try clear_value known2
  split
  · exact (ite_keeps (by
        extract_lets -merge +onlyGivenNames old3
        try clear_value old3
        extract_lets -merge +onlyGivenNames s4
        have h4 : Keeps s0 s4 := (modLine_keeps k5)
        clear_value s4
        exact (logWord_keeps h4)) (ite_keeps (drgCount_keeps (logWord_keeps k5)) (ite_keeps (drgSend_keeps (logWord_keeps k5)) k5)))
  · exact (ite_keeps (by
        extract_lets -merge +onlyGivenNames s5
        have h5 : Keeps s0 s5 := (by exact Keeps.same k5 rfl rfl rfl rfl rfl rfl rfl rfl)
        clear_value s5
        exact (drgCount_keeps (logWord_keeps h5))) (ite_keeps (drgSend_keeps (logWord_keeps k5)) k5))

theorem drgSlice_keeps {s0 a1 a2 a3} (k3 : Keeps s0 a3) : Keeps s0 (drgSlice a1 a2 a3) := by
  unfold drgSlice
  extract_lets -merge +onlyGivenNames n1
  try clear_value n1
  extract_lets -merge +onlyGivenNames at'2
  try clear_value at'2
  split
  · exact k3
  · extract_lets -merge +onlyGivenNames ws3
    try clear_value ws3
    exact (ite_keeps k3 (ite_keeps (by
        extract_lets -merge +onlyGivenNames s4
        have h4 : Keeps s0 s4 := by
          unfold s4
          split
          · exact (drgCount_keeps (logErr_keeps k3))
          · exact k3
        clear_value s4
        exact (foundBad_keeps h4)) (ite_keeps (drgSend_keeps (logFixed_keeps k3)) k3)))

theorem dredgeScrub_keeps {s0 a1 a2 a3 a4 a5} (k5 : Keeps s0 a5) : Keeps s0 (dredgeScrub a1 a2 a3 a4 a5) := by
  unfold dredgeScrub
  exact (ite_keeps k5 (by
      extract_lets -merge +onlyGivenNames i1
      try clear_value i1
      exact (ite_keeps (drgAdvance_keeps (ite_keeps k5 (drgCore_keeps k5))) (ite_keeps (drgAdvance_keeps (drgSlice_keeps k5)) (by
          extract_lets -merge +onlyGivenNames line2
          try clear_value line2
          exact (ite_keeps (drgAdvance_keeps k5) (ite_keeps k5 (ite_keeps (bgWait_keeps k5) (drgAdvance_keeps (drgLine_keeps (bgSpend_keeps k5)))))))))))

theorem dredgeCorrection_keeps {s0 a1 a2 a3} (k3 : Keeps s0 a3) : Keeps s0 (dredgeCorrection a1 a2 a3) := by
  unfold dredgeCorrection
  split
  · exact k3
  · extract_lets -merge +onlyGivenNames dirty1
    try clear_value dirty1
    exact (ite_keeps (drgCount_keeps (by exact Keeps.same k3 rfl rfl rfl rfl rfl rfl rfl rfl)) (ite_keeps (bgWait_keeps k3) (by
        extract_lets -merge +onlyGivenNames x2
        have h2 : Keeps s0 x2 := (ite_keeps k3 (bgSpend_keeps k3))
        clear_value x2
        extract_lets -merge +onlyGivenNames s3
        have h3 : Keeps s0 s3 := (by exact Keeps.same h2 rfl rfl rfl rfl rfl rfl rfl rfl)
        clear_value s3
        extract_lets -merge +onlyGivenNames s4
        have h4 : Keeps s0 s4 := (ite_keeps (upto_keeps (P := Keeps s0) (fun _ _ h5 => (fixWord_keeps h5)) h3) h3)
        clear_value s4
        exact (drgCount_keeps h4))))

theorem tbtStart_keeps {s0 a1 a2} (k2 : Keeps s0 a2) : Keeps s0 (tbtStart a1 a2) := by
  unfold tbtStart
  extract_lets -merge +onlyGivenNames r1
  try clear_value r1
  exact (ite_keeps k2 (by exact Keeps.same k2 rfl rfl rfl rfl rfl rfl rfl rfl))

theorem tbtFault_keeps {s0 a1 a2 a3 a4} (k4 : Keeps s0 a4) : Keeps s0 (tbtFault a1 a2 a3 a4) := by
  unfold tbtFault
  extract_lets -merge +onlyGivenNames key1
  try clear_value key1
  extract_lets -merge +onlyGivenNames n2
  try clear_value n2
  extract_lets -merge +onlyGivenNames st3
  try clear_value st3
  exact (ite_keeps (State.countSat_keeps (logErr_keeps (by exact Keeps.same k4 rfl rfl rfl rfl rfl rfl rfl rfl))) (logErr_keeps k4))

theorem tbtRestore_keeps {s0 a1 a2 a3} (k3 : Keeps s0 a3) : Keeps s0 (tbtRestore a1 a2 a3) := by
  unfold tbtRestore
  exact (ite_keeps (each_keeps (P := Keeps s0) (fun _ _ h1 => (each_keeps (P := Keeps s0) (fun _ _ h2 => (fixCore_keeps (ite_keeps h2 (logCore_keeps h2)))) h1)) k3) (each_keeps (P := Keeps s0) (fun _ _ h3 => (upto_keeps (P := Keeps s0) (fun _ _ h4 => (fixWord_keeps h4)) (logFixed_keeps h3))) k3))

theorem tbtEnd_keeps {s0 a1 a2 a3} (k3 : Keeps s0 a3) : Keeps s0 (tbtEnd a1 a2 a3) := by
  unfold tbtEnd
  split
  · exact k3
  · extract_lets -merge +onlyGivenNames s1
    have h1 : Keeps s0 s1 := (each_keeps (P := Keeps s0) (fun _ _ h2 => (tbtFault_keeps h2)) k3)
    clear_value s1
    extract_lets -merge +onlyGivenNames s3
    have h3 : Keeps s0 s3 := (tbtRestore_keeps h1)
    clear_value s3
    extract_lets -merge +onlyGivenNames s4
    have h4 : Keeps s0 s4 := (State.setReg_keeps h3)
    clear_value s4
    exact (wake_keeps (by exact Keeps.same h4 rfl rfl rfl rfl rfl rfl rfl rfl))

theorem opBret_keeps {s0 a1 a2 a3 a4 a5} (k5 : Keeps s0 a5) : Keeps s0 (opBret a1 a2 a3 a4 a5) := by
  unfold opBret
  exact (regWrite_keeps (fun _ h1 => (typedWrite_keeps h1)) k5)

end Sys2Proof.Machine
end

