-- ==== Sys2Proof/Laws/KeepRestart.lean ====
section
/-! SUPPORT. What the operations of Machine/Restart.lean keep (Laws/Keeps.lean). -/

namespace Sys2Proof.Machine

theorem vaultWipe_keeps {s0 s} (h : Keeps s0 s) : Keeps s0 (vaultWipe s) := by
  unfold vaultWipe
  extract_lets -merge +onlyGivenNames s1
  have h1 : Keeps s0 s1 := State.setReg_keeps h
  clear_value s1
  extract_lets -merge +onlyGivenNames s2
  have h2 : Keeps s0 s2 := upto_keeps (P := Keeps s0) (fun _ _ k => State.modPort_keeps (State.setFld_keeps k)) h1
  clear_value s2
  extract_lets -merge +onlyGivenNames s3
  have h3 : Keeps s0 s3 := regsFilter_keeps h2
  clear_value s3
  extract_lets -merge +onlyGivenNames s4
  have h4 : Keeps s0 s4 := State.setFlag_keeps h3
  clear_value s4
  exact Keeps.same h4 rfl rfl rfl rfl rfl rfl rfl rfl

theorem bare_keeps {s0 s r} (h : Keeps s0 s) (hr : twf s.regs = true → twf r = true) : Keeps s0 (bare s r) := by
  refine h.trans ⟨rfl, fun _ => rfl, fun k => ?_, fun _ => rfl, fun _ => rfl, Nat.le_refl _, Nat.le_refl _⟩
  exact each_keeps (P := fun t : Tab Word => twf t = true) (f := fun (x : Nat × Word) t => tset x.1 x.2 t) (fun x t => twf_tset x.1 x.2) (hr k)

theorem coldReset_keeps {s0 s} (h : Keeps s0 s) : Keeps s0 (coldReset s) := by
  unfold coldReset
  refine spwCloseAll_keeps (upto_keeps (P := Keeps s0) (fun _ _ k => State.setReg_keeps (State.setPort_keeps k)) ?_)
  exact Keeps.memUpd (bare_keeps h (twf_filter _)) rfl rfl rfl rfl rfl (Nat.le_succ _) id

theorem warmReset_keeps {s0 s} (h : Keeps s0 s) : Keeps s0 (warmReset s) := by
  unfold warmReset
  refine ite_keeps h (spwCloseAll_keeps (State.setFlag_keeps ?_))
  refine h.trans ⟨rfl, id, fun k => ?_, fun k => twf_map _ k, id, Nat.le_refl _, Nat.le_refl _⟩
  exact (bare_keeps (Keeps.refl s) (twf_filter fun x => keepWarm x.1)).regs k

theorem opColdReset_keeps {s0 a1 a2 a3} (k3 : Keeps s0 a3) : Keeps s0 (opColdReset a1 a2 a3) := by
  unfold opColdReset
  exact (regWrite_keeps (fun _ h1 => (coldReset_keeps h1)) k3)

theorem opWarmReset_keeps {s0 a1 a2 a3} (k3 : Keeps s0 a3) : Keeps s0 (opWarmReset a1 a2 a3) := by
  unfold opWarmReset
  exact (regWrite_keeps (fun _ h1 => (warmReset_keeps h1)) k3)

theorem opHgReset_keeps {s0 a1 a2 a3 a4} (k4 : Keeps s0 a4) : Keeps s0 (opHgReset a1 a2 a3 a4) := by
  unfold opHgReset
  exact (ite_keeps (opColdReset_keeps k4) (ite_keeps (opWarmReset_keeps k4) (regWrite_keeps (fun _ h1 => h1) k4)))

theorem opTtCtl_keeps {s0 a1 a2 a3} (k3 : Keeps s0 a3) : Keeps s0 (opTtCtl a1 a2 a3) := by
  unfold opTtCtl
  exact (regWrite_keeps (fun _ h1 => (by
      extract_lets -merge +onlyGivenNames s2
      have h2 : Keeps s0 s2 := (typedWrite_keeps h1)
      clear_value s2
      exact (ite_keeps (warmReset_keeps h2) (ite_keeps (ttDown_keeps h2) (ite_keeps (ttTrain_keeps h2) h2))))) k3)

theorem opTtTrain_keeps {s0 a1 a2} (k2 : Keeps s0 a2) : Keeps s0 (opTtTrain a1 a2) := by
  unfold opTtTrain
  exact (opTtCtl_keeps k2)

theorem opTtDown_keeps {s0 a1 a2} (k2 : Keeps s0 a2) : Keeps s0 (opTtDown a1 a2) := by
  unfold opTtDown
  exact (opTtCtl_keeps k2)

theorem opTtWreset_keeps {s0 a1 a2} (k2 : Keeps s0 a2) : Keeps s0 (opTtWreset a1 a2) := by
  unfold opTtWreset
  exact (opTtCtl_keeps k2)

theorem modResetLow_keeps {s0 a1} (k1 : Keeps s0 a1) : Keeps s0 (modResetLow a1) := by
  unfold modResetLow
  exact (warmReset_keeps (by exact Keeps.same k1 rfl rfl rfl rfl rfl rfl rfl rfl))

theorem modResetHigh_keeps {s0 a1} (k1 : Keeps s0 a1) : Keeps s0 (modResetHigh a1) := by
  unfold modResetHigh
  exact (by exact Keeps.same k1 rfl rfl rfl rfl rfl rfl rfl rfl)

end Sys2Proof.Machine
end

