-- ==== Sys2Proof/Laws/KeepTrust.lean ====
section
/-! SUPPORT. What the operations of Machine/Trust.lean keep (Laws/Keeps.lean). -/

namespace Sys2Proof.Machine

theorem setReg256_keeps {s0 a1 a2 a3} (k3 : Keeps s0 a3) : Keeps s0 (setReg256 a1 a2 a3) := by
  unfold setReg256
  exact (upto_keeps (P := Keeps s0) (fun _ _ h1 => (State.setReg_keeps h1)) k3)

theorem stagePut_keeps {s0 a1 a2 a3} (k3 : Keeps s0 a3) : Keeps s0 (stagePut a1 a2 a3) := by
  unfold stagePut
  exact (upto_keeps (P := Keeps s0) (fun _ _ h1 => (State.setReg_keeps h1)) k3)

theorem calRead_keeps {s0 a1} (k1 : Keeps s0 a1) : Keeps s0 (calRead a1) := by
  unfold calRead
  extract_lets -merge +onlyGivenNames ok1
  try clear_value ok1
  extract_lets -merge +onlyGivenNames s2
  have h2 : Keeps s0 s2 := (State.setFlag_keeps k1)
  clear_value s2
  exact (ite_keeps (by exact Keeps.same h2 rfl rfl rfl rfl rfl rfl rfl rfl) h2)

theorem acceptLic_keeps {s0 a1 a2} (k2 : Keeps s0 a2) : Keeps s0 (acceptLic a1 a2) := by
  unfold acceptLic
  extract_lets -merge +onlyGivenNames l1
  try clear_value l1
  extract_lets -merge +onlyGivenNames ls2
  try clear_value ls2
  exact (by exact Keeps.same k2 rfl rfl rfl rfl rfl rfl rfl rfl)

theorem loadKey_keeps {s0 a1 a2 a3} (k3 : Keeps s0 a3) : Keeps s0 (loadKey a1 a2 a3) := by
  unfold loadKey
  exact (ite_keeps (State.setFld_keeps k3) (State.modPort_keeps k3))

theorem loadBlob_keeps {s0 a1 a2} (k2 : Keeps s0 a2) : Keeps s0 (loadBlob a1 a2) := by
  unfold loadBlob
  extract_lets -merge +onlyGivenNames o1
  try clear_value o1
  exact (upto_keeps (P := Keeps s0) (fun _ _ h2 => (ite_keeps (loadKey_keeps h2) h2)) k2)

theorem acceptBlob_keeps {s0 a1 a2} (k2 : Keeps s0 a2) : Keeps s0 (acceptBlob a1 a2) := by
  unfold acceptBlob
  exact (loadBlob_keeps (by exact Keeps.same k2 rfl rfl rfl rfl rfl rfl rfl rfl))

theorem extend_keeps {s0 a1 a2 a3} (k3 : Keeps s0 a3) : Keeps s0 (extend a1 a2 a3) := by
  unfold extend
  exact (setReg256_keeps k3)

theorem imagePass_keeps {s0 a1 a2} (k2 : Keeps s0 a2) : Keeps s0 (imagePass a1 a2) := by
  unfold imagePass
  extract_lets -merge +onlyGivenNames k1
  try clear_value k1
  exact (extend_keeps (by exact Keeps.same k2 rfl rfl rfl rfl rfl rfl rfl rfl))

theorem ckVerify_keeps {s0 a1} (k1 : Keeps s0 a1) : KP s0 (ckVerify a1) := by
  unfold ckVerify
  extract_lets -merge +onlyGivenNames pa1
  try clear_value pa1
  split
  · exact (KP.mk k1)
  · extract_lets -merge +onlyGivenNames c2
    try clear_value c2
    exact (KP.mk (ite_keeps (imagePass_keeps k1) k1))

theorem ckCommit_keeps {s0 a1 a2} (k2 : Keeps s0 a2) : KP s0 (ckCommit a1 a2) := by
  unfold ckCommit
  exact (ite_keeps (KP.mk k2) (by
      split
      · exact (KP.mk k2)
      · exact (KP.mk (State.setFld_keeps k2))))

theorem ckInstall_keeps {s0 a1} (k1 : Keeps s0 a1) : KP s0 (ckInstall a1) := by
  unfold ckInstall
  extract_lets -merge +onlyGivenNames s1
  have h1 : Keeps s0 s1 := (calRead_keeps k1)
  clear_value s1
  extract_lets -merge +onlyGivenNames b2
  try clear_value b2
  extract_lets -merge +onlyGivenNames o3
  try clear_value o3
  exact (ite_keeps (KP.mk h1) (ite_keeps (by
      extract_lets -merge +onlyGivenNames c4
      try clear_value c4
      exact (KP.mk (ite_keeps (acceptLic_keeps h1) h1))) (by
      extract_lets -merge +onlyGivenNames c5
      try clear_value c5
      exact (KP.mk (ite_keeps (acceptBlob_keeps h1) h1)))))

theorem signed_keeps {s0 a1 a2 a3} (k3 : Keeps s0 a3) : KP s0 (signed a1 a2 a3) := by
  unfold signed
  exact (KP.mk (by exact Keeps.freeUp k3 rfl rfl rfl rfl rfl rfl rfl (Nat.le_add_right _ _)))

theorem ckAttest_keeps {s0 a1} (k1 : Keeps s0 a1) : KP s0 (ckAttest a1) := by
  unfold ckAttest
  extract_lets -merge +onlyGivenNames lc1
  try clear_value lc1
  extract_lets -merge +onlyGivenNames s2
  have h2 : Keeps s0 s2 := (calRead_keeps k1)
  clear_value s2
  exact (ite_keeps (KP.mk h2) (by
      extract_lets -merge +onlyGivenNames x3
      try clear_value x3
      extract_lets -merge +onlyGivenNames s4
      have h4 : Keeps s0 s4 := (by exact Keeps.same h2 rfl rfl rfl rfl rfl rfl rfl rfl)
      clear_value s4
      extract_lets -merge +onlyGivenNames ls5
      try clear_value ls5
      extract_lets -merge +onlyGivenNames first6
      try clear_value first6
      extract_lets -merge +onlyGivenNames flags7
      try clear_value flags7
      extract_lets -merge +onlyGivenNames cal8
      try clear_value cal8
      extract_lets -merge +onlyGivenNames r9
      try clear_value r9
      split
      · rename_i y10 y11 e12
        have h11 : Keeps s0 y11 := (KP.get (of_eq (P := KP s0) e12 (ite_keeps (KP.mk h4) (signed_keeps h4))))
        exact (KP.mk (stagePut_keeps h11))))

theorem loseKey_keeps {s0 p s} (h : Keeps s0 s) : Keeps s0 (loseKey p s) :=
  h.memUpd rfl rfl rfl rfl rfl (Nat.le_succ _) (memWf_filter _ rfl fun _ k => k)

theorem ckMemkey_keeps {s0 p s} (h : Keeps s0 s) : KP s0 (ckMemkey p s) := by
  unfold ckMemkey
  exact ite_keeps (KP.mk h) (ite_keeps (KP.mk h) (KP.mk (State.setFld_keeps (loseKey_keeps h))))

theorem ckTransition_keeps {s0 a1 a2} (k2 : Keeps s0 a2) : KP s0 (ckTransition a1 a2) := by
  unfold ckTransition
  extract_lets -merge +onlyGivenNames s1
  have h1 : Keeps s0 s1 := (calRead_keeps k2)
  clear_value s1
  extract_lets -merge +onlyGivenNames c2
  try clear_value c2
  exact (ite_keeps (KP.mk h1) (by
      extract_lets -merge +onlyGivenNames owner3
      try clear_value owner3
      extract_lets -merge +onlyGivenNames s4
      have h4 : Keeps s0 s4 := (vaultWipe_keeps h1)
      clear_value s4
      extract_lets -merge +onlyGivenNames s5
      have h5 : Keeps s0 s5 := (State.setFld_keeps (State.setFld_keeps h4))
      clear_value s5
      extract_lets -merge +onlyGivenNames s6
      have h6 : Keeps s0 s6 := (ite_keeps (setReg256_keeps h5) h5)
      clear_value s6
      exact (KP.mk (coldReset_keeps (by exact Keeps.same h6 rfl rfl rfl rfl rfl rfl rfl rfl)))))

theorem newChal_keeps {s0 a1} (k1 : Keeps s0 a1) : Keeps s0 (newChal a1) := by
  unfold newChal
  exact (upto_keeps (P := Keeps s0) (fun _ _ h1 => (by
      split
      · rename_i y2 y3 e4
        have h3 : Keeps s0 y3 := (KP.get (of_eq (P := KP s0) e4 (State.fresh_keeps h1)))
        exact (State.setReg_keeps h3))) k1)

theorem ckUnlock_keeps {s0 a1} (k1 : Keeps s0 a1) : KP s0 (ckUnlock a1) := by
  unfold ckUnlock
  extract_lets -merge +onlyGivenNames lc1
  try clear_value lc1
  extract_lets -merge +onlyGivenNames s2
  have h2 : Keeps s0 s2 := (calRead_keeps k1)
  clear_value s2
  exact (ite_keeps (KP.mk (newChal_keeps (State.setFld_keeps h2))) (by
      extract_lets -merge +onlyGivenNames o3
      try clear_value o3
      extract_lets -merge +onlyGivenNames c4
      try clear_value c4
      exact (KP.mk (ite_keeps (newChal_keeps (State.setFld_keeps h2)) h2))))

theorem ckAkcert_keeps {s0 a1} (k1 : Keeps s0 a1) : KP s0 (ckAkcert a1) := by
  unfold ckAkcert
  extract_lets -merge +onlyGivenNames lc1
  try clear_value lc1
  exact (ite_keeps (KP.mk k1) (by
      split
      · rename_i y2 y3 e4
        have h3 : Keeps s0 y3 := (KP.get (of_eq (P := KP s0) e4 (State.fresh_keeps k1)))
        split
        · rename_i y5 y6 e7
          have h6 : Keeps s0 y6 := (KP.get (of_eq (P := KP s0) e7 (State.fresh_keeps h3)))
          split
          · rename_i y8 y9 e10
            have h9 : Keeps s0 y9 := (KP.get (of_eq (P := KP s0) e10 (State.fresh_keeps h6)))
            extract_lets -merge +onlyGivenNames b11
            try clear_value b11
            split
            · rename_i y12 y13 e14
              have h13 : Keeps s0 y13 := (KP.get (of_eq (P := KP s0) e14 (signed_keeps h9)))
              exact (KP.mk (stagePut_keeps h13))))

theorem ckExtend_keeps {s0 a1} (k1 : Keeps s0 a1) : KP s0 (ckExtend a1) := by
  unfold ckExtend
  exact (KP.mk (extend_keeps k1))

theorem ckRun_keeps {s0 a1 a2 a3} (k3 : Keeps s0 a3) : KP s0 (ckRun a1 a2 a3) := by
  unfold ckRun
  exact (ite_keeps (KP.mk k3) (by
      split
      · exact (ckVerify_keeps k3)
      · exact (ckCommit_keeps k3)
      · exact (ckInstall_keeps k3)
      · exact (ckAttest_keeps k3)
      · exact (ckMemkey_keeps k3)
      · exact (ckTransition_keeps k3)
      · exact (ckUnlock_keeps k3)
      · exact (ckAkcert_keeps k3)
      · exact (ckExtend_keeps k3)))

theorem opCk_keeps {s0 a1 a2 a3 a4} (k4 : Keeps s0 a4) : Keeps s0 (opCk a1 a2 a3 a4) := by
  unfold opCk
  exact (regWrite_keeps (fun _ h1 => (ite_keeps h1 (by
      extract_lets -merge +onlyGivenNames x2
      have h2 : Keeps s0 x2 := (State.setFlag_keeps h1)
      clear_value x2
      exact (by exact Keeps.same h2 rfl rfl rfl rfl rfl rfl rfl rfl)))) k4)

theorem ckDone_keeps {s0 a1} (k1 : Keeps s0 a1) : Keeps s0 (ckDone a1) := by
  unfold ckDone
  split
  · exact k1
  · split
    · rename_i y1 y2 e3
      have h2 : Keeps s0 y2 := (KP.get (of_eq (P := KP s0) e3 (ckRun_keeps k1)))
      exact (State.setFlag_keeps (State.setFld_keeps (by exact Keeps.same h2 rfl rfl rfl rfl rfl rfl rfl rfl)))

theorem tamper_keeps {s0 a s} (h : Keeps s0 s) : Keeps s0 (tamper a s) := by
  unfold tamper
  refine ite_keeps h ?_
  extract_lets -merge +onlyGivenNames s1
  have h1 : Keeps s0 s1 := State.setFld_keeps h
  clear_value s1
  extract_lets -merge +onlyGivenNames s2
  have h2 : Keeps s0 s2 := State.hgEvents_keeps (State.setFlag_keeps h1)
  clear_value s2
  extract_lets -merge +onlyGivenNames busy x s3
  have h3 : Keeps s0 s3 := by exact Keeps.same h2 rfl rfl rfl rfl rfl rfl rfl rfl
  clear_value s3
  extract_lets -merge +onlyGivenNames ev t4
  have h4 : Keeps s0 t4 := warmReset_keeps (spwCloseAll_keeps (vaultWipe_keeps h3))
  clear_value t4
  extract_lets -merge +onlyGivenNames y t5
  have h5 : Keeps s0 t5 := upto_keeps (P := Keeps s0) (fun _ _ k => State.setFlag_keeps k)
    (by exact Keeps.same h4 rfl rfl rfl rfl rfl rfl rfl rfl)
  clear_value t5
  exact ite_keeps (State.setFld_keeps h5) h5

theorem vaultWipeDone_keeps {s0 a1} (k1 : Keeps s0 a1) : Keeps s0 (vaultWipeDone a1) := by
  unfold vaultWipeDone
  exact (by exact Keeps.same k1 rfl rfl rfl rfl rfl rfl rfl rfl)

theorem licenceExpiry_keeps {s0 a1} (k1 : Keeps s0 a1) : Keeps s0 (licenceExpiry a1) := by
  unfold licenceExpiry
  extract_lets -merge +onlyGivenNames n1
  try clear_value n1
  split
  · exact (ite_keeps (State.hgEvents_keeps (State.setFlag_keeps k1)) k1)
  · exact k1

theorem seqMarkWrite_keeps {s0 a1 a2 a3 a4} (k4 : Keeps s0 a4) : Keeps s0 (seqMarkWrite a1 a2 a3 a4) := by
  unfold seqMarkWrite
  extract_lets -merge +onlyGivenNames key1
  try clear_value key1
  exact (ite_keeps k4 (by exact Keeps.same k4 rfl rfl rfl rfl rfl rfl rfl rfl))

theorem seqMarkWritten_keeps {s0 a1 a2 a3 a4} (k4 : Keeps s0 a4) : Keeps s0 (seqMarkWritten a1 a2 a3 a4) := by
  unfold seqMarkWritten
  extract_lets -merge +onlyGivenNames key1
  try clear_value key1
  exact (ite_keeps (ringPump_keeps (portSend_keeps (by exact Keeps.same k4 rfl rfl rfl rfl rfl rfl rfl rfl))) k4)

end Sys2Proof.Machine
end

