-- ==== Sys2Proof/Laws/KeepBringup.lean ====
section
/-! SUPPORT. What the operations of Machine/Bringup.lean keep (Laws/Keeps.lean). -/

namespace Sys2Proof.Machine

/-- The memory update of step 4. -/
theorem chipKey_keeps {s0 s : State} {p : Host.Cell → Bool} (h : Keeps s0 s) :
    Keeps s0 { s with mem := s.mem.filter p, zeroed := [] } :=
  h.memUpd rfl rfl rfl rfl rfl (Nat.le_refl _) (memWf_filter p rfl nofun)

/-- The frames cleared at step 10 hold no listed byte afterwards, so the canonical form holds at its end. -/
theorem clearFrame_eq {fs : List Nat} : ∀ {s : State},
    let t := each (fun f s =>
      let s := { s with mem := s.mem.filter (fun c => frameOf c.1 != f), badw := s.badw.filter fun w => frameOf (4 * w) != f }
      s.setLe f { LEnt.free with rsv := true, chip := true }) fs s
    t.pending = s.pending ∧ t.regs = s.regs ∧ t.cores = s.cores ∧ t.zeroed = s.zeroed ∧ t.free = s.free ∧ t.memEpoch = s.memEpoch ∧
      (twf s.ledger = true → twf t.ledger = true) ∧ (twf s.mem = true → twf t.mem = true) ∧
      ∀ c ∈ t.mem, c ∈ s.mem ∧ lhas (frameOf c.1) fs = false := by
  induction fs with
  | nil => intro s; exact ⟨rfl, rfl, rfl, rfl, rfl, rfl, id, id, fun c h => ⟨h, rfl⟩⟩
  | cons f r ih =>
    intro s
    simp only [each]
    refine ⟨ih.1, ih.2.1, ih.2.2.1, ih.2.2.2.1, ih.2.2.2.2.1, ih.2.2.2.2.2.1, fun h => ih.2.2.2.2.2.2.1 (twf_tset _ _ h),
      fun h => ih.2.2.2.2.2.2.2.1 (twf_filter _ h), fun c h => ?_⟩
    obtain ⟨h1, h2⟩ := ih.2.2.2.2.2.2.2.2 c h
    obtain ⟨h3, h4⟩ := List.mem_filter.mp h1
    refine ⟨h3, ?_⟩
    simp only [lhas, h2, Bool.or_false, beq_eq_false_iff_ne]
    simp only [bne_iff_ne] at h4
    exact fun e => h4 e.symm

theorem lhas_append {x : Nat} : ∀ {l m : List Nat}, lhas x (l ++ m) = (lhas x l || lhas x m)
  | [], _ => rfl
  | y :: r, m => by simp only [List.cons_append, lhas, lhas_append (l := r), Bool.or_assoc]

/-- Step 10's clearing of frames `gs` and `zs`, of which `zs` become zero. -/
theorem clearFrames_keeps {s0 s : State} {gs zs : List Nat} (h : Keeps s0 s) :
    Keeps s0 (each (fun f s =>
      let s := { s with mem := s.mem.filter (fun c => frameOf c.1 != f), badw := s.badw.filter fun w => frameOf (4 * w) != f }
      s.setLe f { LEnt.free with rsv := true, chip := true }) (gs ++ zs) { s with ledger := [], anchors := [], zeroed := zs }) := by
  obtain ⟨e1, e2, e3, e4, e5, e6, e7, e8, e9⟩ := clearFrame_eq (fs := gs ++ zs) (s := { s with ledger := [], anchors := [], zeroed := zs })
  refine h.trans ⟨e1, fun k => ?_, fun k => by rw [e2]; exact k, fun k => by rw [e3]; exact k, fun _ => e7 rfl, Nat.le_of_eq e5.symm, Nat.le_of_eq e6.symm⟩
  rw [memWf_iff] at k ⊢
  refine ⟨e8 k.1, fun c hc _ => ?_⟩
  have := (e9 c hc).2
  rw [e4]
  rw [lhas_append] at this
  exact (Bool.or_eq_false_iff.mp this).2

theorem waysOff_keeps {s0 s l} (h : Keeps s0 s) : Keeps s0 { s with waysOff := l } := h.same rfl rfl rfl rfl rfl rfl rfl rfl

theorem setRole_keeps {s0 a1 a2 a3} (k3 : Keeps s0 a3) : Keeps s0 (setRole a1 a2 a3) := by
  unfold setRole
  extract_lets -merge +onlyGivenNames s1
  have h1 : Keeps s0 s1 := (State.setFld_keeps k3)
  clear_value s1
  exact (ite_keeps (State.modHgx_keeps h1) h1)

theorem setLease_keeps {s0 a1 a2 a3 a4} (k4 : Keeps s0 a4) : Keeps s0 (setLease a1 a2 a3 a4) := by
  unfold setLease
  exact (State.setFld_keeps (State.setFld_keeps k4))

theorem claim_keeps {s0 a1 a2 a3} (k3 : Keeps s0 a3) : Keeps s0 (claim a1 a2 a3) := by
  unfold claim
  exact (State.modHgx_keeps (setLease_keeps (setRole_keeps k3)))

theorem leaseRenewal_keeps {s0 a1 a2} (k2 : Keeps s0 a2) : Keeps s0 (leaseRenewal a1 a2) := by
  unfold leaseRenewal
  exact (ite_keeps (State.modHgx_keeps (setLease_keeps k2)) k2)

theorem leaseTimeout_keeps {s0 a1 a2} (k2 : Keeps s0 a2) : Keeps s0 (leaseTimeout a1 a2) := by
  unfold leaseTimeout
  exact (ite_keeps (claim_keeps k2) k2)

theorem claimEvents_keeps {s0 a1} (k1 : Keeps s0 a1) : Keeps s0 (claimEvents a1) := by
  unfold claimEvents
  exact (State.hgEvents_keeps k1)

theorem leaseClaim_keeps {s0 a1 a2} (k2 : Keeps s0 a2) : Keeps s0 (leaseClaim a1 a2) := by
  unfold leaseClaim
  split
  · exact k2
  · extract_lets -merge +onlyGivenNames s1
    have h1 : Keeps s0 s1 := (State.modHgx_keeps k2)
    clear_value s1
    extract_lets -merge +onlyGivenNames own2
    try clear_value own2
    extract_lets -merge +onlyGivenNames wins3
    try clear_value wins3
    exact (ite_keeps (claimEvents_keeps (setLease_keeps (setRole_keeps h1))) (claimEvents_keeps (setLease_keeps (setRole_keeps h1))))

theorem opLeaseRelease_keeps {s0 a1 a2 a3} (k3 : Keeps s0 a3) : Keeps s0 (opLeaseRelease a1 a2 a3) := by
  unfold opLeaseRelease
  exact (regWrite_keeps (fun _ h1 => (by
      extract_lets -merge +onlyGivenNames s2
      have h2 : Keeps s0 s2 := (setRole_keeps h1)
      clear_value s2
      exact (ite_keeps (claim_keeps h2) h2))) k3)

theorem opHgLease_keeps {s0 a1 a2 a3 a4} (k4 : Keeps s0 a4) : Keeps s0 (opHgLease a1 a2 a3 a4) := by
  unfold opHgLease
  exact (ite_keeps (opLeaseRelease_keeps k4) (regWrite_keeps (fun _ h1 => h1) k4))

theorem sidebandDown_keeps {s0 a1} (k1 : Keeps s0 a1) : Keeps s0 (sidebandDown a1) := by
  unfold sidebandDown
  exact (ite_keeps k1 (by
      extract_lets -merge +onlyGivenNames s1
      have h1 : Keeps s0 s1 := (State.setFlag_keeps k1)
      clear_value s1
      exact (upto_keeps (P := Keeps s0) (fun _ _ h2 => (setRole_keeps (State.modHgx_keeps (State.setFlag_keeps h2)))) h1)))

theorem settle_keeps {s0 a1} (k1 : Keeps s0 a1) : Keeps s0 (settle a1) := by
  unfold settle
  extract_lets -merge +onlyGivenNames w1
  try clear_value w1
  extract_lets -merge +onlyGivenNames e2
  try clear_value e2
  extract_lets -merge +onlyGivenNames other3
  try clear_value other3
  exact (ite_keeps (by
      extract_lets -merge +onlyGivenNames hi4
      try clear_value hi4
      extract_lets -merge +onlyGivenNames r5
      try clear_value r5
      extract_lets -merge +onlyGivenNames holder6
      try clear_value holder6
      extract_lets -merge +onlyGivenNames s7
      have h7 : Keeps s0 s7 := (setRole_keeps k1)
      clear_value s7
      exact (setLease_keeps (setLease_keeps h7))) (ite_keeps (claimEvents_keeps (setLease_keeps (setRole_keeps k1))) (ite_keeps (by
      extract_lets -merge +onlyGivenNames p8
      try clear_value p8
      exact (claim_keeps k1)) k1)))

theorem sidebandUp_keeps {s0 a1} (k1 : Keeps s0 a1) : Keeps s0 (sidebandUp a1) := by
  unfold sidebandUp
  exact (ite_keeps k1 (by
      extract_lets -merge +onlyGivenNames s1
      have h1 : Keeps s0 s1 := (State.setFlag_keeps k1)
      clear_value s1
      extract_lets -merge +onlyGivenNames s2
      have h2 : Keeps s0 s2 := (upto_keeps (P := Keeps s0) (fun _ _ h3 => (by
          extract_lets -merge +onlyGivenNames s4
          have h4 : Keeps s0 s4 := (State.modHgx_keeps (State.setFlag_keeps h3))
          clear_value s4
          exact (ite_keeps (setRole_keeps h4) h4))) h1)
      clear_value s2
      extract_lets -merge +onlyGivenNames s5
      have h5 : Keeps s0 s5 := (settle_keeps h2)
      clear_value s5
      split
      · exact (extend_keeps (State.modHgx_keeps h5))
      · exact h5))

theorem bootFail_keeps {s0 n f s} (h : Keeps s0 s) : Keeps s0 (bootFail n f s) := by
  cases f
  · exact upto_keeps (P := Keeps s0) (fun _ _ h1 => ite_keeps (State.setFld_keeps h1) h1) h
  · exact upto_keeps (P := Keeps s0) (fun _ _ h1 => ite_keeps (State.setFld_keeps (State.setFlag_keeps h1)) (State.setFlag_keeps h1)) h

theorem bootImage_keeps {s0 a1 a2 a3 a4} (k4 : Keeps s0 a4) : KP s0 (bootImage a1 a2 a3 a4) := by
  unfold bootImage
  split
  · exact (KP.mk k4)
  · exact (ite_keeps (KP.mk k4) (by
        split
        · rename_i y1 y2 e3
          have h2 : Keeps s0 y2 := (KP.get (of_eq (P := KP s0) e3 (State.fresh_keeps k4)))
          split
          · rename_i y4 y5 e6
            have h5 : Keeps s0 y5 := (KP.get (of_eq (P := KP s0) e6 (State.fresh_keeps h2)))
            split
            · rename_i y7 y8 e9
              have h8 : Keeps s0 y8 := (KP.get (of_eq (P := KP s0) e9 (State.fresh_keeps h5)))
              split
              · rename_i y10 y11 e12
                have h11 : Keeps s0 y11 := (KP.get (of_eq (P := KP s0) e12 (State.fresh_keeps h8)))
                exact (KP.mk h11)))

theorem hgStart_keeps {s0 a1 a2 a3} (k3 : Keeps s0 a3) : Keeps s0 (hgStart a1 a2 a3) := by
  unfold hgStart
  extract_lets -merge +onlyGivenNames b1
  try clear_value b1
  split
  · rename_i y2 y3 e4
    have h3 : Keeps s0 y3 := (KP.get (of_eq (P := KP s0) e4 (bootImage_keeps k3)))
    split
    · rename_i y8 y9 y10 e11
      have h10 : Keeps s0 y10 := (KP.get (KSnd.get (of_eq (P := KSnd (KP s0)) e11 (by
          split
          · exact (KSnd.mk (KP.mk h3))
          · split
            · rename_i y5 y6 e7
              have h6 : Keeps s0 y6 := (KP.get (of_eq (P := KP s0) e7 (bootImage_keeps h3)))
              exact (KSnd.mk (KP.mk h6))))))
      split
      · extract_lets -merge +onlyGivenNames s12
        have h12 : Keeps s0 s12 := (State.setFld_keeps (State.setFld_keeps h10))
        clear_value s12
        extract_lets -merge +onlyGivenNames s13
        have h13 : Keeps s0 s13 := (State.modHgx_keeps h12)
        clear_value s13
        exact (ite_keeps (State.modHgx_keeps h13) (extend_keeps h13))
      · exact (State.modHgx_keeps h10)

theorem hgConfig_keeps {s0 a1} (k1 : Keeps s0 a1) : Keeps s0 (hgConfig a1) := by
  unfold hgConfig
  exact (upto_keeps (P := Keeps s0) (fun _ _ h1 => (by
      extract_lets -merge +onlyGivenNames s2
      have h2 : Keeps s0 s2 := (State.setReg_keeps h1)
      clear_value s2
      extract_lets -merge +onlyGivenNames s3
      have h3 : Keeps s0 s3 := by
        unfold s3
        split
        · exact (State.setReg_keeps h2)
        · exact h2
      clear_value s3
      extract_lets -merge +onlyGivenNames m4
      try clear_value m4
      exact (State.setFld_keeps (State.setFld_keeps (State.setFld_keeps h3))))) k1)

theorem bootCleat_keeps {s0 ok s} (h : Keeps s0 s) : Keeps s0 (bootCleat ok s) := by
  unfold bootCleat
  extract_lets -merge +onlyGivenNames lc id' s1
  have h1 : Keeps s0 s1 := State.setFlag_keeps h
  clear_value s1
  extract_lets -merge +onlyGivenNames s2
  have h2 : Keeps s0 s2 := ite_keeps (setReg256_keeps h1) h1
  clear_value s2
  extract_lets -merge +onlyGivenNames s3
  have h3 : Keeps s0 s3 := ite_keeps h2 (State.setFlag_keeps (chipKey_keeps h2))
  clear_value s3
  extract_lets -merge +onlyGivenNames s4
  have h4 : Keeps s0 s4 := calRead_keeps h3
  clear_value s4
  extract_lets -merge +onlyGivenNames s5 s6
  have h6 : Keeps s0 s6 := ite_keeps h4 (newChal_keeps (extend_keeps (extend_keeps h4)))
  clear_value s6
  exact ite_keeps h6 (bootFail_keeps h6)

theorem bistFault_keeps {s0 x s} (h : Keeps s0 s) : Keeps s0 (bistFault x s) := by
  obtain ⟨k, u, w⟩ := x
  unfold bistFault
  have h0 := State.countSat_keeps (a2 := 0x20028) (a3 := ⟨47, 32⟩) (a4 := 1) (logErr_keeps (a1 := .bistRepair) (a2 := u)
    (a3 := 8) (a4 := w) (a5 := 0) (a6 := 0) (a7 := 0) (a8 := false) h)
  have h1 := State.countSat_keeps (a2 := 0x20028) (a3 := ⟨63, 48⟩) (a4 := 1) (logErr_keeps (a1 := .bistFail) (a2 := u)
    (a3 := 8) (a4 := w) (a5 := 0) (a6 := 0) (a7 := 0) (a8 := false) h)
  refine ite_keeps h0 ?_
  generalize ((logErr .bistFail u 8 w 0 0 0 false s).countSat 0x20028 ⟨63, 48⟩ 1) = t at h1
  exact ite_keeps (State.modCore_keeps h1)
    (ite_keeps (ite_keeps (bootFail_keeps (waysOff_keeps h1)) (waysOff_keeps h1)) (bootFail_keeps h1))

theorem clearRegions_keeps {s0 s} (h : Keeps s0 s) : Keeps s0 (clearRegions s) := by
  unfold clearRegions
  extract_lets -merge +onlyGivenNames s1
  have h1 : Keeps s0 s1 := each_keeps (P := Keeps s0) (fun _ _ k => rekey_keeps k) h
  clear_value s1
  extract_lets -merge +onlyGivenNames s2
  have h2 : Keeps s0 s2 := ite_keeps (State.setFld_keeps h1) h1
  clear_value s2
  extract_lets -merge +onlyGivenNames lg ga fs s3
  exact clearFrames_keeps (gs := (List.range 8).map fun i => lg + i) h2

theorem applyLicence_keeps {s0 a1} (k1 : Keeps s0 a1) : Keeps s0 (applyLicence a1) := by
  unfold applyLicence
  extract_lets -merge +onlyGivenNames lc1
  try clear_value lc1
  extract_lets -merge +onlyGivenNames ls2
  try clear_value ls2
  extract_lets -merge +onlyGivenNames l3
  try clear_value l3
  extract_lets -merge +onlyGivenNames x4
  try clear_value x4
  extract_lets -merge +onlyGivenNames s5
  have h5 : Keeps s0 s5 := (by exact Keeps.same k1 rfl rfl rfl rfl rfl rfl rfl rfl)
  clear_value s5
  extract_lets -merge +onlyGivenNames good6
  try clear_value good6
  extract_lets -merge +onlyGivenNames n7
  try clear_value n7
  extract_lets -merge +onlyGivenNames on8
  try clear_value on8
  extract_lets -merge +onlyGivenNames s9
  have h9 : Keeps s0 s9 := (each_keeps (P := Keeps s0) (fun _ _ h10 => (State.modCore_keeps h10)) h5)
  clear_value s9
  extract_lets -merge +onlyGivenNames s11
  have h11 : Keeps s0 s11 := (State.setFld_keeps (State.setFld_keeps h9))
  clear_value s11
  extract_lets -merge +onlyGivenNames test12
  try clear_value test12
  split
  · extract_lets -merge +onlyGivenNames s13
    have h13 : Keeps s0 s13 := (State.setFld_keeps h11)
    clear_value s13
    extract_lets -merge +onlyGivenNames s14
    have h14 : Keeps s0 s14 := (each_keeps (P := Keeps s0) (fun _ _ h15 => (State.setFlag_keeps h15)) h13)
    clear_value s14
    extract_lets -merge +onlyGivenNames s16
    have h16 : Keeps s0 s16 := (upto_keeps (P := Keeps s0) (fun _ _ h17 => (State.setFlag_keeps h17)) h14)
    clear_value s16
    split
    · extract_lets -merge +onlyGivenNames s18
      have h18 : Keeps s0 s18 := (State.setReg_keeps h16)
      clear_value s18
      extract_lets -merge +onlyGivenNames v19
      try clear_value v19
      exact (extend_keeps (State.setReg_keeps h18))
    · exact (ite_keeps h16 (bootFail_keeps h16))

theorem reloadKeys_keeps {s0 a1} (k1 : Keeps s0 a1) : Keeps s0 (reloadKeys a1) := by
  unfold reloadKeys
  exact (ite_keeps k1 (each_keeps (P := Keeps s0) (fun _ _ h1 => (ite_keeps (loadBlob_keeps h1) (by exact Keeps.same h1 rfl rfl rfl rfl rfl rfl rfl rfl))) k1))

theorem placeImage_keeps {s0 img s} (h : Keeps s0 s) : Keeps s0 (placeImage img s) := by
  unfold placeImage
  refine each_keeps (P := Keeps s0) (fun _ _ k => State.setByte_keeps k) (each_keeps (P := Keeps s0) (fun _ _ k => ?_) h)
  exact State.setLe_keeps (k.memUpd rfl rfl rfl rfl rfl (Nat.le_refl _) (memWf_filter _ rfl fun _ k => k))

theorem bootFirmware_keeps {s0 a1 a2} (k2 : Keeps s0 a2) : Keeps s0 (bootFirmware a1 a2) := by
  unfold bootFirmware
  extract_lets -merge +onlyGivenNames s1
  have h1 : Keeps s0 s1 := (upto_keeps (P := Keeps s0) (fun _ _ h2 => (by
      extract_lets -merge +onlyGivenNames k3
      try clear_value k3
      extract_lets -merge +onlyGivenNames b4
      try clear_value b4
      split
      · rename_i y5 y6 e7
        have h6 : Keeps s0 y6 := (KP.get (of_eq (P := KP s0) e7 (bootImage_keeps h2)))
        split
        · extract_lets -merge +onlyGivenNames s8
          have h8 : Keeps s0 s8 := (extend_keeps (placeImage_keeps h6))
          clear_value s8
          exact (ite_keeps (upto_keeps (P := Keeps s0) (fun _ _ h9 => (State.setFlag_keeps h9)) h8) h8)
        · exact (bootFail_keeps h6))) k2)
  clear_value s1
  exact (reloadKeys_keeps (applyLicence_keeps h1))

theorem ringStart_keeps {s0 a1} (k1 : Keeps s0 a1) : Keeps s0 (ringStart a1) := by
  unfold ringStart
  exact (each_keeps (P := Keeps s0) (fun _ _ h1 => (by
      extract_lets -merge +onlyGivenNames s2
      have h2 : Keeps s0 s2 := (State.setReg_keeps h1)
      clear_value s2
      extract_lets -merge +onlyGivenNames s3
      have h3 : Keeps s0 s3 := (State.setFld_keeps h2)
      clear_value s3
      exact (ringPump_keeps (portTrain_keeps (portTrain_keeps h3))))) k1)

theorem detourAround_keeps {s0 a1 a2} (k2 : Keeps s0 a2) : Keeps s0 (detourAround a1 a2) := by
  unfold detourAround
  extract_lets -merge +onlyGivenNames r1
  try clear_value r1
  extract_lets -merge +onlyGivenNames s2
  have h2 : Keeps s0 s2 := (State.setFld_keeps k2)
  clear_value s2
  extract_lets -merge +onlyGivenNames s3
  have h3 : Keeps s0 s3 := (State.setFld_keeps h2)
  clear_value s3
  extract_lets -merge +onlyGivenNames s4
  have h4 : Keeps s0 s4 := (State.setFld_keeps h3)
  clear_value s4
  exact (State.setFld_keeps h4)

theorem ringCheck_keeps {s0 a1} (k1 : Keeps s0 a1) : Keeps s0 (ringCheck a1) := by
  unfold ringCheck
  exact (each_keeps (P := Keeps s0) (fun _ _ h1 => (ite_keeps h1 (ringPump_keeps (spwClose_keeps h1)))) k1)

theorem bootEnd_keeps {s0 a1} (k1 : Keeps s0 a1) : Keeps s0 (bootEnd a1) := by
  unfold bootEnd
  extract_lets -merge +onlyGivenNames s1
  have h1 : Keeps s0 s1 := (State.setFlag_keeps k1)
  clear_value s1
  extract_lets -merge +onlyGivenNames s2
  have h2 : Keeps s0 s2 := (State.setFlag_keeps h1)
  clear_value s2
  extract_lets -merge +onlyGivenNames s3
  have h3 : Keeps s0 s3 := (State.setFlag_keeps h2)
  clear_value s3
  extract_lets -merge +onlyGivenNames s4
  have h4 : Keeps s0 s4 := (State.setFlag_keeps h3)
  clear_value s4
  extract_lets -merge +onlyGivenNames s5
  have h5 : Keeps s0 s5 := (State.setFlag_keeps h4)
  clear_value s5
  extract_lets -merge +onlyGivenNames s6
  have h6 : Keeps s0 s6 := (ite_keeps (bootFail_keeps h5) h5)
  clear_value s6
  extract_lets -merge +onlyGivenNames s7
  have h7 : Keeps s0 s7 := (State.setFlag_keeps (State.setFlag_keeps h6))
  clear_value s7
  extract_lets -merge +onlyGivenNames s8
  have h8 : Keeps s0 s8 := (upto_keeps (P := Keeps s0) (fun _ _ h9 => (State.setReg_keeps h9)) h7)
  clear_value s8
  exact (ite_keeps h8 (State.setFld_keeps h8))

theorem bootStep_keeps {s0 a1 a2 a3 a4} (k4 : Keeps s0 a4) : Keeps s0 (bootStep a1 a2 a3 a4) := by
  unfold bootStep
  split
  · extract_lets -merge +onlyGivenNames s1
    have h1 : Keeps s0 s1 := (upto_keeps (P := Keeps s0) (fun _ _ h2 => (State.setFlag_keeps h2)) (State.setFlag_keeps k4))
    clear_value s1
    exact (ite_keeps h1 (bootFail_keeps h1))
  · extract_lets -merge +onlyGivenNames s3
    have h3 : Keeps s0 s3 := (hgConfig_keeps k4)
    clear_value s3
    exact (ite_keeps (by
        extract_lets -merge +onlyGivenNames p4
        try clear_value p4
        exact (setLease_keeps (setLease_keeps (setRole_keeps (setRole_keeps h3))))) (setRole_keeps (setRole_keeps h3)))
  · exact (bootCleat_keeps k4)
  · extract_lets -merge +onlyGivenNames s5
    have h5 : Keeps s0 s5 := (hgStart_keeps (hgStart_keeps k4))
    clear_value s5
    exact (ite_keeps (bootFail_keeps h5) h5)
  · exact (each_keeps (P := Keeps s0) (fun _ _ h6 => (bistFault_keeps h6)) k4)
  · exact (each_keeps (P := Keeps s0) (fun _ _ h7 => (detourAround_keeps h7)) (each_keeps (P := Keeps s0) (fun _ _ h8 => (State.modCore_keeps h8)) k4))
  · extract_lets -merge +onlyGivenNames s9
    have h9 : Keeps s0 s9 := (State.setFlag_keeps (State.setFlag_keeps k4))
    clear_value s9
    exact (ite_keeps h9 (bootFail_keeps h9))
  · extract_lets -merge +onlyGivenNames s10
    have h10 : Keeps s0 s10 := (ite_keeps k4 (bootFail_keeps k4))
    clear_value s10
    exact (ite_keeps (bootFail_keeps h10) h10)
  · extract_lets -merge +onlyGivenNames s11
    have h11 : Keeps s0 s11 := (upto_keeps (P := Keeps s0) (fun _ _ h12 => (State.setFld_keeps (State.setFld_keeps h12))) k4)
    clear_value s11
    exact (clearRegions_keeps (ite_keeps h11 (bootFail_keeps h11)))
  · exact (bootFirmware_keeps k4)
  · exact (ringStart_keeps (ite_keeps k4 (bootFail_keeps k4)))
  · exact (ringCheck_keeps k4)
  · exact (bootEnd_keeps k4)
  · exact k4

theorem bootNext_keeps {s0 a1 a2 a3} (k3 : Keeps s0 a3) : Keeps s0 (bootNext a1 a2 a3) := by
  unfold bootNext
  extract_lets -merge +onlyGivenNames s1
  have h1 : Keeps s0 s1 := (ite_keeps (upto_keeps (P := Keeps s0) (fun _ _ h2 => (State.setFld_keeps h2)) k3) k3)
  clear_value s1
  extract_lets -merge +onlyGivenNames s3
  have h3 : Keeps s0 s3 := (ite_keeps (ttTrain_keeps h1) h1)
  clear_value s3
  exact (by exact Keeps.same h3 rfl rfl rfl rfl rfl rfl rfl rfl)

theorem bringupStepDone_keeps {s0 a1 a2 a3 a4} (k4 : Keeps s0 a4) : Keeps s0 (bringupStepDone a1 a2 a3 a4) := by
  unfold bringupStepDone
  exact (ite_keeps k4 (by
      extract_lets -merge +onlyGivenNames s1
      have h1 : Keeps s0 s1 := (ite_keeps (by exact Keeps.same k4 rfl rfl rfl rfl rfl rfl rfl rfl) k4)
      clear_value s1
      exact (bootNext_keeps (bootStep_keeps h1))))

theorem bringupStepTimeout_keeps {s0 a1 a2} (k2 : Keeps s0 a2) : Keeps s0 (bringupStepTimeout a1 a2) := by
  unfold bringupStepTimeout
  exact (ite_keeps k2 (ite_keeps (bootNext_keeps (bootStep_keeps k2)) (by
      extract_lets -merge +onlyGivenNames s1
      have h1 : Keeps s0 s1 := (bootFail_keeps k2)
      clear_value s1
      exact (bootNext_keeps (ite_keeps (bootStep_keeps h1) h1)))))

end Sys2Proof.Machine
end

