-- ==== Sys2Proof/Laws/KeepHeadgate.lean ====
section
/-! SUPPORT. What the operations of Machine/Headgate.lean keep (Laws/Keeps.lean). -/

namespace Sys2Proof.Machine

theorem fwrxDrop_keeps {s0 s c} (h : Keeps s0 s) : Keeps s0 { s with fwrx := tdel c s.fwrx } := h.same rfl rfl rfl rfl rfl rfl rfl rfl

theorem countCores_keeps {s0 a1} (k1 : Keeps s0 a1) : Keeps s0 (countCores a1) := by
  unfold countCores
  extract_lets -merge +onlyGivenNames on1
  try clear_value on1
  exact (State.setFld_keeps (State.setFld_keeps k1))

theorem recount_keeps {s0 a1} (k1 : Keeps s0 a1) : Keeps s0 (recount a1) := by
  unfold recount
  extract_lets -merge +onlyGivenNames s1
  have h1 : Keeps s0 s1 := (countCores_keeps k1)
  clear_value s1
  exact (ite_keeps (by
      extract_lets -merge +onlyGivenNames s2
      have h2 : Keeps s0 s2 := (upto_keeps (P := Keeps s0) (fun _ _ h3 => (State.setFlag_keeps h3)) h1)
      clear_value s2
      exact (ite_keeps (State.setFld_keeps h2) h2)) h1)

theorem hideCore_keeps {s0 a1 a2} (k2 : Keeps s0 a2) : Keeps s0 (hideCore a1 a2) := by
  unfold hideCore
  exact (recount_keeps (State.modCore_keeps k2))

theorem fwStart_keeps {s0 a1 a2} (k2 : Keeps s0 a2) : Keeps s0 (fwStart a1 a2) := by
  unfold fwStart
  extract_lets -merge +onlyGivenNames h1
  try clear_value h1
  extract_lets -merge +onlyGivenNames gen2
  try clear_value gen2
  extract_lets -merge +onlyGivenNames s3
  have h3 : Keeps s0 s3 := (State.setFld_keeps k2)
  clear_value s3
  split
  · rename_i y10 y11 y12 e13
    have h12 : Keeps s0 y12 := (KP.get (KSnd.get (of_eq (P := KSnd (KP s0)) e13 (by
        split
        · exact (KSnd.mk (KP.mk h3))
        · split
          · rename_i y4 y5 e6
            have h5 : Keeps s0 y5 := (KP.get (of_eq (P := KP s0) e6 (State.fresh_keeps h3)))
            split
            · rename_i y7 y8 e9
              have h8 : Keeps s0 y8 := (KP.get (of_eq (P := KP s0) e9 (State.fresh_keeps h5)))
              exact (KSnd.mk (KP.mk h8))))))
    extract_lets -merge +onlyGivenNames s14
    have h14 : Keeps s0 s14 := (State.setReg_keeps h12)
    clear_value s14
    exact (each_keeps (P := Keeps s0) (fun _ _ h15 => (by
        extract_lets -merge +onlyGivenNames s16
        have h16 : Keeps s0 s16 := (State.setReg_keeps h15)
        clear_value s16
        extract_lets -merge +onlyGivenNames s17
        have h17 : Keeps s0 s17 := (by exact Keeps.same h16 rfl rfl rfl rfl rfl rfl rfl rfl)
        clear_value s17
        exact (ite_keeps (by
            extract_lets -merge +onlyGivenNames v18
            try clear_value v18
            exact (State.modCore_keeps (State.setReg_keeps h17))) h17))) h14)

theorem bringupRow_keeps {s0 a1 a2 a3 a4} (k4 : Keeps s0 a4) : Keeps s0 (bringupRow a1 a2 a3 a4) := by
  unfold bringupRow
  extract_lets -merge +onlyGivenNames t1
  have h1 : Keeps s0 t1 := (bringupStepDone_keeps k4)
  clear_value t1
  exact (ite_keeps (fwStart_keeps h1) h1)

theorem fwChunk_keeps {s0 a1 a2 a3} (k3 : Keeps s0 a3) : Keeps s0 (fwChunk a1 a2 a3) := by
  unfold fwChunk
  exact (ite_keeps k3 (by
      extract_lets -merge +onlyGivenNames ch1
      try clear_value ch1
      extract_lets -merge +onlyGivenNames fl2
      try clear_value fl2
      extract_lets -merge +onlyGivenNames x3
      try clear_value x3
      exact (ite_keeps (by
          extract_lets -merge +onlyGivenNames off4
          try clear_value off4
          extract_lets -merge +onlyGivenNames s5
          have h5 : Keeps s0 s5 := (spadWrite_keeps k3)
          clear_value s5
          extract_lets -merge +onlyGivenNames s6
          have h6 : Keeps s0 s6 := (ite_keeps h5 (State.modCore_keeps h5))
          clear_value s6
          exact (by exact Keeps.same h6 rfl rfl rfl rfl rfl rfl rfl rfl)) (ite_keeps (by
          extract_lets -merge +onlyGivenNames d7
          try clear_value d7
          exact (by exact Keeps.same k3 rfl rfl rfl rfl rfl rfl rfl rfl)) k3))))

theorem fwReport_keeps {s0 a1 a2 a3 a4} (k4 : Keeps s0 a4) : Keeps s0 (fwReport a1 a2 a3 a4) := by
  unfold fwReport
  extract_lets -merge +onlyGivenNames a1
  try clear_value a1
  extract_lets -merge +onlyGivenNames h2
  try clear_value h2
  extract_lets -merge +onlyGivenNames s3
  have h3 : Keeps s0 s3 := (State.setFld_keeps k4)
  clear_value s3
  exact (ite_keeps (State.setFlag_keeps (State.setFlag_keeps h3)) (ite_keeps (by
      extract_lets -merge +onlyGivenNames s4
      have h4 : Keeps s0 s4 := (State.countSat_keeps (State.setFld_keeps h3))
      clear_value s4
      extract_lets -merge +onlyGivenNames x5
      try clear_value x5
      exact (by exact Keeps.same h4 rfl rfl rfl rfl rfl rfl rfl rfl)) (by
      extract_lets -merge +onlyGivenNames s6
      have h6 : Keeps s0 s6 := (State.countSat_keeps (State.setFlag_keeps (State.setFlag_keeps h3)))
      clear_value s6
      exact (hideCore_keeps h6))))

theorem fwLoadReport_keeps {s0 a1 a2} (k2 : Keeps s0 a2) : Keeps s0 (fwLoadReport a1 a2) := by
  unfold fwLoadReport
  extract_lets -merge +onlyGivenNames x1
  try clear_value x1
  split
  · exact k2
  · exact (ite_keeps k2 (by
        extract_lets -merge +onlyGivenNames miss2
        try clear_value miss2
        exact (ite_keeps (fwReport_keeps k2) (ite_keeps (fwReport_keeps k2) (fwReport_keeps k2)))))

theorem fwReportTimeout_keeps {s0 a1 a2} (k2 : Keeps s0 a2) : Keeps s0 (fwReportTimeout a1 a2) := by
  unfold fwReportTimeout
  exact (ite_keeps (fwReport_keeps k2) k2)

theorem opFwCore_keeps {s0 o c v s} (h : Keeps s0 s) : Keeps s0 (opFwCore o c v s) := by
  unfold opFwCore
  refine regWrite_keeps (fun _ h2 => ?_) h
  exact ite_keeps (fwrxDrop_keeps (typedWrite_keeps h2)) (typedWrite_keeps h2)

theorem opHgLeaseCfg_keeps {s0 a1 a2 a3 a4} (k4 : Keeps s0 a4) : Keeps s0 (opHgLeaseCfg a1 a2 a3 a4) := by
  unfold opHgLeaseCfg
  extract_lets -merge +onlyGivenNames a1
  try clear_value a1
  exact (regWrite_keeps (fun _ h2 => (typedWrite_keeps h2)) k4)

theorem disableCore_keeps {s0 a1 a2} (k2 : Keeps s0 a2) : Keeps s0 (disableCore a1 a2) := by
  unfold disableCore
  extract_lets -merge +onlyGivenNames s1
  have h1 : Keeps s0 s1 := (hideCore_keeps k2)
  clear_value s1
  exact (by exact Keeps.same h1 rfl rfl rfl rfl rfl rfl rfl rfl)

theorem enableSpare_keeps {s0 a1 a2} (k2 : Keeps s0 a2) : Keeps s0 (enableSpare a1 a2) := by
  unfold enableSpare
  split
  · exact k2
  · extract_lets -merge +onlyGivenNames out1
    try clear_value out1
    extract_lets -merge +onlyGivenNames s2
    have h2 : Keeps s0 s2 := (by exact Keeps.same k2 rfl rfl rfl rfl rfl rfl rfl rfl)
    clear_value s2
    extract_lets -merge +onlyGivenNames s3
    have h3 : Keeps s0 s3 := (State.modCore_keeps (State.setFld_keeps h2))
    clear_value s3
    exact (fwStart_keeps (countCores_keeps h3))

theorem opCoreReset_keeps {s0 a1 a2 a3 a4} (k4 : Keeps s0 a4) : Keeps s0 (opCoreReset a1 a2 a3 a4) := by
  unfold opCoreReset
  exact (regWrite_keeps (fun _ h1 => (ite_keeps h1 (ringPump_keeps (coreReset_keeps h1)))) k4)

theorem opCoreDisable_keeps {s0 a1 a2 a3 a4} (k4 : Keeps s0 a4) : Keeps s0 (opCoreDisable a1 a2 a3 a4) := by
  unfold opCoreDisable
  exact (regWrite_keeps (fun _ h1 => (disableCore_keeps h1)) k4)

theorem opSpareEnable_keeps {s0 a1 a2 a3 a4} (k4 : Keeps s0 a4) : Keeps s0 (opSpareEnable a1 a2 a3 a4) := by
  unfold opSpareEnable
  exact (regWrite_keeps (fun _ h1 => (enableSpare_keeps h1)) k4)

theorem opHgCoreRst_keeps {s0 a1 a2 a3 a4} (k4 : Keeps s0 a4) : Keeps s0 (opHgCoreRst a1 a2 a3 a4) := by
  unfold opHgCoreRst
  extract_lets -merge +onlyGivenNames c1
  try clear_value c1
  extract_lets -merge +onlyGivenNames op2
  try clear_value op2
  exact (ite_keeps (opCoreReset_keeps k4) (ite_keeps (opCoreDisable_keeps k4) (ite_keeps (opSpareEnable_keeps k4) (regWrite_keeps (fun _ h3 => h3) k4))))

theorem flashShow_keeps {s0 a1} (k1 : Keeps s0 a1) : Keeps s0 (flashShow a1) := by
  unfold flashShow
  extract_lets -merge +onlyGivenNames m1
  try clear_value m1
  exact (upto_keeps (P := Keeps s0) (fun _ _ h2 => (by
      extract_lets -merge +onlyGivenNames s3
      have h3 : Keeps s0 s3 := (State.setFld_keeps h2)
      clear_value s3
      extract_lets -merge +onlyGivenNames s4
      have h4 : Keeps s0 s4 := (State.setFld_keeps h3)
      clear_value s4
      extract_lets -merge +onlyGivenNames s5
      have h5 : Keeps s0 s5 := (State.setFld_keeps h4)
      clear_value s5
      exact (ite_keeps (State.setFlag_keeps h5) h5))) k1)

theorem flashErase_keeps {s0 a1 a2 a3} (k3 : Keeps s0 a3) : Keeps s0 (flashErase a1 a2 a3) := by
  unfold flashErase
  extract_lets -merge +onlyGivenNames f1
  try clear_value f1
  extract_lets -merge +onlyGivenNames n2
  try clear_value n2
  extract_lets -merge +onlyGivenNames f3
  try clear_value f3
  exact (flashShow_keeps (by exact Keeps.same k3 rfl rfl rfl rfl rfl rfl rfl rfl))

theorem flashRefresh_keeps {s0 a1 a2 a3} (k3 : Keeps s0 a3) : Keeps s0 (flashRefresh a1 a2 a3) := by
  unfold flashRefresh
  exact (ite_keeps (onLink_keeps (fun _ h1 => (flashErase_keeps h1)) k3) k3)

theorem logMirrorFlash_keeps {s0 a1 a2 a3} (k3 : Keeps s0 a3) : Keeps s0 (logMirrorFlash a1 a2 a3) := by
  unfold logMirrorFlash
  extract_lets -merge +onlyGivenNames x1
  try clear_value x1
  split
  · exact k3
  · exact (ite_keeps k3 (ite_keeps (ePrepV_keeps k3) (onLink_keeps (fun _ h2 => (by
        split
        · rename_i y3 e4
          have h3 : Keeps s0 y3 := (KP.get (of_eq (P := KP s0) e4 (slotRead_keeps h2)))
          exact h3
        · rename_i y5 y6 e7
          have h6 : Keeps s0 y6 := (KP.get (of_eq (P := KP s0) e7 (slotRead_keeps h2)))
          extract_lets -merge +onlyGivenNames pl8
          try clear_value pl8
          extract_lets -merge +onlyGivenNames s9
          have h9 : Keeps s0 s9 := (ite_keeps (flashErase_keeps h6) h6)
          clear_value s9
          extract_lets -merge +onlyGivenNames x10
          try clear_value x10
          extract_lets -merge +onlyGivenNames s11
          have h11 : Keeps s0 s11 := (by exact Keeps.same h9 rfl rfl rfl rfl rfl rfl rfl rfl)
          clear_value s11
          exact (State.setSnap_keeps (State.setReg_keeps h11)))) k3)))

theorem swapStart_keeps {s0 a1 a2} (k2 : Keeps s0 a2) : Keeps s0 (swapStart a1 a2) := by
  unfold swapStart
  extract_lets -merge +onlyGivenNames s1
  have h1 : Keeps s0 s1 := (ite_keeps (opLeaseRelease_keeps k2) k2)
  clear_value s1
  extract_lets -merge +onlyGivenNames s2
  have h2 : Keeps s0 s2 := (State.setFld_keeps h1)
  clear_value s2
  exact (State.modHgx_keeps h2)

theorem hgSwapDone_keeps {s0 a1 a2 a3} (k3 : Keeps s0 a3) : Keeps s0 (hgSwapDone a1 a2 a3) := by
  unfold hgSwapDone
  exact (ite_keeps (by
      extract_lets -merge +onlyGivenNames s1
      have h1 : Keeps s0 s1 := (hgStart_keeps (State.modHgx_keeps k3))
      clear_value s1
      exact (ite_keeps h1 (by
          extract_lets -merge +onlyGivenNames s2
          have h2 : Keeps s0 s2 := (ite_keeps (setLease_keeps h1) h1)
          clear_value s2
          exact (State.modHgx_keeps (setRole_keeps h2))))) k3)

theorem sluUpdate_keeps {s0 a1 a2} (k2 : Keeps s0 a2) : Keeps s0 (sluUpdate a1 a2) := by
  unfold sluUpdate
  extract_lets -merge +onlyGivenNames x1
  have h1 : Keeps s0 x1 := (State.setFlag_keeps k2)
  clear_value x1
  exact (by exact Keeps.same h1 rfl rfl rfl rfl rfl rfl rfl rfl)

theorem sluiceUpdateDone_keeps {s0 a1 a2} (k2 : Keeps s0 a2) : Keeps s0 (sluiceUpdateDone a1 a2) := by
  unfold sluiceUpdateDone
  exact (ite_keeps (by
      extract_lets -merge +onlyGivenNames x1
      have h1 : Keeps s0 x1 := (State.setFlag_keeps k2)
      clear_value x1
      exact (by exact Keeps.same h1 rfl rfl rfl rfl rfl rfl rfl rfl)) k2)

theorem mbSend_keeps {s0 a1 a2 a3} (k3 : Keeps s0 a3) : Keeps s0 (mbSend a1 a2 a3) := by
  unfold mbSend
  exact (mbOutDoor_keeps (each_keeps (P := Keeps s0) (fun _ _ h1 => (State.setReg_keeps h1)) k3))

theorem mbReply_keeps {s0 a1 a2 a3 a4} (k4 : Keeps s0 a4) : Keeps s0 (mbReply a1 a2 a3 a4) := by
  unfold mbReply
  extract_lets -merge +onlyGivenNames q1
  try clear_value q1
  extract_lets -merge +onlyGivenNames w02
  try clear_value w02
  exact (mbSend_keeps (State.setFlag_keeps k4))

theorem mbServe_keeps {s0 a1 a2 a3 a4 a5} (k4 : ∀ z1, Keeps s0 z1 → Keeps s0 (a4 z1)) (k5 : Keeps s0 a5) : Keeps s0 (mbServe a1 a2 a3 a4 a5) := by
  unfold mbServe
  extract_lets -merge +onlyGivenNames o1
  try clear_value o1
  exact (ite_keeps k5 (ite_keeps (mbReply_keeps k5) (ite_keeps k5 (ite_keeps (mbReply_keeps k5) (k4 _ k5)))))

theorem mbStatus_keeps {s0 a1 a2} (k2 : Keeps s0 a2) : Keeps s0 (mbStatus a1 a2) := by
  unfold mbStatus
  exact (mbServe_keeps (fun _ h1 => (mbReply_keeps h1)) k2)

theorem mbName_keeps {s0 a1 a2} (k2 : Keeps s0 a2) : Keeps s0 (mbName a1 a2) := by
  unfold mbName
  exact (mbServe_keeps (fun _ h1 => (by
      extract_lets -merge +onlyGivenNames who2
      try clear_value who2
      extract_lets -merge +onlyGivenNames e3
      try clear_value e3
      exact (ite_keeps (mbReply_keeps (setLease_keeps (setRole_keeps h1))) (mbReply_keeps h1)))) k2)

theorem mbStage_keeps {s0 a1 a2} (k2 : Keeps s0 a2) : Keeps s0 (mbStage a1 a2) := by
  unfold mbStage
  exact (mbServe_keeps (fun _ h1 => (by
      extract_lets -merge +onlyGivenNames off2
      try clear_value off2
      extract_lets -merge +onlyGivenNames n3
      try clear_value n3
      extract_lets -merge +onlyGivenNames kind4
      try clear_value kind4
      extract_lets -merge +onlyGivenNames bank5
      try clear_value bank5
      extract_lets -merge +onlyGivenNames pa6
      try clear_value pa6
      exact (ite_keeps (mbReply_keeps h1) (ite_keeps (prepAll_keeps h1) (by
          split
          · rename_i y7 y8 y9 e10
            have h9 : Keeps s0 y9 := (KP.get (KSnd.get (of_eq (P := KSnd (KP s0)) e10 (engRead_keeps h1))))
            exact (mbReply_keeps h9)
          · rename_i y11 y12 e13
            have h12 : Keeps s0 y12 := (KP.get (KSnd.get (of_eq (P := KSnd (KP s0)) e13 (engRead_keeps h1))))
            extract_lets -merge +onlyGivenNames f14
            try clear_value f14
            exact (mbReply_keeps (by exact Keeps.same h12 rfl rfl rfl rfl rfl rfl rfl rfl))))))) k2)

theorem activateCheck_keeps {s0 a1 a2 a3} (k3 : Keeps s0 a3) : KP s0 (activateCheck a1 a2 a3) := by
  unfold activateCheck
  split
  · extract_lets -merge +onlyGivenNames c1
    try clear_value c1
    extract_lets -merge +onlyGivenNames c2
    try clear_value c2
    exact (KP.mk (ite_keeps (imagePass_keeps k3) k3))
  · exact (ite_keeps (by
        split
        · rename_i y3 y4 y5 e6
          have h5 : Keeps s0 y5 := (KP.get (of_eq (P := KP s0) e6 (bootImage_keeps k3)))
          exact (KP.mk (extend_keeps h5))
        · rename_i y7 e8
          have h7 : Keeps s0 y7 := (KP.get (of_eq (P := KP s0) e8 (bootImage_keeps k3)))
          exact (KP.mk h7)) (by
        split
        · rename_i y9 y10 e11
          have h10 : Keeps s0 y10 := (KP.get (of_eq (P := KP s0) e11 (State.fresh_keeps k3)))
          exact (KP.mk h10)))

theorem mbActivate_keeps {s0 a1 a2 a3} (k3 : Keeps s0 a3) : Keeps s0 (mbActivate a1 a2 a3) := by
  unfold mbActivate
  exact (mbServe_keeps (fun _ h1 => (by
      extract_lets -merge +onlyGivenNames kind2
      try clear_value kind2
      extract_lets -merge +onlyGivenNames x3
      try clear_value x3
      exact (ite_keeps (ite_keeps (swapStart_keeps (mbReply_keeps h1)) (mbReply_keeps h1)) (ite_keeps (ite_keeps (mbReply_keeps h1) (ite_keeps (mbReply_keeps h1) (by
          extract_lets -merge +onlyGivenNames r4
          have h4 : KP s0 r4 := (activateCheck_keeps h1)
          clear_value r4
          exact (ite_keeps (fwStart_keeps (mbReply_keeps (KP.snd h4))) (mbReply_keeps (KP.snd h4)))))) (ite_keeps (ite_keeps (mbReply_keeps h1) (ite_keeps (mbReply_keeps h1) (by
          extract_lets -merge +onlyGivenNames r5
          have h5 : KP s0 r5 := (activateCheck_keeps h1)
          clear_value r5
          exact (ite_keeps (sluUpdate_keeps (mbReply_keeps (KP.snd h5))) (mbReply_keeps (KP.snd h5)))))) (mbReply_keeps h1)))))) k3)

theorem mbPlace_keeps {s0 a1 a2} (k2 : Keeps s0 a2) : Keeps s0 (mbPlace a1 a2) := by
  unfold mbPlace
  exact (mbServe_keeps (fun _ h1 => (by
      extract_lets -merge +onlyGivenNames p2
      try clear_value p2
      extract_lets -merge +onlyGivenNames va3
      try clear_value va3
      split
      · exact (mbReply_keeps h1)
      · exact (ite_keeps (mbReply_keeps h1) (ite_keeps (ePrepV_keeps h1) (mbReply_keeps (eWriteV_keeps h1)))))) k2)

theorem mbCoreSwap_keeps {s0 a1 a2} (k2 : Keeps s0 a2) : Keeps s0 (mbCoreSwap a1 a2) := by
  unfold mbCoreSwap
  exact (mbServe_keeps (fun _ h1 => (by
      extract_lets -merge +onlyGivenNames c2
      try clear_value c2
      exact (ite_keeps (by
          split
          · exact (mbReply_keeps (enableSpare_keeps (disableCore_keeps h1)))
          · exact (mbReply_keeps h1)) (mbReply_keeps h1)))) k2)

theorem mbRing_keeps {s0 a1 a2} (k2 : Keeps s0 a2) : Keeps s0 (mbRing a1 a2) := by
  unfold mbRing
  exact (mbServe_keeps (fun _ h1 => (by
      extract_lets -merge +onlyGivenNames r2
      try clear_value r2
      exact (mbReply_keeps (by exact Keeps.same h1 rfl rfl rfl rfl rfl rfl rfl rfl)))) k2)

theorem mbEvent_keeps {s0 a1 a2} (k2 : Keeps s0 a2) : Keeps s0 (mbEvent a1 a2) := by
  unfold mbEvent
  split
  · exact k2
  · exact (ite_keeps k2 (by
        extract_lets -merge +onlyGivenNames s1
        have h1 : Keeps s0 s1 := (State.modHgx_keeps k2)
        clear_value s1
        split
        · rename_i y2 y3 e4
          have h3 : Keeps s0 y3 := (KP.get (of_eq (P := KP s0) e4 (State.fresh_keeps h1)))
          exact (mbSend_keeps h3)))

end Sys2Proof.Machine
end

