-- ==== Sys2Proof/Laws/KeepBoard.lean ====
section
/-! SUPPORT. What the operations of Machine/Board.lean keep (Laws/Keeps.lean). -/

namespace Sys2Proof.Machine

theorem State.modBoard_keeps {s0 a1 a2} (k1 : Keeps s0 a1) : Keeps s0 (State.modBoard a1 a2) := by
  unfold State.modBoard
  exact (by exact Keeps.same k1 rfl rfl rfl rfl rfl rfl rfl rfl)

theorem powerLoss_keeps {s0 a1 a2 a3} (k3 : Keeps s0 a3) : Keeps s0 (powerLoss a1 a2 a3) := by
  unfold powerLoss
  exact (coldReset_keeps (State.setFld_keeps (spwCloseAll_keeps k3)))

theorem vin64Good_keeps {s0 a1} (k1 : Keeps s0 a1) : Keeps s0 (vin64Good a1) := by
  unfold vin64Good
  exact (ite_keeps k1 (coldReset_keeps (State.modBoard_keeps k1)))

theorem vin64Under_keeps {s0 a1} (k1 : Keeps s0 a1) : Keeps s0 (vin64Under a1) := by
  unfold vin64Under
  exact (ite_keeps (powerLoss_keeps (State.modBoard_keeps k1)) (State.modBoard_keeps k1))

theorem vin64Over_keeps {s0 a1} (k1 : Keeps s0 a1) : Keeps s0 (vin64Over a1) := by
  unfold vin64Over
  exact (ite_keeps (powerLoss_keeps (State.modBoard_keeps k1)) k1)

theorem aux3v3Good_keeps {s0 a1} (k1 : Keeps s0 a1) : Keeps s0 (aux3v3Good a1) := by
  unfold aux3v3Good
  exact (ite_keeps k1 (State.modBoard_keeps (State.setReg_keeps (State.setReg_keeps k1))))

theorem aux3v3Loss_keeps {s0 a1} (k1 : Keeps s0 a1) : Keeps s0 (aux3v3Loss a1) := by
  unfold aux3v3Loss
  exact (ite_keeps k1 (by
      extract_lets -merge +onlyGivenNames s1
      have h1 : Keeps s0 s1 := (State.modBoard_keeps k1)
      clear_value s1
      exact (ite_keeps (powerLoss_keeps h1) h1)))

theorem inputCharged_keeps {s0 a1} (k1 : Keeps s0 a1) : Keeps s0 (inputCharged a1) := by
  unfold inputCharged
  exact (ite_keeps (State.modBoard_keeps k1) k1)

theorem thermTrip_keeps {s0 a1} (k1 : Keeps s0 a1) : Keeps s0 (thermTrip a1) := by
  unfold thermTrip
  exact (ite_keeps (powerLoss_keeps (State.modBoard_keeps k1)) k1)

theorem thrShow_keeps {s0 a1 a2} (k2 : Keeps s0 a2) : Keeps s0 (thrShow a1 a2) := by
  unfold thrShow
  extract_lets -merge +onlyGivenNames t1
  try clear_value t1
  extract_lets -merge +onlyGivenNames w2
  try clear_value w2
  extract_lets -merge +onlyGivenNames pw3
  try clear_value pw3
  extract_lets -merge +onlyGivenNames lim4
  try clear_value lim4
  extract_lets -merge +onlyGivenNames cause5
  try clear_value cause5
  exact (State.setFld_keeps (State.setFld_keeps k2))

theorem throttleSample_keeps {s0 a1 a2 a3 a4 a5} (k5 : Keeps s0 a5) : Keeps s0 (throttleSample a1 a2 a3 a4 a5) := by
  unfold throttleSample
  exact (ite_keeps k5 (by
      extract_lets -merge +onlyGivenNames t1
      try clear_value t1
      split
      · extract_lets -merge +onlyGivenNames t2
        try clear_value t2
        split
        · split
          · extract_lets -merge +onlyGivenNames t3
            try clear_value t3
            exact (upto_keeps (P := Keeps s0) (fun _ _ h4 => (thrShow_keeps h4)) (by exact Keeps.same k5 rfl rfl rfl rfl rfl rfl rfl rfl))))

theorem opThrCtl_keeps {s0 a1 a2 a3} (k3 : Keeps s0 a3) : Keeps s0 (opThrCtl a1 a2 a3) := by
  unfold opThrCtl
  exact (regWrite_keeps (fun _ h1 => (typedWrite_keeps h1)) k3)

theorem statusUpdate_keeps {s0 a1} (k1 : Keeps s0 a1) : Keeps s0 (statusUpdate a1) := by
  unfold statusUpdate
  extract_lets -merge +onlyGivenNames w1
  try clear_value w1
  exact (State.modBoard_keeps k1)

theorem railSet_keeps {s0 a1 a2 a3 a4 a5} (k5 : Keeps s0 a5) : Keeps s0 (railSet a1 a2 a3 a4 a5) := by
  unfold railSet
  extract_lets -merge +onlyGivenNames s1
  have h1 : Keeps s0 s1 := (State.setReg_keeps k5)
  clear_value s1
  extract_lets -merge +onlyGivenNames pk2
  try clear_value pk2
  exact (State.setReg_keeps h1)

theorem telemRead_keeps {s0 a1 a2 a3 a4 a5} (k5 : Keeps s0 a5) : Keeps s0 (telemRead a1 a2 a3 a4 a5) := by
  unfold telemRead
  extract_lets -merge +onlyGivenNames s1
  have h1 : Keeps s0 s1 := (upto_keeps (P := Keeps s0) (fun _ _ h2 => (by
      split
      · exact (railSet_keeps h2))) k5)
  clear_value s1
  extract_lets -merge +onlyGivenNames h3
  try clear_value h3
  extract_lets -merge +onlyGivenNames s4
  have h4 : Keeps s0 s4 := (State.setReg_keeps h1)
  clear_value s4
  exact (statusUpdate_keeps h4)

theorem telemUpdate_keeps {s0 a1 a2 a3 a4 a5} (k5 : Keeps s0 a5) : Keeps s0 (telemUpdate a1 a2 a3 a4 a5) := by
  unfold telemUpdate
  exact (ite_keeps k5 (ite_keeps (telemRead_keeps k5) (ite_keeps (bgWait_keeps (bgWait_keeps k5)) (telemRead_keeps (bgSpend_keeps (bgSpend_keeps k5))))))

theorem calTick_keeps {s0 a1} (k1 : Keeps s0 a1) : Keeps s0 (calTick a1) := by
  unfold calTick
  extract_lets -merge +onlyGivenNames d1
  try clear_value d1
  extract_lets -merge +onlyGivenNames load2
  try clear_value load2
  extract_lets -merge +onlyGivenNames s3
  have h3 : Keeps s0 s3 := (State.modBoard_keeps k1)
  clear_value s3
  exact (ite_keeps (calRead_keeps (State.setFlag_keeps (State.setReg_keeps h3))) (State.setReg_keeps h3))

theorem opCalCtl_keeps {s0 a1 a2 a3} (k3 : Keeps s0 a3) : Keeps s0 (opCalCtl a1 a2 a3) := by
  unfold opCalCtl
  exact (regWrite_keeps (fun _ h1 => (by
      extract_lets -merge +onlyGivenNames s2
      have h2 : Keeps s0 s2 := (typedWrite_keeps h1)
      clear_value s2
      exact (ite_keeps (State.modBoard_keeps h2) h2))) k3)

theorem opCalLoad_keeps {s0 a1 a2} (k2 : Keeps s0 a2) : Keeps s0 (opCalLoad a1 a2) := by
  unfold opCalLoad
  exact (opCalCtl_keeps k2)

theorem oscStop_keeps {s0 a1} (k1 : Keeps s0 a1) : Keeps s0 (oscStop a1) := by
  unfold oscStop
  exact (State.setFlag_keeps (State.setFlag_keeps k1))

theorem vbatLow_keeps {s0 a1} (k1 : Keeps s0 a1) : Keeps s0 (vbatLow a1) := by
  unfold vbatLow
  exact (ite_keeps k1 (State.setFlag_keeps k1))

theorem pmbus_keeps {s0 a1 a2 a3} (k2 : ∀ z1, Keeps s0 z1 → KP s0 (a2 z1)) (k3 : Keeps s0 a3) : Keeps s0 (pmbus a1 a2 a3) := by
  unfold pmbus
  exact (ite_keeps (State.modBoard_keeps k3) (by
      split
      · rename_i y1 y2 e3
        have h2 : Keeps s0 y2 := (KP.get (of_eq (P := KP s0) e3 (k2 _ k3)))
        exact (State.modBoard_keeps h2)))

theorem pmRead_keeps {s0 a1 a2 a3} (k3 : Keeps s0 a3) : Keeps s0 (pmRead a1 a2 a3) := by
  unfold pmRead
  exact (pmbus_keeps (fun _ h1 => (KP.mk h1)) k3)

theorem pmWord_keeps {s0 a1 a2 a3 a4} (k4 : Keeps s0 a4) : Keeps s0 (pmWord a1 a2 a3 a4) := by
  unfold pmWord
  exact (pmRead_keeps k4)

theorem pmPage_keeps {s0 a1 a2 a3} (k3 : Keeps s0 a3) : Keeps s0 (pmPage a1 a2 a3) := by
  unfold pmPage
  exact (pmbus_keeps (fun _ h1 => (by
      split
      · exact (KP.mk h1)
      · exact (ite_keeps (KP.mk (State.modBoard_keeps h1)) (KP.mk h1)))) k3)

theorem alertEnd_keeps {s0 a1} (k1 : Keeps s0 a1) : Keeps s0 (alertEnd a1) := by
  unfold alertEnd
  exact (State.modBoard_keeps k1)

theorem pmClear_keeps {s0 a1 a2} (k2 : Keeps s0 a2) : Keeps s0 (pmClear a1 a2) := by
  unfold pmClear
  exact (pmbus_keeps (fun _ h1 => (KP.mk (alertEnd_keeps (State.modBoard_keeps h1)))) k2)

theorem pmCapability_keeps {s0 a1 a2} (k2 : Keeps s0 a2) : Keeps s0 (pmCapability a1 a2) := by
  unfold pmCapability
  exact (pmRead_keeps k2)

theorem pmVoutMode_keeps {s0 a1 a2} (k2 : Keeps s0 a2) : Keeps s0 (pmVoutMode a1 a2) := by
  unfold pmVoutMode
  exact (pmRead_keeps k2)

theorem pmStatusWord_keeps {s0 a1 a2} (k2 : Keeps s0 a2) : Keeps s0 (pmStatusWord a1 a2) := by
  unfold pmStatusWord
  exact (pmWord_keeps k2)

theorem pmStatusTemp_keeps {s0 a1 a2} (k2 : Keeps s0 a2) : Keeps s0 (pmStatusTemp a1 a2) := by
  unfold pmStatusTemp
  exact (pmRead_keeps k2)

theorem pmVin_keeps {s0 a1 a2} (k2 : Keeps s0 a2) : Keeps s0 (pmVin a1 a2) := by
  unfold pmVin
  exact (pmWord_keeps k2)

theorem pmIin_keeps {s0 a1 a2} (k2 : Keeps s0 a2) : Keeps s0 (pmIin a1 a2) := by
  unfold pmIin
  exact (pmWord_keeps k2)

theorem pmVout_keeps {s0 a1 a2} (k2 : Keeps s0 a2) : Keeps s0 (pmVout a1 a2) := by
  unfold pmVout
  exact (pmWord_keeps k2)

theorem pmIout_keeps {s0 a1 a2} (k2 : Keeps s0 a2) : Keeps s0 (pmIout a1 a2) := by
  unfold pmIout
  exact (pmWord_keeps k2)

theorem pmPout_keeps {s0 a1 a2} (k2 : Keeps s0 a2) : Keeps s0 (pmPout a1 a2) := by
  unfold pmPout
  exact (pmWord_keeps k2)

theorem pmPin_keeps {s0 a1 a2} (k2 : Keeps s0 a2) : Keeps s0 (pmPin a1 a2) := by
  unfold pmPin
  exact (pmWord_keeps k2)

theorem pmTemp_keeps {s0 a1 a2 a3} (k3 : Keeps s0 a3) : Keeps s0 (pmTemp a1 a2 a3) := by
  unfold pmTemp
  exact (pmWord_keeps k3)

theorem pmRevision_keeps {s0 a1 a2} (k2 : Keeps s0 a2) : Keeps s0 (pmRevision a1 a2) := by
  unfold pmRevision
  exact (pmRead_keeps k2)

theorem pmMfrId_keeps {s0 a1 a2} (k2 : Keeps s0 a2) : Keeps s0 (pmMfrId a1 a2) := by
  unfold pmMfrId
  exact (pmRead_keeps k2)

theorem pmMfrModel_keeps {s0 a1 a2} (k2 : Keeps s0 a2) : Keeps s0 (pmMfrModel a1 a2) := by
  unfold pmMfrModel
  exact (pmRead_keeps k2)

theorem pmPowerCap_keeps {s0 a1 a2 a3} (k3 : Keeps s0 a3) : Keeps s0 (pmPowerCap a1 a2 a3) := by
  unfold pmPowerCap
  exact (pmbus_keeps (fun _ h1 => (by
      split
      · exact (KP.mk h1)
      · extract_lets -merge +onlyGivenNames v2
        try clear_value v2
        exact (ite_keeps (KP.mk (State.setFld_keeps h1)) (KP.mk h1)))) k3)

theorem alertResponse_keeps {s0 a1} (k1 : Keeps s0 a1) : Keeps s0 (alertResponse a1) := by
  unfold alertResponse
  exact (pmbus_keeps (fun _ h1 => (ite_keeps (KP.mk (alertEnd_keeps (State.modBoard_keeps h1))) (KP.mk h1))) k1)

theorem jtagLoad_keeps {s0 a1 a2} (k2 : Keeps s0 a2) : Keeps s0 (jtagLoad a1 a2) := by
  unfold jtagLoad
  exact (ite_keeps k2 (ite_keeps (warmReset_keeps (State.modBoard_keeps k2)) (by
      extract_lets -merge +onlyGivenNames listed1
      try clear_value listed1
      exact (State.modBoard_keeps k2))))

theorem jtagBypass_keeps {s0 a1} (k1 : Keeps s0 a1) : Keeps s0 (jtagBypass a1) := by
  unfold jtagBypass
  exact (ite_keeps (State.modBoard_keeps (jtagLoad_keeps k1)) k1)

theorem jtagIdcode_keeps {s0 a1} (k1 : Keeps s0 a1) : Keeps s0 (jtagIdcode a1) := by
  unfold jtagIdcode
  exact (ite_keeps (State.modBoard_keeps (jtagLoad_keeps k1)) k1)

theorem jtagSample_keeps {s0 a1 a2} (k2 : Keeps s0 a2) : Keeps s0 (jtagSample a1 a2) := by
  unfold jtagSample
  exact (ite_keeps (by
      split
      · rename_i y1 y2 e3
        have h2 : Keeps s0 y2 := (KP.get (of_eq (P := KP s0) e3 (State.fresh_keeps (jtagLoad_keeps k2))))
        exact (State.modBoard_keeps h2)) k2)

theorem jtagExtest_keeps {s0 a1} (k1 : Keeps s0 a1) : Keeps s0 (jtagExtest a1) := by
  unfold jtagExtest
  exact (jtagLoad_keeps k1)

theorem jtagExtestPulse_keeps {s0 a1} (k1 : Keeps s0 a1) : Keeps s0 (jtagExtestPulse a1) := by
  unfold jtagExtestPulse
  exact (jtagLoad_keeps k1)

theorem jtagDebug_keeps {s0 a1} (k1 : Keeps s0 a1) : Keeps s0 (jtagDebug a1) := by
  unfold jtagDebug
  exact (jtagLoad_keeps k1)

theorem trstN_keeps {s0 a1} (k1 : Keeps s0 a1) : Keeps s0 (trstN a1) := by
  unfold trstN
  exact (State.modBoard_keeps k1)

end Sys2Proof.Machine
end

