-- ==== Sys2Proof/Laws/KeepMmio.lean ====
section
/-! SUPPORT. What the operations of Machine/Mmio.lean keep (Laws/Keeps.lean). -/

namespace Sys2Proof.Machine

theorem plainWrite_keeps {s0 a1 a2 a3 a4} (k4 : Keeps s0 a4) : Keeps s0 (plainWrite a1 a2 a3 a4) := by
  unfold plainWrite
  exact (regWrite_keeps (fun _ h1 => (typedWrite_keeps h1)) k4)

theorem guardedWrite_keeps {s0 a1 a2 a3 a4 a5} (k5 : Keeps s0 a5) : Keeps s0 (guardedWrite a1 a2 a3 a4 a5) := by
  unfold guardedWrite
  exact (regWrite_keeps (fun _ h1 => (typedWrite_keeps h1)) k5)

theorem refuse_keeps {s0 a1} (k1 : Keeps s0 a1) : Keeps s0 (refuse a1) := by
  unfold refuse
  exact (by exact Keeps.same k1 rfl rfl rfl rfl rfl rfl rfl rfl)

theorem writePart_keeps {s0 a1 a2 a3 a4 a5} (k5 : Keeps s0 a5) : Keeps s0 (writePart a1 a2 a3 a4 a5) := by
  unfold writePart
  exact (ite_keeps (opPtRange_keeps k5) (ite_keeps (opPtReset_keeps k5) (plainWrite_keeps k5)))

theorem writeHg_keeps {s0 a1 a2 a3 a4 a5 a6} (k6 : Keeps s0 a6) : Keeps s0 (writeHg a1 a2 a3 a4 a5 a6) := by
  unfold writeHg
  exact (ite_keeps (opHgLease_keeps k6) (ite_keeps (opHgLeaseCfg_keeps k6) (ite_keeps (opHgCoreRst_keeps k6) (ite_keeps (opHgReset_keeps k6) (ite_keeps (opFwCore_keeps k6) (plainWrite_keeps k6))))))

theorem writeLog_keeps {s0 a1 a2 a3 a4 a5} (k5 : Keeps s0 a5) : Keeps s0 (writeLog a1 a2 a3 a4 a5) := by
  unfold writeLog
  extract_lets -merge +onlyGivenNames p1
  try clear_value p1
  extract_lets -merge +onlyGivenNames r2
  try clear_value r2
  exact (ite_keeps (opSnGuarded_keeps k5) (ite_keeps (opLogCommit_keeps k5) (ite_keeps (opSnCtl_keeps k5) (ite_keeps (opSnCmd_keeps k5) (plainWrite_keeps k5)))))

theorem writeFlume_keeps {s0 a1 a2 a3 a4 a5 a6} (k6 : Keeps s0 a6) : Keeps s0 (writeFlume a1 a2 a3 a4 a5 a6) := by
  unfold writeFlume
  extract_lets -merge +onlyGivenNames v1
  try clear_value v1
  exact (ite_keeps (guardedWrite_keeps k6) (plainWrite_keeps k6))

theorem writeCulvert_keeps {s0 a1 a2 a3 a4 a5 a6} (k6 : Keeps s0 a6) : Keeps s0 (writeCulvert a1 a2 a3 a4 a5 a6) := by
  unfold writeCulvert
  extract_lets -merge +onlyGivenNames n1
  try clear_value n1
  extract_lets -merge +onlyGivenNames r2
  try clear_value r2
  exact (ite_keeps (plainWrite_keeps k6) (ite_keeps (opCvCount_keeps k6) (ite_keeps (guardedWrite_keeps k6) (plainWrite_keeps k6))))

theorem writeKnot_keeps {s0 a1 a2 a3 a4 a5 a6} (k6 : Keeps s0 a6) : Keeps s0 (writeKnot a1 a2 a3 a4 a5 a6) := by
  unfold writeKnot
  exact (ite_keeps (opKnotWord_keeps k6) (plainWrite_keeps k6))

theorem opSluCtl_keeps {s0 a1 a2 a3 a4} (k4 : Keeps s0 a4) : Keeps s0 (opSluCtl a1 a2 a3 a4) := by
  unfold opSluCtl
  extract_lets -merge +onlyGivenNames s1
  have h1 : Keeps s0 s1 := (plainWrite_keeps k4)
  clear_value s1
  exact (ite_keeps (opSluAbort_keeps h1) h1)

theorem writeSc_keeps {s0 a1 a2 a3 a4 a5 a6} (k6 : Keeps s0 a6) : Keeps s0 (writeSc a1 a2 a3 a4 a5 a6) := by
  unfold writeSc
  exact (ite_keeps (opSluDoorbell_keeps k6) (ite_keeps (opSluBcast_keeps k6) (ite_keeps (ite_keeps (opSluErrClear_keeps k6) (guardedWrite_keeps k6)) (ite_keeps (opSluCtl_keeps k6) (ite_keeps (opBret_keeps k6) (plainWrite_keeps k6))))))

theorem writeCmem_keeps {s0 a1 a2 a3 a4} (k4 : Keeps s0 a4) : Keeps s0 (writeCmem a1 a2 a3 a4) := by
  unfold writeCmem
  extract_lets -merge +onlyGivenNames t1
  have h1 : Keeps s0 t1 := (opCmem_keeps k4)
  clear_value t1
  exact (ite_keeps (fwStart_keeps h1) h1)

theorem writeLedger_keeps {s0 a1 a2 a3 a4 a5} (k5 : Keeps s0 a5) : Keeps s0 (writeLedger a1 a2 a3 a4 a5) := by
  unfold writeLedger
  exact (ite_keeps (by
      extract_lets -merge +onlyGivenNames w1
      try clear_value w1
      extract_lets -merge +onlyGivenNames r2
      try clear_value r2
      exact (ite_keeps (guardedWrite_keeps k5) (ite_keeps (opLedger_keeps k5) (plainWrite_keeps k5)))) (ite_keeps (writeCmem_keeps k5) (plainWrite_keeps k5)))

theorem writeGauge_keeps {s0 a1 a2 a3 a4 a5} (k5 : Keeps s0 a5) : Keeps s0 (writeGauge a1 a2 a3 a4 a5) := by
  unfold writeGauge
  exact (ite_keeps (opGrange_keeps k5) (ite_keeps (by
      extract_lets -merge +onlyGivenNames p1
      try clear_value p1
      exact (ite_keeps (regWrite_keeps (fun _ h2 => (geCmd_keeps h2)) k5) (ite_keeps (opSrSeed_keeps k5) (plainWrite_keeps k5)))) (plainWrite_keeps k5)))

theorem writeHitch_keeps {s0 a1 a2 a3 a4 a5} (k5 : Keeps s0 a5) : Keeps s0 (writeHitch a1 a2 a3 a4 a5) := by
  unfold writeHitch
  exact (ite_keeps (by
      extract_lets -merge +onlyGivenNames h1
      try clear_value h1
      exact (ite_keeps (opHtCfg_keeps k5) (ite_keeps (guardedWrite_keeps k5) (guardedWrite_keeps k5)))) (ite_keeps (opHitchMask_keeps k5) (plainWrite_keeps k5)))

theorem opHcCfg_keeps {s0 a1 a2 a3 a4 a5} (k5 : Keeps s0 a5) : Keeps s0 (opHcCfg a1 a2 a3 a4 a5) := by
  unfold opHcCfg
  extract_lets -merge +onlyGivenNames v1
  try clear_value v1
  exact (plainWrite_keeps k5)

theorem writeHawser_keeps {s0 a1 a2 a3 a4 a5 a6} (k6 : Keeps s0 a6) : Keeps s0 (writeHawser a1 a2 a3 a4 a5 a6) := by
  unfold writeHawser
  exact (ite_keeps (opHwCtl_keeps k6) (ite_keeps (by
      extract_lets -merge +onlyGivenNames n1
      try clear_value n1
      extract_lets -merge +onlyGivenNames r2
      try clear_value r2
      exact (ite_keeps (opHcHead_keeps k6) (ite_keeps (regWrite_keeps (fun _ h3 => (chCountWrite_keeps h3)) k6) (ite_keeps (guardedWrite_keeps k6) (ite_keeps (opHcCfg_keeps k6) (plainWrite_keeps k6)))))) (ite_keeps (plainWrite_keeps k6) (plainWrite_keeps k6))))

theorem writeCapstan_keeps {s0 a1 a2 a3 a4 a5} (k5 : Keeps s0 a5) : Keeps s0 (writeCapstan a1 a2 a3 a4 a5) := by
  unfold writeCapstan
  exact (ite_keeps (opCapDim_keeps k5) (ite_keeps (opCapDoorbell_keeps k5) (ite_keeps (opCapGrp_keeps k5) (plainWrite_keeps k5))))

theorem writeTether_keeps {s0 a1 a2 a3 a4 a5} (k5 : Keeps s0 a5) : Keeps s0 (writeTether a1 a2 a3 a4 a5) := by
  unfold writeTether
  exact (ite_keeps (opTtCtl_keeps k5) (ite_keeps (opTtCw_keeps k5) (ite_keeps (opTtMsi_keeps k5) (ite_keeps (by
      extract_lets -merge +onlyGivenNames h1
      try clear_value h1
      extract_lets -merge +onlyGivenNames r2
      try clear_value r2
      exact (ite_keeps (guardedWrite_keeps k5) (ite_keeps (guardedWrite_keeps k5) (ite_keeps (opMbCtl_keeps k5) (plainWrite_keeps k5))))) (plainWrite_keeps k5)))))

theorem mmioWrite_keeps {s0 a1 a2 a3 a4} (k4 : Keeps s0 a4) : Keeps s0 (mmioWrite a1 a2 a3 a4) := by
  unfold mmioWrite
  exact (ite_keeps (refuse_keeps k4) (by
      split
      · exact (refuse_keeps k4)
      · split
        · exact (writePart_keeps k4)
        · exact (ite_keeps (opCalCtl_keeps k4) (plainWrite_keeps k4))
        · exact (ite_keeps (opThrCtl_keeps k4) (plainWrite_keeps k4))
        · exact (refuse_keeps k4)
        · exact (writeHg_keeps k4)
        · exact (ite_keeps (opCk_keeps k4) (plainWrite_keeps k4))
        · exact (writeLog_keeps k4)
        · exact (opCoreReg_keeps k4)
        · exact (writeFlume_keeps k4)
        · exact (writeCulvert_keeps k4)
        · exact (writeKnot_keeps k4)
        · exact (writeSc_keeps k4)
        · exact (ite_keeps (guardedWrite_keeps k4) (plainWrite_keeps k4))
        · exact (writeLedger_keeps k4)
        · exact (writeGauge_keeps k4)
        · exact (opKnotWord_keeps k4)
        · exact (writeHitch_keeps k4)
        · exact (writeHawser_keeps k4)
        · exact (writeCapstan_keeps k4)
        · exact (ite_keeps (opSpw_keeps k4) (refuse_keeps k4))
        · exact (writeTether_keeps k4)
        · exact (plainWrite_keeps k4)
        · exact (plainWrite_keeps k4)
        · exact (plainWrite_keeps k4)
        · exact (plainWrite_keeps k4)
        · exact (plainWrite_keeps k4)
        · exact (plainWrite_keeps k4)))

theorem mmioRead_keeps {s0 a1 a2 a3} (k3 : Keeps s0 a3) : Keeps s0 (mmioRead a1 a2 a3) := by
  unfold mmioRead
  exact (ite_keeps (by
      extract_lets -merge +onlyGivenNames x1
      have h1 : Keeps s0 x1 := (gateNack_keeps k3)
      clear_value x1
      exact (by exact Keeps.same h1 rfl rfl rfl rfl rfl rfl rfl rfl)) (by
      split
      · split
        · rename_i y2 y3 e4
          have h3 : Keeps s0 y3 := (KP.get (KOpt.get (of_eq (P := KOpt (KP s0)) e4 (coreRegRead_keeps k3))))
          exact (by exact Keeps.same h3 rfl rfl rfl rfl rfl rfl rfl rfl)
        · exact (by exact Keeps.same k3 rfl rfl rfl rfl rfl rfl rfl rfl)
      · extract_lets -merge +onlyGivenNames x6
        have h6 : Keeps s0 x6 := (readClear_keeps k3)
        clear_value x6
        exact (by exact Keeps.same h6 rfl rfl rfl rfl rfl rfl rfl rfl)))

theorem regRsp_keeps {s0 a1 a2 a3} (k3 : Keeps s0 a3) : Keeps s0 (regRsp a1 a2 a3) := by
  unfold regRsp
  split
  · exact (ttReply_keeps k3)
  · exact (ttReply_keeps k3)

theorem regRd_keeps {s0 a1 a2 a3} (k3 : Keeps s0 a3) : Keeps s0 (regRd a1 a2 a3) := by
  unfold regRd
  exact (onMsg_keeps (fun _ h1 => (by
      extract_lets -merge +onlyGivenNames s2
      have h2 : Keeps s0 s2 := (takeMsg_keeps h1)
      clear_value s2
      exact (regRsp_keeps (by
          split
          · exact (mmioRead_keeps h2)
          · exact (refuse_keeps h2))))) k3)

theorem regWr_keeps {s0 a1 a2 a3} (k3 : Keeps s0 a3) : Keeps s0 (regWr a1 a2 a3) := by
  unfold regWr
  exact (onMsg_keeps (fun _ h1 => (by
      extract_lets -merge +onlyGivenNames s2
      have h2 : Keeps s0 s2 := (takeMsg_keeps h1)
      clear_value s2
      exact (regRsp_keeps (by
          split
          · exact (mmioWrite_keeps h2)
          · exact (refuse_keeps h2))))) k3)

theorem opTcfgMmio_keeps {s0 a1 a2 a3 a4 a5} (k5 : Keeps s0 a5) : Keeps s0 (opTcfgMmio a1 a2 a3 a4 a5) := by
  unfold opTcfgMmio
  exact (ite_keeps (opCoreReg_keeps k5) k5)

end Sys2Proof.Machine
end

