-- ==== Sys2Proof/Laws/KeepLoadStore.lean ====
section
/-! SUPPORT. What the operations of Machine/LoadStore.lean keep (Laws/Keeps.lean). -/

namespace Sys2Proof.Machine

theorem regAccess_keeps {s0 a1 a2 a3 a4 a5 a6} (k4 : ∀ z1, Keeps s0 z1 → Keeps s0 (a4 z1)) (k5 : ∀ z1 z2, Keeps s0 z2 → Keeps s0 (a5 z1 z2)) (k6 : Keeps s0 a6) : Keeps s0 (regAccess a1 a2 a3 a4 a5 a6) := by
  unfold regAccess
  exact (ite_keeps (trap_keeps k6) (by
      extract_lets -merge +onlyGivenNames t1
      have h1 : Keeps s0 t1 := (k4 _ k6)
      clear_value t1
      split
      · exact (k5 _ _ h1)
      · exact (trap_keeps h1)))

theorem touchLines_keeps {s0 a1 a2 a3} (k3 : Keeps s0 a3) : Keeps s0 (touchLines a1 a2 a3) := by
  unfold touchLines
  exact (each_keeps (P := Keeps s0) (fun _ _ h1 => (touchTc_keeps h1)) k3)

theorem loadSend_keeps {s0 a1 a2 a3 a4 a5 a6} (k6 : Keeps s0 a6) : Keeps s0 (loadSend a1 a2 a3 a4 a5 a6) := by
  unfold loadSend
  extract_lets -merge +onlyGivenNames ls1
  try clear_value ls1
  extract_lets -merge +onlyGivenNames i2
  try clear_value i2
  split
  · exact k6
  · rename_i y4 y5 y6 e7
    have h6 : Keeps s0 y6 := (KP.get (KSnd.get (KOpt.get (of_eq (P := KOpt (KSnd (KP s0))) e7 (sendReads_keeps (touchLines_keeps k6))))))
    exact (memFinish_keeps (State.modCur_keeps h6))

theorem loadAt_keeps {s0 a1 a2 a3 a4 a5 a6} (k6 : Keeps s0 a6) : Keeps s0 (loadAt a1 a2 a3 a4 a5 a6) := by
  unfold loadAt
  split
  · exact (trapAcc_keeps k6)
  · exact (ite_keeps (by
        extract_lets -merge +onlyGivenNames off1
        try clear_value off1
        exact (ite_keeps k6 (by
            split
            · exact (trap_keeps (spadSeen_keeps k6))
            · exact (State.retireG_keeps (spadSeen_keeps k6))))) (loadSend_keeps k6))

theorem load_keeps {s0 a1 a2 a3 a4 a5 a6 a7 a8} (k8 : Keeps s0 a8) : Keeps s0 (load a1 a2 a3 a4 a5 a6 a7 a8) := by
  unfold load
  exact (issue4_keeps (fun _ h1 => (by
      extract_lets -merge +onlyGivenNames va2
      try clear_value va2
      exact (ite_keeps (trap_keeps h1) (ite_keeps (regAccess_keeps (fun _ h3 => (mmioRead_keeps h3)) (fun _ _ h4 => (State.retireG_keeps h4)) h1) (loadAt_keeps h1))))) k8)

theorem storeSend_keeps {s0 a1 a2 a3 a4 a5} (k5 : Keeps s0 a5) : KOpt (Keeps s0) (storeSend a1 a2 a3 a4 a5) := by
  induction a4 generalizing a1 a2 a3 a5 with
  | nil =>
    rw [storeSend.eq_1]
    exact (KOpt.mk k5)
  | cons x r ih =>
    rw [storeSend.eq_2]
    split
    · rename_i y1 e2
      have h1 : Keeps s0 y1 := (KOpt.get (of_eq (P := KOpt (Keeps s0)) e2 (postWrite_keeps k5)))
      exact (ih h1)
    · exact KOpt.non

theorem storeAt_keeps {s0 a1 a2 a3 a4} (k4 : Keeps s0 a4) : Keeps s0 (storeAt a1 a2 a3 a4) := by
  unfold storeAt
  split
  · exact (trapAcc_keeps k4)
  · exact (ite_keeps (by
        extract_lets -merge +onlyGivenNames off1
        try clear_value off1
        exact (ite_keeps k4 (State.retire_keeps (spadWrite_keeps k4)))) (by
        extract_lets -merge +onlyGivenNames ls2
        try clear_value ls2
        split
        · rename_i y3 e4
          have h3 : Keeps s0 y3 := (KOpt.get (of_eq (P := KOpt (Keeps s0)) e4 (storeSend_keeps (touchLines_keeps k4))))
          exact (State.modCur_keeps h3)
        · exact k4))

theorem store_keeps {s0 a1 a2 a3 a4 a5 a6 a7} (k7 : Keeps s0 a7) : Keeps s0 (store a1 a2 a3 a4 a5 a6 a7) := by
  unfold store
  exact (issue4_keeps (fun _ h1 => (by
      extract_lets -merge +onlyGivenNames va2
      try clear_value va2
      extract_lets -merge +onlyGivenNames v3
      try clear_value v3
      exact (ite_keeps (trap_keeps h1) (ite_keeps (regAccess_keeps (fun _ h4 => (mmioWrite_keeps h4)) (fun _ _ h5 => (State.retire_keeps h5)) h1) (storeAt_keeps h1))))) k7)

theorem opLb_keeps {s0 a1 a2 a3 a4 a5} (k5 : Keeps s0 a5) : Keeps s0 (opLb a1 a2 a3 a4 a5) := by
  unfold opLb
  exact (load_keeps k5)

theorem opLbu_keeps {s0 a1 a2 a3 a4 a5} (k5 : Keeps s0 a5) : Keeps s0 (opLbu a1 a2 a3 a4 a5) := by
  unfold opLbu
  exact (load_keeps k5)

theorem opLh_keeps {s0 a1 a2 a3 a4 a5} (k5 : Keeps s0 a5) : Keeps s0 (opLh a1 a2 a3 a4 a5) := by
  unfold opLh
  exact (load_keeps k5)

theorem opLhu_keeps {s0 a1 a2 a3 a4 a5} (k5 : Keeps s0 a5) : Keeps s0 (opLhu a1 a2 a3 a4 a5) := by
  unfold opLhu
  exact (load_keeps k5)

theorem opLw_keeps {s0 a1 a2 a3 a4 a5} (k5 : Keeps s0 a5) : Keeps s0 (opLw a1 a2 a3 a4 a5) := by
  unfold opLw
  exact (load_keeps k5)

theorem opLwu_keeps {s0 a1 a2 a3 a4 a5} (k5 : Keeps s0 a5) : Keeps s0 (opLwu a1 a2 a3 a4 a5) := by
  unfold opLwu
  exact (load_keeps k5)

theorem opLd_keeps {s0 a1 a2 a3 a4 a5} (k5 : Keeps s0 a5) : Keeps s0 (opLd a1 a2 a3 a4 a5) := by
  unfold opLd
  exact (load_keeps k5)

theorem opSb_keeps {s0 a1 a2 a3 a4 a5} (k5 : Keeps s0 a5) : Keeps s0 (opSb a1 a2 a3 a4 a5) := by
  unfold opSb
  exact (store_keeps k5)

theorem opSh_keeps {s0 a1 a2 a3 a4 a5} (k5 : Keeps s0 a5) : Keeps s0 (opSh a1 a2 a3 a4 a5) := by
  unfold opSh
  exact (store_keeps k5)

theorem opSw_keeps {s0 a1 a2 a3 a4 a5} (k5 : Keeps s0 a5) : Keeps s0 (opSw a1 a2 a3 a4 a5) := by
  unfold opSw
  exact (store_keeps k5)

theorem opSd_keeps {s0 a1 a2 a3 a4 a5} (k5 : Keeps s0 a5) : Keeps s0 (opSd a1 a2 a3 a4 a5) := by
  unfold opSd
  exact (store_keeps k5)

theorem atomSend_keeps {s0 a1 a2 a3 a4 a5 a6 a7 a8} (k8 : Keeps s0 a8) : Keeps s0 (atomSend a1 a2 a3 a4 a5 a6 a7 a8) := by
  unfold atomSend
  split
  · exact k8
  · extract_lets -merge +onlyGivenNames s1
    have h1 : Keeps s0 s1 := (l1Drop_keeps (touchTc_keeps k8))
    clear_value s1
    extract_lets -merge +onlyGivenNames pay2
    try clear_value pay2
    extract_lets -merge +onlyGivenNames x3
    try clear_value x3
    extract_lets -merge +onlyGivenNames s4
    have h4 : Keeps s0 s4 := (sendReq_keeps h1)
    clear_value s4
    exact (State.modCur_keeps h4)

theorem atomic_keeps {s0 a1 a2 a3 a4 a5 a6 a7 a8} (k8 : Keeps s0 a8) : Keeps s0 (atomic a1 a2 a3 a4 a5 a6 a7 a8) := by
  unfold atomic
  exact (issue4_keeps (fun _ h1 => (by
      extract_lets -merge +onlyGivenNames va2
      try clear_value va2
      extract_lets -merge +onlyGivenNames sz3
      try clear_value sz3
      extract_lets -merge +onlyGivenNames p4
      try clear_value p4
      exact (ite_keeps (trap_keeps h1) (ite_keeps (trap_keeps h1) (by
          split
          · exact (trapAcc_keeps h1)
          · split
            · exact (atomSend_keeps h1)
            · exact h1))))) k8)

theorem opAtomSwap_keeps {s0 a1 a2 a3 a4 a5 a6 a7} (k7 : Keeps s0 a7) : Keeps s0 (opAtomSwap a1 a2 a3 a4 a5 a6 a7) := by
  unfold opAtomSwap
  exact (atomic_keeps k7)

theorem opAtomAdd_keeps {s0 a1 a2 a3 a4 a5 a6 a7} (k7 : Keeps s0 a7) : Keeps s0 (opAtomAdd a1 a2 a3 a4 a5 a6 a7) := by
  unfold opAtomAdd
  exact (atomic_keeps k7)

theorem opAtomAnd_keeps {s0 a1 a2 a3 a4 a5 a6 a7} (k7 : Keeps s0 a7) : Keeps s0 (opAtomAnd a1 a2 a3 a4 a5 a6 a7) := by
  unfold opAtomAnd
  exact (atomic_keeps k7)

theorem opAtomOr_keeps {s0 a1 a2 a3 a4 a5 a6 a7} (k7 : Keeps s0 a7) : Keeps s0 (opAtomOr a1 a2 a3 a4 a5 a6 a7) := by
  unfold opAtomOr
  exact (atomic_keeps k7)

theorem opAtomXor_keeps {s0 a1 a2 a3 a4 a5 a6 a7} (k7 : Keeps s0 a7) : Keeps s0 (opAtomXor a1 a2 a3 a4 a5 a6 a7) := by
  unfold opAtomXor
  exact (atomic_keeps k7)

theorem opAtomMax_keeps {s0 a1 a2 a3 a4 a5 a6 a7} (k7 : Keeps s0 a7) : Keeps s0 (opAtomMax a1 a2 a3 a4 a5 a6 a7) := by
  unfold opAtomMax
  exact (atomic_keeps k7)

theorem opAtomMin_keeps {s0 a1 a2 a3 a4 a5 a6 a7} (k7 : Keeps s0 a7) : Keeps s0 (opAtomMin a1 a2 a3 a4 a5 a6 a7) := by
  unfold opAtomMin
  exact (atomic_keeps k7)

theorem opAtomMaxu_keeps {s0 a1 a2 a3 a4 a5 a6 a7} (k7 : Keeps s0 a7) : Keeps s0 (opAtomMaxu a1 a2 a3 a4 a5 a6 a7) := by
  unfold opAtomMaxu
  exact (atomic_keeps k7)

theorem opAtomMinu_keeps {s0 a1 a2 a3 a4 a5 a6 a7} (k7 : Keeps s0 a7) : Keeps s0 (opAtomMinu a1 a2 a3 a4 a5 a6 a7) := by
  unfold opAtomMinu
  exact (atomic_keeps k7)

theorem opAtomCas_keeps {s0 a1 a2 a3 a4 a5 a6 a7} (k7 : Keeps s0 a7) : Keeps s0 (opAtomCas a1 a2 a3 a4 a5 a6 a7) := by
  unfold opAtomCas
  exact (atomic_keeps k7)

end Sys2Proof.Machine
end

