-- ==== Sys2Proof/Laws/KeepEngMove.lean ====
section
/-! SUPPORT. What the operations of Machine/EngMove.lean keep (Laws/Keeps.lean). -/

namespace Sys2Proof.Machine

theorem engRun_keeps {s0 a1 a2} (k2 : Keeps s0 a2) : Keeps s0 (engRun a1 a2) := by
  unfold engRun
  split
  · exact (csrOp_keeps k2)
  · exact (csrOp_keeps k2)
  · exact (csrOp_keeps k2)
  · exact (opTload_keeps k2)
  · exact (opTstore_keeps k2)
  · exact (opTzero_keeps k2)
  · exact (opTrel_keeps k2)
  · exact (opTconf_keeps k2)
  · exact (opMma_keeps k2)
  · exact (opMdrain_keeps k2)
  · exact (opMcfg_keeps k2)
  · exact (opVarithAdd_keeps k2)
  · exact (opVarithSub_keeps k2)
  · exact (opVarithMul_keeps k2)
  · exact (opVarithDiv_keeps k2)
  · exact (opVarithMin_keeps k2)
  · exact (opVarithMax_keeps k2)
  · exact (opVarithAbs_keeps k2)
  · exact (opVarithNeg_keeps k2)
  · exact (opVarithSqrt_keeps k2)
  · exact (opCvtfi_keeps k2)
  · exact (opCvtif_keeps k2)
  · exact (opScaleb_keeps k2)
  · exact (opVarithMov_keeps k2)
  · exact (opVarithSel_keeps k2)
  · exact (opVintAdd_keeps k2)
  · exact (opVintSub_keeps k2)
  · exact (opVintMul_keeps k2)
  · exact (opVintAnd_keeps k2)
  · exact (opVintOr_keeps k2)
  · exact (opVintXor_keeps k2)
  · exact (opVintSll_keeps k2)
  · exact (opVintSrl_keeps k2)
  · exact (opVintSra_keeps k2)
  · exact (opVintMin_keeps k2)
  · exact (opVintMax_keeps k2)
  · exact (opVfma_keeps k2)
  · exact (opVfmaSub_keeps k2)
  · exact (opVfmaNeg_keeps k2)
  · exact (opVscalAdd_keeps k2)
  · exact (opVscalSub_keeps k2)
  · exact (opVscalMul_keeps k2)
  · exact (opVscalDiv_keeps k2)
  · exact (opVscalMin_keeps k2)
  · exact (opVscalMax_keeps k2)
  · exact (opVcmpEq_keeps k2)
  · exact (opVcmpNe_keeps k2)
  · exact (opVcmpLt_keeps k2)
  · exact (opVcmpLe_keeps k2)
  · exact (opVcmpGt_keeps k2)
  · exact (opVcmpGe_keeps k2)
  · exact (opVcmpUnord_keeps k2)
  · exact (opVpredAnd_keeps k2)
  · exact (opVpredOr_keeps k2)
  · exact (opVpredXor_keeps k2)
  · exact (opVpredAndn_keeps k2)
  · exact (opFromg_keeps k2)
  · exact (opTog_keeps k2)
  · exact (opBcast_keeps k2)
  · exact (opVext_keeps k2)
  · exact (opVins_keeps k2)
  · exact (opRot_keeps k2)
  · exact (opVcvtWiden_keeps k2)
  · exact (opVcvtNarrow_keeps k2)
  · exact (opVld_keeps k2)
  · exact (opVst_keeps k2)
  · exact (opVtr_keeps k2)
  · exact (opVtw_keeps k2)
  · exact (opVredSum_keeps k2)
  · exact (opVredMax_keeps k2)
  · exact (opVredSumsq_keeps k2)
  · exact (opVredDot_keeps k2)
  · exact (opVfun_keeps k2)
  · exact (opVmxs_keeps k2)
  · exact (opVcfg_keeps k2)
  · exact (opVfact_keeps k2)
  · exact (opVsolve_keeps k2)
  · exact k2

theorem engStateMoveDone_keeps {s0 a1 a2} (k2 : Keeps s0 a2) : Keeps s0 (engStateMoveDone a1 a2) := by
  unfold engStateMoveDone
  split
  · exact k2
  · extract_lets -merge +onlyGivenNames close1
    have h1 : ∀ z1, Keeps s0 z1 → Keeps s0 (close1 z1) := (fun _ h2 => (State.modCore_keeps h2))
    clear_value close1
    split
    · rename_i y3 e4
      have h3 : Keeps s0 y3 := (KTried.getWait (of_eq (P := KTried s0) e4 (moveEngine_keeps k2)))
      exact h3
    · exact (trap_keeps (h1 _ k2))
    · rename_i y7 e8
      have h7 : Keeps s0 y7 := (KTried.getDone (of_eq (P := KTried s0) e8 (moveEngine_keeps k2)))
      extract_lets -merge +onlyGivenNames pend9
      try clear_value pend9
      exact (State.modCore_keeps (engRun_keeps (h1 _ (State.modCore_keeps h7))))

end Sys2Proof.Machine
end

