-- ==== Sys2Proof/Laws/KeepClock.lean ====
section
/-! SUPPORT. What the operations of Machine/Clock.lean keep (Laws/Keeps.lean). -/

namespace Sys2Proof.Machine

theorem standbyTick_keeps {s0 a1} (k1 : Keeps s0 a1) : Keeps s0 (standbyTick a1) := by
  unfold standbyTick
  exact (ite_keeps (State.count_keeps (State.count_keeps (by exact Keeps.same k1 rfl rfl rfl rfl rfl rfl rfl rfl))) k1)

theorem cycTick_keeps {s0 a1 a2} (k2 : Keeps s0 a2) : Keeps s0 (cycTick a1 a2) := by
  unfold cycTick
  extract_lets -merge +onlyGivenNames c1
  try clear_value c1
  exact (ite_keeps (cycSet_keeps k2) k2)

theorem arrTick_keeps {s0 a1 a2} (k2 : Keeps s0 a2) : Keeps s0 (arrTick a1 a2) := by
  unfold arrTick
  extract_lets -merge +onlyGivenNames k1
  try clear_value k1
  exact (ite_keeps k2 (by
      extract_lets -merge +onlyGivenNames on2
      try clear_value on2
      extract_lets -merge +onlyGivenNames run3
      have h3 : ∀ z1, Keeps s0 z1 → Keeps s0 (run3 z1) := (fun _ h4 => (ite_keeps (State.count_keeps h4) (State.count_keeps h4)))
      clear_value run3
      split
      · exact (ite_keeps (h3 _ k2) k2)
      · exact (ite_keeps (State.count_keeps k2) (by
            extract_lets -merge +onlyGivenNames dryA5
            try clear_value dryA5
            extract_lets -merge +onlyGivenNames dryB6
            try clear_value dryB6
            exact (ite_keeps (State.count_keeps (State.count_keeps k2)) (h3 _ k2))))))

theorem sluTick_keeps {s0 a1 a2} (k2 : Keeps s0 a2) : Keeps s0 (sluTick a1 a2) := by
  unfold sluTick
  extract_lets -merge +onlyGivenNames st1
  try clear_value st1
  exact (ite_keeps k2 (by
      extract_lets -merge +onlyGivenNames x2
      try clear_value x2
      extract_lets -merge +onlyGivenNames s3
      have h3 : Keeps s0 s3 := (State.count_keeps k2)
      clear_value s3
      exact (ite_keeps (State.count_keeps h3) h3)))

theorem tick_keeps {s0 a1} (k1 : Keeps s0 a1) : Keeps s0 (tick a1) := by
  unfold tick
  extract_lets -merge +onlyGivenNames s1
  have h1 : Keeps s0 s1 := (standbyTick_keeps k1)
  clear_value s1
  exact (ite_keeps (by
      extract_lets -merge +onlyGivenNames s2
      have h2 : Keeps s0 s2 := (by exact Keeps.same h1 rfl rfl rfl rfl rfl rfl rfl rfl)
      clear_value s2
      extract_lets -merge +onlyGivenNames s3
      have h3 : Keeps s0 s3 := (each_keeps (P := Keeps s0) (fun _ _ h4 => (cycTick_keeps h4)) h2)
      clear_value s3
      extract_lets -merge +onlyGivenNames s5
      have h5 : Keeps s0 s5 := (each_keeps (P := Keeps s0) (fun _ _ h6 => (State.count_keeps h6)) h3)
      clear_value s5
      extract_lets -merge +onlyGivenNames s7
      have h7 : Keeps s0 s7 := (ite_keeps (State.count_keeps h5) h5)
      clear_value s7
      extract_lets -merge +onlyGivenNames s8
      have h8 : Keeps s0 s8 := (upto_keeps (P := Keeps s0) (fun _ _ h9 => (ite_keeps (State.count_keeps h9) h9)) h7)
      clear_value s8
      extract_lets -merge +onlyGivenNames s10
      have h10 : Keeps s0 s10 := (each_keeps (P := Keeps s0) (fun _ _ h11 => (ite_keeps h11 (arrTick_keeps h11))) h8)
      clear_value s10
      exact (upto_keeps (P := Keeps s0) (fun _ _ h12 => (ite_keeps (State.count_keeps (sluTick_keeps h12)) (sluTick_keeps h12))) h10)) h1)

end Sys2Proof.Machine
end

