-- ==== Sys2Proof/Laws/KeepRunArray.lean ====
section
/-! SUPPORT. What the operations of Machine/RunArray.lean keep (Laws/Keeps.lean). -/

namespace Sys2Proof.Machine

theorem execMma_keeps {s0 a1 a2 a3 a4 a5 a6 a7 a8 a9 a10 a11 a12 a13 a14 a15 a16 a17} (k17 : Keeps s0 a17) : KOut (Keeps s0) (execMma a1 a2 a3 a4 a5 a6 a7 a8 a9 a10 a11 a12 a13 a14 a15 a16 a17) := by
  unfold execMma
  exact (KOut.mk (opMma_keeps k17))

theorem execMdrain_keeps {s0 a1 a2 a3 a4 a5 a6 a7 a8 a9 a10 a11 a12 a13 a14 a15} (k15 : Keeps s0 a15) : KOut (Keeps s0) (execMdrain a1 a2 a3 a4 a5 a6 a7 a8 a9 a10 a11 a12 a13 a14 a15) := by
  unfold execMdrain
  exact (KOut.mk (opMdrain_keeps k15))

theorem execMcfg_keeps {s0 a1 a2 a3 a4 a5 a6} (k6 : Keeps s0 a6) : KOut (Keeps s0) (execMcfg a1 a2 a3 a4 a5 a6) := by
  unfold execMcfg
  exact (KOut.mk (opMcfg_keeps k6))

theorem execMcfgBarrierApply_keeps {s0 a1 a2} (k2 : Keeps s0 a2) : KOut (Keeps s0) (execMcfgBarrierApply a1 a2) := by
  unfold execMcfgBarrierApply
  exact (KOut.mk (mcfgBarrierApply_keeps k2))

theorem execFeederSlotRelease_keeps {s0 a1 a2} (k2 : Keeps s0 a2) : KOut (Keeps s0) (execFeederSlotRelease a1 a2) := by
  unfold execFeederSlotRelease
  exact (KOut.mk (feederSlotRelease_keeps k2))

theorem execMmaComplete_keeps {s0 a1 a2} (k2 : Keeps s0 a2) : KOut (Keeps s0) (execMmaComplete a1 a2) := by
  unfold execMmaComplete
  exact (KOut.mk (mmaComplete_keeps k2))

theorem execMdrainReadEnd_keeps {s0 a1 a2} (k2 : Keeps s0 a2) : KOut (Keeps s0) (execMdrainReadEnd a1 a2) := by
  unfold execMdrainReadEnd
  exact (KOut.mk (mdrainReadEnd_keeps k2))

theorem execMdrainWritten_keeps {s0 a1 a2} (k2 : Keeps s0 a2) : KOut (Keeps s0) (execMdrainWritten a1 a2) := by
  unfold execMdrainWritten
  exact (KOut.mk (mdrainWritten_keeps k2))

theorem execMdrainComplete_keeps {s0 a1 a2} (k2 : Keeps s0 a2) : KOut (Keeps s0) (execMdrainComplete a1 a2) := by
  unfold execMdrainComplete
  exact (KOut.mk (mdrainComplete_keeps k2))

end Sys2Proof.Machine
end

