-- ==== Sys2Proof/Laws/KeepRunBoard.lean ====
section
/-! SUPPORT. What the operations of Machine/RunBoard.lean keep (Laws/Keeps.lean). -/

namespace Sys2Proof.Machine

theorem execVin64Good_keeps {s0 a1} (k1 : Keeps s0 a1) : KOut (Keeps s0) (execVin64Good a1) := by
  unfold execVin64Good
  exact (KOut.mk (vin64Good_keeps k1))

theorem execVin64Undervoltage_keeps {s0 a1} (k1 : Keeps s0 a1) : KOut (Keeps s0) (execVin64Undervoltage a1) := by
  unfold execVin64Undervoltage
  exact (KOut.mk (vin64Under_keeps k1))

theorem execVin64Overvoltage_keeps {s0 a1} (k1 : Keeps s0 a1) : KOut (Keeps s0) (execVin64Overvoltage a1) := by
  unfold execVin64Overvoltage
  exact (KOut.mk (vin64Over_keeps k1))

theorem execAux3v3Good_keeps {s0 a1} (k1 : Keeps s0 a1) : KOut (Keeps s0) (execAux3v3Good a1) := by
  unfold execAux3v3Good
  exact (KOut.mk (aux3v3Good_keeps k1))

theorem execAux3v3Loss_keeps {s0 a1} (k1 : Keeps s0 a1) : KOut (Keeps s0) (execAux3v3Loss a1) := by
  unfold execAux3v3Loss
  exact (KOut.mk (aux3v3Loss_keeps k1))

theorem execInputCharged_keeps {s0 a1} (k1 : Keeps s0 a1) : KOut (Keeps s0) (execInputCharged a1) := by
  unfold execInputCharged
  exact (KOut.mk (inputCharged_keeps k1))

theorem execThermTrip_keeps {s0 a1} (k1 : Keeps s0 a1) : KOut (Keeps s0) (execThermTrip a1) := by
  unfold execThermTrip
  exact (KOut.mk (thermTrip_keeps k1))

theorem execCalTick_keeps {s0 a1} (k1 : Keeps s0 a1) : KOut (Keeps s0) (execCalTick a1) := by
  unfold execCalTick
  exact (KOut.mk (calTick_keeps k1))

theorem execOscStop_keeps {s0 a1} (k1 : Keeps s0 a1) : KOut (Keeps s0) (execOscStop a1) := by
  unfold execOscStop
  exact (KOut.mk (oscStop_keeps k1))

theorem execVbatLow_keeps {s0 a1} (k1 : Keeps s0 a1) : KOut (Keeps s0) (execVbatLow a1) := by
  unfold execVbatLow
  exact (KOut.mk (vbatLow_keeps k1))

theorem execThrottleSample_keeps {s0 a1 a2 a3 a4 a5} (k5 : Keeps s0 a5) : KOut (Keeps s0) (execThrottleSample a1 a2 a3 a4 a5) := by
  unfold execThrottleSample
  exact (KOut.mk (throttleSample_keeps k5))

theorem execTelemUpdate_keeps {s0 a1 a2 a3 a4 a5} (k5 : Keeps s0 a5) : KOut (Keeps s0) (execTelemUpdate a1 a2 a3 a4 a5) := by
  unfold execTelemUpdate
  exact (KOut.mk (telemUpdate_keeps k5))

theorem execThrCtlWrite_keeps {s0 a1 a2 a3} (k3 : Keeps s0 a3) : KOut (Keeps s0) (execThrCtlWrite a1 a2 a3) := by
  unfold execThrCtlWrite
  exact (KOut.mk (opThrCtl_keeps k3))

theorem execCalLoad_keeps {s0 a1 a2} (k2 : Keeps s0 a2) : KOut (Keeps s0) (execCalLoad a1 a2) := by
  unfold execCalLoad
  exact (KOut.mk (opCalLoad_keeps k2))

theorem execPmPage_keeps {s0 a1 a2 a3} (k3 : Keeps s0 a3) : KOut (Keeps s0) (execPmPage a1 a2 a3) := by
  unfold execPmPage
  exact (KOut.mk (pmPage_keeps k3))

theorem execPmClearFaults_keeps {s0 a1 a2} (k2 : Keeps s0 a2) : KOut (Keeps s0) (execPmClearFaults a1 a2) := by
  unfold execPmClearFaults
  exact (KOut.mk (pmClear_keeps k2))

theorem execPmCapability_keeps {s0 a1 a2} (k2 : Keeps s0 a2) : KOut (Keeps s0) (execPmCapability a1 a2) := by
  unfold execPmCapability
  exact (KOut.mk (pmCapability_keeps k2))

theorem execPmVoutMode_keeps {s0 a1 a2} (k2 : Keeps s0 a2) : KOut (Keeps s0) (execPmVoutMode a1 a2) := by
  unfold execPmVoutMode
  exact (KOut.mk (pmVoutMode_keeps k2))

theorem execPmStatusWord_keeps {s0 a1 a2} (k2 : Keeps s0 a2) : KOut (Keeps s0) (execPmStatusWord a1 a2) := by
  unfold execPmStatusWord
  exact (KOut.mk (pmStatusWord_keeps k2))

theorem execPmStatusTemperature_keeps {s0 a1 a2} (k2 : Keeps s0 a2) : KOut (Keeps s0) (execPmStatusTemperature a1 a2) := by
  unfold execPmStatusTemperature
  exact (KOut.mk (pmStatusTemp_keeps k2))

theorem execPmReadVin_keeps {s0 a1 a2} (k2 : Keeps s0 a2) : KOut (Keeps s0) (execPmReadVin a1 a2) := by
  unfold execPmReadVin
  exact (KOut.mk (pmVin_keeps k2))

theorem execPmReadIin_keeps {s0 a1 a2} (k2 : Keeps s0 a2) : KOut (Keeps s0) (execPmReadIin a1 a2) := by
  unfold execPmReadIin
  exact (KOut.mk (pmIin_keeps k2))

theorem execPmReadVout_keeps {s0 a1 a2} (k2 : Keeps s0 a2) : KOut (Keeps s0) (execPmReadVout a1 a2) := by
  unfold execPmReadVout
  exact (KOut.mk (pmVout_keeps k2))

theorem execPmReadIout_keeps {s0 a1 a2} (k2 : Keeps s0 a2) : KOut (Keeps s0) (execPmReadIout a1 a2) := by
  unfold execPmReadIout
  exact (KOut.mk (pmIout_keeps k2))

theorem execPmReadPout_keeps {s0 a1 a2} (k2 : Keeps s0 a2) : KOut (Keeps s0) (execPmReadPout a1 a2) := by
  unfold execPmReadPout
  exact (KOut.mk (pmPout_keeps k2))

theorem execPmReadPin_keeps {s0 a1 a2} (k2 : Keeps s0 a2) : KOut (Keeps s0) (execPmReadPin a1 a2) := by
  unfold execPmReadPin
  exact (KOut.mk (pmPin_keeps k2))

theorem execPmReadTemperature1_keeps {s0 a1 a2} (k2 : Keeps s0 a2) : KOut (Keeps s0) (execPmReadTemperature1 a1 a2) := by
  unfold execPmReadTemperature1
  exact (KOut.mk (pmTemp_keeps k2))

theorem execPmReadTemperature2_keeps {s0 a1 a2} (k2 : Keeps s0 a2) : KOut (Keeps s0) (execPmReadTemperature2 a1 a2) := by
  unfold execPmReadTemperature2
  exact (KOut.mk (pmTemp_keeps k2))

theorem execPmReadTemperature3_keeps {s0 a1 a2} (k2 : Keeps s0 a2) : KOut (Keeps s0) (execPmReadTemperature3 a1 a2) := by
  unfold execPmReadTemperature3
  exact (KOut.mk (pmTemp_keeps k2))

theorem execPmRevision_keeps {s0 a1 a2} (k2 : Keeps s0 a2) : KOut (Keeps s0) (execPmRevision a1 a2) := by
  unfold execPmRevision
  exact (KOut.mk (pmRevision_keeps k2))

theorem execPmMfrId_keeps {s0 a1 a2} (k2 : Keeps s0 a2) : KOut (Keeps s0) (execPmMfrId a1 a2) := by
  unfold execPmMfrId
  exact (KOut.mk (pmMfrId_keeps k2))

theorem execPmMfrModel_keeps {s0 a1 a2} (k2 : Keeps s0 a2) : KOut (Keeps s0) (execPmMfrModel a1 a2) := by
  unfold execPmMfrModel
  exact (KOut.mk (pmMfrModel_keeps k2))

theorem execPmMfrPowerCap_keeps {s0 a1 a2 a3} (k3 : Keeps s0 a3) : KOut (Keeps s0) (execPmMfrPowerCap a1 a2 a3) := by
  unfold execPmMfrPowerCap
  exact (KOut.mk (pmPowerCap_keeps k3))

theorem execPmAlertResponse_keeps {s0 a1} (k1 : Keeps s0 a1) : KOut (Keeps s0) (execPmAlertResponse a1) := by
  unfold execPmAlertResponse
  exact (KOut.mk (alertResponse_keeps k1))

theorem execJtagBypass_keeps {s0 a1} (k1 : Keeps s0 a1) : KOut (Keeps s0) (execJtagBypass a1) := by
  unfold execJtagBypass
  exact (KOut.mk (jtagBypass_keeps k1))

theorem execJtagIdcode_keeps {s0 a1} (k1 : Keeps s0 a1) : KOut (Keeps s0) (execJtagIdcode a1) := by
  unfold execJtagIdcode
  exact (KOut.mk (jtagIdcode_keeps k1))

theorem execJtagSamplePreload_keeps {s0 a1 a2} (k2 : Keeps s0 a2) : KOut (Keeps s0) (execJtagSamplePreload a1 a2) := by
  unfold execJtagSamplePreload
  exact (KOut.mk (jtagSample_keeps k2))

theorem execJtagExtest_keeps {s0 a1} (k1 : Keeps s0 a1) : KOut (Keeps s0) (execJtagExtest a1) := by
  unfold execJtagExtest
  exact (KOut.mk (jtagExtest_keeps k1))

theorem execJtagExtestPulse_keeps {s0 a1} (k1 : Keeps s0 a1) : KOut (Keeps s0) (execJtagExtestPulse a1) := by
  unfold execJtagExtestPulse
  exact (KOut.mk (jtagExtestPulse_keeps k1))

theorem execJtagDebug_keeps {s0 a1} (k1 : Keeps s0 a1) : KOut (Keeps s0) (execJtagDebug a1) := by
  unfold execJtagDebug
  exact (KOut.mk (jtagDebug_keeps k1))

theorem execJtagTrstN_keeps {s0 a1} (k1 : Keeps s0 a1) : KOut (Keeps s0) (execJtagTrstN a1) := by
  unfold execJtagTrstN
  exact (KOut.mk (trstN_keeps k1))

end Sys2Proof.Machine
end

