-- ==== Sys2Proof/Laws/KeepRunCapstan.lean ====
section
/-! SUPPORT. What the operations of Machine/RunCapstan.lean keep (Laws/Keeps.lean). -/

namespace Sys2Proof.Machine

theorem execCapDoorbell_keeps {s0 a1 a2 a3} (k3 : Keeps s0 a3) : KOut (Keeps s0) (execCapDoorbell a1 a2 a3) := by
  unfold execCapDoorbell
  exact (KOut.mk (opCapDoorbell_keeps k3))

theorem execCollectiveStart_keeps {s0 a1 a2} (k2 : Keeps s0 a2) : KOut (Keeps s0) (execCollectiveStart a1 a2) := by
  unfold execCollectiveStart
  exact (KOut.mk (collectiveStartRow_keeps k2))

theorem execCdata_keeps {s0 a1 a2 a3} (k3 : Keeps s0 a3) : KOut (Keeps s0) (execCdata a1 a2 a3) := by
  unfold execCdata
  exact (KOut.mk (cdata_keeps k3))

theorem execSweep_keeps {s0 a1 a2 a3} (k3 : Keeps s0 a3) : KOut (Keeps s0) (execSweep a1 a2 a3) := by
  unfold execSweep
  exact (KOut.mk (sweep_keeps k3))

theorem execGfail_keeps {s0 a1 a2 a3} (k3 : Keeps s0 a3) : KOut (Keeps s0) (execGfail a1 a2 a3) := by
  unfold execGfail
  exact (KOut.mk (gfail_keeps k3))

theorem execXhitch_keeps {s0 a1 a2 a3} (k3 : Keeps s0 a3) : KOut (Keeps s0) (execXhitch a1 a2 a3) := by
  unfold execXhitch
  exact (KOut.mk (xhitch_keeps k3))

theorem execDdata_keeps {s0 a1 a2 a3} (k3 : Keeps s0 a3) : KOut (Keeps s0) (execDdata a1 a2 a3) := by
  unfold execDdata
  exact (KOut.mk (ddata_keeps k3))

theorem execDdone_keeps {s0 a1 a2 a3} (k3 : Keeps s0 a3) : KOut (Keeps s0) (execDdone a1 a2 a3) := by
  unfold execDdone
  exact (KOut.mk (ddone_keeps k3))

theorem execHello_keeps {s0 a1 a2 a3} (k3 : Keeps s0 a3) : KOut (Keeps s0) (execHello a1 a2 a3) := by
  unfold execHello
  exact (KOut.mk (hello_keeps k3))

theorem execLinkAck_keeps {s0 a1 a2 a3} (k3 : Keeps s0 a3) : KOut (Keeps s0) (execLinkAck a1 a2 a3) := by
  unfold execLinkAck
  exact (KOut.mk (linkAck_keeps k3))

theorem execLinkNack_keeps {s0 a1 a2 a3} (k3 : Keeps s0 a3) : KOut (Keeps s0) (execLinkNack a1 a2 a3) := by
  unfold execLinkNack
  exact (KOut.mk (linkNack_keeps k3))

theorem execCapstanTimeout_keeps {s0 a1 a2} (k2 : Keeps s0 a2) : KOut (Keeps s0) (execCapstanTimeout a1 a2) := by
  unfold execCapstanTimeout
  exact (KOut.mk (capstanTimeout_keeps k2))

theorem execCapDimWrite_keeps {s0 a1 a2 a3 a4} (k4 : Keeps s0 a4) : KOut (Keeps s0) (execCapDimWrite a1 a2 a3 a4) := by
  unfold execCapDimWrite
  exact (KOut.mk (opCapDim_keeps k4))

theorem execCapGrpWrite_keeps {s0 a1 a2 a3 a4} (k4 : Keeps s0 a4) : KOut (Keeps s0) (execCapGrpWrite a1 a2 a3 a4) := by
  unfold execCapGrpWrite
  exact (KOut.mk (opCapGrp_keeps k4))

theorem execHcHeadWrite_keeps {s0 a1 a2 a3 a4 a5} (k5 : Keeps s0 a5) : KOut (Keeps s0) (execHcHeadWrite a1 a2 a3 a4 a5) := by
  unfold execHcHeadWrite
  exact (KOut.mk (opHcHead_keeps k5))

theorem execRetransmitTimeout_keeps {s0 a1 a2} (k2 : Keeps s0 a2) : KOut (Keeps s0) (execRetransmitTimeout a1 a2) := by
  unfold execRetransmitTimeout
  exact (KOut.mk (retransmitTimeout_keeps k2))

theorem execLaneSignalLoss_keeps {s0 a1 a2} (k2 : Keeps s0 a2) : KOut (Keeps s0) (execLaneSignalLoss a1 a2) := by
  unfold execLaneSignalLoss
  exact (KOut.mk (laneSignalLoss_keeps k2))

theorem execPortTrained_keeps {s0 a1 a2 a3} (k3 : Keeps s0 a3) : KOut (Keeps s0) (execPortTrained a1 a2 a3) := by
  unfold execPortTrained
  exact (KOut.mk (portTrained_keeps k3))

theorem execHwTrain_keeps {s0 a1 a2 a3} (k3 : Keeps s0 a3) : KOut (Keeps s0) (execHwTrain a1 a2 a3) := by
  unfold execHwTrain
  exact (KOut.mk (opHwTrain_keeps k3))

theorem execHwDown_keeps {s0 a1 a2 a3} (k3 : Keeps s0 a3) : KOut (Keeps s0) (execHwDown a1 a2 a3) := by
  unfold execHwDown
  exact (KOut.mk (opHwDown_keeps k3))

theorem execLaneEnWrite_keeps {s0 a1 a2 a3 a4} (k4 : Keeps s0 a4) : KOut (Keeps s0) (execLaneEnWrite a1 a2 a3 a4) := by
  unfold execLaneEnWrite
  exact (KOut.mk (opLaneEn_keeps k4))

theorem execSpillwayClose_keeps {s0 a1 a2 a3} (k3 : Keeps s0 a3) : KOut (Keeps s0) (execSpillwayClose a1 a2 a3) := by
  unfold execSpillwayClose
  exact (KOut.mk (spillwayClose_keeps k3))

theorem execSpillwayOpen_keeps {s0 a1 a2 a3} (k3 : Keeps s0 a3) : KOut (Keeps s0) (execSpillwayOpen a1 a2 a3) := by
  unfold execSpillwayOpen
  exact (KOut.mk (spillwayOpen_keeps k3))

theorem execSpillwayMoveDone_keeps {s0 a1 a2} (k2 : Keeps s0 a2) : KOut (Keeps s0) (execSpillwayMoveDone a1 a2) := by
  unfold execSpillwayMoveDone
  exact (KOut.mk (spillwayMoveDone_keeps k2))

theorem execBypassForceNLow_keeps {s0 a1 a2} (k2 : Keeps s0 a2) : KOut (Keeps s0) (execBypassForceNLow a1 a2) := by
  unfold execBypassForceNLow
  exact (KOut.mk (bypassForce_keeps k2))

end Sys2Proof.Machine
end

