-- ==== Sys2Proof/Laws/KeepRunCore.lean ====
section
/-! SUPPORT. What the operations of Machine/RunCore.lean keep (Laws/Keeps.lean). -/

namespace Sys2Proof.Machine

theorem execEcall_keeps {s0 a1 a2 a3 a4 a5} (k5 : Keeps s0 a5) : KOut (Keeps s0) (execEcall a1 a2 a3 a4 a5) := by
  unfold execEcall
  exact (KOut.mk (opEcall_keeps k5))

theorem execBrk_keeps {s0 a1 a2 a3 a4 a5} (k5 : Keeps s0 a5) : KOut (Keeps s0) (execBrk a1 a2 a3 a4 a5) := by
  unfold execBrk
  exact (KOut.mk (opBreak_keeps k5))

theorem execMret_keeps {s0 a1 a2 a3 a4 a5} (k5 : Keeps s0 a5) : KOut (Keeps s0) (execMret a1 a2 a3 a4 a5) := by
  unfold execMret
  exact (KOut.mk (opMret_keeps k5))

theorem execWfi_keeps {s0 a1 a2 a3 a4 a5} (k5 : Keeps s0 a5) : KOut (Keeps s0) (execWfi a1 a2 a3 a4 a5) := by
  unfold execWfi
  exact (KOut.mk (opWfi_keeps k5))

theorem execFence_keeps {s0 a1 a2 a3 a4 a5} (k5 : Keeps s0 a5) : KOut (Keeps s0) (execFence a1 a2 a3 a4 a5) := by
  unfold execFence
  exact (KOut.mk (opFence_keeps k5))

theorem execFenceI_keeps {s0 a1 a2 a3 a4 a5} (k5 : Keeps s0 a5) : KOut (Keeps s0) (execFenceI a1 a2 a3 a4 a5) := by
  unfold execFenceI
  exact (KOut.mk (opFenceI_keeps k5))

theorem execTswitch_keeps {s0 a1 a2 a3 a4 a5} (k5 : Keeps s0 a5) : KOut (Keeps s0) (execTswitch a1 a2 a3 a4 a5) := by
  unfold execTswitch
  exact (KOut.mk (opTswitch_keeps k5))

theorem execCtxsave_keeps {s0 a1 a2 a3 a4 a5} (k5 : Keeps s0 a5) : KOut (Keeps s0) (execCtxsave a1 a2 a3 a4 a5) := by
  unfold execCtxsave
  exact (KOut.mk (opCtxsave_keeps k5))

theorem execCtxload_keeps {s0 a1 a2 a3 a4 a5} (k5 : Keeps s0 a5) : KOut (Keeps s0) (execCtxload a1 a2 a3 a4 a5) := by
  unfold execCtxload
  exact (KOut.mk (opCtxload_keeps k5))

theorem execCsrrw_keeps {s0 a1 a2 a3 a4 a5} (k5 : Keeps s0 a5) : KOut (Keeps s0) (execCsrrw a1 a2 a3 a4 a5) := by
  unfold execCsrrw
  exact (KOut.mk (csrOp_keeps k5))

theorem execCsrrs_keeps {s0 a1 a2 a3 a4 a5} (k5 : Keeps s0 a5) : KOut (Keeps s0) (execCsrrs a1 a2 a3 a4 a5) := by
  unfold execCsrrs
  exact (KOut.mk (csrOp_keeps k5))

theorem execCsrrc_keeps {s0 a1 a2 a3 a4 a5} (k5 : Keeps s0 a5) : KOut (Keeps s0) (execCsrrc a1 a2 a3 a4 a5) := by
  unfold execCsrrc
  exact (KOut.mk (csrOp_keeps k5))

theorem execInterruptTaken_keeps {s0 a1 a2} (k2 : Keeps s0 a2) : KOut (Keeps s0) (execInterruptTaken a1 a2) := by
  unfold execInterruptTaken
  exact (KOut.mk (interruptTaken_keeps k2))

theorem execMaintSwitch_keeps {s0 a1 a2} (k2 : Keeps s0 a2) : KOut (Keeps s0) (execMaintSwitch a1 a2) := by
  unfold execMaintSwitch
  exact (KOut.mk (opMaintSwitch_keeps k2))

theorem execContextSwitchDone_keeps {s0 a1 a2} (k2 : Keeps s0 a2) : KOut (Keeps s0) (execContextSwitchDone a1 a2) := by
  unfold execContextSwitchDone
  exact (KOut.mk (contextSwitchDone_keeps k2))

theorem execEngStateMoveDone_keeps {s0 a1 a2} (k2 : Keeps s0 a2) : KOut (Keeps s0) (execEngStateMoveDone a1 a2) := by
  unfold execEngStateMoveDone
  exact (KOut.mk (engStateMoveDone_keeps k2))

theorem execCycleCmpMatch_keeps {s0 a1 a2} (k2 : Keeps s0 a2) : KOut (Keeps s0) (execCycleCmpMatch a1 a2) := by
  unfold execCycleCmpMatch
  exact (KOut.mk (cycleCmpMatch_keeps k2))

theorem execIsoftWrite_keeps {s0 a1 a2 a3 a4} (k4 : Keeps s0 a4) : KOut (Keeps s0) (execIsoftWrite a1 a2 a3 a4) := by
  unfold execIsoftWrite
  exact (KOut.mk (opCoreReg_keeps k4))

theorem execCoreRunWrite_keeps {s0 a1 a2 a3 a4} (k4 : Keeps s0 a4) : KOut (Keeps s0) (execCoreRunWrite a1 a2 a3 a4) := by
  unfold execCoreRunWrite
  exact (KOut.mk (opCoreReg_keeps k4))

theorem execCoreModeWrite_keeps {s0 a1 a2 a3 a4} (k4 : Keeps s0 a4) : KOut (Keeps s0) (execCoreModeWrite a1 a2 a3 a4) := by
  unfold execCoreModeWrite
  exact (KOut.mk (opCoreReg_keeps k4))

theorem execCtxStateWrite_keeps {s0 a1 a2 a3 a4} (k4 : Keeps s0 a4) : KOut (Keeps s0) (execCtxStateWrite a1 a2 a3 a4) := by
  unfold execCtxStateWrite
  exact (KOut.mk (opCoreReg_keeps k4))

theorem execEngErrClear_keeps {s0 a1 a2 a3 a4} (k4 : Keeps s0 a4) : KOut (Keeps s0) (execEngErrClear a1 a2 a3 a4) := by
  unfold execEngErrClear
  exact (KOut.mk (opCoreReg_keeps k4))

end Sys2Proof.Machine
end

