-- ==== Sys2Proof/Laws/KeepRunGauge.lean ====
section
/-! SUPPORT. What the operations of Machine/RunGauge.lean keep (Laws/Keeps.lean). -/

namespace Sys2Proof.Machine

theorem execGroll_keeps {s0 a1 a2 a3 a4 a5 a6} (k6 : Keeps s0 a6) : KOut (Keeps s0) (execGroll a1 a2 a3 a4 a5 a6) := by
  unfold execGroll
  exact (KOut.mk (opGroll_keeps k6))

theorem execGrollSliceUpdate_keeps {s0 a1 a2 a3} (k3 : Keeps s0 a3) : KOut (Keeps s0) (execGrollSliceUpdate a1 a2 a3) := by
  unfold execGrollSliceUpdate
  exact (KOut.mk (grollSlice_keeps k3))

theorem execGrollComplete_keeps {s0 a1 a2} (k2 : Keeps s0 a2) : KOut (Keeps s0) (execGrollComplete a1 a2) := by
  unfold execGrollComplete
  exact (KOut.mk (grollComplete_keeps k2))

theorem execGaugeWindowRead_keeps {s0 a1 a2 a3} (k3 : Keeps s0 a3) : KOut (Keeps s0) (execGaugeWindowRead a1 a2 a3) := by
  unfold execGaugeWindowRead
  exact (KOut.mk (opWindowRead_keeps k3))

theorem execGaugeWindowWrite_keeps {s0 a1 a2 a3 a4} (k4 : Keeps s0 a4) : KOut (Keeps s0) (execGaugeWindowWrite a1 a2 a3 a4) := by
  unfold execGaugeWindowWrite
  exact (KOut.mk (opWindowWrite_keeps k4))

theorem execSrSeed_keeps {s0 a1 a2 a3 a4} (k4 : Keeps s0 a4) : KOut (Keeps s0) (execSrSeed a1 a2 a3 a4) := by
  unfold execSrSeed
  exact (KOut.mk (opSrSeed_keeps k4))

theorem execSeedApply_keeps {s0 a1 a2} (k2 : Keeps s0 a2) : KOut (Keeps s0) (execSeedApply a1 a2) := by
  unfold execSeedApply
  exact (KOut.mk (seedApply_keeps k2))

theorem execGrangeWrite_keeps {s0 a1 a2 a3 a4} (k4 : Keeps s0 a4) : KOut (Keeps s0) (execGrangeWrite a1 a2 a3 a4) := by
  unfold execGrangeWrite
  exact (KOut.mk (opGrange_keeps k4))

end Sys2Proof.Machine
end

