-- ==== Sys2Proof/Laws/KeepRunHeadgate.lean ====
section
/-! SUPPORT. What the operations of Machine/RunHeadgate.lean keep (Laws/Keeps.lean). -/

namespace Sys2Proof.Machine

theorem execModResetNLow_keeps {s0 a1} (k1 : Keeps s0 a1) : KOut (Keeps s0) (execModResetNLow a1) := by
  unfold execModResetNLow
  exact (KOut.mk (modResetLow_keeps k1))

theorem execModResetNHigh_keeps {s0 a1} (k1 : Keeps s0 a1) : KOut (Keeps s0) (execModResetNHigh a1) := by
  unfold execModResetNHigh
  exact (KOut.mk (modResetHigh_keeps k1))

theorem execColdReset_keeps {s0 a1 a2 a3} (k3 : Keeps s0 a3) : KOut (Keeps s0) (execColdReset a1 a2 a3) := by
  unfold execColdReset
  exact (KOut.mk (opColdReset_keeps k3))

theorem execWarmReset_keeps {s0 a1 a2 a3} (k3 : Keeps s0 a3) : KOut (Keeps s0) (execWarmReset a1 a2 a3) := by
  unfold execWarmReset
  exact (KOut.mk (opWarmReset_keeps k3))

theorem execBringupStepDone_keeps {s0 a1 a2 a3 a4} (k4 : Keeps s0 a4) : KOut (Keeps s0) (execBringupStepDone a1 a2 a3 a4) := by
  unfold execBringupStepDone
  exact (KOut.mk (bringupRow_keeps k4))

theorem execBringupStepTimeout_keeps {s0 a1 a2} (k2 : Keeps s0 a2) : KOut (Keeps s0) (execBringupStepTimeout a1 a2) := by
  unfold execBringupStepTimeout
  exact (KOut.mk (bringupStepTimeout_keeps k2))

theorem execLeaseRenewal_keeps {s0 a1 a2} (k2 : Keeps s0 a2) : KOut (Keeps s0) (execLeaseRenewal a1 a2) := by
  unfold execLeaseRenewal
  exact (KOut.mk (leaseRenewal_keeps k2))

theorem execLeaseTimeout_keeps {s0 a1 a2} (k2 : Keeps s0 a2) : KOut (Keeps s0) (execLeaseTimeout a1 a2) := by
  unfold execLeaseTimeout
  exact (KOut.mk (leaseTimeout_keeps k2))

theorem execLeaseClaim_keeps {s0 a1 a2} (k2 : Keeps s0 a2) : KOut (Keeps s0) (execLeaseClaim a1 a2) := by
  unfold execLeaseClaim
  exact (KOut.mk (leaseClaim_keeps k2))

theorem execLeaseRelease_keeps {s0 a1 a2 a3} (k3 : Keeps s0 a3) : KOut (Keeps s0) (execLeaseRelease a1 a2 a3) := by
  unfold execLeaseRelease
  exact (KOut.mk (opLeaseRelease_keeps k3))

theorem execSidebandDown_keeps {s0 a1} (k1 : Keeps s0 a1) : KOut (Keeps s0) (execSidebandDown a1) := by
  unfold execSidebandDown
  exact (KOut.mk (sidebandDown_keeps k1))

theorem execSidebandUp_keeps {s0 a1} (k1 : Keeps s0 a1) : KOut (Keeps s0) (execSidebandUp a1) := by
  unfold execSidebandUp
  exact (KOut.mk (sidebandUp_keeps k1))

theorem execMbStatus_keeps {s0 a1 a2} (k2 : Keeps s0 a2) : KOut (Keeps s0) (execMbStatus a1 a2) := by
  unfold execMbStatus
  exact (KOut.mk (mbStatus_keeps k2))

theorem execMbName_keeps {s0 a1 a2} (k2 : Keeps s0 a2) : KOut (Keeps s0) (execMbName a1 a2) := by
  unfold execMbName
  exact (KOut.mk (mbName_keeps k2))

theorem execMbFwStage_keeps {s0 a1 a2} (k2 : Keeps s0 a2) : KOut (Keeps s0) (execMbFwStage a1 a2) := by
  unfold execMbFwStage
  exact (KOut.mk (mbStage_keeps k2))

theorem execMbFwActivate_keeps {s0 a1 a2 a3} (k3 : Keeps s0 a3) : KOut (Keeps s0) (execMbFwActivate a1 a2 a3) := by
  unfold execMbFwActivate
  exact (KOut.mk (mbActivate_keeps k3))

theorem execMbFwplace_keeps {s0 a1 a2} (k2 : Keeps s0 a2) : KOut (Keeps s0) (execMbFwplace a1 a2) := by
  unfold execMbFwplace
  exact (KOut.mk (mbPlace_keeps k2))

theorem execMbCoreSwap_keeps {s0 a1 a2} (k2 : Keeps s0 a2) : KOut (Keeps s0) (execMbCoreSwap a1 a2) := by
  unfold execMbCoreSwap
  exact (KOut.mk (mbCoreSwap_keeps k2))

theorem execMbRing_keeps {s0 a1 a2} (k2 : Keeps s0 a2) : KOut (Keeps s0) (execMbRing a1 a2) := by
  unfold execMbRing
  exact (KOut.mk (mbRing_keeps k2))

theorem execMbEvent_keeps {s0 a1 a2} (k2 : Keeps s0 a2) : KOut (Keeps s0) (execMbEvent a1 a2) := by
  unfold execMbEvent
  exact (KOut.mk (mbEvent_keeps k2))

theorem execFwChunk_keeps {s0 a1 a2 a3} (k3 : Keeps s0 a3) : KOut (Keeps s0) (execFwChunk a1 a2 a3) := by
  unfold execFwChunk
  exact (KOut.mk (delivered_keeps (fun _ _ h1 => (fwChunk_keeps h1)) k3))

theorem execFwLoadReport_keeps {s0 a1 a2} (k2 : Keeps s0 a2) : KOut (Keeps s0) (execFwLoadReport a1 a2) := by
  unfold execFwLoadReport
  exact (KOut.mk (fwLoadReport_keeps k2))

theorem execFwReportTimeout_keeps {s0 a1 a2} (k2 : Keeps s0 a2) : KOut (Keeps s0) (execFwReportTimeout a1 a2) := by
  unfold execFwReportTimeout
  exact (KOut.mk (fwReportTimeout_keeps k2))

theorem execCoreReset_keeps {s0 a1 a2 a3 a4} (k4 : Keeps s0 a4) : KOut (Keeps s0) (execCoreReset a1 a2 a3 a4) := by
  unfold execCoreReset
  exact (KOut.mk (opCoreReset_keeps k4))

theorem execCoreDisable_keeps {s0 a1 a2 a3 a4} (k4 : Keeps s0 a4) : KOut (Keeps s0) (execCoreDisable a1 a2 a3 a4) := by
  unfold execCoreDisable
  exact (KOut.mk (opCoreDisable_keeps k4))

theorem execSpareEnable_keeps {s0 a1 a2 a3 a4} (k4 : Keeps s0 a4) : KOut (Keeps s0) (execSpareEnable a1 a2 a3 a4) := by
  unfold execSpareEnable
  exact (KOut.mk (opSpareEnable_keeps k4))

theorem execHgSwapDone_keeps {s0 a1 a2 a3} (k3 : Keeps s0 a3) : KOut (Keeps s0) (execHgSwapDone a1 a2 a3) := by
  unfold execHgSwapDone
  exact (KOut.mk (hgSwapDone_keeps k3))

theorem execSluiceUpdateDone_keeps {s0 a1 a2} (k2 : Keeps s0 a2) : KOut (Keeps s0) (execSluiceUpdateDone a1 a2) := by
  unfold execSluiceUpdateDone
  exact (KOut.mk (sluiceUpdateDone_keeps k2))

theorem execFlashRefresh_keeps {s0 a1 a2 a3} (k3 : Keeps s0 a3) : KOut (Keeps s0) (execFlashRefresh a1 a2 a3) := by
  unfold execFlashRefresh
  exact (KOut.mk (flashRefresh_keeps k3))

end Sys2Proof.Machine
end

