-- ==== Sys2Proof/Laws/KeepRunHome.lean ====
section
/-! SUPPORT. What the operations of Machine/RunHome.lean keep (Laws/Keeps.lean). -/

namespace Sys2Proof.Machine

theorem execRd_keeps {s0 a1 a2} (k2 : Keeps s0 a2) : KOut (Keeps s0) (execRd a1 a2) := by
  unfold execRd
  exact (KOut.mk (delivered_keeps (fun _ _ h1 => (request_keeps h1)) k2))

theorem execWr_keeps {s0 a1 a2} (k2 : Keeps s0 a2) : KOut (Keeps s0) (execWr a1 a2) := by
  unfold execWr
  exact (KOut.mk (delivered_keeps (fun _ _ h1 => (request_keeps h1)) k2))

theorem execAtom_keeps {s0 a1 a2} (k2 : Keeps s0 a2) : KOut (Keeps s0) (execAtom a1 a2) := by
  unfold execAtom
  exact (KOut.mk (delivered_keeps (fun _ _ h1 => (request_keeps h1)) k2))

theorem execMerge_keeps {s0 a1 a2} (k2 : Keeps s0 a2) : KOut (Keeps s0) (execMerge a1 a2) := by
  unfold execMerge
  exact (KOut.mk (delivered_keeps (fun _ _ h1 => (mergeArrive_keeps h1)) k2))

theorem execSpent_keeps {s0 a1 a2} (k2 : Keeps s0 a2) : KOut (Keeps s0) (execSpent a1 a2) := by
  unfold execSpent
  exact (KOut.mk (delivered_keeps (fun _ _ h1 => (spentArrive_keeps h1)) k2))

theorem execRdData_keeps {s0 a1 a2} (k2 : Keeps s0 a2) : KOut (Keeps s0) (execRdData a1 a2) := by
  unfold execRdData
  exact (KOut.mk (delivered_keeps (fun _ _ h1 => (response_keeps (fun _ h2 => (coreRdData_keeps h2)) h1)) k2))

theorem execWrAck_keeps {s0 a1 a2} (k2 : Keeps s0 a2) : KOut (Keeps s0) (execWrAck a1 a2) := by
  unfold execWrAck
  exact (KOut.mk (delivered_keeps (fun _ _ h1 => (response_keeps (fun _ h2 => (coreWrAck_keeps h2)) h1)) k2))

theorem execNack_keeps {s0 a1 a2} (k2 : Keeps s0 a2) : KOut (Keeps s0) (execNack a1 a2) := by
  unfold execNack
  exact (KOut.mk (delivered_keeps (fun _ _ h1 => (response_keeps (fun _ h2 => (nackArrive_keeps h2)) h1)) k2))

theorem execCredit_keeps {s0 a1 a2} (k2 : Keeps s0 a2) : KOut (Keeps s0) (execCredit a1 a2) := by
  unfold execCredit
  exact (KOut.mk (delivered_keeps (fun _ _ h1 => (creditRow_keeps h1)) k2))

theorem execMsg_keeps {s0 a1 a2} (k2 : Keeps s0 a2) : KOut (Keeps s0) (execMsg a1 a2) := by
  unfold execMsg
  exact (KOut.mk (delivered_keeps (fun _ _ h1 => (msgArrive_keeps h1)) k2))

theorem execReservedOpPacket_keeps {s0 a1 a2} (k2 : Keeps s0 a2) : KOut (Keeps s0) (execReservedOpPacket a1 a2) := by
  unfold execReservedOpPacket
  exact (KOut.mk (delivered_keeps (fun _ _ h1 => (reservedOp_keeps h1)) k2))

theorem execSliceMissAdmit_keeps {s0 a1 a2} (k2 : Keeps s0 a2) : KOut (Keeps s0) (execSliceMissAdmit a1 a2) := by
  unfold execSliceMissAdmit
  exact (KOut.mk (sliceMissAdmit_keeps k2))

theorem execMemoryReadDone_keeps {s0 a1 a2 a3 a4 a5} (k5 : Keeps s0 a5) : KOut (Keeps s0) (execMemoryReadDone a1 a2 a3 a4 a5) := by
  unfold execMemoryReadDone
  exact (KOut.mk (memoryReadDone_keeps k5))

theorem execLcQueueAdmit_keeps {s0 a1 a2} (k2 : Keeps s0 a2) : KOut (Keeps s0) (execLcQueueAdmit a1 a2) := by
  unfold execLcQueueAdmit
  exact (KOut.mk (lcQueueAdmit_keeps k2))

theorem execWriteBackDone_keeps {s0 a1 a2 a3} (k3 : Keeps s0 a3) : KOut (Keeps s0) (execWriteBackDone a1 a2 a3) := by
  unfold execWriteBackDone
  exact (KOut.mk (writeBackDone_keeps k3))

theorem execPfRd_keeps {s0 a1 a2} (k2 : Keeps s0 a2) : KOut (Keeps s0) (execPfRd a1 a2) := by
  unfold execPfRd
  exact (KOut.mk (delivered_keeps (fun _ _ h1 => (pfRead_keeps h1)) k2))

theorem execCmemCfgWrite_keeps {s0 a1 a2 a3 a4} (k4 : Keeps s0 a4) : KOut (Keeps s0) (execCmemCfgWrite a1 a2 a3 a4) := by
  unfold execCmemCfgWrite
  exact (KOut.mk (opCmem_keeps k4))

theorem execRequestLimit_keeps {s0 a1 a2 a3} (k3 : Keeps s0 a3) : KOut (Keeps s0) (execRequestLimit a1 a2 a3) := by
  unfold execRequestLimit
  exact (KOut.mk (requestLimit_keeps k3))

end Sys2Proof.Machine
end

