-- ==== Sys2Proof/Laws/KeepRunKnot.lean ====
section
/-! SUPPORT. What the operations of Machine/RunKnot.lean keep (Laws/Keeps.lean). -/

namespace Sys2Proof.Machine

theorem execKsig_keeps {s0 a1 a2 a3 a4 a5} (k5 : Keeps s0 a5) : KOut (Keeps s0) (execKsig a1 a2 a3 a4 a5) := by
  unfold execKsig
  exact (KOut.mk (opKsig_keeps k5))

theorem execKwait_keeps {s0 a1 a2 a3 a4 a5} (k5 : Keeps s0 a5) : KOut (Keeps s0) (execKwait a1 a2 a3 a4 a5) := by
  unfold execKwait
  exact (KOut.mk (opKwait_keeps k5))

theorem execKpeek_keeps {s0 a1 a2 a3 a4 a5} (k5 : Keeps s0 a5) : KOut (Keeps s0) (execKpeek a1 a2 a3 a4 a5) := by
  unfold execKpeek
  exact (KOut.mk (opKpeek_keeps k5))

theorem execKset_keeps {s0 a1 a2 a3 a4 a5} (k5 : Keeps s0 a5) : KOut (Keeps s0) (execKset a1 a2 a3 a4 a5) := by
  unfold execKset
  exact (KOut.mk (opKset_keeps k5))

theorem execHarr_keeps {s0 a1 a2 a3 a4 a5} (k5 : Keeps s0 a5) : KOut (Keeps s0) (execHarr a1 a2 a3 a4 a5) := by
  unfold execHarr
  exact (KOut.mk (opHarr_keeps k5))

theorem execHwait_keeps {s0 a1 a2 a3 a4 a5} (k5 : Keeps s0 a5) : KOut (Keeps s0) (execHwait a1 a2 a3 a4 a5) := by
  unfold execHwait
  exact (KOut.mk (opHwait_keeps k5))

theorem execHpeek_keeps {s0 a1 a2 a3 a4 a5} (k5 : Keeps s0 a5) : KOut (Keeps s0) (execHpeek a1 a2 a3 a4 a5) := by
  unfold execHpeek
  exact (KOut.mk (opHpeek_keeps k5))

theorem execKnot_keeps {s0 a1 a2} (k2 : Keeps s0 a2) : KOut (Keeps s0) (execKnot a1 a2) := by
  unfold execKnot
  exact (KOut.mk (delivered_keeps (fun _ _ h1 => (knotArrive_keeps h1)) k2))

theorem execKnotRsp_keeps {s0 a1 a2} (k2 : Keeps s0 a2) : KOut (Keeps s0) (execKnotRsp a1 a2) := by
  unfold execKnotRsp
  exact (KOut.mk (delivered_keeps (fun _ _ h1 => (response_keeps (fun _ h2 => (knotRsp_keeps h2)) h1)) k2))

theorem execWithdraw_keeps {s0 a1 a2} (k2 : Keeps s0 a2) : KOut (Keeps s0) (execWithdraw a1 a2) := by
  unfold execWithdraw
  exact (KOut.mk (delivered_keeps (fun _ _ h1 => (withdrawArrive_keeps h1)) k2))

theorem execHitch_keeps {s0 a1 a2} (k2 : Keeps s0 a2) : KOut (Keeps s0) (execHitch a1 a2) := by
  unfold execHitch
  exact (KOut.mk (delivered_keeps (fun _ _ h1 => (hitchRow_keeps h1)) k2))

theorem execHitchDone_keeps {s0 a1 a2} (k2 : Keeps s0 a2) : KOut (Keeps s0) (execHitchDone a1 a2) := by
  unfold execHitchDone
  exact (KOut.mk (delivered_keeps (fun _ _ h1 => (hitchDone_keeps h1)) k2))

theorem execKnotWordWrite_keeps {s0 a1 a2 a3 a4} (k4 : Keeps s0 a4) : KOut (Keeps s0) (execKnotWordWrite a1 a2 a3 a4) := by
  unfold execKnotWordWrite
  exact (KOut.mk (opKnotWord_keeps k4))

theorem execHtCfgWrite_keeps {s0 a1 a2 a3 a4} (k4 : Keeps s0 a4) : KOut (Keeps s0) (execHtCfgWrite a1 a2 a3 a4) := by
  unfold execHtCfgWrite
  exact (KOut.mk (opHtCfg_keeps k4))

theorem execHitchMaskWrite_keeps {s0 a1 a2 a3 a4 a5} (k5 : Keeps s0 a5) : KOut (Keeps s0) (execHitchMaskWrite a1 a2 a3 a4 a5) := by
  unfold execHitchMaskWrite
  exact (KOut.mk (opHitchMask_keeps k5))

end Sys2Proof.Machine
end

