-- ==== Sys2Proof/Laws/KeepRunLedger.lean ====
section
/-! SUPPORT. What the operations of Machine/RunLedger.lean keep (Laws/Keeps.lean). -/

namespace Sys2Proof.Machine

theorem execLgRead_keeps {s0 a1 a2 a3} (k3 : Keeps s0 a3) : KOut (Keeps s0) (execLgRead a1 a2 a3) := by
  unfold execLgRead
  exact (KOut.mk (opLedger_keeps k3))

theorem execLgFind_keeps {s0 a1 a2 a3} (k3 : Keeps s0 a3) : KOut (Keeps s0) (execLgFind a1 a2 a3) := by
  unfold execLgFind
  exact (KOut.mk (opLedger_keeps k3))

theorem execLgMap_keeps {s0 a1 a2 a3} (k3 : Keeps s0 a3) : KOut (Keeps s0) (execLgMap a1 a2 a3) := by
  unfold execLgMap
  exact (KOut.mk (opLedger_keeps k3))

theorem execLgUnmap_keeps {s0 a1 a2 a3} (k3 : Keeps s0 a3) : KOut (Keeps s0) (execLgUnmap a1 a2 a3) := by
  unfold execLgUnmap
  exact (KOut.mk (opLedger_keeps k3))

theorem execLgSetf_keeps {s0 a1 a2 a3} (k3 : Keeps s0 a3) : KOut (Keeps s0) (execLgSetf a1 a2 a3) := by
  unfold execLgSetf
  exact (KOut.mk (opLedger_keeps k3))

theorem execLgClrf_keeps {s0 a1 a2 a3} (k3 : Keeps s0 a3) : KOut (Keeps s0) (execLgClrf a1 a2 a3) := by
  unfold execLgClrf
  exact (KOut.mk (opLedger_keeps k3))

theorem execLgMigrate_keeps {s0 a1 a2 a3} (k3 : Keeps s0 a3) : KOut (Keeps s0) (execLgMigrate a1 a2 a3) := by
  unfold execLgMigrate
  exact (KOut.mk (opLedger_keeps k3))

theorem execLgGive_keeps {s0 a1 a2 a3} (k3 : Keeps s0 a3) : KOut (Keeps s0) (execLgGive a1 a2 a3) := by
  unfold execLgGive
  exact (KOut.mk (opLedger_keeps k3))

theorem execShootdown_keeps {s0 a1 a2 a3} (k3 : Keeps s0 a3) : KOut (Keeps s0) (execShootdown a1 a2 a3) := by
  unfold execShootdown
  exact (KOut.mk (shootdownAt_keeps k3))

theorem execShootdownDone_keeps {s0 a1 a2} (k2 : Keeps s0 a2) : KOut (Keeps s0) (execShootdownDone a1 a2) := by
  unfold execShootdownDone
  exact (KOut.mk (shootdownDone_keeps k2))

theorem execMigrateCopyStart_keeps {s0 a1 a2} (k2 : Keeps s0 a2) : KOut (Keeps s0) (execMigrateCopyStart a1 a2) := by
  unfold execMigrateCopyStart
  exact (KOut.mk (migrateStart_keeps k2))

theorem execMigrateShareDone_keeps {s0 a1 a2 a3} (k3 : Keeps s0 a3) : KOut (Keeps s0) (execMigrateShareDone a1 a2 a3) := by
  unfold execMigrateShareDone
  exact (KOut.mk (migrateShare_keeps k3))

end Sys2Proof.Machine
end

