-- ==== Sys2Proof/Laws/KeepRunLogline.lean ====
section
/-! SUPPORT. What the operations of Machine/RunLogline.lean keep (Laws/Keeps.lean). -/

namespace Sys2Proof.Machine

theorem execLogCommit_keeps {s0 a1 a2 a3 a4} (k4 : Keeps s0 a4) : KOut (Keeps s0) (execLogCommit a1 a2 a3 a4) := by
  unfold execLogCommit
  exact (KOut.mk (opLogCommit_keeps k4))

theorem execLogMirrorCompanion_keeps {s0 a1 a2} (k2 : Keeps s0 a2) : KOut (Keeps s0) (execLogMirrorCompanion a1 a2) := by
  unfold execLogMirrorCompanion
  exact (KOut.mk (mirrorCompanion_keeps k2))

theorem execLogMirrorFlash_keeps {s0 a1 a2 a3} (k3 : Keeps s0 a3) : KOut (Keeps s0) (execLogMirrorFlash a1 a2 a3) := by
  unfold execLogMirrorFlash
  exact (KOut.mk (logMirrorFlash_keeps k3))

theorem execSnTake_keeps {s0 a1 a2 a3} (k3 : Keeps s0 a3) : KOut (Keeps s0) (execSnTake a1 a2 a3) := by
  unfold execSnTake
  exact (KOut.mk (opSnCmd_keeps k3))

theorem execSnCommit_keeps {s0 a1 a2 a3} (k3 : Keeps s0 a3) : KOut (Keeps s0) (execSnCommit a1 a2 a3) := by
  unfold execSnCommit
  exact (KOut.mk (opSnCmd_keeps k3))

theorem execSnDrop_keeps {s0 a1 a2 a3} (k3 : Keeps s0 a3) : KOut (Keeps s0) (execSnDrop a1 a2 a3) := by
  unfold execSnDrop
  exact (KOut.mk (opSnCmd_keeps k3))

theorem execSnRollbackOld_keeps {s0 a1 a2 a3} (k3 : Keeps s0 a3) : KOut (Keeps s0) (execSnRollbackOld a1 a2 a3) := by
  unfold execSnRollbackOld
  exact (KOut.mk (opSnCmd_keeps k3))

theorem execSnRollbackNew_keeps {s0 a1 a2 a3} (k3 : Keeps s0 a3) : KOut (Keeps s0) (execSnRollbackNew a1 a2 a3) := by
  unfold execSnRollbackNew
  exact (KOut.mk (opSnCmd_keeps k3))

theorem execSnapshotSweepEnd_keeps {s0 a1 a2} (k2 : Keeps s0 a2) : KOut (Keeps s0) (execSnapshotSweepEnd a1 a2) := by
  unfold execSnapshotSweepEnd
  exact (KOut.mk (snapshotSweepEnd_keeps k2))

theorem execSnapshotCopyStart_keeps {s0 a1 a2 a3} (k3 : Keeps s0 a3) : KOut (Keeps s0) (execSnapshotCopyStart a1 a2 a3) := by
  unfold execSnapshotCopyStart
  exact (KOut.mk (snapshotCopyStart_keeps k3))

theorem execSnapshotCopyDone_keeps {s0 a1 a2 a3} (k3 : Keeps s0 a3) : KOut (Keeps s0) (execSnapshotCopyDone a1 a2 a3) := by
  unfold execSnapshotCopyDone
  exact (KOut.mk (snapshotCopyDone_keeps k3))

theorem execSnapshotMigrate_keeps {s0 a1 a2 a3} (k3 : Keeps s0 a3) : KOut (Keeps s0) (execSnapshotMigrate a1 a2 a3) := by
  unfold execSnapshotMigrate
  exact (KOut.mk (snapshotMigrate_keeps k3))

theorem execRollbackDone_keeps {s0 a1 a2} (k2 : Keeps s0 a2) : KOut (Keeps s0) (execRollbackDone a1 a2) := by
  unfold execRollbackDone
  exact (KOut.mk (rollbackDone_keeps k2))

theorem execSnCtlWrite_keeps {s0 a1 a2 a3 a4} (k4 : Keeps s0 a4) : KOut (Keeps s0) (execSnCtlWrite a1 a2 a3 a4) := by
  unfold execSnCtlWrite
  exact (KOut.mk (opSnCtl_keeps k4))

end Sys2Proof.Machine
end

