-- ==== Sys2Proof/Laws/KeepRunPart.lean ====
section
/-! SUPPORT. What the operations of Machine/RunPart.lean keep (Laws/Keeps.lean). -/

namespace Sys2Proof.Machine

theorem execPtRangeWrite_keeps {s0 a1 a2 a3 a4} (k4 : Keeps s0 a4) : KOut (Keeps s0) (execPtRangeWrite a1 a2 a3 a4) := by
  unfold execPtRangeWrite
  exact (KOut.mk (opPtRange_keeps k4))

theorem execPtReset_keeps {s0 a1 a2 a3} (k3 : Keeps s0 a3) : KOut (Keeps s0) (execPtReset a1 a2 a3) := by
  unfold execPtReset
  exact (KOut.mk (opPtReset_keeps k3))

theorem execPtResetDrainDone_keeps {s0 a1 a2} (k2 : Keeps s0 a2) : KOut (Keeps s0) (execPtResetDrainDone a1 a2) := by
  unfold execPtResetDrainDone
  exact (KOut.mk (ptDrainDone_keeps k2))

theorem execRtBusyWindow_keeps {s0 a1 a2} (k2 : Keeps s0 a2) : KOut (Keeps s0) (execRtBusyWindow a1 a2) := by
  unfold execRtBusyWindow
  exact (KOut.mk (rtBusyWindow_keeps k2))

theorem execRegisterWrite_keeps {s0 a1 a2 a3 a4} (k4 : Keeps s0 a4) : KOut (Keeps s0) (execRegisterWrite a1 a2 a3 a4) := by
  unfold execRegisterWrite
  exact (KOut.mk (mmioWrite_keeps k4))

theorem execRegisterReadClear_keeps {s0 a1 a2 a3} (k3 : Keeps s0 a3) : KOut (Keeps s0) (execRegisterReadClear a1 a2 a3) := by
  unfold execRegisterReadClear
  exact (KOut.mk (mmioRead_keeps k3))

theorem execBgWindowEnd_keeps {s0 a1 a2} (k2 : Keeps s0 a2) : KOut (Keeps s0) (execBgWindowEnd a1 a2) := by
  unfold execBgWindowEnd
  exact (KOut.mk (bgWindowEnd_keeps k2))

end Sys2Proof.Machine
end

