-- ==== Sys2Proof/Laws/KeepRunProtect.lean ====
section
/-! SUPPORT. What the operations of Machine/RunProtect.lean keep (Laws/Keeps.lean). -/

namespace Sys2Proof.Machine

theorem execDredgeScrub_keeps {s0 a1 a2 a3 a4 a5} (k5 : Keeps s0 a5) : KOut (Keeps s0) (execDredgeScrub a1 a2 a3 a4 a5) := by
  unfold execDredgeScrub
  exact (KOut.mk (dredgeScrub_keeps k5))

theorem execDredgeCorrection_keeps {s0 a1 a2 a3} (k3 : Keeps s0 a3) : KOut (Keeps s0) (execDredgeCorrection a1 a2 a3) := by
  unfold execDredgeCorrection
  exact (KOut.mk (dredgeCorrection_keeps k3))

theorem execRecalStart_keeps {s0 a1 a2 a3} (k3 : Keeps s0 a3) : KOut (Keeps s0) (execRecalStart a1 a2 a3) := by
  unfold execRecalStart
  exact (KOut.mk (recalStart_keeps k3))

theorem execRecalEnd_keeps {s0 a1 a2} (k2 : Keeps s0 a2) : KOut (Keeps s0) (execRecalEnd a1 a2) := by
  unfold execRecalEnd
  exact (KOut.mk (recalEnd_keeps k2))

theorem execTbtRegionStart_keeps {s0 a1 a2} (k2 : Keeps s0 a2) : KOut (Keeps s0) (execTbtRegionStart a1 a2) := by
  unfold execTbtRegionStart
  exact (KOut.mk (tbtStart_keeps k2))

theorem execTbtRegionEnd_keeps {s0 a1 a2 a3} (k3 : Keeps s0 a3) : KOut (Keeps s0) (execTbtRegionEnd a1 a2 a3) := by
  unfold execTbtRegionEnd
  exact (KOut.mk (tbtEnd_keeps k3))

theorem execBankRetire_keeps {s0 a1 a2 a3 a4 a5} (k5 : Keeps s0 a5) : KOut (Keeps s0) (execBankRetire a1 a2 a3 a4 a5) := by
  unfold execBankRetire
  exact (KOut.mk (opBret_keeps k5))

end Sys2Proof.Machine
end

