-- ==== Sys2Proof/Laws/KeepRunScalar.lean ====
section
/-! SUPPORT. What the operations of Machine/RunScalar.lean keep (Laws/Keeps.lean). -/

namespace Sys2Proof.Machine

theorem execAdd_keeps {s0 a1 a2 a3 a4 a5} (k5 : Keeps s0 a5) : KOut (Keeps s0) (execAdd a1 a2 a3 a4 a5) := by
  unfold execAdd
  exact (KOut.mk (opAdd_keeps k5))

theorem execSub_keeps {s0 a1 a2 a3 a4 a5} (k5 : Keeps s0 a5) : KOut (Keeps s0) (execSub a1 a2 a3 a4 a5) := by
  unfold execSub
  exact (KOut.mk (opSub_keeps k5))

theorem execAnd_keeps {s0 a1 a2 a3 a4 a5} (k5 : Keeps s0 a5) : KOut (Keeps s0) (execAnd a1 a2 a3 a4 a5) := by
  unfold execAnd
  exact (KOut.mk (opAnd_keeps k5))

theorem execOr_keeps {s0 a1 a2 a3 a4 a5} (k5 : Keeps s0 a5) : KOut (Keeps s0) (execOr a1 a2 a3 a4 a5) := by
  unfold execOr
  exact (KOut.mk (opOr_keeps k5))

theorem execXor_keeps {s0 a1 a2 a3 a4 a5} (k5 : Keeps s0 a5) : KOut (Keeps s0) (execXor a1 a2 a3 a4 a5) := by
  unfold execXor
  exact (KOut.mk (opXor_keeps k5))

theorem execSll_keeps {s0 a1 a2 a3 a4 a5} (k5 : Keeps s0 a5) : KOut (Keeps s0) (execSll a1 a2 a3 a4 a5) := by
  unfold execSll
  exact (KOut.mk (opSll_keeps k5))

theorem execSrl_keeps {s0 a1 a2 a3 a4 a5} (k5 : Keeps s0 a5) : KOut (Keeps s0) (execSrl a1 a2 a3 a4 a5) := by
  unfold execSrl
  exact (KOut.mk (opSrl_keeps k5))

theorem execSra_keeps {s0 a1 a2 a3 a4 a5} (k5 : Keeps s0 a5) : KOut (Keeps s0) (execSra a1 a2 a3 a4 a5) := by
  unfold execSra
  exact (KOut.mk (opSra_keeps k5))

theorem execSlt_keeps {s0 a1 a2 a3 a4 a5} (k5 : Keeps s0 a5) : KOut (Keeps s0) (execSlt a1 a2 a3 a4 a5) := by
  unfold execSlt
  exact (KOut.mk (opSlt_keeps k5))

theorem execSltu_keeps {s0 a1 a2 a3 a4 a5} (k5 : Keeps s0 a5) : KOut (Keeps s0) (execSltu a1 a2 a3 a4 a5) := by
  unfold execSltu
  exact (KOut.mk (opSltu_keeps k5))

theorem execMin_keeps {s0 a1 a2 a3 a4 a5} (k5 : Keeps s0 a5) : KOut (Keeps s0) (execMin a1 a2 a3 a4 a5) := by
  unfold execMin
  exact (KOut.mk (opMin_keeps k5))

theorem execMax_keeps {s0 a1 a2 a3 a4 a5} (k5 : Keeps s0 a5) : KOut (Keeps s0) (execMax a1 a2 a3 a4 a5) := by
  unfold execMax
  exact (KOut.mk (opMax_keeps k5))

theorem execMinu_keeps {s0 a1 a2 a3 a4 a5} (k5 : Keeps s0 a5) : KOut (Keeps s0) (execMinu a1 a2 a3 a4 a5) := by
  unfold execMinu
  exact (KOut.mk (opMinu_keeps k5))

theorem execMaxu_keeps {s0 a1 a2 a3 a4 a5} (k5 : Keeps s0 a5) : KOut (Keeps s0) (execMaxu a1 a2 a3 a4 a5) := by
  unfold execMaxu
  exact (KOut.mk (opMaxu_keeps k5))

theorem execClz_keeps {s0 a1 a2 a3 a4 a5} (k5 : Keeps s0 a5) : KOut (Keeps s0) (execClz a1 a2 a3 a4 a5) := by
  unfold execClz
  exact (KOut.mk (opClz_keeps k5))

theorem execCtz_keeps {s0 a1 a2 a3 a4 a5} (k5 : Keeps s0 a5) : KOut (Keeps s0) (execCtz a1 a2 a3 a4 a5) := by
  unfold execCtz
  exact (KOut.mk (opCtz_keeps k5))

theorem execPopc_keeps {s0 a1 a2 a3 a4 a5} (k5 : Keeps s0 a5) : KOut (Keeps s0) (execPopc a1 a2 a3 a4 a5) := by
  unfold execPopc
  exact (KOut.mk (opPopc_keeps k5))

theorem execAndn_keeps {s0 a1 a2 a3 a4 a5} (k5 : Keeps s0 a5) : KOut (Keeps s0) (execAndn a1 a2 a3 a4 a5) := by
  unfold execAndn
  exact (KOut.mk (opAndn_keeps k5))

theorem execAddi_keeps {s0 a1 a2 a3 a4 a5} (k5 : Keeps s0 a5) : KOut (Keeps s0) (execAddi a1 a2 a3 a4 a5) := by
  unfold execAddi
  exact (KOut.mk (opAddi_keeps k5))

theorem execAndi_keeps {s0 a1 a2 a3 a4 a5} (k5 : Keeps s0 a5) : KOut (Keeps s0) (execAndi a1 a2 a3 a4 a5) := by
  unfold execAndi
  exact (KOut.mk (opAndi_keeps k5))

theorem execOri_keeps {s0 a1 a2 a3 a4 a5} (k5 : Keeps s0 a5) : KOut (Keeps s0) (execOri a1 a2 a3 a4 a5) := by
  unfold execOri
  exact (KOut.mk (opOri_keeps k5))

theorem execXori_keeps {s0 a1 a2 a3 a4 a5} (k5 : Keeps s0 a5) : KOut (Keeps s0) (execXori a1 a2 a3 a4 a5) := by
  unfold execXori
  exact (KOut.mk (opXori_keeps k5))

theorem execSlti_keeps {s0 a1 a2 a3 a4 a5} (k5 : Keeps s0 a5) : KOut (Keeps s0) (execSlti a1 a2 a3 a4 a5) := by
  unfold execSlti
  exact (KOut.mk (opSlti_keeps k5))

theorem execSltiu_keeps {s0 a1 a2 a3 a4 a5} (k5 : Keeps s0 a5) : KOut (Keeps s0) (execSltiu a1 a2 a3 a4 a5) := by
  unfold execSltiu
  exact (KOut.mk (opSltiu_keeps k5))

theorem execShi_keeps {s0 a1 a2 a3 a4 a5} (k5 : Keeps s0 a5) : KOut (Keeps s0) (execShi a1 a2 a3 a4 a5) := by
  unfold execShi
  exact (KOut.mk (opShi_keeps k5))

theorem execLih_keeps {s0 a1 a2 a3 a4} (k4 : Keeps s0 a4) : KOut (Keeps s0) (execLih a1 a2 a3 a4) := by
  unfold execLih
  exact (KOut.mk (opLih_keeps k4))

theorem execLiw_keeps {s0 a1 a2 a3 a4 a5} (k5 : Keeps s0 a5) : KOut (Keeps s0) (execLiw a1 a2 a3 a4 a5) := by
  unfold execLiw
  exact (KOut.mk (opLiw_keeps k5))

theorem execMul_keeps {s0 a1 a2 a3 a4 a5} (k5 : Keeps s0 a5) : KOut (Keeps s0) (execMul a1 a2 a3 a4 a5) := by
  unfold execMul
  exact (KOut.mk (opMul_keeps k5))

theorem execMulh_keeps {s0 a1 a2 a3 a4 a5} (k5 : Keeps s0 a5) : KOut (Keeps s0) (execMulh a1 a2 a3 a4 a5) := by
  unfold execMulh
  exact (KOut.mk (opMulh_keeps k5))

theorem execMulhu_keeps {s0 a1 a2 a3 a4 a5} (k5 : Keeps s0 a5) : KOut (Keeps s0) (execMulhu a1 a2 a3 a4 a5) := by
  unfold execMulhu
  exact (KOut.mk (opMulhu_keeps k5))

theorem execDiv_keeps {s0 a1 a2 a3 a4 a5} (k5 : Keeps s0 a5) : KOut (Keeps s0) (execDiv a1 a2 a3 a4 a5) := by
  unfold execDiv
  exact (KOut.mk (opDiv_keeps k5))

theorem execDivu_keeps {s0 a1 a2 a3 a4 a5} (k5 : Keeps s0 a5) : KOut (Keeps s0) (execDivu a1 a2 a3 a4 a5) := by
  unfold execDivu
  exact (KOut.mk (opDivu_keeps k5))

theorem execRem_keeps {s0 a1 a2 a3 a4 a5} (k5 : Keeps s0 a5) : KOut (Keeps s0) (execRem a1 a2 a3 a4 a5) := by
  unfold execRem
  exact (KOut.mk (opRem_keeps k5))

theorem execRemu_keeps {s0 a1 a2 a3 a4 a5} (k5 : Keeps s0 a5) : KOut (Keeps s0) (execRemu a1 a2 a3 a4 a5) := by
  unfold execRemu
  exact (KOut.mk (opRemu_keeps k5))

theorem execLb_keeps {s0 a1 a2 a3 a4 a5} (k5 : Keeps s0 a5) : KOut (Keeps s0) (execLb a1 a2 a3 a4 a5) := by
  unfold execLb
  exact (KOut.mk (opLb_keeps k5))

theorem execLbu_keeps {s0 a1 a2 a3 a4 a5} (k5 : Keeps s0 a5) : KOut (Keeps s0) (execLbu a1 a2 a3 a4 a5) := by
  unfold execLbu
  exact (KOut.mk (opLbu_keeps k5))

theorem execLh_keeps {s0 a1 a2 a3 a4 a5} (k5 : Keeps s0 a5) : KOut (Keeps s0) (execLh a1 a2 a3 a4 a5) := by
  unfold execLh
  exact (KOut.mk (opLh_keeps k5))

theorem execLhu_keeps {s0 a1 a2 a3 a4 a5} (k5 : Keeps s0 a5) : KOut (Keeps s0) (execLhu a1 a2 a3 a4 a5) := by
  unfold execLhu
  exact (KOut.mk (opLhu_keeps k5))

theorem execLw_keeps {s0 a1 a2 a3 a4 a5} (k5 : Keeps s0 a5) : KOut (Keeps s0) (execLw a1 a2 a3 a4 a5) := by
  unfold execLw
  exact (KOut.mk (opLw_keeps k5))

theorem execLwu_keeps {s0 a1 a2 a3 a4 a5} (k5 : Keeps s0 a5) : KOut (Keeps s0) (execLwu a1 a2 a3 a4 a5) := by
  unfold execLwu
  exact (KOut.mk (opLwu_keeps k5))

theorem execLd_keeps {s0 a1 a2 a3 a4 a5} (k5 : Keeps s0 a5) : KOut (Keeps s0) (execLd a1 a2 a3 a4 a5) := by
  unfold execLd
  exact (KOut.mk (opLd_keeps k5))

theorem execSb_keeps {s0 a1 a2 a3 a4 a5} (k5 : Keeps s0 a5) : KOut (Keeps s0) (execSb a1 a2 a3 a4 a5) := by
  unfold execSb
  exact (KOut.mk (opSb_keeps k5))

theorem execSh_keeps {s0 a1 a2 a3 a4 a5} (k5 : Keeps s0 a5) : KOut (Keeps s0) (execSh a1 a2 a3 a4 a5) := by
  unfold execSh
  exact (KOut.mk (opSh_keeps k5))

theorem execSw_keeps {s0 a1 a2 a3 a4 a5} (k5 : Keeps s0 a5) : KOut (Keeps s0) (execSw a1 a2 a3 a4 a5) := by
  unfold execSw
  exact (KOut.mk (opSw_keeps k5))

theorem execSd_keeps {s0 a1 a2 a3 a4 a5} (k5 : Keeps s0 a5) : KOut (Keeps s0) (execSd a1 a2 a3 a4 a5) := by
  unfold execSd
  exact (KOut.mk (opSd_keeps k5))

theorem execAtomicSwap_keeps {s0 a1 a2 a3 a4 a5 a6 a7} (k7 : Keeps s0 a7) : KOut (Keeps s0) (execAtomicSwap a1 a2 a3 a4 a5 a6 a7) := by
  unfold execAtomicSwap
  exact (KOut.mk (opAtomSwap_keeps k7))

theorem execAtomicAdd_keeps {s0 a1 a2 a3 a4 a5 a6 a7} (k7 : Keeps s0 a7) : KOut (Keeps s0) (execAtomicAdd a1 a2 a3 a4 a5 a6 a7) := by
  unfold execAtomicAdd
  exact (KOut.mk (opAtomAdd_keeps k7))

theorem execAtomicAnd_keeps {s0 a1 a2 a3 a4 a5 a6 a7} (k7 : Keeps s0 a7) : KOut (Keeps s0) (execAtomicAnd a1 a2 a3 a4 a5 a6 a7) := by
  unfold execAtomicAnd
  exact (KOut.mk (opAtomAnd_keeps k7))

theorem execAtomicOr_keeps {s0 a1 a2 a3 a4 a5 a6 a7} (k7 : Keeps s0 a7) : KOut (Keeps s0) (execAtomicOr a1 a2 a3 a4 a5 a6 a7) := by
  unfold execAtomicOr
  exact (KOut.mk (opAtomOr_keeps k7))

theorem execAtomicXor_keeps {s0 a1 a2 a3 a4 a5 a6 a7} (k7 : Keeps s0 a7) : KOut (Keeps s0) (execAtomicXor a1 a2 a3 a4 a5 a6 a7) := by
  unfold execAtomicXor
  exact (KOut.mk (opAtomXor_keeps k7))

theorem execAtomicMax_keeps {s0 a1 a2 a3 a4 a5 a6 a7} (k7 : Keeps s0 a7) : KOut (Keeps s0) (execAtomicMax a1 a2 a3 a4 a5 a6 a7) := by
  unfold execAtomicMax
  exact (KOut.mk (opAtomMax_keeps k7))

theorem execAtomicMin_keeps {s0 a1 a2 a3 a4 a5 a6 a7} (k7 : Keeps s0 a7) : KOut (Keeps s0) (execAtomicMin a1 a2 a3 a4 a5 a6 a7) := by
  unfold execAtomicMin
  exact (KOut.mk (opAtomMin_keeps k7))

theorem execAtomicMaxu_keeps {s0 a1 a2 a3 a4 a5 a6 a7} (k7 : Keeps s0 a7) : KOut (Keeps s0) (execAtomicMaxu a1 a2 a3 a4 a5 a6 a7) := by
  unfold execAtomicMaxu
  exact (KOut.mk (opAtomMaxu_keeps k7))

theorem execAtomicMinu_keeps {s0 a1 a2 a3 a4 a5 a6 a7} (k7 : Keeps s0 a7) : KOut (Keeps s0) (execAtomicMinu a1 a2 a3 a4 a5 a6 a7) := by
  unfold execAtomicMinu
  exact (KOut.mk (opAtomMinu_keeps k7))

theorem execAtomicCas_keeps {s0 a1 a2 a3 a4 a5 a6 a7} (k7 : Keeps s0 a7) : KOut (Keeps s0) (execAtomicCas a1 a2 a3 a4 a5 a6 a7) := by
  unfold execAtomicCas
  exact (KOut.mk (opAtomCas_keeps k7))

theorem execBeq_keeps {s0 a1 a2 a3 a4 a5} (k5 : Keeps s0 a5) : KOut (Keeps s0) (execBeq a1 a2 a3 a4 a5) := by
  unfold execBeq
  exact (KOut.mk (opBeq_keeps k5))

theorem execBne_keeps {s0 a1 a2 a3 a4 a5} (k5 : Keeps s0 a5) : KOut (Keeps s0) (execBne a1 a2 a3 a4 a5) := by
  unfold execBne
  exact (KOut.mk (opBne_keeps k5))

theorem execBlt_keeps {s0 a1 a2 a3 a4 a5} (k5 : Keeps s0 a5) : KOut (Keeps s0) (execBlt a1 a2 a3 a4 a5) := by
  unfold execBlt
  exact (KOut.mk (opBlt_keeps k5))

theorem execBge_keeps {s0 a1 a2 a3 a4 a5} (k5 : Keeps s0 a5) : KOut (Keeps s0) (execBge a1 a2 a3 a4 a5) := by
  unfold execBge
  exact (KOut.mk (opBge_keeps k5))

theorem execBltu_keeps {s0 a1 a2 a3 a4 a5} (k5 : Keeps s0 a5) : KOut (Keeps s0) (execBltu a1 a2 a3 a4 a5) := by
  unfold execBltu
  exact (KOut.mk (opBltu_keeps k5))

theorem execBgeu_keeps {s0 a1 a2 a3 a4 a5} (k5 : Keeps s0 a5) : KOut (Keeps s0) (execBgeu a1 a2 a3 a4 a5) := by
  unfold execBgeu
  exact (KOut.mk (opBgeu_keeps k5))

theorem execJal_keeps {s0 a1 a2 a3 a4} (k4 : Keeps s0 a4) : KOut (Keeps s0) (execJal a1 a2 a3 a4) := by
  unfold execJal
  exact (KOut.mk (opJal_keeps k4))

theorem execJalr_keeps {s0 a1 a2 a3 a4 a5} (k5 : Keeps s0 a5) : KOut (Keeps s0) (execJalr a1 a2 a3 a4 a5) := by
  unfold execJalr
  exact (KOut.mk (opJalr_keeps k5))

end Sys2Proof.Machine
end

