-- ==== Sys2Proof/Laws/KeepRunSluice.lean ====
section
/-! SUPPORT. What the operations of Machine/RunSluice.lean keep (Laws/Keeps.lean). -/

namespace Sys2Proof.Machine

theorem execSeqNext_keeps {s0 a1 a2} (k2 : Keeps s0 a2) : KOut (Keeps s0) (execSeqNext a1 a2) := by
  unfold execSeqNext
  exact (KOut.mk (seqNext_keeps k2))

theorem execSeqPut_keeps {s0 a1 a2} (k2 : Keeps s0 a2) : KOut (Keeps s0) (execSeqPut a1 a2) := by
  unfold execSeqPut
  exact (KOut.mk (seqPut_keeps k2))

theorem execSeqDrop_keeps {s0 a1 a2} (k2 : Keeps s0 a2) : KOut (Keeps s0) (execSeqDrop a1 a2) := by
  unfold execSeqDrop
  exact (KOut.mk (seqDrop_keeps k2))

theorem execSeqEnd_keeps {s0 a1 a2} (k2 : Keeps s0 a2) : KOut (Keeps s0) (execSeqEnd a1 a2) := by
  unfold execSeqEnd
  exact (KOut.mk (seqEnd_keeps k2))

theorem execSluiceProgramOp_keeps {s0 a1 a2} (k2 : Keeps s0 a2) : KOut (Keeps s0) (execSluiceProgramOp a1 a2) := by
  unfold execSluiceProgramOp
  exact (KOut.mk (sluProgramOp_keeps k2))

theorem execRuleAdd_keeps {s0 a1 a2} (k2 : Keeps s0 a2) : KOut (Keeps s0) (execRuleAdd a1 a2) := by
  unfold execRuleAdd
  exact (KOut.mk (ruleAdd_keeps k2))

theorem execRuleMul_keeps {s0 a1 a2} (k2 : Keeps s0 a2) : KOut (Keeps s0) (execRuleMul a1 a2) := by
  unfold execRuleMul
  exact (KOut.mk (ruleMul_keeps k2))

theorem execRuleFma_keeps {s0 a1 a2} (k2 : Keeps s0 a2) : KOut (Keeps s0) (execRuleFma a1 a2) := by
  unfold execRuleFma
  exact (KOut.mk (ruleFma_keeps k2))

theorem execRuleDiv_keeps {s0 a1 a2} (k2 : Keeps s0 a2) : KOut (Keeps s0) (execRuleDiv a1 a2) := by
  unfold execRuleDiv
  exact (KOut.mk (ruleDiv_keeps k2))

theorem execRuleSqrt_keeps {s0 a1 a2} (k2 : Keeps s0 a2) : KOut (Keeps s0) (execRuleSqrt a1 a2) := by
  unfold execRuleSqrt
  exact (KOut.mk (ruleSqrt_keeps k2))

theorem execRuleRsqrt_keeps {s0 a1 a2} (k2 : Keeps s0 a2) : KOut (Keeps s0) (execRuleRsqrt a1 a2) := by
  unfold execRuleRsqrt
  exact (KOut.mk (ruleRsqrt_keeps k2))

theorem execRuleMax_keeps {s0 a1 a2} (k2 : Keeps s0 a2) : KOut (Keeps s0) (execRuleMax a1 a2) := by
  unfold execRuleMax
  exact (KOut.mk (ruleMax_keeps k2))

theorem execRuleMin_keeps {s0 a1 a2} (k2 : Keeps s0 a2) : KOut (Keeps s0) (execRuleMin a1 a2) := by
  unfold execRuleMin
  exact (KOut.mk (ruleMin_keeps k2))

theorem execRuleSign_keeps {s0 a1 a2} (k2 : Keeps s0 a2) : KOut (Keeps s0) (execRuleSign a1 a2) := by
  unfold execRuleSign
  exact (KOut.mk (ruleSign_keeps k2))

theorem execRuleClip_keeps {s0 a1 a2} (k2 : Keeps s0 a2) : KOut (Keeps s0) (execRuleClip a1 a2) := by
  unfold execRuleClip
  exact (KOut.mk (ruleClip_keeps k2))

theorem execRuleLerp_keeps {s0 a1 a2} (k2 : Keeps s0 a2) : KOut (Keeps s0) (execRuleLerp a1 a2) := by
  unfold execRuleLerp
  exact (KOut.mk (ruleLerp_keeps k2))

theorem execRuleScale_keeps {s0 a1 a2} (k2 : Keeps s0 a2) : KOut (Keeps s0) (execRuleScale a1 a2) := by
  unfold execRuleScale
  exact (KOut.mk (ruleScale_keeps k2))

theorem execRuleGroup_keeps {s0 a1 a2} (k2 : Keeps s0 a2) : KOut (Keeps s0) (execRuleGroup a1 a2) := by
  unfold execRuleGroup
  exact (KOut.mk (ruleGroup_keeps k2))

theorem execSluDoorbell_keeps {s0 a1 a2 a3 a4} (k4 : Keeps s0 a4) : KOut (Keeps s0) (execSluDoorbell a1 a2 a3 a4) := by
  unfold execSluDoorbell
  exact (KOut.mk (opSluDoorbell_keeps k4))

theorem execSluBcast_keeps {s0 a1 a2 a3 a4} (k4 : Keeps s0 a4) : KOut (Keeps s0) (execSluBcast a1 a2 a3 a4) := by
  unfold execSluBcast
  exact (KOut.mk (opSluBcast_keeps k4))

theorem execSluJobLoad_keeps {s0 a1 a2} (k2 : Keeps s0 a2) : KOut (Keeps s0) (execSluJobLoad a1 a2) := by
  unfold execSluJobLoad
  exact (KOut.mk (sluJobLoad_keeps k2))

theorem execSluJobStart_keeps {s0 a1 a2} (k2 : Keeps s0 a2) : KOut (Keeps s0) (execSluJobStart a1 a2) := by
  unfold execSluJobStart
  exact (KOut.mk (sluJobStart_keeps k2))

theorem execSluJobDone_keeps {s0 a1 a2} (k2 : Keeps s0 a2) : KOut (Keeps s0) (execSluJobDone a1 a2) := by
  unfold execSluJobDone
  exact (KOut.mk (sluJobDone_keeps k2))

theorem execSluAbort_keeps {s0 a1 a2 a3} (k3 : Keeps s0 a3) : KOut (Keeps s0) (execSluAbort a1 a2 a3) := by
  unfold execSluAbort
  exact (KOut.mk (opSluAbort_keeps k3))

theorem execSluErrClear_keeps {s0 a1 a2 a3} (k3 : Keeps s0 a3) : KOut (Keeps s0) (execSluErrClear a1 a2 a3) := by
  unfold execSluErrClear
  exact (KOut.mk (opSluErrClear_keeps k3))

end Sys2Proof.Machine
end

