-- ==== Sys2Proof/Laws/KeepRunStream.lean ====
section
/-! SUPPORT. What the operations of Machine/RunStream.lean keep (Laws/Keeps.lean). -/

namespace Sys2Proof.Machine

theorem execSarm_keeps {s0 a1 a2 a3 a4 a5} (k5 : Keeps s0 a5) : KOut (Keeps s0) (execSarm a1 a2 a3 a4 a5) := by
  unfold execSarm
  exact (KOut.mk (opSarm_keeps k5))

theorem execSwait_keeps {s0 a1 a2 a3 a4 a5} (k5 : Keeps s0 a5) : KOut (Keeps s0) (execSwait a1 a2 a3 a4 a5) := by
  unfold execSwait
  exact (KOut.mk (opSwait_keeps k5))

theorem execSfree_keeps {s0 a1 a2 a3 a4 a5} (k5 : Keeps s0 a5) : KOut (Keeps s0) (execSfree a1 a2 a3 a4 a5) := by
  unfold execSfree
  exact (KOut.mk (opSfree_keeps k5))

theorem execSstop_keeps {s0 a1 a2 a3 a4 a5} (k5 : Keeps s0 a5) : KOut (Keeps s0) (execSstop a1 a2 a3 a4 a5) := by
  unfold execSstop
  exact (KOut.mk (opSstop_keeps k5))

theorem execSstat_keeps {s0 a1 a2 a3 a4 a5} (k5 : Keeps s0 a5) : KOut (Keeps s0) (execSstat a1 a2 a3 a4 a5) := by
  unfold execSstat
  exact (KOut.mk (opSstat_keeps k5))

theorem execFlumeUnitArrival_keeps {s0 a1 a2 a3 a4} (k4 : Keeps s0 a4) : KOut (Keeps s0) (execFlumeUnitArrival a1 a2 a3 a4) := by
  unfold execFlumeUnitArrival
  exact (KOut.mk (flumeUnitArrival_keeps k4))

theorem execDeadlineCheck_keeps {s0 a1 a2 a3} (k3 : Keeps s0 a3) : KOut (Keeps s0) (execDeadlineCheck a1 a2 a3) := by
  unfold execDeadlineCheck
  exact (KOut.mk (deadlineCheck_keeps k3))

theorem execCstart_keeps {s0 a1 a2 a3 a4 a5} (k5 : Keeps s0 a5) : KOut (Keeps s0) (execCstart a1 a2 a3 a4 a5) := by
  unfold execCstart
  exact (KOut.mk (opCstart_keeps k5))

theorem execCstop_keeps {s0 a1 a2 a3 a4 a5} (k5 : Keeps s0 a5) : KOut (Keeps s0) (execCstop a1 a2 a3 a4 a5) := by
  unfold execCstop
  exact (KOut.mk (opCstop_keeps k5))

theorem execCstat_keeps {s0 a1 a2 a3 a4 a5} (k5 : Keeps s0 a5) : KOut (Keeps s0) (execCstat a1 a2 a3 a4 a5) := by
  unfold execCstat
  exact (KOut.mk (opCstat_keeps k5))

theorem execCulvertDescFetch_keeps {s0 a1 a2 a3 a4} (k4 : Keeps s0 a4) : KOut (Keeps s0) (execCulvertDescFetch a1 a2 a3 a4) := by
  unfold execCulvertDescFetch
  exact (KOut.mk (opDescFetch_keeps k4))

theorem execCulvertElement_keeps {s0 a1 a2 a3 a4 a5} (k5 : Keeps s0 a5) : KOut (Keeps s0) (execCulvertElement a1 a2 a3 a4 a5) := by
  unfold execCulvertElement
  exact (KOut.mk (opElement_keeps k5))

theorem execCulvertDescComplete_keeps {s0 a1 a2 a3 a4} (k4 : Keeps s0 a4) : KOut (Keeps s0) (execCulvertDescComplete a1 a2 a3 a4) := by
  unfold execCulvertDescComplete
  exact (KOut.mk (opComplete_keeps k4))

theorem execCvCountWrite_keeps {s0 a1 a2 a3 a4 a5} (k5 : Keeps s0 a5) : KOut (Keeps s0) (execCvCountWrite a1 a2 a3 a4 a5) := by
  unfold execCvCountWrite
  exact (KOut.mk (opCvCount_keeps k5))

end Sys2Proof.Machine
end

