-- ==== Sys2Proof/Laws/KeepRunTether.lean ====
section
/-! SUPPORT. What the operations of Machine/RunTether.lean keep (Laws/Keeps.lean). -/

namespace Sys2Proof.Machine

theorem execTtTrain_keeps {s0 a1 a2} (k2 : Keeps s0 a2) : KOut (Keeps s0) (execTtTrain a1 a2) := by
  unfold execTtTrain
  exact (KOut.mk (opTtTrain_keeps k2))

theorem execTtDown_keeps {s0 a1 a2} (k2 : Keeps s0 a2) : KOut (Keeps s0) (execTtDown a1 a2) := by
  unfold execTtDown
  exact (KOut.mk (opTtDown_keeps k2))

theorem execTtWreset_keeps {s0 a1 a2} (k2 : Keeps s0 a2) : KOut (Keeps s0) (execTtWreset a1 a2) := by
  unfold execTtWreset
  exact (KOut.mk (opTtWreset_keeps k2))

theorem execSublinkLocked_keeps {s0 a1 a2} (k2 : Keeps s0 a2) : KOut (Keeps s0) (execSublinkLocked a1 a2) := by
  unfold execSublinkLocked
  exact (KOut.mk (sublinkLocked_keeps k2))

theorem execSublinkTrainTimeout_keeps {s0 a1 a2} (k2 : Keeps s0 a2) : KOut (Keeps s0) (execSublinkTrainTimeout a1 a2) := by
  unfold execSublinkTrainTimeout
  exact (KOut.mk (sublinkTrainTimeout_keeps k2))

theorem execIdleFlit_keeps {s0 a1 a2 a3} (k3 : Keeps s0 a3) : KOut (Keeps s0) (execIdleFlit a1 a2 a3) := by
  unfold execIdleFlit
  exact (KOut.mk (idleFlit_keeps k3))

theorem execMsgFlit_keeps {s0 a1 a2 a3} (k3 : Keeps s0 a3) : KOut (Keeps s0) (execMsgFlit a1 a2 a3) := by
  unfold execMsgFlit
  exact (KOut.mk (msgFlit_keeps k3))

theorem execNak_keeps {s0 a1 a2 a3} (k3 : Keeps s0 a3) : KOut (Keeps s0) (execNak a1 a2 a3) := by
  unfold execNak
  exact (KOut.mk (nakFlit_keeps k3))

theorem execSteer_keeps {s0 a1 a2 a3} (k3 : Keeps s0 a3) : KOut (Keeps s0) (execSteer a1 a2 a3) := by
  unfold execSteer
  exact (KOut.mk (steerFlit_keeps k3))

theorem execRdShared_keeps {s0 a1 a2 a3} (k3 : Keeps s0 a3) : KOut (Keeps s0) (execRdShared a1 a2 a3) := by
  unfold execRdShared
  exact (KOut.mk (rdShared_keeps k3))

theorem execRdOwn_keeps {s0 a1 a2 a3} (k3 : Keeps s0 a3) : KOut (Keeps s0) (execRdOwn a1 a2 a3) := by
  unfold execRdOwn
  exact (KOut.mk (rdOwn_keeps k3))

theorem execRdCur_keeps {s0 a1 a2 a3} (k3 : Keeps s0 a3) : KOut (Keeps s0) (execRdCur a1 a2 a3) := by
  unfold execRdCur
  exact (KOut.mk (rdCur_keeps k3))

theorem execUpgrade_keeps {s0 a1 a2 a3} (k3 : Keeps s0 a3) : KOut (Keeps s0) (execUpgrade a1 a2 a3) := by
  unfold execUpgrade
  exact (KOut.mk (upgrade_keeps k3))

theorem execEvict_keeps {s0 a1 a2 a3} (k3 : Keeps s0 a3) : KOut (Keeps s0) (execEvict a1 a2 a3) := by
  unfold execEvict
  exact (KOut.mk (evictReq_keeps k3))

theorem execWrLine_keeps {s0 a1 a2 a3} (k3 : Keeps s0 a3) : KOut (Keeps s0) (execWrLine a1 a2 a3) := by
  unfold execWrLine
  exact (KOut.mk (wrLine_keeps k3))

theorem execWrPart_keeps {s0 a1 a2 a3} (k3 : Keeps s0 a3) : KOut (Keeps s0) (execWrPart a1 a2 a3) := by
  unfold execWrPart
  exact (KOut.mk (wrPart_keeps k3))

theorem execWrBack_keeps {s0 a1 a2 a3} (k3 : Keeps s0 a3) : KOut (Keeps s0) (execWrBack a1 a2 a3) := by
  unfold execWrBack
  exact (KOut.mk (wrBack_keeps k3))

theorem execSnpData_keeps {s0 a1 a2 a3} (k3 : Keeps s0 a3) : KOut (Keeps s0) (execSnpData a1 a2 a3) := by
  unfold execSnpData
  exact (KOut.mk (snpData_keeps k3))

theorem execSnpInv_keeps {s0 a1 a2 a3} (k3 : Keeps s0 a3) : KOut (Keeps s0) (execSnpInv a1 a2 a3) := by
  unfold execSnpInv
  exact (KOut.mk (snpInv_keeps k3))

theorem execTtWrAck_keeps {s0 a1 a2 a3} (k3 : Keeps s0 a3) : KOut (Keeps s0) (execTtWrAck a1 a2 a3) := by
  unfold execTtWrAck
  exact (KOut.mk (ttWrAck_keeps k3))

theorem execGrant_keeps {s0 a1 a2 a3} (k3 : Keeps s0 a3) : KOut (Keeps s0) (execGrant a1 a2 a3) := by
  unfold execGrant
  exact (KOut.mk (grant_keeps k3))

theorem execSnpAck_keeps {s0 a1 a2 a3} (k3 : Keeps s0 a3) : KOut (Keeps s0) (execSnpAck a1 a2 a3) := by
  unfold execSnpAck
  exact (KOut.mk (snpAck_keeps k3))

theorem execEvictAck_keeps {s0 a1 a2 a3} (k3 : Keeps s0 a3) : KOut (Keeps s0) (execEvictAck a1 a2 a3) := by
  unfold execEvictAck
  exact (KOut.mk (evictAck_keeps k3))

theorem execTtErr_keeps {s0 a1 a2 a3} (k3 : Keeps s0 a3) : KOut (Keeps s0) (execTtErr a1 a2 a3) := by
  unfold execTtErr
  exact (KOut.mk (ttErr_keeps k3))

theorem execTtRdData_keeps {s0 a1 a2 a3} (k3 : Keeps s0 a3) : KOut (Keeps s0) (execTtRdData a1 a2 a3) := by
  unfold execTtRdData
  exact (KOut.mk (ttRdData_keeps k3))

theorem execSnpDataRsp_keeps {s0 a1 a2 a3} (k3 : Keeps s0 a3) : KOut (Keeps s0) (execSnpDataRsp a1 a2 a3) := by
  unfold execSnpDataRsp
  exact (KOut.mk (snpDataRsp_keeps k3))

theorem execRegRd_keeps {s0 a1 a2 a3} (k3 : Keeps s0 a3) : KOut (Keeps s0) (execRegRd a1 a2 a3) := by
  unfold execRegRd
  exact (KOut.mk (regRd_keeps k3))

theorem execRegWr_keeps {s0 a1 a2 a3} (k3 : Keeps s0 a3) : KOut (Keeps s0) (execRegWr a1 a2 a3) := by
  unfold execRegWr
  exact (KOut.mk (regWr_keeps k3))

theorem execRegRsp_keeps {s0 a1 a2 a3} (k3 : Keeps s0 a3) : KOut (Keeps s0) (execRegRsp a1 a2 a3) := by
  unfold execRegRsp
  exact (KOut.mk (ttStray_keeps k3))

theorem execMsi_keeps {s0 a1 a2 a3} (k3 : Keeps s0 a3) : KOut (Keeps s0) (execMsi a1 a2 a3) := by
  unfold execMsi
  exact (KOut.mk (ttStray_keeps k3))

theorem execTtReqTimeout_keeps {s0 a1 a2 a3} (k3 : Keeps s0 a3) : KOut (Keeps s0) (execTtReqTimeout a1 a2 a3) := by
  unfold execTtReqTimeout
  exact (KOut.mk (ttReqTimeout_keeps k3))

theorem execTtSnoopTimeout_keeps {s0 a1 a2 a3} (k3 : Keeps s0 a3) : KOut (Keeps s0) (execTtSnoopTimeout a1 a2 a3) := by
  unfold execTtSnoopTimeout
  exact (KOut.mk (ttSnoopTimeout_keeps k3))

theorem execTtMsiWrite_keeps {s0 a1 a2 a3 a4} (k4 : Keeps s0 a4) : KOut (Keeps s0) (execTtMsiWrite a1 a2 a3 a4) := by
  unfold execTtMsiWrite
  exact (KOut.mk (opTtMsi_keeps k4))

theorem execTtCwWrite_keeps {s0 a1 a2 a3 a4 a5} (k5 : Keeps s0 a5) : KOut (Keeps s0) (execTtCwWrite a1 a2 a3 a4 a5) := by
  unfold execTtCwWrite
  exact (KOut.mk (opTtCw_keeps k5))

theorem execMbInDoor_keeps {s0 a1 a2} (k2 : Keeps s0 a2) : KOut (Keeps s0) (execMbInDoor a1 a2) := by
  unfold execMbInDoor
  exact (KOut.mk (mbInDoor_keeps k2))

theorem execMbOutDoor_keeps {s0 a1 a2} (k2 : Keeps s0 a2) : KOut (Keeps s0) (execMbOutDoor a1 a2) := by
  unfold execMbOutDoor
  exact (KOut.mk (mbOutDoor_keeps k2))

end Sys2Proof.Machine
end

