-- ==== Sys2Proof/Laws/KeepRunTile.lean ====
section
/-! SUPPORT. What the operations of Machine/RunTile.lean keep (Laws/Keeps.lean). -/

namespace Sys2Proof.Machine

theorem execTload_keeps {s0 a1 a2 a3 a4 a5 a6} (k6 : Keeps s0 a6) : KOut (Keeps s0) (execTload a1 a2 a3 a4 a5 a6) := by
  unfold execTload
  exact (KOut.mk (opTload_keeps k6))

theorem execTstore_keeps {s0 a1 a2 a3 a4 a5 a6} (k6 : Keeps s0 a6) : KOut (Keeps s0) (execTstore a1 a2 a3 a4 a5 a6) := by
  unfold execTstore
  exact (KOut.mk (opTstore_keeps k6))

theorem execTzero_keeps {s0 a1 a2 a3 a4} (k4 : Keeps s0 a4) : KOut (Keeps s0) (execTzero a1 a2 a3 a4) := by
  unfold execTzero
  exact (KOut.mk (opTzero_keeps k4))

theorem execTrel_keeps {s0 a1 a2 a3 a4} (k4 : Keeps s0 a4) : KOut (Keeps s0) (execTrel a1 a2 a3 a4) := by
  unfold execTrel
  exact (KOut.mk (opTrel_keeps k4))

theorem execTconf_keeps {s0 a1 a2 a3 a4 a5} (k5 : Keeps s0 a5) : KOut (Keeps s0) (execTconf a1 a2 a3 a4 a5) := by
  unfold execTconf
  exact (KOut.mk (opTconf_keeps k5))

theorem execTcfgMmioWrite_keeps {s0 a1 a2 a3 a4 a5} (k5 : Keeps s0 a5) : KOut (Keeps s0) (execTcfgMmioWrite a1 a2 a3 a4 a5) := by
  unfold execTcfgMmioWrite
  exact (KOut.mk (opTcfgMmio_keeps k5))

theorem execTcfgBarrierApply_keeps {s0 a1 a2} (k2 : Keeps s0 a2) : KOut (Keeps s0) (execTcfgBarrierApply a1 a2) := by
  unfold execTcfgBarrierApply
  exact (KOut.mk (tcfgBarrierApply_keeps k2))

theorem execTrelApply_keeps {s0 a1 a2} (k2 : Keeps s0 a2) : KOut (Keeps s0) (execTrelApply a1 a2) := by
  unfold execTrelApply
  exact (KOut.mk (trelApply_keeps k2))

theorem execTloadRowReturn_keeps {s0 a1 a2 a3 a4} (k4 : Keeps s0 a4) : KOut (Keeps s0) (execTloadRowReturn a1 a2 a3 a4) := by
  unfold execTloadRowReturn
  exact (KOut.mk (tloadRow_keeps k4))

end Sys2Proof.Machine
end

