-- ==== Sys2Proof/Laws/KeepRunTrust.lean ====
section
/-! SUPPORT. What the operations of Machine/RunTrust.lean keep (Laws/Keeps.lean). -/

namespace Sys2Proof.Machine

theorem execCkVerify_keeps {s0 a1 a2 a3} (k3 : Keeps s0 a3) : KOut (Keeps s0) (execCkVerify a1 a2 a3) := by
  unfold execCkVerify
  exact (KOut.mk (opCk_keeps k3))

theorem execCkCommitSvn_keeps {s0 a1 a2 a3} (k3 : Keeps s0 a3) : KOut (Keeps s0) (execCkCommitSvn a1 a2 a3) := by
  unfold execCkCommitSvn
  exact (KOut.mk (opCk_keeps k3))

theorem execCkInstall_keeps {s0 a1 a2 a3} (k3 : Keeps s0 a3) : KOut (Keeps s0) (execCkInstall a1 a2 a3) := by
  unfold execCkInstall
  exact (KOut.mk (opCk_keeps k3))

theorem execCkAttest_keeps {s0 a1 a2 a3} (k3 : Keeps s0 a3) : KOut (Keeps s0) (execCkAttest a1 a2 a3) := by
  unfold execCkAttest
  exact (KOut.mk (opCk_keeps k3))

theorem execCkMemkey_keeps {s0 a1 a2 a3} (k3 : Keeps s0 a3) : KOut (Keeps s0) (execCkMemkey a1 a2 a3) := by
  unfold execCkMemkey
  exact (KOut.mk (opCk_keeps k3))

theorem execCkTransition_keeps {s0 a1 a2 a3} (k3 : Keeps s0 a3) : KOut (Keeps s0) (execCkTransition a1 a2 a3) := by
  unfold execCkTransition
  exact (KOut.mk (opCk_keeps k3))

theorem execCkUnlock_keeps {s0 a1 a2 a3} (k3 : Keeps s0 a3) : KOut (Keeps s0) (execCkUnlock a1 a2 a3) := by
  unfold execCkUnlock
  exact (KOut.mk (opCk_keeps k3))

theorem execCkAkcert_keeps {s0 a1 a2 a3} (k3 : Keeps s0 a3) : KOut (Keeps s0) (execCkAkcert a1 a2 a3) := by
  unfold execCkAkcert
  exact (KOut.mk (opCk_keeps k3))

theorem execCkExtend_keeps {s0 a1 a2 a3} (k3 : Keeps s0 a3) : KOut (Keeps s0) (execCkExtend a1 a2 a3) := by
  unfold execCkExtend
  exact (KOut.mk (opCk_keeps k3))

theorem execCkCmdDone_keeps {s0 a1} (k1 : Keeps s0 a1) : KOut (Keeps s0) (execCkCmdDone a1) := by
  unfold execCkCmdDone
  exact (KOut.mk (ckDone_keeps k1))

theorem execTamper_keeps {s0 a1 a2} (k2 : Keeps s0 a2) : KOut (Keeps s0) (execTamper a1 a2) := by
  unfold execTamper
  exact (KOut.mk (tamper_keeps k2))

theorem execVaultWipeDone_keeps {s0 a1} (k1 : Keeps s0 a1) : KOut (Keeps s0) (execVaultWipeDone a1) := by
  unfold execVaultWipeDone
  exact (KOut.mk (vaultWipeDone_keeps k1))

theorem execLicenceExpiry_keeps {s0 a1} (k1 : Keeps s0 a1) : KOut (Keeps s0) (execLicenceExpiry a1) := by
  unfold execLicenceExpiry
  exact (KOut.mk (licenceExpiry_keeps k1))

theorem execSeqMarkWrite_keeps {s0 a1 a2 a3 a4} (k4 : Keeps s0 a4) : KOut (Keeps s0) (execSeqMarkWrite a1 a2 a3 a4) := by
  unfold execSeqMarkWrite
  exact (KOut.mk (seqMarkWrite_keeps k4))

theorem execSeqMarkWritten_keeps {s0 a1 a2 a3 a4} (k4 : Keeps s0 a4) : KOut (Keeps s0) (execSeqMarkWritten a1 a2 a3 a4) := by
  unfold execSeqMarkWritten
  exact (KOut.mk (seqMarkWritten_keeps k4))

end Sys2Proof.Machine
end

