-- ==== Sys2Proof/Laws/KeepRunVector.lean ====
section
/-! SUPPORT. What the operations of Machine/RunVector.lean keep (Laws/Keeps.lean). -/

namespace Sys2Proof.Machine

theorem execVarithAdd_keeps {s0 a1 a2 a3 a4 a5 a6 a7 a8} (k8 : Keeps s0 a8) : KOut (Keeps s0) (execVarithAdd a1 a2 a3 a4 a5 a6 a7 a8) := by
  unfold execVarithAdd
  exact (KOut.mk (opVarithAdd_keeps k8))

theorem execVarithSub_keeps {s0 a1 a2 a3 a4 a5 a6 a7 a8} (k8 : Keeps s0 a8) : KOut (Keeps s0) (execVarithSub a1 a2 a3 a4 a5 a6 a7 a8) := by
  unfold execVarithSub
  exact (KOut.mk (opVarithSub_keeps k8))

theorem execVarithMul_keeps {s0 a1 a2 a3 a4 a5 a6 a7 a8} (k8 : Keeps s0 a8) : KOut (Keeps s0) (execVarithMul a1 a2 a3 a4 a5 a6 a7 a8) := by
  unfold execVarithMul
  exact (KOut.mk (opVarithMul_keeps k8))

theorem execVarithDiv_keeps {s0 a1 a2 a3 a4 a5 a6 a7 a8} (k8 : Keeps s0 a8) : KOut (Keeps s0) (execVarithDiv a1 a2 a3 a4 a5 a6 a7 a8) := by
  unfold execVarithDiv
  exact (KOut.mk (opVarithDiv_keeps k8))

theorem execVarithMin_keeps {s0 a1 a2 a3 a4 a5 a6 a7 a8} (k8 : Keeps s0 a8) : KOut (Keeps s0) (execVarithMin a1 a2 a3 a4 a5 a6 a7 a8) := by
  unfold execVarithMin
  exact (KOut.mk (opVarithMin_keeps k8))

theorem execVarithMax_keeps {s0 a1 a2 a3 a4 a5 a6 a7 a8} (k8 : Keeps s0 a8) : KOut (Keeps s0) (execVarithMax a1 a2 a3 a4 a5 a6 a7 a8) := by
  unfold execVarithMax
  exact (KOut.mk (opVarithMax_keeps k8))

theorem execVarithAbs_keeps {s0 a1 a2 a3 a4 a5 a6 a7 a8} (k8 : Keeps s0 a8) : KOut (Keeps s0) (execVarithAbs a1 a2 a3 a4 a5 a6 a7 a8) := by
  unfold execVarithAbs
  exact (KOut.mk (opVarithAbs_keeps k8))

theorem execVarithNeg_keeps {s0 a1 a2 a3 a4 a5 a6 a7 a8} (k8 : Keeps s0 a8) : KOut (Keeps s0) (execVarithNeg a1 a2 a3 a4 a5 a6 a7 a8) := by
  unfold execVarithNeg
  exact (KOut.mk (opVarithNeg_keeps k8))

theorem execVarithSqrt_keeps {s0 a1 a2 a3 a4 a5 a6 a7 a8} (k8 : Keeps s0 a8) : KOut (Keeps s0) (execVarithSqrt a1 a2 a3 a4 a5 a6 a7 a8) := by
  unfold execVarithSqrt
  exact (KOut.mk (opVarithSqrt_keeps k8))

theorem execCvtfi_keeps {s0 a1 a2 a3 a4 a5 a6 a7 a8} (k8 : Keeps s0 a8) : KOut (Keeps s0) (execCvtfi a1 a2 a3 a4 a5 a6 a7 a8) := by
  unfold execCvtfi
  exact (KOut.mk (opCvtfi_keeps k8))

theorem execCvtif_keeps {s0 a1 a2 a3 a4 a5 a6 a7 a8} (k8 : Keeps s0 a8) : KOut (Keeps s0) (execCvtif a1 a2 a3 a4 a5 a6 a7 a8) := by
  unfold execCvtif
  exact (KOut.mk (opCvtif_keeps k8))

theorem execScaleb_keeps {s0 a1 a2 a3 a4 a5 a6 a7 a8} (k8 : Keeps s0 a8) : KOut (Keeps s0) (execScaleb a1 a2 a3 a4 a5 a6 a7 a8) := by
  unfold execScaleb
  exact (KOut.mk (opScaleb_keeps k8))

theorem execVarithMov_keeps {s0 a1 a2 a3 a4 a5 a6 a7 a8} (k8 : Keeps s0 a8) : KOut (Keeps s0) (execVarithMov a1 a2 a3 a4 a5 a6 a7 a8) := by
  unfold execVarithMov
  exact (KOut.mk (opVarithMov_keeps k8))

theorem execVarithSel_keeps {s0 a1 a2 a3 a4 a5 a6 a7 a8} (k8 : Keeps s0 a8) : KOut (Keeps s0) (execVarithSel a1 a2 a3 a4 a5 a6 a7 a8) := by
  unfold execVarithSel
  exact (KOut.mk (opVarithSel_keeps k8))

theorem execVintAdd_keeps {s0 a1 a2 a3 a4 a5 a6 a7 a8} (k8 : Keeps s0 a8) : KOut (Keeps s0) (execVintAdd a1 a2 a3 a4 a5 a6 a7 a8) := by
  unfold execVintAdd
  exact (KOut.mk (opVintAdd_keeps k8))

theorem execVintSub_keeps {s0 a1 a2 a3 a4 a5 a6 a7 a8} (k8 : Keeps s0 a8) : KOut (Keeps s0) (execVintSub a1 a2 a3 a4 a5 a6 a7 a8) := by
  unfold execVintSub
  exact (KOut.mk (opVintSub_keeps k8))

theorem execVintMul_keeps {s0 a1 a2 a3 a4 a5 a6 a7 a8} (k8 : Keeps s0 a8) : KOut (Keeps s0) (execVintMul a1 a2 a3 a4 a5 a6 a7 a8) := by
  unfold execVintMul
  exact (KOut.mk (opVintMul_keeps k8))

theorem execVintAnd_keeps {s0 a1 a2 a3 a4 a5 a6 a7 a8} (k8 : Keeps s0 a8) : KOut (Keeps s0) (execVintAnd a1 a2 a3 a4 a5 a6 a7 a8) := by
  unfold execVintAnd
  exact (KOut.mk (opVintAnd_keeps k8))

theorem execVintOr_keeps {s0 a1 a2 a3 a4 a5 a6 a7 a8} (k8 : Keeps s0 a8) : KOut (Keeps s0) (execVintOr a1 a2 a3 a4 a5 a6 a7 a8) := by
  unfold execVintOr
  exact (KOut.mk (opVintOr_keeps k8))

theorem execVintXor_keeps {s0 a1 a2 a3 a4 a5 a6 a7 a8} (k8 : Keeps s0 a8) : KOut (Keeps s0) (execVintXor a1 a2 a3 a4 a5 a6 a7 a8) := by
  unfold execVintXor
  exact (KOut.mk (opVintXor_keeps k8))

theorem execVintSll_keeps {s0 a1 a2 a3 a4 a5 a6 a7 a8} (k8 : Keeps s0 a8) : KOut (Keeps s0) (execVintSll a1 a2 a3 a4 a5 a6 a7 a8) := by
  unfold execVintSll
  exact (KOut.mk (opVintSll_keeps k8))

theorem execVintSrl_keeps {s0 a1 a2 a3 a4 a5 a6 a7 a8} (k8 : Keeps s0 a8) : KOut (Keeps s0) (execVintSrl a1 a2 a3 a4 a5 a6 a7 a8) := by
  unfold execVintSrl
  exact (KOut.mk (opVintSrl_keeps k8))

theorem execVintSra_keeps {s0 a1 a2 a3 a4 a5 a6 a7 a8} (k8 : Keeps s0 a8) : KOut (Keeps s0) (execVintSra a1 a2 a3 a4 a5 a6 a7 a8) := by
  unfold execVintSra
  exact (KOut.mk (opVintSra_keeps k8))

theorem execVintMin_keeps {s0 a1 a2 a3 a4 a5 a6 a7 a8} (k8 : Keeps s0 a8) : KOut (Keeps s0) (execVintMin a1 a2 a3 a4 a5 a6 a7 a8) := by
  unfold execVintMin
  exact (KOut.mk (opVintMin_keeps k8))

theorem execVintMax_keeps {s0 a1 a2 a3 a4 a5 a6 a7 a8} (k8 : Keeps s0 a8) : KOut (Keeps s0) (execVintMax a1 a2 a3 a4 a5 a6 a7 a8) := by
  unfold execVintMax
  exact (KOut.mk (opVintMax_keeps k8))

theorem execVfma_keeps {s0 a1 a2 a3 a4 a5 a6 a7 a8} (k8 : Keeps s0 a8) : KOut (Keeps s0) (execVfma a1 a2 a3 a4 a5 a6 a7 a8) := by
  unfold execVfma
  exact (KOut.mk (opVfma_keeps k8))

theorem execVfmaSub_keeps {s0 a1 a2 a3 a4 a5 a6 a7 a8} (k8 : Keeps s0 a8) : KOut (Keeps s0) (execVfmaSub a1 a2 a3 a4 a5 a6 a7 a8) := by
  unfold execVfmaSub
  exact (KOut.mk (opVfmaSub_keeps k8))

theorem execVfmaNeg_keeps {s0 a1 a2 a3 a4 a5 a6 a7 a8} (k8 : Keeps s0 a8) : KOut (Keeps s0) (execVfmaNeg a1 a2 a3 a4 a5 a6 a7 a8) := by
  unfold execVfmaNeg
  exact (KOut.mk (opVfmaNeg_keeps k8))

theorem execVscalAdd_keeps {s0 a1 a2 a3 a4 a5 a6 a7 a8} (k8 : Keeps s0 a8) : KOut (Keeps s0) (execVscalAdd a1 a2 a3 a4 a5 a6 a7 a8) := by
  unfold execVscalAdd
  exact (KOut.mk (opVscalAdd_keeps k8))

theorem execVscalSub_keeps {s0 a1 a2 a3 a4 a5 a6 a7 a8} (k8 : Keeps s0 a8) : KOut (Keeps s0) (execVscalSub a1 a2 a3 a4 a5 a6 a7 a8) := by
  unfold execVscalSub
  exact (KOut.mk (opVscalSub_keeps k8))

theorem execVscalMul_keeps {s0 a1 a2 a3 a4 a5 a6 a7 a8} (k8 : Keeps s0 a8) : KOut (Keeps s0) (execVscalMul a1 a2 a3 a4 a5 a6 a7 a8) := by
  unfold execVscalMul
  exact (KOut.mk (opVscalMul_keeps k8))

theorem execVscalDiv_keeps {s0 a1 a2 a3 a4 a5 a6 a7 a8} (k8 : Keeps s0 a8) : KOut (Keeps s0) (execVscalDiv a1 a2 a3 a4 a5 a6 a7 a8) := by
  unfold execVscalDiv
  exact (KOut.mk (opVscalDiv_keeps k8))

theorem execVscalMin_keeps {s0 a1 a2 a3 a4 a5 a6 a7 a8} (k8 : Keeps s0 a8) : KOut (Keeps s0) (execVscalMin a1 a2 a3 a4 a5 a6 a7 a8) := by
  unfold execVscalMin
  exact (KOut.mk (opVscalMin_keeps k8))

theorem execVscalMax_keeps {s0 a1 a2 a3 a4 a5 a6 a7 a8} (k8 : Keeps s0 a8) : KOut (Keeps s0) (execVscalMax a1 a2 a3 a4 a5 a6 a7 a8) := by
  unfold execVscalMax
  exact (KOut.mk (opVscalMax_keeps k8))

theorem execVcmpEq_keeps {s0 a1 a2 a3 a4 a5 a6 a7 a8} (k8 : Keeps s0 a8) : KOut (Keeps s0) (execVcmpEq a1 a2 a3 a4 a5 a6 a7 a8) := by
  unfold execVcmpEq
  exact (KOut.mk (opVcmpEq_keeps k8))

theorem execVcmpNe_keeps {s0 a1 a2 a3 a4 a5 a6 a7 a8} (k8 : Keeps s0 a8) : KOut (Keeps s0) (execVcmpNe a1 a2 a3 a4 a5 a6 a7 a8) := by
  unfold execVcmpNe
  exact (KOut.mk (opVcmpNe_keeps k8))

theorem execVcmpLt_keeps {s0 a1 a2 a3 a4 a5 a6 a7 a8} (k8 : Keeps s0 a8) : KOut (Keeps s0) (execVcmpLt a1 a2 a3 a4 a5 a6 a7 a8) := by
  unfold execVcmpLt
  exact (KOut.mk (opVcmpLt_keeps k8))

theorem execVcmpLe_keeps {s0 a1 a2 a3 a4 a5 a6 a7 a8} (k8 : Keeps s0 a8) : KOut (Keeps s0) (execVcmpLe a1 a2 a3 a4 a5 a6 a7 a8) := by
  unfold execVcmpLe
  exact (KOut.mk (opVcmpLe_keeps k8))

theorem execVcmpGt_keeps {s0 a1 a2 a3 a4 a5 a6 a7 a8} (k8 : Keeps s0 a8) : KOut (Keeps s0) (execVcmpGt a1 a2 a3 a4 a5 a6 a7 a8) := by
  unfold execVcmpGt
  exact (KOut.mk (opVcmpGt_keeps k8))

theorem execVcmpGe_keeps {s0 a1 a2 a3 a4 a5 a6 a7 a8} (k8 : Keeps s0 a8) : KOut (Keeps s0) (execVcmpGe a1 a2 a3 a4 a5 a6 a7 a8) := by
  unfold execVcmpGe
  exact (KOut.mk (opVcmpGe_keeps k8))

theorem execVcmpUnord_keeps {s0 a1 a2 a3 a4 a5 a6 a7 a8} (k8 : Keeps s0 a8) : KOut (Keeps s0) (execVcmpUnord a1 a2 a3 a4 a5 a6 a7 a8) := by
  unfold execVcmpUnord
  exact (KOut.mk (opVcmpUnord_keeps k8))

theorem execVpredAnd_keeps {s0 a1 a2 a3 a4 a5 a6 a7 a8} (k8 : Keeps s0 a8) : KOut (Keeps s0) (execVpredAnd a1 a2 a3 a4 a5 a6 a7 a8) := by
  unfold execVpredAnd
  exact (KOut.mk (opVpredAnd_keeps k8))

theorem execVpredOr_keeps {s0 a1 a2 a3 a4 a5 a6 a7 a8} (k8 : Keeps s0 a8) : KOut (Keeps s0) (execVpredOr a1 a2 a3 a4 a5 a6 a7 a8) := by
  unfold execVpredOr
  exact (KOut.mk (opVpredOr_keeps k8))

theorem execVpredXor_keeps {s0 a1 a2 a3 a4 a5 a6 a7 a8} (k8 : Keeps s0 a8) : KOut (Keeps s0) (execVpredXor a1 a2 a3 a4 a5 a6 a7 a8) := by
  unfold execVpredXor
  exact (KOut.mk (opVpredXor_keeps k8))

theorem execVpredAndn_keeps {s0 a1 a2 a3 a4 a5 a6 a7 a8} (k8 : Keeps s0 a8) : KOut (Keeps s0) (execVpredAndn a1 a2 a3 a4 a5 a6 a7 a8) := by
  unfold execVpredAndn
  exact (KOut.mk (opVpredAndn_keeps k8))

theorem execFromg_keeps {s0 a1 a2 a3 a4 a5 a6 a7 a8} (k8 : Keeps s0 a8) : KOut (Keeps s0) (execFromg a1 a2 a3 a4 a5 a6 a7 a8) := by
  unfold execFromg
  exact (KOut.mk (opFromg_keeps k8))

theorem execTog_keeps {s0 a1 a2 a3 a4 a5 a6 a7 a8} (k8 : Keeps s0 a8) : KOut (Keeps s0) (execTog a1 a2 a3 a4 a5 a6 a7 a8) := by
  unfold execTog
  exact (KOut.mk (opTog_keeps k8))

theorem execBcast_keeps {s0 a1 a2 a3 a4 a5 a6 a7 a8} (k8 : Keeps s0 a8) : KOut (Keeps s0) (execBcast a1 a2 a3 a4 a5 a6 a7 a8) := by
  unfold execBcast
  exact (KOut.mk (opBcast_keeps k8))

theorem execVext_keeps {s0 a1 a2 a3 a4 a5 a6 a7 a8} (k8 : Keeps s0 a8) : KOut (Keeps s0) (execVext a1 a2 a3 a4 a5 a6 a7 a8) := by
  unfold execVext
  exact (KOut.mk (opVext_keeps k8))

theorem execVins_keeps {s0 a1 a2 a3 a4 a5 a6 a7 a8} (k8 : Keeps s0 a8) : KOut (Keeps s0) (execVins a1 a2 a3 a4 a5 a6 a7 a8) := by
  unfold execVins
  exact (KOut.mk (opVins_keeps k8))

theorem execRot_keeps {s0 a1 a2 a3 a4 a5 a6 a7 a8} (k8 : Keeps s0 a8) : KOut (Keeps s0) (execRot a1 a2 a3 a4 a5 a6 a7 a8) := by
  unfold execRot
  exact (KOut.mk (opRot_keeps k8))

theorem execVcvtWiden_keeps {s0 a1 a2 a3 a4 a5 a6 a7 a8 a9} (k9 : Keeps s0 a9) : KOut (Keeps s0) (execVcvtWiden a1 a2 a3 a4 a5 a6 a7 a8 a9) := by
  unfold execVcvtWiden
  exact (KOut.mk (opVcvtWiden_keeps k9))

theorem execVcvtNarrow_keeps {s0 a1 a2 a3 a4 a5 a6 a7 a8 a9} (k9 : Keeps s0 a9) : KOut (Keeps s0) (execVcvtNarrow a1 a2 a3 a4 a5 a6 a7 a8 a9) := by
  unfold execVcvtNarrow
  exact (KOut.mk (opVcvtNarrow_keeps k9))

theorem execVld_keeps {s0 a1 a2 a3 a4 a5 a6} (k6 : Keeps s0 a6) : KOut (Keeps s0) (execVld a1 a2 a3 a4 a5 a6) := by
  unfold execVld
  exact (KOut.mk (opVld_keeps k6))

theorem execVst_keeps {s0 a1 a2 a3 a4 a5 a6} (k6 : Keeps s0 a6) : KOut (Keeps s0) (execVst a1 a2 a3 a4 a5 a6) := by
  unfold execVst
  exact (KOut.mk (opVst_keeps k6))

theorem execVtr_keeps {s0 a1 a2 a3 a4 a5 a6 a7} (k7 : Keeps s0 a7) : KOut (Keeps s0) (execVtr a1 a2 a3 a4 a5 a6 a7) := by
  unfold execVtr
  exact (KOut.mk (opVtr_keeps k7))

theorem execVtw_keeps {s0 a1 a2 a3 a4 a5 a6 a7} (k7 : Keeps s0 a7) : KOut (Keeps s0) (execVtw a1 a2 a3 a4 a5 a6 a7) := by
  unfold execVtw
  exact (KOut.mk (opVtw_keeps k7))

theorem execVredSum_keeps {s0 a1 a2 a3 a4 a5 a6 a7 a8 a9} (k9 : Keeps s0 a9) : KOut (Keeps s0) (execVredSum a1 a2 a3 a4 a5 a6 a7 a8 a9) := by
  unfold execVredSum
  exact (KOut.mk (opVredSum_keeps k9))

theorem execVredMax_keeps {s0 a1 a2 a3 a4 a5 a6 a7 a8 a9} (k9 : Keeps s0 a9) : KOut (Keeps s0) (execVredMax a1 a2 a3 a4 a5 a6 a7 a8 a9) := by
  unfold execVredMax
  exact (KOut.mk (opVredMax_keeps k9))

theorem execVredSumsq_keeps {s0 a1 a2 a3 a4 a5 a6 a7 a8 a9} (k9 : Keeps s0 a9) : KOut (Keeps s0) (execVredSumsq a1 a2 a3 a4 a5 a6 a7 a8 a9) := by
  unfold execVredSumsq
  exact (KOut.mk (opVredSumsq_keeps k9))

theorem execVredDot_keeps {s0 a1 a2 a3 a4 a5 a6 a7 a8 a9} (k9 : Keeps s0 a9) : KOut (Keeps s0) (execVredDot a1 a2 a3 a4 a5 a6 a7 a8 a9) := by
  unfold execVredDot
  exact (KOut.mk (opVredDot_keeps k9))

theorem execVfun_keeps {s0 a1 a2 a3 a4 a5 a6 a7 a8 a9 a10} (k10 : Keeps s0 a10) : KOut (Keeps s0) (execVfun a1 a2 a3 a4 a5 a6 a7 a8 a9 a10) := by
  unfold execVfun
  exact (KOut.mk (opVfun_keeps k10))

theorem execVfload_keeps {s0 a1 a2 a3 a4 a5 a6} (k6 : Keeps s0 a6) : KOut (Keeps s0) (execVfload a1 a2 a3 a4 a5 a6) := by
  unfold execVfload
  exact (KOut.mk (opVfload_keeps k6))

theorem execVfloadDone_keeps {s0 a1 a2} (k2 : Keeps s0 a2) : KOut (Keeps s0) (execVfloadDone a1 a2) := by
  unfold execVfloadDone
  exact (KOut.mk (vfloadDone_keeps k2))

theorem execVmxs_keeps {s0 a1 a2 a3 a4 a5 a6 a7} (k7 : Keeps s0 a7) : KOut (Keeps s0) (execVmxs a1 a2 a3 a4 a5 a6 a7) := by
  unfold execVmxs
  exact (KOut.mk (opVmxs_keeps k7))

theorem execVcfg_keeps {s0 a1 a2 a3 a4 a5} (k5 : Keeps s0 a5) : KOut (Keeps s0) (execVcfg a1 a2 a3 a4 a5) := by
  unfold execVcfg
  exact (KOut.mk (opVcfg_keeps k5))

theorem execVfact_keeps {s0 a1 a2 a3 a4 a5 a6 a7} (k7 : Keeps s0 a7) : KOut (Keeps s0) (execVfact a1 a2 a3 a4 a5 a6 a7) := by
  unfold execVfact
  exact (KOut.mk (opVfact_keeps k7))

theorem execVsolve_keeps {s0 a1 a2 a3 a4 a5 a6 a7} (k7 : Keeps s0 a7) : KOut (Keeps s0) (execVsolve a1 a2 a3 a4 a5 a6 a7) := by
  unfold execVsolve
  exact (KOut.mk (opVsolve_keeps k7))

end Sys2Proof.Machine
end

