-- ==== Sys2Proof/Laws/KeepDispatch.lean ====
section
/-! SUPPORT. What every command keeps, over all of `exec`, and that every command goes on. -/

namespace Sys2Proof.Machine

theorem exec_keeps {s0 s} (c : Instr) (h : Keeps s0 s) : KOut (Keeps s0) (exec c s) := by
  cases c with
  | add _ _ _ _ => exact execAdd_keeps h
  | sub _ _ _ _ => exact execSub_keeps h
  | and _ _ _ _ => exact execAnd_keeps h
  | or _ _ _ _ => exact execOr_keeps h
  | xor _ _ _ _ => exact execXor_keeps h
  | sll _ _ _ _ => exact execSll_keeps h
  | srl _ _ _ _ => exact execSrl_keeps h
  | sra _ _ _ _ => exact execSra_keeps h
  | slt _ _ _ _ => exact execSlt_keeps h
  | sltu _ _ _ _ => exact execSltu_keeps h
  | min _ _ _ _ => exact execMin_keeps h
  | max _ _ _ _ => exact execMax_keeps h
  | minu _ _ _ _ => exact execMinu_keeps h
  | maxu _ _ _ _ => exact execMaxu_keeps h
  | clz _ _ _ _ => exact execClz_keeps h
  | ctz _ _ _ _ => exact execCtz_keeps h
  | popc _ _ _ _ => exact execPopc_keeps h
  | andn _ _ _ _ => exact execAndn_keeps h
  | addi _ _ _ _ => exact execAddi_keeps h
  | andi _ _ _ _ => exact execAndi_keeps h
  | ori _ _ _ _ => exact execOri_keeps h
  | xori _ _ _ _ => exact execXori_keeps h
  | slti _ _ _ _ => exact execSlti_keeps h
  | sltiu _ _ _ _ => exact execSltiu_keeps h
  | shi _ _ _ _ => exact execShi_keeps h
  | lih _ _ _ => exact execLih_keeps h
  | liw _ _ _ _ => exact execLiw_keeps h
  | mul _ _ _ _ => exact execMul_keeps h
  | mulh _ _ _ _ => exact execMulh_keeps h
  | mulhu _ _ _ _ => exact execMulhu_keeps h
  | div _ _ _ _ => exact execDiv_keeps h
  | divu _ _ _ _ => exact execDivu_keeps h
  | rem _ _ _ _ => exact execRem_keeps h
  | remu _ _ _ _ => exact execRemu_keeps h
  | lb _ _ _ _ => exact execLb_keeps h
  | lbu _ _ _ _ => exact execLbu_keeps h
  | lh _ _ _ _ => exact execLh_keeps h
  | lhu _ _ _ _ => exact execLhu_keeps h
  | lw _ _ _ _ => exact execLw_keeps h
  | lwu _ _ _ _ => exact execLwu_keeps h
  | ld _ _ _ _ => exact execLd_keeps h
  | sb _ _ _ _ => exact execSb_keeps h
  | sh _ _ _ _ => exact execSh_keeps h
  | sw _ _ _ _ => exact execSw_keeps h
  | sd _ _ _ _ => exact execSd_keeps h
  | atomicSwap _ _ _ _ _ _ => exact execAtomicSwap_keeps h
  | atomicAdd _ _ _ _ _ _ => exact execAtomicAdd_keeps h
  | atomicAnd _ _ _ _ _ _ => exact execAtomicAnd_keeps h
  | atomicOr _ _ _ _ _ _ => exact execAtomicOr_keeps h
  | atomicXor _ _ _ _ _ _ => exact execAtomicXor_keeps h
  | atomicMax _ _ _ _ _ _ => exact execAtomicMax_keeps h
  | atomicMin _ _ _ _ _ _ => exact execAtomicMin_keeps h
  | atomicMaxu _ _ _ _ _ _ => exact execAtomicMaxu_keeps h
  | atomicMinu _ _ _ _ _ _ => exact execAtomicMinu_keeps h
  | atomicCas _ _ _ _ _ _ => exact execAtomicCas_keeps h
  | beq _ _ _ _ => exact execBeq_keeps h
  | bne _ _ _ _ => exact execBne_keeps h
  | blt _ _ _ _ => exact execBlt_keeps h
  | bge _ _ _ _ => exact execBge_keeps h
  | bltu _ _ _ _ => exact execBltu_keeps h
  | bgeu _ _ _ _ => exact execBgeu_keeps h
  | jal _ _ _ => exact execJal_keeps h
  | jalr _ _ _ _ => exact execJalr_keeps h
  | ecall _ _ _ _ => exact execEcall_keeps h
  | brk _ _ _ _ => exact execBrk_keeps h
  | mret _ _ _ _ => exact execMret_keeps h
  | wfi _ _ _ _ => exact execWfi_keeps h
  | fence _ _ _ _ => exact execFence_keeps h
  | fenceI _ _ _ _ => exact execFenceI_keeps h
  | tswitch _ _ _ _ => exact execTswitch_keeps h
  | ctxsave _ _ _ _ => exact execCtxsave_keeps h
  | ctxload _ _ _ _ => exact execCtxload_keeps h
  | csrrw _ _ _ _ => exact execCsrrw_keeps h
  | csrrs _ _ _ _ => exact execCsrrs_keeps h
  | csrrc _ _ _ _ => exact execCsrrc_keeps h
  | interruptTaken _ => exact execInterruptTaken_keeps h
  | maintSwitch _ => exact execMaintSwitch_keeps h
  | contextSwitchDone _ => exact execContextSwitchDone_keeps h
  | engStateMoveDone _ => exact execEngStateMoveDone_keeps h
  | cycleCmpMatch _ => exact execCycleCmpMatch_keeps h
  | isoftWrite _ _ _ => exact execIsoftWrite_keeps h
  | coreRunWrite _ _ _ => exact execCoreRunWrite_keeps h
  | coreModeWrite _ _ _ => exact execCoreModeWrite_keeps h
  | ctxStateWrite _ _ _ => exact execCtxStateWrite_keeps h
  | engErrClear _ _ _ => exact execEngErrClear_keeps h
  | tload _ _ _ _ _ => exact execTload_keeps h
  | tstore _ _ _ _ _ => exact execTstore_keeps h
  | tzero _ _ _ => exact execTzero_keeps h
  | trel _ _ _ => exact execTrel_keeps h
  | tconf _ _ _ _ => exact execTconf_keeps h
  | tcfgMmioWrite _ _ _ _ => exact execTcfgMmioWrite_keeps h
  | tcfgBarrierApply _ => exact execTcfgBarrierApply_keeps h
  | trelApply _ => exact execTrelApply_keeps h
  | tloadRowReturn _ _ _ => exact execTloadRowReturn_keeps h
  | mma _ _ _ _ _ _ _ _ _ _ _ _ _ _ _ _ => exact execMma_keeps h
  | mdrain _ _ _ _ _ _ _ _ _ _ _ _ _ _ => exact execMdrain_keeps h
  | mcfg _ _ _ _ _ => exact execMcfg_keeps h
  | mcfgBarrierApply _ => exact execMcfgBarrierApply_keeps h
  | feederSlotRelease _ => exact execFeederSlotRelease_keeps h
  | mmaComplete _ => exact execMmaComplete_keeps h
  | mdrainReadEnd _ => exact execMdrainReadEnd_keeps h
  | mdrainWritten _ => exact execMdrainWritten_keeps h
  | mdrainComplete _ => exact execMdrainComplete_keeps h
  | varithAdd _ _ _ _ _ _ _ => exact execVarithAdd_keeps h
  | varithSub _ _ _ _ _ _ _ => exact execVarithSub_keeps h
  | varithMul _ _ _ _ _ _ _ => exact execVarithMul_keeps h
  | varithDiv _ _ _ _ _ _ _ => exact execVarithDiv_keeps h
  | varithMin _ _ _ _ _ _ _ => exact execVarithMin_keeps h
  | varithMax _ _ _ _ _ _ _ => exact execVarithMax_keeps h
  | varithAbs _ _ _ _ _ _ _ => exact execVarithAbs_keeps h
  | varithNeg _ _ _ _ _ _ _ => exact execVarithNeg_keeps h
  | varithSqrt _ _ _ _ _ _ _ => exact execVarithSqrt_keeps h
  | cvtfi _ _ _ _ _ _ _ => exact execCvtfi_keeps h
  | cvtif _ _ _ _ _ _ _ => exact execCvtif_keeps h
  | scaleb _ _ _ _ _ _ _ => exact execScaleb_keeps h
  | varithMov _ _ _ _ _ _ _ => exact execVarithMov_keeps h
  | varithSel _ _ _ _ _ _ _ => exact execVarithSel_keeps h
  | vintAdd _ _ _ _ _ _ _ => exact execVintAdd_keeps h
  | vintSub _ _ _ _ _ _ _ => exact execVintSub_keeps h
  | vintMul _ _ _ _ _ _ _ => exact execVintMul_keeps h
  | vintAnd _ _ _ _ _ _ _ => exact execVintAnd_keeps h
  | vintOr _ _ _ _ _ _ _ => exact execVintOr_keeps h
  | vintXor _ _ _ _ _ _ _ => exact execVintXor_keeps h
  | vintSll _ _ _ _ _ _ _ => exact execVintSll_keeps h
  | vintSrl _ _ _ _ _ _ _ => exact execVintSrl_keeps h
  | vintSra _ _ _ _ _ _ _ => exact execVintSra_keeps h
  | vintMin _ _ _ _ _ _ _ => exact execVintMin_keeps h
  | vintMax _ _ _ _ _ _ _ => exact execVintMax_keeps h
  | vfma _ _ _ _ _ _ _ => exact execVfma_keeps h
  | vfmaSub _ _ _ _ _ _ _ => exact execVfmaSub_keeps h
  | vfmaNeg _ _ _ _ _ _ _ => exact execVfmaNeg_keeps h
  | vscalAdd _ _ _ _ _ _ _ => exact execVscalAdd_keeps h
  | vscalSub _ _ _ _ _ _ _ => exact execVscalSub_keeps h
  | vscalMul _ _ _ _ _ _ _ => exact execVscalMul_keeps h
  | vscalDiv _ _ _ _ _ _ _ => exact execVscalDiv_keeps h
  | vscalMin _ _ _ _ _ _ _ => exact execVscalMin_keeps h
  | vscalMax _ _ _ _ _ _ _ => exact execVscalMax_keeps h
  | vcmpEq _ _ _ _ _ _ _ => exact execVcmpEq_keeps h
  | vcmpNe _ _ _ _ _ _ _ => exact execVcmpNe_keeps h
  | vcmpLt _ _ _ _ _ _ _ => exact execVcmpLt_keeps h
  | vcmpLe _ _ _ _ _ _ _ => exact execVcmpLe_keeps h
  | vcmpGt _ _ _ _ _ _ _ => exact execVcmpGt_keeps h
  | vcmpGe _ _ _ _ _ _ _ => exact execVcmpGe_keeps h
  | vcmpUnord _ _ _ _ _ _ _ => exact execVcmpUnord_keeps h
  | vpredAnd _ _ _ _ _ _ _ => exact execVpredAnd_keeps h
  | vpredOr _ _ _ _ _ _ _ => exact execVpredOr_keeps h
  | vpredXor _ _ _ _ _ _ _ => exact execVpredXor_keeps h
  | vpredAndn _ _ _ _ _ _ _ => exact execVpredAndn_keeps h
  | fromg _ _ _ _ _ _ _ => exact execFromg_keeps h
  | tog _ _ _ _ _ _ _ => exact execTog_keeps h
  | bcast _ _ _ _ _ _ _ => exact execBcast_keeps h
  | vext _ _ _ _ _ _ _ => exact execVext_keeps h
  | vins _ _ _ _ _ _ _ => exact execVins_keeps h
  | rot _ _ _ _ _ _ _ => exact execRot_keeps h
  | vcvtWiden _ _ _ _ _ _ _ _ => exact execVcvtWiden_keeps h
  | vcvtNarrow _ _ _ _ _ _ _ _ => exact execVcvtNarrow_keeps h
  | vld _ _ _ _ _ => exact execVld_keeps h
  | vst _ _ _ _ _ => exact execVst_keeps h
  | vtr _ _ _ _ _ _ => exact execVtr_keeps h
  | vtw _ _ _ _ _ _ => exact execVtw_keeps h
  | vredSum _ _ _ _ _ _ _ _ => exact execVredSum_keeps h
  | vredMax _ _ _ _ _ _ _ _ => exact execVredMax_keeps h
  | vredSumsq _ _ _ _ _ _ _ _ => exact execVredSumsq_keeps h
  | vredDot _ _ _ _ _ _ _ _ => exact execVredDot_keeps h
  | vfun _ _ _ _ _ _ _ _ _ => exact execVfun_keeps h
  | vfload _ _ _ _ _ => exact execVfload_keeps h
  | vfloadDone _ => exact execVfloadDone_keeps h
  | vmxs _ _ _ _ _ _ => exact execVmxs_keeps h
  | vcfg _ _ _ _ => exact execVcfg_keeps h
  | vfact _ _ _ _ _ _ => exact execVfact_keeps h
  | vsolve _ _ _ _ _ _ => exact execVsolve_keeps h
  | groll _ _ _ _ _ => exact execGroll_keeps h
  | grollSliceUpdate _ _ => exact execGrollSliceUpdate_keeps h
  | grollComplete _ => exact execGrollComplete_keeps h
  | gaugeWindowRead _ _ => exact execGaugeWindowRead_keeps h
  | gaugeWindowWrite _ _ _ => exact execGaugeWindowWrite_keeps h
  | srSeed _ _ _ => exact execSrSeed_keeps h
  | seedApply _ => exact execSeedApply_keeps h
  | grangeWrite _ _ _ => exact execGrangeWrite_keeps h
  | rd _ => exact execRd_keeps h
  | wr _ => exact execWr_keeps h
  | atom _ => exact execAtom_keeps h
  | merge _ => exact execMerge_keeps h
  | spent _ => exact execSpent_keeps h
  | rdData _ => exact execRdData_keeps h
  | wrAck _ => exact execWrAck_keeps h
  | nack _ => exact execNack_keeps h
  | credit _ => exact execCredit_keeps h
  | msg _ => exact execMsg_keeps h
  | reservedOpPacket _ => exact execReservedOpPacket_keeps h
  | sliceMissAdmit _ => exact execSliceMissAdmit_keeps h
  | memoryReadDone _ _ _ _ => exact execMemoryReadDone_keeps h
  | lcQueueAdmit _ => exact execLcQueueAdmit_keeps h
  | writeBackDone _ _ => exact execWriteBackDone_keeps h
  | pfRd _ => exact execPfRd_keeps h
  | cmemCfgWrite _ _ _ => exact execCmemCfgWrite_keeps h
  | requestLimit _ _ => exact execRequestLimit_keeps h
  | lgRead _ _ => exact execLgRead_keeps h
  | lgFind _ _ => exact execLgFind_keeps h
  | lgMap _ _ => exact execLgMap_keeps h
  | lgUnmap _ _ => exact execLgUnmap_keeps h
  | lgSetf _ _ => exact execLgSetf_keeps h
  | lgClrf _ _ => exact execLgClrf_keeps h
  | lgMigrate _ _ => exact execLgMigrate_keeps h
  | lgGive _ _ => exact execLgGive_keeps h
  | shootdown _ _ => exact execShootdown_keeps h
  | shootdownDone _ => exact execShootdownDone_keeps h
  | migrateCopyStart _ => exact execMigrateCopyStart_keeps h
  | migrateShareDone _ _ => exact execMigrateShareDone_keeps h
  | sarm _ _ _ _ => exact execSarm_keeps h
  | swait _ _ _ _ => exact execSwait_keeps h
  | sfree _ _ _ _ => exact execSfree_keeps h
  | sstop _ _ _ _ => exact execSstop_keeps h
  | sstat _ _ _ _ => exact execSstat_keeps h
  | flumeUnitArrival _ _ _ => exact execFlumeUnitArrival_keeps h
  | deadlineCheck _ _ => exact execDeadlineCheck_keeps h
  | cstart _ _ _ _ => exact execCstart_keeps h
  | cstop _ _ _ _ => exact execCstop_keeps h
  | cstat _ _ _ _ => exact execCstat_keeps h
  | culvertDescFetch _ _ _ => exact execCulvertDescFetch_keeps h
  | culvertElement _ _ _ _ => exact execCulvertElement_keeps h
  | culvertDescComplete _ _ _ => exact execCulvertDescComplete_keeps h
  | cvCountWrite _ _ _ _ => exact execCvCountWrite_keeps h
  | ksig _ _ _ _ => exact execKsig_keeps h
  | kwait _ _ _ _ => exact execKwait_keeps h
  | kpeek _ _ _ _ => exact execKpeek_keeps h
  | kset _ _ _ _ => exact execKset_keeps h
  | harr _ _ _ _ => exact execHarr_keeps h
  | hwait _ _ _ _ => exact execHwait_keeps h
  | hpeek _ _ _ _ => exact execHpeek_keeps h
  | knot _ => exact execKnot_keeps h
  | knotRsp _ => exact execKnotRsp_keeps h
  | withdraw _ => exact execWithdraw_keeps h
  | hitch _ => exact execHitch_keeps h
  | hitchDone _ => exact execHitchDone_keeps h
  | knotWordWrite _ _ _ => exact execKnotWordWrite_keeps h
  | htCfgWrite _ _ _ => exact execHtCfgWrite_keeps h
  | hitchMaskWrite _ _ _ _ => exact execHitchMaskWrite_keeps h
  | ptRangeWrite _ _ _ => exact execPtRangeWrite_keeps h
  | ptReset _ _ => exact execPtReset_keeps h
  | ptResetDrainDone _ => exact execPtResetDrainDone_keeps h
  | rtBusyWindow _ => exact execRtBusyWindow_keeps h
  | registerWrite _ _ _ => exact execRegisterWrite_keeps h
  | registerReadClear _ _ => exact execRegisterReadClear_keeps h
  | bgWindowEnd _ => exact execBgWindowEnd_keeps h
  | seqNext _ => exact execSeqNext_keeps h
  | seqPut _ => exact execSeqPut_keeps h
  | seqDrop _ => exact execSeqDrop_keeps h
  | seqEnd _ => exact execSeqEnd_keeps h
  | sluiceProgramOp _ => exact execSluiceProgramOp_keeps h
  | ruleAdd _ => exact execRuleAdd_keeps h
  | ruleMul _ => exact execRuleMul_keeps h
  | ruleFma _ => exact execRuleFma_keeps h
  | ruleDiv _ => exact execRuleDiv_keeps h
  | ruleSqrt _ => exact execRuleSqrt_keeps h
  | ruleRsqrt _ => exact execRuleRsqrt_keeps h
  | ruleMax _ => exact execRuleMax_keeps h
  | ruleMin _ => exact execRuleMin_keeps h
  | ruleSign _ => exact execRuleSign_keeps h
  | ruleClip _ => exact execRuleClip_keeps h
  | ruleLerp _ => exact execRuleLerp_keeps h
  | ruleScale _ => exact execRuleScale_keeps h
  | ruleGroup _ => exact execRuleGroup_keeps h
  | sluDoorbell _ _ _ => exact execSluDoorbell_keeps h
  | sluBcast _ _ _ => exact execSluBcast_keeps h
  | sluJobLoad _ => exact execSluJobLoad_keeps h
  | sluJobStart _ => exact execSluJobStart_keeps h
  | sluJobDone _ => exact execSluJobDone_keeps h
  | sluAbort _ _ => exact execSluAbort_keeps h
  | sluErrClear _ _ => exact execSluErrClear_keeps h
  | capDoorbell _ _ => exact execCapDoorbell_keeps h
  | collectiveStart _ => exact execCollectiveStart_keeps h
  | cdata _ _ => exact execCdata_keeps h
  | sweep _ _ => exact execSweep_keeps h
  | gfail _ _ => exact execGfail_keeps h
  | xhitch _ _ => exact execXhitch_keeps h
  | ddata _ _ => exact execDdata_keeps h
  | ddone _ _ => exact execDdone_keeps h
  | hello _ _ => exact execHello_keeps h
  | linkAck _ _ => exact execLinkAck_keeps h
  | linkNack _ _ => exact execLinkNack_keeps h
  | capstanTimeout _ => exact execCapstanTimeout_keeps h
  | capDimWrite _ _ _ => exact execCapDimWrite_keeps h
  | capGrpWrite _ _ _ => exact execCapGrpWrite_keeps h
  | hcHeadWrite _ _ _ _ => exact execHcHeadWrite_keeps h
  | retransmitTimeout _ => exact execRetransmitTimeout_keeps h
  | laneSignalLoss _ => exact execLaneSignalLoss_keeps h
  | portTrained _ _ => exact execPortTrained_keeps h
  | hwTrain _ _ => exact execHwTrain_keeps h
  | hwDown _ _ => exact execHwDown_keeps h
  | laneEnWrite _ _ _ => exact execLaneEnWrite_keeps h
  | spillwayClose _ _ => exact execSpillwayClose_keeps h
  | spillwayOpen _ _ => exact execSpillwayOpen_keeps h
  | spillwayMoveDone _ => exact execSpillwayMoveDone_keeps h
  | bypassForceNLow _ => exact execBypassForceNLow_keeps h
  | ttTrain _ => exact execTtTrain_keeps h
  | ttDown _ => exact execTtDown_keeps h
  | ttWreset _ => exact execTtWreset_keeps h
  | sublinkLocked _ => exact execSublinkLocked_keeps h
  | sublinkTrainTimeout _ => exact execSublinkTrainTimeout_keeps h
  | idleFlit _ _ => exact execIdleFlit_keeps h
  | msgFlit _ _ => exact execMsgFlit_keeps h
  | nak _ _ => exact execNak_keeps h
  | steer _ _ => exact execSteer_keeps h
  | rdShared _ _ => exact execRdShared_keeps h
  | rdOwn _ _ => exact execRdOwn_keeps h
  | rdCur _ _ => exact execRdCur_keeps h
  | upgrade _ _ => exact execUpgrade_keeps h
  | evict _ _ => exact execEvict_keeps h
  | wrLine _ _ => exact execWrLine_keeps h
  | wrPart _ _ => exact execWrPart_keeps h
  | wrBack _ _ => exact execWrBack_keeps h
  | snpData _ _ => exact execSnpData_keeps h
  | snpInv _ _ => exact execSnpInv_keeps h
  | ttWrAck _ _ => exact execTtWrAck_keeps h
  | grant _ _ => exact execGrant_keeps h
  | snpAck _ _ => exact execSnpAck_keeps h
  | evictAck _ _ => exact execEvictAck_keeps h
  | ttErr _ _ => exact execTtErr_keeps h
  | ttRdData _ _ => exact execTtRdData_keeps h
  | snpDataRsp _ _ => exact execSnpDataRsp_keeps h
  | regRd _ _ => exact execRegRd_keeps h
  | regWr _ _ => exact execRegWr_keeps h
  | regRsp _ _ => exact execRegRsp_keeps h
  | msi _ _ => exact execMsi_keeps h
  | ttReqTimeout _ _ => exact execTtReqTimeout_keeps h
  | ttSnoopTimeout _ _ => exact execTtSnoopTimeout_keeps h
  | ttMsiWrite _ _ _ => exact execTtMsiWrite_keeps h
  | ttCwWrite _ _ _ _ => exact execTtCwWrite_keeps h
  | mbInDoor _ => exact execMbInDoor_keeps h
  | mbOutDoor _ => exact execMbOutDoor_keeps h
  | logCommit _ _ _ => exact execLogCommit_keeps h
  | logMirrorCompanion _ => exact execLogMirrorCompanion_keeps h
  | logMirrorFlash _ _ => exact execLogMirrorFlash_keeps h
  | snTake _ _ => exact execSnTake_keeps h
  | snCommit _ _ => exact execSnCommit_keeps h
  | snDrop _ _ => exact execSnDrop_keeps h
  | snRollbackOld _ _ => exact execSnRollbackOld_keeps h
  | snRollbackNew _ _ => exact execSnRollbackNew_keeps h
  | snapshotSweepEnd _ => exact execSnapshotSweepEnd_keeps h
  | snapshotCopyStart _ _ => exact execSnapshotCopyStart_keeps h
  | snapshotCopyDone _ _ => exact execSnapshotCopyDone_keeps h
  | snapshotMigrate _ _ => exact execSnapshotMigrate_keeps h
  | rollbackDone _ => exact execRollbackDone_keeps h
  | snCtlWrite _ _ _ => exact execSnCtlWrite_keeps h
  | dredgeScrub _ _ _ _ => exact execDredgeScrub_keeps h
  | dredgeCorrection _ _ => exact execDredgeCorrection_keeps h
  | recalStart _ _ => exact execRecalStart_keeps h
  | recalEnd _ => exact execRecalEnd_keeps h
  | tbtRegionStart _ => exact execTbtRegionStart_keeps h
  | tbtRegionEnd _ _ => exact execTbtRegionEnd_keeps h
  | bankRetire _ _ _ _ => exact execBankRetire_keeps h
  | ckVerify _ _ => exact execCkVerify_keeps h
  | ckCommitSvn _ _ => exact execCkCommitSvn_keeps h
  | ckInstall _ _ => exact execCkInstall_keeps h
  | ckAttest _ _ => exact execCkAttest_keeps h
  | ckMemkey _ _ => exact execCkMemkey_keeps h
  | ckTransition _ _ => exact execCkTransition_keeps h
  | ckUnlock _ _ => exact execCkUnlock_keeps h
  | ckAkcert _ _ => exact execCkAkcert_keeps h
  | ckExtend _ _ => exact execCkExtend_keeps h
  | ckCmdDone => exact execCkCmdDone_keeps h
  | tamper _ => exact execTamper_keeps h
  | vaultWipeDone => exact execVaultWipeDone_keeps h
  | licenceExpiry => exact execLicenceExpiry_keeps h
  | seqMarkWrite _ _ _ => exact execSeqMarkWrite_keeps h
  | seqMarkWritten _ _ _ => exact execSeqMarkWritten_keeps h
  | vin64Good => exact execVin64Good_keeps h
  | vin64Undervoltage => exact execVin64Undervoltage_keeps h
  | vin64Overvoltage => exact execVin64Overvoltage_keeps h
  | aux3v3Good => exact execAux3v3Good_keeps h
  | aux3v3Loss => exact execAux3v3Loss_keeps h
  | inputCharged => exact execInputCharged_keeps h
  | thermTrip => exact execThermTrip_keeps h
  | calTick => exact execCalTick_keeps h
  | oscStop => exact execOscStop_keeps h
  | vbatLow => exact execVbatLow_keeps h
  | throttleSample _ _ _ _ => exact execThrottleSample_keeps h
  | telemUpdate _ _ _ _ => exact execTelemUpdate_keeps h
  | thrCtlWrite _ _ => exact execThrCtlWrite_keeps h
  | calLoad _ => exact execCalLoad_keeps h
  | pmPage _ _ => exact execPmPage_keeps h
  | pmClearFaults _ => exact execPmClearFaults_keeps h
  | pmCapability _ => exact execPmCapability_keeps h
  | pmVoutMode _ => exact execPmVoutMode_keeps h
  | pmStatusWord _ => exact execPmStatusWord_keeps h
  | pmStatusTemperature _ => exact execPmStatusTemperature_keeps h
  | pmReadVin _ => exact execPmReadVin_keeps h
  | pmReadIin _ => exact execPmReadIin_keeps h
  | pmReadVout _ => exact execPmReadVout_keeps h
  | pmReadIout _ => exact execPmReadIout_keeps h
  | pmReadPout _ => exact execPmReadPout_keeps h
  | pmReadPin _ => exact execPmReadPin_keeps h
  | pmReadTemperature1 _ => exact execPmReadTemperature1_keeps h
  | pmReadTemperature2 _ => exact execPmReadTemperature2_keeps h
  | pmReadTemperature3 _ => exact execPmReadTemperature3_keeps h
  | pmRevision _ => exact execPmRevision_keeps h
  | pmMfrId _ => exact execPmMfrId_keeps h
  | pmMfrModel _ => exact execPmMfrModel_keeps h
  | pmMfrPowerCap _ _ => exact execPmMfrPowerCap_keeps h
  | pmAlertResponse => exact execPmAlertResponse_keeps h
  | jtagBypass => exact execJtagBypass_keeps h
  | jtagIdcode => exact execJtagIdcode_keeps h
  | jtagSamplePreload _ => exact execJtagSamplePreload_keeps h
  | jtagExtest => exact execJtagExtest_keeps h
  | jtagExtestPulse => exact execJtagExtestPulse_keeps h
  | jtagDebug => exact execJtagDebug_keeps h
  | jtagTrstN => exact execJtagTrstN_keeps h
  | modResetNLow => exact execModResetNLow_keeps h
  | modResetNHigh => exact execModResetNHigh_keeps h
  | coldReset _ _ => exact execColdReset_keeps h
  | warmReset _ _ => exact execWarmReset_keeps h
  | bringupStepDone _ _ _ => exact execBringupStepDone_keeps h
  | bringupStepTimeout _ => exact execBringupStepTimeout_keeps h
  | leaseRenewal _ => exact execLeaseRenewal_keeps h
  | leaseTimeout _ => exact execLeaseTimeout_keeps h
  | leaseClaim _ => exact execLeaseClaim_keeps h
  | leaseRelease _ _ => exact execLeaseRelease_keeps h
  | sidebandDown => exact execSidebandDown_keeps h
  | sidebandUp => exact execSidebandUp_keeps h
  | mbStatus _ => exact execMbStatus_keeps h
  | mbName _ => exact execMbName_keeps h
  | mbFwStage _ => exact execMbFwStage_keeps h
  | mbFwActivate _ _ => exact execMbFwActivate_keeps h
  | mbFwplace _ => exact execMbFwplace_keeps h
  | mbCoreSwap _ => exact execMbCoreSwap_keeps h
  | mbRing _ => exact execMbRing_keeps h
  | mbEvent _ => exact execMbEvent_keeps h
  | fwChunk _ _ => exact execFwChunk_keeps h
  | fwLoadReport _ => exact execFwLoadReport_keeps h
  | fwReportTimeout _ => exact execFwReportTimeout_keeps h
  | coreReset _ _ _ => exact execCoreReset_keeps h
  | coreDisable _ _ _ => exact execCoreDisable_keeps h
  | spareEnable _ _ _ => exact execSpareEnable_keeps h
  | hgSwapDone _ _ => exact execHgSwapDone_keeps h
  | sluiceUpdateDone _ => exact execSluiceUpdateDone_keeps h
  | flashRefresh _ _ => exact execFlashRefresh_keeps h

/-- Every command answers a next state. -/
theorem exec_next (c : Instr) (s : State) : ∃ t, exec c s = .next t := by
  cases c <;> exact ⟨_, rfl⟩

end Sys2Proof.Machine
end

