-- ==== Sys2Proof/Laws/Logged.lean ====
section
/-! SUPPORT. The registers that counting a translation and logging an error write; every other register keeps its value. -/

namespace Sys2Proof.Machine

/-- Only registers of the log change from `s` to `t`. -/
def OnlyLog (s t : State) : Prop := ∀ a, ¬ LogReg a → t.reg a = s.reg a

theorem OnlyLog.refl (s : State) : OnlyLog s s := fun _ _ => rfl

theorem OnlyLog.trans {s t u : State} (h : OnlyLog s t) (k : OnlyLog t u) : OnlyLog s u := fun a n => (k a n).trans (h a n)

theorem OnlyLog.same {s t u : State} (h : OnlyLog s t) (e : u.regs = t.regs) : OnlyLog s u :=
  h.trans fun a _ => State.reg_congr e a

theorem setReg_onlyLog {s0 s : State} {a : Nat} (v : Word) (h : OnlyLog s0 s) (l : LogReg a) : OnlyLog s0 (s.setReg a v) :=
  h.trans fun _ n => State.reg_setReg_ne s v fun e => n (e ▸ l)

theorem logReg_el {a : Nat} (h1 : 0x20000 ≤ a := by decide) (h2 : a < 0x23000 := by decide) : LogReg a := .inl ⟨h1, h2⟩
theorem logReg_ipend (c : Nat) : LogReg (rIPEND c) := .inr (.inl ⟨c, rfl⟩)
theorem logReg_event {h : Nat} (hh : h < 2) : LogReg (rHG_EVENT h) := .inr (.inr (.inl ⟨h, hh, rfl⟩))
theorem logReg_walks {p : Nat} (hp : p < 8) : LogReg (rLG_WALKS p) := .inr (.inr (.inr (.inl ⟨p, hp, .inl rfl⟩)))
theorem logReg_fault {p : Nat} (hp : p < 8) : LogReg (rLG_XFAULT p) := .inr (.inr (.inr (.inl ⟨p, hp, .inr rfl⟩)))
theorem logReg_slice {a n : Nat} (hn : n < 256) (h : a = rSL_HIT n ∨ a = rSL_MISS n ∨ a = rSL_EVICT n) : LogReg a :=
  .inr (.inr (.inr (.inr (.inl ⟨n, hn, h⟩))))
theorem logReg_drop {a n : Nat} (hn : n < 16) (h : a = rSC_DRG_CNT n ∨ a = rLC_DRG_CNT n) : LogReg a :=
  .inr (.inr (.inr (.inr (.inr ⟨n, hn, h⟩))))
theorem logReg_ent {e k : Nat} (h1 : e < 256) (h2 : k < 0x20) : LogReg (0x21000 + k + e * 0x20) := .inl ⟨by omega, by omega⟩

theorem hgEvent_onlyLog {s0 s : State} (h : Nat) (hh : h < 2) (f : Fld) (k : OnlyLog s0 s) : OnlyLog s0 (s.hgEvent h f) := by
  unfold State.hgEvent
  split
  · exact k
  · exact (setReg_onlyLog _ k (logReg_event hh)).same rfl

theorem errRaise_onlyLog {s0 s : State} (k : OnlyLog s0 s) : OnlyLog s0 (errRaise s) := by
  unfold errRaise
  refine hgEvent_onlyLog _ (by decide) _ (hgEvent_onlyLog _ (by decide) _ ?_)
  split
  · exact setReg_onlyLog _ k (logReg_ipend _)
  · exact k

theorem errFind_lt (s : State) (head struct addr : Nat) : ∀ n e, errFind s head struct addr n = some e → e < n := by
  intro n
  induction n with
  | zero => intro e h; simp [errFind] at h
  | succ n ih =>
    intro e h
    unfold errFind at h
    split at h
    · cases h; exact Nat.lt_succ_of_lt (ih _ ‹_›)
    · split at h
      · cases h; exact Nat.lt_succ_self _
      · cases h

theorem fget_lt (v : Word) (f : Fld) : fget v f < 2 ^ (f.hi + 1 - f.lo) := Nat.mod_lt _ (Nat.two_pow_pos _)

theorem logErr_onlyLog {s0 s : State} {kind : ErrKind} {source struct addr bank pc synd : Nat} {fatal : Bool} (k : OnlyLog s0 s) :
    OnlyLog s0 (logErr kind source struct addr bank pc synd fatal s) := by
  have e0 : ∀ e, e < 256 → LogReg (rEL_ENTRY0 e) := fun e h => .inl ⟨by unfold rEL_ENTRY0; omega, by unfold rEL_ENTRY0; omega⟩
  have e1 : ∀ e, e < 256 → LogReg (rEL_ENTRY1 e) := fun e h => .inl ⟨by unfold rEL_ENTRY1; omega, by unfold rEL_ENTRY1; omega⟩
  have e2 : ∀ e, e < 256 → LogReg (rEL_ENTRY2 e) := fun e h => .inl ⟨by unfold rEL_ENTRY2; omega, by unfold rEL_ENTRY2; omega⟩
  have e3 : ∀ e, e < 256 → LogReg (rEL_ENTRY3 e) := fun e h => .inl ⟨by unfold rEL_ENTRY3; omega, by unfold rEL_ENTRY3; omega⟩
  unfold logErr
  extract_lets -merge +onlyGivenNames head cal s1 fat s2 th
  have k1 : OnlyLog s0 s1 := by
    show OnlyLog s0 (if _ then _ else _)
    split
    · exact setReg_onlyLog _ k logReg_el
    · exact setReg_onlyLog _ k logReg_el
  have k2 : OnlyLog s0 s2 := by
    show OnlyLog s0 (if _ then _ else _)
    split
    · exact setReg_onlyLog _ k1 logReg_el
    · exact k1
  clear_value s2
  have k3 : ∀ x : State × Nat, OnlyLog s0 x.1 →
      OnlyLog s0 (let hard := decide (x.2 ≠ 0) && x.2 == th
        let s := if hard then x.1.setFlag rEL_STAT EL_STAT_HARD true else x.1
        if kind.unc || fat || hard then errRaise s else s) := by
    intro x kx
    extract_lets -merge +onlyGivenNames hard s3
    have k4 : OnlyLog s0 s3 := by
      show OnlyLog s0 (if _ then _ else _)
      split
      · exact setReg_onlyLog _ kx logReg_el
      · exact kx
    split
    · exact errRaise_onlyLog k4
    · exact k4
  split
  split at *
  next hm =>
    rename_i e he
    have lt : e < 256 := errFind_lt s2 head struct addr 256 e he
    refine k3 (_, _) ?_
    cases hm
    exact setReg_onlyLog _ (setReg_onlyLog _ k2 (e0 _ lt)) (e3 _ lt)
  next hm =>
    have lt : s2.fld rEL_STAT EL_STAT_WPTR < 256 := fget_lt _ _
    refine k3 (_, _) ?_
    dsimp only at hm
    split at hm
    · cases hm
      exact setReg_onlyLog _ k2 logReg_el
    · cases hm
      exact setReg_onlyLog _ (setReg_onlyLog _ (setReg_onlyLog _ (setReg_onlyLog _ (setReg_onlyLog _ k2 (e0 _ lt)) (e1 _ lt)) (e2 _ lt))
        (e3 _ lt)) logReg_el

theorem countWalk_onlyLog {s0 s : State} {p : Nat} {w : Walk} (hp : p < 8) (k : OnlyLog s0 s) : OnlyLog s0 (countWalk p w s) := by
  have k1 : OnlyLog s0 (s.count (rLG_WALKS p) 1) := setReg_onlyLog _ k (logReg_walks hp)
  unfold countWalk
  split
  · exact setReg_onlyLog _ k1 (logReg_fault hp)
  · exact k1

theorem each_onlyLog {α : Type} {s0 : State} {f : α → State → State} (hf : ∀ x s, OnlyLog s0 s → OnlyLog s0 (f x s)) :
    ∀ (xs : List α) (s : State), OnlyLog s0 s → OnlyLog s0 (each f xs s) := by
  intro xs
  induction xs with
  | nil => intro s k; exact k
  | cons x r ih => intro s k; exact ih _ (hf x s k)

theorem nxor_lt {a b n : Nat} (h1 : a < 2 ^ n) (h2 : b < 2 ^ n) : nxor a b < 2 ^ n := Nat.xor_lt_two_pow h1 h2
theorem bits_lt (v hi lo : Nat) : bits v hi lo < 2 ^ (hi + 1 - lo) := Nat.mod_lt _ (Nat.two_pow_pos _)

theorem hbmMap_lt (s : State) (pa : Nat) : (hbmMap s pa).1 < 16 := by
  unfold hbmMap
  extract_lets f b y
  split
  · have h1 : nxor (nxor (bits b 2 0) (bits b 5 3)) (bits b 8 6) < 2 ^ 3 := nxor_lt (nxor_lt (bits_lt _ _ _) (bits_lt _ _ _)) (bits_lt _ _ _)
    have : f % 2 < 2 := Nat.mod_lt _ (by decide)
    show 8 * (f % 2) + _ < 16
    omega
  · exact nxor_lt (n := 4) (nxor_lt (bits_lt _ _ _) (bits_lt _ _ _)) (bits_lt _ _ _)

/-- There are 256 slices, and 16 controllers of each kind. -/
theorem homeSlice_lt (s : State) (pa : Nat) : homeSlice s pa < 256 := by
  unfold homeSlice
  split
  · exact nxor_lt (n := 8) (bits_lt _ _ _) (bits_lt _ _ _)
  · have h1 := hbmMap_lt s pa
    have h2 : saPc (hbmMap s pa).2 < 2 ^ 5 := nxor_lt (bits_lt _ _ _) (bits_lt _ _ _)
    show 16 * (hbmMap s pa).1 + saPc (hbmMap s pa).2 / 2 < 256
    omega

theorem lpMap_lt (pa : Nat) : (lpMap pa).1 < 16 := nxor_lt (n := 4) (nxor_lt (bits_lt _ _ _) (bits_lt _ _ _)) (bits_lt _ _ _)

theorem dropWrite_onlyLog {s0 s : State} {pa : Nat} (k : OnlyLog s0 s) : OnlyLog s0 (dropWrite pa s) := by
  unfold dropWrite
  split
  · exact setReg_onlyLog _ k (logReg_drop (lpMap_lt pa) (.inr rfl))
  · exact setReg_onlyLog _ k (logReg_drop (Nat.div_lt_of_lt_mul (homeSlice_lt s pa)) (.inl rfl))

theorem pump_onlyLog {s0 s : State} {n : Nat} (k : OnlyLog s0 s) : OnlyLog s0 (pump n s) := by
  unfold pump
  split
  · exact k.same rfl
  · exact k

theorem cwSend_onlyLog {s0 s : State} {op line eng : Nat} {q : Option Packet} {m : TMsg} (k : OnlyLog s0 s) :
    OnlyLog s0 (cwSend op line eng q m s) := by
  unfold cwSend
  dsimp only
  split
  · exact k
  · split
    · exact k
    · exact pump_onlyLog (k.same rfl)

theorem keepAttr_onlyLog {s0 s : State} {n tag : Nat} (k : OnlyLog s0 s) : OnlyLog s0 (keepAttr n tag s) := by
  unfold keepAttr
  split
  · exact k
  · exact k.same rfl

theorem evict_onlyLog {s0 s : State} {n : Nat} {l : SLine} (hn : n < 256) (k : OnlyLog s0 s) : OnlyLog s0 (evict n l s) := by
  unfold evict
  extract_lets -merge +onlyGivenNames x s1 rest
  have k1 : OnlyLog s0 s1 := setReg_onlyLog _ k (logReg_slice hn (.inr (.inr rfl)))
  clear_value s1
  split
  · extract_lets -merge +onlyGivenNames st s2 s3
    have k3 : OnlyLog s0 s3 := k1.same rfl
    split
    · exact cwSend_onlyLog k3
    · exact cwSend_onlyLog k3
  · extract_lets -merge +onlyGivenNames pa s2 s3
    have k3 : OnlyLog s0 s3 := k1.same rfl
    clear_value s3
    split
    · exact dropWrite_onlyLog k3
    · exact k3

theorem fill_onlyLog {s0 s : State} {n line tag part : Nat} {snap : Bool} (hn : n < 256) (k : OnlyLog s0 s) :
    OnlyLog s0 (fill n line tag part snap s) := by
  have k1 : OnlyLog s0 (makeRoom n line s) := by
    unfold makeRoom
    dsimp only
    split
    · exact k
    · split
      · exact evict_onlyLog hn k
      · exact k
  unfold fill
  extract_lets s1
  have k1 : OnlyLog s0 s1 := k1
  dsimp only
  split
  · exact k1
  · exact keepAttr_onlyLog (k1.same rfl)

theorem logWord_onlyLog {s0 s : State} {k w y : _} (h : OnlyLog s0 s) : OnlyLog s0 (logWord k w y s) := by
  unfold logWord
  exact logErr_onlyLog h

theorem logFixed_onlyLog {s0 s : State} {line n : Nat} (k : OnlyLog s0 s) : OnlyLog s0 (logFixed line n s) := by
  induction n with
  | zero => exact k
  | succ n ih =>
    unfold logFixed
    extract_lets -merge +onlyGivenNames s1 m
    have k1 : OnlyLog s0 s1 := ih
    clear_value s1
    split
    · exact logWord_onlyLog k1
    · exact k1

theorem lineIn_onlyLog {s0 s : State} {n line : Nat} (hn : n < 256) (k : OnlyLog s0 s) : OnlyLog s0 (lineIn n line s) := by
  unfold lineIn
  extract_lets -merge +onlyGivenNames s1
  have k1 : OnlyLog s0 s1 := logFixed_onlyLog k
  clear_value s1
  split
  · refine setReg_onlyLog _ ?_ (logReg_slice hn (.inl rfl))
    unfold touchLine
    dsimp only
    rw [if_neg (by simp)]
    exact k1.same rfl
  · have k2 : OnlyLog s0 (s1.count (rSL_MISS n) 1) := setReg_onlyLog _ k1 (logReg_slice hn (.inr (.inl rfl)))
    extract_lets -merge +onlyGivenNames s2
    have k2 : OnlyLog s0 s2 := k2
    clear_value s2
    split
    · exact k2
    · exact fill_onlyLog hn k2

theorem ledgerLine_onlyLog {s0 s : State} {line : Nat} (k : OnlyLog s0 s) : OnlyLog s0 (ledgerLine line s) := by
  unfold ledgerLine
  refine lineIn_onlyLog (homeSlice_lt _ _) ?_
  split
  · split
    · unfold dropClean
      exact logErr_onlyLog (k.same rfl)
    · exact k
  · exact k

theorem walkLines_onlyLog {s0 s : State} {p vpn : Nat} (k : OnlyLog s0 s) : OnlyLog s0 (walkLines p vpn s) := by
  unfold walkLines
  exact each_onlyLog (fun _ _ => ledgerLine_onlyLog) _ _ k

theorem touchTc_onlyLog {s0 s : State} {c p va : Nat} (hp : p < 8) (k : OnlyLog s0 s) : OnlyLog s0 (touchTc c p va s) := by
  unfold touchTc
  split
  · exact k
  · extract_lets -merge +onlyGivenNames vpn
    split
    · exact k
    · extract_lets -merge +onlyGivenNames w s1
      have k1 : OnlyLog s0 s1 := walkLines_onlyLog (countWalk_onlyLog hp k)
      clear_value s1 w
      split
      · exact k1.same rfl
      · exact setReg_onlyLog _ k1 (logReg_fault hp)

theorem spadSeen_onlyLog {s0 s : State} {c off n : Nat} (k : OnlyLog s0 s) : OnlyLog s0 (spadSeen c off n s) := by
  unfold spadSeen
  extract_lets -merge +onlyGivenNames ws m s1
  have k1 : OnlyLog s0 s1 := by
    refine each_onlyLog (fun x s ks => ?_) ws s k
    split
    · exact logErr_onlyLog ks
    · exact ks
  split
  · exact logErr_onlyLog k1
  · exact k1

theorem part_lt (s : State) (c : Nat) : s.part c < 8 := fget_lt _ _

/-- A fetch writes registers of the log only. -/
theorem fetched_onlyLog (s : State) (c : Nat) : OnlyLog s (fetched c s) := by
  unfold fetched
  extract_lets -merge +onlyGivenNames x
  split
  · exact (touchTc_onlyLog (part_lt s c) (.refl s)).same rfl
  · exact spadSeen_onlyLog (.refl s)
  · exact .refl s

/-- A register outside the log: the offsets that an instruction's checks read. -/
theorem not_logReg {a : Nat} (h1 : ¬ (0x20000 ≤ a ∧ a < 0x23000)) (h2 : a % 0x10000 ≠ 0x60)
    (h3 : a ≠ rHG_EVENT 0 ∧ a ≠ rHG_EVENT 1) (h4 : ¬ (0xB300300 ≤ a ∧ a < 0xB300400))
    (h5 : a % 0x1000 ≠ 0x10 ∧ a % 0x1000 ≠ 0x18 ∧ a % 0x1000 ≠ 0x20 ∨ a < 0x8000000 ∨ 0xB200000 ≤ a) : ¬ LogReg a := by
  rintro (h | ⟨d, h⟩ | ⟨d, hd, h⟩ | ⟨p, hp, h | h⟩ | ⟨n, hn, h | h | h⟩ | ⟨n, hn, h | h⟩)
  · exact h1 h
  · simp only [rIPEND] at h; omega
  · have : d = 0 ∨ d = 1 := by omega
    rcases this with rfl | rfl
    · exact h3.1 h
    · exact h3.2 h
  · simp only [rLG_WALKS] at h; omega
  · simp only [rLG_XFAULT] at h; omega
  · simp only [rSL_HIT] at h; omega
  · simp only [rSL_MISS] at h; omega
  · simp only [rSL_EVICT] at h; omega
  · simp only [rSC_DRG_CNT] at h; omega
  · simp only [rLC_DRG_CNT] at h; omega

theorem fld_log {s t : State} (h : OnlyLog s t) {a : Nat} (f : Fld) (n : ¬ LogReg a) : t.fld a f = s.fld a f := by
  unfold State.fld; rw [h a n]

theorem flag_log {s t : State} (h : OnlyLog s t) {a : Nat} (f : Fld) (n : ¬ LogReg a) : t.flag a f = s.flag a f := by
  unfold State.flag; rw [h a n]

/-- The registers of translation and of a core's mode. -/
theorem coreId_not_log (c : Nat) : ¬ LogReg (rCORE_ID c) := by
  apply not_logReg <;> simp only [rCORE_ID, rHG_EVENT] <;> omega
theorem coreMode_not_log {c : Nat} (hc : c < 1024) : ¬ LogReg (rCORE_MODE c) := by
  apply not_logReg <;> simp only [rCORE_MODE, rHG_EVENT] <;> omega
theorem cmemCfg_not_log {p : Nat} (h : p < 8) : ¬ LogReg (rCMEM_CFG p) := by
  apply not_logReg <;> simp only [rCMEM_CFG, rHG_EVENT] <;> omega
theorem cwVbase_not_log {p : Nat} (h : p < 8) : ¬ LogReg (rCW_VBASE p) := by
  apply not_logReg <;> simp only [rCW_VBASE, rHG_EVENT] <;> omega
theorem cwPbase_not_log {p : Nat} (h : p < 8) : ¬ LogReg (rCW_PBASE p) := by
  apply not_logReg <;> simp only [rCW_PBASE, rHG_EVENT] <;> omega
theorem cwSize_not_log {p : Nat} (h : p < 8) : ¬ LogReg (rCW_SIZE p) := by
  apply not_logReg <;> simp only [rCW_SIZE, rHG_EVENT] <;> omega
theorem ttCwbase_not_log {n : Nat} (h : n < 8) : ¬ LogReg (rTT_CWBASE n) := by
  apply not_logReg <;> simp only [rTT_CWBASE, rHG_EVENT] <;> omega
theorem ttCwsize_not_log {n : Nat} (h : n < 8) : ¬ LogReg (rTT_CWSIZE n) := by
  apply not_logReg <;> simp only [rTT_CWSIZE, rHG_EVENT] <;> omega
theorem ttStat_not_log : ¬ LogReg rTT_STAT := by apply not_logReg <;> decide

theorem part_log {s t : State} (h : OnlyLog s t) (c : Nat) : t.part c = s.part c := fld_log h _ (coreId_not_log c)

theorem spadBase_log {s t : State} (h : OnlyLog s t) {p : Nat} (hp : p < 8) : spadBase t p = spadBase s p := by
  unfold spadBase; rw [fld_log h _ (cmemCfg_not_log hp)]

theorem spadSize_log {s t : State} (h : OnlyLog s t) {p : Nat} (hp : p < 8) : spadSize t p = spadSize s p := by
  unfold spadSize; rw [fld_log h _ (cmemCfg_not_log hp)]

theorem inSpad_log {s t : State} (h : OnlyLog s t) {p : Nat} (hp : p < 8) (va : Nat) : inSpad t p va = inSpad s p va := by
  unfold inSpad; rw [spadBase_log h hp]

theorem inCw_log {s t : State} (h : OnlyLog s t) {p : Nat} (hp : p < 8) (va : Nat) : inCw t p va = inCw s p va := by
  unfold inCw; rw [fld_log h _ (cwVbase_not_log hp), flag_log h _ (cwVbase_not_log hp), fld_log h _ (cwSize_not_log hp)]

theorem cwOpenIn_log {s t : State} (h : OnlyLog s t) (pa : Nat) (w : Bool) : ∀ n, n ≤ 8 → cwOpenIn t pa w n = cwOpenIn s pa w n
  | 0, _ => rfl
  | n + 1, hn => by
    unfold cwOpenIn
    rw [fld_log h _ (ttCwbase_not_log (by omega)), flag_log h _ (ttCwbase_not_log (by omega)), flag_log h _ (ttCwbase_not_log (by omega)),
      fld_log h _ (ttCwsize_not_log (by omega)), cwOpenIn_log h pa w n (by omega)]

/-- The walk reads the anchors and the Ledger only. -/
theorem walk_congr {s t : State} (h1 : t.anchors = s.anchors) (h2 : t.ledger = s.ledger) (p vpn : Nat) : walk t p vpn = walk s p vpn := by
  have e : ∀ f, t.le f = s.le f := fun f => by unfold State.le; rw [h2]
  have k : ∀ n o, walkFrom t p vpn n o = walkFrom s p vpn n o := by
    intro n
    induction n with
    | zero => intro o; cases o <;> rfl
    | succ n ih => intro o; cases o with
      | none => rfl
      | some f => unfold walkFrom; rw [e f]; simp only [ih]
  unfold walk; rw [k]; unfold State.anchor; rw [h1]

/-- Translation is the same when only the log, the caches and the banks have changed. -/
theorem place_log {s t : State} (h : OnlyLog s t) (h1 : t.anchors = s.anchors) (h2 : t.ledger = s.ledger) {p : Nat} (hp : p < 8)
    (m : Bool) (k : AccK) (va : Nat) : place t p m k va = place s p m k va := by
  have e : ∀ f, t.le f = s.le f := fun f => by unfold State.le; rw [h2]
  unfold place cwPa cwOpen
  rw [inSpad_log h hp, spadBase_log h hp, spadSize_log h hp, inCw_log h hp, walk_congr h1 h2, fld_log h _ (cwVbase_not_log hp),
    flag_log h _ (cwVbase_not_log hp), fld_log h _ (cwPbase_not_log hp), fld_log h _ ttStat_not_log]
  simp only [cwOpenIn_log h _ _ 8 (Nat.le_refl _), e]

theorem pointFault_log {s t : State} (h : OnlyLog s t) (h1 : t.anchors = s.anchors) (h2 : t.ledger = s.ledger) {p : Nat} (hp : p < 8)
    (m : Bool) (k : AccK) (stop : Nat) : ∀ n va, pointFault t p m k stop n va = pointFault s p m k stop n va := by
  intro n
  induction n with
  | zero => intro va; rfl
  | succ n ih => intro va; unfold pointFault; rw [place_log h h1 h2 hp]; simp only [ih]

theorem accFault_log {s t : State} (h : OnlyLog s t) (h1 : t.anchors = s.anchors) (h2 : t.ledger = s.ledger) {p : Nat} (hp : p < 8)
    (m : Bool) (k : AccK) (va n : Nat) : accFault t p m k va n = accFault s p m k va n := by
  unfold accFault; rw [spadBase_log h hp]; simp only [pointFault_log h h1 h2 hp]

end Sys2Proof.Machine
end

