-- ==== Sys2Proof/Laws/Ran.lean ====
section
/-! SUPPORT. What retiring, jumping and taking an exception leave, in the words of Safety. -/

namespace Sys2Proof.Machine

theorem touchTc_core_ne {s : State} {c d p va : Nat} (h : d ≠ c) : (touchTc c p va s).core d = s.core d := by
  unfold touchTc
  split
  · rfl
  · extract_lets -merge +onlyGivenNames vpn
    split
    · rfl
    · extract_lets -merge +onlyGivenNames w s1
      have k1 : s1.core d = s.core d := State.core_congr (walkLines_hush (countWalk_hush (Hush.refl s))).cores d
      clear_value s1 w
      split
      · exact (State.core_setCore_ne _ _ h).trans k1
      · exact k1

theorem spadSeen_cores (c off n : Nat) (s : State) : (spadSeen c off n s).cores = s.cores := (spadSeen_hush (Hush.refl s)).cores

theorem fetched_core_ne (s : State) {c d : Nat} (h : d ≠ c) : (fetched c s).core d = s.core d := by
  unfold fetched
  extract_lets -merge +onlyGivenNames x
  split
  · exact (State.core_modCore_ne _ _ h).trans (touchTc_core_ne h)
  · exact State.core_congr (spadSeen_cores _ _ _ _) d
  · rfl

/-- `u` is a state that the fetch and a few more quiet steps of core `c` led to. -/
structure Near (s u : State) (c : Nat) : Prop where
  quiet : Quiet s u
  log : OnlyLog s u
  cores : ∀ d, d ≠ c → u.core d = s.core d

theorem Near.fetched (s : State) (c : Nat) : Near s (fetched c s) c :=
  ⟨fetched_is_quiet s c, fetched_onlyLog s c, fun _ h => fetched_core_ne s h⟩

theorem Near.spadSeen {s u : State} {c off n : Nat} (h : Near s u c) : Near s (spadSeen c off n u) c :=
  ⟨spadSeen_quiet h.quiet, spadSeen_onlyLog h.log, fun d e => (State.core_congr (spadSeen_cores _ _ _ _) d).trans (h.cores d e)⟩

theorem instret_not_log (c : Nat) : ¬ LogReg (rINSTRET c) := by
  apply not_logReg <;> simp only [rINSTRET, rHG_EVENT] <;> omega

/-- What a change of the running context's bank and of INSTRET leaves. -/
theorem kept_modCur {s u : State} {c : Nat} (h : Near s u c) (f : Ctx → Ctx) : Kept s (u.modCur c f) c := by
  have hr := h.quiet.run c
  refine ⟨by simp [hr], fun i hi => ?_, ?_, fun d hd => ?_, fun a ha _ => h.log a ha, ?_⟩
  · rw [State.modCur, State.ctx_modCtx_ne _ _ _ (by rw [hr]; exact hi), h.quiet.core c]; rfl
  · simp only [State.modCur, State.modCtx, State.core_modCore_self]
    rw [h.quiet.core c]; rfl
  · rw [State.modCur, State.modCtx, State.core_modCore_ne _ _ hd]; exact h.cores d hd
  · exact Walked.trans h.quiet.rest rfl

theorem kept_count {s u : State} {c : Nat} (h : Kept s u c) : Kept s (u.count (rINSTRET c) 1) c := by
  refine ⟨h.run, h.other, h.own, h.cores, fun a ha hn => ?_, ?_⟩
  · rw [State.reg_count_ne _ _ hn]; exact h.regs a ha hn
  · exact Walked.trans h.rest rfl

theorem ran_of {s u : State} {c gd : Nat} {v pc : Word} {f : Ctx → Ctx} (h : Near s u c)
    (hf : f (s.cur c) = { (s.cur c).setG gd v with pc := pc, wait := .none }) :
    Ran s ((u.modCur c f).count (rINSTRET c) 1) c gd v pc := by
  have hc : ((u.modCur c f).count (rINSTRET c) 1).cur c = { (s.cur c).setG gd v with pc := pc, wait := .none } := by
    rw [State.cur_count, State.cur_modCur, h.quiet.cur c, hf]
  have hg : ∀ r, ((u.modCur c f).count (rINSTRET c) 1).g c r = ((s.cur c).setG gd v).gr r := fun r => by
    rw [State.g, hc]; rfl
  refine ⟨?_, by rw [hc], fun r hr => ?_, ?_, ?_, kept_count (kept_modCur h f)⟩
  · rw [hg, Ctx.gr_setG_self]
  · rw [hg, Ctx.gr_setG_ne _ _ hr]; rfl
  · rw [hc]; unfold Ctx.setG; split <;> rfl
  · rw [State.reg_count_self]
    show u.reg _ + _ = _
    rw [h.log _ (instret_not_log c)]; rfl

/-- An instruction that writes `v` to `gd` and retires. -/
theorem ran_retireG {s u : State} {c gd len : Nat} {v : Word} (h : Near s u c) :
    Ran s (u.retireG c gd v len) c gd v ((s.cur c).pc + n64 len) := by
  have e : u.retireG c gd v len =
      (u.modCur c fun x => { x.setG gd v with pc := (x.setG gd v).pc + n64 len, wait := .none }).count (rINSTRET c) 1 := by
    rw [State.retireG, State.retire, State.modCur_modCur]
  rw [e]
  exact ran_of h (by simp)

/-- An instruction that writes no register and retires. -/
theorem ran_retire {s u : State} {c len : Nat} (h : Near s u c) : Ran s (u.retire c len) c 0 0 ((s.cur c).pc + n64 len) :=
  ran_of h (by simp [Ctx.setG])

/-- A transfer of control. -/
theorem ran_jump {s u : State} {c : Nat} {v : Word} (h : Near s u c) : Ran s (u.jump c v) c 0 0 (v &&& ~~~ 3#64) :=
  ran_of h (by simp [Ctx.setG])

/-- A transfer of control that writes a register. -/
theorem ran_link {s u : State} {c gd : Nat} {v w : Word} (h : Near s u c) :
    Ran s ((u.modCur c fun x => x.setG gd w).jump c v) c gd w (v &&& ~~~ 3#64) := by
  rw [State.jump, State.modCur_modCur]
  exact ran_of h rfl

/-- Bit `i` of a word whose bit `b` was replaced. -/
theorem getLsbD_fset1 (v : Word) (b i : Nat) (x : Nat) (hb : b < 64) (hi : i < 64) :
    (fset v ⟨b, b⟩ x).getLsbD i = if i = b then x.testBit 0 else v.getLsbD i := by
  have e : fmask ⟨b, b⟩ = 2 ^ b := by simp [fmask, Nat.shiftLeft_eq]
  simp only [fset, e, BitVec.getLsbD_or, BitVec.getLsbD_and, BitVec.getLsbD_not, BitVec.getLsbD_ofNat, hi, decide_true, Bool.true_and,
    Nat.testBit_shiftLeft, Nat.testBit_two_pow]
  by_cases h : i = b
  · subst h; simp
  · simp [h, Ne.symm h]

theorem fget_bit (v : Word) (b : Nat) : (fget v ⟨b, b⟩).testBit 0 = v.getLsbD b := by
  simp [fget, bits, BitVec.getLsbD]

theorem fbit_bit (v : Word) (b : Nat) : fbit v ⟨b, b⟩ = v.getLsbD b := by
  rw [← fget_bit]
  have h : fget v ⟨b, b⟩ < 2 := by simpa using fget_lt v ⟨b, b⟩
  unfold fbit
  have : ∀ n < 2, (n != 0) = n.testBit 0 := by decide
  exact this _ h

/-- The status after entry (R77). -/
def entryStatus (st : Word) : Word :=
  let st := fset st MSTATUS_PPRIV (fget st MSTATUS_PRIV)
  let st := fset st MSTATUS_PRIV 1
  let st := fset st MSTATUS_PIE (fget st MSTATUS_IE)
  let st := fset st MSTATUS_IE 0
  fset st MSTATUS_INEXC 1

theorem trap_eq {u : State} {c : Nat} {e : Exc} {ev : Word} (hx : fbit (u.cur c).mstatus MSTATUS_INEXC = false) :
    trap c e ev u = u.modCur c fun x =>
      { x with epc := x.pc, ecause := n64 (b2n false <<< 63 ||| e.code), eval := ev, wait := .none, pc := u.reg (rMTVEC c)
               mstatus := entryStatus (u.cur c).mstatus } := by
  unfold trap enterExc
  have hx' : fbit ((u.core c).ctx (u.core c).run).mstatus MSTATUS_INEXC = false := hx
  simp only [hx', Bool.false_and, Bool.false_eq_true, if_false]
  rfl

theorem mtvec_not_log (c : Nat) : ¬ LogReg (rMTVEC c) := by
  apply not_logReg <;> simp only [rMTVEC, rHG_EVENT] <;> omega

/-- Taking an exception in a context whose INEXC is 0 (R77). -/
theorem entered_trap {s u : State} {c : Nat} {e : Exc} {ev : Word} (h : Near s u c) (hx : statusBit (s.cur c) 4 = false) :
    Entered s (trap c e ev u) c (n64 e.code) ev := by
  have hf : fbit (u.cur c).mstatus MSTATUS_INEXC = false := by rw [h.quiet.cur c, ← hx]; exact fbit_bit _ _
  have e1 := trap_eq (e := e) (ev := ev) hf
  have hc : (trap c e ev u).cur c = _ := (congrArg (·.cur c) e1).trans (State.cur_modCur u c _)
  rw [h.quiet.cur c] at hc
  have hk : Kept s (trap c e ev u) c := by rw [e1]; exact kept_modCur h _
  have hb : ∀ i, i < 64 → ((trap c e ev u).cur c).mstatus.getLsbD i =
      if i = 4 then true else if i = 2 then false else if i = 3 then (s.cur c).mstatus.getLsbD 2 else if i = 0 then true
      else if i = 1 then (s.cur c).mstatus.getLsbD 0 else (s.cur c).mstatus.getLsbD i := by
    intro i hi
    rw [hc]
    simp only [entryStatus, MSTATUS_PRIV, MSTATUS_PPRIV, MSTATUS_IE, MSTATUS_PIE, MSTATUS_INEXC]
    rw [getLsbD_fset1 _ 4 i _ (by decide) hi, getLsbD_fset1 _ 2 i _ (by decide) hi, getLsbD_fset1 _ 3 i _ (by decide) hi,
      getLsbD_fset1 _ 0 i _ (by decide) hi, getLsbD_fset1 _ 1 i _ (by decide) hi, fget_bit, fget_bit]
    rw [getLsbD_fset1 _ 0 2 _ (by decide) (by decide), getLsbD_fset1 _ 1 2 _ (by decide) (by decide)]
    simp
  refine ⟨by rw [hc], by rw [hc]; simp [b2n, n64], by rw [hc], hb 0 (by decide), hb 1 (by decide), hb 2 (by decide), hb 3 (by decide),
    hb 4 (by decide), ?_, fun r => ?_, by rw [hc], ?_, hk⟩
  · rw [hc]; exact h.log _ (mtvec_not_log c)
  · rw [State.g, hc]; rfl
  · rw [e1]; exact h.log _ (instret_not_log c)

/-- An instruction that only writes a register, issued by a ready core. -/
theorem simple_ran {s : State} {c w gd : Nat} {rs : List Nat} {v : State → Word} (h : Ready s c (gd :: rs)) :
    Ran s (simple c w gd rs v s) c gd (v (fetched c s)) ((s.cur c).pc + 4) := by
  rw [simple, issue4_ready h rfl]
  exact ran_retireG (Near.fetched s c)

/-- A reserved encoding, issued by a ready core. -/
theorem illegal_entered {s : State} {c len w : Nat} {rs : List Nat} {priv : Bool} {again : Wait → Bool} {body : State → State}
    (h : Ready s c rs) (ha : len ≠ 8 ∨ (s.cur c).pc.toNat % 8 ≠ 0 ∨ fetchSecond s c = none) (hx : statusBit (s.cur c) 4 = false) :
    Entered s (issue c len w rs false priv again body s) c (n64 1) (n64 w) := by
  rw [issue_illegal h ha]
  exact entered_trap (Near.fetched s c) hx

/-- A privileged instruction at T, issued by a ready core. -/
theorem priv_entered {s : State} {c w : Nat} {rs : List Nat} {body : State → State}
    (h : Ready s c rs) (hm : (s.cur c).isM = false) (hx : statusBit (s.cur c) 4 = false) :
    Entered s (issue4 c w rs true true body s) c (n64 2) (n64 w) := by
  rw [issue4_user h hm]
  exact entered_trap (Near.fetched s c) hx

end Sys2Proof.Machine
end

