-- ==== Sys2Proof/Laws/Same.lean ====
section
/-! SUPPORT. The g registers and memory through issuing, retiring, exceptions and switches: none of them changes a g register but
the one an instruction writes, or a byte of memory. -/

namespace Sys2Proof

open Machine

/-- Every g register of every context and every byte of memory is the same in both states. -/
structure SameG (s t : State) : Prop where
  g : ∀ d i r, ((t.core d).ctx i).gr r = ((s.core d).ctx i).gr r
  mem : t.mem = s.mem
  z : t.zeroed = s.zeroed
  e : t.memEpoch = s.memEpoch
theorem sameG_refl (s) : SameG s s := ⟨fun _ _ _ => rfl, rfl, rfl, rfl⟩
theorem SameG.trans {s t u} (h : SameG s t) (k : SameG t u) : SameG s u := ⟨fun d i r => (k.g d i r).trans (h.g d i r), k.mem.trans h.mem, k.z.trans h.z, k.e.trans h.e⟩
theorem sameG_ofCores {s t : State} (h : t.cores = s.cores) (m : t.mem = s.mem) (z : t.zeroed = s.zeroed) (e : t.memEpoch = s.memEpoch) : SameG s t :=
  ⟨fun d i r => by rw [State.core_congr h], m, z, e⟩
theorem SameG.byte {s t} (h : SameG s t) (a) : t.byte a = s.byte a := by unfold State.byte; rw [h.mem, h.z, h.e]
theorem sameG_quiet {s t} (h : Quiet s t) : SameG s t := ⟨fun d i r => by rw [h.core d]; rfl, h.mem, by rw [h.rest], by rw [h.rest]⟩
theorem sameG_modCore (s : State) (c : Nat) (f : Core → Core) (hf : ∀ i r, ((f (s.core c)).ctx i).gr r = ((s.core c).ctx i).gr r) : SameG s (s.modCore c f) :=
  ⟨fun d i r => by
    by_cases h : d = c
    · subst h; rw [State.core_modCore_self]; exact hf i r
    · rw [State.core_modCore_ne _ _ h], rfl, rfl, rfl⟩
theorem sameG_modCtx (s : State) (c i : Nat) (f : Ctx → Ctx) (hf : ∀ r, (f ((s.core c).ctx i)).gr r = ((s.core c).ctx i).gr r) : SameG s (s.modCtx c i f) :=
  sameG_modCore s c _ fun j r => by
    by_cases h : j = i
    · subst h; rw [Core.ctx_setCtx_self]; exact hf r
    · rw [Core.ctx_setCtx_ne _ _ h]
theorem sameG_switchIn (c i s) : SameG s (switchIn c i s) := sameG_modCore s c _ fun j r => by
  show (((s.core c).setCtx i _).ctx j).gr r = _
  by_cases h : j = i
  · subst h; rw [Core.ctx_setCtx_self]; rfl
  · rw [Core.ctx_setCtx_ne _ _ h]
theorem hgEvent_rest (s : State) (h f) : (s.hgEvent h f).cores = s.cores ∧ (s.hgEvent h f).mem = s.mem ∧ (s.hgEvent h f).zeroed = s.zeroed ∧ (s.hgEvent h f).memEpoch = s.memEpoch := by
  unfold State.hgEvent; split <;> exact ⟨rfl, rfl, rfl, rfl⟩
theorem sameG_coreHalt (c s) : SameG s (coreHalt c s) := by
  obtain ⟨a, b, d, e⟩ := hgEvent_rest s (coreHalf c) HG_EVENT_HALT
  exact sameG_ofCores a b d e
theorem sameG_haltCtx (c i s) : SameG s (haltCtx c i s) := by
  unfold haltCtx
  have h1 : SameG s (coreHalt c (s.modCtx c i fun x => { x with st := .halted, wait := .none })) :=
    (sameG_modCtx s c i _ fun r => rfl).trans (sameG_coreHalt _ _)
  dsimp only
  split
  · split
    · exact h1.trans (sameG_switchIn _ _ _)
    · exact h1
  · exact h1
theorem sameG_trap (c e ev s) : SameG s (trap c e ev s) := by
  unfold trap enterExc
  dsimp only
  split
  · exact sameG_haltCtx _ _ _
  · exact sameG_modCtx s c _ _ fun r => rfl
theorem sameG_modeApply (c v s) : SameG s (modeApply c v s) := by
  have w : ∀ i s, SameG s (wakeWaiting c i s) := fun i s => sameG_modCtx s c i _ fun r => by split <;> rfl
  unfold modeApply
  dsimp only
  split
  · exact sameG_refl s
  · split
    · have k : SameG s (wakeWaiting c 3 (wakeWaiting c 2 (wakeWaiting c 1 (wakeWaiting c 0 (s.setReg (rCORE_MODE c) (modeValue s c v)))))) :=
        ((((sameG_ofCores (s := s) (t := s.setReg (rCORE_MODE c) (modeValue s c v)) rfl rfl rfl rfl).trans (w 0 _)).trans (w 1 _)).trans (w 2 _)).trans (w 3 _)
      split
      · exact (k.trans (sameG_modCtx _ c _ _ fun r => by split <;> rfl)).trans (sameG_switchIn _ _ _)
      · exact k
    · exact sameG_ofCores rfl rfl rfl rfl
theorem sameG_boundary (c s) : SameG s (boundary c s) := by
  unfold boundary
  split
  · split
    · exact (sameG_modCore s c _ fun _ _ => rfl).trans (sameG_modeApply _ _ _)
    · exact sameG_refl s
  · exact sameG_refl s
theorem sameG_touchTc (c p va s) : SameG s (touchTc c p va s) := sameG_quiet (touchTc_quiet (Quiet.refl s))
theorem sameG_spadSeen (c p va s) : SameG s (spadSeen c p va s) := sameG_quiet (spadSeen_quiet (Quiet.refl s))
theorem sameG_fetchSeen (c s) : SameG s (fetchSeen c s) := by
  unfold fetchSeen; split
  · exact sameG_spadSeen _ _ _ _
  · exact sameG_refl _
theorem sameG_issue {c len w rs legal priv again body} {P : State → State → Prop} (hs : ∀ s t u, SameG s t → P t u → P s u) (hr : ∀ s t, SameG s t → P s t)
   (hb : ∀ s, P s (body s)) (s) : P s (issue c len w rs legal priv again body s) := by
  unfold issue
  dsimp only
  have b := sameG_boundary c s
  split
  · exact hr _ _ b
  · split
    · exact hr _ _ (((b.trans (sameG_touchTc _ _ _ _)).trans (sameG_fetchSeen _ _)).trans (sameG_trap _ _ _ _))
    · have f := b.trans (sameG_quiet (fetched_is_quiet (boundary c s) c))
      split
      · exact hr _ _ (f.trans (sameG_trap _ _ _ _))
      · split
        · exact hr _ _ (f.trans (sameG_trap _ _ _ _))
        · split
          · exact hr _ _ (f.trans (sameG_trap _ _ _ _))
          · exact hs _ _ _ f (hb _)
theorem onlyG_of {s t} (c gd) (h : SameG s t) : OnlyG s t c gd := ⟨fun d i r _ => h.g d i r, fun a => h.byte a⟩
theorem onlyG_pre {s t u c gd} (h : SameG s t) (k : OnlyG t u c gd) : OnlyG s u c gd := ⟨fun d i r n => (k.g d i r n).trans (h.g d i r), fun a => (k.mem a).trans (h.byte a)⟩
theorem onlyG_setG (s : State) (c gd v) : OnlyG s (s.modCur c fun x => x.setG gd v) c gd := by
  refine ⟨fun d i r n => ?_, fun a => rfl⟩
  by_cases h : d = c
  · subst h
    by_cases k : i = (s.core d).run
    · subst k; rw [State.modCur, State.ctx_modCtx_self, Ctx.gr_setG_ne _ _ (n rfl)]
    · rw [State.modCur, State.ctx_modCtx_ne _ _ _ k]
  · rw [State.modCur, State.modCtx, State.core_modCore_ne _ _ h]
theorem onlyG_post {s t u c gd} (k : OnlyG s t c gd) (h : SameG t u) : OnlyG s u c gd := ⟨fun d i r n => (h.g d i r).trans (k.g d i r n), fun a => (h.byte a).trans (k.mem a)⟩
theorem sameG_retire (s : State) (c n) : SameG s (s.retire c n) :=
  (sameG_modCtx s c _ (fun x => { x with pc := x.pc + n64 n, wait := .none }) fun r => rfl).trans (sameG_ofCores rfl rfl rfl rfl)
theorem sameG_jump (s : State) (c n) : SameG s (s.jump c n) :=
  (sameG_modCtx s c _ (fun x => { x with pc := n &&& ~~~ 3#64, wait := .none }) fun r => rfl).trans (sameG_ofCores rfl rfl rfl rfl)
theorem onlyG_retireG (s : State) (c gd v n) : OnlyG s (s.retireG c gd v n) c gd := onlyG_post (onlyG_setG s c gd v) (sameG_retire _ _ _)
theorem onlyG_issue {c gd len w rs legal priv again body} (hb : ∀ s, OnlyG s (body s) c gd) (s) : OnlyG s (issue c len w rs legal priv again body s) c gd :=
  sameG_issue (P := fun s t => OnlyG s t c gd) (fun s t u h k => onlyG_pre h k) (fun s t h => onlyG_of c gd h) hb s

theorem onlyG_simple {c w gd rs v} (s) : OnlyG s (simple c w gd rs v s) c gd := onlyG_issue (fun s => onlyG_retireG _ _ _ _ _) s

end Sys2Proof
end

