-- ==== Sys2Proof/Laws/Own.lean ====
section
/-! SUPPORT. What an instruction's checks see after its fetch, and accesses that lie in the core's own scratchpad (R230, R231). -/

namespace Sys2Proof

open Machine

theorem tbt_near {s u c} (h : Near s u c) : u.tbt = s.tbt := by rw [h.quiet.rest]
theorem place_near {s u c} (h : Near s u c) {p : Nat} (hp : p < 8) (m k va) : place u p m k va = place s p m k va :=
  place_log h.log (by rw [h.quiet.rest]) (by rw [h.quiet.rest]) hp m k va
theorem acc_near {s u c} (h : Near s u c) {p : Nat} (hp : p < 8) (m k va n) : accFault u p m k va n = accFault s p m k va n :=
  accFault_log h.log (by rw [h.quiet.rest]) (by rw [h.quiet.rest]) hp m k va n
theorem part_near {s u c} (h : Near s u c) (d) : u.part d = s.part d := part_log h.log d
theorem spad_near {s u c} (h : Near s u c) (d) : (u.core d).spad = (s.core d).spad ∧ (u.core d).spadEpoch = (s.core d).spadEpoch ∧ (u.core d).flips = (s.core d).flips := by
  rw [h.quiet.core d]; exact ⟨rfl, rfl, rfl⟩
theorem spadBytes_near {s u c} (h : Near s u c) (d) : ∀ n off, spadBytes u d off n = spadBytes s d off n := by
  have hb : ∀ off, spadRd u d off = spadRd s d off := fun off => by
    obtain ⟨a, b, e⟩ := spad_near h d
    unfold spadRd spadByte; rw [a, b, e]
  intro n
  induction n with
  | zero => intro off; rfl
  | succ n ih => intro off; unfold spadBytes; rw [hb, ih]
theorem spadBad_near {s u c} (h : Near s u c) (d off n) : spadBad u d off n = spadBad s d off n := by
  unfold spadBad; rw [(spad_near h d).2.2]

theorem size_lt (s p) : spadSize s p ≤ 7 * 131072 := by
  unfold spadSize
  have := fget_lt (s.reg (rCMEM_CFG p)) CMEM_CFG_SPAD_SIZE
  have e : CMEM_CFG_SPAD_SIZE.hi + 1 - CMEM_CFG_SPAD_SIZE.lo = 3 := rfl
  rw [e] at this
  unfold State.fld; omega

theorem place_spad {s c va n} (h : OwnSpad s c va n) (hn : 0 < n) (m k) : place s (s.part c) m k va = .spad (va - spadBase s (s.part c)) := by
  obtain ⟨h1, h2, h3, h4, h5⟩ := h
  have := size_lt s (s.part c)
  unfold place
  rw [if_neg (by omega), if_neg (by simp [isRegSpace]; omega), if_pos (by simp [inSpad]; omega), if_pos (by omega)]
theorem spadsz_mult (s p) : spadSize s p % 131072 = 0 := by unfold spadSize; omega
theorem spadbase_mult (s p) : spadBase s p % 1048576 = 0 := by unfold spadBase; rw [Nat.shiftLeft_eq]; omega
theorem acc_spad {s c va n} (h : OwnSpad s c va n) (hn : 0 < n) (hd : n ∣ 131072) (m k) : accFault s (s.part c) m k va n = none := by
  have hp := place_spad h hn m k
  obtain ⟨h1, h2, h3, h4, h5⟩ := h
  have := size_lt s (s.part c)
  obtain ⟨j, hj⟩ := Nat.dvd_of_mod_eq_zero h1
  unfold accFault
  have : (decide (va < spadBase s (s.part c)) || decide (spadBase s (s.part c) + 2 ^ 20 < va + n)) = false := by simp; omega
  dsimp only
  rw [this]
  simp only [Bool.and_false, Bool.false_eq_true, if_false]
  obtain ⟨q, hq⟩ := hd
  have hle : n ≤ 131072 := Nat.le_of_dvd (by decide) ⟨q, hq⟩
  have : n / 131072 = 0 ∨ n / 131072 = 1 := by omega
  have key : va + n ≤ (va / 131072 + 1) * 131072 := by
    have e : va / 131072 = j / q := by rw [hj, hq, Nat.mul_comm n q, Nat.mul_comm n j]; exact Nat.mul_div_mul_right j q hn
    have : j < (j/q+1) * q := by
      have hq0 : 0 < q := by rcases Nat.eq_zero_or_pos q with h | h; subst h; omega; exact h
      rw [Nat.add_mul, Nat.one_mul]; have := Nat.div_add_mod j q; have := Nat.mod_lt j hq0; rw [Nat.mul_comm]; omega
    rw [e, hq, hj]
    calc n * j + n = n * (j + 1) := (Nat.mul_succ n j).symm
      _ ≤ n * ((j/q+1)*q) := Nat.mul_le_mul_left n this
      _ = (j/q+1) * (n * q) := Nat.mul_left_comm _ _ _
  have pf : ∀ f, pointFault s (s.part c) m k (va + n) f ((va / 131072 + 1) * 131072) = none := by
    intro f; cases f with
    | zero => rfl
    | succ f => unfold pointFault; rw [if_pos key]
  rw [show n / 131072 + 2 = (n / 131072 + 1) + 1 from rfl]
  unfold pointFault
  rw [if_neg (by omega), hp]
  exact pf _

end Sys2Proof
end

