-- ==== Sys2Proof/Tests/Slice0.lean ====
section
/-! SUPPORT. Tests of the model: ill-formed commands, words and values from the worked examples of the manual, and for each
statement a state that meets its hypotheses. -/

namespace Sys2Proof.Tests

open Machine

set_option Elab.async false

/-! States for tests. -/

/-- Set a list of registers. -/
def withRegs (l : List (Nat × Word)) (s : State) : State := each (fun x s => s.setReg x.1 x.2) l s

/-- A context that runs at M from the scratchpad, with g1 = 1, g2 = 0x10_0100, g3 = 3 and g4 = 0x17_FFF8, the last 8 bytes. -/
def ctxM : Ctx := { Ctx.reset with g := [(1, 1), (2, 0x100100), (3, 3), (4, 0x17FFF8)], pc := 0x100000, st := .running }

/-- Eight bytes of core memory at offset 0x100. -/
def bytes8 : Tab Byte := [(0x100, 0x80), (0x101, 0x81), (0x102, 0x82), (0x103, 0x83), (0x104, 0xF4), (0x105, 0xF5), (0x106, 0xF6), (0x107, 0xF7)]

/-- The value of PT_RANGE that gives a partition every column. -/
def range0 : Word := fsetB (fset (fset 0 PT_RANGE_FIRST 0) PT_RANGE_LAST 21) PT_RANGE_EN true

/-- Partition 0 has all columns.  Core 0 runs that context; its scratchpad of 512 KiB lies at 0x10_0000. -/
def m0 : State :=
  { State.reset with
    cores := [(0, { Core.reset with enabled := true, ctxs := [(0, ctxM)], spad := bytes8 })]
    regs := (withRegs [(rCORE_CTL 0, 1), (rCMEM_CFG 0, 0x100004), (rPT_RANGE 0, range0)] State.reset).regs }

/-- The same at T. -/
def u0 : State := m0.modCore 0 fun k => k.setCtx 0 { ctxM with mstatus := 0 }

def readyB (s : State) (c : Nat) (rs : List Nat) : Bool :=
  decide (c < 1024) && (s.core c).modePend.isNone && mayIssue s c fresh0 && !regBusy s c rs && (fetchFault s c).isNone

theorem ready_of {s : State} {c : Nat} {rs : List Nat} (h : readyB s c rs = true) : Ready s c rs := by
  simp only [readyB, Bool.and_eq_true, decide_eq_true_eq, Option.isNone_iff_eq_none, Bool.not_eq_true'] at h
  obtain ⟨⟨⟨⟨h1, h2⟩, h3⟩, h4⟩, h5⟩ := h
  exact ⟨h1, h2, h3, h4, h5⟩

theorem test_m0_ready : Ready m0 0 [1, 2, 3, 4] := ready_of (by decide +kernel)
theorem test_u0_ready : Ready u0 0 [1, 2, 3, 4] := ready_of (by decide +kernel)

/-! The block, and scalar instructions. -/

/-- The state that a command answers. -/
def after (i : Instr) (s : State) : State := match exec i s with | .next t => t | _ => s

/-- g register 5 of core 0 after a command. -/
def g5 (i : Instr) (s : State) : Word := (after i s).g 0 5

theorem test_meets_StepRunsFront : ({ m0 with pending := [.add 0 5 1 3] } : State).pending = [.add 0 5 1 3] := rfl
theorem test_meets_IdleStepIsACycle : m0.pending = [] ∧ powered m0 = true := by decide +kernel
theorem test_meets_StepKeepsCanonical : Canonical m0 ∧ ∃ t, step m0 = .next t := ⟨⟨by decide +kernel, by decide +kernel, by decide +kernel, by decide +kernel⟩, _, rfl⟩

theorem test_meets_ScalarArithmetic : Ready m0 0 [5, 1, 3] := ready_of (by decide +kernel)
theorem test_meets_ScalarImmediate : Ready m0 0 [5, 1] ∧ (2 : Nat) ^ 15 - 1 < 2 ^ 15 ∧ 8 ∣ (m0.cur 0).pc.toNat ∧
    ¬ 8 ∣ ((m0.modCore 0 fun k => k.setCtx 0 { ctxM with pc := 0x100004 }).cur 0).pc.toNat :=
  ⟨ready_of (by decide +kernel), by decide +kernel⟩
theorem test_meets_MultiplyDivide : Ready m0 0 [5, 1, 0] := ready_of (by decide +kernel)
theorem test_meets_BranchesAndJumps : Ready m0 0 [1, 1] ∧ Ready m0 0 [5] ∧ Ready m0 0 [5, 5] :=
  ⟨ready_of (by decide +kernel), ready_of (by decide +kernel), ready_of (by decide +kernel)⟩
theorem test_meets_RegisterFormsFrame : Instr.add 0 5 1 3 ∈ registerForms 0 5 1 3 0 ∧ Instr.beq 0 1 3 0 ∈ branchForms 0 1 3 0 ∧
    (∃ t, exec (.add 0 5 1 3) m0 = .next t) ∧ ∃ t, exec (.beq 0 1 3 0) m0 = .next t :=
  ⟨by decide, by decide, ⟨_, rfl⟩, ⟨_, rfl⟩⟩

theorem test_alu : [g5 (.add 0 5 1 3) m0, g5 (.sub 0 5 1 3) m0, g5 (.andn 0 5 3 1) m0, g5 (.sra 0 5 3 1) m0, g5 (.clz 0 5 3 0) m0,
    g5 (.ctz 0 5 0 0) m0, g5 (.popc 0 5 3 0) m0, g5 (.slt 0 5 1 3) m0] = [4, -2, 2, 1, 62, 64, 2, 1] := by decide +kernel
theorem test_imm : [g5 (.addi 0 5 3 0x7FFF) m0, g5 (.sltiu 0 5 3 0x7FFF) m0, g5 (.shi 0 5 3 63) m0, g5 (.lih 0 5 0x80000) m0,
    g5 (.liw 0 5 0 0x80000000) m0] = [2, 1, 0x8000000000000000, 0xFFFFFFFF80000000, 0xFFFFFFFF80000000] := by decide +kernel
theorem test_shi_reserved : ((after (.shi 0 5 3 192) m0).cur 0).ecause = BitVec.ofNat 64 Exc.illegal.code := by decide +kernel
theorem test_divide : [g5 (.div 0 5 3 0) m0, g5 (.rem 0 5 3 0) m0, g5 (.divu 0 5 3 0) m0, g5 (.mulhu 0 5 1 3) m0, g5 (.div 0 5 3 1) m0] =
    [-1, 3, -1, 0, 3] := by decide +kernel
theorem test_branch : [((after (.beq 0 1 1 0xFFF) m0).cur 0).pc, ((after (.bne 0 1 1 4) m0).cur 0).pc, ((after (.jal 0 5 0xFFFFF) m0).cur 0).pc,
    g5 (.jal 0 5 0xFFFFF) m0, ((after (.jalr 0 2 2 7) m0).cur 0).pc] = [0xFFFFC, 0x100004, 0xFFFFC, 0x100004, 0x100104] := by decide +kernel

theorem test_meets_ScalarLoads : Ready m0 0 [5, 2] ∧ SpadReads m0 0 (dataAddr m0 0 2 0) 1 ∧ SpadReads m0 0 (dataAddr m0 0 2 0) 2 ∧
    SpadReads m0 0 (dataAddr m0 0 2 0) 4 ∧ SpadReads m0 0 (dataAddr m0 0 4 0) 8 :=
  ⟨ready_of (by decide +kernel), ⟨by constructor <;> decide +kernel, by decide +kernel⟩, ⟨by constructor <;> decide +kernel, by decide +kernel⟩,
    ⟨by constructor <;> decide +kernel, by decide +kernel⟩, ⟨by constructor <;> decide +kernel, by decide +kernel⟩⟩
theorem test_loads : [g5 (.lb 0 5 2 0) m0, g5 (.lhu 0 5 2 0) m0, g5 (.lw 0 5 2 4) m0, g5 (.ld 0 5 2 0) m0] =
    [0xFFFFFFFFFFFFFF80, 0x8180, 0xFFFFFFFFF7F6F5F4, 0xF7F6F5F483828180] := by decide +kernel
theorem test_meets_ScalarStores : Ready m0 0 [3, 4] ∧ OwnSpad m0 0 (dataAddr m0 0 4 7) 1 ∧ OwnSpad m0 0 (dataAddr m0 0 4 6) 2 ∧
    OwnSpad m0 0 (dataAddr m0 0 4 4) 4 ∧ OwnSpad m0 0 (dataAddr m0 0 4 0) 8 :=
  ⟨ready_of (by decide +kernel), by constructor <;> decide +kernel, by constructor <;> decide +kernel, by constructor <;> decide +kernel,
    by constructor <;> decide +kernel⟩
theorem test_stores : [spadByte (after (.sh 0 3 2 0) m0) 0 0x100, spadByte (after (.sh 0 3 2 0) m0) 0 0x101, spadByte (after (.sh 0 3 2 0) m0) 0 0x102] =
    [3, 0, 0x82] := by decide +kernel

/-- g2 holds an address of register space, or one with bit 48 set. -/
def uAt (a : Word) : State := u0.modCore 0 fun k => k.setCtx 0 { ctxM with mstatus := 0, g := [(2, a)] }

theorem test_meets_DataFaults : Ready m0 0 [5, 2] ∧ dataAddr m0 0 2 1 % 2 ≠ 0 ∧ m0.flag (rCORE_MODE 0) CORE_MODE_ROT = false ∧
    Ready (uAt 0xF00000000000) 0 [5, 2] ∧ dataAddr (uAt 0xF00000000000) 0 2 0 % 8 = 0 ∧ dataAddr (uAt 0xF00000000000) 0 2 0 / 2 ^ 44 = 15 ∧
    ((uAt 0xF00000000000).cur 0).isM = false ∧ 2 ^ 48 ≤ dataAddr (uAt 0x1000000000000) 0 2 0 ∧ statusBit ((uAt 0).cur 0) 4 = false :=
  ⟨ready_of (by decide +kernel), by decide +kernel, by decide +kernel, ready_of (by decide +kernel), by decide +kernel⟩
theorem test_data_faults : [((after (.lh 0 5 2 1) m0).cur 0).ecause, ((after (.lh 0 5 2 1) m0).cur 0).eval,
    ((after (.sd 0 5 2 0) (uAt 0xF00000000000)).cur 0).ecause, ((after (.ld 0 5 2 0) (uAt 0x1000000000000)).cur 0).ecause,
    ((after (.sd 0 5 2 0) (uAt 0x1000000000000)).cur 0).ecause] =
    [BitVec.ofNat 64 Exc.misalign.code, 0x100101, BitVec.ofNat 64 Exc.access.code, BitVec.ofNat 64 Exc.loadPage.code,
      BitVec.ofNat 64 Exc.storePage.code] := by decide +kernel

/-- Page 8 of partition 0 maps frame 5, which firmware cleared, and the core's translation cache holds it; the memory key is loaded; g2 holds an address of the page. -/
def mem0 : State :=
  { (withRegs [(rCK_KEYS, 0x101)] m0) with
    ledger := [(5, { LEnt.free with v := true, w := true, vpn := 8 })], anchors := [(8, 2 ^ 31 + 5)], zeroed := [5]
    cores := [(0, { Core.reset with enabled := true, tc := [8], spad := bytes8, ctxs := [(0, { ctxM with g := [(1, 1), (2, 0x1000040), (3, 3), (5, 7)] })] })] }

theorem test_meets_AtomicsGo : Ready mem0 0 [5, 2, 3] ∧ (mem0.g 0 2).toNat % 8 = 0 ∧ isRegSpace (mem0.g 0 2).toNat = false ∧
    inSpad mem0 0 (mem0.g 0 2).toNat = false ∧ inCw mem0 0 (mem0.g 0 2).toNat = false ∧
    accFault mem0 0 (mem0.cur 0).isM .store (mem0.g 0 2).toNat 8 = none ∧ corePlace mem0 0 .store (mem0.g 0 2).toNat = .mem (5 * 2 ^ 21 + 0x40) ∧
    (mem0.core 0).freeTx ≠ none ∧ (mem0.g 0 3).toNat % 4 ≠ 0 ∧ (m0.g 0 2).toNat % 8 = 0 ∧ inSpad m0 0 (m0.g 0 2).toNat = true :=
  ⟨ready_of (by decide +kernel), by decide +kernel⟩
theorem test_atomic : ((after (.atomicAdd 0 true 0 5 2 3) mem0).net.map fun p => [p.op, p.addr, p.sub, p.src, (p.payload.extractLsb' 0 64).toNat,
    (p.payload.extractLsb' 64 64).toNat]) = [[opATOM, 5 * 2 ^ 21 + 0x40, 3, 0, 3, 7]] ∧
    [((after (.atomicCas 0 true 0 5 3 1) mem0).cur 0).ecause, ((after (.atomicCas 0 true 0 5 2 1) m0).cur 0).ecause] =
      [BitVec.ofNat 64 Exc.misalign.code, BitVec.ofNat 64 Exc.access.code] := by decide +kernel

theorem test_meets_IllegalAndPrivileged : Ready u0 0 [5, 2, 3] ∧ Ready u0 0 [] ∧ (u0.cur 0).isM = false ∧ statusBit (u0.cur 0) 4 = false :=
  ⟨ready_of (by decide +kernel), ready_of (by decide +kernel), by decide +kernel⟩
theorem test_privileged : [((after (.mret 0 0 0 0) u0).cur 0).ecause, ((after (.tswitch 0 0 2 0) u0).cur 0).ecause, ((after (.ecall 0 1 0 0) u0).cur 0).ecause] =
    [BitVec.ofNat 64 Exc.priv.code, BitVec.ofNat 64 Exc.priv.code, BitVec.ofNat 64 Exc.illegal.code] := by decide +kernel

/-- Inside a handler. -/
def inexc0 : State := (withRegs [(rCORE_MODE 0, 0)] m0).modCore 0 fun k => k.setCtx 0 { ctxM with mstatus := 0x11, epc := 0x123, ecause := 9 }

theorem test_meets_CallsAndReturns : Ready m0 0 [] ∧ statusBit (m0.cur 0) 4 = false ∧ (m0.cur 0).isM = true ∧ Ready inexc0 0 [] ∧
    statusBit (inexc0.cur 0) 4 = true ∧ inexc0.maint 0 = false :=
  ⟨ready_of (by decide +kernel), by decide +kernel, by decide +kernel, ready_of (by decide +kernel), by decide +kernel⟩
theorem test_calls : ((after (.ecall 0 0 0 0) m0).cur 0).ecause = BitVec.ofNat 64 Exc.ecall.code ∧ ((after (.ecall 0 0 0 0) m0).cur 0).epc = 0x100000 ∧
    ((after (.brk 0 0 0 0) inexc0).cur 0).st = .halted ∧ ((after (.brk 0 0 0 0) inexc0).cur 0).ecause = 9 ∧
    (after (.brk 0 0 0 0) inexc0).flag (rHG_EVENT 0) HG_EVENT_HALT = true ∧ ((after (.mret 0 0 0 0) inexc0).cur 0).pc = 0x120 := by decide +kernel

/-- An interrupt of source 2 pends and is enabled. -/
def int0 : State := withRegs [(rIPEND 0, 0x84), (rIENABLE 0, 0x04), (rMTVEC 0, 0x100040)] u0

theorem test_meets_WaitAndFence : Ready m0 0 [] ∧ ((fetched 0 m0).reg (rIPEND 0) &&& m0.reg (rIENABLE 0)) &&& 0xFF#64 = 0 ∧
    Ready int0 0 [] ∧ ((fetched 0 int0).reg (rIPEND 0) &&& int0.reg (rIENABLE 0)) &&& 0xFF#64 ≠ 0 ∧ (m0.core 0).errPend = none ∧
    storesOut m0 0 = false ∧ storesOut (m0.modCore 0 fun k => { k with stores := [(0, 0, 0)] }) 0 = true :=
  ⟨ready_of (by decide +kernel), by decide +kernel, ready_of (by decide +kernel), by decide +kernel⟩
theorem test_wait : ((after (.wfi 0 0 0 0) m0).cur 0).wait = .wfi 0 ∧ ((after (.wfi 0 0 0 0) int0).cur 0).pc = 0x100004 ∧
    ((after (.fence 0 0 0 0) (m0.modCore 0 fun k => { k with stores := [(0, 0, 0)] })).cur 0).pc = 0x100000 := by decide +kernel

/-- Context 1 is READY at 0x10_0800, context 2 HALTED; g1 = 1, g3 = 3, g5 = 2. -/
def three0 : State :=
  { (withRegs [(rCORE_MODE 0, 0)] m0) with cores := [(0, { Core.reset with
      enabled := true, spad := bytes8
      ctxs := [(0, { ctxM with g := [(1, 1), (2, 4), (3, 3), (5, 2)] }), (1, { Ctx.reset with pc := 0x100800, st := .ready }), (2, { Ctx.reset with st := .halted })] })] }

theorem test_meets_TaskSwitch : Ready three0 0 [2] ∧ (three0.cur 0).isM = true ∧ (three0.g 0 2 &&& 3).toNat = (three0.core 0).run ∧
    ((three0.core 0).ctx (three0.g 0 1 &&& 3).toNat).st = .ready ∧ ((three0.core 0).ctx (three0.g 0 3 &&& 3).toNat).st = .empty ∧
    ((three0.core 0).ctx (three0.g 0 5 &&& 3).toNat).st = .halted :=
  ⟨ready_of (by decide +kernel), by decide +kernel⟩
theorem test_switch : ((after (.tswitch 0 0 1 0) three0).core 0).run = 1 ∧ ((after (.tswitch 0 0 1 0) three0).cur 0).pc = 0x100800 ∧
    (((after (.tswitch 0 0 1 0) three0).core 0).ctx 0).pc = 0x100004 ∧ (after (.tswitch 0 0 1 0) three0).fld (rCORE_MODE 0) CORE_MODE_FG_CTX = 1 ∧
    ((after (.tswitch 0 0 5 0) three0).cur 0).eval = 2 := by decide +kernel

/-- The save area of context 1 lies at 0x10_0200 and is filled with zeros, but for g7 = 5 and the PC 0x44. -/
def save0 : State :=
  (withRegs [(rCTX_SAVE 0 1, 0x100200)] three0).modCore 0 fun k =>
    { k with spad := ((List.range 0x240).map fun i => (0x200 + i, if i = 0x138 then 5 else if i = 0x200 then 0x44 else 0)) }

theorem test_meets_ContextSaveAndLoad : Ready save0 0 [1] ∧ (save0.cur 0).isM = true ∧ (save0.g 0 1 &&& 3).toNat ≠ (save0.core 0).owner ∧
    (save0.core 0).errPend = none ∧ SpadArea save0 0 (save0.reg (rCTX_SAVE 0 1)).toNat 0x240 ∧ (save0.reg (rCTX_SAVE 0 1)).toNat % 8 = 0 ∧
    save0.flag (rCM_FLIP 0) SC_FLIP_ARM = false ∧ (spadNat save0 0 (save0.reg (rCTX_SAVE 0 1)).toNat 8).testBit 9 = false ∧
    (save0.g 0 2 &&& 3).toNat = (save0.core 0).run :=
  ⟨ready_of (by decide +kernel), by decide +kernel, by decide +kernel, by decide +kernel, by constructor <;> decide +kernel, by decide +kernel⟩
theorem test_load : ((((after (.ctxload 0 0 1 0) save0).core 0).ctx 1).gr 7, (((after (.ctxload 0 0 1 0) save0).core 0).ctx 1).pc) = (5, 0x44) := by
  decide +kernel
theorem test_meets_CsrAccess : Ready m0 0 [5, 1] ∧ (m0.cur 0).isM = true ∧ Ready u0 0 [5, 1] ∧ (u0.cur 0).isM = false :=
  ⟨ready_of (by decide +kernel), by decide +kernel, ready_of (by decide +kernel), by decide +kernel⟩
theorem test_csr : ((after (.csrrw 0 5 3 0xB) m0).cur 0).escratch = 3 ∧ (after (.csrrs 0 5 3 0xD) int0).reg (rIENABLE 0) = 4 ∧
    g5 (.csrrs 0 5 0 0xD) (withRegs [(rIENABLE 0, 0x44)] m0) = 0x44 ∧ ((after (.csrrw 0 5 3 0xB) u0).cur 0).ecause = BitVec.ofNat 64 Exc.priv.code := by
  decide +kernel

theorem test_meets_InterruptEntry : Ready int0 0 [] ∧ (int0.reg (rIPEND 0) &&& int0.reg (rIENABLE 0)).getLsbD 2 = true ∧
    (∀ j, j < 2 → (int0.reg (rIPEND 0) &&& int0.reg (rIENABLE 0)).getLsbD j = false) ∧ (int0.cur 0).isM = false ∧
    (withRegs [(rCYCLE_CMP 0, 5)] { m0 with coreTick := 5 }).reg (rCYCLE_CMP 0) ≠ 0 ∧
    ((withRegs [(rCYCLE_CMP 0, 5)] { m0 with coreTick := 5 }).reg (rCYCLE_CMP 0)).toNat ≤ (withRegs [(rCYCLE_CMP 0, 5)] { m0 with coreTick := 5 }).cycle 0 ∧
    m0.reg (rCYCLE_CMP 0) = 0 :=
  ⟨ready_of (by decide +kernel), by decide +kernel⟩
theorem test_interrupt : ((after (.interruptTaken 0) int0).cur 0).ecause = 0x8000000000000002 ∧ ((after (.interruptTaken 0) int0).cur 0).pc = 0x100040 ∧
    ((after (.interruptTaken 0) int0).cur 0).isM = true ∧ ((after (.interruptTaken 0) int0).cur 0).epc = 0x100000 := by decide +kernel

/-- Maintenance mode, SW_THRESH = 4: context 0 has waited in WFI since cycle 0. -/
def maint0 : State :=
  { (withRegs [(rCORE_MODE 0, 0x40001)] three0).modCore 0 fun k => k.setCtx 0 { k.ctx 0 with wait := .wfi 0 } with coreTick := 4 }

theorem test_meets_MaintenanceSwitch : maint0.maint 0 = true ∧ maint0.flag (rCORE_CTL 0) CORE_CTL_RUN = true ∧ (maint0.core 0).sw = none ∧
    (maint0.core 0).move = none ∧ (maint0.core 0).nextCtx (maint0.core 0).run = some 1 ∧ intOpen maint0 0 = false ∧ (maint0.cur 0).wait = .wfi 0 ∧
    0 + maint0.fld (rCORE_MODE 0) CORE_MODE_SW_THRESH ≤ maint0.cycle 0 := by decide +kernel
theorem test_maint_switch : ((after (.maintSwitch 0) maint0).core 0).run = 1 ∧ (((after (.maintSwitch 0) maint0).core 0).ctx 0).st = .waiting := by
  decide +kernel

/-- An engine-state move to context 1 for a TZERO; context 0's area lies at the start of the scratchpad. -/
def move0 : State :=
  (withRegs [(rCTX_SAVE 0 0, 0x100000), (rCTX_SAVE 0 1, 0x140000)] three0).modCore 0 fun k =>
    { k with run := 1, move := some (1, .tzero 0 0 0), spad := (List.range 8).map fun i => (0x40000 + i, 0) }

theorem spadBad_clean {s : State} {c off n : Nat} (h : (s.core c).flips = []) : spadBad s c off n = none := by
  have e : eccUnc (tget 0 ([] : Tab Nat) 0) = false := by decide +kernel
  simp only [spadBad, h, Option.map_eq_none_iff, List.find?_eq_none]
  intro x _
  simpa [tget, tget?] using e

theorem test_meets_EngineStateMove : (move0.core 0).move = some (1, .tzero 0 0 0) ∧ engIdle (move0.core 0) = true ∧ (move0.core 0).owner ≠ 1 ∧
    (move0.core 0).owner < 4 ∧ move0.flag (rCM_FLIP 0) SC_FLIP_ARM = false ∧ SpadArea move0 0 (move0.reg (rCTX_SAVE 0 (move0.core 0).owner)).toNat 0x32400 ∧
    SpadArea move0 0 (move0.reg (rCTX_SAVE 0 1)).toNat 8 ∧ (move0.reg (rCTX_SAVE 0 (move0.core 0).owner)).toNat % 128 = 0 ∧
    (move0.reg (rCTX_SAVE 0 1)).toNat % 128 = 0 ∧
    (move0.reg (rCTX_SAVE 0 (move0.core 0).owner)).toNat + 0x32400 ≤ (move0.reg (rCTX_SAVE 0 1)).toNat ∧
    (spadNat move0 0 (move0.reg (rCTX_SAVE 0 1)).toNat 8).testBit 9 = false :=
  ⟨by decide +kernel, by decide +kernel, by decide +kernel, by decide +kernel, by decide +kernel,
    ⟨by decide +kernel, by decide +kernel, by decide +kernel, by decide +kernel, spadBad_clean (by decide +kernel)⟩,
    by constructor <;> decide +kernel, by decide +kernel⟩

/-! Core registers, tiles and the array. -/

theorem eng_of {s : State} {c : Nat} {rs : List Nat} (h : readyB s c rs = true) (h1 : (s.core c).run = (s.core c).owner)
    (h2 : (s.core c).errPend = none) : EngReady s c rs := ⟨ready_of h, h1, h2⟩

/-- Partition 0 has all columns; the core is held. -/
def held0 : State := withRegs [(rCORE_CTL 0, 0), (rPT_RANGE 0, range0)] three0

theorem test_meets_CoreRegisterWrites : MayWrite held0 (.hg 0) 0 0x070 ∧ MayWrite held0 (.hg 0) 0 0x0C0 ∧ inPart held0 0 = true ∧
    held0.flag (rCORE_CTL 0) CORE_CTL_RUN = false ∧ MayWrite held0 .comp 0 0x018 ∧ (withRegs [(rCORE_MODE 0, 1)] held0).maint 0 = true ∧
    fbit (0x40 : Word) CORE_MODE_MAINT = false ∧ ((held0.core 0).ctx (fget (0x40 : Word) CORE_MODE_FG_CTX)).st = .ready ∧
    ((held0.core 0).ctx (fget (0xC0 : Word) CORE_MODE_FG_CTX)).st = .empty ∧ MayWrite held0 (.core 0) 0 0x020 ∧
    ((held0.core 0).ctx 1).st ≠ .running ∧ MayWrite held0 (.core 0) 0 0x098 := by
  unfold MayWrite; decide +kernel
theorem test_core_registers : (after (.isoftWrite (.hg 0) 0 1) held0).reg (rIPEND 0) = 0x80 ∧
    ((after (.coreRunWrite (.hg 0) 0 1) (withRegs [(rBOOT_VEC 0, 0x100040)] held0)).cur 0).pc = 0x100040 ∧
    (((after (.ctxStateWrite (.core 0) 0 0x10) held0).core 0).ctx 1).st = .ready ∧ (((after (.ctxStateWrite (.core 0) 0 0x00) held0).core 0).ctx 1).st = .empty ∧
    (after (.coreModeWrite .comp 0 0x40) (withRegs [(rCORE_MODE 0, 1)] held0)).fld (rCORE_MODE 0) CORE_MODE_FG_CTX = 1 ∧
    (after (.coreModeWrite .comp 0 0xC0) (withRegs [(rCORE_MODE 0, 1)] held0)).rsp = .err := by decide +kernel

/-- The configuration of a tile of `r` rows of 16 bytes in format 1. -/
def tc (r : Nat) : Word := fset (fset (fsetB 0 TCFG_CONF true) TCFG_FMT 1) TCFG_ROWS (r - 1)

/-- Tile 0 holds one row of eight ones, tile 1 eight rows of ones, tile 2 is EMPTY with one row; tile 7 is not configured.  g2 = 0x10_0100, g4 = 16,
g5 a legal configuration, g6 = 4. -/
def tile0 : State :=
  { m0 with cores := [(0, { Core.reset with
      enabled := true, spad := ((List.range 32).map fun i => (0x100 + i, BitVec.ofNat 8 i))
      ctxs := [(0, { ctxM with g := [(1, 1), (2, 0x100100), (3, 3), (4, 16), (5, tc 2), (6, 4)] })]
      eng := { Eng.clear with
        tcfg := [(0, tc 1), (1, tc 8), (2, tc 1)], full := [(0, true), (1, true)]
        rows := (0, 0x3F803F803F803F803F803F803F803F80) :: (List.range 8).map fun r => (64 + r, 0x3F803F803F803F803F803F803F803F80) } })] }

/-- As `tile0`, its context waiting for row 0 of tile 2. -/
def row0 : State := tile0.modCore 0 fun k => k.setCtx 0 { k.ctx 0 with wait := .tload 2 [(0, 0x100100)] [] none }

theorem test_meets_TileLoad : EngReady tile0 0 [2, 4] ∧ TileOpen tile0 0 2 ∧ (tile0.cur 0).tstart = 0 ∧
    (∀ r, r < (tile0.core 0).rowsOf 2 → rowFault tile0 0 .load (rowVa (tile0.g 0 2) (tile0.g 0 4) r) ((tile0.core 0).rbOf 2) = none) ∧
    (row0.cur 0).wait = .tload 2 [(0, 0x100100)] [] none ∧ SpadArea row0 0 0x100100 ((row0.core 0).rbOf 2) :=
  ⟨eng_of (by decide +kernel) (by decide +kernel) (by decide +kernel), by constructor <;> decide +kernel, by decide +kernel, by decide +kernel,
    by decide +kernel, by constructor <;> decide +kernel⟩
theorem test_tload : ((after (.tload 0 2 2 4 0) tile0).cur 0).wait = .tload 2 [(0, 0x100100)] [] none ∧
    ((after (.tloadRowReturn 0 0 false) row0).core 0).row 2 0 = 0x0F0E0D0C0B0A09080706050403020100 ∧
    ((after (.tloadRowReturn 0 0 false) row0).core 0).full 2 = true ∧ ((after (.tloadRowReturn 0 0 false) row0).cur 0).pc = 0x100004 := by decide +kernel

theorem test_meets_TileStore : EngReady tile0 0 [2, 4] ∧ TileOpen tile0 0 1 ∧ (tile0.core 0).full 1 = true ∧ (tile0.cur 0).tstart = 0 ∧
    (∀ r, r < (tile0.core 0).rowsOf 1 → SpadArea tile0 0 (rowVa (tile0.g 0 2) (tile0.g 0 4) r) ((tile0.core 0).rbOf 1) ∧
      rowVa (tile0.g 0 2) (tile0.g 0 4) r % 16 = 0) ∧
    (∀ i, i < (tile0.core 0).rowsOf 1 → ∀ j, j < (tile0.core 0).rowsOf 1 → i ≠ j →
      rowVa (tile0.g 0 2) (tile0.g 0 4) i + (tile0.core 0).rbOf 1 ≤ rowVa (tile0.g 0 2) (tile0.g 0 4) j ∨
      rowVa (tile0.g 0 2) (tile0.g 0 4) j + (tile0.core 0).rbOf 1 ≤ rowVa (tile0.g 0 2) (tile0.g 0 4) i) := by
  refine ⟨eng_of (by decide +kernel) (by decide +kernel) (by decide +kernel), by constructor <;> decide +kernel, by decide +kernel, by decide +kernel,
    fun r h => ⟨⟨?_, ?_, ?_, ?_, spadBad_clean (by decide +kernel)⟩, ?_⟩, by decide +kernel⟩ <;> revert r <;> decide +kernel
theorem test_tstore : spadNat (after (.tstore 0 1 2 4 0) tile0) 0 0x100170 8 = 0x3F803F803F803F80 ∧
    (after (.tstore 0 1 2 4 0) tile0).reg (rTILE_ROWS_OUT 0) = 8 := by decide +kernel

/-- A TREL of tiles 0 and 2 pends; a TCONF of tile 2 is at its barrier. -/
def rel0 : State := tile0.modCore 0 fun k => { k with trel := [5] }
def bar0 : State := tile0.modCore 0 fun k => { k with tbar := some (2, tc 4, none) }

theorem test_meets_TileState : EngReady tile0 0 [] ∧ TileOpen tile0 0 1 ∧ (tile0.core 0).tbar = none ∧ (rel0.core 0).trel = [5] ∧
    (∀ u, u < 8 → (5 : Nat).testBit u = true → tileBusy (rel0.core 0) u = false) ∧ EngReady tile0 0 [5] ∧ tcfgLegal (tile0.g 0 5) = true ∧
    (bar0.core 0).tbar = some (2, tc 4, none) ∧ (∀ u, u < 8 → tileBusy (bar0.core 0) u = false) ∧ (bar0.core 0).arr = [] ∧ (bar0.core 0).trel = [] ∧
    MayWrite tile0 (.hg 0) 0 (0x100 + 8 * 7) ∧ tcfgLegal (tc 4) = true ∧ (withRegs [(rCORE_CTL 0, 0)] tile0).flag (rCORE_CTL 0) CORE_CTL_RUN = false :=
  ⟨eng_of (by decide +kernel) (by decide +kernel) (by decide +kernel), by constructor <;> decide +kernel, by decide +kernel, by decide +kernel,
    by decide +kernel, eng_of (by decide +kernel) (by decide +kernel) (by decide +kernel), by decide +kernel, by decide +kernel, by decide +kernel,
    by decide +kernel, by decide +kernel, by unfold MayWrite; decide +kernel, by decide +kernel⟩
theorem test_tile_state : ((after (.tzero 0 1 0) tile0).core 0).row 1 7 = 0 ∧ ((after (.trelApply 0) rel0).core 0).full 0 = false ∧
    ((after (.trelApply 0) rel0).core 0).full 1 = true ∧ ((after (.tcfgBarrierApply 0) bar0).core 0).rowsOf 2 = 4 ∧
    ((after (.tconf 0 7 5 0) tile0).core 0).tbar = some (7, tc 2, none) := by decide +kernel

theorem test_meets_TileFaults : EngReady tile0 0 [2, 4] ∧ (tile0.core 0).conf 7 = false ∧ TileOpen tile0 0 2 ∧ (tile0.core 0).full 2 = false ∧
    tcfgLegal (tile0.g 0 2) = false ∧ statusBit (tile0.cur 0) 4 = false :=
  ⟨eng_of (by decide +kernel) (by decide +kernel) (by decide +kernel), by decide +kernel, by constructor <;> decide +kernel, by decide +kernel⟩
theorem test_tile_faults : ((after (.tstore 0 7 2 4 0) tile0).cur 0).eval = 0xFFFFFFFFFFFFFFF7 ∧ ((after (.tstore 0 2 2 4 0) tile0).cur 0).eval = 2 ∧
    ((after (.tload 0 2 2 4 1) tile0).cur 0).ecause = BitVec.ofNat 64 Exc.illegal.code := by decide +kernel

/-- An MCFG at its barrier. -/
def mbar0 : State := tile0.modCore 0 fun k => { k with mbar := some (2, none) }

theorem test_meets_ArrayIssue : EngReady tile0 0 [] ∧ (tile0.cur 0).pc.toNat % 8 = 0 ∧ (tile0.core 0).eng.mcfg = 0 ∧ (tile0.core 0).mbar = none ∧
    tileHeld (tile0.core 0) [0, 1] = false ∧ (tile0.core 0).conf 0 = true ∧ (tile0.core 0).conf 1 = true ∧ (tile0.core 0).full 0 = true ∧
    (tile0.core 0).full 1 = true ∧ writerBusy (tile0.core 0) 0 = false ∧ writerBusy (tile0.core 0) 1 = false ∧ arrPlaces (tile0.core 0) < 4 ∧
    (tile0.core 0).elemsOf 0 = (tile0.core 0).rowsOf 1 ∧ (tile0.core 0).elemsOf 1 ≤ 128 ∧
    pairOk (fget ((tile0.core 0).tcf 0) TCFG_FMT) (fget ((tile0.core 0).tcf 1) TCFG_FMT) = true ∧ fget ((tile0.core 0).tcf 0) TCFG_TAG = 0 ∧
    fmtOk 1 = true ∧ (tile0.core 0).conf 2 = true ∧ 1 * 64 + (tile0.core 0).elemsOf 2 ≤ 128 ∧ EngReady tile0 0 [3] ∧ (tile0.g 0 3).toNat ≤ 3 ∧
    EngReady tile0 0 [6] ∧ 3 < (tile0.g 0 6).toNat ∧ (mbar0.core 0).mbar = some (2, none) ∧ (mbar0.core 0).arr = [] := by
  refine ⟨eng_of ?_ ?_ ?_, ?_, ?_, ?_, ?_, ?_, ?_, ?_, ?_, ?_, ?_, ?_, ?_, ?_, ?_, ?_, ?_, ?_, ?_, eng_of ?_ ?_ ?_, ?_, eng_of ?_ ?_ ?_, ?_⟩ <;> decide +kernel
theorem test_array_issue : (((after (.mma 0 0 0 1 0 0 0 0 0 1 0 0 0 0 0 0) tile0).core 0).arr.map fun e => [e.m, e.n, e.k]) = [[1, 8, 8]] ∧
    ((after (.mcfgBarrierApply 0) mbar0).core 0).eng.mcfg = 2 ∧ ((after (.mcfg 0 0 6 0 0) tile0).cur 0).ecause = BitVec.ofNat 64 Exc.illegal.code := by
  decide +kernel

/-- The last of eight K steps of an MMA of tiles 0 and 1; an MMA that has performed them; a drain to tile 2 before and after its reading; a
tagged drain that has written. -/
def mma7 : ArrEnt := { ent0 with isMma := true, a := .tile 0 false, b := .tile 1 false, m := 1, n := 8, k := 8, fmtA := 1, fmtB := 1, scales := some (0, [0]), ns := [8], kDone := 7 }
def arr0 (e : ArrEnt) : State := tile0.modCore 0 fun k => { k with arr := [e] }
def drain0 : ArrEnt := { ent0 with td := 2, fmt := 1, m := 1, n := 8 }
def drain1 : ArrEnt := { drain0 with readDone := true, out := [(0, [1, 2])] }

theorem test_meets_MultiplyAccumulate : ((arr0 mma7).core 0).arr = [mma7] ∧ mma7.isMma = true ∧ mma7.a = .tile 0 false ∧ mma7.b = .tile 1 false ∧ mma7.fold = 1 ∧
    mma7.k = mma7.kDone + 1 ∧ mma7.scales = some (0, [0]) ∧ mma7.mxA = none ∧ mma7.mxB = none ∧ mma7.ns = [mma7.n] ∧ arrStopped (arr0 mma7) 0 = false ∧
    ({ mma7 with kDone := 8 } : ArrEnt).kDone = mma7.k := by decide +kernel
theorem test_mac : el32 (tget 0 ((after (.feederSlotRelease 0) (arr0 mma7)).core 0).eng.acc 0) 7 = 0x3F800000 ∧
    ((after (.mmaComplete 0) (arr0 { mma7 with kDone := 8 })).core 0).arr = [] := by decide +kernel

def drainS : ArrEnt := { drain1 with dstSpad := true, out := [(0, [1, 2]), (2, [3])] }
def arr2 : State := tile0.modCore 0 fun k => { k with arr := [{ mma7 with acc := 1 }, drain0] }

theorem test_meets_Drain : drain0.isMma = false ∧ drain0.readDone = false ∧ drain0.dstSpad = false ∧ drain0.tag = 0 ∧ arrStopped (arr0 drain0) 0 = false ∧
    drain1.readDone = true ∧ drain1.written = false ∧ drain1.td < 8 ∧ (∀ x ∈ drain1.out, x.1 < 64) ∧ (drain1.out.map Prod.fst).Nodup ∧ drain1.out ≠ [] ∧
    fmtOk drain0.fmt = true ∧ 8 ∣ drain0.n * fmtWidth drain0.fmt ∧ effTag (arr0 drain0) ((arr0 drain0).part 0) drain0.tag = 0 ∧
    (arr2.core 0).arr = [{ mma7 with acc := 1 }] ++ drain0 :: [] ∧ ({ mma7 with acc := 1 } : ArrEnt).acc ≠ drain0.acc ∧ mma7.acc = drain0.acc ∧
    arrStopped arr2 0 = false ∧ drain1.tag = 0 ∧ drain1.dstSpad = false ∧ (∀ y ∈ ((arr0 drain1).core 0).stores, y.2.2 ≠ drain1.td + 1) ∧
    drainS.tag = 0 ∧ drainS.out.Pairwise (fun y z => y.1 + y.2.length ≤ z.1 ∨ z.1 + z.2.length ≤ y.1) ∧
    ({ drainS with tag := 3 } : ArrEnt).tag ≠ 0 ∧ ((arr0 { drainS with tag := 3 }).core 0).freeTx = some 0 ∧
    (∃ m ∈ ({ (arr0 drain1).core 0 with merges := [(4, 0)] } : Core).merges, some m.1 = some 4) ∧
    (∀ m ∈ ((arr0 { drain1 with written := true }).core 0).merges, some m.1 ≠ some 4) := by decide +kernel
theorem test_drain : (((after (.mdrainReadEnd 0) (arr0 drain0)).core 0).arr.map fun e => e.out.map Prod.fst) = [[0]] ∧
    ((after (.mdrainWritten 0) (arr0 drain1)).core 0).row 2 0 = 0x0201 ∧ ((after (.mdrainComplete 0) (arr0 { drain1 with written := true })).core 0).arr = [] := by
  decide +kernel

/-! The vector engine. -/

/-- A vector of 64 equal words. -/
def splat (x : Nat) : Row := BitVec.ofNat 2048 ((List.range 64).foldl (fun a j => a + x <<< (32 * j)) 0)

/-- v1 holds 64 times FP32 1.0, v2 64 times 2.0, v3 a NaN; p1 has its four low bits; g6 = 0x4040_0000 (3.0), g7 = 64, g8 a legal VCTL value. -/
def vec0 : State :=
  { m0 with cores := [(0, { Core.reset with
      enabled := true, spad := ((List.range 32).map fun i => (0x100 + i, BitVec.ofNat 8 i))
      ctxs := [(0, { ctxM with g := [(1, 1), (2, 0x100100), (3, 3), (4, 0x100108), (6, 0x40400000), (7, 64), (8, fset 0 VCTL_MXFMT 6)] })]
      eng := { Eng.clear with v := [(1, splat 0x3F800000), (2, splat 0x40000000), (3, splat 0x7FC00000)], p := [(1, 0xF)] } })] }

/-- Element 0, 4 or 63 of a vector register of core 0 after a command. -/
def vAfter (i : Instr) (v j : Nat) : Nat := vEl 0 (((after i vec0).core 0).eng.vr v) j

theorem test_vec0 : EngReady vec0 0 [] ∧ EngReady vec0 0 [1, 2, 3, 4, 5, 6, 7, 8] :=
  ⟨eng_of (by decide +kernel) (by decide +kernel) (by decide +kernel), eng_of (by decide +kernel) (by decide +kernel) (by decide +kernel)⟩

theorem test_meets_VectorArithmetic : EngReady vec0 0 [] ∧ EngReady vec0 0 [6] ∧ (5 < 32 ∧ 1 < 32 ∧ 2 < 32) ∧ statusBit (vec0.cur 0) 4 = false :=
  ⟨test_vec0.1, eng_of (by decide +kernel) (by decide +kernel) (by decide +kernel), by decide +kernel⟩
theorem test_vector : [vAfter (.varithAdd 0 5 1 2 0 0 0) 5 63, vAfter (.varithSub 0 5 1 2 0 0 0) 5 0, vAfter (.varithDiv 0 5 1 2 0 0 0) 5 0,
    vAfter (.varithMin 0 5 1 3 0 0 0) 5 0, vAfter (.vfmaSub 0 2 1 2 0 0 0) 2 0, vAfter (.vscalAdd 0 5 1 6 0 0 0) 5 0, vAfter (.cvtfi 0 5 2 0 0 0 0) 5 9] =
    [0x40400000, 0xBF800000, 0x3F000000, 0x7FC00000, 0, 0x40800000, 2] := by decide +kernel
theorem test_vector_masked : [vAfter (.varithMul 0 1 1 2 1 0 0) 1 3, vAfter (.varithMul 0 1 1 2 1 0 0) 1 4, vAfter (.varithMul 0 1 1 2 1 1 0) 1 4,
    vAfter (.varithSel 0 5 1 2 1 0 0) 5 4] = [0x40000000, 0x3F800000, 0, 0x40000000] ∧
    ((after (.varithAdd 0 5 1 3 0 0 0) vec0).core 0).eng.nfOf 5 = true ∧
    ((after (.varithAdd 0 5 1 2 0 0 3) vec0).cur 0).ecause = BitVec.ofNat 64 Exc.illegal.code := by decide +kernel

theorem test_meets_VectorInteger : EngReady vec0 0 [] ∧ (5 : Nat) < 32 ∧ (2 : Nat) ≠ 3 := ⟨test_vec0.1, by decide, by decide⟩
theorem test_vector_integer : [vAfter (.vintAdd 0 5 1 2 0 0 3) 5 0, vAfter (.vintSra 0 5 3 1 0 0 3) 5 0, vAfter (.vintMin 0 5 1 2 0 0 3) 5 0] =
    [0x7F800000, 0x7FC00000, 0x3F800000] := by decide +kernel

theorem test_meets_VectorPredicates : EngReady vec0 0 [] ∧ (2 < 8 ∧ 1 < 8 ∧ 0 < 8) ∧ EngReady vec0 0 [1] ∧ EngReady vec0 0 [2] ∧ (8 : Nat) ≤ 8 :=
  ⟨test_vec0.1, by decide, eng_of (by decide +kernel) (by decide +kernel) (by decide +kernel),
    eng_of (by decide +kernel) (by decide +kernel) (by decide +kernel), by decide⟩
theorem test_predicates : [((after (.vcmpLt 0 2 1 2 1 0 0) vec0).core 0).eng.pr 2, ((after (.vcmpNe 0 2 3 1 0 0 0) vec0).core 0).eng.pr 2,
    ((after (.vcmpGe 0 2 3 1 0 0 0) vec0).core 0).eng.pr 2, ((after (.vpredAndn 0 2 0 1 0 0 0) vec0).core 0).eng.pr 2,
    ((after (.fromg 0 2 7 0 0 0 0) vec0).core 0).eng.pr 2, (after (.tog 0 5 1 0 0 0 0) vec0).g 0 5] =
    [0xF, 0xFFFFFFFFFFFFFFFF, 0, 0xFFFFFFFFFFFFFFF0, 0x40, 0xF] := by decide +kernel

theorem test_meets_VectorPermutesAndConversions : EngReady vec0 0 [1] ∧ (vec0.g 0 1).toNat < vEls 0 ∧ EngReady vec0 0 [5, 1] ∧ EngReady vec0 0 [6, 1] ∧
    EngReady vec0 0 [7] ∧ vEls 0 ≤ (vec0.g 0 7).toNat ∧ EngReady vec0 0 [] ∧ vcvtLegal 1 1 0 0 = true ∧
    effTag vec0 (vec0.part 0) (fget (vec0.core 0).eng.vctl VCTL_TAG) = 0 ∧ (vec0.core 0).freeTx ≠ none :=
  ⟨eng_of (by decide +kernel) (by decide +kernel) (by decide +kernel), by decide +kernel,
    eng_of (by decide +kernel) (by decide +kernel) (by decide +kernel), eng_of (by decide +kernel) (by decide +kernel) (by decide +kernel),
    eng_of (by decide +kernel) (by decide +kernel) (by decide +kernel), by decide +kernel, test_vec0.1, by decide +kernel⟩
theorem test_permutes : [vAfter (.bcast 0 5 2 1 0 0 0) 5 63, vAfter (.vins 0 1 6 3 0 0 0) 1 3, vAfter (.vins 0 1 6 3 0 0 0) 1 2,
    vAfter (.vcvtNarrow 0 5 1 1 1 0 0 0) 5 33, vAfter (.vcvtNarrow 0 5 1 1 1 0 0 0) 5 31, vAfter (.vcvtWiden 0 5 1 1 0 0 0 0) 5 1,
    ((after (.vext 0 5 2 3 0 0 0) vec0).g 0 5).toNat] = [0x40000000, 0x40400000, 0x3F800000, 0x3F803F80, 0, 0x3F800000, 0x40000000] := by decide +kernel

/-- As `tile0`, with v1 and g2 = 0x10_0100, g3 = 0, g6 = 3. -/
def vt0 : State := tile0.modCore 0 fun k =>
  { (k.setCtx 0 { ctxM with g := [(1, 1), (2, 0x100100), (4, 0x100108), (5, 8), (6, 3), (8, fset 0 VCTL_MXFMT 6)] }) with
    eng := { k.eng with v := [(1, splat 0x3F800000)], p := [(1, 0x5)] } }

theorem test_meets_VectorMemoryAndTiles : EngReady vt0 0 [8] ∧ vctlLegal (vt0.g 0 8) = true ∧ EngReady vt0 0 [2] ∧ vctlLegal (vt0.g 0 2) = false ∧
    (vt0.g 0 2 + (BitVec.ofNat 12 0xFFF).signExtend 64 * 16).toNat = 0x1000F0 ∧
    (∀ j, j < 64 → ((vt0.core 0).eng.pr 1).getLsbD j = true → SpadArea vt0 0 (0x1000F0 + 4 * j) 4) ∧ EngReady vt0 0 [4] ∧
    (vt0.g 0 4 + (BitVec.ofNat 12 0).signExtend 64 * 16).toNat % 16 ≠ 0 ∧ EngReady vt0 0 [3] ∧ TileOpen vt0 0 1 ∧
    (vt0.g 0 3).toNat < (vt0.core 0).rowsOf 1 ∧ (vt0.g 0 3).toNat < (vt0.core 0).elsOf 1 ∧ (vt0.core 0).full 1 = true ∧
    TileOpen vt0 0 2 ∧ (vt0.g 0 3).toNat < (vt0.core 0).rowsOf 2 ∧ (vt0.core 0).full 2 = false ∧ EngReady vt0 0 [5] ∧
    (vt0.core 0).rowsOf 1 ≤ (vt0.g 0 5).toNat := by
  refine ⟨eng_of (by decide +kernel) (by decide +kernel) (by decide +kernel), by decide +kernel,
    eng_of (by decide +kernel) (by decide +kernel) (by decide +kernel), by decide +kernel, by decide +kernel, fun j h g => ⟨?_, ?_, ?_, ?_, spadBad_clean (by decide +kernel)⟩,
    eng_of (by decide +kernel) (by decide +kernel) (by decide +kernel), by decide +kernel, eng_of (by decide +kernel) (by decide +kernel) (by decide +kernel),
    by constructor <;> decide +kernel, by decide +kernel, by decide +kernel, by decide +kernel, by constructor <;> decide +kernel, by decide +kernel,
    by decide +kernel, eng_of (by decide +kernel) (by decide +kernel) (by decide +kernel), by decide +kernel⟩ <;> clear g <;> revert j <;> decide +kernel
theorem test_vld : vAfter (.vld 0 1 2 1 0) 1 0 = 0x03020100 ∧ vAfter (.vld 0 1 2 1 0) 1 4 = 0x3F800000 ∧
    spadNat (after (.vst 0 1 2 1 0) vt0) 0 0x100100 12 = 0x3F800000070605043F800000 ∧
    ((after (.vtr 0 5 3 1 1 0) vt0).core 0).eng.vr 5 = 0x3F803F803F803F803F803F803F803F80 ∧
    ((after (.vtw 0 1 3 2 0 0) vt0).core 0).row 2 0 = 0x3F8000003F8000003F8000003F800000 ∧
    ((after (.vtr 0 5 5 1 0 0) vt0).cur 0).eval = 0xFFFFFFFFFFFFFFF1 := by decide +kernel

theorem test_meets_VectorReductionsAndTables : EngReady vec0 0 [] ∧ 2 % 2 ^ 1 = 0 ∧ EngReady vt0 0 [3] ∧ TileOpen vt0 0 1 ∧ (vt0.core 0).full 1 = true ∧
    (vt0.g 0 3).toNat < (vt0.core 0).rowsOf 1 ∧ fget ((vt0.core 0).tcf 1) TCFG_TAG = 0 ∧ slotValid vec0 0 0 = true ∧ slotValid vec0 0 7 = false ∧
    (31 : Nat) ≠ 1 ∧ 254 + vEls 0 / 32 - 1 ≤ 255 ∧ statusBit (vec0.cur 0) 4 = false :=
  ⟨test_vec0.1, by decide, eng_of (by decide +kernel) (by decide +kernel) (by decide +kernel), by constructor <;> decide +kernel, by decide +kernel⟩
theorem test_reductions : [vAfter (.vredSum 0 5 1 0 0 0 0 0) 5 0, vAfter (.vredDot 0 5 1 2 0 0 0 0) 5 63, vAfter (.vredMax 0 5 2 0 0 1 0 0) 5 1] =
    [0x42800000, 0x43000000, 0x7FC00000] ∧ elW 8 (((after (.vmxs 0 5 2 31 0 0) vec0).core 0).eng.vr 31) 0 = 126 ∧
    vAfter (.vmxs 0 5 2 31 0 0) 5 0 = 0x40800000 := by decide +kernel

/-- Tile 0 holds the FP32 matrix with the lower triangle 4; 2 3; 0 0 1; 0 0 0 1; g5 = 4, g6 the least pivot 1.0. -/
def fact0 : State := vt0.modCore 0 fun k =>
  { (k.setCtx 0 { ctxM with g := [(2, 0x100100), (4, 0x100108), (5, 4), (6, 0x3F80000000000000)] }) with
    eng := { k.eng with
      tcfg := [(0, fset (tc 4) TCFG_FMT 0), (1, fset (tc 4) TCFG_FMT 0)], full := [(0, true), (1, true)]
      rows := [(0, 0x40800000), (1, 0x4040000040000000), (2, 0x3F800000 <<< 64), (3, 0x3F800000 <<< 96)] } }

theorem test_meets_TableLoadAndFactorisation : Ready fact0 0 [2] ∧ statusBit (fact0.cur 0) 0 = true ∧ (fact0.g 0 2).toNat % 16 = 0 ∧
    SpadArea fact0 0 (fact0.g 0 2).toNat imgBytes ∧ statusBit (fact0.cur 0) 4 = false ∧ Ready fact0 0 [4] ∧ (fact0.g 0 4).toNat % 16 ≠ 0 ∧
    EngReady fact0 0 [5, 6] ∧ TileOpen fact0 0 1 ∧ TileOpen fact0 0 0 ∧ (fact0.core 0).full 0 = true ∧ (fact0.g 0 5).toNat = 4 ∧
    flt false (fdec 0 ((fact0.g 0 6).toNat % 2 ^ 32)) (.fin false 0 0) = false ∧ (fdec 0 ((fact0.g 0 6).toNat % 2 ^ 32)).isFin = true ∧
    flt false (.fin false 0 0) (fdec 0 ((fact0.g 0 6).toNat / 2 ^ 32)) = true ∧ (fdec 0 ((fact0.g 0 6).toNat / 2 ^ 32)).isFin = true ∧
    factShape (fact0.core 0) 4 0 = false ∧ factShape (fact0.core 0) 4 1 = false ∧
    (∀ i, i < 4 → ∀ j, j ≤ i → fNonFin 0 ((fact0.core 0).el 0 i j) = false) :=
  ⟨ready_of (by decide +kernel), by decide +kernel, by decide +kernel,
    ⟨by decide +kernel, by decide +kernel, by decide +kernel, by decide +kernel, spadBad_clean (by decide +kernel)⟩, by decide +kernel,
    ready_of (by decide +kernel), by decide +kernel, eng_of (by decide +kernel) (by decide +kernel) (by decide +kernel),
    by constructor <;> decide +kernel, by constructor <;> decide +kernel, by decide +kernel⟩
/-- Its factor: d0 = 4, l10 = 1/2, d1 = 3 - 4 / 4 = 2. -/
theorem test_factor : ([(0, 0), (0, 1), (1, 0), (1, 1)].map fun x => ((after (.vfact 0 1 5 0 6 0) fact0).core 0).el 1 x.1 x.2) =
    [0x40800000, 0, 0x3F000000, 0x40000000] ∧ ((after (.vfact 0 1 5 0 6 0) fact0).core 0).full 1 = true := by decide +kernel

/-! The Gauge. -/

/-- The Gauge lies at frame 8 and is cleared; partition 0 owns tags 1 to 5 and all columns.  Tag 3 is scaled, its step's maximum 100.0. -/
def gauge0 : State :=
  ({ (withRegs [(rCK_KEYS, 0x101), (rGAUGE_BASE, fset 0 GAUGE_BASE_BASE 2),
        (rGRANGE 0, fsetB (fset (fset 0 GRANGE_LO 1) GRANGE_HI 5) GRANGE_EN true), (rGE_INDEX 0, 3),
        (rPT_RANGE 0, range0)] m0) with
      ledger := (List.range 4).map fun i => (8 + i, { LEnt.free with rsv := true, chip := true, owner := 8 })
      zeroed := [8, 9, 10, 11] }.setGw 3 0 (fset 0 gFMT 3)).setGw 3 1 (fset 0 gAMAX 0x42C80000)

/-- A GROLL of tag 3, for partition 0 or 1, whose home is still to report; and one whose homes have all reported. -/
def groll0 (p : Nat) : Groll := { ctx := 0, gd := 5, part := p, first := 3, count := 1, left := [gaugeHome gauge0 3], upd := 0 }
def rolling (r : Groll) : State := gauge0.modCore 0 fun k => { k with rolls := [r] }

theorem test_meets_GaugeRoll : Ready gauge0 0 [5, 2, 3] ∧ Ready m0 0 [5, 1, 3] ∧ 1 ≤ (m0.g 0 3).toNat ∧ (m0.g 0 1).toNat + (m0.g 0 3).toNat ≤ 65536 ∧
    65536 < (gauge0.g 0 2).toNat + (gauge0.g 0 3).toNat ∧ statusBit (gauge0.cur 0) 4 = false ∧ ((rolling (groll0 1)).core 0).rolls = [groll0 1] ∧
    ownsTag (rolling (groll0 1)) 1 3 = false ∧ ((rolling (groll0 0)).core 0).rolls = [groll0 0] ∧ ownsTag (rolling (groll0 0)) 0 3 = true ∧
    gaugeHome (rolling (groll0 0)) 3 = gaugeHome gauge0 3 ∧ gaugeBad (rolling (groll0 0)) 3 = false ∧
    gaugeBad (gaugeLine 3 (rolling (groll0 0))) 3 = false ∧
    (rolling (groll0 0)).flag (rSC_FLIP (gaugeHome gauge0 3 / 16)) SC_FLIP_ARM = false ∧ fmtScaled (fget ((rolling (groll0 0)).gw 3 0) gFMT) = true ∧
    fbit ((rolling (groll0 0)).gw 3 0) gNF = false ∧ fdec 0 (fget ((rolling (groll0 0)).gw 3 1) gAMAX) = .fin false 0xC80000 (-17) ∧
    ((rolling { groll0 0 with left := [] }).core 0).rolls = [{ groll0 0 with left := [] }] :=
  ⟨ready_of (by decide +kernel), ready_of (by decide +kernel), by decide +kernel⟩
/-- R161: 100 times 4 is at most 448, 100 times 8 is not. -/
theorem test_groll : gaugeS (after (.grollSliceUpdate 0 (gaugeHome gauge0 3)) (rolling (groll0 0))) 3 = 2 ∧
    histSlot (after (.grollSliceUpdate 0 (gaugeHome gauge0 3)) (rolling (groll0 0))) 3 0 = 0x42C8 ∧
    (after (.grollComplete 0) (rolling { groll0 0 with left := [], upd := 1 })).g 0 5 = 1 := by decide +kernel

def seed0 : State := gauge0.modCore 0 fun k => { k with seed := some (7, 0, 0) }

theorem test_meets_GaugeWindowAndSeeds : mayReg gauge0 (.hg 0) true (rGE_CMD 0) = true ∧ gauge0.fld (rGE_INDEX 0) GE_INDEX_TAG = 3 ∧
    ownsTag gauge0 0 3 = true ∧ gaugeBad gauge0 3 = false ∧ gaugeBad (gaugeLine 3 gauge0) 3 = false ∧ mayReg gauge0 (.hg 0) true (rGE_CMD 1) = true ∧
    ownsTag gauge0 1 (gauge0.fld (rGE_INDEX 1) GE_INDEX_TAG) = false ∧ entryLegal gauge0 0 65535 = true ∧
    gauge0.flag (rSC_FLIP (gaugeHome gauge0 3 / 16)) SC_FLIP_ARM = false ∧ mayReg gauge0 (.hg 0) true (rSR_SEED 0) = true ∧
    mayReg gauge0 (.core 0) true (rSR_SEED 1) = false ∧ (seed0.core 0).seed = some (7, 0, 0) ∧ mayReg gauge0 .comp true (rGRANGE 1) = true ∧
    locked gauge0 (rGRANGE 1) = false ∧ grangeOk 1 (fsetB (fset (fset 0 GRANGE_LO 6) GRANGE_HI 6) GRANGE_EN true) gauge0 = true ∧
    fget (fset (fset 0 GRANGE_LO 6) GRANGE_HI 5) GRANGE_HI < fget (fset (fset 0 GRANGE_LO 6) GRANGE_HI 5) GRANGE_LO := by decide +kernel
theorem test_gauge_window : (after (.gaugeWindowRead (.hg 0) 0) gauge0).reg (rGE_DATA 0 1) = fset 0 gAMAX 0x42C80000 ∧
    (after (.gaugeWindowWrite (.hg 0) 0 1) gauge0).gw 3 0 = 0 ∧ ((after (.seedApply 0) seed0).core 0).sr = 0xA5C31F4D2B976E06 ∧
    (after (.grangeWrite .comp 1 (fsetB (fset (fset 0 GRANGE_LO 5) GRANGE_HI 6) GRANGE_EN true)) gauge0).rsp = .err := by decide +kernel

/-! Packets and homes. -/

/-- Line 1 of frame 5, which page 8 maps; a request of core 0 for it, and the state in which its slice holds it. -/
def line1 : Nat := 5 * 2 ^ 14 + 1
def pk1 (op : Nat) : Packet := coreReq mem0 0 op line1 4
def here1 : State := { mem0 with slices := [(homeSlice mem0 (line1 * 128), { Slice.reset with lines := [{ line := line1, set := 0, way := 0, cls := 0, tag := 0, part := 0, spent := false, dirty := false, bad := false, stamp := 0, old := [] }] })] }
def at1 : Packet := { pk1 opATOM with addr := line1 * 128 + 8, sub := 3, payload := 5 }

def cleanB (p : Packet) : Bool := p.lost.isNone && p.fixes.isEmpty && !reservedEp p.dst

theorem clean_of {p : Packet} (h : cleanB p = true) : CleanWay p := by
  simp only [cleanB, Bool.and_eq_true, Option.isNone_iff_eq_none, List.isEmpty_iff, Bool.not_eq_true'] at h
  exact ⟨h.1.1, h.1.2, h.2⟩

def sliceB (s : State) (p : Packet) (op : Nat) : Bool :=
  p.op == op && cleanB p && !behind p s && !(s.held.any fun q => q.addr / 128 == p.addr / 128) && gateFor p s &&
    (!isLp p.addr && !isCw p.addr && !isLp (p.addr / 128 * 128) && !isCw (p.addr / 128 * 128)) && !lineQueued s (p.addr / 128) &&
    badMask s p.part (p.addr / 128) 32 == 0 && keyOk s p.part (p.addr / 128 * 128)

theorem slice_of {s : State} {p : Packet} {op : Nat} (h : sliceB s p op = true) : AtSlice s p op := by
  simp only [sliceB, Bool.and_eq_true, beq_iff_eq, Bool.not_eq_true'] at h
  obtain ⟨⟨⟨⟨⟨⟨⟨⟨a, b⟩, c⟩, d⟩, e⟩, ⟨⟨⟨f1, f2⟩, f3⟩, f4⟩⟩, g⟩, i⟩, j⟩ := h
  exact ⟨a, clean_of b, c, d, e, ⟨f1, f2, f3, f4⟩, g, i, j⟩

def coreB (s : State) (p : Packet) (op : Nat) : Bool :=
  p.op == op && cleanB p && decide (p ∈ s.net) && decide (p.dst < 0x400) && !gateShut s p.dst && (s.core p.dst).enabled && s.inCols p.part p.dst &&
    p.rgen == (s.core p.dst).rgen

theorem core_of {s : State} {p : Packet} {op : Nat} (h : coreB s p op = true) : AtCore s p op := by
  simp only [coreB, Bool.and_eq_true, beq_iff_eq, Bool.not_eq_true', decide_eq_true_eq] at h
  obtain ⟨⟨⟨⟨⟨⟨⟨a, b⟩, c⟩, d⟩, e⟩, f⟩, g⟩, i⟩ := h
  exact ⟨a, clean_of b, c, d, e, f, g, i⟩

theorem test_meets_RequestsAtHome : AtSlice here1 (pk1 opRD) opRD ∧ (resident here1 line1).isSome = true ∧ (pk1 opRD).tag = 0 ∧
    AtSlice mem0 (pk1 opRD) opRD ∧ (resident mem0 line1).isNone = true ∧ 0x400 ≤ (pk1 opRD).dst ∧ (pk1 opRD).dst < 0x500 ∧
    AtSlice here1 { pk1 opWR with mask := 0xF, payload := 0x12345678 } opWR ∧ AtSlice here1 at1 opATOM ∧ at1.addr % 8 = 0 ∧ at1.addr / 128 = line1 :=
  ⟨slice_of (by decide +kernel), by decide +kernel, by decide +kernel, slice_of (by decide +kernel), by decide +kernel, by decide +kernel,
    by decide +kernel, slice_of (by decide +kernel), slice_of (by decide +kernel), by decide +kernel⟩
theorem test_home : (after (.wr { pk1 opWR with mask := 0xF, payload := 0x12345678 }) here1).rdNat (line1 * 128) 8 = 0x12345678 ∧
    ((after (.wr { pk1 opWR with mask := 0xF, payload := 0x12345678 }) here1).le 5).t = true ∧
    (after (.atom at1) here1).rdNat (line1 * 128 + 8) 8 = 5 ∧
    ((after (.rd (pk1 opRD)) here1).net.map fun p => [p.op, p.dst]) = [[opCREDIT, 0], [opRD_DATA, 0]] := by decide +kernel

def req1 (a : Bool) : SReq := { pkt := pk1 opRD, admitted := a, waited := false }
def slice1 (f : Slice → Slice) : State := { mem0 with slices := [(homeSlice mem0 (line1 * 128), f Slice.reset)] }
def lp1 : Packet := { pk1 opRD with addr := 0x010000000000 }
def mg1 : Packet := { pk1 opMERGE with tag := 3, payload := 0x42C90000, nf := true }

/-- A channel of line 1 is recalibrated. -/
def recal1 (s : State) : State := { s with recal := let (st, sa) := hbmMap s (line1 * 128); [(epSC st, saPc sa)] }

theorem test_meets_HomeServices : ((slice1 fun x => { x with reqs := [req1 false] }).slice (homeSlice mem0 (line1 * 128))).reqs = [] ++ req1 false :: [] ∧
    (req1 false).admitted = false ∧ roomFor (slice1 fun x => { x with reqs := [req1 false] }) (homeSlice mem0 (line1 * 128)) (pk1 opRD).addr = true ∧
    ((slice1 fun x => { x with reqs := [req1 true] }).slice (homeSlice mem0 (line1 * 128))).reqs = [] ++ req1 true :: [] ∧
    (req1 true).admitted = true ∧ homeSlice mem0 (line1 * 128) < 256 ∧ AtSlice (slice1 id) (pk1 opRD) opRD ∧ chanHeld (slice1 id) line1 = false ∧
    chanHeld (recal1 (slice1 id)) line1 = true ∧ (resident (slice1 id) line1).isNone = true ∧ (pk1 opRD).tag = 0 ∧
    (({ mem0 with lcs := [(0, { input := [lp1], queue := [] })] } : State).lc 0).input = [] ++ lp1 :: [] ∧
    lcRoom { mem0 with lcs := [(0, { input := [lp1], queue := [] })] } 0 lp1.addr = true ∧
    line1 ∈ ((slice1 fun x => { x with wbs := [line1] }).slice (homeSlice mem0 (line1 * 128))).wbs ∧ mg1.op = opMERGE ∧ CleanWay mg1 ∧
    ownsTag gauge0 mg1.part mg1.tag = true ∧ gaugeBad gauge0 mg1.tag = false ∧ gaugeBad (gaugeLine mg1.tag gauge0) mg1.tag = false ∧
    gauge0.flag (rSC_FLIP (gaugeHome gauge0 mg1.tag / 16)) SC_FLIP_ARM = false ∧
    ownsTag gauge0 { mg1 with tag := 9 }.part 9 = false ∧ CleanWay { mg1 with tag := 9 } ∧ CleanWay (pk1 opSPENT) ∧ 0x400 ≤ (pk1 opSPENT).dst ∧
    (pk1 opSPENT).dst < 0x500 ∧ CleanWay (pk1 opPF_RD) ∧ isCw (pk1 opPF_RD).addr = false ∧ demandWaits mem0 (pk1 opPF_RD).addr = false ∧
    gateOpen ((pk1 opPF_RD).addr / 128) false mem0 = true ∧ badMask mem0 (pk1 opPF_RD).part ((pk1 opPF_RD).addr / 128) 32 = 0 ∧ (pk1 opPF_RD).src < 0x400 ∧
    demandWaits (slice1 fun x => { x with reqs := [req1 false] }) (pk1 opPF_RD).addr = true := by
  refine ⟨?_, ?_, ?_, ?_, ?_, ?_, slice_of ?_, ?_, ?_, ?_, ?_, ?_, ?_, ?_, ?_, clean_of ?_, ?_, ?_, ?_, ?_, ?_, clean_of ?_, clean_of ?_, ?_, ?_,
    clean_of ?_, ?_⟩ <;> decide +kernel
theorem test_merge : fget ((after (.merge mg1) gauge0).gw 3 1) gAMAX = 0x42C90000 ∧ fbit ((after (.merge mg1) gauge0).gw 3 0) gNF = true := by decide +kernel

/-- A response of operation `op` for core 0 is in flight; its context waits as `w` says. -/
def rs1 (op : Nat) : Packet := { pk1 op with dst := 0, src := homeEp mem0 (line1 * 128), cls := clsRSP, payload := 0x8182838485868788 <<< 64 }
def wait1 (op : Nat) (w : Wait) : State := { mem0 with net := [rs1 op] }.modCore 0 fun k => k.setCtx 0 { k.ctx 0 with wait := w }
def va1 : Nat := 0x1000088
def wLd : Wait := .mem [(4, va1 / 128)] [] none (.load 5 2 true va1)
def wSt : Wait := .store false va1 none
def wAt : Wait := .mem [(4, va1 / 128)] [] none (.atomic 5 va1 false)

def st1 : State := (wait1 opWR_ACK wSt).modCore 0 fun k => { k with stores := [(4, 0, stStore)] }

theorem test_meets_ResponsesAtCore : AtCore (wait1 opRD_DATA wLd) (rs1 opRD_DATA) opRD_DATA ∧ (rs1 opRD_DATA).sub < pfMark ∧
    waitsFor ((wait1 opRD_DATA wLd).core 0) 4 = some (0, va1 / 128) ∧ va1 % 2 = 0 ∧ (rs1 opRD_DATA).bad = 0 ∧
    statusBit ((wait1 opRD_DATA wLd).cur 0) 4 = false ∧ ({ rs1 opRD_DATA with bad := 4 } : Packet).bad.getLsbD (va1 % 128 / 4) = true ∧
    AtCore { wait1 opRD_DATA wLd with net := [{ rs1 opRD_DATA with bad := 4 }] } { rs1 opRD_DATA with bad := 4 } opRD_DATA ∧
    AtCore (wait1 opRD_DATA wAt) (rs1 opRD_DATA) opRD_DATA ∧ waitsFor ((wait1 opRD_DATA wAt).core 0) 4 = some (0, va1 / 128) ∧ va1 % 4 = 0 ∧
    AtCore st1 (rs1 opWR_ACK) opWR_ACK ∧ (rs1 opWR_ACK).bad = 0 ∧ ((st1.core 0).ctx 0).wait = wSt ∧
    (∀ i ∈ [0, 1, 2, 3], ((st1.core 0).ctx i).wait = if i = 0 then wSt else .none) ∧
    (∀ y ∈ (st1.core 0).stores, y.1 = (rs1 opWR_ACK).txid) ∧
    (MemKind.load 5 2 true va1).span = (va1, 2) ∧ (MemKind.load 5 2 true va1).active 0 = true ∧ (va1 + 0) / 128 = va1 / 128 ∧
    AtCore (wait1 opNACK wLd) (rs1 opNACK) opNACK ∧ knotWaiter ((wait1 opNACK wLd).core 0) 4 = none ∧
    waitsFor ((wait1 opNACK wLd).core 0) 4 = some (0, va1 / 128) ∧ ((wait1 opNACK wLd).core 0).rst = false ∧ CleanWay (rs1 opCREDIT) ∧
    rs1 opCREDIT ∈ (wait1 opCREDIT .none).net ∧ gateShut (wait1 opCREDIT .none) 0 = false ∧ ((wait1 opCREDIT .none).core 0).outq = [] ∧
    (pk1 opRD).dst = (rs1 opCREDIT).src ∧ (pk1 opRD).op ≠ opPF_RD ∧
    (((wait1 opCREDIT .none).modCore 0 fun k => { k with outq := [pk1 opRD] }).core 0).outq = [] ++ pk1 opRD :: [] ∧ CleanWay (rs1 opMSG) ∧
    gateShut (wait1 opMSG .none) 0 = false ∧ ((wait1 opMSG .none).core 0).enabled = true ∧ (wait1 opMSG .none).inCols (rs1 opMSG).part 0 = true ∧
    gateShut mem0 1 = false ∧ (mem0.core 1).enabled = false ∧ CleanWay { rs1 opMSG with dst := 1 } ∧ gateShut (mem0.modCore 0 fun k => { k with rst := true }) 0 = true ∧
    0x11 < (rs1 0x12).op ∧ CleanWay (rs1 0x12) ∧ mayReg held0 (.hg 0) true (rCMEM_CFG 0) = true ∧ cmemOk 0 held0 = true ∧ cmemOk 0 gauge0 = false := by
  refine ⟨core_of ?_, ?_, ?_, ?_, ?_, ?_, ?_, core_of ?_, core_of ?_, ?_, ?_, core_of ?_, ?_, ?_, ?_, ?_, ?_, ?_, ?_, core_of ?_, ?_, ?_, ?_,
    clean_of ?_, ?_, ?_, ?_, ?_, ?_, ?_, clean_of ?_, ?_, ?_, ?_, ?_, ?_, clean_of ?_, ?_, ?_, clean_of ?_, ?_⟩ <;> decide +kernel
theorem test_responses : (after (.rdData (rs1 opRD_DATA)) (wait1 opRD_DATA wLd)).g 0 5 = 0xFFFFFFFFFFFF8788 ∧
    (after (.rdData (rs1 opRD_DATA)) (wait1 opRD_DATA wAt)).g 0 5 = 0xFFFFFFFF85868788 ∧
    ((after (.nack (rs1 opNACK)) (wait1 opNACK wLd)).cur 0).eval = 0x1000088 ∧
    ((after (.requestLimit 0 4) (wait1 opNACK wLd)).cur 0).ecause = BitVec.ofNat 64 Exc.dataErr.code ∧
    (after (.msg (rs1 opMSG)) (wait1 opMSG .none)).reg (rIPEND 0) = 0x20 := by decide +kernel

/-! The Ledger. -/

/-- Partition 0 has page 8 in frame 5 and owns frame 6; frame 7 is partition 1's.  Window `w` names frames `f` and `d`, page `vpn` and ARG. -/
def led0 (w f d vpn ar : Nat) : State :=
  withRegs [(rLE_FRAME w, n64 (f + d * 2 ^ 20)), (rLE_VPN w, n64 (vpn * 2 ^ 21)), (rLE_ARG w, n64 ar)]
    { mem0 with ledger := mem0.ledger ++ [(7, { LEnt.free with owner := 1 })] }
def lgReadyB (s : State) (o : Origin) (w : Nat) : Bool :=
  mayReg s o true (rLE_CMD w) && decide (w ≤ 8) && !s.flag (rLE_STAT w) LE_STAT_BUSY && s.lgops.isEmpty
theorem lg_of {s : State} {o : Origin} {w : Nat} (h : lgReadyB s o w = true) : LgReady s o w := by
  simp only [lgReadyB, Bool.and_eq_true, decide_eq_true_eq, Bool.not_eq_true', List.isEmpty_iff] at h
  exact ⟨h.1.1.1, h.1.1.2, h.1.2, h.2⟩

theorem test_meets_LedgerCommands : LgReady (led0 0 5 6 8 9) (.hg 0) 0 ∧ 5 < nFrames ∧ leBad (led0 0 5 6 8 9) 5 = false ∧
    ((led0 0 5 6 8 9).le 5).owner = 0 ∧ ((led0 0 5 6 8 9).le 5).rsv = false ∧ LgReady (led0 0 7 6 8 9) (.core 0) 0 ∧
    ((led0 0 7 6 8 9).le 7).owner = 1 ∧ walkBad (led0 0 5 6 8 9) 0 8 = false ∧ walk (led0 0 5 6 8 9) 0 8 = .hit 5 ∧
    mustCopy (led0 0 5 6 8 9) 5 = false ∧ ((led0 0 5 6 8 9).le 5).vpn = 8 ∧ (n64 9).getLsbD 4 = false ∧ LgReady (led0 0 6 6 9 5) (.hg 0) 0 ∧
    walkBad (led0 0 6 6 9 5) 0 9 = false ∧ walk (led0 0 6 6 9 5) 0 9 = .miss ∧ overlaps (led0 0 6 6 9 5) 0 9 = false ∧
    (chainOf (led0 0 6 6 9 5) 0 9).length < 64 ∧
    foreign (led0 0 5 6 8 9) ⟨0, 5, (led0 0 5 6 8 9).reg (rLE_FRAME 0), (led0 0 5 6 8 9).reg (rLE_VPN 0), (led0 0 5 6 8 9).reg (rLE_ARG 0)⟩ 5 = false ∧
    ((led0 0 5 6 8 9).le 5).v = true ∧ leBad (led0 0 5 6 8 9) 6 = false ∧ ((led0 0 5 6 8 9).le 6).owner = 0 ∧ ((led0 0 5 6 8 9).le 6).v = false ∧
    LgReady (led0 8 6 0 0 0x10000) .comp 8 ∧ ((led0 8 6 0 0 0x10000).le 6).rsv = false ∧ ((led0 8 6 0 0 0x10000).le 6).v = false := by
  refine ⟨lg_of ?_, ?_, ?_, ?_, ?_, lg_of ?_, ?_, ?_, ?_, ?_, ?_, ?_, lg_of ?_, ?_, ?_, ?_, ?_, ?_, ?_, ?_, ?_, ?_, lg_of ?_, ?_⟩ <;> decide +kernel
theorem test_ledger : (after (.lgMap (.hg 0) 0) (led0 0 6 6 9 5)).le 6 = { LEnt.free with v := true, w := true, p := true, vpn := 9 } ∧
    walk (after (.lgMap (.hg 0) 0) (led0 0 6 6 9 5)) 0 9 = .hit 6 ∧ ((after (.lgClrf (.hg 0) 0) (led0 0 5 6 8 9)).le 5).w = false ∧
    ((after (.lgGive .comp 8) (led0 8 6 0 0 0x10000)).le 6).owner = 1 ∧
    (after (.lgRead (.core 0) 0) (led0 0 7 6 8 9)).fld (rLE_STAT 0) LE_STAT_CODE = 2 := by decide +kernel

def shoot0 (eps : List Nat) : State :=
  { mem0 with lgops := [(0, .shoot 0 8 5 eps)], cores := [(0, { mem0.core 0 with tc := [7, 8] })] }
/-- A write of the old frame that was accepted before the migration began. -/
def oldWr : Packet := { pk1 opWR with cause := mgOld }
def move5 : State := { mem0 with lgops := [(0, .migrate 5 6 false [0x500])] }

theorem test_meets_LedgerProgress : (shoot0 [0]).lgops = [(0, .shoot 0 8 5 [0])] ∧ lhas 0 [0] = true ∧ (shoot0 []).lgops = [(0, .shoot 0 8 5 [])] ∧
    (shoot0 []).lgWait = [] ∧ accessesDone (shoot0 []) 0 8 5 = true ∧ accessesDone { shoot0 [] with net := [pk1 opRD] } 0 8 5 = false ∧
    move5.lgops = [(0, .migrate 5 6 false [0x500])] ∧ move5.held = [] ∧ move5.slices = [] ∧ move5.lcs = [] ∧
    oldWr.cause = mgOld ∧ pktWrites oldWr = true ∧ isCw oldWr.addr = false ∧ frameOf oldWr.addr = 5 ∧ oldWr ∈ ({ move5 with held := [oldWr] } : State).held := by
  decide +kernel

/-! Frames whose contents are whole and whose homes stand open. -/

theorem xor16 {a b : Nat} (h1 : a < 16) (h2 : b < 16) : nxor a b < 16 := Nat.xor_lt_two_pow (n := 4) h1 h2
theorem xor8 {a b : Nat} (h1 : a < 8) (h2 : b < 8) : nxor a b < 8 := Nat.xor_lt_two_pow (n := 3) h1 h2

theorem hbmMap_lt (s : State) (pa : Nat) : (hbmMap s pa).1 < 16 := by
  have b : ∀ x h l, h + 1 - l = 3 → bits x h l < 8 := fun x h l e => by rw [bits, e]; exact Nat.mod_lt _ (by decide)
  have c : ∀ x h l, h + 1 - l = 4 → bits x h l < 16 := fun x h l e => by rw [bits, e]; exact Nat.mod_lt _ (by decide)
  simp only [hbmMap]
  split
  · have := xor8 (xor8 (b (bits pa 20 8) 2 0 rfl) (b (bits pa 20 8) 5 3 rfl)) (b (bits pa 20 8) 8 6 rfl)
    simp only; omega
  · exact xor16 (xor16 (c _ 3 0 rfl) (c _ 7 4 rfl)) (c _ 11 8 rfl)

/-- Everything of frame `f` can be read by partition `p`. -/
def wholeB (s : State) (f p : Nat) : Bool :=
  s.slices.isEmpty && s.badw.isEmpty && lhas f s.zeroed &&
    (if (s.le f).chip then s.flag rCK_KEYS CK_KEYS_CHIP else bit (s.fld rCK_KEYS CK_KEYS_MEM) p) &&
    (List.range 16).all fun st => (List.range 4).all fun k => !s.flag (rSC_BRET st k) SC_BRET_EN

theorem whole_word {s : State} {f p w : Nat} (h : wholeB s f p = true) (e : frameOf (4 * w) = f) : wordBad s p w = false := by
  simp only [wholeB, Bool.and_eq_true, List.isEmpty_iff, List.all_eq_true, List.mem_range, Bool.not_eq_true'] at h
  obtain ⟨⟨⟨⟨h1, h2⟩, h3⟩, h4⟩, h5⟩ := h
  have b : bankRetired s (4 * w) = false := by
    simp only [bankRetired]; split
    · refine List.any_eq_false.mpr fun k hk => ?_
      simp [h5 _ (hbmMap_lt s (4 * w)) k (List.mem_range.mp hk)]
    · rfl
  have r : resident s (w / 32) = none := by rw [resident, h1]; rfl
  have g : keyOk s p (4 * w) = true := by rw [keyOk, e]; exact h4
  have l : lhas w s.badw = false := by rw [h2]; rfl
  simp [wordBad, unwritten, b, r, g, l, e, h3]

theorem frame_word {f i n : Nat} (hi : i < 16384) (hn : n < 32) (hf : f < nFrames) : frameOf (4 * ((framePa f / 128 + i) * 32 + n)) = f := by
  simp only [nFrames, lpBase] at hf
  simp only [framePa, lpBase]
  split
  · rw [frameOf, isHbm, if_pos (decide_eq_true (by omega))]; omega
  · rw [frameOf, isHbm, if_neg (by simp only [decide_eq_true_eq]; omega)]
    have e : (4 * ((((1099511627776 + (f - 393216) * 2 ^ 21) / 128) + i) * 32 + n) - 1099511627776) / 2 ^ 21 = f - 393216 := by omega
    rw [e, lpBase]; omega

theorem frame_line {f i : Nat} (hi : i < 16384) (hf : f < nFrames) : frameOf ((framePa f / 128 + i) * 128) = f := by
  have := frame_word (n := 0) hi (by decide) hf
  rwa [show 4 * ((framePa f / 128 + i) * 32 + 0) = (framePa f / 128 + i) * 128 by omega] at this

theorem frame_cw {f i : Nat} (hi : i < 16384) (hf : f < nFrames) : isCw ((framePa f / 128 + i) * 128) = false := by
  simp only [nFrames, lpBase] at hf
  have : (framePa f / 128 + i) * 128 < 0x400000000000 := by simp only [framePa, lpBase]; split <;> omega
  simp only [isCw, Bool.and_eq_false_imp, decide_eq_true_eq, decide_eq_false_iff_not]; omega

theorem whole_line {s : State} {f p i : Nat} (h : wholeB s f p = true) (hi : i < 16384) (hf : f < nFrames) :
    badMask s p (framePa f / 128 + i) 32 = 0 := by
  have k : ∀ n, n ≤ 32 → badMask s p (framePa f / 128 + i) n = 0 := by
    intro n; induction n with
    | zero => intro _; rfl
    | succ n ih =>
      intro hn
      rw [badMask, ih (by omega), whole_word h (frame_word hi (by omega) hf)]; simp only [Bool.false_eq_true, if_false, Nat.or_zero]
  exact k 32 (by decide)

/-- Frame `f` is not being moved and needs no snapshot copy, and no channel is recalibrated. -/
def openB (s : State) (f : Nat) : Bool := s.slices.isEmpty && s.recal.isEmpty && s.snoops.isEmpty && !(s.le f).mig && !mustCopy s f

theorem open_gate {s : State} {f i : Nat} {w : Bool} (h : openB s f = true) (hi : i < 16384) (hf : f < nFrames) :
    gateOpen (framePa f / 128 + i) w s = true := by
  simp only [openB, Bool.and_eq_true, List.isEmpty_iff, Bool.not_eq_true'] at h
  obtain ⟨⟨⟨⟨h1, h5⟩, h2⟩, h3⟩, h4⟩ := h
  have c : chanHeld s (framePa f / 128 + i) = false := by simp [chanHeld, h5]
  have r : resident s (framePa f / 128 + i) = none := by rw [resident, h1]; rfl
  have q : tget? (framePa f / 128 + i) (s.slice (homeSlice s ((framePa f / 128 + i) * 128))).filter = none := by rw [State.slice, h1]; rfl
  simp [gateOpen, frame_cw hi hf, frame_line hi hf, snoopOut, inTest, h2, h3, h4, r, q, c]

theorem copy_open {s : State} {f d : Nat} {ls : List Nat} (hl : ∀ i ∈ ls, i < 16384) (hf : f < nFrames) (hd : d < nFrames)
    (h1 : openB (s.setLe f { s.le f with mig := false, s := false }) f = true) (h2 : openB (s.setLe f { s.le f with mig := false, s := false }) d = true) :
    copyGate s f d ls = true :=
  List.all_eq_true.mpr fun i hi => by simp only [Bool.and_eq_true]; exact ⟨open_gate h1 (hl i hi) hf, open_gate h2 (hl i hi) hd⟩

theorem copy_good {s : State} {f p : Nat} {ls : List Nat} (hl : ∀ i ∈ ls, i < 16384) (hf : f < nFrames) (h : wholeB s f p = true) :
    copyBad s f p ls = false := List.any_eq_false.mpr fun i hi => by simp [whole_line h (hl i hi) hf]

theorem frame_lines : ∀ i ∈ frameLines, i < 16384 := fun _ h => List.mem_range.mp h
theorem share_lines {s : State} {d ep : Nat} : ∀ i ∈ shareLines s d ep, i < 16384 := fun _ h => List.mem_range.mp (List.mem_filter.mp h).1

/-- A migration of page 8 from HBM3E frame 5 to LPDDR5X frame 3. -/
def moveLp : State :=
  { mem0 with lgops := [(0, .migrate 5 (lpBase + 3) true [epLC 1])], ledger := [(5, { LEnt.free with v := true, w := true, vpn := 8, mig := true })] }

/-- The last clause. -/
theorem test_meets_LedgerProgress_share : moveLp.lgops = [(0, .migrate 5 (lpBase + 3) true [epLC 1])] ∧ lpBase + 3 < nFrames ∧
    moveLp.held = [] ∧ memWf moveLp = true ∧ copyGate moveLp 5 (lpBase + 3) (shareLines moveLp (lpBase + 3) (epLC 1)) = true ∧
    copyBad moveLp 5 0 (shareLines moveLp (lpBase + 3) (epLC 1)) = false :=
  ⟨rfl, by decide, rfl, by decide +kernel, copy_open share_lines (by decide) (by decide) (by decide +kernel) (by decide +kernel),
    copy_good share_lines (by decide) (by decide +kernel)⟩
theorem test_shootdown : ((after (.shootdown 0 0) (shoot0 [0])).core 0).tc = [7] ∧ (after (.shootdownDone 0) (shoot0 [])).lgops = [] := by decide +kernel

/-! Streams. -/

/-- The `n` low bytes of a number, as scratchpad cells from an offset. -/
def cells (off x n : Nat) : Tab Byte := (List.range n).map fun i => (off + i, BitVec.ofNat 8 (x >>> (8 * i)))

/-- The Flume context 1 of core 0 in state `st`, with registers `r` and engine state `x`; its list, at 0x10_0100, has one entry: 16 bytes at
0x10_0200, END. -/
def fl0 (st : Nat) (r : List (Nat × Word)) (x : Flume) : State :=
  (withRegs ([(rFL_STAT 0 1, n64 st), (rFL_LIST 0 1, 0x100100)] ++ r) m0).modCore 0 fun k =>
    { k with flumes := [(1, x)], spad := cells 0x100 (0x100200 + (16 + 2 ^ 24) * 2 ^ 64) 16 }
def unit0 : FlUnit := { first := 0, blocks := [(0x100200, 16)], nf := false, stamp := 0 }
def rt0 : State := fl0 1 [(rFL_CFG 0 1, fsetB 0 FL_CFG_RT true), (rFL_DL 0 1, 5)] { Flume.reset with entry := some 0 }

theorem test_meets_FlumeStreams : Ready (fl0 0 [] .reset) 0 [5, 1] ∧ ((fl0 0 [] .reset).g 0 1).toNat = 1 ∧ flState (fl0 0 [] .reset) 0 1 = 0 ∧
    flMode (fl0 0 [] .reset) 0 1 = 0 ∧ (fl0 0 [] .reset).flag (rFL_CFG 0 1) FL_CFG_RT = false ∧ (fl0 0 [] .reset).fld (rFL_BUF 0 1) FL_BUF_HALF = 0 ∧
    flState (fl0 1 [] .reset) 0 1 = 1 ∧ flMode (fl0 0 [(rFL_CFG 0 1, fset 0 FL_CFG_MODE 3)] .reset) 0 1 = 3 ∧
    ({ Flume.reset with units := [unit0] } : Flume).block 0 = some (0x100200, 16) ∧ ({ Flume.reset with units := [unit0] } : Flume).block 1 = none ∧
    Ready (fl0 1 [] { Flume.reset with units := [unit0], held := [0] }) 0 [5, 1] ∧ arrNames ((fl0 1 [] .reset).core 0) 1 = false ∧
    statusBit ((fl0 1 [] .reset).cur 0) 4 = false ∧ entVa (fl0 1 [] .reset) 0 1 0 = 0x100100 ∧ SpadArea (fl0 1 [] .reset) 0 0x100100 16 ∧
    spadNat (fl0 1 [] .reset) 0 0x100100 16 = 0x100200 + (16 + 2 ^ 24) * 2 ^ 64 ∧ blkKind (fl0 1 [] .reset) 0 1 ⟨0x100200, 16, true, false⟩ = .inPlace ∧
    hasDeadline { rt0 with coreTick := 5 } 0 1 0 = true ∧ reached { rt0 with coreTick := 5 } 0 (closeAt rt0 0 1 0) = true ∧
    blockLate { rt0 with coreTick := 5 } 0 1 0 = true ∧ (withRegs [(rCORE_MODE 0, 1)] rt0).maint 0 = true ∧
    blockLate ({ rt0 with coreTick := 5 }.setFl 0 1 { Flume.reset with entry := some 0, stamps := [(0, 4)] }) 0 1 0 = false ∧
    hasDeadline ({ rt0 with coreTick := 5 }.setFl 0 1 { Flume.reset with entry := some 0, stamps := [(0, 4)] }) 0 1 0 = true ∧
    reached rt0 0 (closeAt rt0 0 1 0) = false ∧ slotPlan ((fl0 1 [] { Flume.reset with entry := some 0 }).core 0) 1 = [] ∧
    ({ Flume.reset with entry := some 0 } : Flume).units.length < 2 ∧ Flume.reset.fail = none ∧ Flume.reset.miss = [] ∧
    ({ Flume.reset with endAt := some 0, take := 1 } : Flume).block 1 = none ∧ (0 : Nat) < 1 := by
  refine ⟨ready_of ?_, ?_, ?_, ?_, ?_, ?_, ?_, ?_, ?_, ?_, ready_of ?_, ?_, ?_, ?_, ⟨?_, ?_, ?_, ?_, ?_⟩, ?_⟩ <;> decide +kernel
theorem test_flume : (after (.sarm 0 5 1 0) (fl0 0 [] .reset)).g 0 5 = 1 ∧ flState (after (.sarm 0 5 1 0) (fl0 0 [] .reset)) 0 1 = 1 ∧
    (after (.swait 0 5 1 0) (fl0 1 [] { Flume.reset with units := [unit0] })).g 0 5 = 0x100200 ∧
    ((after (.sfree 0 5 1 0) (fl0 1 [] .reset)).cur 0).ecause = BitVec.ofNat 64 Exc.stream.code ∧
    ((after (.flumeUnitArrival 0 1 false) (fl0 1 [] { Flume.reset with entry := some 0 })).core 0).fl 1 =
      { Flume.reset with units := [unit0], nb := 1, endAt := some 0, stamps := [(0, 0)] } ∧
    (after (.deadlineCheck 0 1) (withRegs [(rCORE_MODE 0, 1)] { rt0 with coreTick := 5 })).fld (rFL_MISS 0 1) FL_MISS_COUNT = 1 := by decide +kernel

/-- A descriptor that copies 24 bytes from 0x10_0200 to 0x10_0300 in elements of 16 bytes, with an interrupt; channel 1 of core 0 in state `st`. -/
def desc0 : Nat := 0x100200 <<< 64 + 0x100300 <<< 128 + 24 <<< 256 + (2 ^ 24) <<< 384
def cv0 (st el : Nat) (x : Chn) : State :=
  ((withRegs [(rCV_STAT 0 1, fset (n64 st) CV_STAT_ELEM el), (rCV_HEAD 0 1, 0x100100)] m0).modCore 0 fun k =>
    { (k.setCtx 0 { ctxM with g := [(1, 1), (2, 0x100100), (3, 0)] }) with spad := cells 0x100 desc0 64 ++ cells 0x200 0x1716151413121110 24 }).setChan (.cv 0 1) x

theorem test_meets_CulvertChannels : Ready (cv0 0 0 .reset) 0 [5, 1, 2] ∧ ((cv0 0 0 .reset).g 0 1).toNat = 1 ∧ storesOut (cv0 0 0 .reset) 0 = false ∧
    ((cv0 0 0 .reset).core 0).errPend = none ∧ (cv0 0 0 .reset).g 0 2 ≠ 0 ∧ chState (cv0 0 0 .reset) (.cv 0 1) = 0 ∧
    chState (cv0 1 0 .reset) (.cv 0 1) = 1 ∧ ((cv0 1 0 .reset).chan (.cv 0 1)).cur = none ∧
    (cv0 1 0 .reset).fld (rCV_HEAD 0 1) CV_HEAD_ADDR * 64 = 0x100100 ∧ SpadArea (cv0 1 0 .reset) 0 0x100100 64 ∧
    spadNat (cv0 1 0 .reset) 0 0x100100 64 = desc0 ∧ dBad false desc0 = false ∧ dMisaligned desc0 = none ∧ dBad false (desc0 + 2) = true ∧
    ((cv0 1 1 { Chn.reset with cur := some desc0 }).chan (.cv 0 1)).cur = some desc0 ∧
    (cv0 1 1 { Chn.reset with cur := some desc0 }).fld (rCV_STAT 0 1) CV_STAT_ELEM = 1 ∧ 1 < dElems desc0 ∧ dMode desc0 = 0 ∧ dBraid desc0 = false ∧
    dUnbraid desc0 = false ∧ min (dEsize desc0) (dLen desc0 - 1 * dEsize desc0) = 8 ∧ SpadArea (cv0 1 1 .reset) 0 0x100210 8 ∧
    SpadArea (cv0 1 1 .reset) 0 0x100310 8 ∧ dElems desc0 ≤ 2 ∧ chPending (cv0 1 2 { Chn.reset with cur := some desc0 }) (.cv 0 1) = false ∧
    (cv0 1 2 { Chn.reset with cur := some desc0 }).flag (rCV_BSTAT 0) CV_BSTAT_EN = false ∧ dWb desc0 = false ∧ dKen desc0 = false ∧ dNext desc0 = none ∧
    dInt desc0 = true ∧ mayReg (cv0 0 0 .reset) (.core 0) true (rCV_COUNT 0 1) = true := by
  refine ⟨ready_of ?_, ?_, ?_, ?_, ?_, ?_, ?_, ?_, ?_, ⟨?_, ?_, ?_, ?_, ?_⟩, ?_, ?_, ?_, ?_, ?_, ?_, ?_, ?_, ?_, ?_, ?_, ⟨?_, ?_, ?_, ?_, ?_⟩,
    ⟨?_, ?_, ?_, ?_, ?_⟩, ?_⟩ <;> decide +kernel
theorem test_culvert : (after (.cstart 0 5 1 2) (cv0 0 0 .reset)).g 0 5 = 1 ∧
    ((after (.culvertDescFetch false 0 1) (cv0 1 0 .reset)).chan (.cv 0 1)).cur = some desc0 ∧
    spadNat (after (.culvertElement false 0 1 false) (cv0 1 1 { Chn.reset with cur := some desc0 })) 0 0x100310 8 = 0 ∧
    spadNat (after (.culvertElement false 0 1 false) (cv0 1 0 { Chn.reset with cur := some desc0 })) 0 0x100300 16 = 0x1716151413121110 ∧
    (after (.culvertDescComplete false 0 1) (cv0 1 2 { Chn.reset with cur := some desc0 })).reg (rIPEND 0) = 0x10 := by decide +kernel

/-! Knots and hitches, partitions, register accesses. -/

/-- Knot 1 of core 0 is a counter at 5; g3 = 3, g4 = 9, g6 = -9, g7 = 2^32. -/
def kn0 (st : Word) : State := (withRegs [(rKN 0 1, fset (fset 0 CK_KIND 1) CK_COUNT 5)] m0).modCore 0 fun k =>
  k.setCtx 0 { ctxM with g := [(1, 1), (3, 3), (4, 9), (6, -9), (7, 0x100000000), (8, 64)], mstatus := st }

theorem test_meets_KnotInstructions : Ready (kn0 1) 0 [5, 1, 3] ∧ Ready (kn0 1) 0 [5, 1, 6] ∧ Ready (kn0 1) 0 [5, 1, 4] ∧ ((kn0 1).g 0 1).toNat = 1 ∧
    coreIdOk 0 = true ∧ fget ((kn0 1).knot 8193) CK_KIND = 1 ∧ (kn0 1).waiters 8193 = [] ∧ storesOut (kn0 1) 0 = false ∧ ((kn0 1).core 0).errPend = none ∧
    fbit ((kn0 1).knot 8193) CK_IEN = false ∧ fget ((kn0 1).knot 8193) CK_COUNT = 5 ∧ ((kn0 1).g 0 3).toInt = 3 ∧ ((kn0 1).g 0 6).toInt = -9 ∧
    8 ≤ knotMax ((kn0 1).knot 8193) ∧ ((kn0 1).g 0 4).toNat = 9 ∧ 9 ≤ knotMax ((kn0 1).knot 8193) ∧ statusBit ((kn0 1).cur 0) 0 = true ∧
    statusBit ((kn0 1).cur 0) 4 = false ∧ Ready (kn0 0) 0 [5, 1, 3] ∧ statusBit ((kn0 0).cur 0) 0 = false ∧ Ready (kn0 1) 0 [5, 7, 3] ∧
    2 ^ 32 ≤ ((kn0 1).g 0 7).toNat ∧ ((kn0 1).core 0).freeTx = some 0 ∧ Ready (kn0 1) 0 [5, 8, 3] ∧ 64 ≤ ((kn0 1).g 0 8).toNat ∧
    (kn0 1).owns ((kn0 1).part 0) 0 = true := by
  refine ⟨ready_of ?_, ready_of ?_, ready_of ?_, ?_, ?_, ?_, ?_, ?_, ?_, ?_, ?_, ?_, ?_, ?_, ?_, ?_, ?_, ?_, ready_of ?_, ?_, ready_of ?_, ?_,
    ?_, ready_of ?_, ?_⟩ <;> decide +kernel
theorem test_knots : (after (.ksig 0 5 1 3) (kn0 1)).g 0 5 = 5 ∧ fget ((after (.ksig 0 5 1 3) (kn0 1)).knot 8193) CK_COUNT = 8 ∧
    (after (.kwait 0 5 1 3) (kn0 1)).g 0 5 = 2 ∧ ((after (.kwait 0 5 1 4) (kn0 1)).cur 0).wait = .kwait 1 9 5 none 0 0 ∧
    ((after (.ksig 0 5 1 6) (kn0 1)).cur 0).ecause = BitVec.ofNat 64 Exc.knot.code ∧
    ((after (.harr 0 5 1 0) (kn0 1)).net.map fun p => [p.op, p.addr, p.sub]) = [[opHITCH, 1, 0]] := by decide +kernel

/-- Chip knot 3 is a counter of partition 0 at 5; a waiter of core 0 for 7; a packet of core 0 for it. -/
def ck0 (l : List KWaiter) : State := { withRegs [(rCK 3, fset (fset 0 CK_KIND 1) CK_COUNT 5)] mem0 with kwaits := [(3, l)] }
def kw0 : KWaiter := { core := 0, ctx := 0, n := 7, tx := some 4, rgen := false }
def kp0 (op : Nat) : Packet := { pk1 op with addr := 2 ^ 31 + 3, payload := 3, sub := 0 }

/-- Hitch 2 of partition 0 is open for the core of mask 1's first word, with COUNT 2; core 0 has arrived or not. -/
def ht0 (l : List Nat) : State :=
  { withRegs [(rHT_CFG 2, fset (fset (fsetB 0 HT_CFG_EN true) HT_CFG_MASK 1) HT_CFG_COUNT 2), (rHT_STAT 2, fset (fset 0 HT_STAT_STATE 1) HT_STAT_GEN 9),
      (rHM_WORD 1 (coreMaskBit 0 / 64), BitVec.ofNat 64 (2 ^ (coreMaskBit 0 % 64)))] held0 with harrs := [(2, l)] }
def hp0 (h : Nat) : Packet := { pk1 opHITCH with addr := h, sub := 0 }

/-- Generation 9 of hitch 2 is over, and core 0 waits for it. -/
def hd0 : Packet := { rs1 opHITCH_DONE with addr := 2, payload := 9 }
def dn0 : State := { wait1 opHITCH_DONE (.hwait 2 9 5 4 0) with net := [hd0] }

theorem quiet_of {s : State} (h : s.ports = [] ∧ s.xsent = [] ∧ s.ddPend = [] ∧ s.grps = []) : RingQuiet s := by
  obtain ⟨h1, h2, h3, h4⟩ := h
  have e : ∀ p, (s.port p).rxbuf = [] ∧ (s.port p).out = [] ∧ (s.port p).retry = [] := fun p => by simp only [State.port, h1]; exact ⟨rfl, rfl, rfl⟩
  exact ⟨fun p _ => (e p).1, fun p _ => .inr (e p).2, h2, h3, by simp [h4]⟩

theorem test_meets_KnotsAtHome : CleanWay (kp0 opKNOT) ∧ (kp0 opKNOT).addr = 2 ^ 31 + 3 ∧ fget ((ck0 []).knot 3) CK_PART = (kp0 opKNOT).part ∧
    fget ((ck0 []).knot 3) CK_KIND = 1 ∧ fbit ((ck0 []).knot 3) CK_IEN = false ∧ 0 < ((kp0 opKNOT).payload.extractLsb' 0 64).toInt ∧
    (ck0 []).waiters 3 = [] ∧ fget ((ck0 []).knot 3) CK_COUNT + 3 ≤ knotMax ((ck0 []).knot 3) ∧ (ck0 [kw0]).waiters 3 = [kw0] ∧
    AtCore (wait1 opKNOT_RSP (.kop 0 0 1 5 4)) (rs1 opKNOT_RSP) opKNOT_RSP ∧
    knotWaiter ((wait1 opKNOT_RSP (.kop 0 0 1 5 4)).core 0) 4 = some 0 ∧ statusBit ((wait1 opKNOT_RSP (.kop 0 0 1 5 4)).cur 0) 4 = false ∧
    CleanWay (kp0 opWITHDRAW) ∧ (kp0 opWITHDRAW).rgen = ((ck0 [kw0]).core 0).rgen ∧ ((ck0 [kw0]).core 0).rst = false ∧
    kw0.core = (kp0 opWITHDRAW).src ∧ kw0.tx = some (kp0 opWITHDRAW).txid ∧
    (∀ q ∈ [{ kw0 with core := 1, n := 6, tx := none }], q.core ≠ 0 ∧ fget ((ck0 []).knot 3) CK_COUNT < q.n) ∧
    CleanWay (hp0 2) ∧ RingQuiet (ht0 []) ∧ htState (ht0 []) 2 = 1 ∧ (ht0 []).ht 2 HT_CFG_PART = (hp0 2).part ∧
    inMask (ht0 []) ((ht0 []).ht 2 HT_CFG_MASK) 0 = true ∧
    (ht0 []).ht 2 HT_CFG_XMOD = 0 ∧ (ht0 []).ht 2 HT_CFG_KEN = 0 ∧ (ht0 []).ht 2 HT_CFG_COUNT = 2 ∧ tget [] (ht0 [9]).harrs 2 = [9] ∧
    htState (ht0 []) 3 = 0 ∧ CleanWay hd0 ∧ hd0 ∈ dn0.net ∧ hd0.payload.toNat < 65536 ∧ gateShut dn0 0 = false ∧ (dn0.core 0).enabled = true ∧
    dn0.inCols hd0.part 0 = true ∧ ((dn0.core 0).ctx 0).wait = .hwait 2 9 5 4 0 ∧ mayReg (ck0 []) .comp true (knotReg 3) = true ∧
    knotWordOk .comp 3 0 (ck0 []) = true ∧ (ck0 [kw0]).waiters 3 ≠ [] ∧ mayReg (ht0 []) (.hg 0) true (rHT_CFG 3) = true ∧
    htCfgOk (.hg 0) 3 (fset (fset (fsetB 0 HT_CFG_EN true) HT_CFG_MASK 1) HT_CFG_COUNT 1) (ht0 []) = true ∧
    mayReg (ht0 []) (.hg 0) true (rHM_WORD 1 0) = true ∧ (∀ h, h < 64 → (ht0 []).ht h HT_CFG_MASK = 5 → htState (ht0 []) h = 0) ∧
    (ht0 []).ht 2 HT_CFG_MASK = 1 := by
  refine ⟨clean_of ?_, ?_, ?_, ?_, ?_, ?_, ?_, ?_, ?_, core_of ?_, ?_, ?_, clean_of ?_, ?_, ?_, ?_, ?_, ?_, clean_of ?_, quiet_of ?_, ?_, ?_, ?_, ?_,
    ?_, ?_, ?_, ?_, clean_of ?_, ?_⟩ <;> decide +kernel
theorem test_knot_home : fget ((after (.knot (kp0 opKNOT)) (ck0 [])).knot 3) CK_COUNT = 8 ∧ fget ((after (.knot (kp0 opKNOT)) (ck0 [kw0])).knot 3) CK_COUNT = 1 ∧
    (after (.withdraw (kp0 opWITHDRAW)) { ck0 [kw0] with net := [kp0 opWITHDRAW] }).waiters 3 = [] ∧
    tget [] (after (.hitch (hp0 2)) (ht0 [])).harrs 2 = [0] ∧ (after (.hitch (hp0 2)) (ht0 [9])).fld (rHT_STAT 2) HT_STAT_GEN = 10 := by decide +kernel

/-- Partition 0, with all columns, is HELD, RESETTING or OFF. -/
def part0 (st : Nat) : State := withRegs [(rPT_STAT 0, fset 0 PT_STAT_STATE st)] held0
def range (a b : Nat) : Word := fsetB (fset (fset 0 PT_RANGE_FIRST a) PT_RANGE_LAST b) PT_RANGE_EN true

theorem test_meets_PartitionsAndRegisters : mayReg (part0 3) .comp true (rPT_RANGE 0) = true ∧ ptRangeOk 0 (range 0 5) (part0 3) = true ∧
    fget (range 5 4) PT_RANGE_LAST < fget (range 5 4) PT_RANGE_FIRST ∧ fget (range 0 5) PT_RANGE_FIRST ≤ (part0 3).fld (rPT_RANGE 0) PT_RANGE_LAST ∧
    (part0 3).fld (rPT_RANGE 0) PT_RANGE_FIRST ≤ fget (range 0 5) PT_RANGE_LAST ∧ coreX 0 ≤ 5 ∧ m0.flag (rCORE_CTL 0) CORE_CTL_RUN = true ∧
    mayReg (part0 3) .comp true (rPT_CTL 0) = true ∧ RingQuiet (part0 3) ∧ (∀ g, g < 256 → grpPart (part0 3) g = 0 → grpState (part0 3) g ≠ cgOK) ∧
    (∀ n, n < 16 → ((part0 3).slu n).job = none) ∧ (part0 3).fld (rPT_STAT 0) PT_STAT_STATE = 3 ∧ (part0 2).fld (rPT_STAT 0) PT_STAT_STATE = 2 ∧
    (∀ c, c ∈ (part0 2).partCores 0 → ((part0 2).core c).rstTx = []) ∧ blkOf rWEIR_CTL = some (.weir, 0, 8) ∧
    (regRow rWEIR_CTL).isSome = true ∧ mayReg m0 (.hg 0) true rWEIR_CTL = true ∧ mayReg m0 (.core 0) true rWEIR_CTL = false ∧
    mayReg m0 (.core 0) false rWEIR_CTL = true ∧ mayReg m0 .comp false 0xFFFF000 = false ∧ blkOf 0xFFFF000 = none :=
  ⟨by decide +kernel, by decide +kernel, by decide +kernel, by decide +kernel, by decide +kernel, by decide +kernel, by decide +kernel,
    by decide +kernel, quiet_of (by decide +kernel), by decide +kernel⟩
theorem test_partitions : (after (.ptRangeWrite .comp 0 (range 5 4)) (part0 3)).rsp = .err ∧ (after (.registerWrite (.core 0) rWEIR_CTL 1) m0).rsp = .err := by
  decide +kernel
theorem test_reset_drained : (after (.ptResetDrainDone 0) (part0 2)).fld (rPT_STAT 0) PT_STAT_STATE = 3 ∧ ((after (.ptResetDrainDone 0) (part0 2)).core 0).rgen = true := by
  decide +kernel

/-! The Sluice units. -/

/-- Write `n` bytes of a number at a device-physical address. -/
def poke (a n x : Nat) (s : State) : State := each (fun i s => s.setByte (a + i) (BitVec.ofNat 8 (x >>> (8 * i)))) (List.range n) s

/-- Lines that stand in their slices. -/
def hold (ls : List Nat) (s : State) : State :=
  { s with slices := ls.foldl (fun t l => tset (homeSlice s (l * 128)) { tget Slice.reset t (homeSlice s (l * 128)) with
      lines := { line := l, set := 0, way := 0, cls := 0, tag := 0, part := 0, spent := false, dirty := false, bad := false, stamp := 0, old := [] } ::
        (tget Slice.reset t (homeSlice s (l * 128))).lines } t) s.slices }

/-- First byte of frame 5, which page 8 maps; a job's header there: STEP 20, PROG 0x100_1000, NTENS 1, DONE_KNOT 5, PLEN 1. -/
def fr5 : Nat := 5 * 2 ^ 21
def hdr0 : Nat := 20 + 0x1001000 <<< 64 + (1 + 5 <<< 32 + 1 <<< 48) <<< 128
/-- Its entry: tag 3, FP32 throughout, no state; the parameter at 0x100_2000. -/
def ent00 : Nat := 3 + 0x1002000 <<< 64

/-- A world for a job at 0x100_0000: the Gauge as in `gauge0`, whose entry 3 names the bitmap at frame offset 0x4000, with block 0 touched;
the gradient at 0x100_3000 (its first element 1.0), the parameter (its first element 2.0), the Logline record of step 20; `w` is the program. -/
def world0 (w : Nat) : State :=
  let s := { (withRegs [(rCK_KEYS, 0x101), (rGAUGE_BASE, fset 0 GAUGE_BASE_BASE 2),
      (rGRANGE 0, fsetB (fset (fset 0 GRANGE_LO 1) GRANGE_HI 5) GRANGE_EN true), (rLOG_RING 0, fset (fset 0 LOG_RING_BASE 8) LOG_RING_LSIZE 5),
      (rLOG_STAT 0, fsetB 0 LOG_STAT_VALID true), (rLOG_LAST 0, 20)] mem0) with
    ledger := (5, { LEnt.free with v := true, w := true, vpn := 8 }) :: (List.range 4).map fun i => (8 + i, { LEnt.free with rsv := true, chip := true, owner := 8 })
    zeroed := [5, 8, 9, 10, 11] }
  let s := poke fr5 64 hdr0 (poke (fr5 + 0x100) 32 ent00 (poke (fr5 + 0x1000) 4 w (poke (fr5 + 0x2000) 4 0x40000000 (poke (fr5 + 0x3000) 4 0x3F800000 s))))
  let s := poke (fr5 + 0x4000) 12 (0x1003000 + 1 <<< 64) (poke (fr5 + 0x4040) 1 1 (poke (fr5 + 0x5008) 1 20 s))
  hold ([0, 1, 2, 32, 64, 65, 96, 97, 128, 160].map (fr5 / 128 + ·) ++ [gaugePa s 3 / 128]) (poke (gaugePa s 3 + 56) 6 (fr5 + 0x4000) s)

/-- The unit whose share block 0 is, with page 8 in its translation cache; the unit with a job queued; waiting to start it; running it. -/
def un : Nat := unitOf m0 (fr5 + 0x3000)
def job0 (w st : Nat) (x : Slu) : State :=
  ({ withRegs [(rSLU_STAT un, fset 0 SLU_STAT_STATE st), (rSLU_CTL un, fsetB 0 SLU_CTL_ENABLE true)] (world0 w) with
    ecache := [(epSluice un, [(0, 8)])] }).setSlu un x
def xWait (h : Nat) : Slu := { Slu.reset with job := some (0x1000000, 0), hdr := h, ents := ent00, prog := [seqWord 0 5] }
def xRun (w : Nat) : Slu := { xWait hdr0 with prog := [w], tptr := fr5 + 0x4000, gbase := 0x1003000, mine := [0] }
/-- NF: the header's one collective sequence, 7, is DONE with NF. -/
def hdr7 : Nat := hdr0 + (7 + 1 <<< 32) <<< 256

theorem test_meets_SluiceJobs : mayReg (job0 0 0 .reset) (.core 0) true (rSLU_DOORBELL un) = true ∧ (job0 0 0 .reset).flag (rSLU_CTL un) SLU_CTL_ENABLE = true ∧
    ((job0 0 0 .reset).slu un).queue.length < 4 ∧ ¬ (m0.flag (rSLU_CTL 0) SLU_CTL_ENABLE = true) ∧ mayReg m0 .comp true (rSLU_BCAST 0) = true ∧
    (∀ m, m < 16 → (withRegs ((List.range 16).map fun n => (rSLU_CTL n, fsetB 0 SLU_CTL_ENABLE true)) m0).flag (rSLU_CTL m) SLU_CTL_ENABLE = true) ∧
    slState (job0 (seqWord 0 5) 0 { Slu.reset with queue := [(0x1000000, 0)] }) un = slIDLE ∧ hBad 0 = true ∧
    (slRead un 0 0 0x1002200 256 0xFFFFFFFF false (hold [fr5 / 128 + 68, fr5 / 128 + 69] (job0 0 0 { Slu.reset with job := some (0x1002200, 0) }))).isOk = true ∧
    slState (job0 0 2 (xWait hdr0)) un = slWAIT ∧ jobSeqs hdr0 = [] ∧ hCount hdr0 = 0 ∧
    logComplete (withRegs [(rLOG_LAST 0, 19)] (job0 0 2 (xWait hdr0))) 0 20 = false ∧ hCount (hdr0 + 4 <<< 192) = 4 ∧
    knotPart (job0 0 2 (xWait hdr0)) 0 = 0 ∧ fget ((job0 0 2 (xWait hdr0)).knot 0) CK_KIND = 0 ∧ logComplete (job0 0 2 (xWait hdr0)) 0 20 = true ∧
    logWord64 (job0 0 2 (xWait hdr0)) 0 20 0x10 = some 0 ∧ jobSeqs hdr7 = [7] ∧ (xWait hdr0).abort = false ∧
    capRecord { job0 0 2 (xWait hdr7) with capRec := [(7, { c := 7, st := 2, nf := true })] } 0 7 = some { c := 7, st := 2, nf := true } ∧
    capReplaced { job0 0 2 (xWait hdr7) with capRec := [(7, { c := 7, st := 2, nf := true })] } 0 7 = false := by decide +kernel
/-- Every tensor processed, the status word still to write. -/
def xDone : Slu := { xRun 0 with ended := some 1, hdrRead := true }

theorem test_meets_SluiceJobs_done : xDone.job = some (0x1000000, 0) ∧ xDone.hdrRead = true ∧ 0x1000000 % 256 = 0 ∧
    eFaultV (job0 0 3 xDone) 0 true .store (0x1000080 + 8 * un) 8 = none ∧ eGateV (job0 0 3 xDone) 0 true (0x1000080 + 8 * un) 8 = true ∧
    place (job0 0 3 xDone) 0 true .store (0x1000080 + 8 * un) = .mem (fr5 + 0x80 + 8 * un) ∧ isCw (fr5 + 0x80 + 8 * un) = false ∧
    isLp (fr5 + 0x80 + 8 * un) = false ∧ keyOk (job0 0 3 xDone) 0 ((fr5 + 0x80 + 8 * un) / 128 * 128) = true ∧
    bankRetired (job0 0 3 xDone) ((fr5 + 0x80 + 8 * un) / 128 * 128) = false ∧ isMgmt (.hg 0) = true ∧ isMgmt (.core 0) = false ∧
    mayReg (job0 0 3 xDone) (.hg 0) true (rSLU_CTL un) = true ∧
    (withRegs [(rSLU_ERR 0, fsetB 0 SLU_ERR_VALID true)] m0).flag (rSLU_ERR 0) SLU_ERR_VALID = true ∧ mayReg held0 (.core 0) true (rSLU_ERR 0) = true ∧
    (m0.slu 0).errPart = m0.part 0 ∧ ((m0.setSlu 0 { Slu.reset with errPart := 1 }).slu 0).errPart ≠ (m0.setSlu 0 { Slu.reset with errPart := 1 }).part 0 := by
  decide +kernel
/-- A job whose collective ended with NF: its bitmap is cleared and it ends skipped. -/
def nf7 : State := { job0 0 2 (xWait hdr7) with capRec := [(7, { c := 7, st := 2, nf := true })] }
theorem test_meets_SluiceJobs_start :
    (slFrom un (hNtens hdr0 + 1) 0 (slSet un slRUN ((job0 0 2 (xWait hdr0)).modSlu un fun x => { x with gen := srSeed (BitVec.ofNat 64 0) (1024 + un) }))).isOk = true ∧
    (slSkip un (hNtens hdr7) (slSet un slRUN (nf7.modSlu un fun x => { x with gen := srSeed (BitVec.ofNat 64 0) (1024 + un) }))).isOk = true := by decide +kernel
/-- The load ends in WAIT, so the fetch of header, entry and program answered. -/
theorem test_sluice_load : slState (after (.sluJobLoad un) (job0 (seqWord 0 5) 0 { Slu.reset with queue := [(0x1000000, 0)] })) un = slWAIT := by decide +kernel
theorem test_sluice_job : (after (.sluDoorbell (.core 0) un 0x1000000) (job0 0 0 .reset)).slus = (job0 0 0 { Slu.reset with queue := [(0x1000000, 0)] }).slus ∧
    ((after (.sluJobStart un) (job0 0 2 (xWait hdr0))).slu un).mine = [0] ∧ slState (after (.sluJobStart un) (job0 0 2 (xWait hdr0))) un = slRUN := by decide +kernel

/-- A unit that runs `w` with the group of block 0 loaded; lane 0 of the parameter is 2.0 and only it is active. -/
def xGrp (w : Nat) : Slu := { xRun w with grp := some [0], mine := [], v := [(1, BitVec.ofNat 8192 0x40000000)], p := [(1, 1)], g := [(5, 7), (6, 8)] }
def slAtB (s : State) (n w : Nat) : Bool :=
  decide (n < 16) && decide (slState s n = slRUN) && (s.slu n).ended.isNone && decide (hKind (s.slu n).hdr = 0) && decide ((s.slu n).pc % 4 = 0) &&
    decide ((s.slu n).pc / 4 < hPlen (s.slu n).hdr) && ((s.slu n).prog[(s.slu n).pc / 4]? == some w)
theorem at_of {s : State} {n w : Nat} (h : slAtB s n w = true) : SlAt s n w := by
  simp only [slAtB, Bool.and_eq_true, decide_eq_true_eq, Option.isNone_iff_eq_none, beq_iff_eq] at h
  obtain ⟨⟨⟨⟨⟨⟨h1, h2⟩, h3⟩, h4⟩, h5⟩, h6⟩, h7⟩ := h
  exact ⟨⟨h1, h2, h3, h4⟩, h5, h6, h7⟩
def wAdd : Nat := 1 + 5 <<< 22 + 6 <<< 17 + 7 <<< 27
def wVadd : Nat := 0x30 + 1 <<< 22 + 1 <<< 17 + 2 <<< 27
def wBeq : Nat := 0x16 + 5 <<< 24 + 5 <<< 19 + 0xFFE <<< 7

theorem test_meets_SluicePrograms : SlAt (job0 0 3 (xRun (seqWord 0 5))) un (seqWord 0 5) ∧ SlAt (job0 0 3 (xGrp (seqWord 0 5))) un (seqWord 0 5) ∧
    slStatusGate (job0 0 3 (xRun (seqWord 0 5))) un (xRun (seqWord 0 5)) = true ∧ eGf (xRun 0).ent = 0 ∧ eNs (xRun 0).ent = 0 ∧
    SlAt (job0 0 3 (xGrp (seqWord 1 0))) un (seqWord 1 0) ∧ SlAt (job0 0 3 (xRun (seqWord 1 0))) un (seqWord 1 0) ∧
    SlAt (job0 0 3 (xGrp (seqWord 2 0))) un (seqWord 2 0) ∧ SlAt (job0 0 3 (xRun (seqWord 2 0))) un (seqWord 2 0) ∧
    SlAt (job0 0 3 (xGrp (seqWord 3 0))) un (seqWord 3 0) ∧ SlAt (job0 0 3 (xRun (seqWord 3 0))) un (seqWord 3 0) ∧ hNtens (xRun 0).hdr ≤ (xRun 0).t + 1 ∧
    SlAt (job0 0 3 (xGrp wAdd)) un wAdd ∧ SlAt (job0 0 3 (xGrp wVadd)) un wVadd ∧ SlAt (job0 0 3 (xGrp wBeq)) un wBeq ∧
    slVector wAdd (xGrp wAdd) = none ∧ slScalar wVadd (xGrp wVadd) = none ∧ bits wBeq 31 29 = 0 ∧ SlAt (job0 0 3 (xGrp 0x10)) un 0x10 ∧
    slScalar 0x10 (xGrp 0x10) = none ∧ slVector 0x10 (xGrp 0x10) = none :=
  ⟨at_of (by decide +kernel), at_of (by decide +kernel), by decide +kernel, by decide +kernel, by decide +kernel, at_of (by decide +kernel),
    at_of (by decide +kernel), at_of (by decide +kernel), at_of (by decide +kernel), at_of (by decide +kernel), at_of (by decide +kernel),
    by decide +kernel, at_of (by decide +kernel), at_of (by decide +kernel), at_of (by decide +kernel), by decide +kernel, by decide +kernel,
    by decide +kernel, at_of (by decide +kernel), by decide +kernel⟩
theorem test_meets_SluicePrograms_next : (loadGroup un (job0 0 3 (xRun (seqWord 0 5)))).isOk = true := by decide +kernel
/-- The byte of the bitmap that block 0's bit lies in. -/
def bm0 : Nat := fr5 + 0x4040
def sPut : State := job0 0 3 (xGrp (seqWord 1 0))
theorem test_meets_SluicePrograms_put : (putGroup un (fun j => (xGrp 0).vr (1 + j)) ((xGrp 0).pr 1) (fun _ => true) sPut).isOk = true ∧
    (slClear (xGrp 0).tptr [0] sPut).isOk = true ∧ (xGrp 0).grp = some [0] ∧ eNs (xGrp 0).ent = 0 ∧
    eSr (xGrp 0).ent = false ∧ ePf (xGrp 0).ent = 0 ∧ 0 < eEpb (xGrp 0).ent ∧ (∀ j, j < 256 → ((xGrp 0).pr 1).getLsbD j = decide (j = 0)) ∧
    0x1002000 % 4 = 0 ∧ eFaultV sPut 0 true .store 0x1002000 4 = none ∧ eGateV sPut 0 true 0x1002000 4 = true ∧
    place sPut 0 true .store 0x1002000 = .mem (fr5 + 0x2000) ∧ isCw (fr5 + 0x2000) = false ∧ isLp (fr5 + 0x2000) = false ∧
    keyOk sPut 0 (fr5 + 0x2000) = true ∧ bankRetired sPut (fr5 + 0x2000) = false ∧ isHbm bm0 = true ∧ gateOpen (bm0 / 128) true sPut = true ∧
    sPut.tbt = [] ∧ sPut.recal = [] ∧ sPut.flips = [] ∧ sPut.flag (rSC_FLIP (homeSlice sPut (fr5 + 0x2000) / 16)) SC_FLIP_ARM = false ∧
    fr5 + 0x2004 ≤ bm0 := by decide +kernel
theorem test_sluice_seq : (after (.seqPut un) (job0 0 3 (xGrp (seqWord 1 0)))).rdNat (fr5 + 0x2000) 4 = 0x40000000 ∧
    (after (.seqPut un) (job0 0 3 (xGrp (seqWord 1 0)))).byte (fr5 + 0x4040) = 0 ∧ ((after (.seqEnd un) (job0 0 3 (xRun (seqWord 3 0)))).slu un).ended = some 1 := by
  decide +kernel
theorem test_sluice_ops : ((after (.sluiceProgramOp un) (job0 0 3 (xGrp wAdd))).slu un).gr 7 = 15 ∧
    el32 (((after (.sluiceProgramOp un) (job0 0 3 (xGrp wVadd))).slu un).vr 2) 0 = 0x40800000 ∧
    ((after (.sluiceProgramOp un) (job0 0 3 (xGrp 0x10))).slu un).job = none := by decide +kernel

/-- A unit that runs the rule program of one operation `w`, with the group loaded or not: u7 = 3.0, u1 = 1.0, job constant 6 = 2.0. -/
def xRule (g : Option (List Nat)) (op w : Nat) : Slu :=
  { xRun 0 with
    hdr := hdr0 + 1 <<< 126 + 0x40000000 <<< (512 + 192), prog := [1 + 1 <<< 16, 0, 0, 0, w], opi := op, grp := g
    u := [(1, BitVec.ofNat 8192 0x3F800000), (7, BitVec.ofNat 8192 0x40400000)] }
def runB (s : State) (n k : Nat) : Bool :=
  decide (n < 16) && decide (slState s n = slRUN) && (s.slu n).ended.isNone && decide (hKind (s.slu n).hdr = k)
theorem run_of {s : State} {n k : Nat} (h : runB s n k = true) : SlRunning s n k := by
  simp only [runB, Bool.and_eq_true, decide_eq_true_eq, Option.isNone_iff_eq_none] at h
  exact ⟨h.1.1.1, h.1.1.2, h.1.2, h.2⟩

theorem test_meets_SluiceRules : SlRunning (job0 0 3 (xRule (some [0]) 0 0x213D8200)) un 1 ∧ (xRule (some [0]) 0 0x213D8200).grp ≠ none ∧
    0 < bits ((xRule (some [0]) 0 0x213D8200).prog.headD 0) 7 0 ∧ (xRule (some [0]) 0 0x213D8200).prog[4 + 0]? = some 0x213D8200 ∧
    bits 0x213D8200 31 28 = 2 ∧ SlRunning (job0 0 3 (xRule none 0 0)) un 1 ∧ slStatusGate (job0 0 3 (xRule none 0 0)) un (xRule none 0 0) = true ∧
    hNtens (xRule none 0 0).hdr ≤ 0 + 1 ∧ SlRunning (job0 0 3 (xRule (some [0]) 1 0x213D8200)) un 1 ∧
    bits ((xRule (some [0]) 1 0).prog.headD 0) 7 0 ≤ 1 ∧
    (putGroup un (fun j => tget 0 (xRule (some [0]) 1 0).u (1 + j)) (groupMask (xRule (some [0]) 1 0).ent [0])
      (fun j => ((xRule (some [0]) 1 0).prog.headD 0).testBit (16 + j)) (job0 0 3 (xRule (some [0]) 1 0))).isOk = true :=
  ⟨run_of (by decide +kernel), by decide +kernel, by decide +kernel, by decide +kernel, by decide +kernel, run_of (by decide +kernel),
    by decide +kernel, by decide +kernel, run_of (by decide +kernel), by decide +kernel⟩
/-- The worked word 0x213D_8200: FMA u1 := u7 * c6 + u1. -/
theorem test_rule : el32 (tget 0 ((after (.ruleFma un) (job0 0 3 (xRule (some [0]) 0 0x213D8200))).slu un).u 1) 0 = 0x40E00000 ∧
    ((after (.ruleAdd un) (job0 0 3 (xRule (some [0]) 0 0x213D8200))).slu un).opi = 0 := by decide +kernel

/-! Rings and collectives. -/

/-- A descriptor: CSEQ 7, group 0, reduce-scatter, FP32, 512 bytes from 0x100_2000 to 0x100_3000. -/
def cd0 : Nat := 7 + 0x1002000 <<< 64 + 0x1003000 <<< 128 + 512 <<< 192

/-- Dimension 0 has two modules, this one first; group 0 of partition 0 runs along it; port 0 is in state `st` and as `f` says, port 1 UP;
the keys are loaded; the descriptor lies at 0x100_0000, whose page the engines' translation caches hold. -/
def ring (st : Nat) (f : Port → Port) (rs : List (Nat × Word)) : State :=
  let s := withRegs ([(rHW_STAT 0, fset 0 HW_STAT_STATE st), (rHW_STAT 1, fset 0 HW_STAT_STATE 3), (rHW_KEYS 0, 0x1FF), (rHW_CTL 0, fset 0 HW_CTL_RETRY_MAX 3),
      (rCAP_DIM 0, fset (fsetB 0 CAP_DIM_EN true) CAP_DIM_SIZE 1), (rCAP_GRP 0, fset (fset (fsetB 0 CAP_GRP_EN true) CAP_GRP_DIMS 1) CAP_GRP_STATE 1),
      (rCAP_CTL, fset 0 CAP_CTL_DLIC 1)] ++ rs) mem0
  let s := { s with
    flash := { s.flash with marks := (List.range 32).map (·, 100) }, ports := [(0, f Port.reset)]
    ecache := (epCapstan 0, [(0, 8)]) :: (List.range 8).map fun p => (epHawser p 0, [(0, 8)]) }
  hold ([0, 64, 65, 66, 67, 96].map (fr5 / 128 + ·)) (poke fr5 32 cd0 s)
def frm (typ sub : Nat) : Frame := { mkFrame (ring 3 id []) typ 0 0 with w3 := sub <<< 56 }
def coll0 : Coll := { d := cd0, va := 0x1000000, part := 0, sS := 0, sD := 0, sat := false, snf := false, nf := false, amax := 0,
                      parts := [{ ph := 0, k := 0, gp := 0, gm := 0, ps := [] }], sw := none, cp := 0, cm := 0, wait := [] }
def queued (q : List (Nat × Nat)) : State := { ring 3 id [] with grps := [(0, { Grp.reset with queue := q })] }
/-- What a doorbell reads at `va`: is it legal. -/
def belled (va : Nat) (s : State) : Option Bool := match capRead 0 0 va 64 s with | .ok (bs, u) => some (cBad u 0 (leNat bs)) | _ => none

theorem test_meets_Rings_doorbell : mayReg (ring 3 id []) (.core 0) true rCAP_DOORBELL = true ∧ belled 0x1000000 (ring 3 id []) = some false ∧
    ((ring 3 id []).grp 0).queue.length < 8 ∧ grpState (ring 3 id []) 0 ≠ cgFAILED ∧ belled 0x1002000 (ring 3 id []) = some true ∧
    belled 0x1000000 (queued (List.replicate 8 (cd0, 0))) = some false ∧ 8 ≤ ((queued (List.replicate 8 (cd0, 0))).grp 0).queue.length := by decide +kernel
theorem test_meets_Rings_start : RingQuiet (queued [(cd0, 0x1000000)]) ∧ ((queued [(cd0, 0x1000000)]).grp 0).queue = [(cd0, 0x1000000)] ∧
    grpState (queued [(cd0, 0x1000000)]) 0 = cgOK ∧ grpDims (queued [(cd0, 0x1000000)]) 0 ≠ [] ∧ cStag cd0 = 0 ∧ cDtag cd0 = 0 :=
  ⟨by constructor <;> decide +kernel, by decide +kernel⟩
theorem test_meets_Rings_parts : (partsStart 0 1 coll0 ((setRec 0 7 1 false (queued [(cd0, 0x1000000)])).setGrp 0 { queue := [], run := some coll0, xh := none })).isOk = true := by
  decide +kernel

def xh0 : State := { ring 3 id [] with grps := [(0, { Grp.reset with xh := some (2, 9, 0, 0, 0) })] }
def hc0 (st : Nat) : State := withRegs [(rHC_STAT 0 0, n64 st)] (ring 3 id [])
def dd0 : Frame := { frm 1 0 with w4 := 0x1003000, payload := List.replicate 16 7, len := 16 }

theorem test_meets_Rings_frames : RingQuiet (ring 3 id []) ∧ FrameGood (ring 3 id []) 0 (frm 0 0) 0 0 ∧
    FrameGood (ring 3 id []) 0 (frm 2 0) 2 0 ∧
    xhTurn xh0 0 0 = true ∧ FrameGood xh0 0 { frm 2 1 with w3 := 1 <<< 56 + 9 } 2 1 ∧ FrameGood (hc0 1) 0 (frm 2 2) 2 2 ∧ FrameGood (ring 3 id []) 0 (frm 2 3) 2 3 ∧
    FrameGood (ring 3 id []) 0 dd0 1 0 ∧ (frm 0 0).dmod = modId (ring 3 id []) ∧ grpState (ring 3 id []) 0 = cgOK ∧ RingQuiet xh0 ∧
    RingQuiet (hc0 1) ∧ chState (hc0 1) (.hc 0 0) = 1 ∧ ((hc0 1).chan (.hc 0 0)).serial % 2 ^ 25 = 0 ∧
    eGateV (ring 3 id []) 0 true 0x1003000 16 = true ∧ place (ring 3 id []) 0 true .store 0x1003000 = .mem (fr5 + 0x3000) ∧
    keyOk (ring 3 id []) 0 (fr5 + 0x3000) = true ∧ bankRetired (ring 3 id []) (fr5 + 0x3000) = false ∧
    isCw (fr5 + 0x3000) = false ∧ isLp (fr5 + 0x3000) = false ∧ dd0.tag = 0 ∧ 0x1003000 % 128 + 16 ≤ 128 ∧ eFaultV (ring 3 id []) 0 true .store 0x1003000 16 = none ∧ eFaultV (ring 3 id []) 0 true .store 0x1203000 16 ≠ none ∧
    frameLegal { frm 0 0 with auth := false } = true ∧ ({ frm 0 0 with seq := 5 } : Frame).seq ≠ ((ring 3 id []).port 0).rx :=
  ⟨by constructor <;> decide +kernel, by constructor <;> decide +kernel, by constructor <;> decide +kernel, by decide +kernel,
    by constructor <;> decide +kernel, by constructor <;> decide +kernel, by constructor <;> decide +kernel, by constructor <;> decide +kernel,
    by decide +kernel, by decide +kernel, by constructor <;> decide +kernel, by constructor <;> decide +kernel, by decide +kernel⟩
theorem test_meets_Rings_rsTake : (rsTake 0 0 0 { frm 0 0 with payload := List.replicate 128 0, len := 128 } coll0 (ring 3 id [])).isOk = true ∧
    (localVals coll0 (coll0.part' 0) 128 32 (ring 3 id [])).isOk = true ∧ (0 : Nat) < coll0.parts.length := by decide +kernel

def hello0 : Frame := { frm 3 2 with w3 := 2 <<< 56 + 1 <<< 13 + nbrId (ring 3 id []) 0 }
def held1 (m : Nat) : State := ring 3 (fun x => { x with retry := [(frm 0 0, m)], snd := 1 }) []

theorem test_meets_Rings_link : RingStill (ring 2 id []) ∧ frameLegal hello0 = true ∧ hello0.typ = 3 ∧ frSub hello0 = 2 ∧ hwState (ring 2 id []) 0 = hwTRAINED ∧
    bits hello0.w3 12 0 = nbrId (ring 2 id []) 0 ∧ bits hello0.w3 15 13 = thru 0 ∧ ((ring 2 id []).fld (rHW_KEYS 0) HW_KEYS_LOADED).testBit hello0.ksel = true ∧
    RingStill (held1 1) ∧ hwState (held1 1) 0 = hwUP ∧ ((held1 1).port 0).out = [] ∧ ((held1 1).port 0).retry = [(frm 0 0, 1)] ∧
    ((held1 1).port 0).snd = (frm 0 0).seq + 1 ∧ 1 ≤ (held1 1).fld (rHW_CTL 0) HW_CTL_RETRY_MAX ∧ RingStill (held1 4) ∧
    (held1 4).fld (rHW_CTL 0) HW_CTL_RETRY_MAX < 4 ∧ dimEn (ring 3 id []) 0 = true ∧ RingStill (ring 3 id []) ∧ 0 / 2 ∈ grpDims (ring 3 id []) 0 ∧
    RingStill (ring 1 id []) ∧ hwState (ring 1 id []) 0 = hwTRAINING ∧ atMark (ring 1 id []) 0 = false ∧ mayReg (ring 3 id []) .comp true (rHW_CTL 0) = true ∧
    (ring 3 id []).flag (rHW_CTL 0) HW_CTL_DOWN = false ∧ (ring 3 id []).flag (rHW_CTL 0) HW_CTL_TRAIN = false := by
  refine ⟨by constructor <;> decide +kernel, ?_, ?_, ?_, ?_, ?_, ?_, ?_, by constructor <;> decide +kernel, ?_, ?_, ?_, ?_, ?_,
    by constructor <;> decide +kernel, ?_, ?_, by constructor <;> decide +kernel, ?_, by constructor <;> decide +kernel, ?_⟩ <;> decide +kernel

def spw (p : Nat) : State := { ring 3 id [(rSPW 0, fset 0 SPW_POS p)] with spwTo := [(0, 1)] }

theorem test_meets_Rings_rest : ((queued []).setGrp 0 { Grp.reset with run := some coll0 }).grp 0 = { Grp.reset with run := some coll0 } ∧
    mayReg (ring 3 id []) .comp true (rCAP_GRP 0) = true ∧ mayReg m0 .comp true (rCAP_DIM 0) = true ∧
    capDimOk 0 (fset (fsetB 0 CAP_DIM_EN true) CAP_DIM_SIZE 3) (withRegs [(rCAP_CTL, fset 0 CAP_CTL_DLIC 1)] m0) = true ∧
    (ring 3 id []).flag (rCAP_GRP 0) CAP_GRP_EN = true ∧ 0 ∈ grpDims (ring 3 id []) 0 ∧
    mayReg (hc0 0) .comp true (rHC_HEAD 0 0) = true ∧ fget (0x1000000 : Word) CV_HEAD_ADDR ≠ 0 ∧ chState (hc0 0) (.hc 0 0) = 0 ∧
    mayReg (spw 1) .comp true (rSPW 0) = true ∧ spwPos (spw 1) 0 = spOPEN ∧ spwMayOpen (spw 0) 0 = true ∧ spwPos (spw 0) 0 = spCLOSED ∧
    spwPos (spw 2) 0 = spMOVING ∧ tget 0 (spw 2).spwTo 0 < 4 ∧ dimEn m0 1 = false := by decide +kernel
theorem test_meets_Rings_still : RingStill (spw 0) ∧ RingStill (spw 1) ∧ RingStill (withRegs [(rCAP_CTL, fset 0 CAP_CTL_DLIC 1)] m0) ∧ RingStill m0 :=
  ⟨by constructor <;> decide +kernel, by constructor <;> decide +kernel, by constructor <;> decide +kernel, by constructor <;> decide +kernel⟩
theorem test_rings : ((after (.sweep 0 (frm 2 0)) (ring 3 id [])).port 0).rx = 1 ∧ hwState (after (.hello 0 hello0) (ring 2 id [])) 0 = hwUP ∧
    hwState (after (.retransmitTimeout 0) (held1 4)) 0 = hwFAILED ∧ spwPos (after (.spillwayMoveDone 0) (spw 2)) 0 = spOPEN := by decide +kernel

/-! The Tether. -/

/-- Sub-links 0 and 1 in states `a` and `b`, WIDTH `w`; companions may access and cache partition 0's memory; line 1 of frame 5 stands in its slice, its
filter entry as `flt`; the device's translation cache holds page 8; the messages `ms` have arrived at sub-link 0. -/
def tt (a b w : Nat) (flt : Option Bool) (ms : List TMsg) : State :=
  let s := withRegs [(rTT_STAT, fset (fset (fset 0 TT_STAT_SL0 a) TT_STAT_SL1 b) TT_STAT_WIDTH w), (rTT_PARTACC, 0x101),
    (rTT_CTL, fset 0 TT_CTL_RETRY_MAX 2)] here1
  let n := homeSlice mem0 (line1 * 128)
  { s with
    ttIn := ms.map fun m => (0, m)
    ecache := [(epTether 0 0, [(0, 8)])]
    slices := tset n { s.slice n with filter := (match flt with | some e => [(line1, e, 0)] | none => []) } s.slices }
def tm (cls op : Nat) : TMsg := { tmsg0 with cls := cls, op := op, addr := line1, data := 0x55, txid := 3, mask := 1 }
def fl : Flit := { crc := true, fseq := 0, ack := 1, cr := [1], width := 3, msg := { tm 5 0 with addr := 0 }, nslot := 0 }
def tts (st : Nat) (x : TtSub) : State := { tt st 2 3 none [] with tt := [(0, x)] }

theorem test_meets_Tether_link : mayReg (tt 0 0 0 none []) .comp true rTT_CTL = true ∧ (tt 0 0 0 none []).flag rTT_CTL TT_CTL_WRESET = false ∧
    AllQuiet (tt 0 0 0 none []) ∧ (tt 0 0 0 none []).cwReqs = [] ∧ (tt 0 0 0 none []).flag rTT_CTL TT_CTL_DOWN = false ∧ powered (tt 0 0 0 none []) = true ∧
    subState (tt 1 0 0 none []) 0 = slTRAINING ∧ subLine (tt 1 0 0 none []) 0 = false ∧ subState (tt 3 2 1 none []) 0 = slRETRAIN ∧
    subLine (tt 3 2 1 none []) 0 = true ∧ AllQuiet (tt 3 2 1 none []) ∧ subState (tt 2 2 3 none []) 0 = slUP ∧
    (tt 2 2 3 none []).flag rTT_STAT TT_STAT_LOST = false ∧ ((tts 1 { TtSub.reset with locked := true }).sub 0).locked = true ∧
    subState (tts 2 { TtSub.reset with replay := [(0, tm 1 0)] }) 0 = slUP ∧
    ((tts 2 { TtSub.reset with replay := [(0, tm 1 0)] }).sub 0).replay = [(0, tm 1 0)] ∧ fl.ack = (0 + 1) % 4096 ∧
    fl.fseq = ((tts 2 TtSub.reset).sub 0).frx ∧ msgSlots fl.msg = some (fl.nslot + 1) ∧ msgSlots { tm 1 5 with addr := 0 } ≠ some (fl.nslot + 1) ∧
    ({ fl with fseq := 9 } : Flit).fseq ≠ ((tts 2 TtSub.reset).sub 0).frx ∧ ({ fl with ack := 0 } : Flit).ack = 0 ∧
    0 < (tt 2 2 3 none []).fld rTT_CTL TT_CTL_RETRY_MAX ∧ (tt 2 2 3 none []).fld rTT_CTL TT_CTL_RETRY_MAX ≤ 2 ∧ AllQuiet (tts 2 TtSub.reset) ∧
    fl.width.testBit 0 = true ∧ fl.width.testBit 1 = true ∧ subState (tts 2 TtSub.reset) 1 = slUP ∧ subState (tt 2 4 1 none []) 1 ≠ slUP := by
  refine ⟨?_, ?_, ⟨by constructor <;> decide +kernel, ?_⟩, ?_, ?_, ?_, ?_, ?_, ?_, ?_, ⟨by constructor <;> decide +kernel, ?_⟩, ?_, ?_, ?_, ?_,
    ?_, ?_, ?_, ?_, ?_, ?_, ?_, ?_, ?_, ⟨by constructor <;> decide +kernel, ?_⟩, ?_⟩ <;> decide +kernel

/-- A message of the other partition; one of the companion window's line `cwl`; a snoop of line 1; a request of the device for `cwl`. -/
def cwl : Nat := 0x400000000000 / 128
def far (m : TMsg) : TMsg := { m with part := 1 }
def snp0 (w : Bool) : Snoop := { sub := 0, txid := 3, line := line1, slice := homeSlice mem0 (line1 * 128), inv := false, back := false, wbp := w }
def creq (op : Nat) : CwReq := { sub := 0, txid := 3, line := cwl, slice := homeSlice mem0 (cwl * 128), op := op, pkt := some (pk1 opWR), eng := 0, dead := false }
def cws (op st : Nat) (ms : List TMsg) : State :=
  { tt 2 2 3 none ms with cwReqs := [creq op], slices := [(homeSlice mem0 (cwl * 128), { Slice.reset with comp := [(cwl, st, 7)] })] }

theorem test_meets_Tether_home : MsgFront (tt 2 2 3 none [tm 1 0]) 0 (tm 1 0) 1 0 ∧ ttAdmit (tt 2 2 3 none [tm 1 0]) (tm 1 0) false true = true ∧
    filterOf (tt 2 2 3 none [tm 1 0]) line1 ≠ some true ∧ homeFree (tt 2 2 3 none [tm 1 0]) line1 false = true ∧
    filterRoom (tt 2 2 3 none [tm 1 0]) line1 = true ∧ LineHere (tt 2 2 3 none [tm 1 0]) line1 0 ∧ MsgFront (tt 2 2 3 none [tm 1 1]) 0 (tm 1 1) 1 1 ∧
    ttAdmit (tt 2 2 3 none [tm 1 1]) (tm 1 1) true true = true ∧ ttAdmit (tt 2 2 3 none [far (tm 1 0)]) (far (tm 1 0)) false true = false ∧
    filterOf (tt 2 2 3 (some true) [tm 1 0]) line1 = some true ∧ MsgFront (tt 2 2 3 none [tm 1 2]) 0 (tm 1 2) 1 2 ∧
    ttAdmit (tt 2 2 3 none [tm 1 2]) (tm 1 2) false false = true ∧ inTest (tt 2 2 3 none [tm 1 2]) line1 = false ∧
    MsgFront (tt 2 2 3 (some false) [tm 1 3]) 0 (tm 1 3) 1 3 ∧ filterOf (tt 2 2 3 (some false) [tm 1 3]) line1 = some false ∧
    MsgFront (tt 2 2 3 (some true) [tm 1 4]) 0 (tm 1 4) 1 4 ∧ snoopOut (tt 2 2 3 (some true) [tm 1 4]) line1 = false ∧
    ttAdmit (tt 2 2 3 none [tm 1 5]) (tm 1 5) true false = true ∧ homeFree (tt 2 2 3 none [tm 1 5]) line1 true = true ∧ (tm 1 5).tag = 0 ∧
    MsgFront (tt 2 2 3 none [tm 1 5]) 0 (tm 1 5) 1 5 ∧ MsgFront (tt 2 2 3 none [tm 1 6]) 0 (tm 1 6) 1 6 ∧
    MsgFront (tt 2 2 3 (some true) [tm 1 7]) 0 (tm 1 7) 1 7 ∧ ttAdmit (tt 2 2 3 none [far (tm 1 5)]) (far (tm 1 5)) true false = false ∧
    AllQuiet { tt 2 2 3 (some true) [tm 1 7] with snoops := [snp0 true] } ∧ LineHere { tt 2 2 3 (some true) [tm 1 7] with snoops := [snp0 true] } line1 0 :=
  ⟨by constructor <;> decide +kernel, by decide +kernel, by decide +kernel, by decide +kernel, by decide +kernel, by constructor <;> decide +kernel,
    by constructor <;> decide +kernel, by decide +kernel, by decide +kernel, by decide +kernel, by constructor <;> decide +kernel, by decide +kernel,
    by decide +kernel, by constructor <;> decide +kernel, by decide +kernel, by constructor <;> decide +kernel, by decide +kernel, by decide +kernel,
    by decide +kernel, by decide +kernel, by constructor <;> decide +kernel, by constructor <;> decide +kernel, by constructor <;> decide +kernel,
    by decide +kernel, ⟨by constructor <;> decide +kernel, by decide +kernel⟩, by constructor <;> decide +kernel⟩

theorem test_meets_Tether_admit : touchEc (epTether 0 0) 0 (8 * 2 ^ 21) (tt 2 2 3 none [tm 1 0]) = tt 2 2 3 none [tm 1 0] ∧
    ((tt 2 2 3 none [tm 1 0]).le (frameOf (line1 * 128))).v = true ∧ ((tt 2 2 3 none [tm 1 0]).le (frameOf (line1 * 128))).vpn = 8 ∧
    ttAdmit (tt 2 2 3 none [far (tm 1 2)]) (far (tm 1 2)) false false = false ∧
    ttAdmit (tt 2 2 3 (some false) [tm 1 3]) (tm 1 3) false true = true ∧ homeFree (tt 2 2 3 (some false) [tm 1 3]) line1 false = true ∧
    ttAdmit (tt 2 2 3 (some false) [far (tm 1 3)]) (far (tm 1 3)) false true = false ∧
    filterOf (tt 2 2 3 (some false) [far (tm 1 3)]) line1 = some false ∧ ttAdmit (tt 2 2 3 none [tm 1 3]) (tm 1 3) true true = true ∧
    filterRoom (tt 2 2 3 none [tm 1 3]) line1 = true ∧ ttAdmit (tt 2 2 3 (some true) [tm 1 4]) (tm 1 4) false false = true ∧
    ttAdmit (tt 2 2 3 (some true) [far (tm 1 4)]) (far (tm 1 4)) false false = false ∧
    ttAdmit (tt 2 2 3 (some true) [tm 1 7]) (tm 1 7) true false = true ∧ homeFree (tt 2 2 3 (some true) [tm 1 7]) line1 true = true ∧
    (snp0 false).wbp = false ∧ fl.msg.cls = 5 ∧ ((tt 0 0 0 none []).hgx 0).rom = false ∧ (creq 2).dead = false := by decide +kernel

theorem test_meets_Tether_answers : MsgFront (cws 2 3 [tm 2 1]) 0 (tm 2 1) 2 1 ∧ MsgFront (tt 2 2 3 none [{ tm 2 0 with addr := cwl }]) 0 { tm 2 0 with addr := cwl } 2 0 ∧
    tget? cwl ((tt 2 2 3 none []).slice (homeSlice mem0 (cwl * 128))).comp = none ∧
    tget? cwl ({ cws 2 3 [] with cwReqs := [] }.slice (homeSlice mem0 (cwl * 128))).comp = some (3, 7) ∧
    TtAnswer (cws 5 3 [tm 3 0]) 0 (tm 3 0) 3 0 (creq 5) ∧ TtAnswer (cws 3 1 [tm 3 1]) 0 (tm 3 1) 3 1 (creq 3) ∧
    tget? cwl ((cws 3 1 [tm 3 1]).slice (creq 3).slice).comp = some (1, 7) ∧ TtAnswer (cws 4 1 [tm 3 3]) 0 (tm 3 3) 3 3 (creq 4) ∧
    TtAnswer (cws 5 1 [tm 3 4]) 0 (tm 3 4) 3 4 (creq 5) ∧ TtAnswer (cws 2 1 [tm 4 0]) 0 (tm 4 0) 4 0 (creq 2) ∧
    MsgFront (tt 2 2 3 none [tm 3 0]) 0 (tm 3 0) 3 0 ∧ AllQuiet { tt 2 2 3 (some true) [tm 3 2] with snoops := [snp0 false] } ∧
    MsgFront { tt 2 2 3 (some true) [tm 3 2] with snoops := [snp0 false] } 0 (tm 3 2) 3 2 ∧
    MsgFront { tt 2 2 3 (some true) [tm 4 1] with snoops := [snp0 false] } 0 (tm 4 1) 4 1 ∧
    LineHere { tt 2 2 3 (some true) [tm 4 1] with snoops := [snp0 false] } line1 0 ∧
    AllQuiet (cws 2 1 []) :=
  ⟨by constructor <;> decide +kernel, by constructor <;> decide +kernel, by decide +kernel, by decide +kernel,
    ⟨by constructor <;> decide +kernel, by decide +kernel, by decide +kernel, by constructor <;> decide +kernel, by decide +kernel⟩,
    ⟨by constructor <;> decide +kernel, by decide +kernel, by decide +kernel, by constructor <;> decide +kernel, by decide +kernel⟩,
    by decide +kernel,
    ⟨by constructor <;> decide +kernel, by decide +kernel, by decide +kernel, by constructor <;> decide +kernel, by decide +kernel⟩,
    ⟨by constructor <;> decide +kernel, by decide +kernel, by decide +kernel, by constructor <;> decide +kernel, by decide +kernel⟩,
    ⟨by constructor <;> decide +kernel, by decide +kernel, by decide +kernel, by constructor <;> decide +kernel, by decide +kernel⟩,
    by constructor <;> decide +kernel, ⟨by constructor <;> decide +kernel, by decide +kernel⟩, by constructor <;> decide +kernel,
    by constructor <;> decide +kernel, by constructor <;> decide +kernel, ⟨by constructor <;> decide +kernel, by decide +kernel⟩⟩

/-- A register message for the offset `a` of register space. -/
def rm (op a : Nat) : TMsg := { tm 5 op with addr := (0xF00000000000 + a) / 8 }

theorem test_meets_Tether_rest : mgmtAddr (rm 0 rWEIR_CTL) = some rWEIR_CTL ∧ blkOf rWEIR_CTL = some (.weir, 0, 8) ∧ (regRow rWEIR_CTL).isSome = true ∧
    MsgFront (tt 2 2 3 none [rm 0 rWEIR_CTL]) 0 (rm 0 rWEIR_CTL) 5 0 ∧ mayReg (tt 2 2 3 none []) .comp false rWEIR_CTL = true ∧
    MsgFront (tt 2 2 3 none [rm 1 rWEIR_CTL]) 0 (rm 1 rWEIR_CTL) 5 1 ∧ mayReg (tt 2 2 3 none []) .comp true rWEIR_CTL = true ∧
    MsgFront (tt 2 2 3 none [rm 1 0x50000]) 0 (rm 1 0x50000) 5 1 ∧ mgmtAddr (rm 1 0x50000) = some 0x50000 ∧ blkOf 0x50000 = some (.fuse, 0, 0) ∧
    MsgFront (tt 2 2 3 none [rm 0 0xFFFF000]) 0 (rm 0 0xFFFF000) 5 0 ∧ blkOf 0xFFFF000 = none ∧
    MsgFront (tt 2 2 3 none [tm 5 2]) 0 (tm 5 2) 5 2 ∧ MsgFront (tt 2 2 3 none [tm 5 3]) 0 (tm 5 3) 5 3 ∧
    mayReg (tt 2 2 3 none []) (.core 0) true (rTT_MSI 0) = true ∧ (tt 2 2 3 none []).fld rTT_STAT TT_STAT_WIDTH ≠ 0 ∧
    (tt 0 0 0 none []).fld rTT_STAT TT_STAT_WIDTH = 0 ∧ mayReg m0 .comp true (rTT_CWBASE 0) = true ∧
    cwOverlap 0 (fsetB 0 TT_CWBASE_EN true) (m0.reg (rTT_CWSIZE 0)) m0 = false ∧ mayReg m0 .comp true (rTT_CWSIZE 0) = true ∧
    cwOverlap 0 (m0.reg (rTT_CWBASE 0)) 1 m0 = false ∧ mayReg m0 .comp true (rMB_CTL 0) = true ∧ mayReg m0 (.hg 0) true (rMB_CTL 0) = true :=
  ⟨by decide +kernel, by decide +kernel, by decide +kernel, by constructor <;> decide +kernel, by decide +kernel, by constructor <;> decide +kernel,
    by decide +kernel, by constructor <;> decide +kernel, by decide +kernel, by decide +kernel, by constructor <;> decide +kernel, by decide +kernel,
    by constructor <;> decide +kernel, by constructor <;> decide +kernel, by decide +kernel⟩
theorem test_tether : filterOf (after (.rdOwn 0 (tm 1 1)) (tt 2 2 3 none [tm 1 1])) line1 = some true ∧
    (after (.wrPart 0 (tm 1 6)) (tt 2 2 3 none [tm 1 6])).byte (line1 * 128) = 0x55 ∧
    (after (.ttErr 0 (tm 3 4)) (cws 5 1 [tm 3 4])).net.map (fun p => [p.op, p.dst]) = [[opWR_ACK, 0]] ∧
    subState (after (.nak 0 { fl with ack := 0 }) (tts 2 { TtSub.reset with replay := [(0, tm 1 0)], tries := 2 })) 0 = slRETRAIN := by decide +kernel
/-! The Logline and the snapshots. -/

/-- Partition 0's ring at page 8, 32 slots; STATE `st`, LOG_LAST `last`, the tables at page 8; page 9 maps frame 6; the keys are loaded. -/
def log0 (st last : Nat) (rs : List (Nat × Word)) : State :=
  { withRegs ([(rLOG_RING 0, fset (fset 0 LOG_RING_BASE 8) LOG_RING_LSIZE 5), (rLOG_STAT 0, fsetB 0 LOG_STAT_VALID true), (rLOG_LAST 0, n64 last),
        (rSN_STAT 0, fset 0 SN_STAT_STATE st), (rSN_CTL 0, fset (fsetB 0 SN_CTL_EN true) SN_CTL_N 31), (rSN_ARG 0, n64 last),
        (rSN_TBL 0 0, fset 0 SN_TBL_BASE 8), (rSN_TBL 0 1, fset 0 SN_TBL_BASE 8)] ++ rs) mem0 with
    ledger := [(5, { LEnt.free with v := true, w := true, vpn := 8 }), (6, { LEnt.free with v := true, w := true, vpn := 9, s := true })]
    anchors := [(8, 2 ^ 31 + 5), (9, 2 ^ 31 + 6)], zeroed := [5, 6] }

/-- The record of step 20 with the digest `d`, its lines in their slices. -/
def rec0 (d : Nat) (s : State) : State :=
  hold ((List.range 8).map (fr5 / 128 + 160 + ·)) (poke (fr5 + 0x5000) 1 1 (poke (fr5 + 0x5008) 1 20 (poke (fr5 + 0x53E0) 32 d s)))
def dig0 : Nat := 0x8db89441ce6f45af34a5cb68eedf367864a8101d09d4ba006358dacf08d0f7bc
def recB (d : Nat) : List Byte := [1, 0, 0, 0, 0, 0, 0, 0, 20] ++ List.replicate 983 0 ++ leBytes 32 d
def snp (x : Snap) (s : State) : State := s.setSnap 0 x

theorem test_meets_Logline : mayReg (log0 3 19 []) (.core 0) true (rLOG_COMMIT 0) = true ∧ snState (log0 0 19 []) 0 = 0 ∧ snState (log0 3 19 []) 0 ≠ 0 ∧
    20 ≠ ((log0 3 20 []).reg (rLOG_LAST 0)).toNat + 1 ∧ 20 = ((log0 3 19 []).reg (rLOG_LAST 0)).toNat + 1 ∧
    20 ≤ ((log0 3 19 []).reg (rSN_OLDSTEP 0)).toNat + (log0 3 19 []).fld (rSN_CTL 0) SN_CTL_N ∧
    ¬ 40 ≤ ((log0 3 39 []).reg (rSN_OLDSTEP 0)).toNat + (log0 3 39 []).fld (rSN_CTL 0) SN_CTL_N ∧ mirrorBehind (log0 3 19 []) 0 20 = false ∧
    mirrorBehind (log0 3 39 [(rLOG_MIRROR 0, 1)]) 0 40 = true ∧ (slotRead 0 20 m0).1 = none := by decide +kernel
theorem test_meets_Logline_read : (slotRead 0 20 (rec0 dig0 (log0 3 19 []))).1 = some (recB dig0) := by decide +kernel
theorem test_meets_Logline_read_zero : (slotRead 0 20 (rec0 0 (log0 3 19 []))).1 = some (recB 0) := by decide +kernel
theorem test_meets_Logline_record : leNat (((recB 0).drop 8).take 8) = 20 ∧ leNat ((recB 0).take 2) = 1 ∧ leNat (((recB 0).drop 2).take 1) ≤ 19 ∧
    leNat (((recB 0).drop 3).take 1) = 0 ∧ recDirty 0 (recB 0) = false ∧ recDirty 0 (recB dig0) = false ∧ (recB dig0).take 0x3E0 = (recB 0).take 0x3E0 := by
  decide +kernel
theorem test_meets_Logline_digest : sha256 ((recB 0).take 0x3E0) = leBytes 32 dig0 ∧ leBytes 32 dig0 ≠ leBytes 32 0 ∧
    (recB dig0).drop 0x3E0 = leBytes 32 dig0 ∧ (recB 0).drop 0x3E0 = leBytes 32 0 := by decide +kernel
/-- The companion window is open for writes from its base on. -/
def mir0 (x : Snap) : State := snp x (withRegs [(rLOG_MIRROR 0, 2), (rTT_STAT, fset 0 TT_STAT_WIDTH 3), (rTT_CWBASE 0, 3), (rTT_CWSIZE 0, fset 0 TT_CWSIZE_SIZE 1)]
  (rec0 dig0 (log0 3 20 [])))

theorem test_meets_Logline_mirror : ((mir0 { Snap.reset with mirC := [20] }).snap 0).mirC = [20] ∧
    ((mir0 { Snap.reset with mirC := [20], mirOut := true }).cwReqs.any fun q => q.eng == logEng 0) = false ∧
    mirrorLost (mir0 { Snap.reset with mirC := [20], mirOut := true }) (mirrorPa (mir0 Snap.reset) 0 20) = [] ∧
    ((mir0 { Snap.reset with mirC := [20] }).snap 0).mirOut = false ∧
    cwOpen (mir0 { Snap.reset with mirC := [20] }) (mirrorPa (mir0 Snap.reset) 0 20) true = true ∧
    gateAll (mirrorPa (mir0 Snap.reset) 0 20 / 128) true (mir0 { Snap.reset with mirC := [20] }) 8 = true ∧
    (slotRead 0 20 (mir0 { Snap.reset with mirC := [20] })).1.isSome = true ∧ cwOpen (log0 3 20 []) (mirrorPa (mir0 Snap.reset) 0 20) true = false ∧
    ((mir0 { Snap.reset with mirF := [20] }).snap 0).mirF = [20] ∧ (mir0 Snap.reset).flash.spare ≠ 0 ∧
    eGateV (mir0 Snap.reset) 0 false (logSlot (mir0 Snap.reset) 0 20) 1024 = true := by decide +kernel

/-- The mirror's link has room in its background budget, or has spent it. -/
def spent0 (n : Nat) : State := let s := mir0 { Snap.reset with mirF := [20] }; { s with bg := [(epLink (masterHg s), n)] }
theorem test_meets_Logline_flash : epLink (masterHg (spent0 0)) ∉ (spent0 0).bgDefer ∧
    tget 0 (spent0 0).bg (epLink (masterHg (spent0 0))) + 8 ≤ bgLimit (epLink (masterHg (spent0 0))) ∧
    (slotRead 0 20 (bgSpend (epLink (masterHg (spent0 0))) 8 (spent0 0))).1.isSome = true ∧ 20 % 256 ≠ 0 ∧
    ((spent0 (2 ^ 20)).snap 0).mirF = [20] ∧ (spent0 (2 ^ 20)).flash.spare ≠ 0 ∧ eGateV (spent0 (2 ^ 20)) 0 false (logSlot (spent0 (2 ^ 20)) 0 20) 1024 = true ∧
    bgLimit (epLink (masterHg (spent0 (2 ^ 20)))) < tget 0 (spent0 (2 ^ 20)).bg (epLink (masterHg (spent0 (2 ^ 20)))) + 8 := by decide +kernel

theorem test_meets_Snapshot_commands : mayReg (log0 0 19 []) (.core 0) true (rSN_CMD 0) = true ∧ ((log0 0 19 []).snap 0).cmds = [] ∧
    ((log0 0 19 []).snap 0).rollback = none ∧ (log0 0 19 []).flag (rSN_STAT 0) SN_STAT_BUSY = false ∧ snState (log0 0 19 []) 0 = 0 ∧
    (log0 0 19 []).flag (rSN_CTL 0) SN_CTL_EN = true ∧ (log0 0 19 []).reg (rSN_ARG 0) = (log0 0 19 []).reg (rLOG_LAST 0) ∧
    mayReg (log0 2 19 []) (.core 0) true (rSN_CMD 0) = true ∧ snState (log0 2 19 []) 0 = 2 ∧ snState (log0 3 19 []) 0 = 3 ∧
    ((log0 2 19 []).snap 0).cmds = [] ∧ (log0 2 19 []).flag (rSN_STAT 0) SN_STAT_BUSY = false ∧
    (snSet 0 1 (log0 0 19 [(rSN_STAT 0, fsetB 0 SN_STAT_BUSY true)])).flag (rSN_STAT 0) SN_STAT_BUSY = true ∧
    (∀ op ∈ [2, 3, 4, 5], snOk 0 op (snSet 0 1 (log0 0 19 [(rSN_STAT 0, fsetB 0 SN_STAT_BUSY true)])) = true) ∧
    snOk 0 1 (snp { Snap.reset with first := true } (snSet 0 1 (log0 0 19 [(rSN_STAT 0, fsetB 0 SN_STAT_BUSY true)]))) = true ∧
    snState (log0 1 19 []) 0 = 1 ∧ ((log0 1 19 []).snap 0).cmds = [] ∧ mayReg (log0 0 19 []) (.core 0) true (rSN_CTL 0) = true ∧
    31 ≤ 2 ^ (log0 0 19 []).fld (rLOG_RING 0) LOG_RING_LSIZE - 1 ∧ 2 ^ (log0 0 19 []).fld (rLOG_RING 0) LOG_RING_LSIZE ≤ 32 := by decide +kernel

theorem findFree_first {s : State} {p lo n : Nat} (h : freeFor s p lo = true) : findFree s p (fun _ => true) lo (n + 1) = some lo := by
  unfold findFree
  induction n with
  | zero => simp [firstFrame, h]
  | succ n ih => rw [firstFrame, ih]

/-- A first write to page 9 (frame 6) is being copied. -/
def copying (c : SnCopy) : State := snp { Snap.reset with copies := [c] } (log0 3 19 [])
def cpy (d : Option Nat) (st : Bool) (t : Option Nat) : SnCopy := { frame := 6, copy := d, started := st, tbl := t }

theorem test_meets_Snapshot_copy : ((copying (cpy none false none)).snap 0).copies = [cpy none false none] ∧ (copying (cpy none false none)).slices = [] ∧
    (copying (cpy none false none)).lcs = [] ∧ AllQuiet (copying (cpy (some 7) true none)) ∧ (copying (cpy (some 7) true none)).lgops = [] ∧
    (copying (cpy (some 7) true none)).lgWait = [] ∧ memWf (copying (cpy (some 7) true none)) = true ∧
    copyGate (copying (cpy (some 7) true none)) 6 7 frameLines = true ∧ copyBad (copying (cpy (some 7) true none)) 6 0 frameLines = false ∧
    AllQuiet (copying (cpy (some 7) true (some 1))) ∧ (copying (cpy (some 7) true (some 1))).lgops = [] ∧
    (copying (cpy (some 7) true (some 1))).lgWait = [] ∧ memWf (copying (cpy (some 7) true (some 1))) = true ∧
    copyGate (copying (cpy (some 7) true (some 1))) 6 7 frameLines = true ∧ copyBad (copying (cpy (some 7) true (some 1))) 6 0 frameLines = false ∧
    eGateV (copying (cpy (some 7) true (some 1))) 0 true (recVa (copying (cpy (some 7) true (some 1))) 0 1 (snCount (copying (cpy (some 7) true (some 1))) 0 1)) 16 = true ∧
    AllQuiet (copying (cpy none true (some 1))) ∧ memWf (copying (cpy none true (some 1))) = true ∧
    eGateV (copying (cpy none true (some 1))) 0 true (recVa (copying (cpy none true (some 1))) 0 1 (snCount (copying (cpy none true (some 1))) 0 1)) 16 = true :=
  ⟨rfl, rfl, rfl, ⟨by constructor <;> decide +kernel, rfl⟩, rfl, rfl, by decide +kernel,
    copy_open frame_lines (by decide) (by decide) (by decide +kernel) (by decide +kernel), copy_good frame_lines (by decide) (by decide +kernel),
    ⟨by constructor <;> decide +kernel, rfl⟩, rfl, rfl, by decide +kernel,
    copy_open frame_lines (by decide) (by decide) (by decide +kernel) (by decide +kernel), copy_good frame_lines (by decide) (by decide +kernel),
    by decide +kernel, ⟨by constructor <;> decide +kernel, rfl⟩, by decide +kernel⟩

/-- Record 0 of OLD: page 9, source frame 6, copy frame 7. -/
def cr0 : CopyRec := { v := true, bad := false, lp := false, vpn := 9, src := 6, copy := 7 }
def copied : State :=
  let s := log0 3 19 [(rSN_COUNT 0, fset 0 SN_COUNT_OLD 1), (rSN_CTL 0, fsetB 0 SN_CTL_MIGEN true)]
  poke fr5 16 (leNat cr0.bytes) ((s.setLe 7 { s.le 7 with rsv := true }).setLe 6 { s.le 6 with s := false }) |> fun s => { s with zeroed := [5, 6, 7] }
def rolling0 (n : Bool) : State := snp { Snap.reset with rollback := some n } copied
def rolling1 (n : Bool) (st : Nat) : State := snp { Snap.reset with rollback := some n } (log0 st 19 [])

theorem test_meets_Snapshot_migrate : copied.flag (rSN_CTL 0) SN_CTL_MIGEN = true ∧ (copied.le 7).rsv = true ∧ (copied.le 7).chip = false ∧
    (copied.le 7).owner = 0 ∧ findRec copied 0 7 = some (0, 0, cr0) ∧ findFree copied 0 (fun _ => true) lpBase (nFrames - lpBase) = some lpBase ∧
    eGateV copied 0 true (recVa copied 0 0 0) 16 = true ∧ copyGate copied 7 lpBase frameLines = true ∧ copyBad copied 7 0 frameLines = false ∧
    memWf copied = true ∧ lpBase ≠ 7 ∧ place copied 0 true .store (recVa copied 0 0 0) = .mem fr5 :=
  ⟨by decide +kernel, by decide +kernel, by decide +kernel, by decide +kernel, by decide +kernel, findFree_first (by decide +kernel),
    by decide +kernel, copy_open frame_lines (by decide) (by decide) (by decide +kernel) (by decide +kernel),
    copy_good frame_lines (by decide) (by decide +kernel), by decide +kernel⟩

theorem test_meets_Snapshot_rollback : ((rolling0 false).snap 0).rollback = some false ∧ ((rolling0 false).snap 0).cmds = [] ∧ AllQuiet (rolling0 false) ∧
    rollPlan (rolling0 false) 0 false = [(9, 7, false)] ∧ walk (rolling0 false) 0 9 = .hit 6 ∧ snState (rolling0 false) 0 ≠ 2 ∧ memWf (rolling0 false) = true ∧
    copyGate (rolling0 false) 7 6 frameLines = true ∧ copyBad (rolling0 false) 7 0 frameLines = false ∧
    AllQuiet (rolling1 true 2) ∧ rollPlan (rolling1 true 2) 0 true = [] ∧ AllQuiet (rolling1 false 2) ∧ rollPlan (rolling1 false 2) 0 false = [] ∧
    snState (rolling1 false 2) 0 = 2 :=
  ⟨rfl, rfl, ⟨by constructor <;> decide +kernel, rfl⟩, by decide +kernel, by decide +kernel, by decide +kernel, by decide +kernel,
    copy_open frame_lines (by decide) (by decide) (by decide +kernel) (by decide +kernel), copy_good frame_lines (by decide) (by decide +kernel),
    ⟨by constructor <;> decide +kernel, rfl⟩, by decide +kernel, ⟨by constructor <;> decide +kernel, rfl⟩, by decide +kernel⟩
/-- The gate of the plan is that of its page. -/
theorem test_meets_Snapshot_rollGate : rollGate (rolling0 false) 0 [(9, 7, false)] = true := by
  have h : walk (rolling0 false) 0 9 = .hit 6 := by decide +kernel
  simp only [rollGate, List.all_cons, List.all_nil, Bool.and_true]
  rw [h]; exact copy_open frame_lines (by decide) (by decide) (by decide +kernel) (by decide +kernel)

/-- A record is refused out of order and by NO SNAPSHOT; a good one is committed. -/
theorem test_logline : (after (.logCommit (.core 0) 0 21) (log0 3 19 [])).fld (rLOG_STAT 0) LOG_STAT_CAUSE = 1 ∧
    (after (.logCommit (.core 0) 0 20) (log0 0 19 [])).fld (rLOG_STAT 0) LOG_STAT_CAUSE = 6 ∧
    (after (.logCommit (.core 0) 0 20) (log0 0 19 [])).fld (rLOG_STAT 0) LOG_STAT_REFUSED = 1 ∧
    snState (after (.snTake (.core 0) 0) (log0 0 19 [])) 0 = 1 ∧ snState (after (.snapshotSweepEnd 0) (log0 1 19 [])) 0 = 2 := by decide +kernel
/-! Stored data and the chip's health. -/

/-- Dredge walks stack 0 and the core memories; the background test and soft repair are enabled. -/
def drg0 : State := withRegs [(rSC_DRG_CTL 0, fsetB 0 SC_DRG_CTL_EN true), (rEL_CTL, fsetB 0 EL_CTL_CM_DREDGE true),
  (rEL_REPAIR, fsetB (fsetB 0 EL_REPAIR_TBT true) EL_REPAIR_SOFT true)] mem0
def drgL : Nat := lineAt mem0 0x500 0 / 128
def heldD (d : Bool) (cs : List (Nat × Nat × Bool × Bool)) : State :=
  let s := hold [drgL] drg0
  { s with corr := cs, slices := s.slices.map fun x => (x.1, { x.2 with lines := x.2.lines.map fun l => { l with dirty := d } }) }

theorem test_meets_StoredData : drgOn drg0 0x500 = true ∧ drgOn mem0 0x500 = false ∧ (tget (0, 0) drg0.dredge 0x500).1 + 1 < memLines 0x500 ∧
    bankRetired drg0 (drgL * 128) = false ∧ unitIdle drg0 0x500 = true ∧ 0x500 ∉ drg0.bgDefer ∧ (drg0.recal.any fun x => x.1 == 0x500) = false ∧
    bgLimit 0x500 < tget 0 drg0.bg 0x500 + 20972 ∧ tget 0 drg0.bg 0x500 + 20971 ≤ bgLimit 0x500 ∧ (∀ j, j < 32 → drgL * 32 + j ∉ drg0.badw) ∧
    resident drg0 drgL = none ∧ isHbm (drgL * 128) = true ∧ (resident (heldD false []) drgL).isSome = true ∧ unitIdle (heldD false []) 0x500 = true ∧
    drgOn (heldD false []) 0x500 = true ∧ drgOn drg0 0 = true ∧ 0 * 16 < spadSize drg0 (drg0.part 0) ∧ (0, 0 / 256) ∉ drg0.tbt ∧
    (∀ j, j < 4 → eccUnc (tget 0 (drg0.core 0).flips (4 * 0 + j)) = false) ∧ ((resident (heldD true []) drgL).any fun l => l.dirty) = true ∧
    ((resident (heldD false []) drgL).all fun l => !l.dirty) = true ∧ (heldD true [(0x500, drgL, false, false)]).corr = (0x500, drgL, false, false) :: [] ∧
    (∀ x ∈ drg0.recal, x.1 ≠ 0x500) ∧ (drg0.hgx (unitIsland 0x500 % 2)).swap = false ∧
    tget 0 (heldD false [(0x500, drgL, false, false)]).bg 0x500 + lineCycles 0x500 ≤ bgLimit 0x500 ∧
    bgLimit 0x500 < tget 0 { heldD false [(0x500, drgL, false, false)] with bg := [(0x500, bgLimit 0x500)] }.bg 0x500 + lineCycles 0x500 := by decide +kernel
theorem test_meets_StoredData_quiet : AllQuiet { drg0 with recal := [(0x500, 0)] } := ⟨by constructor <;> decide +kernel, rfl⟩
theorem test_meets_StoredData_repair : drg0.flag rEL_REPAIR EL_REPAIR_TBT = true ∧ coreIdOk 0 = true ∧ (∀ x ∈ drg0.tbt, x.1 ≠ 0) ∧
    regionWanted drg0 0x400 (tget 0 drg0.tbtNext 0x400) = false ∧ mem0.flag rEL_REPAIR EL_REPAIR_TBT = false ∧ AllQuiet { drg0 with tbt := [(0, 0)] } ∧
    drg0.flag rEL_REPAIR EL_REPAIR_SOFT = true ∧ tget 0 drg0.spares (0 * 65536 + 5) < 4 ∧ mayReg drg0 .comp true (rSC_BRET 15 3) = true :=
  ⟨by decide +kernel, by decide, by decide +kernel, by decide +kernel, by decide +kernel, ⟨by constructor <;> decide +kernel, rfl⟩, by decide +kernel⟩
/-- A corrected word's correction is sent and then counted; a dirty line drops it; a test repairs a column. -/
theorem test_dredge : (after (.dredgeScrub 0x500 16 7 false) drg0).corr = [(0x500, drgL, false, false)] ∧
    (after (.dredgeScrub 0x500 16 0 true) drg0).badw.length = 32 ∧
    (after (.dredgeCorrection 0x500 drgL) (heldD false [(0x500, drgL, false, false)])).fld (rSC_DRG_CNT 0) SC_DRG_CNT_CE = 1 ∧
    (after (.dredgeCorrection 0x500 drgL) (heldD true [(0x500, drgL, false, false)])).fld (rSC_DRG_CNT 0) SC_DRG_CNT_UE = 1 ∧
    (after (.recalStart 0x500 4096) drg0).recal = [(0x500, 0)] ∧ (after (.tbtRegionStart 0x400) drg0).tbt = [(0x400, 0)] := by decide +kernel
/-! The Cleat. -/

/-- The modulus 2^3071 + 2291, a prime, most significant byte first; its private exponent is that of the prime, so that signatures of it can be
written out.  The signature numbers below were computed from it outside the model by PKCS #1 v2.2, with the salt 0 to 31. -/
def mod0 : List Byte := beBytesOf 384 (2 ^ 3071 + 2291)
/-- A signed object of root 0 for the device of identity 0: SERIAL 1, no time window. -/
def obj0 (typ : Nat) (body : List Byte) (sig : Nat) : List Byte :=
  leBytes 4 0x4F534753 ++ leBytes 1 typ ++ leBytes 1 0 ++ leBytes 2 body.length ++ List.replicate 32 0 ++ leBytes 8 1 ++ leBytes 8 0 ++
    leBytes 8 0xFFFFFFFFFF ++ mod0 ++ body ++ beBytesOf 384 sig
def licSig : Nat :=
  0x10792179be14f6f9dbccd7f0b4fb0eb42bfcaff9a033d319ecf5b7fb555aa30b751e5c8f37507952fdcb3ced7525db4891ed97e2f6039cd080a797818ca99a69c4f550a1e69239e946f52a3044f869eb134c2fe6809ad87336c6572d3045a581d7b6677728ea3cfbe4934e193836303c4a2afad6640f7439458ba7fdbfac7e08c8a58de41135fbf0cb1bb32193d83a18954abe8c35b8f7e63cd3efc12565b567e9580879ef9c244a8ef34edb83eb69060f9162e3bd8c0183ec72e003fd286c8f332326e44c99dc1041264aff69d7f242be980ddc33a61c18ba5fe8d449153a3072ec8f15315bc474eb2690560952de21adbb9321f9b22a5997582b08015439d6cba18e5da47f08bf1989f4cc1e7b4d4dabd77625604459be1c8117ae8ddd6c6cf91e1f230b4ccf21422acbcad7b78d41170000ed34a57ce926b9f88239d23b314d060a7bd6fa5f303c7d4bb0a3752a768ac5a2a58335831b5749bcab8c3099764ec769dc11c24a027855dba8995daef272614fc30c96522b6244d4c44489da0b
def lic0 : List Byte := obj0 1 (leBytes 2 512 ++ [4, 3] ++ List.replicate 12 0) licSig

/-- The bytes as the staging area's registers from `i` on, eight to a register. -/
def words (i : Nat) : List Byte → Tab Word
  | a :: b :: c :: d :: e :: f :: g :: h :: r => (rCK_STAGING i, n64 (leNat [a, b, c, d, e, f, g, h])) :: words (i + 1) r
  | _ => []

/-- Life-cycle state `lc`, root 0 fused, the identity present, `b` in the staging area. -/
def cleat0 (lc : Nat) (b : List Byte) (rs : List (Nat × Word)) : State :=
  let s := setReg256 (rFU_ROOTHASH 0 0) (leBytes 32 0x75b7cbbe6f61f8fea04325a15ae6ffff78054c3b71a8a8c94786f0f206840e81)
    (withRegs ([(rFU_LC, fset 0 FU_LC_STATE lc), (rFU_ROOT, 1), (rCK_STAT, fsetB 0 CK_STAT_ID_OK true)] ++ rs) State.reset)
  { s with regs := words 0 b ++ s.regs }

def unl0 : List Byte := obj0 3 (3 :: List.replicate 47 0)
  0x261f7283521ffe10f5a46e3806b30d70e9154c081a680a810fedb18f98ad84aa46dc997880d26797eca1ef799ce62ea769f73af75eae2099a4f909a32d75acc412af2732635f90b6dacf4e60b035717bc8325ec819e50e51fe1e71935237338473bef9742ee0671ab879c712b54596001a2c6caa01a06641eb571bf8723f4735ed804098f926099a301970a67c0a93f94106115783f533cfd60b22ee6dd374c60c5984c54f0f1e99bbdaed5ca27db73283605e8d489ad272d5cff80c733f181735d62eeb2fae24ed503dd9986262b12c6bd74fd33705c6c1d59e52f61197de51dc9a3197e07d254fb6513f90e4acea4741e857eafc1a7b5ada4297ad3100cd31bc41691440505889ccc47e0f95c7a0e9751bdd0bec6f8ab5c1f435cd610c03c5ce159cd58602a97340460969cddb32aaad6692ac5089f5e338c49fe8630ef494493dbc6e1345c3ecd1a01a2fb92d63195fa12c4191e73ea6aea9b5e2d9554524ff93ccf66c41b0dad0a110b4bcdfbd2d81e260eea321f0255ff7a9e31bd4cc3
def tra0 : List Byte := obj0 4 (3 :: (List.replicate 15 0 ++ List.replicate 32 7))
  0x2209fdb0b73dd2e72196e588eced4ca843de25ff80d28e7ce3b010b2fd89339a4bfc4d52623d448c9d8be9ca988370867d1b1416176cc19945a2ef787b3ecceb43763c51da8604494f13b2748d83283d663ad1de0f8f55aa22c7c95b24265e6bff42ff62c636122ca2d59b868ec3955d1aed4021f10ca54b508a9f4a0afcb9b7ab7832d7a1ed9e53692906f0fcec7dcb0e20dd7e8a69f4184b6036ea6ef6f005a266bb8f43c76d69ac94f2169a260dd8f9a933891ad30eecb6c231c34d7cb89239ce96362a6cd0c1374d8c9af93872b9671e9eda8d57981c6588536e26acf9dffb9733744861a4040aad8192a2e68b619b79a46309e5654356981a700ca3f8c3b0be730bac27e5e8fa72757748aa9ef67287eef81b8d47d3c2c84e2b9dd5ca1b265df5c1d058a297aedf224372e1041aab513566b1208bfb0764b350b3302437f4784535f601359ac7148a5e8b68671989cb10ce1593c92ed4494919cf427b7e54edaa9a96b0dbab7930aeab9298d3d79be4d89e949a722aefedf7a5c39d55da
def blob0 : List Byte := obj0 2 (8 :: 1 :: List.replicate 398 0)
  0x4ee1ac94ce6013521e220cbc7257c47c3610a74742f09ed61ca90fa6ac2fe62738b48e235711feaee1af47f19dbc485ef8dd22915f623758b2362fca68ae3608da635cb3a89ab9cd1b934843aa83db5b193f37d9d493de87aeeaf6c9a9e42f96598fc091b17c91b616278e9504b9f6f08e425453c15a846b6770b2a676f725f66d3e8aea2e19f7029d6af85dc9d481225015c62b9413a400b75d701fb94533ba0ed4541c6a8f142e7c89d393fdbbc77add34030ceae565216431c11780647f990b3f7e54b2e98b613fec69967c1141fc4cc419b6e05e785ce25153b2174a21f1616bf33f2778892476f72bf0c6a8034d3a74414a99c39177083d608d62ab724c9fa3fcdb8320e13a58e6d05d4a97a346518ff3a16e5221fc376ecd0899c26c8f93239fb521470eede34785bd876b38233a3d48d6c36baa6078e0ca1add847a53a713bdb41b93f85d12ef45d99080634f6f7591cb16e679e36ac9a584c66c716c9b6abf67016c07b10af20dda6812610fb81a4b256737e3c2df01cca11b3dfa57
/-- A header of a core image of one byte, SVN 5, for every life-cycle state and every device. -/
def hdrI : List Byte := leBytes 4 0x4D494753 ++ [1, 0, 5, 0x1F] ++ leBytes 8 1 ++ List.replicate 32 0 ++
  leBytes 32 0xc14f495f09c1e1bb7ecc1b704c0966c0267580e25eb69842377fb1ebc0884868 ++ mod0 ++
  beBytesOf 384 0x3d91302c2261e948e7b2cd00a31cf7b1f2e26225cce08b30ee60cf20a4b5e2b62704c22eed52b6c7820290caef1191ce475800945f05e1a8ccc3881b7545707a05a93ba1d5558dbfe4f90683420005ba250491ea3bac0e627c3113d8f2fc25011dfaf9791cc77bac9cf1cbb70bb151bcbe6bfccd2697f85e465adcf35583a194fc075b2a98fc2d32f3d409c426f4e88db6407ec2898eadcd649b5edbb20565ad684a5d370dc345661bb3ddd5b381244dcef577f1ae57a125bb259298672d522665ee42cd340518cab31a91695efb80ef6d14e8cc3e052021817c2adf8c15ee93904ad5bca6ed4a1b5f850183a34d179c7eaaf94ca433c0904e9dd06d920faf41881ecb3398061f45adfcba15d747ae45254bf4a4b9739833f71a92c5c016df7cfb0d52f1554d070d39b4a6d4f4f0fb31e7cae44cff033b4dce53bbabcb495d15a4f913d2baa99dde1345246a90f3e034957f7c1a4a09c2359cc76a3cb86f2ba38357afd3136a2bf263b20370f7634f03bb92d84afdab4c920e85931e5dda4594 ++ List.replicate 176 0
def run0 (op arg : Nat) (s : State) : State := { s with cleat := { s.cleat with cmd := some (op, arg) } }

theorem test_meets_Trust_licence : objCheck (calRead (cleat0 2 lic0 [])) (objOf (stagedObj (cleat0 2 lic0 []) 0)) = 0 := by decide +kernel
theorem test_meets_Trust_unlock : objCheck (calRead (cleat0 2 unl0 [])) (objOf (stagedObj (cleat0 2 unl0 []) 0)) = 0 := by decide +kernel
theorem test_meets_Trust_transition : transCheck 3 (calRead (cleat0 2 tra0 [])) = 0 := by decide +kernel
/-- Whether the wrapped key of a blob decrypts is a free value. -/
theorem test_meets_Trust_blob (h : Config.oaepOk (lcState (calRead (cleat0 2 blob0 []))) (sub (objOf (stagedObj (cleat0 2 blob0 []) 0)).body 16 384) = true) :
    blobCheck (calRead (cleat0 2 blob0 [])) (stagedObj (cleat0 2 blob0 []) 0) = 0 := by
  have g : objCheck (calRead (cleat0 2 blob0 [])) (objOf (stagedObj (cleat0 2 blob0 []) 0)) = 0 := by decide +kernel
  simp only [blobCheck, g, ne_eq, not_true, if_false, h, if_true]
theorem cells_none {k : Nat} : ∀ {bs : List Byte} {a : Nat}, k < a → tget? k ((cellsFrom a bs).filter fun x => x.2 != 0) = none := by
  intro bs; induction bs with
  | nil => intro a _; rfl
  | cons b r ih =>
    intro a h
    simp only [cellsFrom, List.filter_cons]
    split
    · rw [tget?, if_neg (by omega)]; exact ih (by omega)
    · exact ih (by omega)

theorem cells_get {k : Nat} : ∀ {bs : List Byte} {a : Nat}, k < bs.length →
    tget? (a + k) ((cellsFrom a bs).filter fun x => x.2 != 0) = if bs.getD k 0 = 0 then none else some (bs.getD k 0) := by
  induction k with
  | zero =>
    intro bs a h
    match bs, h with
    | b :: r, _ =>
      simp only [cellsFrom, List.filter_cons, List.getD_cons_zero, Nat.add_zero]
      by_cases z : b = 0
      · subst z; simpa using cells_none (by omega)
      · have z' : ¬ b = 0#8 := z
        simp [z', tget?]
  | succ k ih =>
    intro bs a h
    match bs, h with
    | b :: r, h =>
      simp only [cellsFrom, List.filter_cons, List.getD_cons_succ]
      have e := ih (bs := r) (a := a + 1) (by simpa using h)
      rw [show a + 1 + k = a + (k + 1) by omega] at e
      split
      · rw [tget?, if_neg (by omega)]; exact e
      · exact e

/-- Memory that holds the bytes `bs` from `a` on, zeros not listed, reads as those bytes. -/
theorem rd_cells {s : State} {a : Nat} {bs : List Byte} (hf : s.flips = []) (hm : s.mem = (cellsFrom a bs).filter fun x => x.2 != 0)
    (hz : ∀ i, i < bs.length → lhas (frameOf (a + i)) s.zeroed = true) : ∀ n k, k + n ≤ bs.length → s.rdBytes (a + k) n = (bs.drop k).take n := by
  have el : eccLeft 0 = 0 := by decide +kernel
  intro n; induction n with
  | zero => intro k _; simp [State.rdBytes]
  | succ n ih =>
    intro k h
    have b : s.rdByte (a + k) = bs.getD k 0 := by
      rw [State.rdByte, State.byte, hm, cells_get (by omega), hf, show tget 0 ([] : Tab Nat) ((a + k) / 4) = 0 from rfl, el]
      have h0 := hz k (by omega)
      generalize bs.getD k 0 = x
      by_cases z : x = 0
      · subst z; simp [h0]
      · rw [if_neg z]; simp
    have e := ih (k + 1) (by omega)
    rw [State.rdBytes, b, show a + k + 1 = a + (k + 1) by omega, e]
    have hk : k < bs.length := by omega
    rw [List.drop_eq_getElem_cons hk, List.take_succ_cons]; simp [hk]

/-- The image in chip frame 8, and CK_ADDR at it. -/
def fr8 : Nat := 8 * 2 ^ 21
def img0 : State :=
  { cleat0 2 lic0 [(rCK_ADDR, n64 fr8), (rCK_KEYS, 0x100)] with
    ledger := [(8, { LEnt.free with rsv := true, chip := true, owner := 8 })], zeroed := [8]
    mem := (cellsFrom fr8 (hdrI ++ [0x2A])).filter fun x => x.2 != 0 }

theorem whole_bad {s : State} {f p pa n : Nat} (h : wholeB s f p = true) (e : ∀ w, pa / 4 ≤ w → w ≤ (pa + n - 1) / 4 → frameOf (4 * w) = f) :
    badIn s p pa n = none := by
  have k : ∀ m, pa / 4 + m ≤ (pa + n - 1) / 4 + 1 → firstBad s p (pa / 4) m = none := by
    intro m; induction m with
    | zero => intro _; rfl
    | succ m ih => intro hm; rw [firstBad, ih (by omega)]; simp [whole_word h (e (pa / 4 + m) (by omega) (by omega))]
  rw [badIn]; split
  · rfl
  · exact k _ (by omega)

theorem img_read {s : State} {bs : List Byte} (hw : wholeB s 8 8 = true) (hz : lhas 8 s.zeroed = true) (hc : (s.le 8).chip = true) (hf : s.flips = [])
    (hm : s.mem = (cellsFrom fr8 bs).filter fun x => x.2 != 0) (hl : bs.length = 1025) : chipBytes s fr8 1024 = some (bs.take 1024) := by
  have c : (isHbm (fr8 + 1024 - 1) && (List.range (lineSpan fr8 1024)).all (fun i => (s.le (frameOf ((fr8 / 128 + i) * 128))).chip) &&
      (badIn s 8 fr8 1024).isNone) = true := by
    have b : badIn s 8 fr8 1024 = none := whole_bad (f := 8) hw fun w h1 h2 => by
      simp only [fr8] at h1 h2
      rw [frameOf, isHbm, if_pos (decide_eq_true (by omega))]; omega
    have a : (List.range (lineSpan fr8 1024)).all (fun i => (s.le (frameOf ((fr8 / 128 + i) * 128))).chip) = true := List.all_eq_true.mpr fun i hi => by
      have n : lineSpan fr8 1024 = 8 := by decide +kernel
      have : i < 8 := by simpa [n] using hi
      have : frameOf ((fr8 / 128 + i) * 128) = 8 := by simp only [fr8]; rw [frameOf, isHbm, if_pos (decide_eq_true (by omega))]; omega
      rw [this, hc]
    rw [b, a]; decide +kernel
  have z : ∀ i, i < bs.length → lhas (frameOf (fr8 + i)) s.zeroed = true := fun i hi => by
    have : frameOf (fr8 + i) = 8 := by rw [frameOf, isHbm, if_pos (decide_eq_true (by simp only [fr8]; omega))]; simp only [fr8]; omega
    rw [this, hz]
  have r := rd_cells hf hm z 1024 0 (by omega)
  rw [chipBytes, if_pos c, show fr8 = fr8 + 0 from rfl, r]; rfl

theorem test_meets_Trust_image_read : img0.fld rCK_ADDR CK_ADDR_ADDR = fr8 ∧ chipBytes img0 fr8 1024 = some hdrI ∧
    chipBytes img0 (fr8 + 1024) (min (imgLen hdrI) (2 ^ 28)) = some [0x2A] := by
  refine ⟨by decide +kernel, ?_, by decide +kernel⟩
  have t : (hdrI ++ [0x2A]).take 1024 = hdrI := by decide +kernel
  rw [img_read (by decide +kernel) (by decide +kernel) (by decide +kernel) rfl rfl (by decide +kernel), t]
/-- An empty frame holds no image. -/
theorem test_meets_Trust_image_none : chipBytes { img0 with mem := [] } fr8 1024 = some ((List.replicate 1025 0).take 1024) ∧
    imageCheck { img0 with mem := [] } ((List.replicate 1025 0).take 1024) none ≠ 0 :=
  ⟨img_read (by decide +kernel) (by decide +kernel) (by decide +kernel) rfl (by decide +kernel) (by decide +kernel), by decide +kernel⟩
theorem test_meets_Trust_image : imageCheck img0 hdrI (some [0x2A]) = 0 := by decide +kernel

theorem test_meets_Trust_rest : mayReg m0 .comp true rCK_CMD = true ∧ m0.flag rCK_STAT CK_STAT_BUSY = false ∧ m0.cleat.cmd = none ∧
    lcState (cleat0 5 [] []) = 5 ∧ lcState (cleat0 2 [] []) ≠ 5 ∧ chipBytes (cleat0 2 [] []) 0 1024 = none ∧
    tget? 1 m0.cleat.svn = none ∧ tget? 1 ({ m0 with cleat := { m0.cleat with svn := [(1, 5)] } } : State).cleat.svn = some 5 ∧
    (objOf (stagedObj (cleat0 2 [] []) 0)).typ = 0 ∧ (objOf (stagedObj (cleat0 4 (lic0.take 8) []) 0)).typ = 1 ∧
    objCheck (calRead (cleat0 1 (lic0.take 8) [])) (objOf (stagedObj (cleat0 1 (lic0.take 8) []) 0)) ≠ 0 ∧ (cleat0 2 lic0 []).cleat.lics.length < 8 ∧
    (objOf (stagedObj (cleat0 4 (blob0.take 8) []) 0)).typ = 2 ∧ blobCheck (calRead (cleat0 4 (blob0.take 8) [])) (stagedObj (cleat0 4 (blob0.take 8) []) 0) ≠ 0 ∧
    (objOf (stagedObj (cleat0 2 blob0 []) 0)).typ = 2 ∧ hwState (cleat0 2 [] []) 0 = hwDOWN ∧ lcState m0 < 2 ∧
    noId (withRegs [(rFU_LC, fset 0 FU_LC_STATE 2)] m0) = true ∧ noId (cleat0 2 [] []) = false ∧ 2 ≤ lcState (cleat0 2 [] []) ∧
    m0.fld (rPT_STAT 0) PT_STAT_STATE = 0 ∧ (part0 3).fld (rPT_STAT 0) PT_STAT_STATE ≠ 0 ∧ transCheck 4 (calRead m0) ≠ 0 ∧ transCheck 1 (calRead (cleat0 0 [] [])) = 0 ∧
    transCheck 5 (calRead (cleat0 2 [] [])) = 0 ∧ (objOf (stagedObj (cleat0 2 unl0 []) 0)).typ = 3 ∧
    (objOf (stagedObj (cleat0 4 (unl0.take 8) []) 0)).typ = 3 ∧ objCheck (calRead (cleat0 4 (unl0.take 8) [])) (objOf (stagedObj (cleat0 4 (unl0.take 8) []) 0)) ≠ 0 ∧
    powered m0 = true ∧ (run0 1 0 m0).cleat.cmd.isSome = true ∧ ({ m0 with boot := 14 } : State).boot ≠ 1 := by decide +kernel

/-- The effective licence has serial 1 and ends at second `na`; the calendar stands at 100. -/
def licd (na : Nat) : State :=
  let s := withRegs [(rCK_LIC, 1), (rCAL_TIME, fset 0 CAL_TIME_SEC 100), (rCAL_CTL, fsetB 0 CAL_CTL_VALID true)] m0
  { s with cleat := { s.cleat with lics := [{ serial := 1, notBefore := 0, notAfter := na, cores := 512, dims := 4, feat := 3, obj := [] }] } }

theorem test_meets_Trust_time : ((licd 100).cleat.lics.find? fun l => n64 l.serial == (licd 100).reg rCK_LIC) = (licd 100).cleat.lics.head? ∧
    (licd 100).reg rCK_LIC ≠ 0 ∧ 100 ≤ calSec (licd 100) ∧ (licd 100).flag rCAL_CTL CAL_CTL_VALID = true ∧ calSec (licd 101) < 101 ∧
    ((licd 101).cleat.lics.find? fun l => n64 l.serial == (licd 101).reg rCK_LIC) = (licd 101).cleat.lics.head? ∧
    4 * 7 + 2 * 1 + 1 ∉ m0.flash.markOut ∧ tget 0 m0.flash.marks (4 * 7 + 2 * 1 + 1) ≤ markCounter m0 7 1 1 + 2 ^ 31 ∧
    (markCounter m0 0 0 0 + 2 ^ 31 < tget 0 ({ m0 with flash := { m0.flash with marks := [(0, 2 ^ 31 + 1)] } } : State).flash.marks 0) ∧
    RingQuiet { m0 with flash := { m0.flash with markOut := [0] } } :=
  ⟨by decide +kernel, by decide +kernel, by decide +kernel, by decide +kernel, by decide +kernel, by decide +kernel, by decide +kernel,
    by decide +kernel, by decide +kernel, by constructor <;> decide +kernel⟩

/-- SHA-256 of "abc" (the standard's own example). -/
theorem test_sha : sha256 [0x61, 0x62, 0x63] = leBytes 32 0xad1500f261ff10b49c7a1796a36103b02322ae5dde404141eacf018fbf1678ba := by decide +kernel
theorem test_trust : (after .ckCmdDone (run0 1 0 (cleat0 2 [] []))).fld rCK_STAT CK_STAT_RESULT = 11 ∧
    (after .ckCmdDone (run0 2 1 ({ m0 with cleat := { m0.cleat with svn := [(1, 5)] } } : State))).fld rFU_SVN FU_SVN_CORE = 5 ∧
    (after .ckCmdDone (run0 5 0 mem0)).fld rCK_KEYS CK_KEYS_MEM = 1 ∧ (after .ckCmdDone (run0 5 0 mem0)).memEpoch = mem0.memEpoch + 1 ∧
    (after .licenceExpiry (licd 100)).flag rCK_STAT CK_STAT_LIC_EXP = true ∧ (after (.tamper 5) m0).fld rCK_TAMPER CK_TAMPER_CAUSE = 32 := by decide +kernel
/-! Supplies, sensors and pins. -/

def brd (f : Board → Board) : State := { m0 with board := f m0.board }

theorem test_meets_PowerAndPins : (brd fun b => { b with vin := false }).board.vin = false ∧ m0.board.vin = true ∧
    (brd fun b => { b with aux := false }).board.aux = false ∧ m0.board.aux = true ∧ (brd fun b => { b with vin := false }).board.aux = true ∧
    powered m0 = true ∧ (brd fun b => { b with calLoad := true }).board.calLoad = true ∧ m0.board.calLoad = false ∧ m0.board.calN < 1048448 ∧
    0 ≤ sext 8 (m0.fld rCAL_CTL CAL_CTL_TRIM) ∧ (brd fun b => { b with calN := 1048575 }).board.calN = 1048575 ∧
    sext 8 ((withRegs [(rCAL_CTL, fset 0 CAL_CTL_TRIM 255)] m0).fld rCAL_CTL CAL_CTL_TRIM) < 0 ∧ mayReg m0 .comp true rCAL_CTL = true ∧
    mayReg m0 (.core 0) true rCAL_CTL = false ∧ mayReg m0 .comp true rTHR_CTL = true ∧ mayReg m0 (.core 0) true rTHR_CTL = false ∧
    fget (fset (fset 0 THR_CTL_CAP_W 1200) THR_CTL_MAXLVL 8) THR_CTL_CAP_W ≤ 1200 ∧ fget (fset (fset 0 THR_CTL_CAP_W 1200) THR_CTL_MAXLVL 8) THR_CTL_MAXLVL ≤ 8 ∧
    (-1024 * (32768 * 1) : Int) ≤ 1104 ∧ (1104 : Int) < 1024 * (32768 * 1) ∧ 0 ≤ ofLin11 0x0A28 ∧ ofLin11 0x0A28 ≤ 1200 ∧ 1200 < ofLin11 0x13FF ∧
    ofLin11 0x0400 < 0 ∧ (brd fun b => { b with alert := true }).board.alert = true ∧ m0.board.alert = false := by decide +kernel
/-- The Canal links have spent their background budget. -/
def telem0 : State := { m0 with bg := [(epLink 0, bgLimit (epLink 0) + 1)] }
/-- What an update occupies is a free value that a window's budget covers. -/
theorem test_meets_PowerAndPins_telemetry : powered m0 = true ∧ (∀ h, h < 2 → tget 0 m0.bg (epLink h) + telemCost ≤ bgLimit (epLink h)) ∧
    (∃ h, h < 2 ∧ bgLimit (epLink h) < tget 0 telem0.bg (epLink h) + telemCost) ∧ powered (brd fun b => { b with vin := false }) = false := by
  have c : telemCost ≤ 10485 := Nat.min_le_right ..
  have l : ∀ h, h < 2 → tget 0 m0.bg (epLink h) + 10485 ≤ bgLimit (epLink h) := by decide +kernel
  have e : tget 0 telem0.bg (epLink 0) = bgLimit (epLink 0) + 1 := by decide +kernel
  exact ⟨by decide +kernel, fun h k => Nat.le_trans (Nat.add_le_add_left c _) (l h k), ⟨0, by decide, by omega⟩, by decide +kernel⟩
theorem test_meets_PowerAndPins_throttle : powered m0 = true ∧ ThrOk m0 0 ∧ ThrOk m0 1 :=
  ⟨by decide +kernel, ⟨by decide +kernel, by decide +kernel, by decide +kernel⟩, ⟨by decide +kernel, by decide +kernel, by decide +kernel⟩⟩
/-- The manual's LINEAR11 word of 1104; a trim of 1 skips a second; PEAK and ALERT. -/
theorem test_pins : ofLin11 0x0A28 = 1104 ∧ ofLin11 (lin11 1104 1) = 1104 ∧ (after (.pmReadIin true) m0).board.smb = some [0, 0x80] ∧
    (after .thermTrip m0).fld rPWR_HIST PWR_HIST_CAUSE = 3 ∧ (after .jtagIdcode m0).board.dr = 0x05341A7F ∧
    (after .calTick (withRegs [(rCAL_CTL, fset 0 CAL_CTL_TRIM 255)] (brd fun b => { b with calN := 1048575 }))).reg rCAL_TIME = 0 := by decide +kernel

/-! Bring-up and live service. -/

/-- HG-W is MASTER and HG-E FOLLOWER, or as `r0` and `r1` say, the sideband up, both at epochs `e0` and `e1`; a request of operation `op` with the words
`ws` lies in HG-W's mailbox; core 0 is held, partition 0 has all columns. -/
def hg0 (r0 r1 e0 e1 op : Nat) (ws : List Nat) : State :=
  withRegs ([(rHG_STAT 0, fset (fsetB 0 HG_STAT_PRIMARY true) HG_STAT_ROLE r0), (rHG_STAT 1, fset 0 HG_STAT_ROLE r1), (rHG_LEASE 0, fset 0 HG_LEASE_EPOCH e0),
    (rHG_LEASE 1, fset 0 HG_LEASE_EPOCH e1), (rCHIP_INFO, fsetB 0 CHIP_INFO_SPLICE_SB true), (rHG_LEASE_CFG 0, fset 0 HG_LEASE_CFG_TIMEOUT 10),
    (rHG_LEASE_CFG 1, fset 0 HG_LEASE_CFG_TIMEOUT 10), (rMB_CTL 0, fsetB 0 MB_CTL_IN_FULL true), (rMB_IN 0 0, n64 op)] ++
    (ws.zipIdx.map fun x => (rMB_IN 0 (x.2 + 1), n64 x.1))) held0
def noSb (s : State) : State := s.setFlag rCHIP_INFO CHIP_INFO_SPLICE_SB false
def booting (n : Nat) (lc : Nat) : State := { withRegs [(rFU_LC, fset 0 FU_LC_STATE lc)] (hg0 0 0 0 0 0 []) with boot := n }

theorem test_meets_Bringup_steps : bootMay (booting 14 1) = true ∧ (booting 14 1).boot = 14 ∧ bootMay (booting 3 1) = true ∧ sbUp (booting 3 1) = true ∧
    (booting 3 1).flag (rHG_STAT 0) HG_STAT_PRIMARY = true ∧ sbUp (noSb (booting 3 1)) = false ∧ bootMay (noSb (booting 3 1)) = true ∧
    2 ≤ lcState (booting 4 2) ∧ (booting 4 2).bootWarm = false ∧ lcState (booting 11 1) < 2 ∧ lcState (booting 11 2) ≠ 5 ∧
    topLic (validLics (booting 11 2)) = none ∧ (3 : Nat) ≠ (booting 4 2).boot ∧ (booting 1 2).fld (rHG_DEGR 0) HG_DEGR_STEP = 0 ∧
    coresShort (withRegs ((List.range 11).map fun i => (rFU_COREMAP i, 0)) (booting 9 1)) 0 = true ∧ topLic (validLics (booting 9 1)) = none ∧
    ((booting 11 1).hgx 0).rom = false ∧
    mayReg m0 .comp true (rHG_RESET 1) = true ∧ mayReg m0 (.core 0) true (rHG_RESET 0) = false := by decide +kernel
def licBoot : State := { cleat0 2 [] [] with boot := 11, flash := { (cleat0 2 [] []).flash with lics := [lic0] } }
theorem test_meets_Bringup_licence : topLic (validLics licBoot) = some (licOf lic0) ∧ bootMay licBoot = true := by decide +kernel

theorem test_meets_Bringup_lease : hgRole (hg0 2 1 7 7 0 []) 1 = 1 ∧ hgRole (hg0 2 1 7 7 0 []) 0 = 2 ∧ sbUp (hg0 2 1 7 7 0 []) = true ∧
    ((hg0 2 1 7 7 0 []).hgx 1).swap = false ∧
    10 ≤ hgCycle (withRegs [(0x38, 10)] (hg0 2 1 7 7 0 [])) 1 - ((hg0 2 1 7 7 0 []).hgx 1).renew ∧
    hgCycle (hg0 2 1 7 7 0 []) 1 - ((hg0 2 1 7 7 0 []).hgx 1).renew < (hg0 2 1 7 7 0 []).fld (rHG_LEASE_CFG 1) HG_LEASE_CFG_TIMEOUT ∧
    epoch (hg0 2 1 7 7 0 []) 0 < 2 ^ 32 - 1 ∧ ((hg0 2 1 7 7 0 []).modHgx 0 fun x => { x with claims := [8] }).hgx 0 = { Hg.reset with claims := [8] } ∧
    epoch ((hg0 2 1 7 7 0 []).modHgx 0 fun x => { x with claims := [8] }) 0 = 7 ∧ ((hg0 2 1 7 7 0 []).hgx 0).claims = [] ∧
    sbUp (noSb (hg0 3 3 7 6 0 [])) = false ∧ (∀ h, h < 2 → 1 ≤ hgRole (noSb (hg0 3 3 7 6 0 [])) h) ∧ epoch (noSb (hg0 3 3 7 6 0 [])) 1 < epoch (noSb (hg0 3 3 7 6 0 [])) 0 ∧
    epoch (noSb (hg0 3 3 6 7 0 [])) 0 < epoch (noSb (hg0 3 3 6 7 0 [])) 1 ∧ hgRole (noSb (hg0 2 2 7 7 0 [])) 0 = 2 ∧ hgRole (noSb (hg0 2 1 7 7 0 [])) 1 ≠ 2 ∧
    (noSb (hg0 1 1 7 7 0 [])).flag (rHG_STAT 0) HG_STAT_PRIMARY = true ∧ hgRole (noSb (hg0 1 1 7 7 0 [])) 1 = 1 := by decide +kernel

def askedB (s : State) (h op : Nat) : Bool :=
  decide (h < 2) && s.flag (rMB_CTL h) MB_CTL_IN_FULL && !s.flag (rMB_CTL h) MB_CTL_OUT_FULL && !(s.hgx h).swap && !(s.hgx h).rom &&
    decide (bits (mbWord s h 0) 7 0 = op)
theorem asked_of {s : State} {h op : Nat} (e : askedB s h op = true) : MbAsked s h op := by
  simp only [askedB, Bool.and_eq_true, decide_eq_true_eq, Bool.not_eq_true'] at e
  obtain ⟨⟨⟨⟨⟨h1, h2⟩, h3⟩, h4⟩, h5⟩, h6⟩ := e
  exact ⟨h1, h2, h3, ⟨h4, h5⟩, h6⟩

/-- The first byte of the companion window has been read; the window is open. -/
def staging : State :=
  let s := withRegs [(rTT_STAT, fset 0 TT_STAT_WIDTH 3), (rTT_CWBASE 0, 1), (rTT_CWSIZE 0, fset 0 TT_CWSIZE_SIZE 1)] (hg0 2 1 7 7 3 [0, 1, 0x102])
  { s with cwBuf := [(0x400000000000 / 128, some 0x55)] }
/-- Core image in bank 0: ENTRY 0x40, no resident section, a library of one byte; page 8 is mapped. -/
def placing : State :=
  let s := hg0 2 1 7 7 5 [0, 0x1000000]
  { s with flash := { s.flash with img := [(2, List.replicate 8 0 ++ leBytes 8 65 ++ List.replicate 1016 0 ++ (leBytes 8 0x40 ++ List.replicate 48 0 ++ [9]))] }
           ledger := mem0.ledger, anchors := mem0.anchors, zeroed := [5] }
/-- A core image that no check passes. -/
def badImg (s : State) : State := { s with flash := { s.flash with img := [(2, []), (4, [])] } }

theorem test_meets_Bringup_mailbox : MbAsked (hg0 2 1 7 7 9 []) 0 9 ∧ MbAsked (hg0 1 2 7 7 3 []) 0 3 ∧ hgRole (hg0 1 2 7 7 3 []) 0 ≠ 2 ∧
    MbAsked (hg0 2 1 7 7 1 []) 0 1 ∧ MbAsked (hg0 2 1 7 7 2 [1, 9]) 0 2 ∧ mbWord (hg0 2 1 7 7 2 [1, 9]) 0 1 = 1 ∧ epoch (hg0 2 1 7 7 2 [1, 9]) 0 < 9 ∧
    mbWord (hg0 2 1 7 7 2 [1, 7]) 0 2 ≤ epoch (hg0 2 1 7 7 2 [1, 7]) 0 ∧ MbAsked staging 0 3 ∧ bits (mbWord staging 0 3) 7 0 = 2 ∧ 0 < mbWord staging 0 2 ∧
    mbWord (hg0 2 1 7 7 3 [0, 0, 0]) 0 2 = 0 ∧ cwOpen staging 0x400000000000 false = true ∧ gateAll (0x400000000000 / 128) false staging (lineSpan 0x400000000000 1) = true ∧
    (engRead 0x400000000000 1 0 0 false false true staging).2.1 = none ∧ (engRead 0x400000000000 1 0 0 false false true staging).1 = [0x55] ∧
    MbAsked (hg0 2 1 7 7 4 [0, 1]) 0 4 ∧ ((hg0 2 1 7 7 4 [0, 1]).hgx 1).swap = false ∧ MbAsked (hg0 2 1 7 7 4 [1, 0]) 0 4 ∧
    (hg0 2 1 7 7 4 [1, 0]).flag (rPT_RANGE 0) PT_RANGE_EN = true ∧ (0 : Nat) ∈ allCores ∧
    (withRegs [(rFwCore 0, fsetB 0 HG_FWCORE_ARM true)] (hg0 2 1 7 7 4 [1, 0])).flag (rFwCore 0) HG_FWCORE_ARM = true ∧
    (∀ c ∈ allCores, (hg0 2 1 7 7 4 [1, 0]).flag (rFwCore c) HG_FWCORE_ARM = false) ∧ (activateCheck 1 true (hg0 2 1 7 7 4 [1, 0])).1 = 0 ∧
    (activateCheck 1 true (badImg (hg0 2 1 7 7 4 [1, 0]))).1 ≠ 0 ∧ sluIdle (hg0 2 1 7 7 4 [2, 15]) 15 = true ∧
    (activateCheck 2 true (hg0 2 1 7 7 4 [2, 15])).1 = 0 ∧
    sluIdle ((hg0 2 1 7 7 4 [2, 15]).setSlu 15 { Slu.reset with queue := [(0, 0)] }) 15 = false ∧ MbAsked (hg0 2 1 7 7 4 [3]) 0 4 := by
  refine ⟨asked_of ?_, asked_of ?_, ?_, asked_of ?_, asked_of ?_, ?_, ?_, ?_, asked_of ?_, ?_, ?_, ?_, ?_, ?_, ?_, ?_, asked_of ?_, ?_,
    asked_of ?_, ?_, ?_, ?_, ?_, ?_, ?_, ?_, ?_, ?_, asked_of ?_⟩ <;> decide +kernel
theorem test_meets_Bringup_place : coreImage (hg0 2 1 7 7 5 []) = none ∧ MbAsked placing 0 5 ∧ coreImage placing = some (0x40, [], [9]) ∧
    mbWord placing 0 2 + 1 < 2 ^ 48 ∧ eFaultV placing 0 true .store 0x1000000 1 = none ∧ eGateV placing 0 true 0x1000000 1 = true ∧
    MbAsked (hg0 2 1 7 7 6 [0]) 0 6 ∧ disableOk (.hg 0) 0 (hg0 2 1 7 7 6 [0]) = true ∧ disableOk (.hg 0) 1 (hg0 2 1 7 7 6 [1]) = false ∧
    (sparesIn (hg0 2 1 7 7 6 [0]) ((hg0 2 1 7 7 6 [0]).part 0)).head? = some 1 ∧ MbAsked (hg0 2 1 7 7 7 [1, 2, 3, 4]) 0 7 ∧
    ((hg0 2 1 7 7 0 []).modHgx 0 fun x => { x with events := [5] }).flag (rMB_CTL 0) MB_CTL_OUT_FULL = false ∧
    ((hg0 2 1 7 7 0 []).modHgx 0 fun x => { x with events := [5] }).hgx 0 = { Hg.reset with events := [5] } ∧ ((hg0 2 1 7 7 0 []).hgx 0).events = [] :=
  ⟨by decide +kernel, asked_of (by decide +kernel), by decide +kernel, by decide +kernel, by decide +kernel, by decide +kernel,
    asked_of (by decide +kernel), by decide +kernel, by decide +kernel, by decide +kernel, asked_of (by decide +kernel), by decide +kernel⟩

/-- Core 0 is armed for generation 0 and has received `x`. -/
def armed (rounds : Nat) (x : FwRx) : State :=
  { withRegs [(rFwCore 0, fset (fsetB 0 HG_FWCORE_ARM true) HG_FWCORE_ROUNDS rounds)] (hg0 2 1 7 7 0 []) with fwrx := [(0, x)] }
def chunk (a : Nat) : Packet := { pk1 opFW_CHUNK with cls := clsBCAST, len16 := 8, src := epHG 0, addr := a, payload := 0x77, lost := none }
def sha0 : List Byte := leBytes 32 0x55b852781b9995a44c939b64e441ae2724b96f99c8f4fb9a141cfc9842c4b0e3

theorem test_meets_Bringup_load : fwAccepts (armed 0 FwRx.reset) 0 (chunk 0) = true ∧ (chunk 0).bad = 0 ∧ bits (223 * 32) 15 5 = 223 ∧
    fwAccepts (armed 0 FwRx.reset) 0 (chunk (0x7FF * 32)) = true ∧ fwAccepts (hg0 2 1 7 7 0 []) 0 (chunk 0) = false ∧
    (armed 3 FwRx.reset).flag (rFwCore 0) HG_FWCORE_ARM = true ∧ (armed 3 FwRx.reset).fld (rFwCore 0) HG_FWCORE_ROUNDS = 3 ∧
    (armed 3 FwRx.reset).fld (rHG_FWREP (masterHg (armed 3 FwRx.reset))) HG_FWREP_CHUNKS ≤ 224 ∧ (hg0 2 1 7 7 0 []).flag (rFwCore 0) HG_FWCORE_ARM = false ∧
    fwMissing { FwRx.reset with digest := some (sha0, 1) } 1 ≠ [] ∧ fwMissing { FwRx.reset with digest := some (sha0, 0) } 0 = [] ∧
    spadBad (armed 0 FwRx.reset) 0 0 (0 * 4096) = none ∧ sha256 (spadBytes (armed 0 FwRx.reset) 0 0 (0 * 4096)) = sha0 ∧
    sha256 (spadBytes (armed 0 FwRx.reset) 0 0 (0 * 4096)) ≠ [] := by decide +kernel
/-- Core 0 has been disabled and waits for a spare. -/
def outed : State := { (hg0 2 1 7 7 0 []).modCore 0 (fun k => { k with enabled := false, dead := true }) with swapOut := [0] }
theorem test_meets_Bringup_cores : mayReg (hg0 2 1 7 7 0 []) .comp true (rHG_CORERST 0) = true ∧ coreIdOk 0 = true ∧ ((hg0 2 1 7 7 0 []).core 0).rst = false ∧
    disableOk .comp 0 (hg0 2 1 7 7 0 []) = true ∧ mayReg m0 (.core 0) true (rHG_CORERST 0) = false ∧ spareOk .comp 1 outed = true ∧ colPart outed 1 = some 0 ∧
    mayReg outed .comp true (rHG_CORERST 0) = true ∧ spareOk .comp 1 (hg0 2 1 7 7 0 []) = false ∧
    (((hg0 2 1 7 7 0 []).modHgx 1 fun x => { x with swap := true }).hgx 1).swap = true ∧
    (bootImage 0 0 true ((hg0 2 1 7 7 0 []).modHgx 1 fun x => { x with swap := true })).1.isSome = true ∧
    (bootImage 0 1 false ((hg0 2 1 7 7 0 []).modHgx 1 fun x => { x with swap := true })).1 = none ∧ (15 : Nat) ∈ ({ m0 with slUpd := [15] } : State).slUpd ∧
    15 ∉ m0.slUpd ∧ tget 0 m0.flash.erases 12671 + 1 < 100000 ∧ 0 < m0.flash.spare ∧ epLink (masterHg m0) ∉ m0.bgDefer ∧
    tget 0 m0.bg (epLink (masterHg m0)) + 2048 ≤ bgLimit (epLink (masterHg m0)) ∧ bgLimit (epLink 0) < tget 0 [(epLink 0, bgLimit (epLink 0))] (epLink 0) + 2048 := by
  decide +kernel
theorem test_meets_Bringup_chunk : CleanWay (chunk 0) ∧ CleanWay (chunk (0x7FF * 32)) := by
  refine ⟨clean_of ?_, clean_of ?_⟩ <;> decide +kernel
theorem test_meets_Bringup_quiet : AllQuiet (hg0 2 1 7 7 0 []) := ⟨by constructor <;> decide +kernel, rfl⟩
theorem test_service : (after (.leaseTimeout 1) (withRegs [(0x38, 10)] (hg0 2 1 7 7 0 []))).fld (rHG_LEASE 1) HG_LEASE_EPOCH = 8 ∧
    hgRole (after .sidebandUp (noSb (hg0 1 1 7 7 0 []))) 0 = 2 ∧ (after (.mbStatus 0) (hg0 2 1 7 7 0x5000000000001 [])).reg (rMB_OUT 0 0) = 0x5000000000001 ∧
    (after (.mbFwStage 0) staging).flash.img = [(5, [0x55])] ∧ (after (.mbCoreSwap 0) (hg0 2 1 7 7 6 [0])).reg (rMB_OUT 0 1) = 1 ∧
    (after (.fwLoadReport 0) (armed 0 { got := [], digest := some (sha0, 0) })).flag (rFwCore 0) HG_FWCORE_DONE = true ∧
    ((after (.fwReportTimeout 0) (armed 3 FwRx.reset)).core 0).dead = true ∧ hgRole (after (.bringupStepDone 3 true []) (booting 3 1)) 0 = 2 := by decide +kernel
/-! Ill-formed commands: one for each check. -/

def pkOk : Packet := pk1 opRD
def tmOk : TMsg := tm 1 0
def frOk : Frame := { frm 0 0 with payload := [1], len := 1 }
def flOk : Flit := { fl with cr := [1, 0, 0, 0, 0] }

theorem test_wellFormed : wellFormed (.add 1013 31 31 31) ∧ wellFormed (.addi 0 31 31 32767) ∧ wellFormed (.isoftWrite (.hg 1) 0 0) ∧ pkOk.fits ∧ tmOk.fits ∧ frOk.fits ∧
    flOk.fits := by decide +kernel
theorem test_wellFormed_refuses : ∀ i ∈ [Instr.add 1024 0 0 0, .add 22 0 0 0, .add 0 32 0 0, .add 0 0 32 0, .add 0 0 0 32, .addi 0 0 0 32768,
    .isoftWrite (.core 22) 0 0, .isoftWrite (.hg 2) 0 0, .lih 0 0 (2 ^ 20), .beq 0 0 0 4096, .tzero 0 8 0, .mma 0 64 0 0 0 0 0 0 0 0 0 0 0 0 0 0,
    .bankRetire .comp 16 0 0, .mbStatus 2, .calLoad (.core 1023), .hello 8 frOk], wellFormed i = false := by decide +kernel
theorem test_packet_refuses : ∀ p ∈ [{ pkOk with dst := 4096 }, { pkOk with src := 4096 }, { pkOk with cls := 6 }, { pkOk with part := 8 }, { pkOk with fmt := 16 },
    { pkOk with tag := 65536 }, { pkOk with op := 32 }, { pkOk with txid := 256 }, { pkOk with len16 := 9 }, { pkOk with cause := 16 },
    { pkOk with addr := 2 ^ 48 }], p.fits = false := by decide +kernel
theorem test_message_refuses : (∀ m ∈ [{ tmOk with cls := 8 }, { tmOk with op := 32 }, { tmOk with txid := 4096 }, { tmOk with part := 8 }, { tmOk with tag := 65536 },
    { tmOk with fmt := 16 }, { tmOk with status := 256 }, { tmOk with state := 16 }, { tmOk with addr := 2 ^ 45 }], m.fits = false) ∧
    ∀ f ∈ [{ flOk with fseq := 4096 }, { flOk with ack := 4096 }, { flOk with width := 4 }, { flOk with cr := [1] }, { flOk with cr := [64, 0, 0, 0, 0] },
      { flOk with msg := { tmOk with cls := 8 } }, { flOk with nslot := 16 }], f.fits = false := by decide +kernel
theorem test_frame_refuses : ∀ f ∈ [{ frOk with typ := 16 }, { frOk with ver := 16 }, { frOk with smod := 8192 }, { frOk with dmod := 8192 }, { frOk with part := 8 },
    { frOk with ksel := 16 }, { frOk with len := 2 }, { frOk with seq := 2 ^ 64 }, { frOk with tag := 65536 }, { frOk with fmt := 16 }, { frOk with xs := 256 },
    { frOk with w3 := 2 ^ 64 }, { frOk with w4 := 2 ^ 64 }, { frOk with cred := 65536 }, { frOk with ack := 2 ^ 48 },
    { frOk with payload := List.replicate 32768 0, len := 32768 }], f.fits = false := by decide +kernel

/-- No word of the table spells a command: its rows give no bits. -/
theorem test_decode : decodeTableWord 32 0x28FFFA02 = none ∧ (m0.withFetchWord 32 0x28FFFA02) = m0 := by decide +kernel

/-- Words of the manual's worked examples of encoding: ADDI, TLOAD, GROLL, VFUN; and its core block. -/
theorem test_encodings : encI 0x02 5 3 0x7FF4 = 0x28FFFA02 ∧ encTM 0x20 2 6 7 0 = 0x46380020 ∧ encS 0x47 9 10 11 0 = 0x4A960047 ∧
    encVF 4 2 0 1 0 0 0 0 = 0x2082003C ∧ rCORE_CTL 625 = 0x2710000 + rCORE_CTL 0 := by decide +kernel

end Sys2Proof.Tests
end

section
/-! What one step does: it takes the front command and runs it, or lets a cycle pass, and it keeps what every effect keeps
(R11, log 1, log 2, log 10). -/

namespace Sys2Proof.Machine

/-- A command in front runs on the state with the rest of the queue. -/
theorem step_cons {s : State} {i : Instr} {q : List Instr} (h : s.pending = i :: q) : step s = exec i { s with pending := q } := by
  unfold step
  rw [h]

/-- With nothing waiting a step is a cycle (log 2). -/
theorem step_nil {s : State} (h : s.pending = []) : step s = .next (tick s) := by
  unfold step
  rw [h]

/-- Every step goes on; its next state keeps what every effect keeps of the state with the front command taken off. -/
theorem step_next_keeps (s : State) : ∃ t, step s = .next t ∧ Keeps { s with pending := s.pending.tail } t := by
  cases h : s.pending with
  | nil => exact ⟨tick s, step_nil h, tick_keeps ((Keeps.refl _).same h rfl rfl rfl rfl rfl rfl rfl)⟩
  | cons i q =>
    obtain ⟨t, ht⟩ := exec_next i { s with pending := q }
    exact ⟨t, (step_cons h).trans ht, exec_keeps i (Keeps.refl _) t ht⟩

/-- Settles O1: it is how `step` treats a queue that is not empty. -/
theorem stepRunsFront : Obligations.StepRunsFront := fun _ _ _ h => step_cons h

/-- Settles O4: the queue is no part of the canonical forms, and whatever keeps them leads from the state with the front command
taken off to the next state. -/
theorem stepKeepsCanonical : Obligations.StepKeepsCanonical := by
  intro s t hs ht
  obtain ⟨t', ht', k⟩ := step_next_keeps s
  obtain rfl : t' = t := Host.Outcome.next.inj (ht'.symm.trans ht)
  obtain ⟨hm, hr, hc, hl⟩ := hs
  exact ⟨k.mem hm, k.regs hr, k.cores hc, k.ledger hl⟩

/-- Settles O5: no effect puts a command on the queue or lowers the counters, and the step has taken one command off it. -/
theorem stepTakesOneCommand : Obligations.StepTakesOneCommand := by
  intro s
  obtain ⟨t, ht, k⟩ := step_next_keeps s
  exact ⟨t, ht, k.pending, k.free, k.epoch⟩

end Sys2Proof.Machine
end

section
/-! Fields of registers, and the write of a register by its access types, bit by bit (R8, R13). -/

namespace Sys2Proof.Machine

/-- A bit of a field's value is the register's bit at its place. -/
theorem testBit_fget (v : Word) (f : Fld) (j : Nat) : (fget v f).testBit j = (decide (j < f.hi + 1 - f.lo) && v.getLsbD (f.lo + j)) := by
  simp [fget, bits, Nat.testBit_mod_two_pow, Nat.testBit_shiftRight, BitVec.getLsbD]

/-- A field's value depends on the field's bits only. -/
theorem fget_congr {v w : Word} {f : Fld} (h : ∀ i, f.lo ≤ i → i ≤ f.hi → v.getLsbD i = w.getLsbD i) : fget v f = fget w f := by
  refine Nat.eq_of_testBit_eq fun j => ?_
  rw [testBit_fget, testBit_fget]
  by_cases hj : j < f.hi + 1 - f.lo
  · rw [h (f.lo + j) (by omega) (by omega)]
  · simp [hj]

theorem testBit_fmask (f : Fld) (i : Nat) : (fmask f).testBit i = (decide (f.lo ≤ i) && decide (i - f.lo < f.hi + 1 - f.lo)) := by
  simp [fmask, Nat.testBit_shiftLeft, Nat.testBit_two_pow_sub_one]

/-- A bit of a register with a field replaced: inside the field the new value's, elsewhere the old one's. -/
theorem getLsbD_fset (v : Word) (f : Fld) (x : Nat) {i : Nat} (hi : i < 64) :
    (fset v f x).getLsbD i = if f.lo ≤ i ∧ i - f.lo < f.hi + 1 - f.lo then x.testBit (i - f.lo) else v.getLsbD i := by
  simp only [fset, BitVec.getLsbD_or, BitVec.getLsbD_and, BitVec.getLsbD_not, BitVec.getLsbD_ofNat, testBit_fmask,
    Nat.testBit_shiftLeft, hi, decide_true, Bool.true_and]
  by_cases h : f.lo ≤ i ∧ i - f.lo < f.hi + 1 - f.lo
  · simp [h]
  · rw [if_neg h]
    have : (decide (f.lo ≤ i) && decide (i - f.lo < f.hi + 1 - f.lo)) = false := by simpa using h
    simp [this]

/-- The field just written reads back the written value's low bits. -/
theorem fget_fset_self (v : Word) (f : Fld) (x : Nat) (hf : f.hi < 64 := by decide) : fget (fset v f x) f = x % 2 ^ (f.hi + 1 - f.lo) := by
  refine Nat.eq_of_testBit_eq fun j => ?_
  rw [testBit_fget, Nat.testBit_mod_two_pow]
  by_cases hj : j < f.hi + 1 - f.lo
  · rw [getLsbD_fset _ _ _ (by omega), if_pos ⟨by omega, by omega⟩, Nat.add_sub_cancel_left]
  · simp [hj]

/-- Writing a field leaves every field above or below it. -/
theorem fget_fset_other (v : Word) {f g : Fld} (x : Nat) (hg : g.hi < 64 := by decide) (h : f.hi < g.lo ∨ g.hi < f.lo := by decide) :
    fget (fset v f x) g = fget v g :=
  fget_congr fun i _ _ => by rw [getLsbD_fset _ _ _ (by omega), if_neg (by omega)]

/-- A field just written, read back. -/
theorem State.fld_setFld_self (s : State) (a : Nat) (f : Fld) (x : Nat) (hf : f.hi < 64 := by decide) :
    (s.setFld a f x).fld a f = x % 2 ^ (f.hi + 1 - f.lo) := by
  rw [State.fld, State.setFld, State.reg_setReg_self, fget_fset_self _ _ _ hf]

/-- A field of another register after a field's write. -/
theorem State.fld_setFld_ne (s : State) {a b : Nat} (f g : Fld) (x : Nat) (h : b ≠ a) : (s.setFld a f x).fld b g = s.fld b g := by
  rw [State.fld, State.reg_setFld_ne s f x h, State.fld]

/-- Fields and flags read the register, and nothing else. -/
theorem State.fld_congr {s t : State} {a : Nat} (h : t.reg a = s.reg a) (f : Fld) : t.fld a f = s.fld a f := by
  rw [State.fld, h, State.fld]

theorem State.flag_congr {s t : State} {a : Nat} (h : t.reg a = s.reg a) (f : Fld) : t.flag a f = s.flag a f := by
  rw [State.flag, h, State.flag]

/-- The value that a write by access types leaves, bit by bit (R13). -/
theorem getLsbD_reg_typedWrite {s : State} {a : Nat} {r : RegRow} (hr : regRow a = some r) (v : Word) {j : Nat} (hj : j < 64) :
    ((typedWrite s a v).reg a).getLsbD j =
      ((if r.rw.testBit j = true ∨ (r.rwl.testBit j = true ∧ locked s a = false) then v.getLsbD j else (s.reg a).getLsbD j) &&
        !(r.w1c.testBit j && v.getLsbD j)) := by
  have hm : (r.rw ||| if locked s a = true then 0 else r.rwl).testBit j = (r.rw.testBit j || (!locked s a && r.rwl.testBit j)) := by
    cases locked s a <;> simp
  simp only [typedWrite, hr, State.reg_setReg_self, n64, BitVec.getLsbD_and, BitVec.getLsbD_or, BitVec.getLsbD_not,
    BitVec.getLsbD_ofNat, hm, hj, decide_true, Bool.true_and]
  by_cases hw : r.rw.testBit j = true ∨ (r.rwl.testBit j = true ∧ locked s a = false)
  · have : (r.rw.testBit j || (!locked s a && r.rwl.testBit j)) = true := by simpa [and_comm] using hw
    rw [if_pos hw, this]
    simp [Bool.and_comm]
  · have : (r.rw.testBit j || (!locked s a && r.rwl.testBit j)) = false := by
      rw [← Bool.not_eq_true]; simpa [and_comm] using hw
    rw [if_neg hw, this]
    simp [Bool.and_comm]

/-- A write by access types is a write of that register. -/
theorem typedWrite_eq_setReg (s : State) (a : Nat) (v : Word) : typedWrite s a v = s ∨ ∃ w, typedWrite s a v = s.setReg a w := by
  unfold typedWrite
  split
  · exact .inl rfl
  · exact .inr ⟨_, rfl⟩

theorem reg_typedWrite_ne (s : State) {a b : Nat} (v : Word) (h : b ≠ a) : (typedWrite s a v).reg b = s.reg b := by
  obtain e | ⟨w, e⟩ := typedWrite_eq_setReg s a v
  · rw [e]
  · rw [e, State.reg_setReg_ne s w h]

/-- Nothing but registers changes in a write by access types. -/
theorem typedWrite_rest (s : State) (a : Nat) (v : Word) : typedWrite s a v = { s with regs := (typedWrite s a v).regs } := by
  obtain e | ⟨w, e⟩ := typedWrite_eq_setReg s a v
  · rw [e]
  · rw [e]; rfl

/-- A field of RW bits takes the written bits (R13). -/
theorem fget_reg_typedWrite_rw {s : State} {a : Nat} {r : RegRow} (hr : regRow a = some r) (v : Word) (f : Fld) (hf : f.hi < 64)
    (hw : ∀ i, i < 64 → f.lo ≤ i → i ≤ f.hi → r.rw.testBit i = true ∧ r.w1c.testBit i = false) :
    fget ((typedWrite s a v).reg a) f = fget v f := by
  refine fget_congr fun i h1 h2 => ?_
  obtain ⟨h3, h4⟩ := hw i (by omega) h1 h2
  rw [getLsbD_reg_typedWrite hr v (by omega), if_pos (.inl h3), h4, Bool.false_and, Bool.not_false, Bool.and_true]

end Sys2Proof.Machine
end

section
/-! Register accesses that an origin may or may not make: what is answered and what changes (R11, R13, R362). -/

namespace Sys2Proof.Machine

/-- Outside the blocks of the cores. -/
def NoCoreBlk (a : Nat) : Prop := ∀ i off, blkOf a ≠ some (.core, i, off) ∧ blkOf a ≠ some (.flume, i, off) ∧
  blkOf a ≠ some (.culvert, i, off) ∧ blkOf a ≠ some (.knot, i, off)

theorem noCoreBlk_of_blkOf {a i off : Nat} {b : Blk} (hb : blkOf a = some (b, i, off))
    (hn : b ≠ .core ∧ b ≠ .flume ∧ b ≠ .culvert ∧ b ≠ .knot) : NoCoreBlk a := by
  intro i' off'
  have key : ∀ b', blkOf a = some (b', i', off') → b = b' := fun _ h => (Prod.mk.inj (Option.some.inj (hb.symm.trans h))).1
  obtain ⟨h1, h2, h3, h4⟩ := hn
  exact ⟨fun h => h1 (key _ h), fun h => h2 (key _ h), fun h => h3 (key _ h), fun h => h4 (key _ h)⟩

/-- Only accesses to cores are answered with a counted NACK (R362). -/
theorem gateNack_of_noCoreBlk {a : Nat} (h : NoCoreBlk a) (o : Origin) (s : State) : gateNack o a s = s := by
  unfold gateNack
  split
  next b i off hb =>
    obtain ⟨h1, h2, h3, h4⟩ := h i off
    have key : ∀ b', blkOf a ≠ some (b', i, off) → (b == b') = false := fun _ h => beq_eq_false_iff_ne.mpr fun e => h (e ▸ hb)
    rw [key _ h1, key _ h2, key _ h3, key _ h4]
    simp only [Bool.or_false, Bool.and_false, Bool.false_and, Bool.false_eq_true, if_false]
  next => rfl

/-- A register that can be reached lies at a multiple of 8 (R11). -/
theorem mayReg_aligned {s : State} {o : Origin} {w : Bool} {a : Nat} (h : mayReg s o w a = true) : a % 8 = 0 := by
  unfold mayReg at h
  split at h
  · cases h
  · simp only [Bool.and_eq_true, beq_iff_eq] at h
    exact h.1.1.2

/-- A write that is accepted. -/
theorem regWrite_ok {o : Origin} {a : Nat} {ok : State → Bool} {s : State} (f : State → State) (hm : mayReg s o true a = true)
    (hk : ok s = true) : regWrite o a ok f s = { f s with rsp := .ok 0 } := by
  rw [regWrite, hm, hk]; rfl

/-- A write outside the blocks of the cores that is refused changes nothing. -/
theorem regWrite_refused {o : Origin} {a : Nat} {ok : State → Bool} {s : State} (f : State → State) (hb : NoCoreBlk a)
    (h : mayReg s o true a = false ∨ ok s = false) : regWrite o a ok f s = { s with rsp := .err } := by
  have : (mayReg s o true a && ok s) = false := Bool.and_eq_false_iff.mpr h
  rw [regWrite, this, gateNack_of_noCoreBlk hb]
  rfl

/-- The blocks whose registers have no rule of their own. -/
def plainBlks : List Blk := [.chip, .errlog, .lc, .weir, .canal, .splice]

theorem plainBlks_cases {b : Blk} (hp : b ∈ plainBlks) :
    b = .chip ∨ b = .errlog ∨ b = .lc ∨ b = .weir ∨ b = .canal ∨ b = .splice := by
  simpa only [plainBlks, List.mem_cons, List.not_mem_nil, or_false] using hp

theorem noCoreBlk_of_plain {a i off : Nat} {b : Blk} (hb : blkOf a = some (b, i, off)) (hp : b ∈ plainBlks) : NoCoreBlk a :=
  noCoreBlk_of_blkOf hb ((by decide : ∀ b ∈ plainBlks, b ≠ .core ∧ b ≠ .flume ∧ b ≠ .culvert ∧ b ≠ .knot) b hp)

/-- A write in such a block goes by access types. -/
theorem mmioWrite_plain {a i off : Nat} {b : Blk} (hb : blkOf a = some (b, i, off)) (hp : b ∈ plainBlks) (ha : a % 8 = 0) (o : Origin)
    (v : Word) (s : State) : mmioWrite o a v s = plainWrite o a v s := by
  unfold mmioWrite
  rw [if_neg (Decidable.not_not.mpr ha), hb]
  obtain rfl | rfl | rfl | rfl | rfl | rfl := plainBlks_cases hp <;> rfl

/-- A write in such a block without the right is refused, aligned or not. -/
theorem mmioWrite_plain_refused {a i off : Nat} {b : Blk} (hb : blkOf a = some (b, i, off)) (hp : b ∈ plainBlks) {o : Origin}
    {s : State} (hm : mayReg s o true a = false) (v : Word) : mmioWrite o a v s = { s with rsp := .err } := by
  by_cases ha : a % 8 = 0
  · rw [mmioWrite_plain hb hp ha, plainWrite, regWrite_refused _ (noCoreBlk_of_plain hb hp) (.inl hm)]
  · unfold mmioWrite
    rw [if_pos ha]
    rfl

/-- A read without the right is refused. -/
theorem mmioRead_refused {o : Origin} {a : Nat} {s : State} (hm : mayReg s o false a = false) (hb : NoCoreBlk a) :
    mmioRead o a s = { s with rsp := .err } := by
  rw [mmioRead, hm, gateNack_of_noCoreBlk hb]
  rfl

/-- The blocks all of whose registers are held as they are shown. -/
def shownBlks : List Blk := [.chip, .errlog, .weir, .canal]

theorem shownBlks_cases {b : Blk} (hp : b ∈ shownBlks) : b = .chip ∨ b = .errlog ∨ b = .weir ∨ b = .canal := by
  simpa only [shownBlks, List.mem_cons, List.not_mem_nil, or_false] using hp

theorem regShow_shown {a i off : Nat} {b : Blk} (hb : blkOf a = some (b, i, off)) (hp : b ∈ shownBlks) (s : State) :
    regShow s a = s.reg a := by
  unfold regShow
  rw [hb]
  obtain rfl | rfl | rfl | rfl := shownBlks_cases hp <;> rfl

/-- A read in such a block returns the readable bits and clears what a read clears (R13). -/
theorem mmioRead_shown {a i off : Nat} {b : Blk} {r : RegRow} (hb : blkOf a = some (b, i, off)) (hp : b ∈ shownBlks)
    (hr : regRow a = some r) {o : Origin} {s : State} (hm : mayReg s o false a = true) :
    mmioRead o a s = { readClear s a with rsp := .ok (s.reg a &&& ~~~ n64 r.wo) } := by
  have hmask : readMask a = ~~~ n64 r.wo := by rw [readMask, hr]
  rw [mmioRead, hm, regShow_shown hb hp, hmask, hb]
  obtain rfl | rfl | rfl | rfl := shownBlks_cases hp <;> rfl

/-- Reading leaves the register without its RC bits. -/
theorem reg_readClear_self {s : State} {a : Nat} {r : RegRow} (hr : regRow a = some r) :
    (readClear s a).reg a = s.reg a &&& ~~~ n64 r.rc := by
  rw [readClear, hr]
  dsimp only
  split
  next h =>
    have : ~~~ n64 r.rc = BitVec.allOnes 64 := by rw [h]; exact BitVec.not_zero
    rw [this, BitVec.and_allOnes]
  next => exact State.reg_setReg_self _ _ _

theorem reg_readClear_ne (s : State) {a b : Nat} (h : b ≠ a) : (readClear s a).reg b = s.reg b := by
  unfold readClear
  split
  · split
    · rfl
    · exact State.reg_setReg_ne _ _ h
  · rfl

theorem readClear_rest (s : State) (a : Nat) : readClear s a = { s with regs := (readClear s a).regs } := by
  unfold readClear
  split
  · split
    · rfl
    · rfl
  · rfl

end Sys2Proof.Machine
end

section
/-! Partitions (R358-R362): the effect of an accepted range write, and the end of a partition reset. -/

namespace Sys2Proof.Machine

theorem mem_allCores {c : Nat} : c ∈ allCores ↔ coreIdOk c = true := by
  simp only [allCores, List.mem_filter, List.mem_range, and_iff_right_iff_imp, coreIdOk, Bool.and_eq_true, decide_eq_true_eq]
  exact And.left

theorem coreIdOk_lt {c : Nat} (h : coreIdOk c = true) : c < 1024 := by
  simp only [coreIdOk, Bool.and_eq_true, decide_eq_true_eq] at h
  exact h.1

theorem mem_rangeCores {s : State} {v : Word} {c : Nat} : c ∈ rangeCores s v ↔
    coreIdOk c = true ∧ (s.core c).enabled = true ∧ fget v PT_RANGE_FIRST ≤ coreX c ∧ coreX c ≤ fget v PT_RANGE_LAST := by
  simp [rangeCores, mem_allCores, and_assoc]

theorem nodup_partCores (s : State) (p : Nat) : (s.partCores p).Nodup :=
  (List.nodup_range.filter _).filter _

theorem partCores_lt {s : State} {p c : Nat} (h : c ∈ s.partCores p) : c < 1024 :=
  coreIdOk_lt (mem_allCores.mp (List.mem_filter.mp h).1)

/-- The row of PT_RANGE (R365). -/
theorem regRow_ptRange {p : Nat} (hp : p < 8) : regRow (rPT_RANGE p) = some ⟨0x0, [(8, 0x8)], 0x7FF, 0x0, 0x0, 0x0, 0x0, 0x0⟩ :=
  (by decide : ∀ p, p < 8 → regRow (rPT_RANGE p) = some ⟨0x0, [(8, 0x8)], 0x7FF, 0x0, 0x0, 0x0, 0x0, 0x0⟩) p hp

theorem noCoreBlk_ptRange {p : Nat} (hp : p < 8) : NoCoreBlk (rPT_RANGE p) :=
  noCoreBlk_of_blkOf ((by decide : ∀ p, p < 8 → blkOf (rPT_RANGE p) = some (.part, 0, p * 8)) p hp) (by decide)

/-- A field of PT_RANGE takes the written bits. -/
theorem fget_typedWrite_ptRange (s : State) {p : Nat} (hp : p < 8) (v : Word) (f : Fld) (hf : f.hi ≤ 10) :
    fget ((typedWrite s (rPT_RANGE p) v).reg (rPT_RANGE p)) f = fget v f := by
  refine fget_reg_typedWrite_rw (regRow_ptRange hp) v f (by omega) fun i _ _ h => ⟨?_, Nat.zero_testBit i⟩
  have : i ≤ 10 := by omega
  exact (by decide : ∀ i, i ≤ 10 → Nat.testBit 0x7FF i = true) i this

/-- What core `c` gets when a range of partition `p` takes it in (R359, log 42). -/
def joinPart (p c : Nat) (s : State) : State :=
  if s.part c = p then s
  else (s.setFld (rCORE_ID c) CORE_ID_PART p).modCore c fun k => { k with l1 := [], spad := [], spadEpoch := k.spadEpoch + 1, flips := [] }

theorem joinPart_mem (p c : Nat) (s : State) : (joinPart p c s).mem = s.mem := by
  unfold joinPart; split <;> rfl

theorem joinPart_part {p : Nat} (hp : p < 8) (c d : Nat) (s : State) : (joinPart p c s).part d = if d = c then p else s.part d := by
  unfold joinPart
  split
  next h =>
    split
    next e => rw [e, h]
    next => rfl
  next h =>
    rw [State.part, State.fld, State.reg_modCore]
    split
    next e => subst e; exact (State.fld_setFld_self _ _ _ _).trans (Nat.mod_eq_of_lt hp)
    next e => exact State.fld_setFld_ne _ _ _ _ (by simp only [rCORE_ID]; omega)

/-- Registers other than CORE_ID. -/
theorem joinPart_reg (p c : Nat) (s : State) {a : Nat} (h : a < rCORE_ID 0) : (joinPart p c s).reg a = s.reg a := by
  unfold joinPart
  split
  · rfl
  · exact State.reg_setFld_ne _ _ _ (by simp only [rCORE_ID] at *; omega)

theorem each_joinPart_mem (p : Nat) (l : List Nat) (s : State) : (each (joinPart p) l s).mem = s.mem :=
  each_keeps (P := fun t : State => t.mem = s.mem) (fun c _ h => (joinPart_mem p c _).trans h) rfl

theorem each_joinPart_reg (p : Nat) (l : List Nat) (s : State) {a : Nat} (h : a < rCORE_ID 0) :
    (each (joinPart p) l s).reg a = s.reg a :=
  each_keeps (P := fun t : State => t.reg a = s.reg a) (fun c _ k => (joinPart_reg p c _ h).trans k) rfl

/-- The cores of the list belong to the partition, the others to the one they did. -/
theorem each_joinPart_part {p : Nat} (hp : p < 8) (d : Nat) : ∀ (l : List Nat) (s : State),
    (each (joinPart p) l s).part d = if d ∈ l then p else s.part d := by
  intro l
  induction l with
  | nil => intro s; simp [each]
  | cons c r ih =>
    intro s
    rw [each, ih, joinPart_part hp]
    by_cases h : d = c <;> simp [h]

/-- The state after the range and the cores' PART are written, and before STATE is. -/
def ptRangeCores (p : Nat) (v : Word) (s : State) : State :=
  let s := typedWrite s (rPT_RANGE p) v
  if fbit v PT_RANGE_EN then each (joinPart p) (rangeCores s v) s else s

/-- An accepted range write: the range and PART, then STATE (R359). -/
theorem ptRangeSet_eq (p : Nat) (v : Word) (s : State) : ptRangeSet p v s =
    if !fbit v PT_RANGE_EN then (ptRangeCores p v s).setFld (rPT_STAT p) PT_STAT_STATE 0
    else if s.flag (rPT_RANGE p) PT_RANGE_EN then ptRangeCores p v s
    else (ptRangeCores p v s).setFld (rPT_STAT p) PT_STAT_STATE 3 := rfl

/-- The write of STATE at the end touches nothing but PT_STAT. -/
theorem ptRangeSet_cases (p : Nat) (v : Word) (s : State) :
    ptRangeSet p v s = ptRangeCores p v s ∨ ∃ n, ptRangeSet p v s = (ptRangeCores p v s).setFld (rPT_STAT p) PT_STAT_STATE n := by
  rw [ptRangeSet_eq]
  split
  · exact .inr ⟨0, rfl⟩
  · split
    · exact .inl rfl
    · exact .inr ⟨3, rfl⟩

theorem ptRangeSet_reg (p : Nat) (v : Word) (s : State) {a : Nat} (h : a ≠ rPT_STAT p) :
    (ptRangeSet p v s).reg a = (ptRangeCores p v s).reg a := by
  obtain e | ⟨n, e⟩ := ptRangeSet_cases p v s
  · rw [e]
  · rw [e, State.reg_setFld_ne _ _ _ h]

theorem ptRangeSet_mem (p : Nat) (v : Word) (s : State) : (ptRangeSet p v s).mem = s.mem := by
  have hc : (ptRangeCores p v s).mem = s.mem := by
    have ht : (typedWrite s (rPT_RANGE p) v).mem = s.mem := by rw [typedWrite_rest]
    unfold ptRangeCores
    dsimp only
    split
    · exact (each_joinPart_mem _ _ _).trans ht
    · exact ht
  obtain e | ⟨n, e⟩ := ptRangeSet_cases p v s
  · rw [e, hc]
  · rw [e]; exact hc

/-- PT_RANGE holds what was written. -/
theorem ptRangeSet_fget {p : Nat} (hp : p < 8) (v : Word) (s : State) (f : Fld) (hf : f.hi ≤ 10) :
    (ptRangeSet p v s).fld (rPT_RANGE p) f = fget v f := by
  have hr : (ptRangeCores p v s).reg (rPT_RANGE p) = (typedWrite s (rPT_RANGE p) v).reg (rPT_RANGE p) := by
    unfold ptRangeCores
    dsimp only
    split
    · exact each_joinPart_reg _ _ _ (by simp only [rPT_RANGE, rCORE_ID]; omega)
    · rfl
  rw [State.fld, ptRangeSet_reg _ _ _ (by simp only [rPT_RANGE, rPT_STAT]; omega), hr, fget_typedWrite_ptRange s hp v f hf]

/-- The enabled cores in the columns of an enabled range get its PART (R359). -/
theorem ptRangeSet_part {p : Nat} (hp : p < 8) (v : Word) (s : State) {c : Nat} (hc : coreIdOk c = true) :
    (ptRangeSet p v s).part c =
      if fbit v PT_RANGE_EN = true ∧ (s.core c).enabled = true ∧ fget v PT_RANGE_FIRST ≤ coreX c ∧ coreX c ≤ fget v PT_RANGE_LAST then p
      else s.part c := by
  have hn : rCORE_ID c ≠ rPT_STAT p := by simp only [rCORE_ID, rPT_STAT]; omega
  have ht : (typedWrite s (rPT_RANGE p) v).part c = s.part c :=
    State.fld_congr (reg_typedWrite_ne s v (by simp only [rCORE_ID, rPT_RANGE]; omega)) _
  have he : ((typedWrite s (rPT_RANGE p) v).core c).enabled = (s.core c).enabled := by rw [typedWrite_rest]; rfl
  rw [State.part, State.fld_congr (ptRangeSet_reg p v s hn)]
  show (ptRangeCores p v s).part c = _
  unfold ptRangeCores
  dsimp only
  by_cases hen : fbit v PT_RANGE_EN = true
  · simp only [hen, if_true, each_joinPart_part hp, mem_rangeCores, he, ht, hc, true_and]
  · rw [if_neg hen, if_neg fun h => hen h.1, ht]

/-- A range write that R359 refuses: the range is empty or meets another enabled one, the partition is in a reset, or one of the
cores runs. -/
theorem ptRangeOk_false {s : State} {p : Nat} {v : Word}
    (h : fget v PT_RANGE_LAST < fget v PT_RANGE_FIRST ∨ s.fld (rPT_STAT p) PT_STAT_STATE = 2 ∨
      (fbit v PT_RANGE_EN = true ∧ ∃ q, q < 8 ∧ q ≠ p ∧ s.flag (rPT_RANGE q) PT_RANGE_EN = true ∧
        fget v PT_RANGE_FIRST ≤ s.fld (rPT_RANGE q) PT_RANGE_LAST ∧ s.fld (rPT_RANGE q) PT_RANGE_FIRST ≤ fget v PT_RANGE_LAST) ∨
      (∃ c, coreIdOk c = true ∧ (s.core c).enabled = true ∧ fget v PT_RANGE_FIRST ≤ coreX c ∧ coreX c ≤ fget v PT_RANGE_LAST ∧
        s.flag (rCORE_CTL c) CORE_CTL_RUN = true)) : ptRangeOk p v s = false := by
  rw [← Bool.not_eq_true]
  intro hk
  simp only [ptRangeOk, Bool.and_eq_true, Bool.not_eq_true', decide_eq_true_eq, bne_iff_ne, Bool.and_eq_false_imp,
    List.any_eq_false, List.mem_range, List.mem_append] at hk
  obtain ⟨⟨⟨⟨hover, hfirst⟩, hrun⟩, hstate⟩, -⟩ := hk
  rcases h with h | h | ⟨hen, q, hq, hqp, hqe, h1, h2⟩ | ⟨c, hc, he, h1, h2, hr⟩
  · exact absurd hfirst (by omega)
  · exact hstate h
  · have hmeet : rangesMeet v (s.reg (rPT_RANGE q)) = true := by
      rw [rangesMeet, Bool.and_eq_true, decide_eq_true_eq, decide_eq_true_eq]
      exact ⟨h1, h2⟩
    exact hover hen q hq ⟨⟨hqp, hqe⟩, hmeet⟩
  · exact hrun c (.inl (mem_rangeCores.mpr ⟨hc, he, h1, h2⟩)) hr

end Sys2Proof.Machine
end

section
/-! The ring's engines with nothing to do (R376, R388): letting them go on changes no register, no port and nothing else. -/

namespace Sys2Proof.Machine

/-- From `s` to `t` only the tables of registers and ports are written, and every register and port reads the same. -/
structure Idled (s t : State) : Prop where
  rest : t = { s with regs := t.regs, ports := t.ports }
  reg : ∀ a, t.reg a = s.reg a
  port : ∀ p, t.port p = s.port p

theorem Idled.refl (s : State) : Idled s s := ⟨rfl, fun _ => rfl, fun _ => rfl⟩

theorem Idled.trans {s t u : State} (h : Idled s t) (k : Idled t u) : Idled s u :=
  ⟨by rw [k.rest, h.rest], fun a => (k.reg a).trans (h.reg a), fun p => (k.port p).trans (h.port p)⟩

/-- A port written with its own value. -/
theorem idled_setPort_self (s : State) (p : Nat) : Idled s (s.setPort p (s.port p)) := by
  refine ⟨rfl, fun _ => rfl, fun q => ?_⟩
  by_cases h : q = p
  · subst h; exact tget_tset_self _ _ _ _
  · exact tget_tset_ne _ _ h _

/-- A counter that nothing is added to. -/
theorem idled_count_zero (s : State) (a : Nat) : Idled s (s.count a 0) := by
  refine ⟨rfl, fun b => ?_, fun _ => rfl⟩
  by_cases h : b = a
  · subst h; rw [State.reg_count_self]; exact BitVec.add_zero _
  · exact State.reg_count_ne s 0 h

/-- A port that is not UP or holds no frame sends nothing. -/
theorem portSend_idled {s : State} {p : Nat} (h : hwState s p ≠ hwUP ∨ ((s.port p).out = [] ∧ (s.port p).retry = [])) :
    Idled s (portSend p s) := by
  unfold portSend
  split
  next => exact .refl s
  next hn =>
    obtain ⟨ho, hr⟩ := h.resolve_left fun e => hn (.inl e)
    have hx : { s.port p with retry := [] } = s.port p := by rw [← hr]
    have hl : resendLeft (s.port p).retry (s.port p) = ([], s.port p, 0) := by rw [hr]; rfl
    have h1 : Idled s ((s.setPort p (s.port p)).count (rHW_RETX p) 0) := (idled_setPort_self s p).trans (idled_count_zero _ _)
    simp only [hl, hx]
    generalize (s.setPort p (s.port p)).count (rHW_RETX p) 0 = t at h1 ⊢
    have ho' : (t.port p).out = [] := by rw [h1.port, ho]
    have hy : { t.port p with out := [] } = t.port p := by rw [← ho']
    have h2 : sendOut p (t.port p).out t = t.setPort p (t.port p) := by
      rw [ho']
      exact congrArg (t.setPort p) hy
    rw [h2]
    exact h1.trans (idled_setPort_self t p)

theorem ringQuiet_of_idled {s t : State} (h : RingQuiet s) (k : Idled s t) : RingQuiet t := by
  obtain ⟨hrx, htx, hsw, hrep, hrun⟩ := h
  have e := k.rest
  refine ⟨fun p hp => by rw [k.port]; exact hrx p hp, fun p hp => ?_, by rw [e]; exact hsw, by rw [e]; exact hrep, by rw [e]; exact hrun⟩
  rw [k.port, hwState, State.fld_congr (k.reg _)]
  exact htx p hp

/-- Counting up keeps what each of its steps keeps, for the numbers below the bound. -/
theorem upto_keeps_lt {σ : Type} {P : σ → Prop} {f : Nat → σ → σ} : ∀ {n : Nat} {s : σ}, (∀ a < n, ∀ s, P s → P (f a s)) → P s → P (upto f n s)
  | 0, _, _, h => h
  | n + 1, _, hf, h => hf n (Nat.lt_succ_self n) _ (upto_keeps_lt (fun a ha => hf a (Nat.lt_succ_of_lt ha)) h)

/-- Counting up over steps that do nothing does nothing. -/
theorem upto_id {σ : Type} {f : Nat → σ → σ} {s : σ} : ∀ {n : Nat}, (∀ a < n, f a s = s) → upto f n s = s
  | 0, _ => rfl
  | n + 1, hf => by
    rw [upto, upto_id fun a ha => hf a (Nat.lt_succ_of_lt ha)]
    exact hf n (Nat.lt_succ_self n)

/-- Going over a list with steps that do nothing does nothing. -/
theorem each_id {α σ : Type} {f : α → σ → σ} {s : σ} : ∀ {l : List α}, (∀ a ∈ l, f a s = s) → each f l s = s
  | [], _ => rfl
  | a :: r, hf => by
    rw [each, hf a List.mem_cons_self]
    exact each_id fun b hb => hf b (List.mem_cons_of_mem _ hb)

theorem rxPump_empty {s : State} {p : Nat} (h : (s.port p).rxbuf = []) : rxPump p s = s := by
  unfold rxPump
  simp only [h, List.length_nil, upto, List.find?_nil]

/-- With nothing to do the ring's engines do nothing. -/
theorem ringPump_idled {s : State} (h : RingQuiet s) : Idled s (ringPump s) := by
  have h1 : xhStart s = s := by unfold xhStart; rw [h.sweeps]; rfl
  have h2 : upto rxPump 8 s = s := upto_id fun p hp => rxPump_empty (h.rx p hp)
  have h3 : each (fun (x : Nat × Grp) s => if x.2.run.isSome then collPump x.1 s else s) s.grps s = s :=
    each_id fun x hx => by rw [h.runs x hx]; rfl
  have h4 : Idled s (upto portSend 8 s) :=
    upto_keeps_lt (P := Idled s) (fun p hp t k => k.trans (portSend_idled ((ringQuiet_of_idled h k).tx p hp))) (.refl s)
  have h5 : ddPump (upto portSend 8 s) = upto portSend 8 s := by
    unfold ddPump; rw [(ringQuiet_of_idled h h4).reports]; rfl
  unfold ringPump
  simp only [h1, h2, h3, h5]
  exact h4

end Sys2Proof.Machine
end

section
/-! What the reset of a partition's cores leaves (R83, R269, R324, R335, R361): memory, the ring, the Sluice jobs and the registers
that the later steps of the reset read; the cores that are reset are held with CORE_CTL.RUN 0. -/

namespace Sys2Proof.Machine

/-- Blocks that do not hold an offset are passed over. -/
theorem blkOfIn_append {a : Nat} {m : List Blk} : ∀ {l : List Blk}, (∀ b ∈ l, inBlk b a = none) → blkOfIn (l ++ m) a = blkOfIn m a
  | [], _ => rfl
  | b :: r, h => by
    rw [List.cons_append, blkOfIn, h b List.mem_cons_self]
    exact blkOfIn_append fun b' hb => h b' (List.mem_cons_of_mem _ hb)

/-- The blocks below the first core. -/
def lowBlks : List Blk := [.chip, .part, .errlog, .cal, .telem, .fuse, .hg, .cleat, .logline]

/-- An offset above everything a block holds is not in it. -/
theorem inBlk_above {b : Blk} {a base size n st : Nat} (hb : blkGeom b = (base, size, n, st)) (ha : base + max size (n * st) ≤ a) :
    inBlk b a = none := by
  unfold inBlk
  rw [hb]
  dsimp only
  split
  · rfl
  · split
    · exact if_neg (by omega)
    next h => exact if_neg fun k => absurd k.1 (Nat.not_lt.mpr ((Nat.le_div_iff_mul_le (Nat.pos_of_ne_zero h)).mpr (by omega)))

/-- An offset in the CORE block of a core. -/
theorem blkOf_core {a c off : Nat} (hc : c < 1024) (ho : off < 0x4000) (ha : a = 0x1000000 + c * 0x10000 + off) :
    blkOf a = some (.core, c, off) := by
  have hlow : ∀ b ∈ lowBlks, inBlk b a = none := by
    intro b hb
    have : (blkGeom b).1 + max (blkGeom b).2.1 ((blkGeom b).2.2.1 * (blkGeom b).2.2.2) ≤ 0x1000000 :=
      (by decide : ∀ b ∈ lowBlks, (blkGeom b).1 + max (blkGeom b).2.1 ((blkGeom b).2.2.1 * (blkGeom b).2.2.2) ≤ 0x1000000) b hb
    exact inBlk_above rfl (Nat.le_trans this (by omega))
  have hin : inBlk .core a = some (c, off) := by
    have h1 : (a - 0x1000000) / 0x10000 = c := by omega
    have h2 : (a - 0x1000000) % 0x10000 = off := by omega
    show (if a < 0x1000000 then none else if 0x10000 = 0 then _ else if _ then _ else _) = _
    rw [if_neg (by omega), if_neg (by decide), h1, h2, if_pos ⟨hc, ho⟩]
  have hall : allBlks = lowBlks ++ .core :: allBlks.drop 10 := rfl
  rw [blkOf, hall, blkOfIn_append hlow, blkOfIn, hin]

/-- CORE_CTL.RUN is 0 at reset (R82). -/
theorem resetOf_coreCtl {c : Nat} (hc : c < 1024) : fbit (resetOf (rCORE_CTL c)) CORE_CTL_RUN = false := by
  have hb : blkOf (rCORE_CTL c) = some (.core, c, 0xC0) := blkOf_core hc (by decide) (by unfold rCORE_CTL; omega)
  have hrow : findRow (blkRows .core) 0xC0 = some ⟨0xC0, [], 1, 0, 0, 0, 0, 0⟩ := by decide
  have ht : tableReset (rCORE_CTL c) = 0 := by rw [tableReset, regRow, hb]; dsimp only; rw [hrow]
  have hf : fuseReset (rCORE_CTL c) = 0 := by
    unfold fuseReset
    simp only [rCORE_CTL, rFU_LC, rFU_COREMAP, rHG_STAT, rCORE_ID]
    rw [if_neg (by omega), if_neg (by omega), if_neg (by omega), if_neg (by omega)]
  rw [resetOf, ht, hf]
  rfl
/-- What is listed under a key after keeping the entries of some keys. -/
theorem tget?_filter_key {α : Type} (q : Nat → Bool) (k : Nat) : ∀ t : Tab α,
    tget? k (t.filter fun x => q x.1) = if q k = true then tget? k t else none
  | [] => by simp [tget?]
  | (k', v) :: r => by
    rw [List.filter_cons]
    by_cases hk : k' = k
    · subst hk
      by_cases hq : q k' = true
      · simp [hq, tget?]
      · simp [hq, tget?_filter_key q k' r]
    · by_cases hq : q k' = true
      · simp [hq, tget?, hk, tget?_filter_key q k r]
      · simp [hq, tget?, hk, tget?_filter_key q k r]

/-- The registers of some offsets keep their values, the others go back to their reset values. -/
theorem State.reg_filter (s : State) (q : Nat → Bool) (a : Nat) :
    { s with regs := s.regs.filter fun x => q x.1 }.reg a = if q a = true then s.reg a else resetOf a := by
  show (tget? a (s.regs.filter fun x => q x.1)).getD (resetOf a) = _
  rw [tget?_filter_key]
  split
  · rfl
  · rfl

/-- The registers that the later steps of a partition reset read: PT_STAT, CAP_GRP and HW_STAT. -/
def Steady (a : Nat) : Prop := (∃ p < 8, a = rPT_STAT p) ∨ (∃ g < 256, a = rCAP_GRP g) ∨ ∃ q < 8, a = rHW_STAT q

/-- The steady registers, and CORE_CTL of the cores. -/
def Watched (a : Nat) : Prop := Steady a ∨ ∃ c < 1024, a = rCORE_CTL c

/-- An offset that misses all of them. -/
theorem not_watched {a : Nat} (h : (a < 0x10080 ∨ 0x100C0 ≤ a) ∧ (a < 0xD801000 ∨ 0xD801800 ≤ a) ∧
    (a % 0x100000 ≠ 0 ∨ a < 0xD000000 ∨ 0xD800000 ≤ a) ∧ (a % 0x10000 ≠ 0xC0 ∨ a < 0x1000000 ∨ 0x5000000 ≤ a)) : ¬ Watched a := by
  rintro ((⟨p, hp, rfl⟩ | ⟨g, hg, rfl⟩ | ⟨q, hq, rfl⟩) | ⟨c, hc, rfl⟩)
  · simp only [rPT_STAT] at h; omega
  · simp only [rCAP_GRP] at h; omega
  · simp only [rHW_STAT] at h; omega
  · simp only [rCORE_CTL] at h; omega

/-- A register of a core outside its control block's CORE_CTL, whatever the number of the core. -/
theorem not_watched_core {c k : Nat} (h : k < 0x10000 ∧ k ≠ 0 ∧ k ≠ 0xC0 ∧ (k < 0x1000 ∨ 0x1800 ≤ k)) :
    ¬ Watched (0x1000000 + k + c * 0x10000) := by
  refine not_watched ⟨.inr (by omega), ?_, .inl (by omega), .inl (by omega)⟩
  omega

/-- Is the offset outside the blocks of core `c`, or its CORE_ID: what a core reset leaves (R83). -/
def outsideCore (c a : Nat) : Bool := !(decide (rCORE_ID c < a) && decide (a < rCORE_ID c + 0x10000))

theorem outsideCore_of_steady {c a : Nat} (hc : c < 1024) (ha : Steady a) : outsideCore c a = true := by
  have : ¬ (rCORE_ID c < a ∧ a < rCORE_ID c + 0x10000) := by
    rcases ha with ⟨p, hp, rfl⟩ | ⟨g, hg, rfl⟩ | ⟨n, hn, rfl⟩
    · unfold rCORE_ID rPT_STAT; omega
    · unfold rCORE_ID rCAP_GRP; omega
    · unfold rCORE_ID rHW_STAT; omega
  rwa [outsideCore, Bool.not_eq_true', ← Bool.not_eq_true, Bool.and_eq_true, decide_eq_true_eq, decide_eq_true_eq]

theorem outsideCore_coreCtl (c : Nat) : outsideCore c (rCORE_CTL c) = false := by
  have : rCORE_ID c < rCORE_CTL c ∧ rCORE_CTL c < rCORE_ID c + 0x10000 := by unfold rCORE_ID rCORE_CTL; omega
  simpa [outsideCore] using this

/-- From `s0` to `s` the cores of `l` have been reset and are held, and all else that the reset of a partition reads or must leave is
as it was. -/
structure CoresHeld (l : List Nat) (s0 s : State) : Prop where
  mem : s.mem = s0.mem
  port : ∀ p, s.port p = s0.port p
  sweeps : s.xsent = s0.xsent
  reports : s.ddPend = s0.ddPend
  grps : s.grps = s0.grps
  job : ∀ n, (s.slu n).job = (s0.slu n).job
  rgen : ∀ c, (s.core c).rgen = (s0.core c).rgen
  held : ∀ c ∈ l, (s.core c).rst = true ∧ s.flag (rCORE_CTL c) CORE_CTL_RUN = false
  other : ∀ c, c ∉ l → (s.core c).rst = (s0.core c).rst
  regs : ∀ a, Steady a → s.reg a = s0.reg a
  ids : ∀ c ∈ l, c < 1024

namespace CoresHeld

variable {l : List Nat} {s0 s : State}

theorem refl (s : State) : CoresHeld [] s s :=
  ⟨rfl, fun _ => rfl, rfl, rfl, rfl, fun _ => rfl, fun _ => rfl, fun _ h => absurd h List.not_mem_nil, fun _ _ => rfl, fun _ _ => rfl,
    fun _ h => absurd h List.not_mem_nil⟩

/-- An update of what the reset does not watch: queues and waiters of the synchronisation hubs, channels, the network. -/
theorem same (h : CoresHeld l s0 s) {t : State}
    (e : t = { s with net := t.net, kwaits := t.kwaits, harrs := t.harrs, hheld := t.hheld, hwaits := t.hwaits, chans := t.chans }) :
    CoresHeld l s0 t := by
  rw [e]
  exact { h with }

/-- An update of registers that leaves the watched ones. -/
theorem setRegs (h : CoresHeld l s0 s) {r : Tab Word} (hw : ∀ a, Watched a → { s with regs := r }.reg a = s.reg a) :
    CoresHeld l s0 { s with regs := r } :=
  { h with
    held := fun c hl => ⟨(h.held c hl).1, (State.flag_congr (hw _ (.inr ⟨c, h.ids c hl, rfl⟩)) _).trans (h.held c hl).2⟩
    regs := fun a ha => (hw a (.inl ha)).trans (h.regs a ha) }

theorem setReg (h : CoresHeld l s0 s) {a : Nat} (v : Word) (n : ¬ Watched a) : CoresHeld l s0 (s.setReg a v) :=
  h.setRegs fun _ hb => State.reg_setReg_ne s v fun e => n (e ▸ hb)

theorem resetReg (h : CoresHeld l s0 s) {a : Nat} (n : ¬ Watched a) : CoresHeld l s0 (s.resetReg a) :=
  h.setRegs fun _ hb => State.reg_resetReg_ne s fun e => n (e ▸ hb)

/-- A change of a core that leaves its reset state. -/
theorem modCore (h : CoresHeld l s0 s) (c : Nat) {f : Core → Core} (hf : ∀ k, (f k).rst = k.rst ∧ (f k).rgen = k.rgen) :
    CoresHeld l s0 (s.modCore c f) := by
  have hk : ∀ d, ((s.modCore c f).core d).rst = (s.core d).rst ∧ ((s.modCore c f).core d).rgen = (s.core d).rgen := fun d => by
    by_cases hd : d = c
    · subst hd; rw [State.core_modCore_self]; exact hf _
    · rw [State.core_modCore_ne _ _ hd]; exact ⟨rfl, rfl⟩
  exact { h with
    rgen := fun d => (hk d).2.trans (h.rgen d)
    held := fun d hd => ⟨(hk d).1.trans (h.held d hd).1, (h.held d hd).2⟩
    other := fun d hd => (hk d).1.trans (h.other d hd) }

/-- A change of a Sluice unit that leaves its job. -/
theorem modSlu (h : CoresHeld l s0 s) (n : Nat) {f : Slu → Slu} (hf : ∀ x, (f x).job = x.job) : CoresHeld l s0 (s.modSlu n f) := by
  have hx : ∀ m, ((s.modSlu n f).slu m).job = (s.slu m).job := fun m => by
    by_cases hm : m = n
    · subst hm; exact (congrArg Slu.job (tget_tset_self _ _ _ _)).trans (hf _)
    · exact congrArg Slu.job (tget_tset_ne _ _ hm _)
  exact { h with job := fun m => (hx m).trans (h.job m) }

/-! Knots and hitches. -/

theorem countCanal (h : CoresHeld l s0 s) (p : Packet) : CoresHeld l s0 (countWay.countCanal p s) := by
  unfold countWay.countCanal
  split
  · split
    · exact h.setReg _ (not_watched (by decide))
    · exact h
  · exact h

theorem countWay (h : CoresHeld l s0 s) (p : Packet) : CoresHeld l s0 (countWay p s) := by
  unfold Machine.countWay
  split
  · exact h
  · split
    · split
      · exact h.countCanal p
      · split
        · exact h
        · exact h.setReg _ (by split <;> exact not_watched (by decide))
    · exact h.countCanal p

theorem send (h : CoresHeld l s0 s) (p : Packet) : CoresHeld l s0 (s.send p) := (h.countWay p).same rfl

theorem modCtx (h : CoresHeld l s0 s) (c i : Nat) (f : Ctx → Ctx) : CoresHeld l s0 (s.modCtx c i f) :=
  h.modCore c fun _ => ⟨rfl, rfl⟩

theorem knotDone (h : CoresHeld l s0 s) (c i gd v : Nat) (acq : Bool) : CoresHeld l s0 (knotDone c i gd v acq s) := by
  have h1 : CoresHeld l s0 (if acq then acquire c s else s) := by
    split
    · exact h.modCore c fun _ => ⟨rfl, rfl⟩
    · exact h
  exact ((h1.modCtx c i _).modCtx c i _).setReg _ (not_watched_core (k := 0xA0) (by decide))

theorem giveGrant (h : CoresHeld l s0 s) (key : Nat) (g : KWaiter × Nat) : CoresHeld l s0 (giveGrant key g s) := by
  obtain ⟨w, v⟩ := g
  unfold Machine.giveGrant
  dsimp only
  split
  · split
    · exact h.knotDone _ _ _ _ _
    · exact h
  · exact h.send _

/-- No knot word is a watched register, whatever its key. -/
theorem not_watched_knotReg (key : Nat) : ¬ Watched (knotReg key) := by
  unfold knotReg knotChip
  split
  next hk =>
    have : key < 8192 := of_decide_eq_true hk
    exact not_watched (by unfold rCK; omega)
  next =>
    have := Nat.mod_lt (key - 8192) (by decide : 0 < 64)
    have e : rKN (knotCore key) ((key - 8192) % 64) = 0x1000000 + (0xC000 + (key - 8192) % 64 * 8) + knotCore key * 0x10000 := by
      unfold rKN; omega
    rw [e]
    exact not_watched_core (by omega)

theorem release (h : CoresHeld l s0 s) (key n : Nat) : CoresHeld l s0 (release key n s) := by
  unfold Machine.release
  dsimp only
  refine each_keeps (P := CoresHeld l s0) (fun g _ k => k.giveGrant key g) ?_
  exact setReg (h.same rfl) _ (not_watched_knotReg key)

/-- The registers of a hitch. -/
theorem not_watched_hitch {h k : Nat} (hh : h < 64) (hk : k < 0x20) : ¬ Watched (0xC100000 + k + h * 0x20) := not_watched (by omega)

theorem setHwaits (h : CoresHeld l s0 s) {n : Nat} (hn : n < 64) (ps : List Packet) : CoresHeld l s0 (setHwaits n ps s) :=
  setReg (h.same rfl) _ (not_watched_hitch (k := 8) hn (by decide))

theorem knotReset (h : CoresHeld l s0 s) (c : Nat) : CoresHeld l s0 (knotReset c s) := by
  have hreg : ∀ j < 64, ¬ Watched (rKN c j) := fun j hj => by
    have e : rKN c j = 0x1000000 + (0xC000 + j * 8) + c * 0x10000 := by unfold rKN; omega
    rw [e]
    exact not_watched_core (by omega)
  unfold Machine.knotReset
  extract_lets -merge +onlyGivenNames s1
  have h1 : CoresHeld l s0 s1 := upto_keeps_lt (P := CoresHeld l s0) (fun j hj _ k => k.resetReg (hreg j hj)) h
  clear_value s1
  extract_lets -merge +onlyGivenNames s2 s3
  have h3 : CoresHeld l s0 s3 :=
    same (((h1.resetReg (not_watched_core (k := 0xC200) (by decide))).resetReg (not_watched_core (k := 0xC208) (by decide))).resetReg
      (not_watched_core (k := 0xC210) (by decide))) rfl
  clear_value s3
  extract_lets -merge +onlyGivenNames s4
  have h4 : CoresHeld l s0 s4 := by
    refine each_keeps (P := CoresHeld l s0) (fun x t k => ?_) h3
    extract_lets -merge +onlyGivenNames key mine
    split
    · exact k
    · exact release (each_keeps (P := CoresHeld l s0) (fun w _ k' => k'.send _) (k.same rfl)) _ _
  clear_value s4
  extract_lets -merge +onlyGivenNames s5
  have h5 : CoresHeld l s0 s5 := by
    refine upto_keeps_lt (P := CoresHeld l s0) (fun j hj t k => ?_) h4
    extract_lets -merge +onlyGivenNames cs
    split
    · exact setReg (k.same rfl) _ (not_watched_hitch (k := 8) hj (by decide))
    · exact k
  clear_value s5
  refine upto_keeps_lt (P := CoresHeld l s0) (fun j hj t k => ?_) h5
  extract_lets -merge +onlyGivenNames ps
  split
  · exact k.setHwaits hj _
  · exact k

theorem hitchReset (h : CoresHeld l s0 s) (p : Nat) : CoresHeld l s0 (hitchReset p s) := by
  refine upto_keeps_lt (P := CoresHeld l s0) (fun j hj t k => ?_) h
  dsimp only
  split
  · have hcfg := not_watched_hitch (k := 0) hj (by decide)
    have hstat := not_watched_hitch (k := 8) hj (by decide)
    exact (setReg (same ((k.setReg _ hcfg).setReg _ hstat) rfl) _ hstat).setHwaits hj _
  · exact k

theorem culvertReset (h : CoresHeld l s0 s) (c : Nat) : CoresHeld l s0 (culvertReset c s) := by
  have hreg : ∀ n < 8, ∀ j < 7, ¬ Watched (rCV_HEAD c n + 8 * j) := fun n hn j hj => by
    have e : rCV_HEAD c n + 8 * j = 0x1000000 + (0x8000 + n * 0x40 + 8 * j) + c * 0x10000 := by unfold rCV_HEAD; omega
    rw [e]
    exact not_watched_core (by omega)
  unfold Machine.culvertReset
  extract_lets -merge +onlyGivenNames s1 s2
  have h1 : CoresHeld l s0 s1 := upto_keeps (P := CoresHeld l s0) (fun _ _ k => k.same rfl) h
  have h2 : CoresHeld l s0 s2 := upto_keeps_lt (P := CoresHeld l s0)
    (fun n hn _ k => upto_keeps_lt (P := CoresHeld l s0) (fun j hj _ k' => k'.resetReg (hreg n hn j hj)) k) h1
  exact ((h2.resetReg (not_watched_core (k := 0x8200) (by decide))).resetReg (not_watched_core (k := 0x8208) (by decide))).resetReg
    (not_watched_core (k := 0x8210) (by decide))

/-! One core, and all cores of a list. -/

/-- The registers of core `c` go back to their reset values. -/
theorem regsReset (h : CoresHeld l s0 s) {c : Nat} (hc : c < 1024) :
    CoresHeld l s0 { s with regs := s.regs.filter fun x => outsideCore c x.1 } := by
  refine { h with held := fun d hd => ⟨(h.held d hd).1, ?_⟩, regs := fun a ha => ?_ }
  · show fbit (State.reg _ _) _ = false
    rw [State.reg_filter]
    split
    · exact (h.held d hd).2
    · exact resetOf_coreCtl (h.ids d hd)
  · rw [State.reg_filter, if_pos (outsideCore_of_steady hc ha)]
    exact h.regs a ha

/-- A core whose CORE_CTL.RUN is 0 joins the held cores when it is put in reset. -/
theorem hold (h : CoresHeld l s0 s) {c : Nat} (hc : c < 1024) (hr : s.flag (rCORE_CTL c) CORE_CTL_RUN = false) {f : Core → Core}
    (hf : ∀ k, (f k).rst = true ∧ (f k).rgen = k.rgen) : CoresHeld (c :: l) s0 (s.modCore c f) := by
  have hk : (s.modCore c f).core c = f (s.core c) := State.core_modCore_self _ _ _
  have hne : ∀ d, d ≠ c → (s.modCore c f).core d = s.core d := fun d hd => State.core_modCore_ne _ _ hd
  refine { h with rgen := fun d => ?_, held := fun d hd => ?_, other := fun d hd => ?_, ids := fun d hd => ?_ }
  · by_cases hd : d = c
    · subst hd; rw [hk, (hf _).2, h.rgen]
    · rw [hne d hd, h.rgen]
  · by_cases hdc : d = c
    · subst hdc; exact ⟨by rw [hk, (hf _).1], hr⟩
    · rw [hne d hdc]
      exact h.held d (List.mem_of_ne_of_mem hdc hd)
  · rw [hne d fun e => hd (e ▸ List.mem_cons_self)]
    exact h.other d fun e => hd (List.mem_cons_of_mem _ e)
  · rcases List.mem_cons.mp hd with e | e
    · exact e ▸ hc
    · exact h.ids d e

/-- A core that is cleared and then put in reset joins the held cores. -/
theorem coreClear (h : CoresHeld l s0 s) {c : Nat} (hc : c < 1024) (tx : List Nat) :
    CoresHeld (c :: l) s0 ((coreClear c s).modCore c fun k => { k with rst := true, rstTx := tx }) := by
  unfold Machine.coreClear
  extract_lets -merge +onlyGivenNames lo rt s1
  have h1 : CoresHeld l s0 s1 := (h.culvertReset c).knotReset c
  clear_value s1
  extract_lets -merge +onlyGivenNames s2 s3
  have hboot : rCORE_CTL c ≠ rBOOT_VEC c := by unfold rCORE_CTL rBOOT_VEC; omega
  have hfl : rCORE_CTL c ≠ rFL_CTL c := by unfold rCORE_CTL rFL_CTL; omega
  have h2 : CoresHeld l s0 s2 := h1.regsReset hc
  have h3 : CoresHeld l s0 s3 :=
    setReg (h2.setReg _ (not_watched_core (k := 0xC8) (by decide))) _ (not_watched_core (k := 0x5000) (by decide))
  have hr : s3.flag (rCORE_CTL c) CORE_CTL_RUN = false := by
    have e : s3.reg (rCORE_CTL c) = resetOf (rCORE_CTL c) := by
      refine (State.reg_setReg_ne _ _ hfl).trans ((State.reg_setReg_ne _ _ hboot).trans ?_)
      exact (State.reg_filter s1 (outsideCore c) _).trans (if_neg (by rw [outsideCore_coreCtl]; decide))
    rw [State.flag, e]
    exact resetOf_coreCtl hc
  clear_value s3
  rw [State.modCore_modCore]
  exact h3.hold hc hr fun _ => ⟨rfl, rfl⟩

end CoresHeld
end Sys2Proof.Machine
end

section
/-! A partition reset as a whole (R361, R362), and its end. -/

namespace Sys2Proof.Machine

/-- What a partition reset does to one of its cores: it is cleared and held, and keeps the numbers of its outstanding requests
(R362). -/
def holdCore (c : Nat) (s : State) : State :=
  let k := s.core c
  let unsent := k.outq.map fun q => q.txid
  let tx := k.txUsed.filter fun x => !lhas x unsent && !lhas x k.deadTx
  (coreClear c s).modCore c fun k => { k with rst := true, rstTx := tx }

namespace CoresHeld

variable {l : List Nat} {s0 s : State}

theorem holdCores : ∀ (cs : List Nat) {l : List Nat} {s : State}, (∀ c ∈ cs, c < 1024) → CoresHeld l s0 s →
    CoresHeld (cs.reverse ++ l) s0 (each holdCore cs s)
  | [], _, _, _, h => h
  | c :: r, l, s, hc, h => by
    rw [List.reverse_cons, List.append_assoc, List.singleton_append, each]
    exact holdCores r (fun d hd => hc d (List.mem_cons_of_mem _ hd)) (h.coreClear (hc c List.mem_cons_self) _)

/-- With no job running the Sluice units only drop queued jobs. -/
theorem sluReset (h : CoresHeld l s0 s) (p : Nat) (hj : ∀ n, n < 16 → (s0.slu n).job = none) : CoresHeld l s0 (sluReset p s) := by
  refine upto_keeps_lt (P := CoresHeld l s0) (fun n hn t k => ?_) h
  extract_lets -merge +onlyGivenNames t1 x
  have hs : CoresHeld l s0 (t.modSlu n fun x => { x with queue := x.queue.filter fun j => j.2 != p }) := k.modSlu n fun _ => rfl
  have hw : ¬ Watched (rSLU_STAT n) := not_watched (by unfold rSLU_STAT; omega)
  have h1 : CoresHeld l s0 t1 := hs.setReg _ hw
  have hx : x.job = none := (h1.job n).trans (hj n hn)
  rw [hx]
  exact h1

/-- With no group of the partition OK the Capstan fails none. -/
theorem capstanReset (h : CoresHeld l s0 s) (p : Nat) (hg : ∀ g, g < 256 → grpPart s0 g = p → grpState s0 g ≠ cgOK) :
    CoresHeld l s0 (capstanReset p s) := by
  have : Machine.capstanReset p s = s := by
    refine each_id fun g hm => ?_
    have hlt : g < 256 := List.mem_range.mp hm
    have hr : s.reg (rCAP_GRP g) = s0.reg (rCAP_GRP g) := h.regs _ (.inr (.inl ⟨g, hlt, rfl⟩))
    split
    next e =>
      refine if_pos ?_
      rw [grpState, State.fld_congr hr]
      exact hg g hlt ((State.fld_congr hr _).symm.trans e)
    next => rfl
  rw [this]
  exact h

theorem hcReset (h : CoresHeld l s0 s) (p : Nat) : CoresHeld l s0 (hcReset p s) := by
  refine upto_keeps_lt (P := CoresHeld l s0) (fun q hq t k => ?_) h
  refine upto_keeps_lt (P := CoresHeld l s0) (fun n hn u k' => ?_) k
  split
  · have hw : ¬ Watched (Chan.hc q n).rStat := by
      show ¬ Watched (0xD001000 + q * 0x100000 + n * 0x40 + 0x10)
      exact not_watched (by omega)
    exact setReg (same (k'.setReg _ hw) rfl) _ hw
  · exact k'

theorem ringQuiet (h : CoresHeld l s0 s) (hq : RingQuiet s0) : RingQuiet s := by
  obtain ⟨hrx, htx, hsw, hrep, hrun⟩ := hq
  refine ⟨fun p hp => by rw [h.port]; exact hrx p hp, fun p hp => ?_, by rw [h.sweeps]; exact hsw, by rw [h.reports]; exact hrep,
    by rw [h.grps]; exact hrun⟩
  rw [h.port, hwState, State.fld_congr (h.regs _ (.inr (.inr ⟨p, hp, rfl⟩)))]
  exact htx p hp

theorem idled (h : CoresHeld l s0 s) {t : State} (k : Idled s t) : CoresHeld l s0 t := by
  have h' : CoresHeld l s0 { s with regs := t.regs } := h.setRegs fun a _ => (State.reg_congr rfl a).trans (k.reg a)
  rw [k.rest]
  exact { h' with port := fun p => (k.port p).trans (h.port p) }

end CoresHeld

/-- Which cores a partition has depends on its range and on which cores are enabled. -/
theorem partCores_congr {s t : State} {p : Nat} (hr : t.reg (rPT_RANGE p) = s.reg (rPT_RANGE p)) (hc : t.cores = s.cores) :
    t.partCores p = s.partCores p := by
  unfold State.partCores State.owns State.inCols
  simp only [State.fld_congr hr, State.flag_congr hr, State.core_congr hc]

/-- The reset of a partition that is neither OFF nor in a reset: STATE is RESETTING and its cores are held (R361). -/
theorem ptResetStart_coresHeld {s : State} {p : Nat} (hst : s.fld (rPT_STAT p) PT_STAT_STATE = 1 ∨ s.fld (rPT_STAT p) PT_STAT_STATE = 3)
    (hq : RingQuiet s) (hg : ∀ g, g < 256 → grpPart s g = p → grpState s g ≠ cgOK) (hj : ∀ n, n < 16 → (s.slu n).job = none)
    (hp : p < 8) : CoresHeld (s.partCores p).reverse (s.setFld (rPT_STAT p) PT_STAT_STATE 2) (ptResetStart p s) := by
  have hcores : (s.setFld (rPT_STAT p) PT_STAT_STATE 2).partCores p = s.partCores p :=
    partCores_congr (State.reg_setFld_ne _ _ _ (by unfold rPT_RANGE rPT_STAT; omega)) rfl
  have hq1 : RingQuiet (s.setFld (rPT_STAT p) PT_STAT_STATE 2) := by
    obtain ⟨hrx, htx, hsw, hrep, hrun⟩ := hq
    refine ⟨hrx, fun n hn => ?_, hsw, hrep, hrun⟩
    rw [hwState, State.fld_setFld_ne _ _ _ _ (by unfold rHW_STAT rPT_STAT; omega)]
    exact htx n hn
  have hg1 : ∀ g, g < 256 → grpPart (s.setFld (rPT_STAT p) PT_STAT_STATE 2) g = p →
      grpState (s.setFld (rPT_STAT p) PT_STAT_STATE 2) g ≠ cgOK := fun g hlt => by
    have hne : rCAP_GRP g ≠ rPT_STAT p := by unfold rCAP_GRP rPT_STAT; omega
    rw [grpPart, grpState, State.fld_setFld_ne _ _ _ _ hne, State.fld_setFld_ne _ _ _ _ hne]
    exact hg g hlt
  have e : ptResetStart p s = ringPump (hcReset p (capstanReset p (sluReset p (hitchReset p
      (each holdCore ((s.setFld (rPT_STAT p) PT_STAT_STATE 2).partCores p) (s.setFld (rPT_STAT p) PT_STAT_STATE 2)))))) :=
    if_neg (by omega)
  rw [e, hcores]
  have h1 := (CoresHeld.refl (s.setFld (rPT_STAT p) PT_STAT_STATE 2)).holdCores (s.partCores p) fun c hc => partCores_lt hc
  rw [List.append_nil] at h1
  have h2 := (((h1.hitchReset p).sluReset p hj).capstanReset p hg1).hcReset p
  exact h2.idled (ringPump_idled (h2.ringQuiet hq1))

/-- The end of the reset of each core of a list without repetitions. -/
theorem each_coreResetEnd_core (d : Nat) : ∀ {l : List Nat} (s : State), l.Nodup → (each coreResetEnd l s).core d =
    if d ∈ l then { s.core d with rgen := !(s.core d).rgen, rst := false, rstTx := [] } else s.core d
  | [], _, _ => rfl
  | c :: r, s, hn => by
    obtain ⟨hc, hr⟩ := List.nodup_cons.mp hn
    rw [each, each_coreResetEnd_core d _ hr]
    by_cases hd : d = c
    · subst hd
      rw [if_neg hc, if_pos List.mem_cons_self, coreResetEnd, State.core_modCore_self]
    · rw [coreResetEnd, State.core_modCore_ne _ _ hd]
      simp [hd]

theorem each_coreResetEnd_rest (l : List Nat) (s : State) :
    each coreResetEnd l s = { s with cores := (each coreResetEnd l s).cores } :=
  each_keeps (P := fun t : State => t = { s with cores := t.cores }) (fun c t h => by rw [coreResetEnd, h]; rfl) rfl

/-- When every request has ended the reset of a partition ends (R361). -/
theorem ptDrainDone_eq {s : State} {p : Nat} (hst : s.fld (rPT_STAT p) PT_STAT_STATE = 2)
    (hc : ∀ c, c ∈ s.partCores p → (s.core c).rstTx = []) :
    ptDrainDone p s = (each coreResetEnd (s.partCores p) s).setFld (rPT_STAT p) PT_STAT_STATE 3 := by
  refine if_pos ⟨hst, List.all_eq_true.mpr fun c h => ?_⟩
  rw [hc c h]
  rfl

end Sys2Proof.Machine
end

section
/-! The windows of R36 and R365: what the end of a window shows and counts. -/

namespace Sys2Proof.Machine

/-- The busy counters of the first `n` routers hold the window's counts, and no other register has changed. -/
theorem upto_rtBusy_reg (busy : List (Nat × Word)) (s : State) : ∀ n,
    (∀ r, r < n → (upto (fun r s => s.setReg (rRT_BUSY r) (tget 0 busy r)) n s).reg (rRT_BUSY r) = tget 0 busy r) ∧
    ∀ a, (∀ r, r < n → a ≠ rRT_BUSY r) → (upto (fun r s => s.setReg (rRT_BUSY r) (tget 0 busy r)) n s).reg a = s.reg a
  | 0 => ⟨fun _ h => absurd h (Nat.not_lt_zero _), fun _ _ => rfl⟩
  | n + 1 => by
    obtain ⟨hin, hout⟩ := upto_rtBusy_reg busy s n
    refine ⟨fun r hr => ?_, fun a ha => ?_⟩
    · by_cases h : r = n
      · subst h; exact State.reg_setReg_self _ _ _
      · exact (State.reg_setReg_ne _ _ (by unfold rRT_BUSY; omega)).trans (hin r (by omega))
    · exact (State.reg_setReg_ne _ _ (ha n (Nat.lt_succ_self n))).trans (hout a fun r hr => ha r (Nat.lt_succ_of_lt hr))

theorem rtBusyWindow_rest (busy : List (Nat × Word)) (s : State) :
    rtBusyWindow busy s = { s with regs := (rtBusyWindow busy s).regs } :=
  upto_keeps (P := fun t : State => t = { s with regs := t.regs }) (fun _ t h => by rw [h]; rfl) rfl

/-- A counting field that wraps, counted up when `b`. -/
theorem fget_count_if (b : Bool) (v : Word) (f : Fld) (hf : f.hi < 64 := by decide) :
    fget (if b then fincr v f 1 else v) f = (fget v f + if b = true then 1 else 0) % 2 ^ (f.hi + 1 - f.lo) := by
  cases b
  · exact (Nat.mod_eq_of_lt (fget_lt v f)).symm
  · exact fget_fset_self v f _ hf

/-- The fields beside it keep their values. -/
theorem fget_count_if_other (b : Bool) (v : Word) {f g : Fld} (hg : g.hi < 64 := by decide) (h : f.hi < g.lo ∨ g.hi < f.lo := by decide) :
    fget (if b then fincr v f 1 else v) g = fget v g := by
  cases b
  · rfl
  · exact fget_fset_other v _ hg h

/-- The registers that the end of a window writes: the peaks, and a count for each kind of work that was deferred (R36, R40). -/
def bgShown (mem canal : Nat) (dmem dcanal : Bool) (s : State) : State :=
  let s := s.setFld rBG_MEM_PEAK BG_MEM_PEAK_CYCLES mem
  let s := s.setFld rBG_CANAL_PEAK BG_CANAL_PEAK_CYCLES canal
  let s := if dmem then s.setReg rBG_DEFER (fincr (s.reg rBG_DEFER) BG_DEFER_MEM_WINDOWS 1) else s
  if dcanal then s.setReg rBG_DEFER (fincr (s.reg rBG_DEFER) BG_DEFER_CANAL_WINDOWS 1) else s

section
variable (mem canal : Nat) (dmem dcanal : Bool) (s : State)

theorem bgShown_rest : bgShown mem canal dmem dcanal s = { s with regs := (bgShown mem canal dmem dcanal s).regs } := by
  cases dmem <;> cases dcanal <;> rfl

theorem bgShown_defer : (bgShown mem canal dmem dcanal s).reg rBG_DEFER =
    let v := if dmem then fincr (s.reg rBG_DEFER) BG_DEFER_MEM_WINDOWS 1 else s.reg rBG_DEFER
    if dcanal then fincr v BG_DEFER_CANAL_WINDOWS 1 else v := by
  have h : ((s.setFld rBG_MEM_PEAK BG_MEM_PEAK_CYCLES mem).setFld rBG_CANAL_PEAK BG_CANAL_PEAK_CYCLES canal).reg rBG_DEFER =
      s.reg rBG_DEFER := by
    rw [State.reg_setFld_ne _ _ _ (by decide), State.reg_setFld_ne _ _ _ (by decide)]
  unfold bgShown
  cases dmem <;> cases dcanal <;> simp [h]

/-- The counts of deferrals touch the peaks in no way. -/
theorem bgShown_peak {a : Nat} (ha : a ≠ rBG_DEFER) : (bgShown mem canal dmem dcanal s).reg a =
    ((s.setFld rBG_MEM_PEAK BG_MEM_PEAK_CYCLES mem).setFld rBG_CANAL_PEAK BG_CANAL_PEAK_CYCLES canal).reg a := by
  unfold bgShown
  cases dmem <;> cases dcanal <;> simp [State.reg_setReg_ne _ _ ha]

theorem bgShown_memPeak : (bgShown mem canal dmem dcanal s).fld rBG_MEM_PEAK BG_MEM_PEAK_CYCLES = mem % 2 ^ 21 := by
  rw [State.fld_congr (bgShown_peak mem canal dmem dcanal s (by decide)), State.fld_setFld_ne _ _ _ _ (by decide)]
  exact State.fld_setFld_self _ _ _ _

theorem bgShown_canalPeak : (bgShown mem canal dmem dcanal s).fld rBG_CANAL_PEAK BG_CANAL_PEAK_CYCLES = canal % 2 ^ 21 := by
  rw [State.fld_congr (bgShown_peak mem canal dmem dcanal s (by decide))]
  exact State.fld_setFld_self _ _ _ _

theorem bgShown_memWindows : (bgShown mem canal dmem dcanal s).fld rBG_DEFER BG_DEFER_MEM_WINDOWS =
    (s.fld rBG_DEFER BG_DEFER_MEM_WINDOWS + if dmem = true then 1 else 0) % 2 ^ 32 := by
  rw [State.fld, bgShown_defer]
  exact (fget_count_if_other _ _).trans (fget_count_if _ _ _)

theorem bgShown_canalWindows : (bgShown mem canal dmem dcanal s).fld rBG_DEFER BG_DEFER_CANAL_WINDOWS =
    (s.fld rBG_DEFER BG_DEFER_CANAL_WINDOWS + if dcanal = true then 1 else 0) % 2 ^ 32 := by
  rw [State.fld, bgShown_defer]
  refine (fget_count_if _ _ _).trans ?_
  rw [fget_count_if_other _ _ (f := BG_DEFER_MEM_WINDOWS)]
  rfl

end

/-- The cycles that each unit spent in its last window, once the window of island `k` has ended. -/
def bgLastAt (k : Nat) (s : State) : Tab Nat :=
  each (fun (x : Nat × Nat) t => tset x.1 x.2 t) (s.bg.filter fun x => unitIsland x.1 == k)
    (s.bgLast.map fun x => if unitIsland x.1 == k then (x.1, 0) else x)

/-- The largest of them among some units. -/
def bgPeak (k : Nat) (s : State) (sel : Nat → Bool) : Nat :=
  ((bgLastAt k s).filter fun x => sel x.1).foldl (fun m x => max m x.2) 0

/-- Does work of some of the island's units wait for the next window. -/
def bgDeferred (k : Nat) (s : State) (sel : Nat → Bool) : Bool := (s.bgDefer.filter fun u => unitIsland u == k).any sel

/-- Is a unit a Canal link, and not a memory controller. -/
def isLink (u : Nat) : Bool := decide (0xC00 ≤ u)

/-- The state with the registers written that the end of the island's window writes. -/
def bgRegs (k : Nat) (s : State) : State :=
  bgShown (bgPeak k s fun u => !isLink u) (bgPeak k s isLink) (bgDeferred k s fun u => !isLink u) (bgDeferred k s isLink) s

theorem bgRegs_rest (k : Nat) (s : State) : bgRegs k s = { s with regs := (bgRegs k s).regs } := bgShown_rest _ _ _ _ s

/-- The end of a window: the registers, then a fresh budget for the island's units (R36). -/
theorem bgWindowEnd_eq (k : Nat) (s : State) : bgWindowEnd k s =
    { bgRegs k s with
      bg := s.bg.filter fun x => !(unitIsland x.1 == k), bgLast := bgLastAt k s
      bgDefer := s.bgDefer.filter fun u => !(unitIsland u == k) } := by
  have hbg : (bgRegs k s).bg = s.bg := by rw [bgRegs_rest]
  have hdefer : (bgRegs k s).bgDefer = s.bgDefer := by rw [bgRegs_rest]
  rw [← hbg, ← hdefer]
  rfl

/-- Budgets spent in the island's window are free again, and the others stand. -/
theorem bgWindowEnd_bg (k : Nat) (s : State) (u : Nat) :
    tget 0 (bgWindowEnd k s).bg u = if unitIsland u = k then 0 else tget 0 s.bg u := by
  rw [bgWindowEnd_eq]
  show (tget? u (s.bg.filter fun x => !(unitIsland x.1 == k))).getD 0 = _
  rw [tget?_filter_key fun u => !(unitIsland u == k)]
  by_cases h : unitIsland u = k
  · simp [h]
  · simp [h, tget]

/-- The peak of a window in which one unit alone has worked. -/
theorem bgPeak_single {k u n : Nat} {s : State} (hbg : s.bg = [(u, n)]) (hu : unitIsland u = k) (hl : s.bgLast = []) (sel : Nat → Bool) :
    bgPeak k s sel = if sel u = true then n else 0 := by
  have hlast : bgLastAt k s = [(u, n)] := by simp [bgLastAt, hbg, hl, hu, each, tset]
  rw [bgPeak, hlast]
  cases h : sel u
  · simp [h]
  · simp [h]

theorem bgDeferred_mem (k : Nat) (s : State) :
    bgDeferred k s (fun u => !isLink u) = s.bgDefer.any fun u => decide (unitIsland u = k ∧ u < 0xC00) := by
  rw [bgDeferred, List.any_filter]
  congr 1
  funext u
  simp only [isLink, ← decide_not, Nat.not_le, Bool.decide_and]
  rfl

theorem bgDeferred_link (k : Nat) (s : State) :
    bgDeferred k s isLink = s.bgDefer.any fun u => decide (unitIsland u = k ∧ 0xC00 ≤ u) := by
  rw [bgDeferred, List.any_filter]
  congr 1
  funext u
  rw [Bool.decide_and]
  rfl

end Sys2Proof.Machine
end

section
/-! Partitions, register accesses and windows (R13, R36, R40, R359, R361, R362, R365): what each command gives. -/

namespace Sys2Proof.Machine

/-- An accepted range write (R359). -/
theorem ptRangeWrite_gives {s : State} {o : Origin} {p : Nat} {v : Word} (hp : p < 8) (hm : mayReg s o true (rPT_RANGE p) = true)
    (hk : ptRangeOk p v s = true) : Gives (.ptRangeWrite o p v) s fun t =>
      t.rsp = .ok 0 ∧ t.fld (rPT_RANGE p) PT_RANGE_FIRST = fget v PT_RANGE_FIRST ∧ t.fld (rPT_RANGE p) PT_RANGE_LAST = fget v PT_RANGE_LAST ∧
      t.flag (rPT_RANGE p) PT_RANGE_EN = fbit v PT_RANGE_EN ∧ t.mem = s.mem ∧
      (∀ c, coreIdOk c = true → t.part c =
        if fbit v PT_RANGE_EN = true ∧ (s.core c).enabled = true ∧ fget v PT_RANGE_FIRST ≤ coreX c ∧ coreX c ≤ fget v PT_RANGE_LAST then p
        else s.part c) :=
  ⟨_, congrArg Host.Outcome.next (regWrite_ok (ptRangeSet p v) hm hk), rfl, ptRangeSet_fget hp v s _ (by decide),
    ptRangeSet_fget hp v s _ (by decide), congrArg (· != 0) (ptRangeSet_fget hp v s PT_RANGE_EN (by decide)), ptRangeSet_mem p v s,
    fun _ hc => ptRangeSet_part hp v s hc⟩

/-- A partition reset (R361). -/
theorem ptReset_gives {s : State} {o : Origin} {p : Nat} (hp : p < 8) (hm : mayReg s o true (rPT_CTL p) = true) (hq : RingQuiet s)
    (hg : ∀ g, g < 256 → grpPart s g = p → grpState s g ≠ cgOK) (hj : ∀ n, n < 16 → (s.slu n).job = none)
    (hst : s.fld (rPT_STAT p) PT_STAT_STATE = 1 ∨ s.fld (rPT_STAT p) PT_STAT_STATE = 3) : Gives (.ptReset o p) s fun t =>
      t.rsp = .ok 0 ∧ t.fld (rPT_STAT p) PT_STAT_STATE = 2 ∧ t.mem = s.mem ∧
      (∀ c, c ∈ s.partCores p → (t.core c).rst = true ∧ t.flag (rCORE_CTL c) CORE_CTL_RUN = false ∧
        (t.core c).rgen = (s.core c).rgen) ∧
      (∀ c, c ∉ s.partCores p → (t.core c).rst = (s.core c).rst ∧ (t.core c).rgen = (s.core c).rgen) := by
  have h := ptResetStart_coresHeld hst hq hg hj hp
  refine ⟨_, congrArg Host.Outcome.next (regWrite_ok (ptResetStart p) hm rfl), rfl, ?_, h.mem, fun c hc => ?_, fun c hc => ?_⟩
  · exact (State.fld_congr (h.regs _ (.inl ⟨p, hp, rfl⟩)) _).trans (State.fld_setFld_self _ _ _ _)
  · obtain ⟨hrst, hrun⟩ := h.held c (List.mem_reverse.mpr hc)
    exact ⟨hrst, hrun, h.rgen c⟩
  · exact ⟨h.other c fun e => hc (List.mem_reverse.mp e), h.rgen c⟩

/-- The end of a partition reset (R361). -/
theorem ptResetDrainDone_gives {s : State} {p : Nat} (hst : s.fld (rPT_STAT p) PT_STAT_STATE = 2)
    (hc : ∀ c, c ∈ s.partCores p → (s.core c).rstTx = []) : Gives (.ptResetDrainDone p) s fun t =>
      t.fld (rPT_STAT p) PT_STAT_STATE = 3 ∧ t.mem = s.mem ∧ t.net = s.net ∧
      (∀ c, c ∈ s.partCores p → (t.core c).rst = false ∧ (t.core c).rgen = !(s.core c).rgen) ∧
      (∀ c, c ∉ s.partCores p → t.core c = s.core c) := by
  have hrest := each_coreResetEnd_rest (s.partCores p) s
  have hcore := fun c => each_coreResetEnd_core c s (nodup_partCores s p)
  have e := ptDrainDone_eq hst hc
  generalize each coreResetEnd (s.partCores p) s = u at e hrest hcore
  refine ⟨_, congrArg Host.Outcome.next e, ?_, ?_, ?_, fun c hm => ?_, fun c hm => ?_⟩
  · exact State.fld_setFld_self _ _ _ _
  · rw [State.setFld_mem, hrest]
  · rw [State.setFld_net, hrest]
  · rw [State.core_setFld, hcore, if_pos hm]
    exact ⟨rfl, rfl⟩
  · rw [State.core_setFld, hcore, if_neg hm]

/-- A write to a register with no rule of its own (R11, R13). -/
theorem registerWrite_gives {s : State} {o : Origin} {a i off : Nat} {b : Blk} {r : RegRow} {v : Word} (hb : blkOf a = some (b, i, off))
    (hp : b ∈ plainBlks) (hr : regRow a = some r) (hm : mayReg s o true a = true) : Gives (.registerWrite o a v) s fun t =>
      t.rsp = .ok 0 ∧ (∀ j, j < 64 → (t.reg a).getLsbD j =
        ((if r.rw.testBit j = true ∨ (r.rwl.testBit j = true ∧ locked s a = false) then v.getLsbD j else (s.reg a).getLsbD j) &&
          !(r.w1c.testBit j && v.getLsbD j))) ∧ (∀ x, x ≠ a → t.reg x = s.reg x) ∧ t = { s with regs := t.regs, rsp := t.rsp } := by
  have e : mmioWrite o a v s = { typedWrite s a v with rsp := .ok 0 } :=
    (mmioWrite_plain hb hp (mayReg_aligned hm) o v s).trans (regWrite_ok _ hm rfl)
  refine ⟨_, congrArg Host.Outcome.next e, rfl, fun j hj => getLsbD_reg_typedWrite hr v hj, fun x hx => reg_typedWrite_ne s v hx, ?_⟩
  exact congrArg (fun t : State => { t with rsp := .ok 0 }) (typedWrite_rest s a v)

/-- A read of a register that is held as it is shown (R11, R13). -/
theorem registerReadClear_gives {s : State} {o : Origin} {a i off : Nat} {b : Blk} {r : RegRow} (hb : blkOf a = some (b, i, off))
    (hp : b ∈ shownBlks) (hr : regRow a = some r) (hm : mayReg s o false a = true) : Gives (.registerReadClear o a) s fun t =>
      t.rsp = .ok (s.reg a &&& ~~~ BitVec.ofNat 64 r.wo) ∧ t.reg a = s.reg a &&& ~~~ BitVec.ofNat 64 r.rc ∧
      (∀ x, x ≠ a → t.reg x = s.reg x) ∧ t = { s with regs := t.regs, rsp := t.rsp } := by
  refine ⟨_, congrArg Host.Outcome.next (mmioRead_shown hb hp hr hm), rfl, reg_readClear_self hr, fun x hx => reg_readClear_ne s hx, ?_⟩
  exact congrArg (fun t : State => { t with rsp := .ok (s.reg a &&& ~~~ n64 r.wo) }) (readClear_rest s a)

/-- The end of a budget window (R36, R40). -/
theorem bgWindowEnd_gives (s : State) (k : Nat) : Gives (.bgWindowEnd k) s fun t =>
    (∀ u, tget 0 t.bg u = if unitIsland u = k then 0 else tget 0 s.bg u) ∧
    (∀ u n, s.bg = [(u, n)] → unitIsland u = k → s.bgLast = [] → n < 2 ^ 21 →
      t.fld rBG_MEM_PEAK BG_MEM_PEAK_CYCLES = (if u < 0xC00 then n else 0) ∧
      t.fld rBG_CANAL_PEAK BG_CANAL_PEAK_CYCLES = (if u < 0xC00 then 0 else n)) ∧
    t.fld rBG_DEFER BG_DEFER_MEM_WINDOWS = (s.fld rBG_DEFER BG_DEFER_MEM_WINDOWS +
      (if (s.bgDefer.any fun u => decide (unitIsland u = k ∧ u < 0xC00)) = true then 1 else 0)) % 2 ^ 32 ∧
    t.fld rBG_DEFER BG_DEFER_CANAL_WINDOWS = (s.fld rBG_DEFER BG_DEFER_CANAL_WINDOWS +
      (if (s.bgDefer.any fun u => decide (unitIsland u = k ∧ 0xC00 ≤ u)) = true then 1 else 0)) % 2 ^ 32 ∧
    t.mem = s.mem ∧ t.cores = s.cores := by
  have hreg : ∀ a, (bgWindowEnd k s).reg a = (bgRegs k s).reg a := fun a => by rw [bgWindowEnd_eq]; rfl
  refine ⟨_, rfl, bgWindowEnd_bg k s, fun u n hbg hu hl hn => ?_, ?_, ?_, ?_, ?_⟩
  · rw [State.fld_congr (hreg _), State.fld_congr (hreg _), bgRegs, bgShown_memPeak, bgShown_canalPeak, bgPeak_single hbg hu hl,
      bgPeak_single hbg hu hl]
    by_cases h : u < 0xC00
    · have hi : isLink u = false := decide_eq_false (Nat.not_le.mpr h)
      rw [hi, if_pos h, if_pos h]
      exact ⟨Nat.mod_eq_of_lt hn, rfl⟩
    · have hi : isLink u = true := decide_eq_true (Nat.not_lt.mp h)
      rw [hi, if_neg h, if_neg h]
      exact ⟨rfl, Nat.mod_eq_of_lt hn⟩
  · rw [State.fld_congr (hreg _), bgRegs, bgShown_memWindows, bgDeferred_mem]
  · rw [State.fld_congr (hreg _), bgRegs, bgShown_canalWindows, bgDeferred_link]
  · rw [bgWindowEnd_eq, bgRegs_rest]
  · rw [bgWindowEnd_eq, bgRegs_rest]

/-- Settles O50, command by command. -/
theorem partitionsAndRegisters : Obligations.PartitionsAndRegisters := by
  refine ⟨fun s o p v hp hm => ⟨ptRangeWrite_gives hp hm, fun h => ?_⟩, fun s o p hp hm hq hg hj hst => ptReset_gives hp hm hq hg hj hst,
    fun s p _ hst hc => ptResetDrainDone_gives hst hc, fun s busy => ?_, fun s o a i off b r v hb hp hr => ⟨registerWrite_gives hb hp hr, ?_⟩,
    fun s o a i off b r hb hp hr hm => registerReadClear_gives hb hp hr hm, fun s o a hm hb => ?_, fun s k _ => bgWindowEnd_gives s k⟩
  · exact ⟨_, congrArg Host.Outcome.next (regWrite_refused _ (noCoreBlk_ptRange hp) (.inr (ptRangeOk_false h))), rfl⟩
  · obtain ⟨hin, hout⟩ := upto_rtBusy_reg busy s 704
    exact ⟨rtBusyWindow busy s, rfl, hin, hout, rtBusyWindow_rest busy s⟩
  · exact fun hm => ⟨_, congrArg Host.Outcome.next (mmioWrite_plain_refused hb hp hm v), rfl⟩
  · exact ⟨_, congrArg Host.Outcome.next (mmioRead_refused hm hb), rfl⟩

end Sys2Proof.Machine
end
